-- ==== Sys2Proof/Word.lean ====
section
/-! DEFINITION. The word types of the PK3234, the tagged sample, and the small operand types that the
rows of the opcode table carry. -/

namespace Sys2Proof

/-- A 32-bit word: command words, operands, status-window words and Q1.31 sample values. -/
abbrev Word := BitVec 32

/-- A byte of the host port, of a packet or of a memory. -/
abbrev Byte := BitVec 8

/-- A tagged sample (R22): a Q1.31 value with the tag bits OVR [3], SET [2], CUT [1], EPO [0] of Table 1.4. -/
structure Sample where
  val : Word
  tag : BitVec 4
  deriving DecidableEq, Repr

/-- The command word's fields below its opcode (Table 2.4) and the operand words that follow it. `session` says
whether the packet that carries the command is a session packet (R48, TYPE bit 7). COUNT is the number of operands. -/
structure CmdArgs where
  session : Bool
  flags : BitVec 4
  resv : BitVec 2
  mirror : Bool
  imm : Bool
  ops : List Word
  deriving DecidableEq, Repr

/-- Where a Fregon syllable executes: a stream core SC0–SC3 (R81), or the control processor (R120). -/
inductive Site where
  | sc (n : Fin 4)
  | cp
  deriving DecidableEq, Repr

/-- What a matrix beat meets (Table 10.13): a stored word that does not decode, the parity of its data, or that of its address and
control. -/
inductive BeatErr where
  | ecc | data | addr
  deriving DecidableEq, Repr

/-- An error that the next check of its place will find and correction does not cure (R364–R366, Table 10.13): FDMA's read of an
input lane, or of a flow's delay line; the word of an ingress flow on its way to SRAM and of an egress flow on its way to its
endpoint, as received; address and control, or data, of a master's next beat (Table 10.1: 0 to 3 a core's, 4 the CP's, 5 HDMA's, 6
FDMA's writes, 7 SEC's, 8 BIST's); the CP's next read of BROM; HDMA's read for READ_ST; a register of a core or of the CP; a core's checkpoint entries; the state of a seal (Table 12.9); sample `i` (16·port + sample) of the next
input frame a core computes from; FDMA's read of a GRAM word of ACTIVE's bank, or of a flow's context; and a word of OTP by
its offset, from 0x800 on of the redundant copy (R398, Table 10.11). -/
inductive Upset where
  | lane (n : Nat) (e : BeatErr)
  | delayWord (f : Nat) (e : BeatErr)
  | ingress (f : Nat) (received : Word)
  | egress (f : Nat) (received : Word)
  | request (master : Nat)
  | data (master : Nat)
  | brom
  | status
  | register (u : Site) (r : Nat)
  | checkpoint (n : Fin 4)
  | sealState (sid : Nat)
  | send (n : Fin 4) (i : Nat)
  | gain (off : Nat) (e : BeatErr)
  | context (f : Nat) (e : BeatErr)
  | otp (w : Nat)
  deriving DecidableEq, Repr

/-- The host port's header of a transaction (R43, R44): the I²C address it names, read in I²C mode only, and the transaction
code. -/
structure Xfer where
  addr : BitVec 7
  code : Byte
  deriving DecidableEq, Repr

/-- What a sample clock or a strobe does within a tick of the timebase, where the table has no row for it (log entry 145):
the modulator samples of an input channel's output period, oldest first, of its chain and of its odd sub-chain; the levels of a PDM data line at the rising and falling clock edges in the
support of its microphones' next sample; eight modulator samples of a channel; a DAC channel's interpolator takes its next sample; a DAC channel's final stage takes a step
of the given interpolation phase; an AES3 transmitter begins a frame; and the CP issues its next bundle (R120). -/
inductive Beat where
  | ain (ch : Nat) (even odd : List Int)
  | pdm (line : Nat) (edges : List (Bool × Bool))
  | mod (ch : Nat) (codes : List Int)
  | dac (d : Nat)
  | final (d : Nat) (phase : Nat)
  | aes (tx : Nat)
  | cp
  deriving DecidableEq, Repr

/-- A write transaction of the host port: its header and the bytes after it (R43, R45). -/
structure HostWrite where
  head : Xfer
  bytes : List Byte
  deriving DecidableEq, Repr

/-- A read transaction of the host port: its header and how many bytes the host reads (R43, R45). -/
structure HostRead where
  head : Xfer
  count : Nat
  deriving DecidableEq, Repr

/-- What the monitor of a reference buffer reports: its bank, and for how many ns it has been in tolerance (R127, R130). -/
structure RefReading where
  bank : Nat
  tol : Nat
  deriving DecidableEq, Repr

/-- What the frequency guard measures: the divider of the output, and that output's cycles in the guard's window (R331, R333). -/
structure GuardReading where
  ratio : Nat
  count : Nat
  deriving DecidableEq, Repr

/-- A tick of the timebase: periods of its source, and what the sample clocks do by its end (R338, log entry 145). -/
structure Tick where
  periods : Nat
  beats : List Beat
  deriving DecidableEq, Repr

/-- What the INJECT test of a channel reads at the capture point (R429): the codes of its two levels, and whether a sample carried
OVR. -/
structure InjectLevels where
  plus : Int
  minus : Int
  ovr : Bool
  deriving DecidableEq, Repr

/-- What a targeted self-test finds (Table 13.1): whether its patterns held, or the levels of each channel that INJECT drove. -/
inductive TestReading where
  | pattern (ok : Bool)
  | inject (l : List InjectLevels)
  deriving DecidableEq, Repr

/-- What SELFTEST finds (R440, R441): the addresses of the words a patrol pass could not correct, the levels of the channels that
INJECT drove, and the DC of the outputs that OFFSET measured, in µV. -/
structure SelftestReadings where
  rows : List Nat := []
  inject : List (Nat × InjectLevels) := []
  offset : List (Nat × Int) := []
  deriving DecidableEq, Repr

/-- The predicate field of a syllable (R92): it executes when p[PR] XOR PN is 1. -/
structure Pred where
  pn : Bool
  pr : BitVec 3
  deriving DecidableEq, Repr

/-- Which millrace ramp a TAP_RAMP_END concerns (R208, R209): a tap of a bus, a bus's contribution at a DAC channel,
or the block-path signal of a DAC channel under REPLACE. -/
inductive TapRamp where
  | tap (bus tap : Nat)
  | assign (bus dac : Nat)
  | block (dac : Nat)
  deriving DecidableEq, Repr

/-- What CAL.Z or CAL.F measured on one named channel (R146, R147). Values are Q1.31 codes; `noise` is in 0.01 dBFS,
`freqMilliHz` is the tone's frequency, `skewFs` the grid-lag deviation in fs, `marked` says that a measured sample
carried OVR, SET or CUT, `memErr` that an uncorrectable memory error fell in the measurement (Table 4.8). -/
structure CalMeas where
  ch : Nat
  mean : Int
  dMean : Int
  noise : Int
  freqMilliHz : Nat
  rms : Nat
  rmsOdd : Nat
  skewFs : Int
  marked : Bool
  memErr : Bool
  deriving DecidableEq, Repr

/-- What the margin planner's monitors read (R442–R444): for each of the 16 gauge pairs the counts of its stressed and of its
unstressed ring over 1 ms against XREF, the codes of SN25, SN26 and SN27, and the DCO control positions of PLLA and PLLB in
thousandths. -/
structure PlannerMeas where
  pairs : List (Nat × Nat)
  sn25 : Nat
  sn26 : Nat
  sn27 : Nat
  uA : Nat
  uB : Nat
  deriving DecidableEq, Repr

/-- The boot straps and the boot-time checks of R458, R459, R467 and Table 10.13: HOST_SEL high is I²C, BOOT_SEL high
is FLASH, the I²C address straps, TMODE, whether BROM and OTP passed their checks, and the XREF frequency in Hz as
the boot ROM measures it against the RC (R318). -/
structure Straps where
  i2c : Bool
  flash : Bool
  gpio14 : Bool
  gpio15 : Bool
  tmode : Bool
  bromOk : Bool
  otpOk : Bool
  xrefHz : Nat
  deriving DecidableEq, Repr

end Sys2Proof
end

