-- ==== Sys2Proof/Syntax.lean ====
section
/-! DEFINITION. The commands, events and syllables of the PK3234: one constructor per row of spec/opcode_table.json,
with the operands the host or the environment supplies. -/

namespace Sys2Proof

inductive Instr where
  /-- WRITE_PKT (R49): Host port transaction carrying one command packet, which is framed, checked against Table 2.3 and accepted or answered at packet level. -/
  | writePkt (x : HostWrite)
  /-- READ_PKT (R47): Host port transaction that sends the oldest unread response packet; the packet leaves the queue only when fully sent. -/
  | readPkt (x : HostRead)
  /-- READ_ST (R46): Host port transaction that captures a coherent range of status-window words, sends them with a CRC and clears RC fields when the transaction completes. -/
  | readSt (offset n : Nat) (x : HostRead)
  /-- PACKET_EXECUTE (R55): The CP executes the commands of an accepted packet in order, stops at the first status other than OK, and queues the response within 10 ms plus the stated command times. -/
  | packetExecute
  /-- NOP (R64): Command that does nothing and returns no results. -/
  | nop (a : CmdArgs)
  /-- DEV_INFO (R64): Command that returns the device ID, revision, firmware version and ROM API version. -/
  | devInfo (a : CmdArgs)
  /-- IRQ_MASK (R64): Command that writes the writable enables of ST_IRQ_MASK. -/
  | irqMask (a : CmdArgs)
  /-- RESET_SOFT (R392): Command that performs a SOFT reset: the firmware in CPRAM restarts, the sets and queues are cleared and sessions and calibrations end. -/
  | resetSoft (a : CmdArgs)
  /-- FIRMWARE_READY (R392): After RESET.SOFT the restarted firmware becomes ready, raises BOOT_DONE and executes any held packet. -/
  | firmwareReady
  /-- RESET_CORE (R391): Command that withdraws a pending swap, restarts the cores and flows and ends the ramps, unless a seal is open. -/
  | resetCore (a : CmdArgs)
  /-- WDT_CFG (R393): Command that configures the watchdog and restarts its count, subject to LOCK. -/
  | wdtCfg (a : CmdArgs)
  /-- WATCHDOG_EXPIRY (R393): The watchdog count expires and the device performs a WDR reset. -/
  | watchdogExpiry
  /-- SWAP (R71): Command that checks SHADOW and, if it passes, freezes SHADOW and makes a swap pending, with optional EDGE and COPY. -/
  | swap (a : CmdArgs)
  /-- SWAP_CANCEL (R76): SWAP with CANCEL, which withdraws a pending swap and unfreezes SHADOW. -/
  | swapCancel (a : CmdArgs)
  /-- SWAP_TAKE_EFFECT (R75): At the first qualifying common frame boundary the bank selector flips, the epoch increments and the new ACTIVE set applies. -/
  | swapTakeEffect
  /-- SWAP_TIMEOUT (R76): A pending swap that has not taken effect within 100 ms is withdrawn with SWAP_STATUS TIMEOUT. -/
  | swapTimeout
  /-- COPY_COMPLETE (R75): The COPY of a swap completes, COPYING clears and SET_COPIED is raised. -/
  | copyComplete
  /-- SET_COPY (R68): Command that copies ACTIVE into SHADOW within 1 ms, before its response. -/
  | setCopy (a : CmdArgs)
  /-- SET_READ (R68): Command that returns one item of either configuration set. -/
  | setRead (a : CmdArgs)
  /-- IMMEDIATE_WRITE_APPLY (R67): An IMMEDIATE write takes effect in ACTIVE at the next frame boundary of its lane or core rate. -/
  | immediateWriteApply (rate : Nat)
  /-- SYNC_CFG (R344): SYNC with CFG, which sets INMODE and OUTMODE. -/
  | syncCfg (a : CmdArgs)
  /-- SYNC_EMIT (R335): SYNC with EMIT, which drives a 16-cycle pulse on SYNC_OUT under OUTMODE FOLLOW. -/
  | syncEmit (a : CmdArgs)
  /-- SYNC_NOW (R334): SYNC with NOW, which requests a synchronising reset of this device only. -/
  | syncNow (a : CmdArgs)
  /-- SYNC_IN_EDGE (R335): A rising SYNC_IN edge either serves an armed swap or triggers a synchronising reset according to INMODE. -/
  | syncInEdge (aligned : BitVec 6)
  /-- SYNCHRONISING_RESET (R177): At t0 the PLLA dividers restart, the decimator histories clear and the output grids restart, with CUT and SET marking. -/
  | synchronisingReset (aligned : BitVec 6)
  /-- REF_ON (R153): Command that turns on the named bank reference buffers and reports their state. -/
  | refOn (a : CmdArgs)
  /-- REF_OFF (R154): Command that turns off the named bank buffers, ramping channels down when FORCE is set or refusing when channels are enabled. -/
  | refOff (a : CmdArgs)
  /-- REF_READY (R127): A bank reference buffer becomes ready: 40 ms have passed since REF.ON and the settle monitor reports in tolerance. -/
  | refReady (r : RefReading)
  /-- CHANNEL_START (R129): An enabled, stopped channel starts by itself at the first frame boundary after its buffer becomes ready, with SET for the start count. -/
  | channelStart (ch : Nat)
  /-- REF_SETTLE_LATE (R128): A settle monitor that has not reported in tolerance 100 ms after REF.ON causes a fault-log entry. -/
  | refSettleLate (bank : Nat)
  /-- REF_OUT_OF_TOLERANCE (R130): A settle monitor that leaves tolerance while channels run causes the bank's channels to be ramped and stopped, and a fault to be logged. -/
  | refOutOfTolerance (bank : Nat)
  /-- FE_MODE (R155): Command that writes a channel's enable, mode, NBR and POL. -/
  | feMode (a : CmdArgs)
  /-- FE_GAIN (R156): Command that writes a channel's preamp gain. -/
  | feGain (a : CmdArgs)
  /-- FE_PAIR (R157): Command that writes a pair's mode: SPLIT, INTERLEAVE or STACK. -/
  | fePair (a : CmdArgs)
  /-- GAIN_SWITCH (R142): The analogue preamp gain switches at the first sign change of the CIC output, or at 2 ms. -/
  | gainSwitch (ch : Nat) (crossing : Bool)
  /-- OVERLOAD_TRIP (R137): The overload comparator trips above 101 % of full scale, OVR flagging starts and the ST_OVR bit sets. -/
  | overloadTrip (ch : Nat)
  /-- OVERLOAD_RELEASE (R137): The comparator releases after 32 modulator clocks below the threshold. -/
  | overloadRelease (ch : Nat)
  /-- MODULATOR_INSTABILITY (R139): The quantiser has stayed at an extreme for 16 clocks, so the integrators are clamped and the samples are flagged OVR and SET. -/
  | modulatorInstability (ch : Nat)
  /-- MODULATOR_RECOVERY (R139): The modulator is back within specification, at most 8 µs after detection. -/
  | modulatorRecovery (ch : Nat)
  /-- NEIGHBOUR_SET_END (R140): SET flagging on NBR channels ends 20 µs after the last neighbour comparator releases. -/
  | neighbourSetEnd (ch : Nat)
  /-- CAL_Z (R146): Deferred command that starts the offset and noise measurement on the named channels. -/
  | calZ (a : CmdArgs)
  /-- CAL_F (R147): Deferred command that starts the gain measurement on the named channels at the given level. -/
  | calF (a : CmdArgs)
  /-- CAL_Z_COMPLETE (R148): The CAL.Z measurement ends, its final status is decided and the records are written only on OK. -/
  | calZComplete (meas : List CalMeas)
  /-- CAL_F_COMPLETE (R148): The CAL.F measurement ends, its final status is decided and the records are written only on OK. -/
  | calFComplete (meas : List CalMeas)
  /-- COEFFICIENT_MOVE_END (R152): The 64-sample linear move of a correction coefficient or sign completes. -/
  | coefficientMoveEnd (ch : Nat)
  /-- CAL_EXPORT_PART0 (R159): CAL.EXPORT part 0 snapshots the field records, increments the export counter and returns the range-0 channel records. -/
  | calExportPart0 (a : CmdArgs)
  /-- CAL_EXPORT_PART (R159): CAL.EXPORT parts 1 to 9 return words of the snapshot, or the signed header. -/
  | calExportPart (a : CmdArgs)
  /-- CAL_IMPORT_PART (R160): CAL.IMPORT parts 0 to 8 place record words in the staging area. -/
  | calImportPart (a : CmdArgs)
  /-- CAL_IMPORT_COMMIT (R160): CAL.IMPORT part 9 checks the staged parts, hash and signature, then writes and applies the records. -/
  | calImportCommit (a : CmdArgs)
  /-- CAL_FACTORY_RESTORE (R161): CAL.FACTORY RESTORE copies the OTP factory copy into the field records. -/
  | calFactoryRestore (a : CmdArgs)
  /-- CAL_FACTORY_PROGRAM (R161): CAL.FACTORY PROGRAM programs the field records into the OTP factory copy, in MAKER only. -/
  | calFactoryProgram (a : CmdArgs)
  /-- CAL_FACTORY_CLEAR (R161): CAL.FACTORY CLEAR sets every SOURCE field to none. -/
  | calFactoryClear (a : CmdArgs)
  /-- FLT_PRESET (R182): Command that writes a channel's preset and rate. -/
  | fltPreset (a : CmdArgs)
  /-- FIR_WRITE_HDR (R183): FIR.WRITE with HDR, which writes a bank descriptor subject to the checks of R172. -/
  | firWriteHdr (a : CmdArgs)
  /-- FIR_WRITE (R183): FIR.WRITE without HDR, which writes coefficients of a bank and returns the CRC-32 read back. -/
  | firWrite (a : CmdArgs)
  /-- FIR_SEL (R184): Command that selects a channel's FIR bank or BYPASS. -/
  | firSel (a : CmdArgs)
  /-- FIR_FADE (R185): Command that sets a channel's cross-fade length. -/
  | firFade (a : CmdArgs)
  /-- FADE_END (R175): A cross-fade reaches sample L and the channel outputs the new bank alone. -/
  | fadeEnd (ch : Nat)
  /-- QUEUED_FADE_START (R176): A queued fade starts at the first frame boundary at or after the running fade's last sample. -/
  | queuedFadeStart (ch : Nat)
  /-- DET_CFG (R187): Command that sets the settings of a range of detectors. -/
  | detCfg (a : CmdArgs)
  /-- DET_READ (R188): Command that returns detector values and flags, clearing peak and flags when CLEAR is set. -/
  | detRead (a : CmdArgs)
  /-- METER_UPDATE (R181): Every 1.0 ms, each detector is copied into its status-window meter word. -/
  | meterUpdate
  /-- DETECTOR_CAPTURE_READ (R350): A read of detector word W0 on PERI captures all four words of that detector. -/
  | detectorCaptureRead (det : Nat)
  /-- ROUTE (R217): Command that sets the target gain of one matrix node. -/
  | route (a : CmdArgs)
  /-- GAIN (R218): Command that sets the target gains of N nodes into one output lane. -/
  | gain (a : CmdArgs)
  /-- RAMP (R219): Command that sets the ramp time and shape of N nodes. -/
  | ramp (a : CmdArgs)
  /-- WEIR (R220): Command that writes an output lane's weir limiter settings. -/
  | weir (a : CmdArgs)
  /-- NODE_RAMP_END (R194): A node ramp completes and the node holds its target, reaching settled mute if the target is mute. -/
  | nodeRampEnd (il ol : Nat)
  /-- MR_TAP (R221): Command that writes one millrace tap's enable, channel and gain. -/
  | mrTap (a : CmdArgs)
  /-- MR_OUT (R222): Command that writes a millrace bus's output assignment and its SUM or REPLACE mode. -/
  | mrOut (a : CmdArgs)
  /-- TAP_RAMP_END (R208): A 4,096-sample millrace tap or assignment ramp completes, or its channel switches mid-way. -/
  | tapRampEnd (what : TapRamp)
  /-- PANIC_CFG (R223): PANIC.CFG without RELEASE, which configures the PANIC input. -/
  | panicCfg (a : CmdArgs)
  /-- PANIC_RELEASE (R216): PANIC.CFG with RELEASE, which clears the mute latch and releases the clamps if the input is deasserted. -/
  | panicRelease (a : CmdArgs)
  /-- PANIC_ASSERT (R214): A filtered assertion of the PANIC input sets the mute latch and clamps every output within 2 µs. -/
  | panicAssert
  /-- FLOW_BIND (R257): Command that writes a flow context into SHADOW. -/
  | flowBind (a : CmdArgs)
  /-- FLOW_UNBIND (R258): Command that clears a flow context in SHADOW. -/
  | flowUnbind (a : CmdArgs)
  /-- FLOW_SAMPLE (R235): In each lane sample period a running flow moves one sample and advances its sequence counter. -/
  | flowSample (flow : Nat) (even odd : List Int)
  /-- TDM_CFG (R260): Command that writes a TDM port configuration word, which applies at once. -/
  | tdmCfg (a : CmdArgs)
  /-- TDM_MASTER_CLOCK_START (R239): A master port starts its BCLK and FS at the first frame boundary after configuration. -/
  | tdmMasterClockStart (port : Nat)
  /-- TDM_FRAME_RECEIVE (R238): A TDM port takes one whole received frame and delivers the bound slots. -/
  | tdmFrameReceive (port cycles rate : Nat) (slots : List Word)
  /-- TDM_FRAME_SEND (R238): A TDM port sends one frame, including one seal-slot word when SEALEN is set. -/
  | tdmFrameSend (port : Nat)
  /-- TDM_CLOCK_STOP (R255): A slave port sees no BCLK edge for 2 frame periods and goes to STOPPED. -/
  | tdmClockStop (port : Nat)
  /-- AES_CFG (R261): Command that writes an AES3 unit configuration word. -/
  | aesCfg (a : CmdArgs)
  /-- AES_CS_READ (R262): AES.CS with WR 0, which returns a channel-status block. -/
  | aesCsRead (a : CmdArgs)
  /-- AES_CS_WRITE (R262): AES.CS with WR 1, which writes a transmitter subframe's channel-status block. -/
  | aesCsWrite (a : CmdArgs)
  /-- AES3_SUBFRAME_RECEIVE (R246): A receiver decodes one subframe into a sample with SET for V, parity or non-audio. -/
  | aes3SubframeReceive (rx sub : Nat) (bits : BitVec 24) (v parityOk : Bool)
  /-- AES3_BLOCK_RECEIVE (R247): A complete 192-bit channel-status block is gathered and, if professional, checked by CRCC. -/
  | aes3BlockReceive (rx sub : Nat) (block : List Word)
  /-- AES3_LOCK (R245): A receiver locks after 64 good consecutive frames and reports its measured rate. -/
  | aes3Lock (rx rate : Nat) (near : Bool)
  /-- AES3_LOSS_OF_LOCK (R245): A receiver loses lock after 3 bad frames or 2 periods without a transition, and its samples repeat with CUT. -/
  | aes3LossOfLock (rx : Nat)
  /-- AES3_Z_PREAMBLE (R248): At each transmitted Z preamble a newly written channel-status block starts to apply. -/
  | aes3ZPreamble (tx : Nat)
  /-- PDM_CFG (R263): Command that writes a PDM clock configuration word. -/
  | pdmCfg (a : CmdArgs)
  /-- PDM_CLOCK_START (R250): A PDM clock starts and its microphones' samples carry SET for 10 ms plus 24 samples. -/
  | pdmClockStart (clk : Nat)
  /-- ASRC_TRACKER_LOCK (R253): A ratio tracker locks within 200 ms of its source delivering samples, and its flows stop carrying SET. -/
  | asrcTrackerLock (trk : Nat)
  /-- ASRC_REACQUIRE (R253): A ratio step above 1,000 ppm within 10 ms makes the tracker re-acquire, with SET, and RELOCKS increments. -/
  | asrcReacquire (trk : Nat)
  /-- ASRC_OUT_OF_RANGE (R253): A source more than 2 % from EP_RATE leaves the tracker unlocked and its flows deliver 0 with SET. -/
  | asrcOutOfRange (trk : Nat)
  /-- OUT_CFG (R284): Command that writes a DAC channel's output setting word. -/
  | outCfg (a : CmdArgs)
  /-- PUMP_SOFT_START_DONE (R278): At 0.5 ms the pump is up, the amplifier turns on clamped and the DC servo trims. -/
  | pumpSoftStartDone (pair : Nat)
  /-- SERVO_DONE (R278): At 2.5 ms the servo is done, the headphone clamp releases and the unmute ramp starts. -/
  | servoDone (dac : Nat) (trimUv : Int)
  /-- SPEAKER_UNMUTE_START (R278): At 1.0 ms after a speaker starts switching, its unmute ramp starts. -/
  | speakerUnmuteStart (dac : Nat)
  /-- UNMUTE_RAMP_END (R267): An unmute ramp completes and g_out reaches 1. -/
  | unmuteRampEnd (dac : Nat)
  /-- MUTE_RAMP_END (R279): At 4.0 ms g_out is 0, the clamp engages and the interpolator clears. -/
  | muteRampEnd (dac : Nat)
  /-- PUMP_STOP (R273): A charge pump stops 10 ms after both outputs of its pair are clamped. -/
  | pumpStop (pair : Nat)
  /-- VCM_RAMP_END (R283): The 40 ms raised-cosine ramp of the VCM node down or up completes. -/
  | vcmRampEnd
  /-- CLASSG_SWITCH_HIGH (R274): Under AUTO the pump moves to the high rails within 5 µs of the level exceeding −12 dBFS. -/
  | classgSwitchHigh (pair : Nat)
  /-- CLASSG_SWITCH_LOW (R274): Under AUTO the pump returns to the low rails after 100 ms below −15 dBFS. -/
  | classgSwitchLow (pair : Nat)
  /-- SPEAKER_OVERCURRENT (R281): A speaker over-current trip drives both legs low within 1 µs and logs a fault. -/
  | speakerOvercurrent (spk : Nat)
  /-- SPEAKER_TRIP_RESTART (R281): 100 ms after an over-current trip the speaker runs Table 8.3, unless this is the third trip within 1 s. -/
  | speakerTripRestart (spk : Nat)
  /-- SPEAKER_OVERTEMP (R281): SN24 at or above 140 °C makes both speaker channels run the disable sequence. -/
  | speakerOvertemp (code : Nat)
  /-- SPEAKER_TEMP_RECOVER (R281): SN24 below 120 °C lets the speakers run Table 8.3 again. -/
  | speakerTempRecover (code : Nat)
  /-- JACK_CFG (R297): JACK.CFG without UNMUTE, which writes a jack's detection word and button windows. -/
  | jackCfg (a : CmdArgs)
  /-- JACK_UNMUTE (R297): JACK.CFG with UNMUTE, which releases the jack mute. -/
  | jackUnmute (a : CmdArgs)
  /-- MICBIAS (R298): Command that sets the mode of each MICBIAS regulator. -/
  | micbias (a : CmdArgs)
  /-- HPDET_CHANGE (R288): A change of the detect comparator restarts the debounce count. -/
  | hpdetChange (jack : Nat) (level : Bool)
  /-- JACK_MUTE_AUTO_RELEASE (R294): A removal not confirmed within 8 ms releases the jack mute automatically. -/
  | jackMuteAutoRelease (jack : Nat)
  /-- INSERTION_CONFIRMED (R288): The debounce of an insertion completes and classification is requested. -/
  | insertionConfirmed (jack : Nat)
  /-- REMOVAL_CONFIRMED (R291): The debounce of a removal completes, the class becomes NONE and the orientation IDLE. -/
  | removalConfirmed (jack : Nat)
  /-- CLASSIFICATION_START (R289): Classification begins once the jack's outputs are clamped and no pad hold or PANIC latch prevents it. -/
  | classificationStart (jack : Nat)
  /-- TIP_READ (R289): At 1 ms the tip is read through SN0+n with the probe current. -/
  | tipRead (jack code : Nat)
  /-- MIC_READ_A (R289): At 7 ms the biased pole is read in CTIA orientation. -/
  | micReadA (jack code : Nat)
  /-- MIC_READ_B (R289): At 13 ms the biased pole is read in OMTP orientation. -/
  | micReadB (jack code : Nat)
  /-- CLASSIFICATION_TIMEOUT (R289): A read not successful within 10 ms of its first attempt ends classification as UNKNOWN. -/
  | classificationTimeout (jack : Nat)
  /-- DETECTION_READ_REISSUE (R314): A dropped detection-initiated read is reissued 100 µs later. -/
  | detectionReadReissue (jack code : Nat)
  /-- BUTTON_SAMPLE (R292): Every 1 ms a headset jack's mic pole is read for button decoding. -/
  | buttonSample (jack code : Nat)
  /-- SENSE_SEQ (R309): Command that replaces the sense sequence and its trigger edge. -/
  | senseSeq (a : CmdArgs)
  /-- SENSE_START (R310): Command that starts the loaded sense sequence. -/
  | senseStart (a : CmdArgs)
  /-- SENSE_NOW (R311): Command that makes one urgent conversion and returns it, or reports BUSY when dropped. -/
  | senseNow (a : CmdArgs)
  /-- SENSE_WATCH (R312): Command that sets the host mask of the watch scan. -/
  | senseWatch (a : CmdArgs)
  /-- SENSE_TRIG_EDGE (R302): A SENSE_TRIG edge of the selected kind starts the sequence, or is counted as a miss while one runs. -/
  | senseTrigEdge (rising : Bool)
  /-- SEQUENCE_ENTRY_COMPLETE (R302): A sequence entry's conversion completes and its result is written to ST_SENSE_SNn. -/
  | sequenceEntryComplete (code : Nat)
  /-- WATCH_CONVERSION (R304): A watch-scan conversion completes and the scan moves to its next channel. -/
  | watchConversion (code : Nat)
  /-- URGENT_CONVERSION_COMPLETE (R306): An urgent conversion completes and any abandoned sampling phase restarts. -/
  | urgentConversionComplete
  /-- PLL_CFG (R342): Command that writes a PLL or AON configuration word, starting a relock on an EN or FAMILY change. -/
  | pllCfg (a : CmdArgs)
  /-- PLL_REF (R343): Command that selects PLLA's reference, entering holdover to qualify the new reference. -/
  | pllRef (a : CmdArgs)
  /-- TIME_READ (R345): Command that returns the timebase, its uncertainty and the count at the last t0, and sets TB_VALID with ACK. -/
  | timeRead (a : CmdArgs)
  /-- PLL_WINDOW (R319): A lock window of 2^k reference cycles ends and its frequency error is judged. -/
  | pllWindow (unit count : Nat) (refPresent : Bool) (refPpm : Nat)
  /-- REFERENCE_LOST (R324): No reference edge for 8 periods, or a source loss report, freezes the tuning word and enters HOLDOVER. -/
  | referenceLost (unit : Nat)
  /-- HOLDOVER_MUTE (R326): At 1 s or an estimate of 20 ppm the outputs ramp to 0, flows mark CUT and HOLDOVER_MUTED is entered. -/
  | holdoverMute
  /-- HOLDOVER_RESTART (R328): At the next common frame boundary after relock from HOLDOVER_MUTED the flows restart and the outputs unmute. -/
  | holdoverRestart
  /-- PLL_UNGATE (R330): At the end of a relock all outputs of the PLL ungate together and the CP returns to MTX. -/
  | pllUngate (unit : Nat)
  /-- FREQUENCY_GUARD_TRIP (R333): A guard window measures an output above target + 2 %, so the clamps engage and the PLL is relocked. -/
  | frequencyGuardTrip (unit : Nat) (r : GuardReading)
  /-- XREF_READY (R387): The XREF oscillator is ready after 1,024 cycles within ±3 % of its frequency word. -/
  | xrefReady
  /-- TIMEBASE_TICK (R338): The timebase count advances by one period of its present source and U grows. -/
  | timebaseTick (t : Tick)
  /-- AON_CALIBRATION (R339): Every 4,096 AON cycles the calibrator measures XT32 and the 32 kHz RC and records T_cal. -/
  | aonCalibration (xtPs rcPs : Nat)
  /-- AON_TEMP_SAMPLE (R339): In REST and HIBERNATE the AON monitor samples the die temperature every 1 s. -/
  | aonTempSample (code : Nat)
  /-- SLEEP (R373): Deferred command that chooses the deepest state meeting MAX_WAKE and the wake sources, and starts entry. -/
  | sleep (a : CmdArgs)
  /-- SLEEP_CANCEL (R375): SLEEP with CANCEL, which withdraws an entry before commit. -/
  | sleepCancel (a : CmdArgs)
  /-- SLEEP_QUERY (R377): Within 10 µs the power agents answer ACCEPT, DELAY or REFUSE for the chosen state. -/
  | sleepQuery
  /-- AGENT_ACCEPT (R377): A delaying agent finishes its preparation and answers ACCEPT. -/
  | agentAccept (agent : Nat)
  /-- DELAY_EXPIRED (R380): An agent exceeds its maximum delay, so the entry is undone and refused. -/
  | delayExpired (agent : Nat)
  /-- SLEEP_COMMIT (R379): At the common frame boundary after the last ACCEPT the flows and cores stop, the pads are held and the state is reached. -/
  | sleepCommit
  /-- WAKE_PIN (R373): A filtered rising edge on WAKE is a wake event, or ends WAKE-HOLD. -/
  | wakePin
  /-- SLEEP_TIMER (R373): TIMER ms of timebase count after commit expire and wake the device. -/
  | sleepTimer
  /-- DVDD_POWER_GOOD (R384): During a wake from REST or HIBERNATE the DVDD domains report power-good and the logic starts on the RC. -/
  | dvddPowerGood
  /-- WAKE_STEP_TIMEOUT (R387): A wake step misses its limit, so the resource is turned off for 1 ms before a retry. -/
  | wakeStepTimeout
  /-- WAKE_RETRY (R387): After 1 ms off, the failed wake step is repeated and RETRIES counts it. -/
  | wakeRetry
  /-- RETURN_TO_RUN (R385): All wake conditions hold, so the state is RUN and the grids restart from the ungating edge. -/
  | returnToRun
  /-- AUDIO_RESTART (R385): At the first common frame boundary after the return, the channels, cores, flows and matrix restart. -/
  | audioRestart
  /-- PADS_RELEASE (R386): Command that returns the held pads to their functions, restarts the ports and unmutes the outputs. -/
  | padsRelease (a : CmdArgs)
  /-- AVS_CFG (R394): Command that configures the PMBus AVS regulator and checks its READ_VOUT. -/
  | avsCfg (a : CmdArgs)
  /-- PIN_RESET (R390): nRESET held low for at least 100 ns performs a PIN reset. -/
  | pinReset
  /-- BROWN_OUT (R390): DVDD, AVDD18 or AVDD33 below its threshold for 1 µs clamps the outputs and holds the device in reset. -/
  | brownOut
  /-- POWER_ON_RESET (R390): VAON rising through its threshold resets everything and clamps the outputs. -/
  | powerOnReset
  /-- VAON_LOSS (R469): VAON falling below 1.50 V puts the device OFF: its domains are isolated and AON and RET contents are lost. -/
  | vaonLoss
  /-- BOOT_START (R467): 1.0 ms after the rails are up, or at the nRESET rise, the straps are sampled and the boot ROM and XREF start. -/
  | bootStart (straps : Straps)
  /-- FLASH_BOOT (R411): With the FLASH strap the boot ROM reads both flash slots and admits the preferred image, or falls back. -/
  | flashBoot (slotA slotB : Option (List Word))
  /-- HPVDD_LOCKOUT (R469): HPVDD below 1.55 V stops the pumps and clamps every headphone output. -/
  | hpvddLockout
  /-- SPKVDD_LOCKOUT (R469): SPKVDD below 4.20 V puts the speakers into a protection pause. -/
  | spkvddLockout
  /-- SPKVDD_RECOVER (R469): SPKVDD back above 4.40 V lets the speakers run Table 8.3. -/
  | spkvddRecover
  /-- IOVDD_A_LOSS (R469): IOVDD_A below 1.0 V sets its pads to high impedance, and its ports see stopped endpoints. -/
  | iovddALoss
  /-- IOVDD_H_LOSS (R469): IOVDD_H below 1.0 V makes the host port ignore its pins. -/
  | iovddHLoss
  /-- CORE_LOAD (R114): Command that loads the verified stream image into a slot, allocates its delay region and counts its cycles. -/
  | coreLoad (a : CmdArgs)
  /-- CORE_BIND (R115): Command that writes a core's binding: slot, depth, rate and port masks. -/
  | coreBind (a : CmdArgs)
  /-- CORE_PARAM (R117): Command that writes consecutive words of a core's parameter page. -/
  | coreParam (a : CmdArgs)
  /-- CORE_READ (R118): Command that returns state-memory words and their tags between two frame computations. -/
  | coreRead (a : CmdArgs)
  /-- CORE_FRAME_COMPUTE (R105): A core starts computing an output frame once its input frame is complete and it holds fewer than DEPTH frames. -/
  | coreFrameCompute (core : Fin 4)
  /-- FRAME_PRESENTATION (R105): At its boundary a held frame begins presentation and its checkpoint entries are released. -/
  | framePresentation (core : Fin 4)
  /-- CORE_MEMORY_CLEAR_DONE (R103): The clear of state memory and delay region after a binding change completes, within 200 µs. -/
  | coreMemoryClearDone (core : Fin 4)
  /-- CODE_FETCH_ERROR (R109): An uncorrectable code fetch halts the core and its return lanes carry 0 with SET and CUT. -/
  | codeFetchError (core : Fin 4)
  /-- BUNDLE_NOP (R98): Stream-core syllable with no effect. -/
  | bundleNop (u : Site)
  /-- ADD (R98): Wrapping addition of two registers. -/
  | add (u : Site) (p : Pred) (rd ra rb : BitVec 5)
  /-- ADDS (R98): Saturating addition of two registers. -/
  | adds (u : Site) (p : Pred) (rd ra rb : BitVec 5)
  /-- SUB (R98): Wrapping subtraction. -/
  | sub (u : Site) (p : Pred) (rd ra rb : BitVec 5)
  /-- SUBS (R98): Saturating subtraction. -/
  | subs (u : Site) (p : Pred) (rd ra rb : BitVec 5)
  /-- AND (R98): Bitwise AND. -/
  | and (u : Site) (p : Pred) (rd ra rb : BitVec 5)
  /-- OR (R98): Bitwise OR. -/
  | or (u : Site) (p : Pred) (rd ra rb : BitVec 5)
  /-- XOR (R98): Bitwise XOR. -/
  | xor (u : Site) (p : Pred) (rd ra rb : BitVec 5)
  /-- SHL (R98): Wrapping left shift by SH. -/
  | shl (u : Site) (p : Pred) (rd ra : BitVec 5) (sh : BitVec 5)
  /-- SHR (R98): Logical right shift by SH. -/
  | shr (u : Site) (p : Pred) (rd ra : BitVec 5) (sh : BitVec 5)
  /-- SAR (R98): Arithmetic right shift by SH. -/
  | sar (u : Site) (p : Pred) (rd ra : BitVec 5) (sh : BitVec 5)
  /-- SHLS (R98): Saturating left shift by SH. -/
  | shls (u : Site) (p : Pred) (rd ra : BitVec 5) (sh : BitVec 5)
  /-- MULQ (R98): Q1.31 product, rounded to nearest and saturated. -/
  | mulq (u : Site) (p : Pred) (rd ra rb : BitVec 5)
  /-- MIN (R98): Signed minimum. -/
  | min (u : Site) (p : Pred) (rd ra rb : BitVec 5)
  /-- MAX (R98): Signed maximum. -/
  | max (u : Site) (p : Pred) (rd ra rb : BitVec 5)
  /-- ABS (R98): Saturating absolute value. -/
  | abs (u : Site) (p : Pred) (rd ra : BitVec 5)
  /-- SEL (R98): Selects one of two registers by a predicate, taking that operand's tag. -/
  | sel (u : Site) (p : Pred) (rd ra rb : BitVec 5) (ps : BitVec 3)
  /-- ADDI (R98): Adds a sign-extended 10-bit immediate, wrapping. -/
  | addi (u : Site) (p : Pred) (rd ra : BitVec 5) (imm : BitVec 10)
  /-- MOVL (R98): Loads a zero-extended 16-bit immediate with tag 0. -/
  | movl (u : Site) (pr : BitVec 3) (rd : BitVec 5) (imm : BitVec 16)
  /-- MOVH (R98): Writes the upper 16 bits of a register. -/
  | movh (u : Site) (pr : BitVec 3) (rd : BitVec 5) (imm : BitVec 16)
  /-- CMPLT (R98): Sets a predicate to signed less-than. -/
  | cmplt (u : Site) (p : Pred) (pd : BitVec 3) (ra rb : BitVec 5)
  /-- CMPLE (R98): Sets a predicate to signed less-or-equal. -/
  | cmple (u : Site) (p : Pred) (pd : BitVec 3) (ra rb : BitVec 5)
  /-- CMPEQ (R98): Sets a predicate to equality. -/
  | cmpeq (u : Site) (p : Pred) (pd : BitVec 3) (ra rb : BitVec 5)
  /-- TSTT (R98): Sets a predicate when the register's tag AND MASK is non-zero. -/
  | tstt (u : Site) (p : Pred) (pd : BitVec 3) (ra : BitVec 5) (mask : BitVec 4)
  /-- PAND (R98): Predicate AND. -/
  | pand (u : Site) (p : Pred) (pd pa pb : BitVec 3)
  /-- POR (R98): Predicate OR. -/
  | por (u : Site) (p : Pred) (pd pa pb : BitVec 3)
  /-- PNOT (R98): Predicate NOT. -/
  | pnot (u : Site) (p : Pred) (pd pa : BitVec 3)
  /-- TAGS (R90): Sets the selected tag bits of a register. -/
  | tags (u : Site) (p : Pred) (rd ra : BitVec 5) (mask : BitVec 3)
  /-- TAGC (R90): Clears the selected tag bits of a register. -/
  | tagc (u : Site) (p : Pred) (rd ra : BitVec 5) (mask : BitVec 3)
  /-- TAGR (R98): Reads a register's tag as a value. -/
  | tagr (u : Site) (p : Pred) (rd ra : BitVec 5)
  /-- TAGW (R90): Writes tag bits [3:1] of a register from another register. -/
  | tagw (u : Site) (p : Pred) (rd ra rb : BitVec 5)
  /-- MACZ (R98): Sets an accumulator to a product. -/
  | macz (u : Site) (p : Pred) (ad : BitVec 3) (ra rb : BitVec 5)
  /-- MAC (R98): Adds a product to an accumulator. -/
  | mac (u : Site) (p : Pred) (ad : BitVec 3) (ra rb : BitVec 5)
  /-- MSU (R98): Subtracts a product from an accumulator. -/
  | msu (u : Site) (p : Pred) (ad : BitVec 3) (ra rb : BitVec 5)
  /-- ACCADD (R98): Adds one accumulator to another. -/
  | accadd (u : Site) (p : Pred) (ad sa : BitVec 3)
  /-- ACCMV (R98): Moves a register into an accumulator aligned as Q1.31. -/
  | accmv (u : Site) (p : Pred) (ad : BitVec 3) (ra : BitVec 5)
  /-- ACCRD (R98): Reads an accumulator shifted by SH, rounded and saturated to Q1.31. -/
  | accrd (u : Site) (p : Pred) (rd : BitVec 5) (sa : BitVec 3) (sh : BitVec 5)
  /-- LDW (R98): Loads one state-memory word with its tag. -/
  | ldw (u : Site) (p : Pred) (rd ra : BitVec 5) (off : BitVec 10)
  /-- LDW2 (R98): Loads two state-memory words. -/
  | ldw2 (u : Site) (p : Pred) (rd ra : BitVec 5) (off : BitVec 10)
  /-- STW (R107): Versioned store of one word to state memory. -/
  | stw (u : Site) (p : Pred) (rd ra : BitVec 5) (off : BitVec 10)
  /-- STW2 (R107): Versioned store of two words to state memory. -/
  | stw2 (u : Site) (p : Pred) (rd ra : BitVec 5) (off : BitVec 10)
  /-- LDP (R98): Loads a parameter-page word with tag 0. -/
  | ldp (u : Site) (p : Pred) (rd ra : BitVec 5) (off : BitVec 10)
  /-- LDC (R98): Loads a coefficient word with tag 0. -/
  | ldc (u : Site) (p : Pred) (rd ra : BitVec 5) (off : BitVec 10)
  /-- LDC2 (R98): Loads a pair of coefficient words. -/
  | ldc2 (u : Site) (p : Pred) (rd ra : BitVec 5) (off : BitVec 10)
  /-- LDD (R83): Loads a delay-region word, or 0 with SET when no region is declared. -/
  | ldd (u : Site) (p : Pred) (rd ra : BitVec 5) (off : BitVec 10)
  /-- STD (R107): Versioned store of a word to the delay region. -/
  | std (u : Site) (p : Pred) (rd ra : BitVec 5) (off : BitVec 10)
  /-- LDS (R99): Loads a send-port sample with its tags, or 0 with SET from a disabled port. -/
  | lds (u : Site) (p : Pred) (rd rp ri : BitVec 5) (imm : BitVec 5)
  /-- STR (R99): Stores a return-port sample with EPO stamped; no effect on a disabled port. -/
  | str (u : Site) (p : Pred) (rd rp ri : BitVec 5) (imm : BitVec 5)
  /-- BR (R96): Branches forward to a bundle index. -/
  | br (u : Site) (p : Pred) (target : BitVec 11)
  /-- CALL (R96): Pushes the return index and jumps. -/
  | call (u : Site) (p : Pred) (target : BitVec 11)
  /-- RET (R96): Pops the return index and returns. -/
  | ret (u : Site) (p : Pred)
  /-- LOOP (R96): Hardware loop repeated g[RC] times, clamped to 2^MAXE. -/
  | loop (u : Site) (rc : BitVec 5) (maxe : BitVec 4) (last : BitVec 11)
  /-- LOOPI (R96): Hardware loop repeated COUNT times. -/
  | loopi (u : Site) (count : BitVec 9) (last : BitVec 11)
  /-- FEND (R97): Ends the frame computation; unwritten enabled return samples present 0 with SET. -/
  | fend (u : Site)
  /-- LDG (R120): CP word load from a crossbar byte address. -/
  | ldg (p : Pred) (rd ra : BitVec 5) (off : BitVec 10)
  /-- STG (R120): CP word store to a crossbar byte address. -/
  | stg (p : Pred) (rd ra : BitVec 5) (off : BitVec 10)
  /-- LDGH (R120): CP halfword load. -/
  | ldgh (p : Pred) (rd ra : BitVec 5) (off : BitVec 10)
  /-- STGH (R120): CP halfword store, leaving the tag unchanged. -/
  | stgh (p : Pred) (rd ra : BitVec 5) (off : BitVec 10)
  /-- LDGB (R120): CP byte load. -/
  | ldgb (p : Pred) (rd ra : BitVec 5) (off : BitVec 10)
  /-- STGB (R120): CP byte store, leaving the tag unchanged. -/
  | stgb (p : Pred) (rd ra : BitVec 5) (off : BitVec 10)
  /-- LDGL (R358): CP locked read that locks the arbitration point of a lockable target. -/
  | ldgl (p : Pred) (rd ra : BitVec 5) (off : BitVec 10)
  /-- STGU (R358): CP store that writes the word and releases the lock. -/
  | stgu (p : Pred) (rd ra : BitVec 5) (off : BitVec 10)
  /-- WFE (R120): The CP waits for an event. -/
  | wfe (p : Pred)
  /-- LOCK_TIMEOUT (R359): A lock held 16 MTX cycles without STGU is released and an abort record is written. -/
  | lockTimeout
  /-- REGISTER_WRITE (R350): A write by a master to a PERI or memory-mapped register that has no behaviour of its own. -/
  | registerWrite (master addr : Nat) (value : Word)
  /-- ECC_WRITEBACK (R364): A corrected word is written back at the next idle cycle of its arbitration point and the error is logged. -/
  | eccWriteback (addr : Nat)
  /-- PATROL_PASS (R367): BIST reads every ECC-protected word at least every 60 s, correcting or rewriting what it finds. -/
  | patrolPass (corrected uncorrectable : List Nat) (upsets : List Upset)
  /-- IMAGE_LOAD (R409): Command that writes image words into the staging area and clears the verified mark. -/
  | imageLoad (a : CmdArgs)
  /-- IMAGE_EXEC (R410): Deferred command that starts admission of the staged image. -/
  | imageExec (a : CmdArgs)
  /-- IMAGE_EXEC_COMPLETE (R408): Admission ends: firmware starts, or a stream image is marked verified, or the step's failure is reported. -/
  | imageExecComplete
  /-- SESSION_OPEN (R414): Command that checks the host certificate and signature and opens a session with fresh keys. -/
  | sessionOpen (a : CmdArgs)
  /-- SESSION_CLOSE (R416): Command that ends the host session. -/
  | sessionClose (a : CmdArgs)
  /-- OTP_WRITE_ROOTKEY (R400): OTP.WRITE item ROOTKEY, which programs a root-key hash slot. -/
  | otpWriteRootkey (a : CmdArgs)
  /-- OTP_WRITE_POLICY (R400): OTP.WRITE item POLICY, which sets the CLOSED policy. -/
  | otpWritePolicy (a : CmdArgs)
  /-- OTP_WRITE_XREF_FREQ (R400): OTP.WRITE item XREF_FREQ, which programs the XREF frequency word. -/
  | otpWriteXrefFreq (a : CmdArgs)
  /-- OTP_WRITE_CERT (R400): OTP.WRITE item CERT, which programs the verified device certificate. -/
  | otpWriteCert (a : CmdArgs)
  /-- OTP_WRITE_ARB (R400): OTP.WRITE item ARB, which advances an anti-rollback counter. -/
  | otpWriteArb (a : CmdArgs)
  /-- LIFECYCLE (R402): Command that moves the lifecycle forward. -/
  | lifecycle (a : CmdArgs)
  /-- KEY_REVOKE (R401): Command that revokes a root-key slot. -/
  | keyRevoke (a : CmdArgs)
  /-- CERT_READ_KEYS (R405): CERT.READ part 0, which returns DEVICE_ID and the two public keys. -/
  | certReadKeys (a : CmdArgs)
  /-- CERT_READ (R405): CERT.READ part 1, which returns the device certificate. -/
  | certRead (a : CmdArgs)
  /-- DEBUG_CHAL (R418): Command that returns a fresh debug challenge. -/
  | debugChal (a : CmdArgs)
  /-- DEBUG_RESP (R418): Command that verifies a signed answer to the challenge and grants a debug scope. -/
  | debugResp (a : CmdArgs)
  /-- DEBUG_CHALLENGE_EXPIRY (R418): A debug challenge not answered within 60 s becomes invalid. -/
  | debugChallengeExpiry
  /-- DRBG_HEALTH_FAIL (R406): An entropy health test fails, the DRBG stops, DRBG_FAIL sets and open seals close with FAULT. -/
  | drbgHealthFail (test : Nat)
  /-- SEAL_OPEN (R423): Command that opens a seal on an eligible ingress flow. -/
  | sealOpen (a : CmdArgs)
  /-- SEAL_START (R423): At the next frame boundary hashing starts and the OPEN record is queued. -/
  | sealStart (sid : Nat)
  /-- SEAL_BLOCK_END (R420): A block ends at 4,096 samples or a sequence step, the chain head advances and its BLOCK record is queued. -/
  | sealBlockEnd (sid : Nat)
  /-- SEAL_SIGN_RECORD (R422): A signed SIGN record follows every 16th block within 20 ms. -/
  | sealSignRecord (sid : Nat)
  /-- SEAL_CLOSE (R424): Deferred command that ends a seal at the next frame boundary. -/
  | sealClose (a : CmdArgs)
  /-- SEAL_CLOSE_RECORD (R424): The CLOSE record is signed and queued, and SEAL.CLOSE reports its final status. -/
  | sealCloseRecord (sid : Nat)
  /-- SEAL_READ (R425): Command that returns whole host-destination seal records. -/
  | sealRead (a : CmdArgs)
  /-- FAULT_READ (R438): Command that returns fault-log entries. -/
  | faultRead (a : CmdArgs)
  /-- FAULT_CLEAR (R439): Command that empties the fault log while keeping the repair map. -/
  | faultClear (a : CmdArgs)
  /-- MARGIN_READ (R452): Command that returns the margin registers, now or from the history. -/
  | marginRead (a : CmdArgs)
  /-- SELFTEST_PATROL (R440): SELFTEST kind PATROL, which runs one complete patrol pass. -/
  | selftestPatrol (a : CmdArgs)
  /-- SELFTEST_INJECT (R440): SELFTEST kind INJECT, which runs test-DAC injection on disabled channels. -/
  | selftestInject (a : CmdArgs)
  /-- SELFTEST_OFFSET (R441): SELFTEST kind OFFSET, which measures the DC offset of disabled outputs. -/
  | selftestOffset (a : CmdArgs)
  /-- SELFTEST_PLANNER (R440): SELFTEST kind PLANNER, which runs the margin planner. -/
  | selftestPlanner (a : CmdArgs)
  /-- SELFTEST_COMPLETE (R440): A SELFTEST finishes with OK or FAULT and writes entries for failing sites. -/
  | selftestComplete (readings : SelftestReadings)
  /-- TARGETED_SELFTEST (R431): BIST starts the next queued targeted self-test once its site may be tested. -/
  | targetedSelftest
  /-- TARGETED_SELFTEST_COMPLETE (R432): A targeted self-test ends and its entry is classed TRANSIENT or LASTING. -/
  | targetedSelftestComplete (reading : TestReading)
  /-- RELOCK_TEST_HOLD (R429): A RELOCK test passes when lock holds for 60 s after the guard-trip relock. -/
  | relockTestHold (unit : Nat)
  /-- PLANNER_RUN (R446): The margin planner measures the monitors and decides AVS, derating, thresholds and notices. -/
  | plannerRun (meas : PlannerMeas)
  /-- AVS_STEP (R447): The planner sends one 5 mV VOUT_COMMAND step, at least 1 ms after the last. -/
  | avsStep
  /-- AVS_VERIFY (R447): 5 ms after a step READ_VOUT is checked; a mismatch or NACK disables AVS and raises AVS_FAULT. -/
  | avsVerify (readMv : Option Nat)
  /-- JTAG_BYPASS (R417): TAP instruction BYPASS. -/
  | jtagBypass
  /-- JTAG_IDCODE (R417): TAP instruction IDCODE, which reads 0xA323_4F1B. -/
  | jtagIdcode
  /-- JTAG_SAMPLE_PRELOAD (R417): TAP instruction SAMPLE/PRELOAD. -/
  | jtagSamplePreload (boundary : Word)
  /-- JTAG_EXTEST (R417): TAP instruction EXTEST, which takes control of the pads. -/
  | jtagExtest
  /-- HPVDD_RECOVER (R469): HPVDD rises back above 1.62 V, ending the headphone lockout; the outputs stay clamped until ACTIVE disables and re-enables them. -/
  | hpvddRecover
  /-- IOVDD_A_RETURN (R469): IOVDD_A returns within range, its pads leave high impedance and the ports reacquire. -/
  | iovddAReturn
  /-- IOVDD_H_RETURN (R469): IOVDD_H returns within range and the host port serves its pins again. -/
  | iovddHReturn
  /-- STARVATION_FADE_END (R271): A starvation fade of the block path completes its 3,072 final-stage steps, holding at 0 after a fade-out or reaching full level after a fade-in. -/
  | starvationFadeEnd (dac : Nat)
  /-- BUFFER_OFF (R130): After the 64-sample raised-cosine ramp of REF.OFF with FORCE, or of an out-of-tolerance monitor, ends, the channels stop and, for REF.OFF, the buffers turn off. -/
  | bufferOff (bank : Nat)
  /-- XT32_OSCILLATES (R338): The XT32 crystal starts or stops oscillating, which changes ST_CLOCK.XT32 and whether the timebase can count from XT32 during sleep. -/
  | xt32Oscillates (on : Bool)
  deriving DecidableEq, Repr

end Sys2Proof
end

