-- ==== Sys2Proof/Decode.lean ====
section
/-! DEFINITION. No row of the opcode table has bits: the rows are transactions, events and syllables with operands. -/

namespace Sys2Proof

/-- The command a table word spells: no row of spec/opcode_table.json gives bits, so no word spells one. -/
def decodeTableWord (_nbits _w : Nat) : Option Instr := none

end Sys2Proof
end

