-- ==== Sys2Proof/Machine/Bits.lean ====
section
/-! DEFINITION. Bit fields of words, sign extension, rounding to nearest with ties to even (R486), and saturation. -/

namespace Sys2Proof.Machine

/-- Field [hi:lo] of a word (R5). -/
def fld (w : Word) (hi lo : Nat) : Nat := (w.toNat >>> lo) % 2 ^ (hi + 1 - lo)

/-- Bit [i] of a word. -/
def bit (w : Word) (i : Nat) : Bool := w.getLsbD i

/-- Field [hi:lo] of a word read as two's complement. -/
def sfld (w : Word) (hi lo : Nat) : Int :=
  let v := fld w hi lo
  if 2 ^ (hi - lo) ≤ v then (v : Int) - 2 ^ (hi + 1 - lo) else v

/-- A natural number as a word (modulo 2^32). -/
def toWord (n : Nat) : Word := BitVec.ofNat 32 n

/-- An integer as a word (modulo 2^32). -/
def intWord (i : Int) : Word := BitVec.ofInt 32 i

/-- A truth value as 0 or 1. -/
def b2n (b : Bool) : Nat := if b then 1 else 0

/-- Replace field [hi:lo] of a word. -/
def setFld (w : Word) (hi lo v : Nat) : Word :=
  let m := 2 ^ (hi + 1 - lo)
  toWord (w.toNat - fld w hi lo * 2 ^ lo + (v % m) * 2 ^ lo)

/-- Set or clear one bit of a word. -/
def setBit (w : Word) (i : Nat) (b : Bool) : Word := setFld w i i (b2n b)

/-- The word has no bit outside `mask`. -/
def within (w mask : Word) : Bool := decide (w &&& ~~~mask = 0)

/-- num/den rounded to nearest, ties to even (R486); den > 0. -/
def roundDiv (num : Int) (den : Nat) : Int :=
  let q := Int.fdiv num den
  let r := num - q * den
  if 2 * r < den then q
  else if 2 * r > den then q + 1
  else if q % 2 = 0 then q else q + 1

/-- Round away the lowest `n` bits to nearest, ties to even. -/
def roundShift (v : Int) (n : Nat) : Int := roundDiv v (2 ^ n)

/-- num/den rounded up. -/
def ceilDiv (num den : Nat) : Nat := (num + den - 1) / den

/-- Clamp into [lo, hi]. -/
def clampInt (lo hi v : Int) : Int := if v < lo then lo else if hi < v then hi else v

/-- Saturate to the Q1.31 codes. -/
def satQ31 (v : Int) : Int := clampInt (-2147483648) 2147483647 v

/-- Clamp a front-end code to 0x8000_0001 … 0x7FFF_FFFF (R23). -/
def satFront (v : Int) : Int := clampInt (-2147483647) 2147483647 v

/-- Bytes of a word, most significant first (R44). -/
def wordBytes (w : Word) : List Byte :=
  [BitVec.ofNat 8 (w.toNat >>> 24), BitVec.ofNat 8 (w.toNat >>> 16), BitVec.ofNat 8 (w.toNat >>> 8), BitVec.ofNat 8 w.toNat]

/-- Bytes of words, each most significant byte first. -/
def wordsBytes (ws : List Word) : List Byte := ws.flatMap wordBytes

/-- Words of bytes, most significant byte first; the tail that fills no word is dropped. -/
def bytesWords : List Byte → List Word
  | a :: b :: c :: d :: r =>
    toWord (a.toNat * 16777216 + b.toNat * 65536 + c.toNat * 256 + d.toNat) :: bytesWords r
  | _ => []

/-- A natural number as `n` bytes, most significant first. -/
def natBytes : Nat → Nat → List Byte
  | 0, _ => []
  | n + 1, v => natBytes n (v / 256) ++ [BitVec.ofNat 8 v]

/-- Bytes, most significant first, as a natural number. -/
def bytesNat (bs : List Byte) : Nat := bs.foldl (fun a b => a * 256 + b.toNat) 0

/-- The set bits of a word, lowest first. -/
def bitsOf (w : Word) : List Nat := (List.range 32).filter (fun i => w.getLsbD i)

/-- A word with exactly the listed bits set. -/
def wordOf (l : List Nat) : Word := l.foldl (fun w i => setBit w i true) 0

end Sys2Proof.Machine
end

