-- ==== Sys2Proof/Machine/Crc.lean ====
section
/-! DEFINITION. The checks on words and bytes: CRC-16/CCITT-FALSE (R48), CRC-32 (R173), CRC-4 (R241), AES3 CRCC (R247). -/

namespace Sys2Proof.Machine

/-- `n` steps of a left-shifting CRC of width `w` with polynomial `poly`, input bits already XORed in. -/
def crcLeft (w poly : Nat) : Nat → Nat → Nat
  | 0, c => c
  | n + 1, c =>
    crcLeft w poly n (if c.testBit (w - 1) then ((c * 2) ^^^ poly) % 2 ^ w else c * 2 % 2 ^ w)

/-- CRC-16/CCITT-FALSE of bytes (R48). -/
def crc16 (bs : List Byte) : Nat := bs.foldl (fun c b => crcLeft 16 0x1021 8 (c ^^^ (b.toNat * 256))) 0xFFFF

/-- `n` steps of the reflected CRC-32. -/
def crc32Steps : Nat → Nat → Nat
  | 0, c => c
  | n + 1, c => crc32Steps n (if c.testBit 0 then (c / 2) ^^^ 0xEDB88320 else c / 2)

/-- CRC-32 of bytes: reflected 0x04C1_1DB7 (R173). -/
def crc32 (bs : List Byte) : Nat :=
  (bs.foldl (fun c b => crc32Steps 8 (c ^^^ b.toNat)) 0xFFFFFFFF) ^^^ 0xFFFFFFFF

/-- The remainder of message bits (`n` down to 0) times x⁴ by x⁴ + x + 1. -/
def crc4Bits (w : Word) : Nat → Nat → Nat
  | 0, c => c
  | n + 1, c =>
    let c' := c ^^^ (b2n (w.getLsbD (n + 4)) * 8)
    crc4Bits w n (if c'.testBit 3 then ((c' * 2) ^^^ 3) % 16 else c' * 2 % 16)

/-- CRC-4 over bits [31:4] of a slot word (R241). -/
def crc4 (w : Word) : Nat := crc4Bits w 28 0

/-- AES3 CRCC over bytes in transmission order, each byte least significant bit first (R247): the register shifts right
with the reversed polynomial 0xB8. -/
def crccSteps : Nat → Nat → Nat
  | 0, c => c
  | n + 1, c => crccSteps n (if c.testBit 0 then (c / 2) ^^^ 0xB8 else c / 2)

/-- CRCC of bytes 0 to 22 (R247: initial value 0xFF). -/
def crcc (bs : List Byte) : Nat := bs.foldl (fun c b => crccSteps 8 (c ^^^ b.toNat)) 0xFF

end Sys2Proof.Machine
end

