-- ==== Sys2Proof/Config.lean ====
section
/-! DEFINITION. What an implementation fixes and what the spec leaves open: constants without a body, of which no proof
can know a value. Each is named in a log entry. -/

namespace Sys2Proof.Config

/-- A free word, drawn with the state's counter (log entry 2). -/
opaque freeWord : Nat → Word

/-- A free integer, drawn with the state's counter (log entry 2). -/
opaque freeInt : Nat → Int

/-- Contents of the boot ROM (R347: the spec gives its size, not its bytes). -/
opaque bromByte : Nat → Byte

/-- The item of a configuration set that a byte offset of a GRAM bank holds (R347: the layout is not given). -/
opaque gramItem : Nat → Nat

/-- The item that a byte offset of RET holds (R397: regions are named, the layout is not given). -/
opaque retItem : Nat → Nat

/-- The per-device SECRET of OTP (R398), 32 bytes. -/
opaque secret : Vector Byte 32

/-- The two words of DEVICE_ID in OTP (R398). -/
opaque deviceId : Word × Word

/-- The CIC's exact output at a decimation ratio, from the modulator samples in its support, newest first (R163, R164: the spec gives its
ratio and that it is exact, not its order; log entry 19). -/
opaque cic (ratio : Nat) (codes : List Int) : Int

/-- Coefficient `i` of half-band stage 1 or 2 of a preset (R163–R165: the spec gives responses, not coefficients; log entry 19). -/
opaque halfBandTap (preset stage i : Nat) : Int

/-- The coefficients' scale: they are in 2 to the minus this number (log entry 19). -/
opaque halfBandScale (preset stage : Nat) : Nat

/-- Coefficient `i` of the 16-tap skew filter in Q2.30, for a delay of `skew`/64 fs less than nominal (R145, R166: the spec gives
the filter's length and nominal delay, not its coefficients; log entry 19). -/
opaque skewTap (skew : Int) (i : Nat) : Int

/-- The number of endpoint or lane samples in the support of an ASRC channel from `src` Hz to `dst` Hz (R30, R254: not stated; log
entry 19). -/
opaque asrcSupport (src dst : Nat) : Nat

/-- The DAC interpolator's output before its final stage, on a history at `hz`, newest first, at a phase of the final-stage rate
(R270: the spec gives the response, not the coefficients; log entry 19). -/
opaque interp (hz phase : Nat) (hist : List Word) : Int

/-- The PDM decimator's output for the bits in its support (R250: the spec gives the response, not the coefficients; log entry 19). -/
opaque pdmDecimate (bits : List Bool) : Word

/-- The PDM high-pass filter's output in 2^−63 at `hz`, from its input, its last input and its last output (Table 7.6: −3 dB at
4 Hz; the spec gives no more of it, log entry 19). -/
opaque pdmHpf (hz : Nat) (x x1 y1 : Int) : Int

end Sys2Proof.Config
end

