-- ==== Sys2Proof/Machine/State.lean ====
section
/-! DEFINITION. The state of the PK3234: every register, FIFO, buffer, counter, mode and pin the spec gives the part,
as plain data, the queue of waiting commands, and the state right after a power-on reset. The default value of a field
is its value after reset; the rule that names the field stands in its docstring. -/

namespace Sys2Proof.Machine

/-- A table: (index, value) pairs with rising indexes; an index that is not listed holds the table's default value,
which the accessor names. -/
abbrev Tab (α : Type) := List (Nat × α)

/-! ## Timebase (R338–R345) -/

/-- The source of the timebase count, coded as ST_CLOCK.TB_SRC (Table 9.7). -/
inductive TbSrc where
  | periLocked | periCoast | rc16 | xt32 | rc32
  deriving DecidableEq, Repr

/-- The timebase and the AON calibrator. -/
structure Timebase where
  /-- R338: the count, ns (64 bits). -/
  count : Nat := 0
  /-- R338: the 32-bit fraction accumulator, in 2^−32 ns. -/
  frac : Nat := 0
  /-- R338: the uncertainty U accumulated before the present source, ns. -/
  uBase : Nat := 0
  /-- Table 9.6: time counted from the present source, ns. -/
  elapsed : Nat := 0
  /-- R340: TB_VALID. -/
  valid : Bool := false
  /-- R345: the count at the last t0; 0 if none since POR. -/
  lastT0 : Nat := 0
  /-- Table 9.6: the present source. -/
  src : TbSrc := .rc16
  /-- Table 9.6: PLLB has locked since POR. -/
  lockedOnce : Bool := false
  /-- R339: the measured period of XT32, ps. -/
  xtPs : Nat := 30517578
  /-- R339: the measured period of the 32 kHz RC, ps. -/
  rcPs : Nat := 31250000
  /-- R339: a measurement has completed since the last return to RUN. -/
  calFresh : Bool := false
  /-- R339: T_cal, as an SN22 code (1/16 °C). -/
  tCal : Nat := 0
  /-- R339: the largest |T − T_cal| seen, in 1/16 °C. -/
  dT : Nat := 0
  /-- R338, T9.7: XT32 oscillates. -/
  xt32 : Bool := false
  deriving DecidableEq, Repr

/-! ## Host port (R43–R60) -/

/-- An accepted command packet: its session bit, SEQ and payload words (Table 2.2). -/
structure Packet where
  sess : Bool
  seq : BitVec 8
  words : List Word
  deriving DecidableEq, Repr

/-- The host port, its queues and ST_HOST. -/
structure HostPort where
  /-- R50, T2.15: EXP_SEQ. -/
  expSeq : BitVec 8 := 0
  /-- R50, T2.15: SEQ_FREE. -/
  seqFree : Bool := true
  /-- R51: the SEQ of the last accepted packet. -/
  lastSeq : Option (BitVec 8) := none
  /-- T2.15: DROPS, saturates at 255. -/
  drops : Nat := 0
  /-- R55: accepted packets that wait for execution. -/
  accepted : List Packet := []
  /-- R47, R59: queued response packets, oldest first. -/
  responses : List (List Byte) := []
  /-- R53: the stored response of the last accepted packet. -/
  stored : Option (List Byte) := none
  /-- R57: status and result words of the packet in execution. -/
  building : List Word := []
  /-- R44: the bytes the device sent in the last transaction. -/
  bytesOut : List Byte := []
  deriving DecidableEq, Repr

/-! ## Deferred commands (R58) -/

/-- The deferred operation in progress and its operands. -/
inductive Job where
  | calZ (mask : Word)
  | calF (mask : Word) (level : Int)
  | sleep
  | imageExec
  | sealClose (sid : Nat)
  | selftest (kind : Nat) (operand : Word)
  deriving DecidableEq, Repr

/-- Sums over the FIR outputs that a calibration measures: count, sum and sum of squares. -/
structure CalSum where
  n : Nat := 0
  sum : Int := 0
  sq : Int := 0
  deriving DecidableEq, Repr

/-- ST_DEFERRED (Table 2.17) and the operation in progress. -/
structure Deferred where
  /-- T2.17: OPCODE. -/
  opcode : BitVec 8 := 0
  /-- T2.17: STATUS. -/
  status : BitVec 8 := 0
  /-- T2.17: RUNNING, with the operation that runs. -/
  job : Option Job := none
  /-- R146, R147: when the operation was accepted; of a calibration, when the last named channel's measurement began. -/
  since : Nat := 0
  /-- T4.8: a sample of a named channel carried OVR, SET or CUT. -/
  marked : Bool := false
  /-- R158: the named channels whose measurement has begun. -/
  meas : Word := 0
  /-- R146, R147, R174: sums over the FIR outputs of channel ch's sub-chains, at 2·ch and 2·ch + 1. -/
  sums : Tab CalSum := []
  deriving DecidableEq, Repr

/-- ST_IRQ_PENDING and ST_IRQ_MASK (Tables 2.13, 2.14). Bit 0 of pending is live (RESP_READY). -/
structure Irq where
  /-- T2.14: bits [17:1], stored. -/
  pend : Word := 0
  /-- T2.13: the mask. -/
  mask : Word := 0x00020400
  deriving DecidableEq, Repr

/-! ## Configuration sets (R65–R77) -/

/-- Four words: a flow context (Table 7.1) or a calibration record (Tables 4.9, 4.10). -/
structure Quad where
  w0 : Word
  w1 : Word
  w2 : Word
  w3 : Word
  deriving DecidableEq, Repr

/-- A stream-core binding as CORE.BIND writes it (R115). -/
structure CoreBinding where
  word : Word
  sends : Word
  returns : Word
  deriving DecidableEq, Repr

/-- One configuration set (Table 2.8); its parameter pages lie in SRAM (Table 10.3). -/
structure ConfigSet where
  /-- T7.1: flow contexts, default 0. -/
  flows : Tab Quad := []
  /-- T6.3: node entries, index 128·IL + OL, default 0x0008_8000. -/
  nodes : Tab Word := []
  /-- T6.4: weir entries, default 0x0064_0000. -/
  weirs : Tab Word := []
  /-- T6.10: millrace taps, index 8·BUS + TAP, default 0x0000_0080. -/
  taps : Tab Word := []
  /-- T6.11: millrace output maps, index 2·BUS + word, default 0. -/
  outMaps : Tab Word := []
  /-- R155: FE.MODE words, default 0. -/
  feMode : Tab Word := []
  /-- R156: FE.GAIN words, default 0. -/
  feGain : Tab Word := []
  /-- R157: FE.PAIR words, default 0 (SPLIT). -/
  fePair : Tab Word := []
  /-- R182: FLT.PRESET words, default 0x0030_0000. -/
  preset : Tab Word := []
  /-- R184: FIR.SEL words, default 8 (BYPASS). -/
  firSel : Tab Word := []
  /-- R185: FIR.FADE words, default 2. -/
  firFade : Tab Word := []
  /-- T8.7: output setting words, default 0x0030_0000. -/
  outCfg : Tab Word := []
  /-- R115: core bindings, default 0. -/
  coreBind : Tab CoreBinding := []
  deriving DecidableEq, Repr

/-- A pending swap (R71–R76): EDGE, COPY, whether it still waits for its edge (ARMED, Table 2.16), and since when its
100 ms count. -/
structure SwapReq where
  edge : Bool
  copy : Bool
  armed : Bool
  since : Nat
  deriving DecidableEq, Repr

/-- An IMMEDIATE write that waits for its frame boundary (R67): opcode, operands, and the rate whose boundary
applies it (none: the item serves no lane, and any boundary applies it). -/
structure Placed where
  op : Nat
  ops : List Word
  rate : Option Nat
  deriving DecidableEq, Repr

/-- The two banks, the selector and ST_SET (Table 2.16). -/
structure Sets where
  /-- R65: bank A. -/
  bankA : ConfigSet := {}
  /-- R65: bank B. -/
  bankB : ConfigSet := {}
  /-- T2.16: BANK, true when bank B is ACTIVE. -/
  selB : Bool := false
  /-- R74: the epoch, 16 bits. -/
  epoch : Nat := 0
  /-- T2.16: SWAP_STATUS. -/
  swapStatus : BitVec 4 := 0
  /-- T2.16: PENDING, with the swap. -/
  swap : Option SwapReq := none
  /-- T2.16: COPYING. -/
  copying : Bool := false
  /-- R67: placed IMMEDIATE writes, oldest first. -/
  placed : List Placed := []
  /-- R366: the GRAM items of ACTIVE that FDMA takes as mute or disabled until they are rewritten, by their number in `gramGet`. -/
  taken : List Nat := []
  /-- R366: the flows of ACTIVE that FDMA takes as stopped until their entry is rewritten. -/
  takenFlows : List Nat := []
  deriving DecidableEq, Repr

/-! ## Front end and filter engine (R122–R189) -/

/-- A bank reference buffer (R127–R130). -/
structure RefBuf where
  /-- T4.3: the REF.ON setting. -/
  on : Bool := false
  /-- T4.3: the buffer is powered. -/
  powered : Bool := false
  /-- R127: when its 40 ms count began. -/
  onAt : Nat := 0
  /-- R127: ready. -/
  ready : Bool := false
  /-- R128: the late entry has been written. -/
  late : Bool := false
  /-- T4.3: turn the buffer off when the 64-sample ramp ends. -/
  offAfterRamp : Bool := false
  /-- R127, T4.3: the time from `onAt` to readiness, ns (40 ms; 150 µs after NAP). -/
  need : Nat := 40000000
  /-- T4.3: when the monitor left tolerance; it must be back in tolerance for 40 ms. -/
  lost : Option Nat := none
  /-- R128: the settle monitor has not reported since the REF.ON. -/
  fromOn : Bool := false
  deriving DecidableEq, Repr

/-- What an input channel does (R66, R129, Table 4.3). -/
inductive ChanRun where
  | off | stopped | running | ramping
  deriving DecidableEq, Repr

/-- A preamp gain change that waits for its zero crossing (R142, R143). -/
structure GainPend where
  target : Nat
  since : Nat
  cross : Bool
  deriving DecidableEq, Repr

/-- The calibration correction in use (R145): Q1.31 offsets, Q2.30 multipliers, skew in fs, and the sign of POL as a Q2.30
multiplier (R155). -/
structure Corr where
  offset : Int
  gain : Nat
  dOffset : Int
  gRatio : Nat
  skew : Int
  pol : Int
  deriving DecidableEq, Repr

/-- A 64-sample move of the correction (R152): from where, how many samples have passed, and whether it still waits for the
channel's frame boundary. -/
structure Move where
  src : Corr
  j : Nat
  wait : Bool
  deriving DecidableEq, Repr

/-- A filter coefficient bank (Table 5.4). -/
structure FirBank where
  desc : Word
  coefs : Tab (BitVec 24)
  deriving DecidableEq, Repr

/-- A running cross-fade (R175). -/
structure Fade where
  src : Nat
  dst : Nat
  len : Nat
  j : Nat
  deriving DecidableEq, Repr

/-- The stages between a modulator and the FIR, one for each sub-chain (R163). -/
structure Decim where
  /-- R163: the CIC's modulator samples, newest first. -/
  codes : List Int := []
  /-- T1.9: CIC words that wait in the dual-clock FIFO, oldest first, at most 8. -/
  fifo : List Int := []
  /-- R163: the CIC words HB1 holds, newest first. -/
  h1 : List Int := []
  /-- R163: the words of HB1 that HB2 holds, newest first. -/
  h2 : List Int := []
  deriving DecidableEq, Repr

/-- An analogue input channel as it runs. -/
structure Chan where
  /-- R66, R129. -/
  run : ChanRun := .off
  /-- T4.3: samples of the 64-sample ramp to 0 already given. -/
  rampJ : Nat := 0
  /-- R142: the analogue gain in use, dB. -/
  gain : Nat := 0
  /-- R142, R143. -/
  gainPend : Option GainPend := none
  /-- R137: the overload comparator has tripped. -/
  ovr : Bool := false
  /-- R139: the modulator is unstable. -/
  unstable : Bool := false
  /-- R140: NBR flagging runs. -/
  nbr : Bool := false
  /-- R137: filter-input samples whose support still holds a sample flagged OVR. -/
  ovrTail : Nat := 0
  /-- R178: output samples for which the CIC output's sign changes are ignored. -/
  crossHold : Nat := 0
  /-- R132: the next merged sample of an interleaved pair is the odd one. -/
  oddNext : Bool := false
  /-- R141, R168: filter-input samples still to be flagged SET. -/
  setLeft : Nat := 0
  /-- Capture-point samples still to carry SET after a synchronising reset (R168, R177). -/
  outSet : Nat := 0
  /-- R172: capture-point samples still to carry SET with a bank's new content. -/
  bankSet : Nat := 0
  /-- R177: the next sample carries CUT. -/
  cutNext : Bool := false
  /-- R152. -/
  move : Option Move := none
  /-- R170: the FIR bank in use, 8 for BYPASS. -/
  bank : Nat := 8
  /-- R172: bank content in use until the next frame boundary. -/
  oldBank : Option FirBank := none
  /-- R175. -/
  fade : Option Fade := none
  /-- R176: the queued bank. -/
  queued : Option Nat := none
  /-- R163, R164: the stages before the FIR. -/
  dec : Decim := {}
  /-- R163: those of the odd sub-chain. -/
  decOdd : Decim := {}
  /-- R175: HB2 output history, newest first, at most 384. -/
  hist : List Sample := []
  /-- R163: the odd sub-chain's history. -/
  histOdd : List Sample := []
  /-- R145, R166: corrected samples of the even sub-chain of an INTERLEAVE pair, newest first, at most 16. -/
  cor : List Sample := []
  /-- R145: corrected samples of its odd sub-chain. -/
  corOdd : List Sample := []
  /-- R37: the sample's place in the frame of a channel that no LOCKED flow carries. -/
  pos : Nat := 0
  /-- R206: modulator samples in the support of the tap's CIC, newest first, at most 15. -/
  mods : List Int := []
  /-- R206: the CIC's output, Q1.31. -/
  tap : Int := 0
  deriving DecidableEq, Repr

/-- The analogue front end. -/
structure FrontEnd where
  /-- R127–R130: the four bank buffers. -/
  refs : Tab RefBuf := []
  /-- The 32 channels. -/
  chans : Tab Chan := []
  /-- T4.7: ST_OVR. -/
  ovrReg : Word := 0
  /-- R140: when each channel's comparator last released. -/
  release : Tab Nat := []
  deriving DecidableEq, Repr

/-- An export snapshot (R159). -/
structure Snapshot where
  ch : Tab Quad
  pair : Tab Quad
  header : List Word
  deriving DecidableEq, Repr

/-- Calibration records and transfers (R150–R161). -/
structure Cal where
  /-- T4.9: channel records, index 8·channel + range. -/
  ch : Tab Quad := []
  /-- T4.10: pair records, index 8·pair + range. -/
  pair : Tab Quad := []
  /-- R159: the export counter. -/
  exports : Nat := 0
  /-- R159. -/
  snapshot : Option Snapshot := none
  /-- R160: staged parts. -/
  staging : Tab (List Word) := []
  deriving DecidableEq, Repr

/-- The three detectors of one source (R179). Magnitudes are Q1.31 codes; `p0` is the last peak taken and `age` the
samples since, from which P follows; a change of HOLD, DECAY or rate takes the present P for `p0`, at the age `ref`; `env`
holds E with 32 more fraction bits. -/
structure Det where
  p0 : Nat := 0
  age : Nat := 0
  ref : Nat := 0
  win : List Nat := []
  env : Nat := 0
  /-- The rate of the samples, Hz, by which hold and decay count. -/
  hz : Nat := 48000
  ovr : Bool := false
  set : Bool := false
  cut : Bool := false
  deriving DecidableEq, Repr

/-- The filter engine's global items (R170–R189) and the detectors. Detector index: AIN n is n, OL n is 32 + n. -/
structure Filters where
  /-- T5.4: coefficient banks, default undefined. -/
  banks : Tab FirBank := []
  /-- T5.10: detector settings, default 0xAD4A_0A00. -/
  detCfg : Tab Word := []
  /-- R179: detector values and flags. -/
  dets : Tab Det := []
  /-- T5.9: meter words, default 0x8000_8000. -/
  meters : Tab Word := []
  /-- R350: each detector's last capture of W0–W3. -/
  capture : Tab (Option Quad) := []
  deriving DecidableEq, Repr

/-! ## Matrix and millrace (R190–R225) -/

/-- A node ramp (R194–R196): start gain in Q4.20, the start code when it was settled, target code, length, shape,
next sample index. -/
structure NodeRamp where
  g0 : Nat
  d0 : Option Int
  target : BitVec 16
  len : Nat
  rcos : Bool
  j : Nat
  deriving DecidableEq, Repr

/-- A sum in the look-ahead window with its planned gain in dB (2^−96 dB, at most 0) (R199). -/
structure WeirTap where
  sum : Int
  tag : BitVec 4
  plan : Int
  deriving DecidableEq, Repr

/-- A weir limiter as it runs (R199, R201): present gain in dB (2^−96 dB), the look-ahead line oldest first, and whether
a disabled limiter still releases (with the old T_r in ms). -/
structure WeirRun where
  gain : Int := 0
  line : List WeirTap := []
  releasing : Option Nat := none
  deriving DecidableEq, Repr

/-- The confluence matrix as it runs. -/
structure Matrix where
  /-- R194: ramps in progress, by node index. -/
  ramps : Tab (Option NodeRamp) := []
  /-- R199: limiters by output lane. -/
  weirs : Tab WeirRun := []
  /-- R190: the present sample of each input lane. -/
  laneIn : Tab Sample := []
  /-- R190: the present sample of each output lane. -/
  laneOut : Tab Sample := []
  /-- T10.3: the next word of each lane buffer (OLn is 128 + n). -/
  lanePos : Tab Nat := []
  deriving DecidableEq, Repr

/-- A level that ramps (R208, R209): from where, in units of 2^−32, and when the ramp began. -/
structure LevelRamp where
  src : Nat := 0
  since : Nat := 0
  deriving DecidableEq, Repr

/-- A millrace tap as it runs (R208, R210): the channel it takes, the gain code it holds or ramps to, whether it ramps,
the channel it switches to half-way, and the gain (2^−32) from which and the time from which it ramps. -/
structure TapRun where
  chan : Nat := 0
  code : BitVec 8 := 0x80
  ramp : Bool := false
  next : Option Nat := none
  src : Nat := 0
  since : Nat := 0
  deriving DecidableEq, Repr

/-- The millrace as it runs. -/
structure Millrace where
  /-- R208: taps, index 8·BUS + TAP. -/
  taps : Tab TapRun := []
  /-- R209: bus contributions that ramp at a DAC channel, index 64·BUS + DAC. -/
  assignRamp : Tab (Option LevelRamp) := []
  /-- R209: block-path ramps of DAC channels. -/
  blockRamp : Tab (Option LevelRamp) := []
  deriving DecidableEq, Repr

/-- The emergency mute (R214–R216, R223). -/
structure Panic where
  /-- R223: the setting word: EN, LOW, DIG, GPIO. -/
  cfg : Word := 0
  /-- R214: the mute latch. -/
  latch : Bool := false
  /-- R223: the input is asserted. -/
  level : Bool := false
  deriving DecidableEq, Repr

/-! ## Flows and ports (R226–R264) -/

/-- A flow as it runs (R232–R235, R40). -/
structure FlowRun where
  /-- R232. -/
  running : Bool := false
  /-- R235: the 64-bit sequence counter. -/
  seq : Nat := 0
  /-- T1.9: the endpoint's dual-clock FIFO, oldest first. -/
  fifo : List Sample := []
  /-- R234: the delay line, oldest first. -/
  delay : List Sample := []
  /-- R369: the words of the delay line as they passed the check of their write, which a seal hashes. -/
  hashed : List Sample := []
  /-- R40: the last sample delivered from the endpoint since the start. -/
  last : Option Sample := none
  /-- R232: start-up samples still to deliver. -/
  startLeft : Nat := 0
  /-- R232, R252: lane samples that an egress flow's ASRC channel still takes before it gives the first of the start. -/
  asrcLeft : Nat := 0
  /-- T1.5: the next sample the flow delivers carries CUT. -/
  cutNext : Bool := false
  /-- R40: a sample has been discarded at the full FIFO; the next one read carries CUT. -/
  fifoCut : Bool := false
  /-- R39, R251: what an egress flow's ASRC channel gives in the present lane period and has yet to write into the FIFO, oldest first. -/
  ahead : List Sample := []
  /-- R251: the place of the channel's next output, in 1/LANE_RATE of a lane period. -/
  asrcPhase : Nat := 0
  /-- R253: samples a FOREIGN egress flow's endpoint has taken since the last lane sample. -/
  asrcReads : Nat := 0
  /-- R232: an egress flow has given its endpoint the first sample of its own. -/
  begun : Bool := false
  /-- R251, R252: the samples in the support of the flow's ASRC channel, newest first. -/
  hist : List Sample := []
  /-- T7.10: slips, 0 to 15. -/
  slips : Nat := 0
  /-- T7.9: the endpoint has stopped. -/
  stopped : Bool := false
  /-- R234: the padding DL − ceil(L_f) fixed at the start. -/
  pad : Nat := 0
  /-- R104: the next sample of the presented frame a return flow takes, or of the frame a send flow fills. -/
  pos : Nat := 0
  /-- T6.12: digital egress carries 0 with SET since a frame boundary. -/
  dig : Bool := false
  /-- R326: samples of the holdover mute's ramp already given by a digital egress flow. -/
  muteJ : Option Nat := none
  deriving DecidableEq, Repr

/-- A TDM port's STATE (Table 7.11). -/
inductive TdmSt where
  | off | running | stopped | acquiring
  deriving DecidableEq, Repr

/-- A TDM port (R237–R242). -/
structure TdmPort where
  /-- T7.4: the configuration word. -/
  cfg : Word := 0
  /-- T7.11: STATE. -/
  st : TdmSt := .off
  /-- R239: consecutive correct frames seen by a slave. -/
  good : Nat := 0
  /-- T7.11: the measured rate code of a slave. -/
  rate : Nat := 15
  /-- T7.11: CRC_ERRS. -/
  crcErrs : Nat := 0
  /-- T7.11: FRAME_ERRS. -/
  frameErrs : Nat := 0
  /-- R238, R240: the slot words of the last frame sent; none is a high-impedance slot. -/
  out : List (Option Word) := []
  /-- R238: the last bit of the frame before it, which the first BCLK of a delayed frame still carries. -/
  lastBit : Option Bool := none
  deriving DecidableEq, Repr

/-- An AES3 receiver's STATE (Table 7.12). -/
inductive AesSt where
  | off | locked | acquiring | unlocked | mismatch
  deriving DecidableEq, Repr

/-- An AES3 receiver (R245–R247). -/
structure AesRx where
  /-- T7.12: STATE. -/
  st : AesSt := .off
  /-- T7.12: the measured rate code. -/
  rate : Nat := 15
  /-- T7.12. -/
  parityErrs : Nat := 0
  /-- T7.12. -/
  crccErrs : Nat := 0
  /-- T7.12. -/
  lockLosses : Nat := 0
  /-- R247: last good block of subframe A since the lock. -/
  blkA : Option (List Word) := none
  /-- R247: last good block of subframe B since the lock. -/
  blkB : Option (List Word) := none
  /-- T7.12: byte 0 bits 0 and 1 of the last good block. -/
  pro : Bool := false
  nonAudio : Bool := false
  deriving DecidableEq, Repr

/-- An AES3 transmitter's channel-status blocks (R248): the ones it sends and the ones AES.CS last wrote. -/
structure AesTx where
  curA : List Word := [0, 0, 0, 0, 0, 0]
  curB : List Word := [0, 0, 0, 0, 0, 0]
  newA : List Word := [0, 0, 0, 0, 0, 0]
  newB : List Word := [0, 0, 0, 0, 0, 0]
  /-- R248: the frame of the block being sent, 0 to 191. -/
  frame : Nat := 0
  /-- R248: the subframes A and B of the last frame sent, bit i being time slot i; slots 0 to 3, the preamble, read 0. -/
  out : List Word := []
  deriving DecidableEq, Repr

/-- A PDM clock as it runs (R249, R250). -/
structure PdmRun where
  running : Bool := false
  since : Nat := 0
  deriving DecidableEq, Repr

/-- A PDM microphone's decimator (R249, R250): its value and tag bits, the samples still to carry SET after a synchronising
reset, whether its next sample carries CUT, and the high-pass filter's last input and output in 2^−63. -/
structure PdmMic where
  /-- R250: the bits in the decimator's support, newest first; fewer after its history was cleared. -/
  bits : List Bool := []
  out : Sample := ⟨0, 0⟩
  setLeft : Nat := 0
  cut : Bool := false
  hpX : Int := 0
  hpY : Int := 0
  deriving DecidableEq, Repr

/-- An ASRC ratio tracker (R253). -/
structure Tracker where
  locked : Bool := false
  acquiring : Bool := false
  outOfRange : Bool := false
  deriving DecidableEq, Repr

/-- The digital audio ports and the ASRC. -/
structure Ports where
  /-- T7.4, T7.11: TDM0–TDM3. -/
  tdm : Tab TdmPort := []
  /-- T7.5: AES3 units 0–3, default 0. -/
  aesCfg : Tab Word := []
  /-- T7.12: AESRX0, AESRX1. -/
  aesRx : Tab AesRx := []
  /-- R248: AESTX0, AESTX1. -/
  aesTx : Tab AesTx := []
  /-- T7.6: PDM clocks 0, 1, default 0. -/
  pdmCfg : Tab Word := []
  /-- R249. -/
  pdmRun : Tab PdmRun := []
  /-- R250: the eight microphones. -/
  mics : Tab PdmMic := []
  /-- R253: trackers TDM0–3, AESRX0–1. -/
  trackers : Tab Tracker := []
  /-- T7.13: RELOCKS. -/
  relocks : Nat := 0
  deriving DecidableEq, Repr

/-! ## Outputs, jacks, sense converter (R265–R314) -/

/-- Where an output is in Tables 8.3 and 8.4. -/
inductive DacPhase where
  | clamped | waitVcm | pumpStart | servo | spkStart | unmuting | playing | muting | probing
  deriving DecidableEq, Repr

/-- The output gain g_out (R267): 0, 1, or on the way of a mute ramp. -/
inductive GOut where
  | zero | rising | one | falling
  deriving DecidableEq, Repr

/-- The starvation fade of a block path (R271). -/
inductive Starve where
  | none | fadeOut | silent | fadeIn
  deriving DecidableEq, Repr

/-- A DAC channel (R267–R281). -/
structure Dac where
  /-- T8.3, T8.4. -/
  phase : DacPhase := .clamped
  /-- R267. -/
  g : GOut := .zero
  /-- R268: the clamp. -/
  clamp : Bool := true
  /-- When the present phase began. -/
  since : Nat := 0
  /-- R271. -/
  starve : Starve := .none
  /-- T8.5, T14.8: clamped until ACTIVE disables and re-enables it. -/
  lockout : Bool := false
  /-- T8.5, T14.8: speaker protection pauses: bit 0 over-current, bit 1 temperature, bit 2 SPKVDD. -/
  pause : BitVec 3 := 0
  /-- T8.5: times of the over-current trips. -/
  trips : List Nat := []
  /-- R275: the servo trim of the last enable, µV. -/
  trim : Int := 0
  /-- R267: the level of g_out, in 2^−32, from which its ramp runs. -/
  gFrom : Nat := 0
  /-- R267: when the ramp of g_out began. -/
  gAt : Nat := 0
  /-- R267, R280: the ramp's length in final-stage steps (12,288; 6,144 for the holdover mute). -/
  gLen : Nat := 12288
  /-- R271: the level of the starvation fade, in 2^−32, from which it runs. -/
  sFrom : Nat := 4294967296
  /-- R271: when the fade began. -/
  sAt : Nat := 0
  /-- R270, R272: the interpolator's history, newest first. -/
  hist : List Word := []
  /-- T8.4: the interpolator stands still, from the end of a disable sequence until the next start. -/
  stopped : Bool := true
  /-- R271: the block path's last value before a starvation fade, in units of 2^−31. -/
  path : Int := 0
  /-- R209, R267: the value at the DAC modulator's input. -/
  level : Int := 0
  deriving DecidableEq, Repr

/-- A charge pump (R273, R274). -/
structure Pump where
  on : Bool := false
  up : Bool := false
  high : Bool := false
  since : Nat := 0
  /-- R274: when the pair's level was last at −15 dBFS or above. -/
  loudAt : Nat := 0
  deriving DecidableEq, Repr

/-- The VCM node (R283). -/
inductive Vcm where
  | zero | rampUp | on | rampDown
  deriving DecidableEq, Repr

/-- The outputs. -/
structure Outputs where
  /-- R265: the 34 DAC channels. -/
  dacs : Tab Dac := []
  /-- R273: the four pumps. -/
  pumps : Tab Pump := []
  /-- R283: the VCM node. -/
  vcm : Vcm := .zero
  /-- R283: when its ramp began. -/
  vcmAt : Nat := 0
  deriving DecidableEq, Repr

/-- A jack's orientation (R286). -/
inductive Orient where
  | idle | ctia | omtp | grounded
  deriving DecidableEq, Repr

/-- Where classification stands (Table 8.8). -/
inductive ClsStep where
  | none | waiting | tip | micA | micB
  deriving DecidableEq, Repr

/-- A jack word (Table 8.12). -/
structure JackWord where
  w0 : Word := 0
  w1 : Word := 0x01EC0089
  w2 : Word := 0x0555034F
  deriving DecidableEq, Repr

/-- A jack as it runs (R287–R294, Table 8.11). -/
structure JackRun where
  /-- R287: the level at HPnDET; the pull-up holds an open pin high. -/
  pin : Bool := true
  /-- R288: since when the comparator has indicated what it does. -/
  since : Nat := 0
  /-- R294: the jack mute came with a removal that is not confirmed yet, and when. -/
  removing : Bool := false
  muteAt : Nat := 0
  /-- T8.11: PRESENT. -/
  present : Bool := false
  /-- T8.11: CLASS. -/
  cls : BitVec 3 := 0
  /-- R286. -/
  orient : Orient := .idle
  /-- T8.11: MUTED. -/
  muted : Bool := false
  /-- T8.11: PRESSED. -/
  pressed : Bool := false
  /-- T8.11: BUTTON. -/
  button : BitVec 2 := 0
  /-- R289. -/
  step : ClsStep := .none
  /-- R289: when the present step began, or its read was first tried. -/
  stepAt : Nat := 0
  /-- R314: when the dropped read was last tried. -/
  tryAt : Nat := 0
  /-- R289: the code of mic read A. -/
  micA : Nat := 0
  /-- R314: a read was dropped and waits for its reissue. -/
  dropped : Bool := false
  /-- R292: the window of the running count (4: no button). -/
  win : Nat := 4
  /-- R292: consecutive reads in that window. -/
  cnt : Nat := 0
  deriving DecidableEq, Repr

/-- The jacks and MICBIAS (R286–R298). -/
structure Jacks where
  /-- T8.12. -/
  words : Tab JackWord := []
  run : Tab JackRun := []
  /-- R298: MODE fields. -/
  micbias : BitVec 8 := 0
  deriving DecidableEq, Repr

/-- The sense converter (R299–R313). -/
structure Sense where
  /-- R303: the loaded sequence. -/
  seq : List Word := []
  /-- R309: EDGE. -/
  edge : BitVec 2 := 0
  /-- R302: the index of the running sequence's entry. -/
  idx : Option Nat := none
  /-- R306: an urgent conversion runs. -/
  urgent : Bool := false
  /-- R305: a watch conversion phase still completes before the sequence's entry. -/
  watchTail : Bool := false
  /-- R304: the channel the watch scan is at; none while it is stopped, or before its first conversion. -/
  scanCh : Option Nat := none
  /-- R312: host mask, bits [27:16]. -/
  hostMask : Word := 0
  /-- T8.16: the mask of the running scan (SENSE.WATCH takes effect at the next scan). -/
  scanMask : Word := 0x01C00000
  /-- T8.17: results. -/
  results : Tab Word := []
  /-- T8.18. -/
  drops : Nat := 0
  misses : Nat := 0
  aborted : Bool := false
  deriving DecidableEq, Repr

/-! ## Clocks (R315–R345) -/

/-- PLLA_STATE and PLLB_STATE (Table 9.7). -/
inductive PllSt where
  | off | acquiring | locked | holdover | holdoverMuted
  deriving DecidableEq, Repr

/-- A PLL (R315–R333). -/
structure Pll where
  /-- T9.8: the configuration word. -/
  cfg : Word
  /-- T9.7: the state. -/
  st : PllSt := .off
  /-- R319: consecutive windows within threshold. -/
  good : Nat := 0
  /-- R320: consecutive windows above threshold. -/
  bad : Nat := 0
  /-- R327: consecutive qualifying windows. -/
  qual : Nat := 0
  /-- R323: codes added to THRESH by the planner. -/
  boost : Nat := 0
  /-- R330: the outputs are gated by a relock. -/
  gated : Bool := false
  /-- R322: locking with the wake window and threshold after NAP. -/
  fromNap : Bool := false
  /-- R316, R319: the DCO's frequency over the last window, Hz. -/
  dco : Nat := 0
  /-- R324: the mean over the last window within threshold, Hz. -/
  mean : Nat := 0
  /-- R322, R324, R327: the tuning word that is frozen in holdover or kept through NAP, as the frequency it gives, Hz. -/
  word : Nat := 0
  /-- R327: when the last window ended. -/
  winAt : Nat := 0
  /-- R331: the guard's last window measured an output above target + 2 %. -/
  guardBad : Bool := false
  /-- R321, R429: when the relock of a RELOCK test must have locked; 0 without such a bound. -/
  lockBy : Nat := 0
  /-- R331: the reference was absent at the last look. -/
  refAway : Bool := false
  /-- R333: a frequency-guard trip forced the relock. -/
  guardTrip : Bool := false
  /-- R326: time of entry to holdover. -/
  holdAt : Nat := 0
  /-- R326: T0, the SN22 code at entry. -/
  t0Code : Nat := 0
  /-- R429: the RELOCK test of a guard trip waits for its outcome. -/
  testing : Bool := false
  /-- R429: when lock followed the trip. -/
  lockAt : Nat := 0
  deriving DecidableEq, Repr

/-- The clock system. -/
structure Clocks where
  /-- PLLA, reset word: WINDOW 12, THRESH 5, BW 4 (T9.8). -/
  a : Pll := { cfg := 0x000C0504 }
  /-- PLLB, reset word: EN, WINDOW 12, THRESH 5, BW 6 (T9.8). -/
  b : Pll := { cfg := 0x800C0506 }
  /-- R343: PLLA_REF. -/
  ref : BitVec 3 := 0
  /-- R343: nominal MCLK_IN frequency, Hz. -/
  mclkHz : Nat := 0
  /-- T9.8: the AON word: XT_USE 1, XTPPM 50. -/
  aon : Word := 0x80000032
  /-- T9.7: LOSSES. -/
  losses : Nat := 0
  /-- R335: INMODE. -/
  inmode : BitVec 2 := 0
  /-- R335: OUTMODE. -/
  outmode : BitVec 2 := 0
  /-- R335: SYNC_OUT pulses given. -/
  pulses : Nat := 0
  /-- R335: when the last pulse started. -/
  pulseAt : Nat := 0
  /-- R335: an EMIT that has not had its AUD edges yet. -/
  emitReq : Bool := false
  /-- R334: a SYNC with NOW waits for its t0. -/
  syncReq : Bool := false
  /-- R328: PLLA has relocked from HOLDOVER_MUTED; the restart waits for its boundary. -/
  restart : Bool := false
  deriving DecidableEq, Repr

/-! ## Power and resets (R370–R397, chapter 14) -/

/-- The power state (Table 11.2, R388, R390). -/
inductive PowerSt where
  | off | reset | run | entering | doze | nap | rest | hibernate | wakeHold | wakeHoldDark
  deriving DecidableEq, Repr

/-- The step a wake waits for (Table 11.8, R387). -/
inductive WakeStep where
  | dvdd | xref | pll | done
  deriving DecidableEq, Repr

/-- ST_STATE.BOOT (Table 2.12). -/
inductive Boot where
  | romWait | verify | run | safe | wakeHold
  deriving DecidableEq, Repr

/-- A sleep entry (R377): the chosen state as LAST_STATE codes it, the wake mask, TIMER, whether the query has been
made, the agents that still prepare, and when the prepare phase began. -/
structure SleepEntry where
  target : BitVec 3
  mask : Word
  timer : Nat
  queried : Bool
  delays : List Nat
  since : Nat
  deriving DecidableEq, Repr

/-- The power controller, boot, watchdog, AVS and reset registers. -/
structure Power where
  /-- T11.12: STATE, and the states STATE does not show. -/
  st : PowerSt := .reset
  /-- T11.12: LAST_STATE. -/
  lastState : BitVec 3 := 0
  /-- T11.12: WAKE_SRC. -/
  wakeSrc : BitVec 4 := 0
  /-- T11.12: PADS_HELD. -/
  padsHeld : Bool := false
  /-- T11.7: the TDM ports' words at commit, by which their pads are held where HIBERNATE has lost the ports. -/
  tdmHeld : List Word := []
  /-- T11.12: AGENT. -/
  agent : BitVec 4 := 0
  /-- T11.12: REASON. -/
  reason : BitVec 4 := 0
  /-- T11.12: RETRIES. -/
  retries : BitVec 2 := 0
  /-- T11.12: WAKE_FAIL. -/
  wakeFail : BitVec 2 := 0
  /-- R377: the entry in progress. -/
  entry : Option SleepEntry := none
  /-- T11.3: the enabled wake sources of the state entered. -/
  wakeMask : Word := 0
  /-- R373: TIMER, ms. -/
  timer : Nat := 0
  /-- R379: when the commit fell. -/
  commitAt : Nat := 0
  /-- R384: the wake in progress. -/
  waking : Option WakeStep := none
  /-- R384: when its wake event fell. -/
  wakeAt : Nat := 0
  /-- R385: the wake event's source, reported in WAKE_SRC at the return to RUN. -/
  wakeBy : BitVec 4 := 0
  /-- R387: when the present step of the wake began. -/
  stepSince : Nat := 0
  /-- R387: the failed resource is off, since this time. -/
  stepOff : Option Nat := none
  /-- R385: the return to RUN has come and audio has not restarted yet. -/
  audioWait : Bool := false
  /-- T11.11: bits [5:0]. -/
  cause : BitVec 6 := 1
  /-- T11.11: WDR_COUNT. -/
  wdrCount : Nat := 0
  /-- R393: the WDT.CFG word. -/
  wdt : Word := 0
  /-- R393: when the count was last restarted. -/
  wdtAt : Nat := 0
  /-- R394: AVS.CFG operands. -/
  avs0 : Word := 0
  avs1 : Word := 0
  /-- R394: the present request, mV. -/
  request : Nat := 0
  /-- R447: the request the planner moves to, mV. -/
  target : Nat := 0
  /-- R447: when the last step was sent. -/
  stepAt : Nat := 0
  /-- R447: the steps whose reading has not been judged yet. -/
  avsSteps : List Nat := []
  /-- R458: the straps sampled at boot start. -/
  straps : Straps := ⟨false, false, false, false, false, true, true, 24576000⟩
  /-- T14.8: rails in range. -/
  hpvdd : Bool := true
  spkvdd : Bool := true
  iovddA : Bool := true
  iovddH : Bool := true
  /-- T2.12: BOOT. -/
  boot : Boot := .romWait
  /-- R410: BOOT before VERIFY. -/
  bootPrev : Boot := .romWait
  /-- T12.10: ST_FW_VERSION. -/
  fwVersion : Word := 0
  /-- T12.10: SAFE_CAUSE. -/
  safeCause : BitVec 3 := 0
  /-- T2.12: ON_RC. -/
  onRc : Bool := true
  /-- T11.12: XREF_OK. -/
  xrefOk : Bool := false
  /-- R392: the firmware restarts and is not ready yet. -/
  restarting : Bool := false
  /-- R383: jack events held for the return to RUN. -/
  heldJack : Bool := false
  deriving DecidableEq, Repr

/-! ## Stream cores and CP (chapter 3) -/

/-- A register with its tag (Table 3.2). -/
structure Reg where
  val : Word
  tag : BitVec 4
  deriving DecidableEq, Repr

/-- An accumulator, Q10.62, with its tag bits OVR, SET, CUT (Table 3.2). -/
structure Acc where
  val : BitVec 72
  tag : BitVec 3
  deriving DecidableEq, Repr

/-- A hardware loop level (R96): first and last bundle, the iterations left, and the call level in which it stands. -/
structure LoopRec where
  first : Nat
  last : Nat
  left : Nat
  depth : Nat
  deriving DecidableEq, Repr

/-- Program-visible registers of a core, or of the CP (R86, R120). -/
structure Regs where
  /-- g1–g31, default 0 with tag 0. -/
  g : Tab Reg := []
  /-- a0–a7. -/
  a : Tab Acc := []
  /-- p1–p7. -/
  p : Tab Bool := []
  /-- The index of the bundle in execution. -/
  pc : Nat := 0
  /-- Loop levels, innermost first. -/
  loops : List LoopRec := []
  /-- Return indexes. -/
  calls : List Nat := []
  /-- R97: FEND has been executed. -/
  ended : Bool := false
  deriving DecidableEq, Repr

/-- A checkpoint entry (R107): a state word, or a delay word, of a slot, its previous value and tag. -/
structure Undo where
  delay : Bool
  idx : Nat
  val : Word
  tag : BitVec 4
  deriving DecidableEq, Repr

/-- What a core presents of a frame (R97, R110): the epoch under which it was computed, and the return samples stored
(index 16·port + sample). -/
structure Version where
  epoch : Nat
  out : Tab Sample
  deriving DecidableEq, Repr

/-- An access of a core that fails (Table 3.8): a memory word by its byte address, a send sample by its index, or a beat on the
matrix whose parity fails. -/
inductive BadRead where
  | word (addr : Nat)
  | send (i : Nat)
  | beat (addr : Nat) (e : BeatErr) (write : Bool)
  deriving DecidableEq, Repr

/-- A computed frame that is held (R105): number, epoch, FIRST and the forced CUTIN of Table 3.7, its input and output samples
(index 16·port + sample), and its checkpoint entries, newest first. -/
structure Frame where
  no : Nat
  epoch : Nat
  first : Bool
  cutIn : Bool
  input : Tab Sample
  out : Tab Sample
  undo : List Undo
  deriving DecidableEq, Repr

/-- ST_COREn.STATE (Table 3.11). -/
inductive CoreSt where
  | unbound | running | halted | stopped
  deriving DecidableEq, Repr

/-- A stream core. -/
structure Core where
  /-- T3.11: STATE. -/
  st : CoreSt := .unbound
  /-- R116: the slot on which it halted. -/
  haltSlot : Nat := 0
  /-- R86: registers of the frame in computation. -/
  regs : Regs := {}
  /-- R103: the memory clear runs. -/
  clearing : Bool := false
  /-- T3.7: FIRST for the next frame computed. -/
  first : Bool := false
  /-- T3.7: CUTIN forced for the next frame computed. -/
  cutIn : Bool := false
  /-- T3.7: number of the next frame. -/
  frameNo : Nat := 0
  /-- R104: boundaries left before the first frame of the binding is due. -/
  dueIn : Nat := 0
  /-- R105: send samples of the input frame being gathered, index 16·port + sample. -/
  sendBuf : Tab Sample := []
  /-- R105: complete input frames that wait, oldest first. -/
  inputs : List (Tab Sample) := []
  /-- R105: held frames, oldest first. -/
  held : List Frame := []
  /-- R105: the frame in presentation. -/
  shown : Option Version := none
  /-- R110: a stale frame is in presentation: all 16 samples carry CUT. -/
  shownCut : Bool := false
  /-- R110: versions computed before a rollback of the frames to be presented next, oldest first. -/
  stale : List Version := []
  /-- R109: frames that a rollback discarded and the core has not computed again yet. -/
  redo : Nat := 0
  /-- T1.5: the first sample of the next frame carries CUT. -/
  cutNext : Bool := false
  /-- T1.5: the first sample of what is being presented carries CUT. -/
  cutFirst : Bool := false
  /-- R105: the input frame of the frame in computation. -/
  input : Tab Sample := []
  /-- R108: cycles the last rollback took, charged to the next computation. -/
  undoCost : Nat := 0
  /-- R110: a late computation whose output is to be discarded. -/
  late : Nat := 0
  /-- R98: the stores of the frame in computation, newest first. -/
  undo : List Undo := []
  /-- R97: the return samples stored so far. -/
  out : Tab Sample := []
  /-- T3.8: a data error rolled back a computation in progress, which has not been computed again. -/
  retry : Bool := false
  /-- R109: the words whose read has failed. -/
  lastErr : List BadRead := []
  /-- T3.11. -/
  fallbacks : Nat := 0
  rollbacks : Nat := 0
  peakPct : Nat := 0
  deriving DecidableEq, Repr

/-- What a code slot holds (R82, R84, R114). -/
structure Slot where
  loaded : Bool := false
  cycles : Nat := 0
  stores : Nat := 0
  /-- R84: the physical pages of the delay region, in order. -/
  pages : List Nat := []
  bundles : Nat := 0
  deriving DecidableEq, Repr

/-- The stream cores. -/
structure Cores where
  core : Tab Core := []
  /-- Index 2·core + slot. -/
  slots : Tab Slot := []
  deriving DecidableEq, Repr

/-- A bus-matrix lock (R358): the arbitration point, the word's address, when LDGL was granted, and how long it was held when
MTX was gated (R363). -/
structure Lock where
  point : Nat
  addr : Nat
  since : Nat
  frozen : Option Nat := none
  deriving DecidableEq, Repr

/-- The control processor (R120) and the lock it holds (R358). -/
structure CpState where
  regs : Regs := {}
  lock : Option Lock := none
  /-- R359: a lock ended by LOCK_TIMEOUT, whose STGU is still to come. -/
  lockLost : Bool := false
  /-- R120: waiting for an event. -/
  wfe : Bool := false
  /-- R359, R366: the last access ended in a bus error. -/
  busError : Bool := false
  deriving DecidableEq, Repr

/-! ## Memory (R346–R367) -/

/-- The memories of the bus matrix that hold plain words. -/
structure Memory where
  /-- CPRAM, PRAM, SRAM, CRAM by physical address, in canonical form; an unlisted byte reads 0. -/
  cells : List Host.Cell := []
  /-- R33: the tag of each aligned word of SRAM and PRAM, by word address, default 0. -/
  tags : Tab (BitVec 4) := []
  /-- R109, R366: words whose stored code no longer decodes, by byte address. -/
  bad : List Nat := []
  /-- R365, R366: errors outside a stored word that the next check of their place finds. The environment brings them with a
  PATROL_PASS (log entry 16). -/
  upsets : List Upset := []
  /-- T10.5: REMAP. -/
  remap : Bool := false
  /-- R350: registers that have no behaviour of their own, by address, default 0. -/
  peri : Tab Word := []
  deriving DecidableEq, Repr

/-! ## Security (chapter 12) -/

/-- OTP lifecycle (Table 12.1). -/
inductive Lifecycle where
  | blank | maker | field | rma
  deriving DecidableEq, Repr

/-- The CTR_DRBG of R406: its key and counter block, and the requests since its last seeding. The entropy of the boot's seeding is
drawn at the first request after the boot (log entry 190). -/
structure Drbg where
  seeded : Bool := false
  count : Nat := 0
  key : List Byte := []
  v : List Byte := []
  deriving DecidableEq, Repr

/-- The programmable OTP fields (Table 12.1). -/
structure Otp where
  rootkeys : Tab (List Word) := []
  keySet : BitVec 4 := 0
  keyRevoked : BitVec 4 := 0
  policy : Bool := false
  lifecycle : Lifecycle := .blank
  xrefFreq : Nat := 0
  arb : Tab Nat := []
  cert : List Word := []
  certSet : Bool := false
  factorySet : Bool := false
  facCh : Tab Quad := []
  facPair : Tab Quad := []
  deriving DecidableEq, Repr

/-- An open host session (R413–R415): rights, keys and packet counters of the two directions. -/
structure Session where
  rights : BitVec 3
  kHd : List Byte
  kDh : List Byte
  cHd : Nat
  cDh : Nat
  deriving DecidableEq, Repr

/-- The security engine. -/
structure Security where
  /-- T12.1. -/
  otp : Otp := {}
  /-- R398: the words of OTP whose ECC no longer corrects them, by their offsets in the array. -/
  otpBad : List Nat := []
  /-- R413. -/
  session : Option Session := none
  /-- R406: DRBG_FAIL. -/
  drbgFail : Bool := false
  /-- R406: the CTR_DRBG. -/
  drbg : Drbg := {}
  /-- R418: the scope in force. -/
  debug : BitVec 3 := 0
  /-- R418: the challenge held and when it was given. -/
  chal : Option (List Word × Nat) := none
  /-- T12.10: TAG_FAILS. -/
  tagFails : Nat := 0
  /-- R410: the staged stream image is verified. -/
  verified : Bool := false
  deriving DecidableEq, Repr

/-- One seal (R419–R424). -/
structure SealSt where
  /-- T12.10: OPEN. -/
  isOpen : Bool := false
  /-- R423: hashing has started. -/
  started : Bool := false
  /-- T12.10: DEST, PORT, FLOW. -/
  dest : BitVec 2 := 0
  port : Nat := 0
  flow : Nat := 0
  /-- T12.10: BLOCKS. -/
  blocks : Nat := 0
  /-- R421: the record counter. -/
  recs : Nat := 0
  /-- R420: the chain head H_i, 32 bytes. -/
  head : List Byte := []
  /-- R420: samples of the block in progress, oldest first. -/
  block : List Sample := []
  /-- R420: sequence number of the block's first sample. -/
  firstSeq : Nat := 0
  /-- T12.8: timebase count and U when the first sample was written. -/
  t0 : Nat := 0
  unc : Nat := 0
  /-- R422: a SIGN record is due. -/
  signDue : Bool := false
  /-- R424, T12.9: the CLOSE record is due, with this reason. -/
  closeDue : Option Nat := none
  deriving DecidableEq, Repr

/-- A queued seal record (R422). -/
structure SealRec where
  dest : BitVec 2
  port : Nat
  words : List Word
  deriving DecidableEq, Repr

/-- Sealed capture. -/
structure Seals where
  seals : Tab SealSt := []
  /-- R422: the seal buffer, oldest record first. -/
  queue : List SealRec := []
  /-- T12.10: OVERFLOWS. -/
  overflows : Nat := 0
  deriving DecidableEq, Repr

/-! ## Reliability (chapter 13) -/

/-- A fault-log entry (Table 13.3), with the site the classification compares. -/
structure FaultEntry where
  w0 : Word
  w1 : Word
  w2 : Word
  w3 : Word
  site : Nat
  time : Nat
  deriving DecidableEq, Repr

/-- A targeted self-test that is queued (R431): source and site. Its entries are the PENDING ones of that site. -/
structure FaultTest where
  source : Nat
  site : Nat
  deriving DecidableEq, Repr

/-- The fault log, the self-test queue and the repair map (R429–R439). -/
structure Faults where
  /-- T13.3: entries, newest first, at most 64. -/
  log : List FaultEntry := []
  /-- T13.3: entries written since the log was last emptied. -/
  written : Nat := 0
  /-- T13.5: OVERWRITTEN. -/
  overwritten : Nat := 0
  /-- R431: tests in the order their errors arrived: at most 8 wait, behind the one that runs. -/
  tests : List FaultTest := []
  /-- R431: the first test of the queue is running. -/
  testing : Bool := false
  /-- R434: rows mapped to a spare, by repair bank. -/
  repaired : Tab (List Nat) := []
  /-- R434, R450: banks that had no free spare when a repair was due. -/
  exhausted : List Nat := []
  deriving DecidableEq, Repr

/-- The margin planner (R442–R452). -/
structure Margin where
  /-- T13.9: ST_MARGIN, ST_MARGIN_MON, ST_MARGIN_PLAN. -/
  w0 : Word := 0xFF000000
  w1 : Word := 0xFFFFFFFF
  w2 : Word := 0xFF000000
  /-- R452: the words of the last run and of the 31 before it, newest first. -/
  hist : List (Word × Word × Word) := []
  /-- R304: the planner runs. -/
  running : Bool := false
  /-- T13.7: MN of the last CAL.Z that wrote NOISE; 0xFF not evaluated. -/
  mn : Nat := 255
  /-- T13.7: MH of the last headphone enable; 0xFF not evaluated. -/
  mh : Nat := 255
  /-- R445: RUN time since the last run that the 24 h made due, ns. -/
  runNs : Nat := 0
  /-- R445: a sleep commit has abandoned a run; the wake starts a new one. -/
  again : Bool := false
  /-- R450: the AVS regulator has failed since the present run began. -/
  avsSeen : Bool := false
  deriving DecidableEq, Repr

/-- The TAP instruction (R417). -/
inductive Jtag where
  | bypass | idcode | sample | extest
  deriving DecidableEq, Repr

/-- JTAG and the pins that hold a level. -/
structure Pins where
  /-- R417: the TAP instruction; the TAP resets to IDCODE (IEEE 1149.1). -/
  jtag : Jtag := .idcode
  /-- R417: the boundary register. -/
  boundary : Word := 0
  /-- R417: the data register captured, as TDO shifts it out. -/
  tdo : Word := 0xA3234F1B
  deriving DecidableEq, Repr

/-- The PK3234. -/
structure State where
  /-- The waiting commands, first in, first out. -/
  pending : List Instr := []
  /-- The model's own counter of free values drawn (log entry 2). -/
  free : Nat := 0
  tb : Timebase := {}
  host : HostPort := {}
  deferred : Deferred := {}
  irq : Irq := {}
  sets : Sets := {}
  fe : FrontEnd := {}
  cal : Cal := {}
  filt : Filters := {}
  mtx : Matrix := {}
  mr : Millrace := {}
  panic : Panic := {}
  flows : Tab FlowRun := []
  ports : Ports := {}
  outs : Outputs := {}
  jack : Jacks := {}
  sense : Sense := {}
  clk : Clocks := {}
  power : Power := {}
  cores : Cores := {}
  cp : CpState := {}
  mem : Memory := {}
  sec : Security := {}
  seals : Seals := {}
  flt : Faults := {}
  margin : Margin := {}
  pins : Pins := {}
  deriving DecidableEq, Repr

/-- Why a step stops with a fault. -/
inductive Fault where
  /-- RET with an empty call stack (no rule says what follows; CORE.LOAD refuses such a program). Raised by execRet. Safe:
  the hardware goes on in a way the spec does not state. -/
  | callUnderflow
  /-- CALL beyond 4 levels on a core (R96) or 16 on the CP (R120): the rules state the depth and nothing beyond it. Raised
  by execCall. Safe. -/
  | callOverflow
  /-- A third loop level (R96 states two). Raised by execLoop and execLoopi. Safe. -/
  | loopOverflow
  deriving DecidableEq, Repr

/-- Why a step is refused. -/
inductive Refusal where
  /-- The row has no meaning yet (only exec's arms raise it). Safe. -/
  | notModelled (mnemonic : String)
  /-- The CP is given a syllable that R120 says it does not implement. Raised by the syllable rows. Safe. -/
  | cpDoesNotImplement (mnemonic : String)
  /-- A syllable row with an operand value that R93 or R96 makes a reserved encoding: ACCRD with SH above 8, SEL is not
  among them (its row has no reserved bits), LOOPI with COUNT 0. Raised by execAccrd and execLoopi. Safe. -/
  | reservedEncoding (mnemonic : String)
  deriving DecidableEq, Repr

/-- The state right after a power-on reset (R390, R397, R465): VAON is present, every domain holds its reset value, the
outputs are clamped and the part waits for its boot start (R467). -/
def State.reset : State := {}

end Sys2Proof.Machine
end

