-- ==== Sys2Proof/Machine/Flags.lean ====
section
/-! DEFINITION. Flags: the interrupt flags of ST_IRQ_PENDING (Table 2.14), and the tag bits of a sample (R27–R29). -/

namespace Sys2Proof.Machine

/-! ## Interrupt flags (Table 2.14) -/

def irqCmdDone := 1
def irqSwapDone := 2
def irqSetCopied := 3
def irqOverload := 4
def irqJack := 5
def irqSense := 6
def irqClock := 7
def irqHoldMute := 8
def irqFault := 9
def irqWakeFault := 10
def irqSlip := 11
def irqSeal := 12
def irqFallback := 13
def irqPanic := 14
def irqService := 15
def irqSecurity := 16
def irqBootDone := 17

/-- Raise bit `i` of ST_IRQ_PENDING. -/
def raiseIrq (i : Nat) (s : State) : State := { s with irq := { s.irq with pend := setBit s.irq.pend i true } }

/-- Raise bit `i` of ST_IRQ_PENDING when `b` holds. -/
def raiseIf (b : Bool) (i : Nat) (s : State) : State := if b then raiseIrq i s else s

/-! ## Tags (R28, R29, Table 1.4) -/

/-- OVR, SET and CUT of a tag (R29). -/
def tagOR (a b : BitVec 4) : BitVec 4 := (a ||| b) &&& 0b1110#4

def tOVR : BitVec 4 := 0b1000#4
def tSET : BitVec 4 := 0b0100#4
def tCUT : BitVec 4 := 0b0010#4

/-- A sample of value 0. -/
def zeroSample (t : BitVec 4) : Sample := ⟨0, t⟩

end Sys2Proof.Machine
end

