-- ==== Sys2Proof/Machine/Numeric.lean ====
section
/-! DEFINITION. The real functions the spec's formulas use (10^x, exp, ln, cos), computed in fixed point with 128 fraction
bits: far finer than every rounding the formulas end in. UNVERIFIED: that no formula's exact value lies so close to a
rounding tie that 128 bits do not settle it (log entry 9). -/

namespace Sys2Proof.Machine

/-- One, in fixed point with 128 fraction bits. -/
def fxOne : Int := 2 ^ 128

/-- A rational number in fixed point. -/
def fxRat (num : Int) (den : Nat) : Int := roundDiv (num * fxOne) den

/-- ln 2. -/
def fxLn2 : Int := 235865763225513294137944142764154484399

/-- ln 10. -/
def fxLn10 : Int := 783529105480883066805338482703447369892

/-- π. -/
def fxPi : Int := 1069028584064966747859680373161870783301

/-- Fixed-point product. -/
def fxMul (a b : Int) : Int := roundDiv (a * b) (2 ^ 128)

/-- Fixed-point quotient by a positive number. -/
def fxDiv (a b : Int) : Int := roundDiv (a * fxOne) b.toNat

/-- Sum of the exponential series of `r` from the term number `n`, the present term being `t`. -/
def expSeries (r : Int) : Nat → Nat → Int → Int
  | 0, _, t => t
  | fuel + 1, n, t => t + expSeries r fuel (n + 1) (roundDiv (fxMul t r) (n + 1))

/-- e^x. -/
def fxExp (x : Int) : Int :=
  let k := Int.fdiv x fxLn2
  let v := expSeries (x - k * fxLn2) 40 0 fxOne
  if 0 ≤ k then v * 2 ^ k.toNat else roundDiv v (2 ^ (-k).toNat)

/-- Sum of the series of artanh from the odd term `n`, `p` being the present power of z. -/
def artanhSeries (z2 : Int) : Nat → Nat → Int → Int
  | 0, n, p => roundDiv p n
  | fuel + 1, n, p => roundDiv p n + artanhSeries z2 fuel (n + 2) (fxMul p z2)

/-- ln of num/den, for positive num and den. -/
def fxLnRat (num den : Nat) : Int :=
  let k : Int := (Nat.log2 num : Int) - Nat.log2 den
  let m := if 0 ≤ k then fxRat num (den * 2 ^ k.toNat) else fxRat ((num : Int) * 2 ^ (-k).toNat) den
  let z := fxDiv (m - fxOne) (m + fxOne)
  k * fxLn2 + 2 * artanhSeries (fxMul z z) 60 1 z

/-- Sum of the cosine series from the term number `n` (even), the present term being `t`. -/
def cosSeries (x2 : Int) : Nat → Nat → Int → Int
  | 0, _, t => t
  | fuel + 1, n, t => t + cosSeries x2 fuel (n + 2) (-(roundDiv (fxMul t x2) ((n + 1) * (n + 2))))

/-- cos(π·num/den) for 0 ≤ num ≤ den. -/
def fxCosPi (num den : Nat) : Int :=
  if 2 * num = den then 0
  else if 3 * num = den then 2 ^ 127
  else if 3 * num = 2 * den then -(2 ^ 127)
  else if num = 0 then fxOne
  else if num = den then -fxOne
  else
    let x := roundDiv (fxPi * num) den
    cosSeries (fxMul x x) 40 0 fxOne

/-- 10^(num/den). -/
def fxPow10 (num : Int) (den : Nat) : Int := fxExp (roundDiv (fxLn10 * num) den)

/-- k·log10(num/den), rounded to nearest (R486). -/
def logCode (k num den : Nat) : Int := roundDiv (fxLnRat num den * k) fxLn10.toNat

/-- The raised-cosine weight (1 − cos(π·num/den)) / 2. -/
def fxRcos (num den : Nat) : Int := roundDiv (fxOne - fxCosPi num den) 2

/-- round(2^frac × 10^(d/2000)): a gain of `d` hundredths of a dB with `frac` fraction bits. -/
def gainOf (frac : Nat) (d : Int) : Nat := (roundDiv (fxPow10 d 2000) (2 ^ (128 - frac))).toNat

/-- The floor of the square root, by Newton steps from above. -/
def isqrtLoop (n : Nat) : Nat → Nat → Nat
  | 0, x => x
  | fuel + 1, x =>
    let y := (x + n / x) / 2
    if y < x then isqrtLoop n fuel y else x

/-- The floor of the square root. -/
def isqrt (n : Nat) : Nat := if n = 0 then 0 else isqrtLoop n 200 (2 ^ (Nat.log2 n / 2 + 1))

end Sys2Proof.Machine
end

