-- ==== Sys2Proof/Machine/Operands.lean ====
section
/-! DEFINITION. The operands of a command (R54, Table 2.4): its operand words and flags, its COUNT, and the forms that a row
of the opcode table fixes. -/

namespace Sys2Proof.Machine

/-- Operand `n`, 0 when absent (COUNT has been checked before a body runs). -/
def opnd (a : CmdArgs) (n : Nat) : Word := a.ops.getD n 0

/-- CMDFLAGS bit 20 + `n`. -/
def flag (a : CmdArgs) (n : Nat) : Bool := a.flags.getLsbD n

/-- A reserved bit of an operand is set. -/
def resv (w mask : Word) : Bool := !within w mask

/-- COUNT must be `n`. -/
def countIs (n : Nat) (a : CmdArgs) : Bool := decide (a.ops.length = n)

/-- The command that a row's form fixes: flag 20 + `n` set or clear. -/
def withFlag (a : CmdArgs) (n : Nat) (b : Bool) : CmdArgs :=
  { a with flags := if b then a.flags ||| (1#4 <<< n) else a.flags &&& ~~~(1#4 <<< n) }

/-- The command with operand 0's field [hi:lo] fixed by the row's form. -/
def withField (a : CmdArgs) (hi lo v : Nat) : CmdArgs :=
  { a with ops := match a.ops with | [] => [] | w :: ws => setFld w hi lo v :: ws }

end Sys2Proof.Machine
end

