-- ==== Sys2Proof/Machine/Tab.lean ====
section
/-! DEFINITION. Tables in canonical form: (index, value) pairs with strictly rising indexes, no entry holding the value
that an unlisted index reads as. Memory is such a table of bytes. -/

namespace Sys2Proof.Machine

/-- Read entry `k`; an unlisted index reads `d`. -/
def tget {α : Type} (d : α) : List (Nat × α) → Nat → α
  | [], _ => d
  | (k', v) :: r, k => if k = k' then v else if k < k' then d else tget d r k

/-- Write `v` at `k`, keeping the canonical form for the default `d`: writing the default removes the entry, and with it what
stands after it at no higher index (nothing, in canonical form), so that no other read changes whatever the table. -/
def tput {α : Type} [DecidableEq α] (d : α) : List (Nat × α) → Nat → α → List (Nat × α)
  | [], k, v => if v = d then [] else [(k, v)]
  | (k', v') :: r, k, v =>
    if k < k' then (if v = d then (k', v') :: r else (k, v) :: (k', v') :: r)
    else if k = k' then (if v = d then r.dropWhile (fun e => decide (e.1 ≤ k)) else (k, v) :: r)
    else (k', v') :: tput d r k v

/-- Apply `f` to the entry at `k`. -/
def tmod {α : Type} [DecidableEq α] (d : α) (t : List (Nat × α)) (k : Nat) (f : α → α) : List (Nat × α) :=
  tput d t k (f (tget d t k))

/-- Write consecutive entries from `k`. -/
def tputs {α : Type} [DecidableEq α] (d : α) : List (Nat × α) → Nat → List α → List (Nat × α)
  | t, _, [] => t
  | t, k, v :: vs => tputs d (tput d t k v) (k + 1) vs

/-- The canonical form: indexes above `lo` (when given) rise strictly and no entry equals the default. -/
def tcanon {α : Type} [DecidableEq α] (d : α) : Option Nat → List (Nat × α) → Bool
  | _, [] => true
  | lo, (k, v) :: r =>
    (match lo with | none => true | some l => decide (l < k)) && decide (v ≠ d) && tcanon d (some k) r

/-- A table in canonical form. -/
abbrev Twf {α : Type} [DecidableEq α] (d : α) (t : List (Nat × α)) : Prop := tcanon d none t = true

/-- The indexes 0 … n−1 for which `p` holds. -/
def indexes (n : Nat) (p : Nat → Bool) : List Nat := (List.range n).filter p

end Sys2Proof.Machine
end

