-- ==== Sys2Proof/Machine/Ops.lean ====
section
/-! DEFINITION. The named operations that every family shares: status codes, interrupt flags, time, free values, the two
configuration sets with their default items, the fault log, and the states in which clocks and grids run. -/

namespace Sys2Proof.Machine

/-- What exec and step answer. -/
abbrev Out := Host.Outcome State Fault Refusal

/-- What a command or event leaves: the queue is the step's, and OTP is permanent (Table 12.1): only the commands that program
it (R161, R400–R402) write it. -/
def settle (before after : State) : State :=
  { after with pending := before.pending, sec := { after.sec with otp := before.sec.otp } }

/-- The answer of an event. -/
def ev (before after : State) : Out := .next (settle before after)

/-! ## Status codes (R61, Table 2.6) -/

/-- A status code of Table 2.6. -/
inductive Status where
  | ok | busy | refNotReady | bankBusy | notAuthenticated | badCrc | range | unsupported | refused
  | untestedCombination | seqError | noCapacity | lifecycle | timeout | fault
  deriving DecidableEq, Repr

/-- The code of a status (Table 2.6). -/
def Status.code : Status → Nat
  | .ok => 0 | .busy => 1 | .refNotReady => 2 | .bankBusy => 3 | .notAuthenticated => 4 | .badCrc => 5 | .range => 6
  | .unsupported => 7 | .refused => 8 | .untestedCombination => 9 | .seqError => 10 | .noCapacity => 11
  | .lifecycle => 12 | .timeout => 13 | .fault => 14

/-- What a command answers: its status, the state it leaves and its result words. -/
structure Ans where
  st : Status
  s : State
  res : List Word

/-- A command that reports a status and has no effect. -/
def no (c : Status) (s : State) : Ans := ⟨c, s, []⟩

/-- A command that executes. -/
def yes (s : State) (res : List Word := []) : Ans := ⟨.ok, s, res⟩

/-- The first check that fails, else the command's effect. -/
def checks (s : State) (l : List (Bool × Status)) (k : Ans) : Ans :=
  match l with
  | [] => k
  | (true, c) :: _ => no c s
  | (false, _) :: r => checks s r k

/-! ## Time (R338) -/

/-- The timebase count, ns. -/
def now (s : State) : Nat := s.tb.count

/-- Nanoseconds since time `t`. -/
def since (s : State) (t : Nat) : Nat := s.tb.count - t

/-- One microsecond, one millisecond and one second in ns. -/
def usec : Nat := 1000
def msec : Nat := 1000000
def sec1 : Nat := 1000000000

/-- U grown from the present source (Table 9.6), rounded up to ns. -/
def uGrowth (s : State) : Nat :=
  let t := s.tb.elapsed
  match s.tb.src with
  | .periLocked => 0
  | .periCoast => ceilDiv (t * t) (4 * 10 ^ 15)
  | .rc16 => ceilDiv (15 * t) 1000
  | .xt32 => ceilDiv (fld s.clk.aon 7 0 * t) 1000000
  | .rc32 => if s.tb.calFresh then ceilDiv ((3200 + 150 * s.tb.dT) * t) 16000000 else ceilDiv (3 * t) 100

/-- U, saturated at 0xFFFF_FFFF (R338). -/
def uncertainty (s : State) : Nat := min 0xFFFFFFFF (s.tb.uBase + uGrowth s)

/-! ## Free values (log entry 2) -/

/-- A free word, and the state with the counter advanced. -/
def drawWord (s : State) : Word × State := (Config.freeWord s.free, { s with free := s.free + 1 })

/-- `n` free words. -/
def drawWords : Nat → State → List Word × State
  | 0, s => ([], s)
  | n + 1, s =>
    let (w, s1) := drawWord s
    let (ws, s2) := drawWords n s1
    (w :: ws, s2)

/-- A free integer in [lo, hi]. -/
def drawIn (lo hi : Int) (s : State) : Int × State :=
  (lo + (Config.freeInt s.free) % (hi - lo + 1), { s with free := s.free + 1 })

/-! ## Configuration sets (R65) -/

/-- Reset values of the items (Tables 6.3, 6.4, 6.10, 7.1, 8.7; R182–R185). -/
def dNode : Word := 0x00088000
def dWeir : Word := 0x00640000
def dTap : Word := 0x00000080
def dPreset : Word := 0x00300000
def dFirSel : Word := 8
def dFirFade : Word := 2
def dOut : Word := 0x00300000
def dFlow : Quad := ⟨0, 0, 0, 0⟩
def dBind : CoreBinding := ⟨0, 0, 0⟩

def ConfigSet.flow (c : ConfigSet) (f : Nat) : Quad := tget dFlow c.flows f
def ConfigSet.node (c : ConfigSet) (il ol : Nat) : Word := tget dNode c.nodes (128 * il + ol)
def ConfigSet.weir (c : ConfigSet) (ol : Nat) : Word := tget dWeir c.weirs ol
def ConfigSet.tap (c : ConfigSet) (bus t : Nat) : Word := tget dTap c.taps (8 * bus + t)
def ConfigSet.outMap (c : ConfigSet) (bus w : Nat) : Word := tget 0 c.outMaps (2 * bus + w)
def ConfigSet.mode (c : ConfigSet) (ch : Nat) : Word := tget 0 c.feMode ch
def ConfigSet.gainW (c : ConfigSet) (ch : Nat) : Word := tget 0 c.feGain ch
def ConfigSet.pairW (c : ConfigSet) (p : Nat) : Word := tget 0 c.fePair p
def ConfigSet.presetW (c : ConfigSet) (ch : Nat) : Word := tget dPreset c.preset ch
def ConfigSet.fir (c : ConfigSet) (ch : Nat) : Word := tget dFirSel c.firSel ch
def ConfigSet.fade (c : ConfigSet) (ch : Nat) : Word := tget dFirFade c.firFade ch
def ConfigSet.out (c : ConfigSet) (d : Nat) : Word := tget dOut c.outCfg d
def ConfigSet.bind (c : ConfigSet) (n : Nat) : CoreBinding := tget dBind c.coreBind n

/-- The set the signal path reads (R65). -/
def active (s : State) : ConfigSet := if s.sets.selB then s.sets.bankB else s.sets.bankA

/-- The other set. -/
def shadow (s : State) : ConfigSet := if s.sets.selB then s.sets.bankA else s.sets.bankB

/-- Change the ACTIVE set. -/
def onActive (f : ConfigSet → ConfigSet) (s : State) : State :=
  if s.sets.selB then { s with sets := { s.sets with bankB := f s.sets.bankB } }
  else { s with sets := { s.sets with bankA := f s.sets.bankA } }

/-- Change the SHADOW set. -/
def onShadow (f : ConfigSet → ConfigSet) (s : State) : State :=
  if s.sets.selB then { s with sets := { s.sets with bankA := f s.sets.bankA } }
  else { s with sets := { s.sets with bankB := f s.sets.bankB } }

/-- EPO of a sample computed now (R27). -/
def epo (s : State) : BitVec 4 := BitVec.ofNat 4 (s.sets.epoch % 2)

/-- A tag with EPO replaced by the present epoch's (R27, R29). -/
def stamp (s : State) (t : BitVec 4) : BitVec 4 := (t &&& 0b1110#4) ||| epo s

/-! ## Sample rates (R35, Table 1.7) -/

/-- The 44.1 kHz family is in use (R35: FAMILY of the PLLA word). -/
def fam44 (s : State) : Bool := bit s.clk.a.cfg 30

/-- PLLA's master clock in Hz (Table 1.7). -/
def masterHz (s : State) : Nat := if fam44 s then 22579200 else 24576000

/-! ## Clocks and power -/

/-- PLLA locked or coasting and AUD not gated: the frame grids run (R67). -/
def gridRuns (s : State) : Bool :=
  !s.clk.a.gated &&
  match s.clk.a.st with
  | .locked | .holdover | .holdoverMuted => true
  | .off | .acquiring => false

/-- PLLB OFF or ACQUIRING, or relocking (R41, R60). -/
def pllbUnlocked (s : State) : Bool :=
  s.clk.b.gated || match s.clk.b.st with | .off | .acquiring => true | _ => false

/-- RUN, or a sleep entry before its commit: audio runs on (R378). -/
def running (s : State) : Bool := match s.power.st with | .run | .entering => true | _ => false

/-- SAFE mode, which lasts while it verifies a firmware image (R410, R412). -/
def inSafe (s : State) : Bool := s.power.boot == .safe || (s.power.boot == .verify && s.power.bootPrev == .safe)

/-- Samples move: RUN with both grids and MTX, and not in SAFE mode (R41, R385, R412). -/
def audioRuns (s : State) : Bool := running s && gridRuns s && !pllbUnlocked s && !s.power.audioWait && !inSafe s

/-- The logic domain has power and a clock (Tables 11.1, 11.2). -/
def logicOn (s : State) : Bool :=
  match s.power.st with
  | .run | .entering | .doze | .nap | .wakeHold => true
  | .off | .reset | .rest | .hibernate | .wakeHoldDark => false

/-- VAON is present. -/
def vaonOn (s : State) : Bool := match s.power.st with | .off => false | _ => true

/-! ## The fault log (R429–R437) -/

/-- The targeted self-test of a source, as W0.TEST codes it (Table 13.1). -/
def testOf (source : Nat) : Nat :=
  match source with
  | 0x01 | 0x02 | 0x0B => 1
  | 0x03 | 0x06 => 2
  | 0x05 => 3
  | 0x07 => 4
  | 0x08 | 0x09 => 5
  | _ => 0

/-- A site in one number: what Table 13.1 calls the site, apart from sites of other sources (memory rows are shared by
sources 0x01 and 0x02). DEDUCED, log entry 21. -/
def siteOf (source index : Nat) : Nat := (if source = 2 then 1 else source) * 2 ^ 40 + index

/-- Classes of Table 13.3. -/
def clNone := 0
def clPending := 1
def clTransient := 2
def clLasting := 3
def clUntested := 4

/-- The class a new entry is written with, and the test queue after it (R431, R432). A RELOCK test takes the relock itself
(Table 13.1), so it takes no place in BIST's queue. `room` counts the 8 that may wait and the one that runs (R431). -/
def enqueueTest (room source site : Nat) (q : List FaultTest) : Nat × List FaultTest :=
  if testOf source = 0 then (clNone, q)
  else if testOf source = 4 then (clPending, q)
  else if q.any (fun t => decide (t.site = site)) then (clPending, q)
  else if q.length < room then (clPending, q ++ [⟨source, site⟩])
  else (clUntested, q)

/-- Add an entry to the log: at most 64 are held, the oldest is lost (R436). -/
def pushEntry (e : FaultEntry) (f : Faults) : Faults :=
  if f.log.length < 64 then { f with log := e :: f.log, written := f.written + 1 }
  else { f with log := e :: f.log.dropLast, written := f.written + 1, overwritten := min 255 (f.overwritten + 1) }

/-- A detected error writes one entry, starts its test and raises FAULT (R429, R436, Tables 13.3, 13.4). -/
def logFault (source index : Nat) (d0 d1 : Word) (s : State) : State :=
  let site := siteOf source index
  let (cl, q) := enqueueTest (8 + b2n s.flt.testing) source site s.flt.tests
  let w0 := toWord (source * 2 ^ 24 + cl * 2 ^ 20 + testOf source * 2 ^ 16 + s.flt.written % 16384)
  let e : FaultEntry := ⟨w0, toWord (s.tb.count / 2 ^ 30), d0, d1, site, s.tb.count⟩
  raiseIrq irqFault { s with flt := { pushEntry e s.flt with tests := q } }

/-- An entry that SELFTEST writes for a failing site: class LASTING (R440). -/
def logLasting (source index test : Nat) (d0 d1 : Word) (s : State) : State :=
  let w0 := toWord (source * 2 ^ 24 + clLasting * 2 ^ 20 + test * 2 ^ 16 + s.flt.written % 16384)
  let e : FaultEntry := ⟨w0, toWord (s.tb.count / 2 ^ 30), d0, d1, siteOf source index, s.tb.count⟩
  raiseIrq irqFault { s with flt := pushEntry e s.flt }

/-! ## Deferred commands (R58) -/

/-- A deferred command is accepted. -/
def startJob (op : Nat) (j : Job) (s : State) : State :=
  { s with deferred := { opcode := BitVec.ofNat 8 op, job := some j, since := now s } }

/-- The deferred operation finishes: final status, RUNNING clear, CMD_DONE. -/
def finishJob (c : Status) (s : State) : State :=
  raiseIrq irqCmdDone { s with deferred := { s.deferred with status := BitVec.ofNat 8 c.code, job := none } }

/-- The named channels of a running calibration (R148, R149). -/
def calMask (s : State) : Word :=
  match s.deferred.job with
  | some (.calZ m) => m
  | some (.calF m _) => m
  | _ => 0

/-- A calibration or self-test measurement runs (R71). -/
def measuring (s : State) : Bool :=
  match s.deferred.job with
  | some (.calZ _) | some (.calF _ _) | some (.selftest _ _) => true
  | _ => false

end Sys2Proof.Machine
end

