-- ==== Sys2Proof/Machine/Memory.lean ====
section
/-! DEFINITION. The memories that hold plain words (CPRAM, PRAM, SRAM, CRAM) by physical address: bytes, words with their
tag (R33), and the repair bank and row of an address (R434). CPRAM stands at its address with REMAP clear. -/

namespace Sys2Proof.Machine

/-- The memory is in canonical form: addresses rise strictly, and no entry reads as an unlisted byte or tag does. -/
def Memory.wf (m : Memory) : Bool :=
  tcanon 0 none m.cells && tcanon 0 none m.tags && tcanon 0 none m.peri

/-- One byte; an unlisted one reads 0 (log entry 5). -/
def Memory.byte (m : Memory) (a : Nat) : Byte := tget 0 m.cells a

/-- Write one byte. -/
def Memory.setByte (m : Memory) (a : Nat) (v : Byte) : Memory := { m with cells := tput 0 m.cells a v }

/-- Write consecutive bytes. -/
def Memory.setBytes (m : Memory) (a : Nat) (vs : List Byte) : Memory := { m with cells := tputs 0 m.cells a vs }

/-- Bytes of a word as they lie in memory, lowest address first (log entry 7: little-endian). -/
def leBytes (w : Word) : List Byte :=
  [BitVec.ofNat 8 w.toNat, BitVec.ofNat 8 (w.toNat >>> 8), BitVec.ofNat 8 (w.toNat >>> 16), BitVec.ofNat 8 (w.toNat >>> 24)]

/-- The aligned word that holds address `a`. -/
def Memory.word (m : Memory) (a : Nat) : Word :=
  let b := a / 4 * 4
  toWord ((m.byte b).toNat + (m.byte (b + 1)).toNat * 256 + (m.byte (b + 2)).toNat * 65536
    + (m.byte (b + 3)).toNat * 16777216)

/-- The tag of the aligned word that holds address `a` (R33). -/
def Memory.tag (m : Memory) (a : Nat) : BitVec 4 := tget 0 m.tags (a / 4)

/-- Write an aligned word without a tag (memories that hold none): its code is written with it, so it decodes again. -/
def Memory.setPlain (m : Memory) (a : Nat) (w : Word) : Memory :=
  { (m.setBytes (a / 4 * 4) (leBytes w)) with bad := m.bad.filter (· != a / 4 * 4) }

/-- Write an aligned word and its tag. -/
def Memory.setWord (m : Memory) (a : Nat) (w : Word) (t : BitVec 4) : Memory :=
  { (m.setPlain a w) with tags := tput 0 m.tags (a / 4) t }

/-- Write consecutive words with tag `t`. -/
def Memory.setWords (m : Memory) (a : Nat) (t : BitVec 4) : List Word → Memory
  | [] => m
  | w :: ws => Memory.setWords (m.setWord a w t) (a + 4) t ws

/-- `n` consecutive words. -/
def Memory.words (m : Memory) (a n : Nat) : List Word := (List.range n).map (fun i => m.word (a + 4 * i))

/-! ## Addresses (Tables 10.2, 10.3) -/

def aCpram : Nat := 0x00080000
def aPram (n : Nat) : Nat := 0x10000000 + n * 0x40000
def aCore : Nat := 0x20000000
def aDelayLines : Nat := 0x20200000
def aLanes : Nat := 0x20300000
def aParam : Nat := 0x20340000
def aCpData : Nat := 0x20360000
def aStaging : Nat := 0x20380000
def aSramEnd : Nat := 0x20400000
def aCram : Nat := 0x30000000
def aGram : Nat := 0x34000000
def aFctx : Nat := 0x38000000
def aPeri : Nat := 0x40000000
def aKeys : Nat := 0x50000000
def aRet : Nat := 0x60000000

/-- The byte address of the bank of a set. -/
def bankBase (base size : Nat) (bankB : Bool) : Nat := base + (if bankB then size else 0)

/-- The parameter page of core `n` in bank A or B (Table 10.3). -/
def aPage (n : Nat) (bankB : Bool) : Nat := aParam + n * 0x4000 + (if bankB then 0x10000 else 0)

/-- The word of a lane buffer: input lane n is n, output lane n is 128 + n (Table 10.3). -/
def aLane (lane pos : Nat) : Nat := aLanes + lane * 1024 + 4 * pos

/-- Zero `n` words from `a`, with tag 0. -/
def Memory.clearRange (m : Memory) (a n : Nat) : Memory :=
  { m with
    cells := m.cells.filter (fun p => p.1 < a || a + 4 * n ≤ p.1)
    tags := m.tags.filter (fun p => p.1 < a / 4 || a / 4 + n ≤ p.1)
    bad := m.bad.filter (fun p => p < a || a + 4 * n ≤ p) }

/-- The words whose address satisfies `p` are written, so they decode again. -/
def Memory.unmark (m : Memory) (p : Nat → Bool) : Memory := { m with bad := m.bad.filter (fun a => !p a) }

/-- What remains of the memories where RET alone is kept. -/
def Memory.retOnly (m : Memory) : Memory :=
  { cells := m.cells.filter (fun x => decide (aRet ≤ x.1)), bad := m.bad.filter (fun a => decide (aRet ≤ a)) }

/-- Copy `n` words from `a` to `b` (`b` outside the source), values only. -/
def Memory.copyRange (m : Memory) (a b n : Nat) : Memory :=
  let src := m.cells.filter (fun p => a ≤ p.1 && p.1 < a + 4 * n)
  src.foldl (fun m p => m.setByte (p.1 - a + b) p.2) (m.clearRange b n)

/-! ## Rows and repair banks (R434) -/

/-- The target (Table 10.2), the repair bank (numbered in the order of R434; DEDUCED, log entry 22) and the row within it
of a physical address; none where no ECC-protected memory stands. -/
def rowOf (a : Nat) : Option (Nat × Nat × Nat) :=
  if aCpram ≤ a ∧ a < aCpram + 0x80000 then
    some (1, 20 + (a - aCpram) / 0x20000, (a - aCpram) % 0x20000 / 256)
  else if aPram 0 ≤ a ∧ a < aPram 4 ∧ (a - aPram 0) % 0x40000 < 0x20000 then
    some (2 + (a - aPram 0) / 0x40000, 16 + (a - aPram 0) / 0x40000, (a - aPram 0) % 0x40000 / 256)
  else if aCore ≤ a ∧ a < aSramEnd then some (6, (a - aCore) / 0x40000, (a - aCore) % 0x40000 / 256)
  else if aCram ≤ a ∧ a < aCram + 0x40000 then some (7, 24, (a - aCram) / 256)
  else if aGram ≤ a ∧ a < aGram + 0x60000 then some (8, 25 + (a - aGram) / 0x30000, (a - aGram) % 0x30000 / 256)
  else if aFctx ≤ a ∧ a < aFctx + 0x8000 then some (9, 27 + (a - aFctx) / 0x4000, (a - aFctx) % 0x4000 / 256)
  else if aRet ≤ a ∧ a < aRet + 0x10000 then some (12, 29 + (a - aRet) / 0x8000, (a - aRet) % 0x8000 / 256)
  else none

/-- The site index of a memory row: bank and row. -/
def rowSite (bank row : Nat) : Nat := bank * 65536 + row

/-- DETAIL0 of a memory error (Table 13.4). -/
def rowDetail (target bank row : Nat) : Word := toWord (target * 2 ^ 28 + bank * 2 ^ 23 + row)

/-- Log a memory error of source 0x01 or 0x02 at an address. -/
def logRow (source a : Nat) (s : State) : State :=
  match rowOf a with
  | some (t, b, r) => logFault source (rowSite b r) (rowDetail t b r) (toWord a) s
  | none => s

/-- D0 of an abort record (Table 10.10). -/
def abortD0 (master target cause : Nat) (write : Bool) (left : Nat) : Word :=
  toWord (master * 2 ^ 28 + target * 2 ^ 24 + cause * 2 ^ 20 + b2n write * 2 ^ 19 + left * 2 ^ 8)

/-- Write an abort record (R362, source 0x04; parity causes are source 0x03). -/
def logAbort (master target cause : Nat) (write : Bool) (left a : Nat) (s : State) : State :=
  logFault (if cause = 6 ∨ cause = 7 then 3 else 4) (master * 16 + target) (abortD0 master target cause write left)
    (toWord a) s

/-- A kind of access that an event may interrupt: its master, its target, and whether it writes. -/
structure InFlight where
  master : Nat
  target : Nat
  write : Bool
  deriving DecidableEq, Repr

/-- Reads and writes of a master at a target. -/
def bothWays (m t : Nat) : List InFlight := [⟨m, t, false⟩, ⟨m, t, true⟩]

/-- An event of Table 10.9 meets masters with the accesses `ms` (R361, Table 10.6). An access of this model completes in its
step, so whether one was in flight, which, the beats left and its address are free (log entry 42): one record, of the
first interrupted transaction, or none. -/
def cutShort (ms : List InFlight) (s : State) : State :=
  let (k, s1) := drawIn 0 ms.length s
  match ms[k.toNat]? with
  | none => s1
  | some x =>
    let (left, s2) := drawIn 0 16 s1
    let (a, s3) := drawWord s2
    logAbort x.master x.target (if x.write then 1 else 2) x.write left.toNat a.toNat s3

/-! ## The CP's lock (R358, R359) -/

/-- The CP holds no lock. -/
def unlock (lost : Bool) (s : State) : State := { s with cp := { s.cp with lock := none, lockLost := lost } }

/-- Set or clear the CP's bus error. -/
def busErr (b : Bool) (s : State) : State := { s with cp := { s.cp with busError := b } }

/-- The target of an arbitration point. -/
def pointTarget (p : Nat) : Nat := if 16 ≤ p then 6 else p

/-- The arbitration point of an SRAM address: its bank. -/
def sramPoint (a : Nat) : Nat := 16 + (a - aCore) / 0x40000

/-- Another master's access at a point that satisfies `p` is not granted while the CP's lock lasts (R358). The access completes in
its step, with no STGU before it, so the lock has run out its 16 cycles (Table 10.8; DESIGN CHOICE, log entry 167). -/
def waitLock (p : Nat → Bool) (s : State) : State :=
  match s.cp.lock with
  | some l => if p l.point then logAbort 4 (pointTarget l.point) 4 false 0 l.addr (unlock true s) else s
  | none => s

/-- A master's accesses at a target, or at a bank of SRAM, wait at its arbitration point. -/
def waitPoint (p : Nat) (s : State) : State := waitLock (· == p) s

/-! ## Errors outside a stored word (R365, R366) -/

/-- The CAUSE of an error (Table 10.10). -/
def errCause : BeatErr → Nat
  | .ecc => 8 | .data => 7 | .addr => 6

/-- The number of a core or the CP in a register-file entry (Table 13.4). -/
def unitCode : Site → Nat
  | .sc n => n.val
  | .cp => 4

/-- An error waits for the check of its place. -/
def upset (s : State) (u : Upset) : Bool := s.mem.upsets.contains u

/-- The check finds the error: it waits no more. -/
def dropUpset (u : Upset) (s : State) : State := { s with mem := { s.mem with upsets := s.mem.upsets.erase u } }

/-- The error that the next beat of a master meets, and the state in which it waits no more. -/
def beatUpset (m : Nat) (s : State) : Option (BeatErr × State) :=
  if upset s (.request m) then some (.addr, dropUpset (.request m) s)
  else if upset s (.data m) then some (.data, dropUpset (.data m) s)
  else none

/-- The next beat of master `m`, at target `t`, fails its parity: the abort record, and the beat is not performed (Table 10.13). -/
def beatLost (m t : Nat) (write : Bool) (a : Nat) (s : State) : Option State :=
  (beatUpset m s).map (fun x => logAbort m t (errCause x.1) write 0 a x.2)

/-- The word of ingress flow `f` that fails its check, as received. -/
def ingressUpset (s : State) (f : Nat) : Option Word :=
  s.mem.upsets.findSome? (fun u => match u with | .ingress g w => if g = f then some w else none | _ => none)

/-- The word of egress flow `f` that fails its check, as received. -/
def egressUpset (s : State) (f : Nat) : Option Word :=
  s.mem.upsets.findSome? (fun u => match u with | .egress g w => if g = f then some w else none | _ => none)

/-- The register of a core or of the CP whose parity fails. -/
def registerUpset (s : State) (u : Site) : Option Nat :=
  s.mem.upsets.findSome? (fun x => match x with | .register v r => if v = u then some r else none | _ => none)

/-- A register file's entry (Tables 13.1, 13.4): DETAIL0 names the core or the CP, DETAIL1 the register. -/
def logRegister (u : Site) (r : Nat) (s : State) : State :=
  logFault 5 (unitCode u) (toWord (unitCode u)) (toWord r) (dropUpset (.register u r) s)

/-- A capture-point, output-lane or ASRC parity entry (Tables 13.1, 13.4). -/
def logLane (output : Bool) (n : Nat) (received : Word) (s : State) : State :=
  logFault 6 (b2n output * 256 + n) (toWord (b2n output * 256 + n)) received s

/-- Log the lost code word of core `n`: its site is the core (Table 13.1). -/
def logCodeRow (n a : Nat) (s : State) : State :=
  match rowOf a with
  | some (t, b, r) => logFault 0x0B n (rowDetail t b r) (toWord a) s
  | none => s

/-- An entry for a word of core `n`'s checkpoint buffer, which stands in no repair bank of R434: it names no row. -/
def logUndoBuffer (source n : Nat) (s : State) : State := logFault source (rowSite 31 n) (rowDetail (2 + n) 31 0) 0 s

/-- A targeted self-test is queued or runs (R431, R439): BIST's, or the RELOCK test of a PLL. -/
def testsBusy (s : State) : Bool := !s.flt.tests.isEmpty || s.clk.a.testing || s.clk.b.testing

end Sys2Proof.Machine
end

