-- ==== Sys2Proof/Machine/Cmd.lean ====
section
/-! DEFINITION. How the CP runs one command (R54–R63, R487): the row of Table 2.7, the checks in the order of R487, and the
status word. Each command's own part is the `body` of its row. -/

namespace Sys2Proof.Machine

/-- A row of Table 2.7: opcode, the CMDFLAGS it defines, its properties, whether it programs OTP, its COUNT, the largest number of result words its
operands allow (R56), and its own part. -/
structure CmdRow where
  op : Nat
  flags : BitVec 4 := 0
  pS : Bool := false
  pI : Bool := false
  pD : CmdArgs → Bool := fun _ => false
  pC : CmdArgs → Bool := fun _ => false
  pK : Bool := false
  fuse : Bool := false
  count : CmdArgs → Bool
  maxRes : CmdArgs → State → Nat := fun _ _ => 0
  body : CmdArgs → State → Ans

/-- Reserved or undefined bits of the command word (R487, check 3). -/
def wordBad (r : CmdRow) (a : CmdArgs) : Bool :=
  decide (a.flags &&& ~~~r.flags ≠ 0) || decide (a.resv ≠ 0) || (a.mirror && !a.imm) || (a.imm && !r.pI)

/-- The policy, the session and its rights allow the command (R63, R413; R487, check 4). -/
def authOk (r : CmdRow) (a : CmdArgs) (s : State) : Bool :=
  if a.session then
    match s.sec.session with
    | none => false
    | some ss =>
      if r.pK then ss.rights.getLsbD 1 && (!(r.op == 0xB5 || r.op == 0xB6) || ss.rights.getLsbD 2)
      else ss.rights.getLsbD 0
  else if s.sec.otp.policy then r.op == 0x00 || r.op == 0x01 || r.op == 0xB0
  else !r.pK

/-- SAFE mode serves the command (R412). -/
def safeServes (op : Nat) (s : State) : Bool :=
  op == 0x00 || op == 0x01 || op == 0x04 || op == 0xB0 || op == 0xB1 || op == 0xD0
    || (s.power.safeCause == 1 && (op == 0xA0 || op == 0xA1))

/-- The status of a command SAFE mode does not serve (R412). -/
def safeStatus (s : State) : Status := if s.power.safeCause = 1 then .untestedCombination else .fault

/-- The CP does not serve the command in its present condition (R487, check 6). -/
def notServed (r : CmdRow) (a : CmdArgs) (s : State) : Bool :=
  let c := r.pC a
  ((s.power.boot == .romWait || s.power.boot == .verify) && !(c || r.pK || r.op == 0xB0 || r.op == 0xC3))
    || (pllbUnlocked s && !c)
    || (s.power.st == .entering && !(c || (r.op == 0x80 && flag a 0)))
    || ((s.power.st == .doze || s.power.st == .nap || s.power.st == .wakeHold) && !c)
    || (a.imm && !gridRuns s)

/-- A swap is pending or a copy runs (R72). -/
def setBusy (s : State) : Bool := s.sets.swap.isSome || s.sets.copying

/-- The checks of R487 before the command's own, with the status of each. -/
def commonChecks (r : CmdRow) (a : CmdArgs) (s : State) : List (Bool × Status) :=
  [ (wordBad r a, .unsupported),
    (!authOk r a s, .notAuthenticated),
    (inSafe s && !safeServes r.op s, safeStatus s),
    (notServed r a s, .busy),
    (!r.count a, .range),
    (r.pS && setBusy s, .busy),
    (r.pD a && s.deferred.job.isSome, .busy) ]

/-- The response already built, this command's status word and its results fit 1,024 words (R56): the largest number of
results the operands allow, or those of a check that failed (log entry 27). -/
def fits (r : CmdRow) (a : CmdArgs) (s : State) (x : Ans) : Bool :=
  decide (s.host.building.length + 1 + (if x.st = .ok then r.maxRes a s else x.res.length) ≤ 1024)

/-- Run one command: the checks of R487 in order, its own part, and the response-size check (R56). -/
def runRow (r : CmdRow) (a : CmdArgs) (s : State) : Ans :=
  checks s (commonChecks r a s)
    (let ans := r.body a s
     if fits r a s ans then { ans with s := if r.fuse then { ans.s with pending := s.pending } else settle s ans.s }
     else no .range s)

/-- A status word (Table 2.5). -/
def statusWord (op : Nat) (c : Status) (n : Nat) : Word := toWord (op * 2 ^ 24 + c.code * 2 ^ 16 + n)

/-- The words a command adds to the response (R57). -/
def ansWords (op : Nat) (x : Ans) : List Word := statusWord op x.st x.res.length :: x.res

/-- The CP runs and executes commands: the logic has power and no firmware restart is in progress (R392). -/
def cpServes (s : State) : Bool := logicOn s && !s.power.restarting

/-- A command row by itself: a packet that holds this command alone (log entry 11). Its words are left in
`host.building`. -/
def execRow (r : CmdRow) (a : CmdArgs) (s : State) : Out :=
  if cpServes s then
    let s0 := { s with host := { s.host with building := [] } }
    let x := runRow r a s0
    .next { x.s with host := { x.s.host with building := ansWords r.op x } }
  else .next s

/-- A command reads words of RET, whose items `want` names: one that no longer decodes ends it with FAULT (R366, Table 10.13). -/
def retOk (s : State) (want : Nat → Bool) (k : Ans) : Ans :=
  if k.st ≠ .ok then k else
  match s.mem.bad.find? (fun a => decide (aRet ≤ a) && want (Config.retItem (a - aRet))) with
  | some a => no .fault (logRow 2 a { s with
      cp := { s.cp with busError := true }, mem := { s.mem with bad := s.mem.bad.filter (· != a) } })
  | none => k

/-- A command reads words of memory: one that no longer decodes, or fails its parity on the way, ends it with FAULT, and is
logged (R366, Table 10.13). The patrol has rewritten the word, so it decodes at the next read. -/
def readOk (s : State) (addrs : List Nat) (k : Ans) : Ans :=
  match addrs with
  | [] => k
  | a0 :: _ =>
    if upset s (.data 4) then
      let t := match rowOf a0 with | some (t, _, _) => t | none => 0xF
      no .fault (logAbort 4 t 7 false 0 a0 { (dropUpset (.data 4) s) with cp := { s.cp with busError := true } })
    else match addrs.find? (fun a => s.mem.bad.contains a) with
    | some a => no .fault (logRow 2 a { s with
        cp := { s.cp with busError := true }, mem := { s.mem with bad := s.mem.bad.filter (· != a) } })
    | none => k

end Sys2Proof.Machine
end

