-- ==== Sys2Proof/Machine/Rates.lean ====
section
/-! DEFINITION. Rate codes (Table 3.6), the fields of a flow context (Table 7.1) and the front-end settings of a channel
(Tables 4.1, 4.2, 4.4, 5.2, 5.3). -/

namespace Sys2Proof.Machine

/-- Hz of a rate code (Table 3.6); 0 for the reserved code 0xF. -/
def rateHz (c : Nat) : Nat :=
  match c with
  | 0 => 8000 | 1 => 16000 | 2 => 32000 | 3 => 48000 | 4 => 96000 | 5 => 192000 | 6 => 384000 | 7 => 768000
  | 8 => 11025 | 9 => 22050 | 10 => 44100 | 11 => 88200 | 12 => 176400 | 13 => 352800 | 14 => 705600
  | _ => 0

/-- The code belongs to the 44.1 kHz family. -/
def rate44 (c : Nat) : Bool := decide (8 ≤ c ∧ c ≤ 14)

/-- The code is a rate of the family in use (R35). -/
def rateInUse (s : State) (c : Nat) : Bool := decide (c < 15) && (rate44 c == fam44 s)

/-- 768 kHz or 705.6 kHz. -/
def rateTop (c : Nat) : Bool := c == 7 || c == 14

/-- Core budget in cycles (Table 3.6). -/
def rateBudget (c : Nat) : Nat :=
  match c with
  | 0 => 393216 | 1 => 196608 | 2 => 98304 | 3 => 65536 | 4 => 32768 | 5 => 16384 | 6 => 8192 | 7 => 4096
  | 8 => 285326 | 9 => 142663 | 10 => 71331 | 11 => 35665 | 12 => 17832 | 13 => 8916 | 14 => 4458
  | _ => 0

/-! ## Flow context fields (Table 7.1) -/

def Quad.kind (q : Quad) : Nat := fld q.w0 30 28
def Quad.ep (q : Quad) : Nat := fld q.w0 23 16
def Quad.direct (q : Quad) : Bool := bit q.w0 8
def Quad.lane (q : Quad) : Nat := fld q.w0 6 0
def Quad.fmt (q : Quad) : Nat := fld q.w1 29 28
def Quad.rel (q : Quad) : Nat := fld q.w1 25 24
def Quad.epRate (q : Quad) : Nat := fld q.w1 23 20
def Quad.laneRate (q : Quad) : Nat := fld q.w1 19 16
def Quad.sealBit (q : Quad) : Bool := bit q.w1 8
def Quad.declLat (q : Quad) : Nat := fld q.w2 11 0
def Quad.bound (q : Quad) : Bool := q.kind != 0

/-- The flow as it runs. -/
def flowRun (s : State) (f : Nat) : FlowRun := tget {} s.flows f

/-- Change a flow as it runs. -/
def onFlow (f : Nat) (g : FlowRun → FlowRun) (s : State) : State := { s with flows := tmod {} s.flows f g }

/-- The flows of a set that are bound and satisfy `p`, lowest number first. -/
def flowsWith (c : ConfigSet) (p : Nat → Quad → Bool) : List Nat :=
  (c.flows.filter (fun x => x.2.bound && p x.1 x.2)).map (·.1)

/-- A running flow carries the endpoint. -/
def carried (s : State) (kind ep : Nat) : Bool :=
  (active s).flows.any (fun x => x.2.kind == kind && x.2.ep == ep && (flowRun s x.1).running)

/-- The next sample of the lane begins a frame (R36; a lane's sample count restarts with the grids). -/
def atFrame (s : State) (lane : Nat) : Bool := tget 0 s.mtx.lanePos lane % 16 == 0

/-- The running flows of ACTIVE that satisfy `p`. -/
def runningFlows (s : State) (p : Nat → Quad → Bool) : List Nat :=
  (flowsWith (active s) p).filter (fun f => (flowRun s f).running)

/-- The lane an egress flow reads: OLn is 128 + n (R231). -/
def readLane (q : Quad) : Nat := if q.direct then q.lane else 128 + q.lane

/-- The lane of a flow: OLn is 128 + n. -/
def flowLane (f : Nat) (q : Quad) : Nat := if f < 128 then q.lane else readLane q

/-- A frame boundary at every running flow that satisfies `p` (R36). -/
def frameStart (s : State) (p : Quad → Bool) : Bool :=
  (runningFlows s (fun _ q => p q)).all (fun f => atFrame s (flowLane f ((active s).flow f)))

/-! ## Front-end settings of a channel in a set -/

/-- Pair mode of a channel's pair: 0 SPLIT, 1 INTERLEAVE, 2 STACK (R157). -/
def ConfigSet.pairMode (c : ConfigSet) (ch : Nat) : Nat := fld (c.pairW (ch / 2)) 1 0

/-- The channel whose settings govern (R131). -/
def ConfigSet.gov (c : ConfigSet) (ch : Nat) : Nat := if c.pairMode ch = 0 then ch else ch / 2 * 2

def ConfigSet.chEn (c : ConfigSet) (ch : Nat) : Bool := bit (c.mode ch) 31
def ConfigSet.chMode (c : ConfigSet) (ch : Nat) : Nat := fld (c.mode ch) 25 24
def ConfigSet.chNbr (c : ConfigSet) (ch : Nat) : Bool := bit (c.mode ch) 20
def ConfigSet.chPol (c : ConfigSet) (ch : Nat) : Bool := bit (c.mode ch) 16
def ConfigSet.chGain (c : ConfigSet) (ch : Nat) : Nat := fld (c.gainW ch) 5 0
def ConfigSet.chPreset (c : ConfigSet) (ch : Nat) : Nat := fld (c.presetW ch) 29 28
def ConfigSet.chRate (c : ConfigSet) (ch : Nat) : Nat := fld (c.presetW ch) 23 20
def ConfigSet.chBank (c : ConfigSet) (ch : Nat) : Nat := fld (c.fir ch) 3 0

/-- Fade length L = 64 × 2^FADE (R185). -/
def ConfigSet.fadeLen (c : ConfigSet) (ch : Nat) : Nat := 64 * 2 ^ fld (c.fade ch) 2 0

/-- Largest gain of a mode (Table 4.1). -/
def modeMax (mode : Nat) : Nat := match mode with | 0 => 60 | 1 => 30 | _ => 40

/-- Gain range index (Table 4.2). -/
def rangeOf (mode gain : Nat) : Nat :=
  match mode with
  | 0 => if gain ≤ 14 then 0 else if gain ≤ 29 then 1 else if gain ≤ 44 then 2 else 3
  | 1 => if gain ≤ 14 then 4 else 5
  | _ => if gain ≤ 19 then 6 else 7

/-- Full scale at 0 dB gain in 0.01 dBu (Table 4.1). -/
def fullScale (mode : Nat) : Int := match mode with | 0 => 820 | 1 => 2020 | _ => 220

/-- Highest rate of a preset in Hz, by family (Table 5.2). -/
def presetMax (preset : Nat) (f44 : Bool) : Nat :=
  match preset with
  | 0 => if f44 then 44100 else 48000
  | 1 => if f44 then 88200 else 96000
  | 2 => if f44 then 176400 else 192000
  | _ => if f44 then 352800 else 384000

/-- The preset that a channel's chain runs: that of the channel that governs it (R131). -/
def presetOf (c : ConfigSet) (ch : Nat) : Nat := c.chPreset (c.gov ch)

/-- Settle count S_p (Table 5.3). -/
def settleOf (c : ConfigSet) (ch : Nat) : Nat :=
  if c.pairMode ch = 1 then 46
  else match c.chPreset (c.gov ch) with | 0 => 48 | 1 => 24 | 2 => 12 | _ => 8

/-- The filter-input samples of S_p: in an INTERLEAVE pair the skew filter's 15 sub-chain samples come after them (R168). -/
def settleIn (c : ConfigSet) (ch : Nat) : Nat := if c.pairMode ch = 1 then 16 else settleOf c ch

/-- The CIC's decimation ratio, from the modulator rate to four times the sub-chain's rate (Table 5.1, R163). -/
def cicRatio (s : State) (c : ConfigSet) (ch : Nat) : Nat :=
  masterHz s / (4 * (rateHz (c.chRate (c.gov ch)) / (if c.pairMode ch = 1 then 2 else 1)))

/-- Group delay in samples with BYPASS (Table 5.2). -/
def presetDelay (c : ConfigSet) (ch : Nat) : Nat :=
  if c.pairMode ch = 1 then 21
  else match c.chPreset (c.gov ch) with | 0 => 22 | 1 => 6 | 2 => 4 | _ => 3

/-- A frame boundary of the channel's lane rate, as the running flows of that rate show it (R36). -/
def chanBoundary (s : State) (ch : Nat) : Bool :=
  let a := active s
  frameStart s (fun q => q.laneRate == a.chRate (a.gov ch))

/-- The channel's output rate in Hz. -/
def chanHz (c : ConfigSet) (ch : Nat) : Nat := rateHz (c.chRate (c.gov ch))

/-- Taps of a bank; 1 for BYPASS (R168). -/
def tapsOf (s : State) (b : Nat) : Nat := if b = 8 then 1 else fld (tget ⟨0, []⟩ s.filt.banks b).desc 8 0

/-- GD2 of a bank, in half samples (Table 5.4). -/
def gd2Of (s : State) (b : Nat) : Nat := if b = 8 then 0 else fld (tget ⟨0, []⟩ s.filt.banks b).desc 25 16

/-- N_a = ceil(T_a × f_s) (R141). -/
def nA (ns hz : Nat) : Nat := ceilDiv (ns * hz) 1000000000

/-! ## Writing set items (R67, R68) -/

/-- The items of a set that a command of opcode `op` writes, or SET.READ names by it, as `gramGet` numbers them: its operand 0 addresses
them. A flow context is none of them. -/
def setItems (op : Nat) (ops : List Word) : List Nat :=
  let w := ops.headD 0
  match op with
  | 0x22 => [16592 + fld w 4 0]
  | 0x23 => [16624 + fld w 4 0]
  | 0x24 => [16656 + fld w 3 0]
  | 0x30 => [16672 + fld w 4 0]
  | 0x32 => [16704 + fld w 4 0]
  | 0x33 => [16736 + fld w 4 0]
  | 0x40 => [128 * fld w 22 16 + fld w 6 0]
  | 0x41 | 0x42 => (List.range (fld w 15 8)).map (fun j => 128 * (fld w 22 16 + j) + fld w 6 0)
  | 0x43 => [16384 + fld w 6 0]
  | 0x44 => [16512 + 8 * fld w 10 8 + fld w 2 0]
  | 0x45 => [16576 + 2 * fld w 2 0, 16577 + 2 * fld w 2 0]
  | 0x60 => [16768 + fld w 5 0]
  | 0x91 => (List.range 3).map (fun i => 16802 + 3 * fld w 1 0 + i)
  | _ => []

/-- The word at an address of GRAM or FCTX belongs, in bank A or B, to what such a command names. -/
def holdsItem (bankB : Bool) (op : Nat) (ops : List Word) (a : Nat) : Bool :=
  let g := bankBase aGram 0x30000 bankB
  let f := bankBase aFctx 0x4000 bankB + 16 * fld (ops.headD 0) 7 0
  if op = 0x50 ∨ op = 0x51 then decide (f ≤ a ∧ a < f + 16)
  else decide (g ≤ a ∧ a < g + 0x30000) && (setItems op ops).contains (Config.gramItem (a - g))

/-- A command writes SHADOW: the words of what it names decode again. -/
def writeShadow (op : Nat) (ops : List Word) (f : ConfigSet → ConfigSet) (s : State) : State :=
  onShadow f { s with mem := s.mem.unmark (holdsItem (!s.sets.selB) op ops) }

/-- A command writes ACTIVE: FDMA takes what it names as it stands (R366, Table 10.13). -/
def writeActive (op : Nat) (ops : List Word) (f : ConfigSet → ConfigSet) (s : State) : State :=
  onActive f { s with
    mem := s.mem.unmark (holdsItem s.sets.selB op ops)
    sets := { s.sets with taken := s.sets.taken.filter (fun k => !(setItems op ops).contains k) } }

/-- ACTIVE as FDMA takes it: a gain that has not read is mute, a weir disabled, and a flow unbound, until they are rewritten (R366,
Table 10.13). -/
def heard (s : State) : ConfigSet :=
  let a := active s
  { a with
    nodes := s.sets.taken.foldl (fun t k => if k < 16384 then tmod dNode t k (fun e => setFld e 15 0 0x8000) else t) a.nodes
    weirs := s.sets.taken.foldl (fun t k =>
      if 16384 ≤ k ∧ k < 16512 then tmod dWeir t (k - 16384) (fun e => setBit e 31 false) else t) a.weirs
    flows := s.sets.takenFlows.foldl (fun t f => tput dFlow t f dFlow) a.flows }

/-- Write an item of a set: SHADOW, or ACTIVE at the next boundary of `rate` with IMMEDIATE, and both with MIRROR. -/
def writeItem (op : Nat) (rate : Option Nat) (f : ConfigSet → ConfigSet) (a : CmdArgs) (s : State) : State :=
  if a.imm then
    let s1 := { s with sets := { s.sets with placed := s.sets.placed ++ [⟨op, a.ops, rate⟩] } }
    if a.mirror then writeShadow op a.ops f s1 else s1
  else writeShadow op a.ops f s

end Sys2Proof.Machine
end

