-- ==== Sys2Proof/Machine/Filters.lean ====
section
/-! DEFINITION. The filter engine's arithmetic (R163–R175): FIR, cross-fade, calibration correction, ramps and the capture
point of an analogue channel; the detectors and meters (R179–R181); and the filter commands' parts. -/

namespace Sys2Proof.Machine

/-! ## The decimation chain (R163, R164) -/

/-- Words that a half-band stage holds, and the CIC's samples for each unit of its ratio. The spec gives no length: the model's choice
(log entry 193). -/
def hbLen : Nat := 192
def cicLen : Nat := 8

/-- `n` CIC words at a ratio, oldest first, and the modulator samples the CIC then holds (Table 5.1). -/
def cicRun (ratio : Nat) : Nat → List Int → List Int → List Int × List Int
  | 0, _, held => ([], held)
  | n + 1, codes, held =>
    let h := ((codes.take ratio).reverse ++ held).take (cicLen * ratio)
    let r := cicRun ratio n (codes.drop ratio) h
    (Config.cic ratio h :: r.1, r.2)

/-- The output of a half-band stage: the exact sum, rounded to nearest and saturated to Q1.31 (R164). -/
def halfBand (preset stage : Nat) (held : List Int) : Int :=
  satQ31 (roundDiv ((List.range hbLen).foldl (fun a i => a + Config.halfBandTap preset stage i * held.getD i 0) 0)
    (2 ^ Config.halfBandScale preset stage))

/-- One word enters what a stage holds. -/
def hbPush (x : Int) (held : List Int) : List Int := (x :: held).take hbLen

/-- HB1 and HB2 on CIC words, oldest first: each halves the rate. The last output, `x` before the first, and what both then hold. -/
def hbRun (preset : Nat) : List Int → List Int → List Int → Int → Int × List Int × List Int
  | a :: b :: c :: d :: ws, h1, h2, _ =>
    let p := hbPush b (hbPush a h1)
    let q := hbPush d (hbPush c p)
    let r := hbPush (halfBand preset 1 q) (hbPush (halfBand preset 1 p) h2)
    hbRun preset ws q r (halfBand preset 2 r)
  | _, h1, h2, x => (x, h1, h2)

/-- The modulator samples of one output period pass a sub-chain, behind the words that waited: four CIC words make one sample. -/
def decimate (preset ratio : Nat) (codes : List Int) (d : Decim) : Int × Decim :=
  let r := cicRun ratio 4 codes d.codes
  let q := hbRun preset (d.fifo ++ r.1) d.h1 d.h2 0
  (q.1, { codes := r.2, fifo := [], h1 := q.2.1, h2 := q.2.2 })

/-- The filter engine has no clock: the CIC's words wait in the FIFO, and those that find it full are discarded (R40, Table 7.8). The
sub-chain, and the number of discarded words. -/
def decimateWait (ratio : Nat) (codes : List Int) (d : Decim) : Decim × Nat :=
  let r := cicRun ratio 4 codes d.codes
  ({ d with codes := r.2, fifo := (d.fifo ++ r.1).take 8 }, (d.fifo ++ r.1).length - 8)

/-! ## FIR and fade (R170, R175) -/

def dBank : FirBank := ⟨0, []⟩

/-- A coefficient bank. -/
def firBank (s : State) (b : Nat) : FirBank := tget dBank s.filt.banks b

/-- Σ c_i · x(n − i) for taps i from `i`, newest sample first. -/
def firSum (coefs : Tab (BitVec 24)) : Nat → List Sample → Nat → Int
  | _, [], _ => 0
  | _, _, 0 => 0
  | i, x :: xs, n + 1 => (tget 0 coefs i).toInt * x.val.toInt + firSum coefs (i + 1) xs n

/-- y(n) of a bank's content (R170). -/
def firY (b : FirBank) (hist : List Sample) : Int :=
  satQ31 (roundDiv (firSum b.coefs 0 hist (fld b.desc 8 0) * 2 ^ fld b.desc 29 28) (2 ^ 23))

/-- OVR, SET and CUT over the newest `n` samples (R29, R30). -/
def histTag (hist : List Sample) (n : Nat) : BitVec 4 := (hist.take n).foldl (fun t x => tagOR t x.tag) 0

/-- Output and tag of bank `b` (8: BYPASS) on a history. -/
def firOut (s : State) (b : Nat) (hist : List Sample) : Int × BitVec 4 :=
  if b = 8 then ((hist.headD ⟨0, 0⟩).val.toInt, histTag hist 1)
  else
    let k := firBank s b
    (firY k hist, histTag hist (fld k.desc 8 0))

/-- Output and tag of a bank's replaced content, until the frame boundary (R172). -/
def firOld (k : FirBank) (hist : List Sample) : Int × BitVec 4 := (firY k hist, histTag hist (fld k.desc 8 0))

/-- w_j of R175 in 2^−24: within 2^−24 of the formula. The bit `up` is the part the error bound leaves open. -/
def fadeW (j len : Nat) (up : Bool) : Int :=
  let w := fxRcos (j + 1) (len + 1)
  let q := Int.fdiv w (2 ^ 104)
  if up && decide (w % (2 : Int) ^ 104 ≠ 0) then q + 1 else q

/-- (1 − w)·a + w·b with w in 2^−24, rounded and saturated (R175, R486). -/
def blend (w a b : Int) : Int := satQ31 (roundDiv ((2 ^ 24 - w) * a + w * b) (2 ^ 24))

/-! ## Correction (R145, R150, R152, R155) -/

def dChRec : Quad := ⟨0, 0x40000000, 0x00008000, 0⟩
def dPairRec : Quad := ⟨0, 0x40000000, 0, 0⟩

def chRec (s : State) (ch range : Nat) : Quad := tget dChRec s.cal.ch (8 * ch + range)
def pairRec (s : State) (p range : Nat) : Quad := tget dPairRec s.cal.pair (8 * p + range)
def facCh (s : State) (ch range : Nat) : Quad := tget dChRec s.sec.otp.facCh (8 * ch + range)
def facPair (s : State) (p range : Nat) : Quad := tget dPairRec s.sec.otp.facPair (8 * p + range)

/-- The first value available: the valid field record, the factory copy, the nominal value (R150). -/
def firstOf {α : Type} (valid : Bool) (v : α) (factory : Bool) (f nominal : α) : α :=
  if valid then v else if factory then f else nominal

/-- The analogue gain of a channel: as it runs, else as ACTIVE sets it. -/
def gainNow (s : State) (ch : Nat) : Nat :=
  let c := tget {} s.fe.chans ch
  match c.run with | .off | .stopped => (active s).chGain ch | _ => c.gain

/-- The sign of a polarity, Q2.30. -/
def polSign (b : Bool) : Int := if b then -(2 ^ 30) else 2 ^ 30

/-- The correction in use for a governing channel: records of its gain range, POL of ACTIVE (R145, R150, R155). The pair record is
in use only for the odd sub-chain of a pair, and its SKEW only in INTERLEAVE. -/
def corrOf (s : State) (ch : Nat) : Corr :=
  let a := active s
  let pair := a.pairMode ch
  let r := rangeOf (a.chMode ch) (gainNow s ch)
  let q := chRec s ch r
  let p := pairRec s (ch / 2) r
  let fac := s.sec.otp.factorySet
  let fq := facCh s ch r
  let fp := facPair s (ch / 2) r
  { offset := firstOf (fld q.w2 31 28 != 0) q.w0.toInt fac fq.w0.toInt 0
    gain := firstOf (fld q.w2 27 24 != 0) q.w1.toNat fac fq.w1.toNat (2 ^ 30)
    dOffset := if pair = 0 then 0 else firstOf (fld p.w3 31 28 != 0) p.w0.toInt fac fp.w0.toInt 0
    gRatio := if pair = 0 then 2 ^ 30 else firstOf (fld p.w3 27 24 != 0) p.w1.toNat fac fp.w1.toNat (2 ^ 30)
    skew := if pair = 1 then firstOf (fld p.w3 27 24 != 0) (sfld p.w2 23 0) fac (sfld fp.w2 23 0) 0 else 0
    pol := polSign (a.chPol ch) }

/-- k/64 of the way from `a` to `b`, times 64. -/
def mix64 (k : Nat) (a b : Int) : Int := a * (64 - k) + b * k

/-- Sub-chain output x corrected, `k`/64 of the way from `c0` to `c1`: the exact product, rounded once and clamped as R23
states. `odd` adds the pair record's terms. -/
def correct (k : Nat) (c0 c1 : Corr) (odd : Bool) (x : Int) : Int :=
  let o := mix64 k c0.offset c1.offset + if odd then mix64 k c0.dOffset c1.dOffset else 0
  let g := mix64 k c0.gain c1.gain
  let sg := mix64 k c0.pol c1.pol
  if odd then
    satFront (roundDiv ((64 * x - o) * g * mix64 k c0.gRatio c1.gRatio * sg) (2 ^ 24 * 2 ^ 90))
  else satFront (roundDiv ((64 * x - o) * g * sg) (2 ^ 18 * 2 ^ 60))

/-- The value of a correction `k`/64 of the way, each item rounded to nearest (where a move starts during a move). -/
def corrAt (k : Nat) (c0 c1 : Corr) : Corr :=
  { offset := roundDiv (mix64 k c0.offset c1.offset) 64
    gain := (roundDiv (mix64 k c0.gain c1.gain) 64).toNat
    dOffset := roundDiv (mix64 k c0.dOffset c1.dOffset) 64
    gRatio := (roundDiv (mix64 k c0.gRatio c1.gRatio) 64).toNat
    skew := roundDiv (mix64 k c0.skew c1.skew) 64
    pol := roundDiv (mix64 k c0.pol c1.pol) 64 }

/-- The skew filter of R145 and R166 on corrected samples, newest first, at a skew in 1/64 fs: 16 taps, whose samples' tags are
ORed (R30). -/
def skewFilter (skew : Int) (hist : List Sample) : Int × BitVec 4 :=
  (satFront (roundDiv ((List.range 16).foldl (fun a i =>
      a + Config.skewTap skew i * (hist.getD i ⟨0, 0⟩).val.toInt) 0) (2 ^ 30)),
   histTag hist 16)

/-- Change a channel as it runs. -/
def onChan (ch : Nat) (f : Chan → Chan) (s : State) : State :=
  { s with fe := { s.fe with chans := tmod {} s.fe.chans ch f } }

def chan (s : State) (ch : Nat) : Chan := tget {} s.fe.chans ch

/-- The channel passes samples: running, or on its ramp to 0. -/
def Chan.live (c : Chan) : Bool := c.run == .running || c.run == .ramping

/-- The correction of a running channel was `old` before a change: start the 64-sample move to the one now in use (R152). -/
def moveFrom (ch : Nat) (old : Corr) (s : State) : State :=
  let c := chan s ch
  if c.live = false ∨ corrOf s ch = old then s
  else
    let src := match c.move with | some m => corrAt (min m.j 64) m.src old | none => old
    onChan ch (fun c => { c with move := some ⟨src, 0, true⟩ }) s

/-- After a change of records, start the moves of all running channels (R152). -/
def moveAll (before s : State) : State :=
  (List.range 32).foldl (fun s ch => moveFrom ch (corrOf before ch) s) s

/-! ## The capture point of an analogue channel (R21, R30, R129, R137–R141, R163, R175, Table 4.3) -/

/-- The tag a filter-input sample takes from the modulator's flags (R30, R137, R139–R141). -/
def inputTag (c : Chan) : BitVec 4 :=
  (if c.ovr || c.unstable || decide (0 < c.ovrTail) then tOVR else 0) |||
    (if c.unstable || c.nbr || decide (0 < c.setLeft) then tSET else 0)

/-- The modulator samples of one output period pass the decimation chains, and their filter-input samples enter: histories and counts
advance. The sub-chains of an INTERLEAVE pair take turns (R132, R163). -/
def pushInput (mode preset ratio : Nat) (c : Chan) (even odd : List Int) : Chan :=
  let e := decimate preset ratio even c.dec
  let o := decimate preset ratio odd c.decOdd
  let evenGoes := !(mode == 1 && c.oddNext)
  let oddGoes := mode == 2 || (mode == 1 && c.oddNext)
  { c with
    dec := if evenGoes then e.2 else c.dec
    decOdd := if oddGoes then o.2 else c.decOdd
    hist := if evenGoes then (⟨intWord e.1, inputTag c⟩ :: c.hist).take 384 else c.hist
    histOdd := if oddGoes then (⟨intWord o.1, inputTag c⟩ :: c.histOdd).take 384 else c.histOdd
    ovrTail := c.ovrTail - 1
    setLeft := c.setLeft - 1
    crossHold := c.crossHold - 1 }

/-- FIR output of one sub-chain, in a fade or not. -/
def chanFir (s : State) (c : Chan) (up : Bool) (hist : List Sample) : Int × BitVec 4 :=
  match c.fade with
  | some f =>
    if f.j < f.len then
      let a := firOut s f.src hist
      let b := firOut s f.dst hist
      (blend (fadeW f.j f.len up) a.1 b.1, tagOR a.2 b.2)
    else one f.dst
  | none => one c.bank
where
  one (b : Nat) : Int × BitVec 4 :=
    match c.oldBank with
    | some k => firOld k hist
    | none => firOut s b hist

/-- The 64-sample ramp to 0 of Table 4.3, sample j. -/
def rampOut (j : Nat) (up : Bool) (v : Int) : Int :=
  if j < 64 then roundDiv ((2 ^ 24 - fadeW j 64 up) * v) (2 ^ 24) else 0

/-- The 16 frame-aligned acts of a channel: a waiting move starts, replaced bank content comes into use (R152, R172). -/
def chanFrame (c : Chan) : Chan :=
  { c with
    move := c.move.map (fun m => { m with wait := false })
    oldBank := none
    bankSet := if c.oldBank.isSome then 16 else c.bankSet }

/-- Sums over the measured outputs of a sub-chain's FIR. -/
def CalSum.add (v : Int) (a : CalSum) : CalSum := ⟨a.n + 1, a.sum + v, a.sq + v * v⟩

/-- A running calibration measures a named channel from the channel's first frame boundary on (Table 4.8, R158): it notes a marked
sample, and sums the FIR outputs before the correction (R174), `e` and `o` of the sub-chains that gave one. -/
def calNote (ch : Nat) (frame : Bool) (e o : Option Int) (t : BitVec 4) (s : State) : State :=
  let d := s.deferred
  if bit (calMask s) ch ∧ (frame ∨ bit d.meas ch) then
    let put (k : Nat) (v : Option Int) (a : Tab CalSum) : Tab CalSum :=
      match v with | some v => tmod {} a k (CalSum.add v) | none => a
    { s with deferred := { d with
      since := if bit d.meas ch then d.since else now s
      meas := setBit d.meas ch true
      marked := d.marked || tagOR t 0 != 0
      sums := put (2 * ch) e (put (2 * ch + 1) o d.sums) } }
  else s

/-- One sample of channel `ch` at the capture point, from the modulator samples of its period, oldest first, in a lane whose next sample begins a frame when `frame` holds. -/
def captureAin (ch : Nat) (frame : Bool) (even odd : List Int) (s : State) : Sample × State :=
  let c0 := chan s ch
  if c0.live = false then (zeroSample tSET, s)
  else
    let (fw, s) := drawWord s
    let up := bit fw 0
    let mode := (active s).pairMode ch
    let c := pushInput mode (presetOf (active s) ch) (cicRatio s (active s) ch) (if frame then chanFrame c0 else c0) even odd
    let target := corrOf s ch
    let k := match c.move with | some m => if m.wait then 0 else min 64 (m.j + 1) | none => 64
    let src := match c.move with | some m => m.src | none => target
    let fe := chanFir s c up c.hist
    let fo := chanFir s c up c.histOdd
    let ye := correct k src target false fe.1
    let yo := correct k src target true fo.1
    let cor := if mode = 1 ∧ c.oddNext = false then (⟨intWord ye, fe.2⟩ :: c.cor).take 16 else c.cor
    let corOdd := if mode = 1 ∧ c.oddNext then (⟨intWord yo, fo.2⟩ :: c.corOdd).take 16 else c.corOdd
    let (v, t) :=
      if mode = 1 then
        (if c.oddNext then skewFilter (mix64 k src.skew target.skew) corOdd else skewFilter 0 cor)
      else if mode = 2 then (roundDiv (ye + yo) 2, tagOR fe.2 fo.2)
      else (ye, fe.2)
    let moving := match c.move with | some m => !m.wait && decide (m.j < 64) | none => false
    let rampj := c.rampJ
    let v := if c.run = .ramping then rampOut rampj up v else v
    let t := tagOR t ((if moving || decide (0 < c.outSet) || decide (0 < c.bankSet) || c.run == .ramping then tSET else 0) |||
      (if c.cutNext then tCUT else 0))
    let c := { c with
      oddNext := mode == 1 && !c.oddNext
      cor := cor
      corOdd := corOdd
      pos := ((if frame then 0 else c.pos) + 1) % 16
      outSet := c.outSet - 1
      bankSet := c.bankSet - 1
      cutNext := false
      rampJ := if c.run = .ramping then min 64 (rampj + 1) else rampj
      move := match c.move with
        | some m => if m.wait then some m else if m.j + 1 < 64 then some { m with j := m.j + 1 }
          else some { m with j := 64 }
        | none => none
      fade := c.fade.map (fun f => { f with j := min f.len (f.j + 1) }) }
    let e := if mode = 1 ∧ c0.oddNext then none else some fe.1
    let o := if mode = 2 ∨ (mode = 1 ∧ c0.oddNext) then some fo.1 else none
    (⟨intWord v, t⟩, calNote ch frame e o t (onChan ch (fun _ => c) s))

/-! ## Detectors (R179–R181, R187, R188) -/

def dDet : Word := 0xAD4A0A00

/-- |x| of R179. -/
def mag (w : Word) : Nat := min w.toInt.natAbs 2147483647

/-- P as it stands: held, then falling by DECAY (R179). A HOLD of no whole number of samples is rounded down (DESIGN CHOICE, log entry
185). -/
def detPeak (cfg : Word) (d : Det) : Nat :=
  let decay := 2 * fld cfg 19 16
  let hold := max (fld cfg 25 20 * 50 * d.hz / 1000) d.ref
  if decay = 0 ∨ d.age ≤ hold then d.p0
  else (roundDiv (d.p0 * fxPow10 (-(decay * (d.age - hold) : Nat)) (20 * d.hz)) (2 ^ 128)).toNat

/-- P goes on from where it stands under new settings, or at a new rate: the age keeps its time (R179). -/
def detRebase (cfg : Word) (hz : Nat) (d : Det) : Det :=
  let a := d.age * hz / max 1 d.hz
  { d with p0 := detPeak cfg d, age := a, ref := a, hz := hz }

/-- √(num/den) rounded to nearest, ties to even. -/
def sqrtRatio (num den : Nat) : Nat :=
  let t := isqrt (4 * num / den)
  if t % 2 = 0 then t / 2
  else if t * t * den = 4 * num then (t / 2 + 1) / 2 * 2
  else (t + 1) / 2

/-- R over the window of the settings (R179). -/
def detRms (cfg : Word) (d : Det) : Nat :=
  let w := 2 ^ fld cfg 29 26
  sqrtRatio ((d.win.take w).foldl (fun a x => a + x * x) 0) w

/-- α = 1 − e^(−1/τ), fixed point. -/
def detAlpha (tau : Nat) : Int := fxOne - fxExp (-(fxRat 1 tau))

/-- E moves by α of the difference; E holds 32 more fraction bits (UNVERIFIED, log entry 9). -/
def detEnv (cfg : Word) (env x : Nat) : Nat :=
  let x32 := x * 2 ^ 32
  let tau := if env < x32 then 2 ^ fld cfg 15 12 else 2 ^ (fld cfg 11 8 + 4)
  ((env : Int) + roundDiv (detAlpha tau * ((x32 : Int) - env)) (2 ^ 128)).toNat

/-- One sample at a detector (R179). |x| is compared with P as it stood at the sample before (DESIGN CHOICE, log entry 185). -/
def detStep (cfg : Word) (hz : Nat) (x : Sample) (d0 : Det) : Det :=
  let d := if d0.hz = hz then d0 else detRebase cfg hz d0
  let d := { d with
    ovr := d.ovr || x.tag.getLsbD 3
    set := d.set || x.tag.getLsbD 2
    cut := d.cut || x.tag.getLsbD 1 }
  if bit cfg 31 && (x.tag.getLsbD 2 || x.tag.getLsbD 1) then { d with age := d.age + 1 }
  else
    let m := mag x.val
    let d := if detPeak cfg d < m then { d with p0 := m, age := 0, ref := 0 } else { d with age := d.age + 1 }
    { d with win := (m :: d.win).take 8192, env := detEnv cfg d.env m }

/-- Feed detector `n` (AIN n is n, output lane n is 32 + n). -/
def feedDet (n hz : Nat) (x : Sample) (s : State) : State :=
  let cfg := tget dDet s.filt.detCfg n
  { s with filt := { s.filt with dets := tmod {} s.filt.dets n (detStep cfg hz x) } }

/-- Feed the detectors of AIN channel `ch`; one that never runs delivers no samples to them (R66, R179). -/
def feedAin (ch : Nat) (x : Sample) (s : State) : State :=
  if (chan s ch).run = .off then s else feedDet ch (chanHz (active s) ch) x s

/-- W0–W3 of DET.READ (R188). W2 is the held envelope, of which the spec does not give the precision (DESIGN CHOICE, log entry
142), rounded to nearest (R486). -/
def detWords (s : State) (n : Nat) : Quad :=
  let cfg := tget dDet s.filt.detCfg n
  let d := tget {} s.filt.dets n
  ⟨toWord (detPeak cfg d), toWord (detRms cfg d), toWord (roundDiv d.env (2 ^ 32)).toNat,
   toWord (b2n d.ovr * 2 ^ 31 + b2n d.set * 2 ^ 30 + b2n d.cut * 2 ^ 29)⟩

/-- A level code of R181: k·log10(num/den) in 0.01 dBFS, 0x8000 for zero or below −120.00 dBFS. -/
def levelCode (k num den : Nat) : Nat :=
  if num * 10 ^ (12000 / k) < den ∨ num = 0 then 0x8000 else (logCode k num den % 65536).toNat

/-- A meter word (Table 5.9). -/
def meterWord (s : State) (n : Nat) : Word :=
  let q := detWords s n
  let p := q.w0.toNat
  let r := q.w1.toNat
  toWord (levelCode 2000 p (2 ^ 31) * 65536 + levelCode 1000 (2 * r * r) (2 ^ 62))

def dMeter : Word := 0x80008000

/-- METER_UPDATE (R181): every detector is copied into its meter word. -/
def meterUpdate (s : State) : State :=
  { s with filt := { s.filt with
      meters := (List.range 160).foldl (fun t n => tput dMeter t n (meterWord s n)) s.filt.meters } }

end Sys2Proof.Machine
end

