-- ==== Sys2Proof/Machine/FrontEnd.lean ====
section
/-! DEFINITION. The analogue front end (R122–R144, R153–R157, Tables 4.3, 4.6): reference buffers, channel starts and stops,
gain switches, overload and recovery; what a change of the ACTIVE set does to a channel; fades (R175, R176). -/

namespace Sys2Proof.Machine

def refBuf (s : State) (b : Nat) : RefBuf := tget {} s.fe.refs b

def onRef (b : Nat) (f : RefBuf → RefBuf) (s : State) : State :=
  { s with fe := { s.fe with refs := tmod {} s.fe.refs b f } }

/-- The channels of bank `b`. -/
def bankChans (b : Nat) : List Nat := (List.range 8).map (fun i => 8 * b + i)

/-- Flag at least `n` coming filter-input samples SET (Table 4.6: an overlap extends, nothing is counted twice). Of the counts that Table 4.6
bounds by a "most", the most is taken (DESIGN CHOICE, log entry 199). -/
def addSet (n : Nat) (c : Chan) : Chan := { c with setLeft := max c.setLeft n }

/-- ceil(L_f) of an AIN flow: D_in + 1 (Tables 6.5, 7.3). -/
def ainDelay (s : State) (c : ConfigSet) (ch : Nat) : Nat :=
  presetDelay c ch + 1 + (gd2Of s (c.chBank (c.gov ch)) + 1) / 2

/-- The samples that a channel whose chain restarts delivers before sample 0 of its grid arrives: they carry SET (R168, R177; log entry
106). Of a group delay that ends in a half sample the whole samples count (DESIGN CHOICE, log entry 186). -/
def leadIn (s : State) (c : ConfigSet) (ch : Nat) : Nat := presetDelay c ch + gd2Of s (c.chBank (c.gov ch)) / 2

/-- The comparator of another channel of the bank has tripped, or released less than 20 µs ago (R140). -/
def neighbourTripped (s : State) (ch : Nat) : Bool :=
  (bankChans (ch / 8)).any (fun n => n != ch && ((chan s n).ovr ||
    decide (tget 0 s.fe.release n ≠ 0 ∧ since s (tget 0 s.fe.release n) < 20 * usec)))

/-- A channel's comparator releases, or stops with its channel (R140). -/
def noteRelease (ch : Nat) (s : State) : State :=
  if (chan s ch).ovr then { s with fe := { s.fe with release := tput 0 s.fe.release ch (now s) } } else s

/-- A channel start (Table 4.6, R129, R169): zero filter state, ACTIVE gain, bank and polarity, SET for the start count,
counted from the first sample that can have passed the chain. -/
def startChan (ch : Nat) (s : State) : State :=
  let a := active s
  onChan ch (fun _ =>
    { run := .running
      gain := a.chGain ch
      bank := a.chBank ch
      setLeft := leadIn s a ch + nA 2000000 (chanHz a ch) + settleIn a ch
      nbr := a.chNbr ch && neighbourTripped s ch }) s

/-- An enabled channel at a boundary that starts it: it starts, or is stopped on its reference (R129). -/
def beginChan (ch : Nat) (s : State) : State :=
  if (refBuf s (ch / 8)).ready then startChan ch s else onChan ch (fun _ => { run := .stopped }) s

/-- A request for bank `b` on a running channel (R175, Table 5.6). -/
def fadeRequest (ch b : Nat) (s : State) : State :=
  let len := (active s).fadeLen ch
  onChan ch (fun c =>
    match c.fade with
    | some f => if b = f.dst then { c with queued := none } else { c with queued := some b }
    | none => { c with fade := some ⟨c.bank, b, len, 0⟩ }) s

/-- A gain change applies to a running channel (R142, R143). -/
def gainRequest (ch g : Nat) (s : State) : State :=
  let mode := (active s).chMode ch
  onChan ch (fun c =>
    match c.gainPend with
    | some p => { c with gainPend := some ⟨g, p.since, p.cross || rangeOf mode c.gain != rangeOf mode g⟩ }
    | none => { c with gainPend := some ⟨g, now s, rangeOf mode c.gain != rangeOf mode g⟩ }) s

/-- The record in use changes with the gain range, without a ramp (R152): a move of coefficients ends with it, a move of the channel's
sign goes on (R155). -/
def recordStep (ch : Nat) (changes : Bool) (s : State) : State :=
  if changes then
    let t := corrOf s ch
    onChan ch (fun c => { c with move := c.move.bind (fun m =>
      if m.src.pol = t.pol then none else some { m with src := { t with pol := m.src.pol } }) }) s
  else s

/-- What the new ACTIVE set does to channel `ch`, `o` being the ACTIVE set before (R66, R135, R142, R155, R169, R175). -/
def chanDiff (o : ConfigSet) (s : State) (ch : Nat) : State :=
  let n := active s
  let c := chan s ch
  if n.chEn ch = false then (if o.chEn ch then onChan ch (fun _ => {}) (noteRelease ch s) else s)
  else if o.chEn ch = false ∨ o.pairMode ch ≠ n.pairMode ch then beginChan ch (noteRelease ch s)
  else if c.live = false then s
  else
    let hz := chanHz n ch
    let restart := decide (o.chPreset ch ≠ n.chPreset ch ∨ o.chRate ch ≠ n.chRate ch)
    let modeChg := decide (o.chMode ch ≠ n.chMode ch)
    let s := if restart then
        onChan ch (fun c => addSet (leadIn s n ch + nA 20000 hz + settleIn n ch)
          { c with dec := {}, decOdd := {}, outSet := 0, hist := [], histOdd := [], cor := [], corOdd := [], fade := none, queued := none, oldBank := none, bank := n.chBank ch,
                   oddNext := false, ovrTail := 0 }) s
      else s
    let s := if modeChg then
        recordStep ch (decide (rangeOf (o.chMode ch) c.gain ≠ rangeOf (n.chMode ch) (n.chGain ch)))
          (onChan ch (fun c => addSet (nA 50000000 hz + settleIn n ch) { c with gain := n.chGain ch, gainPend := none }) s)
      else if o.chGain ch ≠ n.chGain ch then gainRequest ch (n.chGain ch) s
      else s
    let s := if o.chPol ch ≠ n.chPol ch then moveFrom ch { corrOf s ch with pol := polSign (o.chPol ch) } s else s
    let s := if o.chNbr ch = n.chNbr ch then s
      else if n.chNbr ch then onChan ch (fun c => { c with nbr := neighbourTripped s ch }) s
      else onChan ch (fun c => if c.nbr then addSet (settleIn n ch) { c with nbr := false } else c) s
    if restart = false ∧ o.chBank ch ≠ n.chBank ch then fadeRequest ch (n.chBank ch) s else s

/-- All channels at a change of ACTIVE from `o`. -/
def feDiff (o : ConfigSet) (s : State) : State := (List.range 32).foldl (chanDiff o) s

/-! ## Reference buffers (R127–R130) -/

/-- A calibration whose named channel stops, or carries CUT, ends with REFUSED (Table 4.8). -/
def calBreak (chs : List Nat) (s : State) : State :=
  if chs.any (fun ch => bit (calMask s) ch) then finishJob .refused s else s

/-- Start the 64-sample ramp to 0 of the bank's running channels (Table 4.3). -/
def rampBank (b : Nat) (s : State) : State :=
  let s1 := calBreak ((bankChans b).filter (fun ch => (chan s ch).live)) s
  (bankChans b).foldl (fun s ch =>
    if (chan s ch).run = .running then onChan ch (fun c => { c with run := .ramping, rampJ := 0 }) s else s) s1

/-- Turn on a named buffer that is off (R127). -/
def refOnBank (s : State) (b : Nat) : State :=
  if (refBuf s b).powered then s
  else onRef b (fun _ => { on := true, powered := true, onAt := now s, fromOn := true }) s

/-- The buffer turns off (Table 4.3). -/
def refUnpower (b : Nat) (s : State) : State :=
  onRef b (fun r => { onAt := r.onAt, need := r.need }) s

/-- REF.OFF on a named bank (Table 4.3). -/
def refOffBank (s : State) (b : Nat) : State :=
  if (refBuf s b).powered = false then onRef b (fun r => { r with on := false }) s
  else if (bankChans b).any (fun ch => (chan s ch).live) then
    rampBank b (onRef b (fun r => { r with on := false, ready := false, offAfterRamp := true, fromOn := false }) s)
  else refUnpower b s

/-- A bank's byte of REF.ON's result (R153). -/
def refByte (s : State) (b : Nat) : Nat :=
  let r := refBuf s b
  let left := if r.powered then ceilDiv (r.need - since s r.onAt) msec else 0
  b2n r.powered * 128 + b2n r.ready * 64 + min left 40

/-- REF.ON's result word (R153). -/
def refWord (s : State) : Word :=
  toWord (refByte s 0 + refByte s 1 * 256 + refByte s 2 * 65536 + refByte s 3 * 16777216)

/-- The channels of the named banks that ACTIVE enables. -/
def enabledIn (s : State) (mask : Nat) : Word :=
  wordOf (indexes 32 (fun ch => mask.testBit (ch / 8) && (active s).chEn ch))

def bodyRefOn (a : CmdArgs) (s : State) : Ans :=
  let w := opnd a 0
  checks s [(resv w 0xF, .unsupported)]
    (let s1 := (indexes 4 (bit w)).foldl refOnBank s
     yes s1 [refWord s1])

def rowRefOn : CmdRow := { op := 0x20, count := countIs 1, maxRes := fun _ _ => 1, body := bodyRefOn }

def bodyRefOff (a : CmdArgs) (s : State) : Ans :=
  let w := opnd a 0
  let en := enabledIn s w.toNat
  checks s [(resv w 0xF, .unsupported)]
    (if flag a 0 = false ∧ en ≠ 0 then ⟨.refused, s, [en]⟩
     else yes ((indexes 4 (bit w)).foldl refOffBank s))

def rowRefOff : CmdRow :=
  { op := 0x21, flags := 1, count := countIs 1, maxRes := fun _ _ => 1, body := bodyRefOff }

/-- After a loss of tolerance the monitor has been back for 40 ms, `tol` being how long it is (Table 4.3). -/
def refHeld (tol : Nat) (s : State) (r : RefBuf) : Bool :=
  match r.lost with
  | some t => decide (40000000 ≤ tol) && decide (40000000 ≤ since s t)
  | none => true

/-- REF_READY (R127): the count has passed and the environment reports the monitor in tolerance, for `tol` ns by now. -/
def refReady (b tol : Nat) (s : State) : State :=
  let r := refBuf s b
  if r.powered ∧ r.offAfterRamp = false ∧ r.ready = false ∧ r.need ≤ since s r.onAt ∧ refHeld tol s r then
    onRef b (fun r => { r with ready := true, late := false, lost := none, fromOn := false }) s
  else s

/-- CHANNEL_START (R129): at a frame boundary of the channel's lane rate. -/
def channelStart (ch : Nat) (s : State) : State :=
  if (active s).chEn ch ∧ (chan s ch).run = .stopped ∧ (refBuf s (ch / 8)).ready ∧ audioRuns s ∧ chanBoundary s ch then
    startChan ch s
  else s

/-- REF_SETTLE_LATE (R128): no report 100 ms after REF.ON. -/
def refSettleLate (b : Nat) (s : State) : State :=
  let r := refBuf s b
  if r.powered ∧ r.fromOn ∧ r.late = false ∧ 100000000 ≤ since s r.onAt then
    logFault 0x08 b (toWord b) 0 (onRef b (fun r => { r with late := true }) s)
  else s

/-- REF_OUT_OF_TOLERANCE (R127, Table 4.3): while channels of the bank run, they ramp and stop, and a fault is logged. With none running
the buffer is not ready while its monitor is out of tolerance, and nothing is logged (DESIGN CHOICE, log entry 184). -/
def refOutOfTolerance (b : Nat) (s : State) : State :=
  let r := refBuf s b
  if r.powered ∧ r.ready then
    if (bankChans b).any (fun ch => (chan s ch).live) then
      logFault 0x08 b (toWord b) 0
        (rampBank b (onRef b (fun r => { r with ready := false, lost := some (now s) }) s))
    else onRef b (fun r => { r with ready := false }) s
  else s

/-- The channel's ramp to 0 has given its 64 samples. -/
def rampDone (s : State) (ch : Nat) : Bool := (chan s ch).run != .ramping || (chan s ch).rampJ == 64

/-- BUFFER_OFF (Table 4.3): the ramps end, the channels are stopped, and after REF.OFF the buffer turns off. -/
def bufferOff (b : Nat) (s : State) : State :=
  let ramping := (bankChans b).filter (fun ch => (chan s ch).run == .ramping)
  if (ramping ≠ [] ∨ (refBuf s b).offAfterRamp) ∧ ramping.all (rampDone s) then
    let s1 := ramping.foldl (fun s ch => onChan ch (fun _ => { run := .stopped }) (noteRelease ch s)) s
    if (refBuf s b).offAfterRamp then refUnpower b s1 else s1
  else s

/-! ## Gain switch, overload and recovery (R137–R144) -/

/-- GAIN_SWITCH (R142): at the first sign change, or at 2 ms. Another range's record comes into use without a ramp (R152). -/
def gainSwitch (ch : Nat) (crossing : Bool) (s : State) : State :=
  let c := chan s ch
  match c.gainPend with
  | none => s
  | some p =>
    if c.live ∧ ((crossing ∧ c.crossHold = 0) ∨ 2 * msec ≤ since s p.since) then
      let ta := if p.cross then 200000 else 20000
      recordStep ch (decide (rangeOf ((active s).chMode ch) c.gain ≠ rangeOf ((active s).chMode ch) p.target))
        (onChan ch (fun c => addSet (nA ta (chanHz (active s) ch) + settleIn (active s) ch)
          { c with gain := p.target, gainPend := none }) s)
    else s

/-- Flag channel `ch` in ST_OVR, raising OVERLOAD when the bit was 0 (R144). -/
def setOvrBit (ch : Nat) (s : State) : State :=
  raiseIf (!bit s.fe.ovrReg ch) irqOverload { s with fe := { s.fe with ovrReg := setBit s.fe.ovrReg ch true } }

/-- The modulator of a channel runs. -/
def modRuns (s : State) (ch : Nat) : Bool := (chan s ch).live && running s && gridRuns s

/-- Neighbours of the bank with NBR set flag SET (R140). -/
def flagNeighbours (ch : Nat) (s : State) : State :=
  (bankChans (ch / 8)).foldl (fun s n =>
    if n ≠ ch ∧ (chan s n).live ∧ (active s).chNbr n then onChan n (fun c => { c with nbr := true }) s else s) s

/-- OVERLOAD_TRIP (R137, R140, R144). -/
def overloadTrip (ch0 : Nat) (s : State) : State :=
  let ch := (active s).gov ch0
  if modRuns s ch ∧ (chan s ch).ovr = false then
    flagNeighbours ch (setOvrBit ch (onChan ch (fun c => { c with ovr := true }) s))
  else s

/-- OVERLOAD_RELEASE (R137). -/
def overloadRelease (ch0 : Nat) (s : State) : State :=
  let ch := (active s).gov ch0
  if (chan s ch).ovr then
    onChan ch (fun c => { c with ovr := false, ovrTail := max c.ovrTail (settleIn (active s) ch) }) (noteRelease ch s)
  else s

/-- MODULATOR_INSTABILITY (R139): OVR and SET from detection. -/
def modulatorInstability (ch0 : Nat) (s : State) : State :=
  let ch := (active s).gov ch0
  if modRuns s ch ∧ (chan s ch).unstable = false then
    setOvrBit ch (onChan ch (fun c => { c with unstable := true }) s)
  else s

/-- MODULATOR_RECOVERY (R139): the support of the flagged samples still marks S_p filter-input samples. -/
def modulatorRecovery (ch0 : Nat) (s : State) : State :=
  let ch := (active s).gov ch0
  let sp := settleIn (active s) ch
  if (chan s ch).unstable then
    onChan ch (fun c => addSet sp { c with unstable := false, ovrTail := max c.ovrTail sp }) s
  else s

/-- NEIGHBOUR_SET_END (R140): 20 µs after the last neighbour's release. -/
def neighbourSetEnd (ch : Nat) (s : State) : State :=
  if (chan s ch).nbr ∧ (bankChans (ch / 8)).all (fun n => n == ch ||
      (!(chan s n).ovr && decide (20 * usec ≤ since s (tget 0 s.fe.release n)))) then
    onChan ch (fun c => addSet (settleIn (active s) ch) { c with nbr := false }) s
  else s

/-- COEFFICIENT_MOVE_END (R152): after its 64 samples. -/
def coefficientMoveEnd (ch : Nat) (s : State) : State :=
  match (chan s ch).move with
  | some m => if m.j = 64 then onChan ch (fun c => { c with move := none }) s else s
  | none => s

/-- FADE_END (R175). -/
def fadeEnd (ch : Nat) (s : State) : State :=
  match (chan s ch).fade with
  | some f => if f.j = f.len then onChan ch (fun c => { c with bank := f.dst, fade := none }) s else s
  | none => s

/-- QUEUED_FADE_START (R176): at the first frame boundary at or after the running fade's last sample. -/
def queuedFadeStart (ch : Nat) (s : State) : State :=
  let s := fadeEnd ch s
  let c := chan s ch
  match c.queued, c.fade with
  | some b, none =>
    if c.live ∧ c.pos = 0 then
      onChan ch (fun c => { c with queued := none, fade := some ⟨c.bank, b, (active s).fadeLen ch, 0⟩ }) s
    else s
  | _, _ => s

/-- What a synchronising reset does to a channel (R177, R178). -/
def chanSync (s : State) (ch : Nat) : State :=
  let a := active s
  let b := a.chBank ch
  let st := settleOf a ch + tapsOf s b - 1
  if (chan s ch).live then
    onChan ch (fun c => { c with
      dec := {}, decOdd := {}, hist := [], histOdd := [], cor := [], corOdd := [], fade := none, queued := none, oldBank := none, move := none
      bank := b, cutNext := true, oddNext := false, pos := 0, ovrTail := 0, crossHold := st
      outSet := leadIn s a ch + st }) s
  else s

/-- The front end at a synchronising reset; a running calibration ends (Table 5.8). -/
def feSync (s : State) : State :=
  (List.range 32).foldl chanSync (calBreak (indexes 32 (fun ch => (chan s ch).live)) s)

/-! ## Front-end set commands (R155–R157) -/

/-- Write of a set item by opcode, without its checks: FE.MODE, FE.GAIN, FE.PAIR, FLT.PRESET, FIR.SEL, FIR.FADE. -/
def writeFe (op : Nat) (a : CmdArgs) (c : ConfigSet) : ConfigSet :=
  let i := (opnd a 0).toNat
  let v := opnd a 1
  match op with
  | 0x22 => { c with feMode := tput 0 c.feMode i v }
  | 0x23 => { c with feGain := tput 0 c.feGain i v }
  | 0x24 => { c with fePair := tput 0 c.fePair i v }
  | 0x30 => { c with preset := tput dPreset c.preset i v }
  | 0x32 => { c with firSel := tput dFirSel c.firSel i v }
  | 0x33 => { c with firFade := tput dFirFade c.firFade i v }
  | _ => c

/-- The lane rate a channel serves, for the boundary of an IMMEDIATE write (R67). -/
def chanRate (s : State) (ch : Nat) : Option Nat := some ((active s).chRate ((active s).gov ch))

def bodyFeMode (a : CmdArgs) (s : State) : Ans :=
  let v := opnd a 1
  checks s [(resv (opnd a 0) 0x1F || resv v 0x83110000 || fld v 25 24 == 3, .unsupported)]
    (yes (writeItem 0x22 none (writeFe 0x22 a) a s))

def rowFeMode : CmdRow := { op := 0x22, pS := true, count := countIs 2, body := bodyFeMode }

def bodyFeGain (a : CmdArgs) (s : State) : Ans :=
  let ch := (opnd a 0).toNat
  let g := (opnd a 1).toNat
  checks s
    [(resv (opnd a 0) 0x1F || resv (opnd a 1) 0x3F, .unsupported),
     (60 < g, .range),
     (a.imm && decide (modeMax ((active s).chMode ch) < g), .range),
     (a.imm && bit (calMask s) ch, .busy)]
    (yes (writeItem 0x23 (chanRate s ch) (writeFe 0x23 a) a s))

def rowFeGain : CmdRow := { op := 0x23, pS := true, pI := true, count := countIs 2, body := bodyFeGain }

def bodyFePair (a : CmdArgs) (s : State) : Ans :=
  checks s [(resv (opnd a 0) 0xF || resv (opnd a 1) 3 || fld (opnd a 1) 1 0 == 3, .unsupported)]
    (yes (writeItem 0x24 none (writeFe 0x24 a) a s))

def rowFePair : CmdRow := { op := 0x24, pS := true, count := countIs 2, body := bodyFePair }

/-- The front-end checks of SWAP 1 and 2 (R134), which concern FE.MODE and FE.GAIN items. -/
def feSwap12 (c : ConfigSet) : Option Status :=
  if (List.range 32).any (fun ch => c.chEn ch && decide (modeMax (c.chMode ch) < c.chGain ch)) then some .range
  else if (List.range 16).any (fun p => c.pairMode (2 * p) != 0 && c.chEn (2 * p + 1)) then some .range
  else none

/-- The front-end checks of SWAP 3 and 4 (R134), which concern FE.PAIR items. -/
def feSwap34 (c : ConfigSet) : Option Status :=
  if c.flows.any (fun x => x.2.kind == 1 && x.2.ep % 2 == 1 && c.pairMode x.2.ep != 0) then some .range
  else if (List.range 32).any (fun ch =>
      if c.pairMode ch = 1 then
        ch % 2 == 0 && !(c.chPreset ch == 3 && rateTop (c.chRate ch))
      else rateTop (c.chRate ch)) then some .range
  else none

/-- REF_NOT_READY of SWAP (R71 step 2, R128): SHADOW enables a channel, or changes the mode of a pair it enables, whose
buffer is not ready. -/
def feSwapRef (s : State) : Bool :=
  let a := active s
  let c := shadow s
  (List.range 32).any (fun ch =>
    c.chEn ch && (!a.chEn ch || a.pairMode ch != c.pairMode ch) && !(refBuf s (ch / 8)).ready)

end Sys2Proof.Machine
end

