-- ==== Sys2Proof/Machine/FilterCmds.lean ====
section
/-! DEFINITION. The filter commands (R182–R188) and the filter checks of SWAP (R186, R171). -/

namespace Sys2Proof.Machine

/-- The filter budget T × f_s of a channel (R171). -/
def firOver (s : State) (b hz : Nat) : Bool := decide (18432000 < tapsOf s b * hz)

/-- The bank is undefined (R170). -/
def bankUndef (s : State) (b : Nat) : Bool := b < 8 && tapsOf s b == 0

def bodyFltPreset (a : CmdArgs) (s : State) : Ans :=
  let v := opnd a 1
  let r := fld v 23 20
  let p := fld v 29 28
  checks s
    [(resv (opnd a 0) 0x1F || resv v 0x30F00000 || r == 15, .unsupported),
     (if rateTop r then p != 3 else decide (presetMax p (rate44 r) < rateHz r), .range)]
    (yes (writeItem 0x30 none (writeFe 0x30 a) a s))

def rowFltPreset : CmdRow := { op := 0x30, pS := true, count := countIs 2, body := bodyFltPreset }

def bodyFirSel (a : CmdArgs) (s : State) : Ans :=
  let ch := (opnd a 0).toNat
  let b := (opnd a 1).toNat
  let c := active s
  let live := a.imm && c.chEn ch
  checks s
    [(resv (opnd a 0) 0x1F || resv (opnd a 1) 0xF || decide (8 < b), .unsupported),
     (live && firOver s b (chanHz c ch), .noCapacity),
     (live && !rateInUse s (c.chRate ch), .range),
     (live && bankUndef s b, .refused),
     (live && c.pairMode ch == 1 && b != 8, .range)]
    (yes (writeItem 0x32 (chanRate s ch) (writeFe 0x32 a) a s))

def rowFirSel : CmdRow := { op := 0x32, pS := true, pI := true, count := countIs 2, body := bodyFirSel }

def bodyFirFade (a : CmdArgs) (s : State) : Ans :=
  checks s
    [(resv (opnd a 0) 0x1F || resv (opnd a 1) 7, .unsupported), (opnd a 1 == 7, .range)]
    (yes (writeItem 0x33 (chanRate s (opnd a 0).toNat) (writeFe 0x33 a) a s))

def rowFirFade : CmdRow := { op := 0x33, pS := true, pI := true, count := countIs 2, body := bodyFirFade }

/-- CRC-32 of a bank as read back (R173). -/
def bankCrc (k : FirBank) : Word :=
  toWord (crc32 (wordBytes k.desc ++
    (List.range (fld k.desc 8 0)).flatMap (fun i => natBytes 3 (tget 0 k.coefs i).toNat)))

/-- The bank takes part in a running fade (R172). -/
def bankFading (s : State) (b : Nat) : Bool :=
  s.fe.chans.any (fun x => match x.2.fade with
    | some f => decide (f.j < f.len) && (f.src == b || f.dst == b)
    | none => false)

/-- Replace a bank's content; a running channel that uses it, no fade running, keeps the old content until its frame boundary
(R172). -/
def putBank (b : Nat) (k : FirBank) (s : State) : State :=
  let old := firBank s b
  let s1 := (List.range 32).foldl (fun s ch =>
    let c := chan s ch
    let used := match c.fade with
      | some f => decide (f.j = f.len ∧ f.dst = b)
      | none => c.bank == b
    if c.live ∧ used = true ∧ c.oldBank = none then onChan ch (fun c => { c with oldBank := some old }) s
    else s) s
  { s1 with filt := { s1.filt with banks := tput dBank s1.filt.banks b k } }

def bodyFirWrite (a : CmdArgs) (s : State) : Ans :=
  let b := fld (opnd a 0) 18 16
  let off := fld (opnd a 0) 8 0
  let k := firBank s b
  let act := active s
  if flag a 0 then
    let d := opnd a 1
    let taps := fld d 8 0
    checks s
      [(resv (opnd a 0) 0x701FF || resv d 0x33FF01FF, .unsupported),
       (off != 0 || decide (384 < taps) || decide (2 * (taps - 1) < fld d 25 16), .range),
       (bankFading s b, .bankBusy),
       ((List.range 32).any (fun ch => act.chEn ch && act.chBank ch == b
          && decide (18432000 < taps * chanHz act ch)), .noCapacity),
       (taps == 0 && (List.range 32).any (fun ch => act.chBank ch == b), .refused)]
      (let k' := { k with desc := d }
       yes (putBank b k' s) [bankCrc k'])
  else
    let cs := a.ops.drop 1
    checks s
      [(resv (opnd a 0) 0x701FF || cs.any (fun w => resv w 0xFFFFFF), .unsupported),
       (decide (384 < off + cs.length), .range),
       (bankFading s b, .bankBusy)]
      (let k' := { k with coefs := tputs 0 k.coefs off (cs.map (fun w => BitVec.ofNat 24 w.toNat)) }
       yes (putBank b k' s) [bankCrc k'])

def rowFirWrite : CmdRow :=
  { op := 0x31, flags := 1
    count := fun a => if flag a 0 then decide (a.ops.length = 2) else decide (2 ≤ a.ops.length ∧ a.ops.length ≤ 385)
    maxRes := fun _ _ => 1, body := bodyFirWrite }

/-- The detectors an operand names: (first, number), AIN n being n and output lane n 32 + n; none out of range (R187). -/
def detSpan (w : Word) : Option (Nat × Nat) :=
  let first := fld w 22 16
  let n := fld w 7 0
  let lim := if bit w 24 then 128 else 32
  if n = 0 ∨ lim < first + n then none else some (if bit w 24 then 32 + first else first, n)

/-- A detector takes new settings: a change of HOLD or DECAY acts from the present P on (R179). -/
def setDet (v : Word) (s : State) (n : Nat) : State :=
  let o := tget dDet s.filt.detCfg n
  { s with filt := { s.filt with
      detCfg := tput dDet s.filt.detCfg n v
      dets := if fld o 25 16 = fld v 25 16 then s.filt.dets else tmod {} s.filt.dets n (fun d => detRebase o d.hz d) } }

def bodyDetCfg (a : CmdArgs) (s : State) : Ans :=
  let v := opnd a 1
  checks s
    [(resv (opnd a 0) 0x017F00FF || resv v 0xBFFFFF00, .unsupported),
     ((detSpan (opnd a 0)).isNone || decide (13 < fld v 29 26), .range)]
    (match detSpan (opnd a 0) with
     | some (f, n) =>
       yes (((List.range n).map (f + ·)).foldl (setDet v) s)
     | none => no .range s)

def rowDetCfg : CmdRow := { op := 0x34, count := countIs 2, body := bodyDetCfg }

/-- Clear P and the flags of a detector (R188). -/
def clearDet (s : State) (n : Nat) : State :=
  { s with filt := { s.filt with
      dets := tmod {} s.filt.dets n (fun d => { d with p0 := 0, age := 0, ref := 0, ovr := false, set := false, cut := false }) } }

def bodyDetRead (a : CmdArgs) (s : State) : Ans :=
  checks s
    [(resv (opnd a 0) 0x017F00FF, .unsupported), ((detSpan (opnd a 0)).isNone, .range)]
    (match detSpan (opnd a 0) with
     | some (f, n) =>
       let ds := (List.range n).map (f + ·)
       let ws := ds.flatMap (fun d => let q := detWords s d; [q.w0, q.w1, q.w2, q.w3])
       yes (if flag a 0 then ds.foldl clearDet s else s) ws
     | none => no .range s)

def rowDetRead : CmdRow :=
  { op := 0x35, flags := 1, count := countIs 1, maxRes := fun a _ => 4 * fld (opnd a 0) 7 0, body := bodyDetRead }

/-- DETECTOR_CAPTURE_READ (R350): a read of W0 captures the four words. -/
def detCapture (n : Nat) (s : State) : State :=
  { s with filt := { s.filt with capture := tput none s.filt.capture n (some (detWords s n)) } }

/-- SWAP's filter check 1 (R186). -/
def fltSwap1 (s : State) (c : ConfigSet) : Option Status :=
  if (List.range 32).any (fun ch => c.chEn ch && !rateInUse s (c.chRate ch)) then some .range else none

/-- SWAP's filter checks 2 and 3 (R186). -/
def fltSwap23 (s : State) (c : ConfigSet) : Option Status :=
  if (List.range 32).any (fun ch => c.chEn ch && bankUndef s (c.chBank ch)) then some .refused
  else if (List.range 16).any (fun p => c.pairMode (2 * p) == 1 && c.chBank (2 * p) != 8) then some .range
  else none

/-- SHADOW exceeds the FIR budget (R171, R42). -/
def firCapacity (s : State) (c : ConfigSet) : Bool :=
  (List.range 32).any (fun ch => c.chEn ch && firOver s (c.chBank ch) (chanHz c ch))

end Sys2Proof.Machine
end

