-- ==== Sys2Proof/Machine/Matrix.lean ====
section
/-! DEFINITION. The confluence matrix (R190–R202): node ramps, sums, weir limiters, saturation; what a change of ACTIVE does
to them; capacity; and the commands ROUTE, GAIN, RAMP and WEIR (R217–R220, R224). -/

namespace Sys2Proof.Machine

/-! ## Gains (R192) -/

/-- The mute code. -/
def muteCode : BitVec 16 := 0x8000#16

/-- A legal gain code (R192). -/
def codeOk (c : BitVec 16) : Bool := c == muteCode || (decide (-12000 ≤ c.toInt) && decide (c.toInt ≤ 1800))

/-- The Q4.20 gain of a code (R192). -/
def codeGain (c : BitVec 16) : Nat := if c = muteCode then 0 else gainOf 20 c.toInt

/-- The target code of a node entry (Table 6.3). -/
def nodeCode (w : Word) : BitVec 16 := w.setWidth 16

/-- N of a ramp-time code (R193). -/
def rampN (rt : Nat) : Nat := if rt = 15 then 0 else 2 ^ rt

/-! ## Ramps (R194–R196) -/

/-- The start gain in dB·100, fixed point: the code when it was settled, else the Q4.20 gain's own level. -/
def rampD0 (r : NodeRamp) : Int :=
  match r.d0 with
  | some d => d * fxOne
  | none => fxDiv (2000 * fxLnRat r.g0 (2 ^ 20)) fxLn10

/-- Gain of ramp sample `j` (R194). -/
def rampGain (r : NodeRamp) (j : Nat) : Nat :=
  let g1 := codeGain r.target
  if r.len ≤ j then g1
  else if r.rcos then
    (roundDiv (r.g0 * fxOne + fxRcos (j + 1) (r.len + 1) * ((g1 : Int) - r.g0)) (2 ^ 128)).toNat
  else
    let d0 := rampD0 r
    let d := d0 + roundDiv ((r.target.toInt * fxOne - d0) * (j + 1)) (r.len + 1)
    (roundDiv (fxExp (roundDiv (fxMul d fxLn10) 2000)) (2 ^ 108)).toNat

/-- The ramp of a node, when it still runs. -/
def nodeRamp (s : State) (n : Nat) : Option NodeRamp :=
  match tget none s.mtx.ramps n with
  | some r => if r.j < r.len then some r else none
  | none => none

/-- The gain of the last sample a node produced (R196). -/
def nodeLast (s : State) (old : BitVec 16) (n : Nat) : Nat × Option Int :=
  match nodeRamp s n with
  | some r => if r.j = 0 then (r.g0, r.d0) else (rampGain r (r.j - 1), none)
  | none => (codeGain old, some old.toInt)

/-- The ramp from the present gain to a new target (R194–R196); none with N = 0. -/
def newRamp (s : State) (old : BitVec 16) (entry : Word) (n : Nat) : Option NodeRamp :=
  let (g0, d0) := nodeLast s old n
  let t := nodeCode entry
  let opens := decide (g0 = 0 ∨ t = muteCode)
  let len := if opens then max (rampN (fld entry 19 16)) 16 else rampN (fld entry 19 16)
  if len = 0 then none else some ⟨g0, d0, t, len, opens || bit entry 20, 0⟩

/-! ## Readers and rates of lanes (R190, R191) -/

/-- The flow of a set that writes input lane `il`. -/
def inFlow (c : ConfigSet) (il : Nat) : Option (Nat × Quad) :=
  c.flows.find? (fun x => x.2.bound && decide (x.1 < 128) && x.2.lane == il)

/-- The flow of a set that reads output lane `ol`. -/
def outFlow (c : ConfigSet) (ol : Nat) : Option (Nat × Quad) :=
  c.flows.find? (fun x => x.2.bound && decide (128 ≤ x.1) && !x.2.direct && x.2.lane == ol)

/-- The output lane is computed (R191). -/
def computed (c : ConfigSet) (ol : Nat) : Bool := (outFlow c ol).isSome

/-- Rate code of an output lane in a set. -/
def outRate (c : ConfigSet) (ol : Nat) : Option Nat := (outFlow c ol).map (fun x => x.2.laneRate)

/-- Rate code of an input lane in a set. -/
def inRate (c : ConfigSet) (il : Nat) : Option Nat := (inFlow c il).map (fun x => x.2.laneRate)

/-! ## Weir limiter (R199–R201). Levels in 2^−96 dB. -/

def dB1 : Int := 2 ^ 96

/-- q(n) in dB for a sum (R199). The side-chain's precision is the model's: 2^−96 dB (DESIGN CHOICE, log entry 133); it is
rounded to nearest (R486). -/
def weirNeed (entry : Word) (sum : Int) : Int :=
  if sum = 0 then 0
  else
    let lvl := fxDiv (20 * fxLnRat sum.natAbs (2 ^ 31)) fxLn10
    min 0 (roundShift (-(fxRat (fld entry 7 0) 10) - lvl) 32)

/-- The rise of the gain per sample: 20 dB per T_r (R199). -/
def weirStep (ms hz : Nat) : Int := roundDiv (20 * dB1 * 1000) (max 1 (ms * hz))

/-- The sum times a gain in dB, rounded to nearest Q9.31. -/
def weirApply (g sum : Int) : Int :=
  if g = 0 then sum else roundDiv (sum * fxExp (roundDiv (fxLn10 * g) (20 * 2 ^ 96))) (2 ^ 128)

/-- Replan the window along an RCOS curve in dB from the oldest plan to `q` (R199); never raises a plan. -/
def replan (n : Nat) (p0 q : Int) : Nat → List WeirTap → List WeirTap
  | _, [] => []
  | i, t :: ts =>
    { t with plan := min t.plan (if n ≤ i then q else p0 + roundDiv (fxRcos i n * (q - p0)) (2 ^ 128)) } :: replan n p0 q (i + 1) ts

/-- A sum enters the look-ahead line, `gain` being the last gain applied (R199). -/
def planTap (entry : Word) (step gain : Int) (line : List WeirTap) (sum : Int) (tag : BitVec 4) : List WeirTap :=
  let q := weirNeed entry sum
  let u := min 0 ((match line.getLast? with | some t => t.plan | none => gain) + step)
  let l := line ++ [⟨sum, tag, u⟩]
  if q < u then replan (l.length - 1) (l.headD ⟨0, 0, 0⟩).plan q 0 l else l

/-- The sums that wait are planned anew under new settings, from the last gain applied: C and T_r act on the next sample that
leaves (R201). That a plan may thereby rise is the model's choice (DESIGN CHOICE, log entry 158). -/
def weirPlanAnew (entry : Word) (hz : Nat) (w : WeirRun) : WeirRun :=
  { w with line := w.line.foldl (fun l t => planTap entry (weirStep (fld entry 26 16) hz) w.gain l t.sum t.tag) [] }

/-- One sum through the limiter: the value and tag that leave, and the limiter after it. -/
def weirStepSample (entry : Word) (hz : Nat) (sum : Int) (tag : BitVec 4) (w : WeirRun) : Int × BitVec 4 × WeirRun :=
  let step := weirStep (fld entry 26 16) hz
  if bit entry 31 = false then
    match w.releasing with
    | some ms =>
      let g := min 0 (w.gain + weirStep ms hz)
      (weirApply g sum, tag, if g = 0 then {} else { w with gain := g })
    | none => (sum, tag, w)
  else if bit entry 30 = false then
    let g := min (weirNeed entry sum) (min 0 (w.gain + step))
    (weirApply g sum, tag, { gain := g })
  else
    match planTap entry step w.gain w.line sum tag with
    | [] => (sum, tag, w)
    | t :: ts => (weirApply t.plan t.sum, t.tag, { gain := t.plan, line := ts })

/-- The look-ahead line when computation starts, its words carrying the tag `t` (R201). -/
def weirFresh (entry : Word) (t : BitVec 4) : WeirRun :=
  if bit entry 30 then { line := List.replicate 16 ⟨0, t, 0⟩ } else {}

/-! ## One sample of an output lane (R190, R198, R200) -/

/-- Product of a sample and a gain, rounded to Q5.31. -/
def nodeProduct (x : Word) (g : Nat) : Int := roundDiv (x.toInt * g) (2 ^ 20)

/-- Sum and tag over the input lanes from the list. -/
def laneSum (s : State) (c : ConfigSet) (ol : Nat) : List Nat → Int × BitVec 4
  | [] => (0, 0)
  | il :: r =>
    let (v, t) := laneSum s c ol r
    let n := 128 * il + ol
    match nodeRamp s n with
    | some rp =>
      let x := tget ⟨0, 0⟩ s.mtx.laneIn il
      (v + nodeProduct x.val (rampGain rp rp.j), tagOR t x.tag)
    | none =>
      let code := nodeCode (c.node il ol)
      if code = muteCode then (v, t)
      else
        let x := tget ⟨0, 0⟩ s.mtx.laneIn il
        (v + nodeProduct x.val (codeGain code), tagOR t x.tag)

/-- Advance the ramps into an output lane by one sample. -/
def stepRamps (ol : Nat) (r : Tab (Option NodeRamp)) : Tab (Option NodeRamp) :=
  r.map (fun x => if x.1 % 128 = ol then (x.1, x.2.map (fun q => { q with j := min q.len (q.j + 1) })) else x)

/-- Write a sample into a lane: the present sample and the lane's buffer in SRAM (Table 10.3). Lane 128 + n is OLn. -/
def writeLane (lane : Nat) (x : Sample) (s : State) : State :=
  let pos := tget 0 s.mtx.lanePos lane
  { s with
    mem := s.mem.setWord (aLane lane pos) x.val x.tag
    mtx := { s.mtx with
      laneIn := if lane < 128 then tput ⟨0, 0⟩ s.mtx.laneIn lane x else s.mtx.laneIn
      laneOut := if lane < 128 then s.mtx.laneOut else tput ⟨0, 0⟩ s.mtx.laneOut (lane - 128) x
      lanePos := tput 0 s.mtx.lanePos lane ((pos + 1) % 256) } }

/-- FDMA's write of a lane's next word meets a parity error (R366, Table 10.13): address and control, and the beat is not performed,
so that the lane's next word is what its buffer holds; or the data of the word, and value 0 with SET is stored. -/
def laneWriteLost (lane : Nat) (x : Sample) (s : State) : Sample × State :=
  let a := aLane lane (tget 0 s.mtx.lanePos lane)
  if upset s (.request 6) then (⟨s.mem.word a, s.mem.tag a⟩, logAbort 6 6 6 true 0 a (dropUpset (.request 6) s))
  else if upset s (.data 6) then (zeroSample (stamp s tSET), logAbort 6 6 7 true 0 a (dropUpset (.data 6) s))
  else (x, s)

/-- Compute one sample of output lane `ol` at `hz` (R190). -/
def matrixSample (ol hz : Nat) (s : State) : Sample × State :=
  let c := heard s
  let (v, t) := laneSum s c ol (List.range 128)
  let sum := clampInt (-(2 ^ 39)) (2 ^ 39 - 1) v
  let (y, t', w) := weirStepSample (c.weir ol) hz sum (stamp s t) (tget {} s.mtx.weirs ol)
  let x : Sample := ⟨intWord (satQ31 y), stamp s t'⟩
  let s := { s with mtx := { s.mtx with ramps := stepRamps ol s.mtx.ramps, weirs := tput {} s.mtx.weirs ol w } }
  let (y, s) := laneWriteLost (128 + ol) x s
  (y, feedDet (32 + ol) hz x (writeLane (128 + ol) y s))

/-! ## A change of ACTIVE (R191, R194–R197, R201) -/

/-- The node indexes either set lists. -/
def nodeKeys (o n : ConfigSet) : List Nat :=
  o.nodes.map (·.1) ++ (n.nodes.filter (fun x => (o.nodes.all (fun y => y.1 != x.1)))).map (·.1)

/-- A node whose target differs begins its ramp, or takes its target at once where its lane is not computed. -/
def nodeDiff (o : ConfigSet) (s : State) (n : Nat) : State :=
  let a := heard s
  let was := nodeCode (tget dNode o.nodes n)
  let e := tget dNode a.nodes n
  if was = nodeCode e then s
  else
    let r := if computed a (n % 128) then newRamp s was e n else none
    { s with mtx := { s.mtx with ramps := tput none s.mtx.ramps n r } }

/-- A limiter whose settings, or whose lane's computation, change. -/
def weirDiff (o : ConfigSet) (s : State) (ol : Nat) : State :=
  let a := heard s
  let we := o.weir ol
  let wn := a.weir ol
  let set (w : WeirRun) : State := { s with mtx := { s.mtx with weirs := tput {} s.mtx.weirs ol w } }
  if computed a ol = false then set {}
  else if computed o ol = false then set (weirFresh wn (stamp s tSET))
  else if bit we 31 = bit wn 31 then
    (if we = wn then s
     else set (weirPlanAnew wn (match outRate a ol with | some c => rateHz c | none => 0) (tget {} s.mtx.weirs ol)))
  else if bit wn 31 then set {}
  else set { (tget {} s.mtx.weirs ol) with line := [], releasing := some (fld we 26 16) }

/-- The matrix at a change of ACTIVE from `o`, both as FDMA takes them. -/
def mtxDiff (o : ConfigSet) (s : State) : State :=
  let a := heard s
  let s := (nodeKeys o a).foldl (nodeDiff o) s
  let s := (List.range 128).foldl (weirDiff o) s
  { s with mtx := { s.mtx with
      ramps := s.mtx.ramps.filter (fun x => computed a (x.1 % 128))
      laneIn := s.mtx.laneIn.filter (fun x => (inFlow (active s) x.1).isSome)
      laneOut := s.mtx.laneOut.filter (fun x => computed a x.1) } }

/-- RESET.CORE on the matrix (Table 6.2): ramps end, gain reductions return to 0 dB; look-ahead lines keep their sums. -/
def mtxReset (s : State) : State :=
  { s with mtx := { s.mtx with
      ramps := []
      weirs := (s.mtx.weirs.map (fun x => (x.1, ({ line := x.2.line.map (fun t => { t with plan := 0 }) } : WeirRun)))).filter
        (fun x => decide (x.2 ≠ {})) } }

/-- NODE_RAMP_END (R194): the node holds its target. -/
def nodeRampEnd (il ol : Nat) (s : State) : State :=
  match tget none s.mtx.ramps (128 * il + ol) with
  | some r =>
    if r.len ≤ r.j then { s with mtx := { s.mtx with ramps := tput none s.mtx.ramps (128 * il + ol) none } } else s
  | none => s

/-! ## Capacity (R202, Table 1.10) -/

/-- The throughput limit, derated or not (R449). -/
def mtxLimit (s : State) : Nat := if bit s.margin.w0 5 then 3833856000 else 3932160000

/-- Rate code of the top matrix rate: 384 kHz or 352.8 kHz. -/
def rateHigh (c : Nat) : Bool := c == 6 || c == 13

/-- Nodes given as (output lane's rate code in Hz terms) break a limit of Table 1.10. -/
def overCapacity (s : State) (rates : List (Option Nat)) : Bool :=
  let hz := rates.foldl (fun a r => a + match r with | some c => rateHz c | none => 0) 0
  let high := (rates.filter (fun r => match r with | some c => rateHigh c | none => false)).length
  decide (mtxLimit s < hz) || decide (8192 < high)

/-- The nodes active in ACTIVE (R202). -/
def activeNodes (s : State) : List Nat :=
  let a := active s
  let on := (a.nodes.filter (fun x => nodeCode x.2 != muteCode)).map (·.1)
  on ++ ((s.mtx.ramps.map (·.1)).filter (fun n => (nodeRamp s n).isSome && nodeCode (tget dNode a.nodes n) == muteCode))

/-- SHADOW breaks the matrix capacity (R202). -/
def mtxCapacity (s : State) : Bool :=
  let a := active s
  let c := shadow s
  let on := (c.nodes.filter (fun x => nodeCode x.2 != muteCode)).map (·.1)
  let rest := (activeNodes s).filter (fun n => nodeCode (tget dNode c.nodes n) == muteCode)
  overCapacity s (on.map (fun n => outRate c (n % 128)) ++ rest.map (fun n => outRate a (n % 128)))

/-- A non-mute node joins lanes of different rates, or touches a lane at 768 kHz or 705.6 kHz (R224, check 1). -/
def nodeBad (c : ConfigSet) (n : Nat) : Bool :=
  let i := inRate c (n / 128)
  let o := outRate c (n % 128)
  (match i, o with | some x, some y => x != y | _, _ => false)
    || (match i with | some x => rateTop x | none => false) || (match o with | some y => rateTop y | none => false)

/-- R224 check 1 on SHADOW. -/
def mtxSwap1 (c : ConfigSet) : Option Status :=
  if c.nodes.any (fun x => nodeCode x.2 != muteCode && nodeBad c x.1) then some .range else none

/-- R224 check 2: LA differs for a lane that is read in either set. -/
def mtxSwap2 (a c : ConfigSet) : Option Status :=
  if (List.range 128).any (fun ol => bit (a.weir ol) 30 != bit (c.weir ol) 30 && (computed a ol || computed c ol))
  then some .refused else none

/-! ## Commands (R217–R220) -/

/-- The node targets a ROUTE or GAIN names: (node index, code). -/
def routeTargets (op : Nat) (a : CmdArgs) : List (Nat × BitVec 16) :=
  let w := opnd a 0
  if op = 0x40 then [(128 * fld w 22 16 + fld w 6 0, (opnd a 1).setWidth 16)]
  else
    (List.range (fld w 15 8)).map (fun j =>
      let v := opnd a (1 + j / 2)
      (128 * (fld w 22 16 + j) + fld w 6 0, BitVec.ofNat 16 (if j % 2 = 0 then fld v 31 16 else fld v 15 0)))

/-- Write of a matrix item without its checks. -/
def writeMtx (op : Nat) (a : CmdArgs) (c : ConfigSet) : ConfigSet :=
  let w := opnd a 0
  match op with
  | 0x42 =>
    let v := (opnd a 1).toNat
    { c with nodes := (List.range (fld w 15 8)).foldl (fun t j =>
        tmod dNode t (128 * (fld w 22 16 + j) + fld w 6 0) (fun e => setFld (setFld e 20 20 (v / 16)) 19 16 (v % 16))) c.nodes }
  | 0x43 => { c with weirs := tput dWeir c.weirs w.toNat (opnd a 1) }
  | _ => { c with nodes := (routeTargets op a).foldl (fun t x =>
        tmod dNode t x.1 (fun e => setFld e 15 0 x.2.toNat)) c.nodes }

/-- The nodes an IMMEDIATE ROUTE or GAIN opens break a limit (R202). -/
def immCapacity (s : State) (ts : List (Nat × BitVec 16)) : Bool :=
  let on := activeNodes s
  let opened := (ts.filter (fun x => x.2 != muteCode && !on.contains x.1)).map (·.1)
  overCapacity s ((on ++ opened).map (fun n => outRate (active s) (n % 128)))

/-- ROUTE and GAIN after their layout checks (R192, R202, R224). -/
def routeBody (op : Nat) (ts : List (Nat × BitVec 16)) (a : CmdArgs) (s : State) : Ans :=
  checks s
    [(ts.any (fun x => !codeOk x.2), .range),
     (a.imm && immCapacity s ts, .noCapacity),
     (a.imm && ts.any (fun x => x.2 != muteCode && nodeBad (active s) x.1), .range)]
    (yes (writeItem op (outRate (active s) (fld (opnd a 0) 6 0)) (writeMtx op a) a s))

def bodyRoute (a : CmdArgs) (s : State) : Ans :=
  checks s [(resv (opnd a 0) 0x7F007F || resv (opnd a 1) 0xFFFF, .unsupported)]
    (routeBody 0x40 (routeTargets 0x40 a) a s)

def rowRoute : CmdRow := { op := 0x40, pS := true, pI := true, count := countIs 2, body := bodyRoute }

/-- N of operand 0 is out of range (R218). -/
def spanBad (w : Word) : Bool := fld w 15 8 == 0 || decide (128 < fld w 15 8) || decide (128 < fld w 22 16 + fld w 15 8)

def bodyGain (a : CmdArgs) (s : State) : Ans :=
  let w := opnd a 0
  let n := fld w 15 8
  checks s
    [(resv w 0x7FFF7F || (n % 2 == 1 && fld (opnd a (1 + n / 2)) 15 0 != 0), .unsupported),
     (spanBad w, .range)]
    (routeBody 0x41 (routeTargets 0x41 a) a s)

def rowGain : CmdRow :=
  { op := 0x41, pS := true, pI := true
    count := fun a => decide (a.ops.length = 1 + (fld (opnd a 0) 15 8 + 1) / 2), body := bodyGain }

def bodyRamp (a : CmdArgs) (s : State) : Ans :=
  let w := opnd a 0
  checks s [(resv w 0x7FFF7F || resv (opnd a 1) 0x1F, .unsupported), (spanBad w, .range)]
    (yes (writeItem 0x42 (outRate (active s) (fld w 6 0)) (writeMtx 0x42 a) a s))

def rowRamp : CmdRow := { op := 0x42, pS := true, pI := true, count := countIs 2, body := bodyRamp }

def bodyWeir (a : CmdArgs) (s : State) : Ans :=
  let w := opnd a 0
  let v := opnd a 1
  let ol := fld w 6 0
  checks s
    [(resv w 0x7F || resv v 0xC7FF00FF, .unsupported),
     (decide (fld v 26 16 < 10) || decide (2000 < fld v 26 16) || decide (120 < fld v 7 0) || (bit v 30 && !bit v 31), .range),
     (a.imm && computed (active s) ol && bit ((active s).weir ol) 30 != bit v 30, .refused)]
    (yes (writeItem 0x43 (outRate (active s) ol) (writeMtx 0x43 a) a s))

def rowWeir : CmdRow := { op := 0x43, pS := true, pI := true, count := countIs 2, body := bodyWeir }

end Sys2Proof.Machine
end

