-- ==== Sys2Proof/Machine/Millrace.lean ====
section
/-! DEFINITION. The millrace (R206–R211): the taps' CIC, gains and sums, tap ramps, bus assignments, what a change of ACTIVE and a channel's start or stop do
to them, and the commands MR.TAP and MR.OUT (R221, R222). A DAC channel is 0–23 LOUT, 24–31 HP, 32–33 SPK. -/

namespace Sys2Proof.Machine

/-- The gain code of −∞ (R207). -/
def tapMute : BitVec 8 := 0x80#8

/-- A legal tap gain code (R207). -/
def tapCodeOk (c : BitVec 8) : Bool := c == tapMute || (decide (-120 ≤ c.toInt) && decide (c.toInt ≤ 24))

/-- The gain a tap entry asks for: −∞ while it is not enabled (Table 6.10). -/
def tapTarget (w : Word) : BitVec 8 := if bit w 31 then w.setWidth 8 else tapMute

/-- The channel a tap entry names. -/
def tapChan (w : Word) : Nat := fld w 20 16

def tapRun (s : State) (t : Nat) : TapRun := tget {} s.mr.taps t

def onTap (t : Nat) (f : TapRun → TapRun) (s : State) : State :=
  { s with mr := { s.mr with taps := tmod {} s.mr.taps t f } }

/-- A whole level, in units of 2^−32. -/
def levelOne : Nat := 2 ^ 32

/-- The gain of a tap code in units of 2^−32: steps of 0.5 dB (R207). -/
def tapGain (c : BitVec 8) : Nat := if c = tapMute then 0 else (roundDiv (fxPow10 c.toInt 40) (2 ^ 96)).toNat

/-- Samples at the millrace rate, 3.072 MS/s or 2.8224 MS/s, since time `t` (R206). -/
def mrSamples (s : State) (t : Nat) : Nat := since s t * (masterHz s / 8) / sec1

/-- A level `j` samples into its raised-cosine ramp of `n` samples from `a` to `b` (R208, R267, R271, R280): sample j from 0 stands at
(j + 1) / (n + 1) of the way, as a cross-fade's does in R175 (DEDUCED, log entry 148). -/
def rampLevel (n j a b : Nat) : Nat :=
  if n ≤ j then b else (roundDiv (a * fxOne + fxRcos (j + 1) (n + 1) * ((b : Int) - a)) (2 ^ 128)).toNat

/-- Samples of a tap ramp (R208). -/
def tapRampLen : Nat := 4096

/-- The gain a tap holds or ramps to: −∞ while it leaves its channel (R208). -/
def tapGoal (r : TapRun) : Nat := if r.next.isSome then 0 else tapGain r.code

/-- The present gain of a tap. -/
def tapNow (s : State) (r : TapRun) : Nat :=
  if r.ramp then rampLevel tapRampLen (mrSamples s r.since) r.src (tapGoal r) else tapGoal r

/-- A tap begins to ramp in on channel `ch`, from −∞ (R208, R210). -/
def tapIn (s : State) (ch : Nat) (code : BitVec 8) : TapRun :=
  { chan := ch, code := code, ramp := code != tapMute, since := if code = tapMute then 0 else now s }

/-- A tap takes its entry `w` (R208): a new gain ramps from the present one, and a change of channel ramps out first. -/
def tapTake (s : State) (w : Word) (r : TapRun) : TapRun :=
  let g := tapTarget w
  let ch := tapChan w
  if r.code = tapMute ∧ r.ramp = false then tapIn s ch g
  else if ch = r.chan then
    if r.code = g ∧ r.next = none then r else ⟨ch, g, true, none, tapNow s r, now s⟩
  else if r.next = some ch ∧ r.code = g then r
  else ⟨r.chan, g, true, some ch, tapNow s r, now s⟩

/-- The channel passes its modulator output to its taps (R210). -/
def tapLive (s : State) (ch : Nat) : Bool := (chan s ch).live && (active s).gov ch == ch

/-- A channel's taps follow its start (they ramp in) and its stop (they drop to 0 at once) (R210). A tap that is ramping out of its
old channel as that channel starts goes on by R208, from its present gain: the model's choice (log entry 187). A tap whose
old channel stops meanwhile has no signal to ramp out, and ramps in on its new channel at once (DESIGN CHOICE, log entry 205). -/
def tapFollow (before : State) (s : State) (t : Nat) : State :=
  let r := tapRun s t
  let was := tapLive before r.chan
  let is := tapLive s r.chan
  if was = is then s
  else if is then onTap t (fun r => if r.next.isSome then r else tapIn s r.chan r.code) s
  else match r.next with
    | some c => onTap t (fun r => tapIn s c r.code) s
    | none => onTap t (fun r => { r with ramp := false, src := 0, since := 0 }) s

/-- Every tap follows the channels' starts and stops since `before`. -/
def tapsFollow (before s : State) : State := (s.mr.taps.map (·.1)).foldl (tapFollow before) s

/-- The bus is assigned to a DAC channel (Table 6.11). -/
def ConfigSet.assigned (c : ConfigSet) (bus dac : Nat) : Bool :=
  if dac < 24 then bit (c.outMap bus 0) dac else decide (dac < 32) && bit (c.outMap bus 1) (dac - 24)

/-- Any bus assigned to the channel is in REPLACE (R209). -/
def ConfigSet.replaced (c : ConfigSet) (dac : Nat) : Bool :=
  (List.range 8).any (fun b => c.assigned b dac && bit (c.outMap b 1) 31)

/-- A level that ramps to 0 or to 1 (R209). -/
def levelNow (s : State) (r : Option LevelRamp) (one : Bool) : Nat :=
  match r with
  | some l => rampLevel tapRampLen (mrSamples s l.since) l.src (if one then levelOne else 0)
  | none => if one then levelOne else 0

/-- The level of bus `b` at DAC channel `d` under set `c`, and that of the channel's block-path signal. -/
def assignLevel (s : State) (c : ConfigSet) (b d : Nat) : Nat :=
  levelNow s (tget none s.mr.assignRamp (64 * b + d)) (c.assigned b d)
def blockLevel (s : State) (c : ConfigSet) (d : Nat) : Nat := levelNow s (tget none s.mr.blockRamp d) (!c.replaced d)

/-- Assignments and REPLACE states that changed ramp from where they stand (R209). -/
def assignDiff (o : ConfigSet) (s : State) : State :=
  let a := active s
  let pairs := (List.range 8).flatMap (fun b => (List.range 32).map (fun d => (b, d)))
  let ch := pairs.filter (fun p => o.assigned p.1 p.2 != a.assigned p.1 p.2)
  let bl := (List.range 32).filter (fun d => o.replaced d != a.replaced d)
  { s with mr := { s.mr with
      assignRamp := ch.foldl (fun t p => tput none t (64 * p.1 + p.2) (some ⟨assignLevel s o p.1 p.2, now s⟩)) s.mr.assignRamp
      blockRamp := bl.foldl (fun t d => tput none t d (some ⟨blockLevel s o d, now s⟩)) s.mr.blockRamp } }

/-- The millrace at a change of ACTIVE from `o` (R208, R209). -/
def mrDiff (o : ConfigSet) (s : State) : State :=
  let s := (List.range 64).foldl (fun s t =>
    if (tget dTap o.taps t) = (tget dTap (active s).taps t) then s
    else onTap t (tapTake s (tget dTap (active s).taps t)) s) s
  if o.outMaps = (active s).outMaps then s else assignDiff o s

/-- A level's ramp has passed its 4,096 samples. -/
def levelDone (s : State) (r : Option LevelRamp) : Bool :=
  match r with
  | some l => decide (tapRampLen ≤ mrSamples s l.since)
  | none => false

/-- TAP_RAMP_END (R208, R209): after 4,096 samples at the millrace rate. -/
def tapRampEnd (what : TapRamp) (s : State) : State :=
  match what with
  | .tap bus t =>
    let n := 8 * bus + t
    let r := tapRun s n
    if r.ramp = false ∨ 8 ≤ t ∨ mrSamples s r.since < tapRampLen then s
    else match r.next with
      | some c => onTap n (fun r => tapIn s c r.code) s
      | none => onTap n (fun r => { r with ramp := false, src := 0, since := 0 }) s
  | .assign bus dac =>
    if dac < 32 ∧ levelDone s (tget none s.mr.assignRamp (64 * bus + dac)) then
      { s with mr := { s.mr with assignRamp := tput none s.mr.assignRamp (64 * bus + dac) none } } else s
  | .block dac =>
    if levelDone s (tget none s.mr.blockRamp dac) then
      { s with mr := { s.mr with blockRamp := tput none s.mr.blockRamp dac none } } else s

/-! ## Values (R206, R209). They are not tagged samples and enter no memory (R17). -/

/-- The weight of the modulator sample `i` periods old in the order-2, ratio-8 CIC, whose gain is 64 (R206). -/
def cicWeight (i : Nat) : Int := if i < 8 then (i : Int) + 1 else 15 - i

/-- Eight modulator samples of channel `ch`, Q1.31, oldest first, pass the tap's CIC (R136, R206), whose output is rounded to a whole
Q1.31 code (DESIGN CHOICE, log entry 147). -/
def modStep (ch : Nat) (codes : List Int) (s : State) : State :=
  if modRuns s ch then
    onChan ch (fun c =>
      let m := (codes.reverse ++ c.mods).take 15
      { c with mods := m
               tap := roundDiv ((List.range 15).foldl (fun a i => a + cicWeight i * m.getD i 0) 0) 64 }) s
  else s

/-- What tap `t` of bus `b` contributes, in units of 2^−63: 0 unless its channel runs (R210). -/
def tapValue (s : State) (b t : Nat) : Int :=
  let r := tapRun s (8 * b + t)
  if tapLive s r.chan then (chan s r.chan).tap * tapNow s r else 0

/-- The sum of a bus, in units of 2^−63 (R206). -/
def busValue (s : State) (b : Nat) : Int := (List.range 8).foldl (fun a t => a + tapValue s b t) 0

/-- The buses at DAC channel `d`, in units of 2^−63 (R209): speakers take none. -/
def busesAt (s : State) (d : Nat) : Int :=
  if d < 32 then
    (List.range 8).foldl (fun a b => a + roundDiv (busValue s b * assignLevel s (active s) b d) levelOne) 0
  else 0

/-- The bus is active (R211). -/
def busActive (s : State) (b : Nat) : Bool :=
  let a := active s
  (List.range 8).any (fun t => tapTarget (a.tap b t) != tapMute && tapLive s (tapChan (a.tap b t)))
    && (List.range 32).any (fun d => a.assigned b d && bit (a.out d) 31)

/-- Write of a millrace item without its checks. -/
def writeMr (op : Nat) (a : CmdArgs) (c : ConfigSet) : ConfigSet :=
  let w := opnd a 0
  if op = 0x44 then { c with taps := tput dTap c.taps (8 * fld w 10 8 + fld w 2 0) (opnd a 1) }
  else { c with outMaps := tput 0 (tput 0 c.outMaps (2 * fld w 2 0) (opnd a 1)) (2 * fld w 2 0 + 1) (opnd a 2) }

def bodyMrTap (a : CmdArgs) (s : State) : Ans :=
  checks s
    [(resv (opnd a 0) 0x707 || resv (opnd a 1) 0x801F00FF, .unsupported),
     (!tapCodeOk ((opnd a 1).setWidth 8), .range)]
    (yes (writeItem 0x44 (some (if fam44 s then 10 else 3)) (writeMr 0x44 a) a s))

def rowMrTap : CmdRow := { op := 0x44, pS := true, pI := true, count := countIs 2, body := bodyMrTap }

def bodyMrOut (a : CmdArgs) (s : State) : Ans :=
  checks s
    [(resv (opnd a 0) 7 || resv (opnd a 1) 0x00FFFFFF || resv (opnd a 2) 0x800000FF, .unsupported)]
    (yes (writeItem 0x45 none (writeMr 0x45 a) a s))

def rowMrOut : CmdRow := { op := 0x45, pS := true, count := countIs 3, body := bodyMrOut }

end Sys2Proof.Machine
end

