-- ==== Sys2Proof/Machine/Outputs.lean ====
section
/-! DEFINITION. The outputs (R265–R285): the enable and disable sequences of Tables 8.3 to 8.5, charge pumps, the VCM node,
speaker protection, supply lockouts, and OUT.CFG. A DAC channel is 0–23 LOUT, 24–31 HP (24 + 2n is HPnL), 32–33 SPK. -/

namespace Sys2Proof.Machine

def dac (s : State) (d : Nat) : Dac := tget {} s.outs.dacs d

def onDac (d : Nat) (f : Dac → Dac) (s : State) : State :=
  { s with outs := { s.outs with dacs := tmod {} s.outs.dacs d f } }

def pump (s : State) (n : Nat) : Pump := tget {} s.outs.pumps n

def onPump (n : Nat) (f : Pump → Pump) (s : State) : State :=
  { s with outs := { s.outs with pumps := tmod {} s.outs.pumps n f } }

/-- Headphone channels 24–31, and the pair or jack of one. -/
def isHp (d : Nat) : Bool := decide (24 ≤ d ∧ d < 32)
def isSpk (d : Nat) : Bool := decide (32 ≤ d ∧ d < 34)
def pairOf (d : Nat) : Nat := (d - 24) / 2

/-- A sequence time in the family in use (R269). -/
def seqTime (s : State) (ns : Nat) : Nat := if fam44 s then ns * 160 / 147 else ns

/-- The output is enabled in ACTIVE. -/
def ConfigSet.outEn (c : ConfigSet) (d : Nat) : Bool := bit (c.out d) 31
def ConfigSet.outRateCode (c : ConfigSet) (d : Nat) : Nat := fld (c.out d) 23 20

/-- A sleep entry has passed its query: no output leaves its clamp any more (R268, R283). -/
def entryHeld (s : State) : Bool := match s.power.entry with | some e => e.queried | none => false

/-- Something keeps the output's clamp engaged at a start event (R268, R278, R412, Table 8.5); a speaker's too while SPKVDD is below its
limit (Table 14.8). -/
def startHeld (s : State) (d : Nat) : Bool :=
  s.panic.latch || s.power.padsHeld || !running s || inSafe s || entryHeld s || (dac s d).lockout || (dac s d).pause != 0
    || (isSpk d && !s.power.spkvdd)
    || (isHp d && ((tget {} s.jack.run (pairOf d)).muted || (tget {} s.jack.run (pairOf d)).step != .none))

/-- Final-stage steps since time `t`, at 3.072 MS/s or 2.8224 MS/s (R267). -/
def finalSteps (s : State) (t : Nat) : Nat := mrSamples s t

/-- g_out of an output as it stands, in units of 2^−32 (R267). -/
def gNow (s : State) (x : Dac) : Nat :=
  match x.g with
  | .zero => 0
  | .one => levelOne
  | .rising => rampLevel x.gLen (finalSteps s x.gAt) x.gFrom levelOne
  | .falling => rampLevel x.gLen (finalSteps s x.gAt) x.gFrom 0

/-- Steps of a mute ramp, of the holdover mute's ramp (2 ms), and of a starvation fade (R267, R271, R280). -/
def muteSteps : Nat := 12288
def holdSteps (s : State) : Nat := ceilDiv (2 * (masterHz s / 8)) 1000
def fadeSteps : Nat := 3072

/-- The mute ramp's way down from where g_out stands. -/
def gFall (n : Nat) (s : State) (x : Dac) : Dac :=
  if x.g = .zero then x else { x with g := .falling, gFrom := gNow s x, gAt := now s, gLen := n }

/-- The level of the starvation fade, in units of 2^−32 (R271). -/
def starveNow (s : State) (x : Dac) : Nat :=
  match x.starve with
  | .none => levelOne
  | .silent => 0
  | .fadeOut => rampLevel fadeSteps (finalSteps s x.sAt) x.sFrom 0
  | .fadeIn => rampLevel fadeSteps (finalSteps s x.sAt) x.sFrom levelOne

/-- PLLA's holdover mute holds g_out at 0 (R280). -/
def gHeld (s : State) : Bool := s.clk.a.st == .holdoverMuted || s.clk.restart

/-- The clamp releases and the unmute ramp starts from where g_out stands, held at 0 by a holdover mute. -/
def unmute (d : Nat) (s : State) : State :=
  let g := if gHeld s then GOut.zero else .rising
  onDac d (fun x => { x with
    phase := .unmuting, clamp := false, g := g, since := now s, gFrom := gNow s x, gAt := now s, gLen := muteSteps
    stopped := false }) s

/-- Table 8.3 from t = 0 on a clamped output; its interpolator runs from then on. -/
def sequenceStart (d : Nat) (s : State) : State :=
  if isHp d then
    let n := pairOf d
    if (pump s n).on then
      onDac d (fun x => { x with phase := if (pump s n).up then .servo else .pumpStart, since := now s, stopped := false }) s
    else
      onPump n (fun _ => { on := true, since := now s })
        (onDac d (fun x => { x with phase := .pumpStart, since := now s, stopped := false }) s)
  else if isSpk d then
    onDac d (fun x => { x with phase := .spkStart, clamp := false, since := now s, stopped := false }) s
  else if s.outs.vcm = .on then unmute d s
  else onDac d (fun x => { x with phase := .waitVcm, since := now s }) s

/-- A start event of R278 at output `d`. -/
def startEvent (d : Nat) (s : State) : State :=
  if (active s).outEn d = false ∨ startHeld s d then
    if isHp d ∧ (active s).outEn d ∧ s.power.hpvdd = false then onDac d (fun x => { x with lockout := true }) s else s
  else match (dac s d).phase with
    | .clamped => if isHp d ∧ s.power.hpvdd = false then onDac d (fun x => { x with lockout := true }) s
                  else sequenceStart d s
    | .muting => unmute d s
    | .waitVcm | .pumpStart | .servo | .spkStart | .unmuting | .playing | .probing => s

/-- The interpolator stops and clears its history (Table 8.4). -/
def Dac.halt (x : Dac) : Dac := { x with stopped := true, hist := [], starve := .none, path := 0 }

/-- A stop event of R279 at output `d` (Tables 8.4, 8.5). -/
def stopEvent (d : Nat) (s : State) : State :=
  match (dac s d).phase with
  | .waitVcm | .pumpStart | .servo =>
    onDac d (fun x => { x.halt with phase := .clamped, clamp := true, g := .zero, since := now s }) s
  | .spkStart | .unmuting | .playing =>
    onDac d (fun x => { gFall muteSteps s x with phase := .muting, since := now s }) s
  | .clamped => onDac d Dac.halt s
  | .muting | .probing => s

/-- The clamp engages at once with g_out = 0 behind it (R280). The interpolator and a starvation fade run on (R271). -/
def clampNow (d : Nat) (s : State) : State :=
  onDac d (fun x => { x with phase := .clamped, clamp := true, g := .zero, level := 0,
                             since := if x.phase = .clamped then x.since else now s }) s

def clampAll (s : State) : State := (List.range 34).foldl (fun s d => clampNow d s) s

/-- A start event at every output. -/
def startAll (s : State) : State := (List.range 34).foldl (fun s d => startEvent d s) s

/-- A stop event at every output. -/
def stopAll (s : State) : State := (List.range 34).foldl (fun s d => stopEvent d s) s

/-- The outputs of jack `n`. -/
def startJack (n : Nat) (s : State) : State := startEvent (25 + 2 * n) (startEvent (24 + 2 * n) s)
def stopJack (n : Nat) (s : State) : State := stopEvent (25 + 2 * n) (stopEvent (24 + 2 * n) s)
def clampJack (n : Nat) (s : State) : State := clampNow (25 + 2 * n) (clampNow (24 + 2 * n) s)

/-- An output sequence of Table 8.3 or 8.4, or a starvation fade, runs (R283). -/
def outSequence (s : State) : Bool :=
  (List.range 34).any (fun d =>
    let x := dac s d
    (match x.phase with | .clamped | .playing | .probing => false | _ => true)
      || (match x.starve with | .fadeOut | .fadeIn => true | _ => false))

/-- Every output is clamped. -/
def allClamped (s : State) : Bool := (List.range 34).all (fun d => (dac s d).clamp && (dac s d).phase == .clamped)

/-- CLASSG of pair `n` is HIGH in ACTIVE (R274). -/
def classHigh (s : State) (n : Nat) : Bool := bit ((active s).out (24 + 2 * n)) 16

/-- One output at a change of ACTIVE from `o` (R272, R278, R279, Table 8.5). -/
def outDiffOne (o : ConfigSet) (s : State) (d : Nat) : State :=
  let a := active s
  let s := if isHp d ∧ d % 2 = 0 ∧ classHigh s (pairOf d) ∧ (pump s (pairOf d)).up then
      onPump (pairOf d) (fun p => { p with high := true }) s else s
  if o.outEn d ∧ a.outEn d = false then stopEvent d (onDac d (fun x => { x with lockout := false }) s)
  else if o.outEn d = false ∧ a.outEn d then startEvent d s
  else if a.outEn d ∧ o.outRateCode d ≠ a.outRateCode d then onDac d (fun x => { x with starve := .none, hist := [] }) s
  else s

def outDiff (o : ConfigSet) (s : State) : State := (List.range 34).foldl (outDiffOne o) s

/-! ## Steps of the sequences -/

/-- PUMP_SOFT_START_DONE (R273, R278): at 0.5 ms the pump is up and the waiting outputs' servos trim. -/
def pumpSoftStartDone (n : Nat) (s : State) : State :=
  let p := pump s n
  if n < 4 ∧ p.on ∧ p.up = false ∧ seqTime s 500000 ≤ since s p.since then
    let s1 := onPump n (fun p => { p with up := true, high := classHigh s n }) s
    [24 + 2 * n, 25 + 2 * n].foldl (fun s d =>
      if (dac s d).phase = .pumpStart then onDac d (fun x => { x with phase := .servo, since := now s }) s else s) s1
  else s

/-- A margin in whole percent, clamped to 0–100 and rounded down (R442): 100 × num / den. -/
def pctMargin (num : Int) (den : Nat) : Nat := (clampInt 0 100 (Int.fdiv (100 * num) den)).toNat

/-- MH (Table 13.7): 100 × (1 − |trim| / 18 mV) of the largest headphone trim. -/
def headphoneMargin (s : State) : Nat :=
  let t := ((List.range 8).map (fun i => (dac s (24 + i)).trim.natAbs)).foldl max 0
  pctMargin (18000 - t) 18000

/-- SERVO_DONE (R275, R278): 2.0 ms after the pump is up; the trim is recorded, the clamp releases, the ramp starts. -/
def servoDone (d : Nat) (trim : Int) (s : State) : State :=
  if (dac s d).phase = .servo ∧ seqTime s 2000000 ≤ since s (dac s d).since then
    let s1 := onDac d (fun x => { x with trim := trim }) s
    unmute d { s1 with margin := { s1.margin with mh := headphoneMargin s1 } }
  else s

/-- SPEAKER_UNMUTE_START (R278): 1.0 ms after switching starts. -/
def speakerUnmuteStart (d : Nat) (s : State) : State :=
  if (dac s d).phase = .spkStart ∧ seqTime s 1000000 ≤ since s (dac s d).since then unmute d s else s

/-- UNMUTE_RAMP_END (R267): after one mute-ramp length g_out is 1. -/
def unmuteRampEnd (d : Nat) (s : State) : State :=
  let x := dac s d
  if x.phase = .unmuting ∧ x.g = .rising ∧ seqTime s 4000000 ≤ since s x.since then
    onDac d (fun x => { x with phase := .playing, g := .one }) s
  else s

/-- A mute ramp still runs. -/
def muting (s : State) : Bool := (List.range 34).any (fun d => (dac s d).phase == .muting)

/-- In reset the VCM node is at 0 V and the pumps are off, once the outputs have left sound (R390, Table 14.4). -/
def resetRest (s : State) : State :=
  if s.power.st = .reset ∧ muting s = false then { s with outs := { s.outs with vcm := .zero, pumps := [] } } else s

/-- MUTE_RAMP_END (R279): at 4.0 ms g_out is 0, the clamp engages, and the interpolator stops and clears. -/
def muteRampEnd (d : Nat) (s : State) : State :=
  let x := dac s d
  if x.phase = .muting ∧ seqTime s 4000000 ≤ since s x.since then resetRest (onDac d Dac.halt (clampNow d s)) else s

/-- PUMP_STOP (R273): 10 ms after both outputs of the pair are clamped. -/
def pumpStop (n : Nat) (s : State) : State :=
  let rest (d : Nat) : Bool := (dac s d).phase == .clamped && decide (seqTime s 10000000 ≤ since s (dac s d).since)
  if n < 4 ∧ (pump s n).on ∧ rest (24 + 2 * n) ∧ rest (25 + 2 * n) then onPump n (fun _ => {}) s else s

/-- The VCM node begins a ramp (R283). -/
def vcmRamp (v : Vcm) (s : State) : State := { s with outs := { s.outs with vcm := v, vcmAt := now s } }

/-- The VCM node returns to its level where a sleep entry has let it down (R283, Table 11.6). -/
def vcmReturn (s : State) : State :=
  match s.outs.vcm with
  | .rampDown | .zero => vcmRamp .rampUp s
  | .on | .rampUp => s

/-- VCM_RAMP_END (R278, R283): after 40 ms; outputs that waited for it run Table 8.3. -/
def vcmRampEnd (s : State) : State :=
  if 40 * msec ≤ since s s.outs.vcmAt then
    match s.outs.vcm with
    | .rampDown => { s with outs := { s.outs with vcm := .zero } }
    | .rampUp =>
      (List.range 34).foldl (fun s d => if (dac s d).phase = .waitVcm then sequenceStart d s else s)
        { s with outs := { s.outs with vcm := .on } }
    | .zero | .on => s
  else s

/-- The larger of |L| and |R| of pair `n` at the DAC modulator input (R274). -/
def pairLevel (s : State) (n : Nat) : Nat := max (dac s (24 + 2 * n)).level.natAbs (dac s (25 + 2 * n)).level.natAbs

/-- −12 dBFS and −15 dBFS, as the largest values not above them. -/
def level12 : Nat := 539423503
def level15 : Nat := 381882595

/-- CLASSG_SWITCH_HIGH (R274): the level exceeds −12 dBFS. -/
def classgHigh (n : Nat) (s : State) : State :=
  if (pump s n).up ∧ classHigh s n = false ∧ level12 < pairLevel s n then onPump n (fun p => { p with high := true }) s else s

/-- CLASSG_SWITCH_LOW (R274): the level has stayed below −15 dBFS for 100 ms. -/
def classgLow (n : Nat) (s : State) : State :=
  if (pump s n).up ∧ classHigh s n = false ∧ pairLevel s n ≤ level15 ∧ 100 * msec ≤ since s (pump s n).loudAt then
    onPump n (fun p => { p with high := false }) s
  else s

/-- The block path's value before its levels (R209, R270): the interpolator's output, or in a fade out the last value it gave, which
the fade takes to 0 (R271). -/
def pathValue (s : State) (d phase : Nat) : Int :=
  let x := dac s d
  match x.starve with
  | .fadeOut | .silent => x.path
  | .none | .fadeIn => if x.hist.isEmpty then 0 else Config.interp (rateHz ((active s).outRateCode d)) phase x.hist

/-- The block-path signal at the final stage, in units of 2^−63 (R209, R271). -/
def blockValue (s : State) (d phase : Nat) : Int :=
  roundDiv (pathValue s d phase * starveNow s (dac s d) * blockLevel s (active s) d) levelOne

/-- A step of the final stage (R209, R267, R274): block path and buses add and saturate, g_out multiplies. Rounding is to nearest
at each of the two (log entry 147). -/
def finalStep (d phase : Nat) (s : State) : State :=
  let sum := satQ31 (roundDiv (blockValue s d phase + busesAt s d) levelOne)
  let v := roundDiv (sum * gNow s (dac s d)) levelOne
  let s1 := onDac d (fun x => { x with level := v, path := pathValue s d phase }) s
  if isHp d ∧ level15 < v.natAbs then onPump (pairOf d) (fun p => { p with loudAt := now s }) s1 else s1

/-- STARVATION_FADE_END (R271): after its 3,072 final-stage steps. -/
def starvationFadeEnd (d : Nat) (s : State) : State :=
  if finalSteps s (dac s d).sAt < fadeSteps then s
  else match (dac s d).starve with
  | .fadeOut => onDac d (fun x => { x with starve := .silent }) s
  | .fadeIn => onDac d (fun x => { x with starve := .none }) s
  | .none | .silent => s

/-- The fade starts from where it stands. -/
def fadeTo (v : Starve) (s : State) (x : Dac) : Dac := { x with starve := v, sFrom := starveNow s x, sAt := now s }

/-- The egress FIFO of an enabled DAC channel runs empty: a starvation fade starts (R271). -/
def starveStart (d : Nat) (s : State) : State :=
  match (dac s d).starve with
  | .none | .fadeIn => if (active s).outEn d then onDac d (fadeTo .fadeOut s) s else s
  | .fadeOut | .silent => s

/-- Samples return: the interpolator clears its history and the block path fades in from the present level (R271). -/
def starveEnd (d : Nat) (s : State) : State :=
  match (dac s d).starve with
  | .fadeOut | .silent => onDac d (fun x => { fadeTo .fadeIn s x with hist := [] }) s
  | .none | .fadeIn => s

/-! ## Speaker protection and supplies (Table 8.5, Table 14.8) -/

/-- SPEAKER_OVERCURRENT (R281): legs low, g_out = 0, and the entry; the third trip within 1 s locks the channel out. -/
def speakerOvercurrent (k : Nat) (s : State) : State :=
  let d := 32 + k
  if k < 2 ∧ (dac s d).clamp = false then
    let trips := now s :: (dac s d).trips.filter (fun t => decide (now s - t < sec1))
    let out := decide (3 ≤ trips.length)
    logFault 0x0A k (toWord k) (toWord trips.length)
      (onDac d (fun x => { x with trips := trips, lockout := x.lockout || out, pause := x.pause ||| 1 }) (clampNow d s))
  else s

/-- SPEAKER_TRIP_RESTART (R281): 100 ms after the trip. -/
def speakerTripRestart (k : Nat) (s : State) : State :=
  let d := 32 + k
  let x := dac s d
  if k < 2 ∧ x.pause.getLsbD 0 ∧ 100 * msec ≤ since s x.since then
    startEvent d (onDac d (fun x => { x with pause := x.pause &&& 6 }) s)
  else s

/-- Trips of a speaker within the last second. -/
def tripsNow (s : State) (d : Nat) : Nat := ((dac s d).trips.filter (fun t => decide (now s - t < sec1))).length

/-- SPEAKER_OVERTEMP (R281): SN24 at or above 140 °C; each speaker channel runs Table 8.4 and logs its trip. -/
def speakerOvertemp (code : Nat) (s : State) : State :=
  if 3264 ≤ code ∧ (dac s 32).pause.getLsbD 1 = false then
    [0, 1].foldl (fun s k =>
      logFault 0x0A k (toWord (256 + k)) (toWord (tripsNow s (32 + k)))
        (stopEvent (32 + k) (onDac (32 + k) (fun x => { x with pause := x.pause ||| 2 }) s))) s
  else s

/-- SPEAKER_TEMP_RECOVER (R281): SN24 below 120 °C. -/
def speakerTempRecover (code : Nat) (s : State) : State :=
  if code < 2944 ∧ (dac s 32).pause.getLsbD 1 then
    [32, 33].foldl (fun s d => startEvent d (onDac d (fun x => { x with pause := x.pause &&& 5 }) s)) s
  else s

/-! ## OUT.CFG (R284, R285) -/

def writeOut (a : CmdArgs) (c : ConfigSet) : ConfigSet :=
  { c with outCfg := tput dOut c.outCfg (opnd a 0).toNat (opnd a 1) }

/-- The limits of R284. -/
def outBad (d : Nat) (w : Word) : Bool :=
  let r := fld w 23 20
  decide (33 < d) || rateTop r || r == 15 || (isSpk d && decide (96000 < rateHz r))
    || (bit w 16 && !(isHp d && d % 2 == 0)) || (bit w 12 && !isSpk d)

def bodyOutCfg (a : CmdArgs) (s : State) : Ans :=
  let d := (opnd a 0).toNat
  let w := opnd a 1
  checks s
    [(resv (opnd a 0) 0x3F || resv w 0x80F11000, .unsupported),
     (outBad d w || (a.imm && !rateInUse s (fld w 23 20)), .range)]
    (yes (writeItem 0x60 (some ((active s).outRateCode d)) (writeOut a) a s))

def rowOutCfg : CmdRow := { op := 0x60, pS := true, pI := true, count := countIs 2, body := bodyOutCfg }

/-- SWAP's output check (R285). -/
def outSwap (s : State) (c : ConfigSet) : Option Status :=
  if (List.range 34).any (fun d => c.outEn d && !rateInUse s (c.outRateCode d)) then some .range else none

end Sys2Proof.Machine
end

