-- ==== Sys2Proof/Machine/Sense.lean ====
section
/-! DEFINITION. The sense converter (R299–R314): sequences, the watch scan, urgent requests, and the SENSE commands. -/

namespace Sys2Proof.Machine

/-- PERI runs, so sequences and the scan run: RUN or DOZE with PLLB clocking (R302, R304, Table 8.16). -/
def senseOn (s : State) : Bool :=
  (running s || s.power.st == .doze) && !pllbUnlocked s

/-- The effective mask of the watch scan (R304). -/
def watchMask (s : State) : Word :=
  s.sense.hostMask ||| 0x01C00000 ||| (if s.margin.running then 0x0E000000 else 0)

/-- The lowest channel of a mask. -/
def lowest (m : Word) : Nat := ((bitsOf m).head?).getD 0

/-- Write a result (Table 8.17). -/
def senseResult (ch src gain code : Nat) (s : State) : State :=
  let old := tget 0 s.sense.results ch
  let w := toWord (((fld old 31 16 + 1) % 65536) * 65536 + src * 16384 + gain * 4096 + code % 4096)
  { s with sense := { s.sense with results := tput 0 s.sense.results ch w } }

/-- An urgent request arrives: is it dropped (R306)? A watch conversion phase that a sequence waits for is a conversion; else a
free bit says which phase the request meets. -/
def urgentMeets (s : State) : Bool × State :=
  if s.sense.urgent || s.sense.watchTail then (true, s)
  else if s.sense.idx.isSome || senseOn s then
    let (w, s1) := drawWord s
    (bit w 0, s1)
  else (false, s)

/-- A request is dropped and counted (Table 8.18). -/
def dropUrgent (s : State) : State := { s with sense := { s.sense with drops := min 65535 (s.sense.drops + 1) } }

/-- A detection-initiated read (R314): none when it is dropped. Its result stands, and is acted on, at the read's own row (DESIGN CHOICE, log
entry 207). -/
def detectionRead (ch gain code : Nat) (s : State) : Bool × State :=
  let (hit, s1) := urgentMeets s
  if hit then (false, dropUrgent s1)
  else (true, senseResult ch 3 gain code { s1 with sense := { s1.sense with urgent := true } })

/-- URGENT_CONVERSION_COMPLETE (R306). -/
def urgentComplete (s : State) : State := { s with sense := { s.sense with urgent := false } }

/-- The scan's channel: the one it is at, or the lowest of a new scan's mask. -/
def scanAt (s : State) : Nat × Word :=
  match s.sense.scanCh with
  | some c => (c, s.sense.scanMask)
  | none => (lowest (watchMask s), watchMask s)

/-- A scan that runs holds its channel and its mask (R304). -/
def scanHold (s : State) : State :=
  if senseOn s then { s with sense := { s.sense with scanCh := some (scanAt s).1, scanMask := (scanAt s).2 } } else s

/-- A sequence starts (R302, R305): a watch conversion phase in progress completes first, a sampling phase is abandoned. -/
def sequenceStartSense (s : State) : State :=
  let (w, s1) := drawWord (scanHold s)
  { s1 with sense := { s1.sense with idx := some 0, watchTail := bit w 0 && senseOn s1 && !s1.sense.urgent } }

/-- SENSE_TRIG_EDGE (R302, Table 8.16), ignored behind held pads and without IOVDD_A (Tables 11.7, 14.8). An edge that EDGE does not select neither starts a sequence nor counts in TRIG_MISSES: the
model's choice where Table 8.16 says 'SENSE_TRIG edge' alone (log entry 174). -/
def senseTrigEdge (rising : Bool) (s : State) : State :=
  if senseOn s ∧ s.power.padsHeld = false ∧ s.power.iovddA ∧ s.sense.edge.getLsbD (if rising then 0 else 1) then
    if s.sense.idx.isSome then { s with sense := { s.sense with misses := min 255 (s.sense.misses + 1) } }
    else if s.sense.seq.isEmpty then s
    else sequenceStartSense s
  else s

/-- SEQUENCE_ENTRY_COMPLETE (R302). -/
def sequenceEntryComplete (code : Nat) (s : State) : State :=
  match s.sense.idx with
  | none => s
  | some i =>
    if senseOn s ∧ s.sense.urgent = false ∧ s.sense.watchTail = false then
      let e := s.sense.seq.getD i 0
      let s1 := senseResult (fld e 4 0) 0 (fld e 13 12) code s
      if i + 1 < s.sense.seq.length then { s1 with sense := { s1.sense with idx := some (i + 1) } }
      else raiseIrq irqSense { s1 with sense := { s1.sense with idx := none } }
    else s

/-- WATCH_CONVERSION (R304, R305). -/
def watchConversion (code : Nat) (s : State) : State :=
  if senseOn s ∧ s.sense.urgent = false ∧ (s.sense.idx = none ∨ s.sense.watchTail) then
    let (ch, mask) := scanAt s
    let s1 := senseResult ch 2 0 code s
    match (bitsOf mask).find? (fun c => decide (ch < c)) with
    | some c => { s1 with sense := { s1.sense with scanCh := some c, scanMask := mask, watchTail := false } }
    | none => { s1 with sense := { s1.sense with
                  scanCh := some (lowest (watchMask s)), scanMask := watchMask s, watchTail := false } }
  else s

/-- PERI stops, or a state that stops the converter is entered (R304, Table 8.16). -/
def senseStop (s : State) : State :=
  { s with sense := { s.sense with
      aborted := s.sense.aborted || s.sense.idx.isSome, idx := none, watchTail := false, scanCh := none } }

/-! ## Commands (R309–R313) -/

/-- A reserved bit or encoding of an entry word (Table 8.15). -/
def entryResv (w : Word) : Bool := resv w 0x371F || fld w 13 12 == 3

/-- Channels 16 to 31 report RANGE. -/
def entryRange (w : Word) : Bool := bit w 4

def bodySenseSeq (a : CmdArgs) (s : State) : Ans :=
  let es := a.ops.drop 1
  checks s
    [(resv (opnd a 0) 3 || es.any entryResv, .unsupported),
     (es.any entryRange, .range),
     (s.sense.idx.isSome, .busy)]
    (yes { s with sense := { s.sense with edge := (opnd a 0).setWidth 2, seq := es } })

def rowSenseSeq : CmdRow :=
  { op := 0x63, count := fun a => decide (2 ≤ a.ops.length ∧ a.ops.length ≤ 17), body := bodySenseSeq }

def bodySenseStart (_a : CmdArgs) (s : State) : Ans :=
  checks s [(s.sense.idx.isSome, .busy), (s.sense.seq.isEmpty, .refused)] (yes (sequenceStartSense s))

def rowSenseStart : CmdRow := { op := 0x64, count := countIs 0, body := bodySenseStart }

/-- SENSE.NOW (R306, R310): the conversion completes within the command; the code converted is a free value (log entry 23). -/
def bodySenseNow (a : CmdArgs) (s : State) : Ans :=
  let e := opnd a 0
  checks s
    [(entryResv e, .unsupported), (entryRange e, .range)]
    (let (hit, s1) := urgentMeets s
     if hit then ⟨.busy, dropUrgent s1, []⟩
     else
       let (w, s2) := drawWord s1
       let s3 := senseResult (fld e 4 0) 1 (fld e 13 12) (fld w 11 0) s2
       yes s3 [tget 0 s3.sense.results (fld e 4 0)])

def rowSenseNow : CmdRow := { op := 0x65, count := countIs 1, maxRes := fun _ _ => 1, body := bodySenseNow }

def bodySenseWatch (a : CmdArgs) (s : State) : Ans :=
  checks s [(resv (opnd a 0) 0x0FFF0000, .unsupported)]
    (let s0 := scanHold s
     let s1 := { s0 with sense := { s0.sense with hostMask := opnd a 0 } }
     yes s1 [watchMask s1])

def rowSenseWatch : CmdRow := { op := 0x66, count := countIs 1, maxRes := fun _ _ => 1, body := bodySenseWatch }

end Sys2Proof.Machine
end

