-- ==== Sys2Proof/Machine/Jacks.lean ====
section
/-! DEFINITION. Jacks (R286–R298): detection, classification, buttons, the jack mute, MICBIAS; and the emergency mute (R214–R216,
R223), which shares the outputs' clamps. -/

namespace Sys2Proof.Machine

def jackWord (s : State) (n : Nat) : JackWord := tget {} s.jack.words n
def jackRun (s : State) (n : Nat) : JackRun := tget {} s.jack.run n

def onJack (n : Nat) (f : JackRun → JackRun) (s : State) : State :=
  { s with jack := { s.jack with run := tmod {} s.jack.run n f } }

/-- Fields of a jack word (Table 8.12). -/
def JackWord.en (w : JackWord) : Bool := bit w.w0 31
def JackWord.inv (w : JackWord) : Bool := bit w.w0 30
def JackWord.amute (w : JackWord) : Bool := bit w.w0 29
def JackWord.aunmute (w : JackWord) : Bool := bit w.w0 28
def JackWord.btn (w : JackWord) : Bool := bit w.w0 27

/-- The comparator indicates presence (R287). -/
def plugSeen (s : State) (n : Nat) : Bool := (jackRun s n).pin == (jackWord s n).inv

/-- CLASS codes (Table 8.11). -/
def clsNone : BitVec 3 := 0
def cls3P : BitVec 3 := 1
def clsCtia : BitVec 3 := 2
def clsOmtp : BitVec 3 := 3
def clsLine : BitVec 3 := 4
def clsUnknown : BitVec 3 := 5
def clsRuns : BitVec 3 := 6

/-- A jack event: JACK in RUN, held in AON in a sleep state (R383). -/
def jackEvent (s : State) : State :=
  if running s then raiseIrq irqJack s else { s with power := { s.power with heldJack := true } }

/-- Classification and buttons run in this state (Table 8.6). -/
def jackAwake (s : State) : Bool := running s || s.power.st == .doze || s.power.st == .nap

/-- An entry to REST or HIBERNATE has passed its query: classification is abandoned (Table 8.10). -/
def classEnds (s : State) : Bool :=
  match s.power.entry with
  | some e => e.queried && (e.target == 5 || e.target == 6)
  | none => false

/-- Nothing holds classification back (R289). -/
def classifyFree (s : State) : Bool :=
  jackAwake s && !s.panic.latch && !(s.power.padsHeld && running s) && !classEnds s

/-- Release the jack mute and start the jack's outputs (R294). -/
def unmuteJack (n : Nat) (s : State) : State :=
  startJack n (onJack n (fun j => { j with muted := false, removing := false }) s)

/-- HPDET_CHANGE (R288, R294): the count restarts; with AMUTE the first indication of removal mutes. -/
def hpdetChange (n : Nat) (level : Bool) (s : State) : State :=
  if 4 ≤ n ∨ (jackRun s n).pin = level then s
  else
    let s1 := onJack n (fun j => { j with pin := level, since := now s }) s
    let w := jackWord s n
    if w.en ∧ w.amute ∧ plugSeen s1 n = false ∧ (jackRun s n).present ∧ (jackRun s n).muted = false then
      stopJack n (onJack n (fun j => { j with muted := true, removing := true, muteAt := now s }) s1)
    else s1

/-- JACK_MUTE_AUTO_RELEASE (R294): the removal is not confirmed within 8 ms. -/
def jackMuteAutoRelease (n : Nat) (s : State) : State :=
  let j := jackRun s n
  if j.muted ∧ j.removing ∧
      (plugSeen s n ∨ (8 * msec ≤ since s j.muteAt ∧ since s j.since < 8 * msec)) then unmuteJack n s
  else s

/-- Debounce times: continuous in RUN, DOZE and NAP, sampled below (R288). -/
def debounceIn (s : State) : Nat := if jackAwake s then 50 * msec else 40 * msec
def debounceOut (s : State) : Nat := if jackAwake s then 8 * msec else 10 * msec

/-- INSERTION_CONFIRMED (R288, R289). In REST and HIBERNATE it is held in AON. -/
def insertionConfirmed (n : Nat) (s : State) : State :=
  let j := jackRun s n
  if (jackWord s n).en ∧ n < 4 ∧ plugSeen s n ∧ j.present = false ∧ debounceIn s ≤ since s j.since then
    if jackAwake s then
      let s1 := onJack n (fun j => { j with present := true, cls := clsRuns, step := .waiting }) s
      if running s then s1 else { s1 with power := { s1.power with heldJack := true } }
    else jackEvent (onJack n (fun j => { j with present := true, cls := clsNone }) s)
  else s

/-- Classification is abandoned: probe off, clamps engaged (Table 8.10). -/
def abandonClass (n : Nat) (s : State) : State :=
  let s1 := [24 + 2 * n, 25 + 2 * n].foldl (fun s d => if (dac s d).phase = .probing then clampNow d s else s) s
  onJack n (fun j => { j with step := .none, dropped := false, orient := .idle }) s1

/-- Every running classification is abandoned and waits to run again (Table 8.10, R289). -/
def holdClass (s : State) : State :=
  (List.range 4).foldl (fun s n =>
    match (jackRun s n).step with
    | .tip | .micA | .micB => onJack n (fun j => { j with step := .waiting }) (abandonClass n s)
    | .none | .waiting => s) s

/-- REMOVAL_CONFIRMED (R291, Table 8.10). -/
def removalConfirmed (n : Nat) (s : State) : State :=
  let j := jackRun s n
  if (jackWord s n).en ∧ plugSeen s n = false ∧ j.present ∧ debounceOut s ≤ since s j.since then
    jackEvent (onJack n (fun j => { j with present := false, cls := clsNone, removing := false, win := 4, cnt := 0 })
      (abandonClass n s))
  else s

/-- CLASSIFICATION_START (R289): unclamped outputs first run Table 8.4; then the probe is on. A supply lockout keeps the
clamp (Table 14.8). -/
def classificationStart (n : Nat) (s : State) : State :=
  if (jackRun s n).step = .waiting ∧ classifyFree s then
    let s1 := stopJack n s
    if (dac s1 (24 + 2 * n)).phase = .clamped ∧ (dac s1 (25 + 2 * n)).phase = .clamped then
      let probe (d : Nat) (s : State) : State :=
        onDac d (fun x => { x with phase := .probing, clamp := x.lockout || !s.power.hpvdd }) s
      onJack n (fun j => { j with step := .tip, stepAt := now s, dropped := false, orient := .idle, cls := clsRuns })
        (probe (24 + 2 * n) (probe (25 + 2 * n) s1))
    else s1
  else s

/-- Classification ends with a class and its orientation (Tables 8.8, 8.9). -/
def classEnd (n : Nat) (cls : BitVec 3) (s : State) : State :=
  let o : Orient := if cls = clsCtia then .ctia else if cls = clsOmtp then .omtp else .grounded
  let s1 := jackEvent (onJack n (fun j => { j with cls := cls, orient := o, step := .none, dropped := false,
                                                    win := 4, cnt := 0 }) (abandonClass n s))
  let frees := (jackWord s n).aunmute && (cls == cls3P || cls == clsCtia || cls == clsOmtp)
  if (jackRun s n).muted ∧ frees then unmuteJack n s1 else startJack n s1

/-- A read of the present step was dropped (R314). -/
def readDropped (n : Nat) (s : State) : State :=
  onJack n (fun j => { j with dropped := true, stepAt := if j.dropped then j.stepAt else now s, tryAt := now s }) s

/-- The tip read succeeded (Tables 8.8, 8.9). -/
def tipDone (n code : Nat) (s : State) : State :=
  let s1 := clampJack n s
  if 2730 < code then classEnd n clsLine s1
  else if 546 ≤ code then classEnd n clsUnknown s1
  else onJack n (fun j => { j with orient := .ctia, step := .micA, stepAt := now s, dropped := false }) s1

/-- Mic read A succeeded. -/
def micADone (n code : Nat) (s : State) : State :=
  onJack n (fun j => { j with micA := code, orient := .omtp, step := .micB, stepAt := now s, dropped := false }) s

/-- The mic window (R290). -/
def micWindow (code : Nat) : Bool := decide (1502 ≤ code ∧ code ≤ 3413)

/-- The class of the mic reads (Table 8.9). -/
def micClass (a b : Nat) : BitVec 3 :=
  if micWindow a then clsCtia else if micWindow b then clsOmtp
  else if a < 137 ∧ b < 137 then cls3P else clsUnknown

/-- A classification read of step `st` by the sense converter (Table 8.8). -/
def classRead (n code : Nat) (s : State) : State :=
  match (jackRun s n).step with
  | .tip => let r := detectionRead n 2 code s; if r.1 then tipDone n code r.2 else readDropped n r.2
  | .micA => let r := detectionRead (4 + n) 0 code s; if r.1 then micADone n code r.2 else readDropped n r.2
  | .micB =>
    let r := detectionRead (4 + n) 0 code s
    if r.1 then classEnd n (micClass (jackRun s n).micA code) r.2 else readDropped n r.2
  | .none | .waiting => s

/-- The read of step `st` is due `ns` after the step began and has not been tried yet. -/
def readDue (n : Nat) (st : ClsStep) (ns : Nat) (s : State) : Bool :=
  let j := jackRun s n
  j.step == st && !j.dropped && decide (seqTime s ns ≤ since s j.stepAt) && classifyFree s

/-- TIP_READ, MIC_READ_A, MIC_READ_B (R289): codes of 12 bits. -/
def tipRead (n code : Nat) (s : State) : State := if readDue n .tip msec s then classRead n (code % 4096) s else s
def micReadA (n code : Nat) (s : State) : State := if readDue n .micA (6 * msec) s then classRead n (code % 4096) s else s
def micReadB (n code : Nat) (s : State) : State := if readDue n .micB (6 * msec) s then classRead n (code % 4096) s else s

/-- CLASSIFICATION_TIMEOUT (R289): 10 ms after the first attempt. -/
def classificationTimeout (n : Nat) (s : State) : State :=
  let j := jackRun s n
  match j.step with
  | .tip | .micA | .micB =>
    if j.dropped ∧ 10 * msec ≤ since s j.stepAt ∧ classifyFree s then classEnd n clsUnknown s else s
  | .none | .waiting => s

/-- Buttons are decoded on this jack (R292). -/
def buttonsOn (s : State) (n : Nat) : Bool :=
  let j := jackRun s n
  (jackWord s n).en && (jackWord s n).btn && (j.cls == clsCtia || j.cls == clsOmtp) && j.step == .none && jackAwake s

/-- The window of a code: 0 to 3, or 4 for no button (R292). -/
def buttonWindow (w : JackWord) (code : Nat) : Nat :=
  if code ≤ fld w.w1 11 0 then 0 else if code ≤ fld w.w1 27 16 then 1
  else if code ≤ fld w.w2 11 0 then 2 else if code ≤ fld w.w2 27 16 then 3 else 4

/-- A successful button read counts (R292). -/
def buttonCount (n code : Nat) (s : State) : State :=
  let w := buttonWindow (jackWord s n) code
  let j := jackRun s n
  let cnt := if j.win = w then min 9 (j.cnt + 1) else 1
  let s1 := onJack n (fun j => { j with win := w, cnt := cnt, dropped := false }) s
  if cnt = 8 ∧ w < 4 ∧ ¬(j.pressed ∧ j.button.toNat = w) then
    jackEvent (onJack n (fun j => { j with pressed := true, button := BitVec.ofNat 2 w }) s1)
  else if cnt = 8 ∧ w = 4 ∧ j.pressed then jackEvent (onJack n (fun j => { j with pressed := false }) s1)
  else s1

/-- A button read through the converter. -/
def buttonRead (n code : Nat) (s : State) : State :=
  let r := detectionRead (4 + n) 0 code s
  if r.1 then buttonCount n code r.2
  else onJack n (fun j => { j with dropped := true, tryAt := now s }) r.2

/-- BUTTON_SAMPLE (R292). -/
def buttonSample (n code : Nat) (s : State) : State :=
  if buttonsOn s n then buttonRead n (code % 4096) s else s

/-- DETECTION_READ_REISSUE (R314): 100 µs after the drop. -/
def detectionReissue (n code : Nat) (s : State) : State :=
  let j := jackRun s n
  if j.dropped ∧ 100 * usec ≤ since s j.tryAt then
    if j.step = .none then (if buttonsOn s n then buttonRead n (code % 4096) s else s)
    else if classifyFree s then classRead n (code % 4096) s else s
  else s

/-! ## JACK.CFG and MICBIAS (R297, R298) -/

/-- The new word applies at once (Table 8.10). A classification that EN 0, or a confirmed removal, abandons has not ended: it is no
start event of R278, the model's choice (log entry 189). -/
def jackApply (n : Nat) (w : JackWord) (s : State) : State :=
  let old := jackWord s n
  let s1 := { s with jack := { s.jack with words := tput {} s.jack.words n w } }
  if w.en = false then
    let s2 := onJack n (fun j => { j with present := false, cls := clsNone, win := 4, cnt := 0 }) (abandonClass n s1)
    if (jackRun s2 n).muted then unmuteJack n s2 else s2
  else
    let s2 := if old.en = false ∨ old.inv ≠ w.inv then onJack n (fun j => { j with since := now s }) s1 else s1
    if (jackRun s n).step = .none then s2
    else onJack n (fun j => { j with step := .waiting }) (abandonClass n s2)

def bodyJackCfg (a : CmdArgs) (s : State) : Ans :=
  let n := fld (opnd a 0) 1 0
  if flag a 0 then
    checks s [(resv (opnd a 0) 3, .unsupported)] (yes (if (jackRun s n).muted then unmuteJack n s else s))
  else
    let w : JackWord := ⟨opnd a 1, opnd a 2, opnd a 3⟩
    let b0 := fld w.w1 11 0
    let b1 := fld w.w1 27 16
    let b2 := fld w.w2 11 0
    let b3 := fld w.w2 27 16
    checks s
      [(resv (opnd a 0) 3 || resv w.w0 0xF8000000 || resv w.w1 0x0FFF0FFF || resv w.w2 0x0FFF0FFF, .unsupported),
       (!(decide (b0 < b1) && decide (b1 < b2) && decide (b2 < b3) && decide (b3 < 1502)), .range)]
      (yes (jackApply n w s))

def rowJackCfg : CmdRow :=
  { op := 0x61, flags := 1, count := fun a => decide (a.ops.length = if flag a 0 then 1 else 4), body := bodyJackCfg }

/-- MODE of MICBIASn. -/
def micMode (w : BitVec 8) (n : Nat) : Nat := (w.toNat >>> (2 * n)) % 4

/-- The regulator runs (R293). -/
def micOn (s : State) (n : Nat) : Bool :=
  let j := jackRun s n
  (jackAwake s) &&
    (micMode s.jack.micbias n == 1 || (micMode s.jack.micbias n == 2 && (j.cls == clsCtia || j.cls == clsOmtp))
      || j.step == .micA || j.step == .micB)

def bodyMicbias (a : CmdArgs) (s : State) : Ans :=
  let w := opnd a 0
  checks s [(resv w 0xFF || (List.range 4).any (fun n => micMode (w.setWidth 8) n == 3), .unsupported)]
    (let s1 := { s with jack := { s.jack with micbias := w.setWidth 8 } }
     yes s1 [wordOf (indexes 4 (micOn s1))])

def rowMicbias : CmdRow := { op := 0x62, count := countIs 1, maxRes := fun _ _ => 1, body := bodyMicbias }

/-! ## Emergency mute (R214–R216, R223) -/

def panicEn (s : State) : Bool := bit s.panic.cfg 31
def panicDig (s : State) : Bool := bit s.panic.cfg 8

/-- PANIC_ASSERT (R214, Table 6.12): the latch sets, every output clamps, PANIC is raised. A running classification waits
for the release (Table 8.10). -/
def panicAssert (s : State) : State :=
  if panicEn s ∧ vaonOn s ∧ s.power.iovddA ∧ s.power.st ≠ .reset then
    let s1 := holdClass s
    raiseIrq irqPanic (clampAll { s1 with panic := { s1.panic with latch := true, level := true } })
  else s

/-- The input as PANIC.CFG samples it: an assertion, or a newly chosen input, is asserted until a free bit says it is not (log
entry 24). -/
def panicSample (s : State) : State :=
  if s.panic.level then
    let (w, s1) := drawWord s
    { s1 with panic := { s1.panic with level := bit w 0 } }
  else s

/-- The result word of PANIC.CFG (R223). -/
def panicWord (s : State) : Word := toWord (b2n s.panic.latch * 2 ^ 31 + b2n s.panic.level * 2 ^ 30)

def bodyPanicCfg (a : CmdArgs) (s : State) : Ans :=
  let w := opnd a 0
  if flag a 0 then
    checks s [(w != 0, .range)]
      (let s1 := panicSample s
       if s1.panic.latch = false then yes s1 [panicWord s1]
       else if s1.panic.level then ⟨.refused, s1, [panicWord s1]⟩
       else
         let s2 := startAll { s1 with panic := { s1.panic with latch := false } }
         yes s2 [panicWord s2])
  else
    let g := fld w 3 0
    checks s
      [(resv w 0xC000010F, .unsupported),
       (s.power.straps.flash && decide (8 ≤ g ∧ g ≤ 11), .range),
       (s.panic.latch, .busy)]
      (let s1 := panicSample { s with panic := { s.panic with cfg := w, level := bit w 31 } }
       yes s1 [panicWord s1])

def rowPanicCfg : CmdRow :=
  { op := 0x46, flags := 1, count := countIs 1, maxRes := fun _ _ => 1, body := bodyPanicCfg }

end Sys2Proof.Machine
end

