-- ==== Sys2Proof/Machine/Flows.lean ====
section
/-! DEFINITION. Flow contexts (R226–R236): intrinsic latency, starts and stops, the checks of FLOW.BIND and SWAP (R257–R259), and
the slip count (R40). -/

namespace Sys2Proof.Machine

/-- D_dac of an output rate (Table 6.6). -/
def dDac (rate : Nat) : Nat :=
  let hz := rateHz rate
  if hz ≤ 48000 then 14 else if hz ≤ 96000 then 10 else if hz ≤ 192000 then 7 else 5

/-- The ASRC term A (R252). -/
def asrcTerm (q : Quad) : Nat :=
  let fl := rateHz q.laneRate
  8 + ceilDiv (32 * fl) (max 1 (min (rateHz q.epRate) fl))

/-- ceil(L_f) of flow `f` with context `q` in set `c` (R233, Table 7.3, R270). -/
def latency (s : State) (c : ConfigSet) (f : Nat) (q : Quad) : Nat :=
  (match q.kind with
   | 1 => ainDelay s c q.ep
   | 2 => 2 + dDac q.epRate + (if 32 ≤ q.ep then 1 else 0)
   | 3 => 2
   | 4 => if f < 128 then 3 else 2
   | 5 => 12
   | _ => if f < 128 then 0 else 1)
  + (if q.rel = 0 then 0 else asrcTerm q)

/-- A digital egress flow, which the holdover mute and PANIC's DIG silence (R326, Table 6.12). -/
def digital (f : Nat) (q : Quad) : Bool := decide (128 ≤ f) && (q.kind == 3 || q.kind == 4)

/-- The rate at which a digital egress flow gives its endpoint values. -/
def outHz (q : Quad) : Nat := rateHz (if q.rel = 0 then q.laneRate else q.epRate)

/-- Samples of the holdover mute's 2 ms ramp at a digital egress flow (R326). -/
def muteLen (q : Quad) : Nat := ceilDiv (2 * outHz q) 1000

/-- The endpoint of an ingress flow delivers samples: its port runs, its receiver is locked at a rate the flow takes (Table 7.9). -/
def delivers (s : State) (q : Quad) : Bool :=
  match q.kind with
  | 3 => (tget ({} : TdmPort) s.ports.tdm (q.ep / 32)).st == .running
  | 4 =>
    let r := tget ({} : AesRx) s.ports.aesRx (q.ep / 2)
    r.st == .locked || (r.st == .mismatch && (q.rel == 2 || q.epRate == r.rate))
  | 5 => (tget {} s.ports.pdmRun (q.ep / 4)).running
  | _ => true

/-- A flow starts or restarts (R232, R234, R235): an egress flow's first lane sample stands behind its padding alone, the rest of its
latency being its endpoint's, and its ASRC channel runs one output ahead of the endpoint (DESIGN CHOICE, log entry 194); during a holdover
mute a digital egress flow sends 0 from the start (R326). An endpoint that stands
still stays a stopped one (Table 7.9). -/
def startFlow (f : Nat) (s : State) : State :=
  let a := active s
  let q := a.flow f
  let lf := latency s a f q
  onFlow f (fun r =>
    { running := true
      seq := q.w3.toNat
      pad := q.declLat - lf
      startLeft := if q.kind = 6 ∧ f < 128 then 0 else if f < 128 then max q.declLat lf else q.declLat - lf
      asrcLeft := if decide (128 ≤ f) && q.rel != 0 then asrcTerm q else 0
      asrcPhase := rateHz q.laneRate
      stopped := decide (f < 128) && !delivers s q
      muteJ := if gHeld s && digital f q then some (muteLen q) else none
      slips := r.slips }) s

/-- A flow stops: only its slip count stays. -/
def stopFlow (f : Nat) (s : State) : State := onFlow f (fun r => { slips := r.slips }) s

/-- W0, W1 or W2 differ: a swap restarts the flow (R232). -/
def restarts (o n : Quad) : Bool := o.w0 != n.w0 || o.w1 != n.w1 || o.w2 != n.w2

/-- One flow at a change of ACTIVE from `o`, both as FDMA takes them (R232, R366). -/
def flowDiffOne (o : ConfigSet) (s : State) (f : Nat) : State :=
  let q := o.flow f
  let n := (heard s).flow f
  if q = n then s
  else if n.bound = false then stopFlow f s
  else if restarts q n then startFlow f s
  else onFlow f (fun r => { r with seq := n.w3.toNat }) s

/-- The flow numbers either set binds. -/
def flowKeys (o n : ConfigSet) : List Nat :=
  o.flows.map (·.1) ++ (n.flows.filter (fun x => o.flows.all (fun y => y.1 != x.1))).map (·.1)

/-- The flows at a change of ACTIVE from `o`. -/
def flowDiff (o : ConfigSet) (s : State) : State := (flowKeys o (heard s)).foldl (flowDiffOne o) s

/-- The bound flows of ACTIVE, but for those that FDMA takes as stopped (R366). -/
def activeFlows (s : State) : List Nat := flowsWith (heard s) (fun _ _ => true)

/-- Every flow restarts as at binding (Table 7.8, R328). -/
def restartFlows (s : State) : State := (activeFlows s).foldl (fun s f => startFlow f s) s

/-- A slip of flow `f` is counted and SLIP raised (R40, Table 7.10). -/
def slip (f : Nat) (s : State) : State :=
  raiseIrq irqSlip (onFlow f (fun r => { r with slips := min 15 (r.slips + 1) }) s)

/-! ## FLOW.BIND and FLOW.UNBIND (R257, R258) -/

/-- Reserved codes and bits (Table 7.14, UNSUPPORTED). -/
def bindResv (q : Quad) : Bool :=
  resv q.w0 0x70FF017F || resv q.w1 0x33FF0100 || resv q.w2 0xFFF || q.kind == 0 || q.kind == 7 || decide (2 ≤ q.fmt)
    || q.rel == 3 || q.epRate == 15 || q.laneRate == 15

/-- EP within Table 7.2. -/
def epOk (q : Quad) : Bool :=
  match q.kind with
  | 1 => decide (q.ep < 32)
  | 2 => decide (q.ep < 34)
  | 3 => decide (q.ep < 128)
  | 4 => decide (q.ep < 4)
  | 5 => decide (q.ep < 8)
  | _ => decide (q.ep < 128)

/-- The kind's direction matches the flow's side (R226, Table 7.2). -/
def sideOk (f : Nat) (q : Quad) : Bool :=
  match q.kind with
  | 1 | 5 => decide (f < 128)
  | 2 => decide (128 ≤ f)
  | _ => true

/-- REL allowed for the kind, but for the cases SWAP checks (Table 7.2). -/
def relOk (f : Nat) (q : Quad) : Bool :=
  match q.kind with
  | 3 => true
  | 4 => decide (f < 128) || q.rel != 2
  | 6 => q.rel == 0
  | _ => q.rel != 2

/-- The ASRC rate and ratio limits (R251). -/
def asrcOk (q : Quad) : Bool :=
  let e := rateHz q.epRate
  let l := rateHz q.laneRate
  decide (e ≤ 192000 ∧ l ≤ 192000 ∧ l ≤ 8 * e ∧ e ≤ 8 * l)

/-- RANGE of Table 7.14. -/
def bindRange (f : Nat) (q : Quad) : Bool :=
  !sideOk f q || !epOk q || !relOk f q
    || (q.rel == 0 && q.epRate != q.laneRate) || (q.rel == 1 && q.epRate == q.laneRate) || (q.rel != 0 && !asrcOk q)
    || (rateTop q.laneRate && (if f < 128 then q.kind != 1 && q.kind != 6 else !q.direct))
    || (q.direct && decide (f < 128)) || (q.fmt == 1 && q.kind != 3) || (q.sealBit && decide (128 ≤ f))
    || (q.kind == 6 && q.declLat != 0)

/-- Two flows of one set that may not stand together (Table 7.14, REFUSED). -/
def clash (f : Nat) (q : Quad) (g : Nat) (r : Quad) : Bool :=
  f != g && r.bound && decide (f < 128) == decide (g < 128)
    && ((q.kind == r.kind && q.ep == r.ep) || (q.lane == r.lane && q.direct == r.direct))

/-- The lowest flow of SHADOW that clashes. -/
def clashing (s : State) (f : Nat) (q : Quad) : Option Nat :=
  ((shadow s).flows.filter (fun x => clash f q x.1 x.2)).head?.map (·.1)

/-- The context operands of FLOW.BIND. -/
def bindQuad (a : CmdArgs) : Quad := ⟨opnd a 1, opnd a 2, opnd a 3, opnd a 4⟩

def bodyFlowBind (a : CmdArgs) (s : State) : Ans :=
  let f := (opnd a 0).toNat
  let q := bindQuad a
  checks s
    [(resv (opnd a 0) 0xFF || bindResv q, .unsupported), (bindRange f q, .range)]
    (match clashing s f q with
     | some g => ⟨.refused, s, [toWord g]⟩
     | none => yes (writeShadow 0x50 a.ops (fun c => { c with flows := tput dFlow c.flows f q }) s))

def rowFlowBind : CmdRow := { op := 0x50, pS := true, count := countIs 5, maxRes := fun _ _ => 1, body := bodyFlowBind }

def bodyFlowUnbind (a : CmdArgs) (s : State) : Ans :=
  checks s [(resv (opnd a 0) 0xFF, .unsupported)]
    (yes (writeShadow 0x51 a.ops (fun c => { c with flows := tput dFlow c.flows (opnd a 0).toNat dFlow }) s))

def rowFlowUnbind : CmdRow := { op := 0x51, pS := true, count := countIs 1, body := bodyFlowUnbind }

/-! ## Fields of the port words (Tables 7.4 to 7.6) -/

def tdm (s : State) (p : Nat) : TdmPort := tget {} s.ports.tdm p
def tdmEn (w : Word) : Bool := bit w 31
def tdmMaster (w : Word) : Bool := bit w 30
def tdmRate (w : Word) : Nat := fld w 23 20
def tdmSlots (w : Word) : Nat := fld w 19 15 + 1
def tdmWidth (w : Word) : Nat := 16 + 8 * fld w 14 13
def tdmWordLen (w : Word) : Nat := 16 + 8 * fld w 12 11
def tdmSealEn (w : Word) : Bool := bit w 10
def tdmSealSlot (w : Word) : Nat := fld w 9 5
def aesCfg (s : State) (u : Nat) : Word := tget 0 s.ports.aesCfg u
def pdmCfg (s : State) (k : Nat) : Word := tget 0 s.ports.pdmCfg k

/-- The AES3 unit of a flow's endpoint: receivers 0, 1 and transmitters 2, 3. -/
def aesUnit (f : Nat) (q : Quad) : Nat := q.ep / 2 + (if f < 128 then 0 else 2)

/-! ## SWAP's flow checks (R243, R251, R259) -/

/-- Step 3: the TDM channels and the ASRC (R243, R251). -/
def flowCapacity (c : ConfigSet) : Bool :=
  let n (p : Nat → Quad → Bool) : Nat := (flowsWith c p).length
  let asrc := c.flows.filter (fun x => x.2.bound && x.2.rel != 0)
  let sum := asrc.foldl (fun a x => a + rateHz (if x.1 < 128 then x.2.laneRate else x.2.epRate)) 0
  decide (64 < n (fun f q => q.kind == 3 && decide (f < 128))) || decide (64 < n (fun f q => q.kind == 3 && decide (128 ≤ f)))
    || decide (96 < asrc.length) || decide (4608000 < sum)

/-- The endpoint's rate code in a set or in the global settings (R259, check 2); none where check 2 names none. -/
def endpointRate (s : State) (c : ConfigSet) (f : Nat) (q : Quad) : Option Nat :=
  match q.kind with
  | 1 => some (c.chRate (c.gov q.ep))
  | 2 => some (c.outRateCode q.ep)
  | 3 => some (tdmRate (tdm s (q.ep / 32)).cfg)
  | 4 => if f < 128 then none else some (fld (aesCfg s (aesUnit f q)) 23 20)
  | 5 => some (fld (pdmCfg s (q.ep / 4)) 23 20)
  | _ => none

/-- Check 2 of R259 fails. -/
def rateDiffers (s : State) (c : ConfigSet) (f : Nat) (q : Quad) : Bool :=
  q.rel != 2 && (match endpointRate s c f q with | some r => r != q.epRate | none => false)

/-- Check 3 of R259 fails. -/
def portBad (s : State) (f : Nat) (q : Quad) : Bool :=
  match q.kind with
  | 3 =>
    let w := (tdm s (q.ep / 32)).cfg
    !tdmEn w || decide (tdmSlots w ≤ q.ep % 32)
      || (decide (128 ≤ f) && tdmSealEn w && tdmSealSlot w == q.ep % 32)
      || (q.rel == 2 && tdmMaster w) || (q.fmt == 1 && (tdmWidth w != 32 || tdmWordLen w != 32))
  | 4 => !bit (aesCfg s (aesUnit f q)) 31
  | 5 => !bit (pdmCfg s (q.ep / 4)) 31
  | _ => false

/-- Check 4 of R259 fails: the receiver is not PLLA's reference. -/
def aesRefBad (s : State) (f : Nat) (q : Quad) : Bool :=
  q.kind == 4 && decide (f < 128) && q.rel != 2 && s.clk.ref.toNat != 6 + q.ep / 2

/-- Check 5 of R259 fails. -/
def latencyBad (s : State) (c : ConfigSet) (f : Nat) (q : Quad) : Bool :=
  let lf := latency s c f q
  q.declLat != 0 && (decide (q.declLat < lf) || decide (lf + 1023 < q.declLat))

/-- Check 6 of R259 fails: an open seal's flow is unbound or restarted. -/
def sealHeld (s : State) (c : ConfigSet) : Bool :=
  s.seals.seals.any (fun x => x.2.isOpen &&
    (let n := c.flow x.2.flow
     !n.bound || restarts ((active s).flow x.2.flow) n))

/-- The flow checks of SWAP in order (R259). -/
def flowSwap (s : State) (c : ConfigSet) : Option Status :=
  let any (p : Nat → Quad → Bool) : Bool := c.flows.any (fun x => x.2.bound && p x.1 x.2)
  if any (fun _ q => !rateInUse s q.laneRate) then some .range
  else if any (rateDiffers s c) then some .range
  else if any (portBad s) then some .range
  else if any (aesRefBad s) then some .range
  else if any (latencyBad s c) then some .range
  else if sealHeld s c then some .refused
  else none

end Sys2Proof.Machine
end

