-- ==== Sys2Proof/Machine/Fifo.lean ====
section
/-! DEFINITION. What stands between a flow and its endpoint: the dual-clock FIFOs (R39, R40, Table 1.9), the ASRC channels with
their trackers (R251–R254), and what an egress endpoint reads of its flow (R32, R326, Table 6.12). -/

namespace Sys2Proof.Machine

/-! ## FIFOs (R40) -/

/-- The words that the flows sharing a dual-clock FIFO hold (Table 1.9). -/
def fifoFill (s : State) (fs : List Nat) : Nat := fs.foldl (fun n f => n + (flowRun s f).fifo.length) 0

/-- Two endpoints of one kind and direction share a FIFO: a DAC channel has its own, a TDM port and an AES3 unit one for each
direction (Table 1.9). -/
def sameFifo (q r : Quad) : Bool :=
  match q.kind with
  | 3 => r.ep / 32 == q.ep / 32
  | 4 => r.ep / 2 == q.ep / 2
  | _ => r.ep == q.ep

/-- The running flows that share the FIFO of flow `f`. -/
def fifoPeers (s : State) (f : Nat) (q : Quad) : List Nat :=
  runningFlows s (fun g r => r.kind == q.kind && decide (g < 128) == decide (f < 128) && sameFifo q r)

/-- The FIFO's depth (Table 1.9). -/
def fifoDepth (q : Quad) : Nat := if q.kind = 3 then 64 else 8

/-- A sample with CUT. -/
def withCut (x : Sample) : Sample := ⟨x.val, x.tag ||| tCUT⟩

/-- Write a sample into a flow's FIFO; a full one discards it, and the next sample read carries CUT. The first sample of an
endpoint that resumes carries CUT (Table 1.5). -/
def fifoPut (f : Nat) (x : Sample) (s : State) : State :=
  let q := (active s).flow f
  if fifoDepth q ≤ fifoFill s (fifoPeers s f q) then slip f (onFlow f (fun r => { r with fifoCut := true }) s)
  else onFlow f (fun r => { r with fifo := r.fifo ++ [if r.stopped then withCut x else x], stopped := false }) s

/-- A sample that repeats the last one, with CUT; value 0 with SET too, and the present epoch's EPO, where nothing has been delivered
(R27, R40). -/
def repeatLast (s : State) (r : FlowRun) : Sample :=
  match r.last with
  | some x => withCut x
  | none => ⟨0, stamp s (tSET ||| tCUT)⟩

/-- An egress flow's start is not over: its endpoint has had nothing of it, and the first word is still to come (R232), or is due as the
flow engine runs (DESIGN CHOICE, log entry 195). -/
def starting (s : State) (f : Nat) : Bool := decide (128 ≤ f) && (flowRun s f).last.isNone && (!(flowRun s f).begun || audioRuns s)

/-- A CUT mark that is due on the next sample a FIFO gives. -/
def dueCut (r : FlowRun) (x : Sample) : Sample := if r.fifoCut then withCut x else x

/-- Read a flow's FIFO; an empty one repeats and slips. Until an egress flow has put its first word there, its endpoint takes the
start's value 0 with SET (R232). -/
def fifoGet (f : Nat) (s : State) : Sample × State :=
  let r := flowRun s f
  match r.fifo with
  | [] =>
    if starting s f then (dueCut r (zeroSample (stamp s tSET)), onFlow f (fun r => { r with fifoCut := false }) s)
    else (repeatLast s r, slip f s)
  | x :: rest => (dueCut r x, onFlow f (fun r => { r with fifo := rest, last := some x, fifoCut := false }) s)

/-- The last good value of an ingress flow's endpoint, with SET (Table 7.9, R40). -/
def lastGood (r : FlowRun) : Sample :=
  match (r.fifo.getLast?.or r.hist.head?).or r.last with
  | some x => ⟨x.val, tSET⟩
  | none => ⟨0, tSET⟩

/-- Mark the ingress flows that satisfy `p` as having a stopped endpoint (Table 7.9). -/
def stopEndpoint (p : Nat → Quad → Bool) (s : State) : State :=
  (runningFlows s (fun f q => decide (f < 128) && p f q)).foldl (fun s f => onFlow f (fun r => { r with stopped := true }) s) s

/-! ## The ASRC (R251–R254) -/

def tracker (s : State) (t : Nat) : Tracker := tget {} s.ports.trackers t

def onTracker (t : Nat) (f : Tracker → Tracker) (s : State) : State :=
  { s with ports := { s.ports with trackers := tmod {} s.ports.trackers t f } }

/-- The tracker of a FOREIGN flow's source. -/
def trackerOf (q : Quad) : Nat := if q.kind = 3 then q.ep / 32 else 4 + q.ep / 2

/-- Samples in the support of a flow's ASRC channel (R30). -/
def supportOf (f : Nat) (q : Quad) : Nat :=
  if f < 128 then Config.asrcSupport (rateHz q.epRate) (rateHz q.laneRate)
  else Config.asrcSupport (rateHz q.laneRate) (rateHz q.epRate)

/-- Samples, oldest first, enter the support of a flow's ASRC channel. -/
def asrcPush (f : Nat) (xs : List Sample) (s : State) : State :=
  let n := supportOf f ((active s).flow f)
  onFlow f (fun r => { r with hist := (xs.reverse ++ r.hist).take n }) s

/-- The ASRC takes what the flow's FIFO holds. A sample after a discarded one carries CUT. -/
def asrcTake (f : Nat) (s : State) : State :=
  match (flowRun s f).fifo with
  | [] => s
  | x :: rest =>
    asrcPush f (dueCut (flowRun s f) x :: rest) (onFlow f (fun r => { r with fifo := [], fifoCut := false }) s)

/-- An output of a flow's ASRC channel: its value is free (log entry 2), its tag the OR over the channel's support (R29, R30). A
FOREIGN flow's samples carry SET until its tracker locks, and are 0 with SET while the source is out of range (R253). -/
def asrcOut (f : Nat) (q : Quad) (s : State) : Sample × State :=
  let r := flowRun s f
  let k := tracker s (trackerOf q)
  if q.rel = 2 ∧ k.outOfRange then (zeroSample tSET, s)
  else
    let (w, s1) := drawWord s
    (⟨w, histTag r.hist r.hist.length ||| (if q.rel = 2 && !k.locked then tSET else 0)⟩, s1)

/-- The lane sample of a CONVERT or FOREIGN ingress flow (R251, R253): that of a stopped endpoint repeats (Table 7.9), and before the
endpoint's first sample it is value 0 with SET (R232). -/
def asrcIngress (f : Nat) (q : Quad) (s0 : State) : Sample × State :=
  let s := asrcTake f s0
  let r := flowRun s f
  if r.stopped ∨ (r.hist = [] ∧ delivers s q = false) then
    (repeatLast s r, if q.kind = 3 ∨ q.kind = 4 then slip f s else s)
  else if r.hist = [] then (zeroSample tSET, s)
  else
    let (x, s1) := asrcOut f q s
    (x, onFlow f (fun r => { r with last := some x }) s1)

/-! ## What an egress endpoint reads -/

/-- The holdover mute at a digital egress flow: a raised-cosine ramp to 0 over 2 ms, then 0 (R326). -/
def holdMute (f : Nat) (q : Quad) (x : Sample) (s : State) : Sample × State :=
  match (flowRun s f).muteJ with
  | none => (x, s)
  | some j =>
    let n := muteLen q
    let v := if n ≤ j then 0 else roundDiv (x.val.toInt * fxRcos (n - j) (n + 1)) (2 ^ 128)
    (⟨intWord v, x.tag⟩, onFlow f (fun r => { r with muteJ := some (min n (j + 1)) }) s)

/-- The holdover mute and PANIC's DIG, which sends 0 with SET, at a digital egress flow (R326, Table 6.12). -/
def silenced (f : Nat) (q : Quad) (x : Sample) (s : State) : Sample × State :=
  let (z, s1) := holdMute f q x s
  (if (flowRun s1 f).dig then zeroSample (stamp s1 tSET) else z, s1)

/-- The check of an output lane's word at the DAC interpolator or the serialiser (R365, R366, Table 10.13): the DAC repeats the
last good value, TDM and AES3 send it with SET. Behind an ASRC channel it is the channel's output that is checked (Table 10.12). -/
def egressHop (f : Nat) (q : Quad) (x : Sample) (s : State) : Sample × State :=
  match egressUpset s f with
  | none => (x, s)
  | some w =>
    let r := flowRun s f
    let s1 := logLane true q.lane w (dropUpset (.egress f w) s)
    let y := ((r.ahead.getLast?.or r.fifo.getLast?).or r.last).getD ⟨0, stamp s tSET⟩
    (if q.kind = 2 then y else ⟨y.val, y.tag ||| tSET⟩, s1)

/-- Outputs that an egress flow's ASRC channel gives with this lane sample, and the place of the one after them (R251): f_ep for each
f_lane. A FOREIGN flow's follow its tracker, which measures the endpoint's frames, within 2 % of EP_RATE (R253); while the endpoint stands
still they keep the nominal rate (DESIGN CHOICE, log entry 194). -/
def asrcDue (s : State) (q : Quad) (r : FlowRun) : Nat × Nat :=
  let fl := max 1 (rateHz q.laneRate)
  if q.rel = 2 ∧ delivers s q then
    (min r.asrcReads (ceilDiv (102 * rateHz q.epRate) (100 * fl)) + r.asrcPhase / fl, r.asrcPhase % fl)
  else ((r.asrcPhase + rateHz q.epRate) / fl, (r.asrcPhase + rateHz q.epRate) % fl)

/-- The channel computes `n` outputs; their EPO is that of the epoch in which it does (R27). -/
def asrcMake (f : Nat) (q : Quad) : Nat → State → State
  | 0, s => s
  | n + 1, s =>
    let (x, s1) := asrcOut f q s
    let (z, s2) := silenced f q ⟨x.val, stamp s x.tag⟩ s1
    let (z, s3) := egressHop f q z s2
    asrcMake f q n (onFlow f (fun r => { r with ahead := r.ahead ++ [z] }) s3)

/-- The channel's outputs of the lane period that ends are all written into the FIFO (R39, R40). -/
def asrcFlush (f : Nat) (s : State) : State :=
  (flowRun s f).ahead.foldl (fun s x => fifoPut f x s) (onFlow f (fun r => { r with ahead := [] }) s)

/-- A lane sample enters the ASRC channel of a CONVERT or FOREIGN egress flow, which stands still with MTX (R251, R253, Table 7.8).
It gives nothing in its part of a start's latency (R232). -/
def asrcEgress (f : Nat) (q : Quad) (x : Sample) (s : State) : State :=
  let s1 := asrcPush f [x] (asrcFlush f s)
  let r := flowRun s1 f
  if 0 < r.startLeft then s1
  else if 1 < r.asrcLeft then onFlow f (fun r => { r with asrcLeft := r.asrcLeft - 1 }) s1
  else
    asrcMake f q (asrcDue s1 q r).1
      (onFlow f (fun r => { r with asrcLeft := 0, asrcPhase := (asrcDue s1 q r).2, asrcReads := 0, begun := true }) s1)

/-- The ASRC channel's next output of this lane period is in the FIFO by the time that the endpoint finds it otherwise empty. -/
def asrcWritten (f : Nat) (s : State) : State :=
  match (flowRun s f).fifo, (flowRun s f).ahead with
  | [], x :: rest => fifoPut f x (onFlow f (fun r => { r with ahead := rest }) s)
  | _, _ => s

/-- The next sample of an egress flow at its endpoint (R32, R40). -/
def endpointRead (f : Nat) (s : State) : Sample × State :=
  fifoGet f (onFlow f (fun r => { r with asrcReads := r.asrcReads + 1 }) (asrcWritten f s))

end Sys2Proof.Machine
end

