-- ==== Sys2Proof/Machine/Ports.lean ====
section
/-! DEFINITION. The digital audio ports, their frames and pins, and the ASRC's tracker events (R237–R255, Tables 7.4 to 7.13), and
the commands TDM.CFG, AES.CFG, AES.CS and PDM.CFG (R260–R263). -/

namespace Sys2Proof.Machine

def onTdm (p : Nat) (f : TdmPort → TdmPort) (s : State) : State :=
  { s with ports := { s.ports with tdm := tmod {} s.ports.tdm p f } }

def aesRx (s : State) (n : Nat) : AesRx := tget {} s.ports.aesRx n

def onAes (n : Nat) (f : AesRx → AesRx) (s : State) : State :=
  { s with ports := { s.ports with aesRx := tmod {} s.ports.aesRx n f } }

/-- The lowest flow of a set that satisfies `p`. -/
def lowestFlow (c : ConfigSet) (p : Nat → Quad → Bool) : Option Nat := (flowsWith c p).head?

/-! ## TDM (R237–R242) -/

def tdmFlow (p : Nat) (q : Quad) : Bool := q.kind == 3 && q.ep / 32 == p

/-- A source stops delivering samples: its tracker unlocks and acquires anew when it delivers again (R253, Table 7.9). -/
def sourceStops (t : Nat) (s : State) : State := onTracker t (fun _ => { acquiring := true }) s

/-- A port's or unit's clocks may run: a TDM master's, an AES3 transmitter's and a PDM clock's (R239, R249, R333, R412, Table 11.7). Without IOVDD_A they run
behind dead pads (Table 14.8). -/
def masterFree (s : State) : Bool :=
  running s && !s.power.padsHeld && !s.clk.a.gated && !inSafe s

/-- Audio value of a slot's content in NATIVE format (R240): the WORD bits at the top of WIDTH. -/
def slotValue (cfg : Word) (slot : Word) : Word :=
  let w := tdmWordLen cfg
  toWord (slot.toNat % 2 ^ tdmWidth cfg / 2 ^ (tdmWidth cfg - w) * 2 ^ (32 - w))

/-- Slot content of a value in NATIVE format (R240). -/
def slotContent (cfg : Word) (v : Word) : Word :=
  let w := tdmWordLen cfg
  let r := clampInt (-(2 ^ (w - 1))) (2 ^ (w - 1) - 1) (roundShift v.toInt (32 - w))
  toWord ((r % 2 ^ w).toNat * 2 ^ (tdmWidth cfg - w))

/-- A SLOT_TAG word (R241). -/
def tagWord (x : Sample) : Word :=
  let r := clampInt (-(2 ^ 23)) (2 ^ 23 - 1) (roundShift x.val.toInt 8)
  let w := toWord ((r % 2 ^ 24).toNat * 256 + x.tag.toNat * 16)
  toWord (w.toNat + crc4 w)

/-- One received slot for the flow that binds it (R240, R241, Table 7.9). -/
def slotReceive (p : Nat) (slots : List Word) (s : State) (f : Nat) : State :=
  let q := (active s).flow f
  let w := slots.getD (q.ep % 32) 0
  if q.fmt = 1 then
    if crc4 w = fld w 3 0 then fifoPut f ⟨w &&& 0xFFFFFF00, BitVec.ofNat 4 (fld w 7 5 * 2)⟩ s
    else
      fifoPut f (lastGood (flowRun s f)) (onTdm p (fun t => { t with crcErrs := min 255 (t.crcErrs + 1) }) s)
  else fifoPut f ⟨slotValue (tdm s p).cfg w, 0⟩ s

/-- The slots of a good frame go to the flows that bind them. -/
def deliverSlots (p : Nat) (slots : List Word) (s : State) : State :=
  (runningFlows s (fun f q => decide (f < 128) && tdmFlow p q)).foldl (slotReceive p slots) s

/-- A slave frame of the wrong length (Table 7.9): its slots are discarded and the port resynchronises. A LOCKED flow's FIFO then
runs empty; an ASRC channel repeats, and the port's tracker acquires anew (DESIGN CHOICE, log entry 162). -/
def frameError (p : Nat) (s : State) : State :=
  sourceStops p (stopEndpoint (fun _ q => tdmFlow p q && q.rel != 0)
    (onTdm p (fun t => { t with st := .acquiring, good := 0, frameErrs := min 255 (t.frameErrs + 1) }) s))

/-- The slots a running master takes from a pad without its supply: free words (Table 14.8 gives them no level; log entry 197). -/
def padSlots (p : Nat) (slots : List Word) (s : State) : List Word × State :=
  if s.power.iovddA then (slots, s) else drawWords (tdmSlots (tdm s p).cfg) s

/-- TDM_FRAME_RECEIVE (R238–R241, Table 7.9). -/
def tdmFrameReceive (p cycles rate : Nat) (slots : List Word) (s : State) : State :=
  let t := tdm s p
  if tdmEn t.cfg = false ∨ 4 ≤ p ∨ s.power.padsHeld ∨ inSafe s then s
  else if tdmMaster t.cfg then
    (if t.st = .running ∧ masterFree s then deliverSlots p (padSlots p slots s).1 (padSlots p slots s).2 else s)
  else if s.power.iovddA = false then s
  else if cycles ≠ tdmSlots t.cfg * tdmWidth t.cfg then frameError p s
  else
    let s1 := onTdm p (fun t => { t with rate := min rate 15 }) s
    if t.st = .running then deliverSlots p slots s1
    else onTdm p (fun t => { t with good := t.good + 1, st := if 1 ≤ t.good then .running else .acquiring }) s1

/-- TDM_CLOCK_STOP (Table 7.9). -/
def tdmClockStop (p : Nat) (s : State) : State :=
  let t := tdm s p
  if tdmEn t.cfg ∧ tdmMaster t.cfg = false ∧ t.st ≠ .off ∧ p < 4 then
    sourceStops p (stopEndpoint (fun _ q => tdmFlow p q)
      (onTdm p (fun t => { t with st := .stopped, good := 0, rate := 15 }) s))
  else s

/-- The master ports' clocks are held while AUD is gated (R239, R333). One whose clocks have not started yet reads STOPPED too (DESIGN
CHOICE, log entry 188). -/
def mastersStop (s : State) : State :=
  (List.range 4).foldl (fun s p =>
    if tdmEn (tdm s p).cfg ∧ tdmMaster (tdm s p).cfg then onTdm p (fun t => { t with st := .stopped }) s else s) s

/-- TDM_MASTER_CLOCK_START (R239): at the first frame boundary. -/
def tdmMasterClockStart (p : Nat) (s : State) : State :=
  let t := tdm s p
  if tdmEn t.cfg ∧ tdmMaster t.cfg ∧ t.st ≠ .running ∧ masterFree s ∧ gridRuns s then
    onTdm p (fun t => { t with st := .running }) s
  else s

/-- The next word of the port's seal slot (R242, R422): one word of the first record for it, else 0. -/
def sealSlotWord (p : Nat) : List SealRec → Word × List SealRec
  | [] => (0, [])
  | r :: rest =>
    if r.dest = 1 ∧ r.port = p then
      match r.words with
      | [] => sealSlotWord p rest
      | [w] => (w, rest)
      | w :: ws => (w, { r with words := ws } :: rest)
    else
      let (w, rest') := sealSlotWord p rest
      (w, r :: rest')

/-- One slot of a frame being sent: its content, none where the port leaves DOUT at high impedance (TRI, R240), and the state after
it. -/
def slotSend (p : Nat) (slot : Nat) (s : State) : Option Word × State :=
  let cfg := (tdm s p).cfg
  match (runningFlows s (fun f q => decide (128 ≤ f) && tdmFlow p q && q.ep % 32 == slot)).head? with
  | some f =>
    let (x, s1) := endpointRead f s
    (some (if ((active s).flow f).fmt = 1 then tagWord x else slotContent cfg x.val), s1)
  | none =>
    if tdmSealEn cfg ∧ slot = tdmSealSlot cfg then
      let (w, q) := sealSlotWord p s.seals.queue
      (some w, { s with seals := { s.seals with queue := q } })
    else (if bit cfg 24 then none else some 0, s)

/-- The slots from the list, in order. -/
def slotsSend (p : Nat) : List Nat → State → List (Option Word) × State
  | [], s => ([], s)
  | k :: ks, s =>
    let (w, s1) := slotSend p k s
    let (ws, s2) := slotsSend p ks s1
    (w :: ws, s2)

/-- The bits of a frame on DOUT, MSB of slot 0 first; none is high impedance (R238, R240). -/
def frameBits (cfg : Word) (out : List (Option Word)) : List (Option Bool) :=
  out.flatMap (fun o => (List.range (tdmWidth cfg)).map (fun i => o.map (fun w => bit w (tdmWidth cfg - 1 - i))))

/-- TDM_FRAME_SEND (R238, R240–R242). A slave port that is not RUNNING sends nothing, nor does a master while its clocks are
held. -/
def tdmFrameSend (p : Nat) (s : State) : State :=
  let t := tdm s p
  if tdmEn t.cfg ∧ t.st = .running ∧ running s ∧ s.power.padsHeld = false
      ∧ (tdmMaster t.cfg = true → masterFree s = true) then
    let (ws, s1) := slotsSend p (List.range (tdmSlots t.cfg)) s
    onTdm p (fun t => { t with out := ws, lastBit := ((frameBits t.cfg t.out).getLast?).join }) s1
  else s

/-! ### The port's pins (R238, R240, R333, Table 11.7) -/

/-- The data lies one BCLK after the frame's start: I²S, and TDM with DLY. -/
def tdmDelayed (cfg : Word) : Bool := fld cfg 29 28 == 0 || (fld cfg 29 28 == 2 && bit cfg 27)

/-- FS at BCLK `i` of a frame: I²S low and left-justified high for the first half, TDM high for the first BCLK; FINV inverts. -/
def tdmFs (cfg : Word) (i : Nat) : Bool :=
  let n := tdmSlots cfg * tdmWidth cfg
  bit cfg 25 != (match fld cfg 29 28 with
    | 0 => decide (n / 2 ≤ i)
    | 1 => decide (i < n / 2)
    | _ => i == 0)

/-- DOUT over the BCLK cycles of the last frame sent. -/
def tdmDout (t : TdmPort) : List (Option Bool) :=
  let bits := frameBits t.cfg t.out
  if tdmDelayed t.cfg then t.lastBit :: bits.dropLast else bits

/-- DOUT, and FS as master, change on this edge of BCLK, and DIN, and FS as slave, are sampled on the other: BINV exchanges the
falling and the rising edge. -/
def tdmLaunchFalling (cfg : Word) : Bool := !bit cfg 26

/-- What an output pin does. -/
inductive PinLevel where
  | highZ | low | active
  deriving DecidableEq, Repr

/-- The word by which a port's pads behave: behind held pads, of a port that is off, the word at commit (Table 11.7). -/
def tdmPadWord (s : State) (p : Nat) : Word :=
  let w := (tdm s p).cfg
  if s.power.padsHeld && !tdmEn w then s.power.tdmHeld.getD p 0 else w

/-- BCLK and FS of a port. -/
def tdmClockPins (s : State) (p : Nat) : PinLevel :=
  let w := tdmPadWord s p
  if !s.power.iovddA || !tdmEn w || !tdmMaster w then .highZ
  else if masterFree s && (tdm s p).st == .running then .active else .low

/-- DOUT of a port. -/
def tdmDoutPin (s : State) (p : Nat) : PinLevel :=
  let w := tdmPadWord s p
  if !s.power.iovddA || !tdmEn w then .highZ
  else if masterFree s && (tdm s p).st == .running then .active
  else if bit w 24 then .highZ else .low

/-- The outputs of an AES3 transmitter, a PDM clock, and SYNC_OUT. -/
def aesTxPins (s : State) (tx : Nat) : PinLevel :=
  if masterFree s && s.power.iovddA && bit (aesCfg s (2 + tx)) 31 && gridRuns s then .active else .highZ
def pdmClkPin (s : State) (k : Nat) : PinLevel :=
  if !s.power.iovddA then .highZ
  else if masterFree s && (tget {} s.ports.pdmRun k).running then .active else .low

/-- RANGE of TDM.CFG (R260). -/
def tdmRange (s : State) (w : Word) : Bool :=
  let hz := rateHz (tdmRate w)
  let bclk := tdmSlots w * tdmWidth w * hz
  let dco := if fam44 s then 2709504000 else 2949120000
  decide (tdmWidth w < tdmWordLen w) || (fld w 29 28 != 2 && tdmSlots w % 2 == 1) || decide (25000000 < bclk)
    || (tdmMaster w && (dco % bclk != 0 || !rateInUse s (tdmRate w)))
    || (tdmSealEn w && (tdmWidth w != 32 || decide (tdmSlots w ≤ tdmSealSlot w)))

/-- The lowest flow that keeps TDM.CFG from the port (R260). -/
def tdmInUse (s : State) (p : Nat) (w : Word) : Option Nat :=
  let onSeal (f : Nat) (q : Quad) : Bool :=
    decide (128 ≤ f) && tdmFlow p q && tdmSealEn w && q.ep % 32 == tdmSealSlot w
  let l := flowsWith (active s) (fun _ q => tdmFlow p q) ++ flowsWith (shadow s) onSeal
  l.min?

/-- The port as TDM.CFG leaves it. -/
def tdmApply (w : Word) (s : State) (t : TdmPort) : TdmPort :=
  { t with
    cfg := w
    good := 0
    out := []
    lastBit := none
    rate := 15
    st := if tdmEn w = false then .off
      else if tdmMaster w ∧ (s.power.padsHeld ∨ s.clk.a.gated) then .stopped else .acquiring }

def bodyTdmCfg (a : CmdArgs) (s : State) : Ans :=
  let p := fld (opnd a 0) 1 0
  let w := opnd a 1
  checks s
    [(resv (opnd a 0) 3 || resv w 0xFFFFFFE0 || fld w 29 28 == 3 || fld w 14 13 == 3 || fld w 12 11 == 3
        || tdmRate w == 15, .unsupported),
     (tdmRange s w, .range)]
    (match tdmInUse s p w with
     | some f => ⟨.refused, s, [toWord f]⟩
     | none => yes (onTdm p (tdmApply w s) s))

def rowTdmCfg : CmdRow := { op := 0x52, count := countIs 2, maxRes := fun _ _ => 1, body := bodyTdmCfg }

/-! ## AES3 (R244–R248) -/

def aesIn (rx : Nat) (q : Quad) : Bool := q.kind == 4 && q.ep / 2 == rx

/-- The receiver's measured rate differs from a LOCKED or CONVERT flow's EP_RATE by more than 2 % (Table 7.9). -/
def aesOff (s : State) (rx : Nat) (q : Quad) : Bool := aesIn rx q && q.rel != 2 && q.epRate != (aesRx s rx).rate

/-- The receiver has such a flow. -/
def aesMismatch (s : State) (rx : Nat) : Bool :=
  (runningFlows s (fun f q => decide (f < 128) && aesOff s rx q)).isEmpty == false

/-- STATE of a locked receiver follows its flows (Table 7.12). -/
def aesJudge (rx : Nat) (s : State) : State :=
  match (aesRx s rx).st with
  | .locked | .mismatch =>
    if aesMismatch s rx then
      stopEndpoint (fun _ q => aesOff s rx q) (onAes rx (fun r => { r with st := .mismatch }) s)
    else onAes rx (fun r => { r with st := .locked }) s
  | .off | .acquiring | .unlocked => s

/-- A receiver accepts the rate: from 32 to 192 kHz within ±12.5 % (R245). One that lies near no code is taken to do so. -/
def aesAccepts (rate : Nat) (near : Bool) : Bool := !near || decide (32000 ≤ rateHz rate ∧ rateHz rate ≤ 192000)

/-- AES3_LOCK (R245): 64 good frames; the rate code within 2 %, or 0xF. A receiver that is locked reports a rate that has moved so
(Table 7.9; DESIGN CHOICE, log entry 161). -/
def aes3Lock (rx rate : Nat) (near : Bool) (s : State) : State :=
  if aesAccepts rate near = false then s else
  match (aesRx s rx).st with
  | .acquiring | .unlocked =>
    if s.power.padsHeld ∨ s.power.iovddA = false ∨ inSafe s then s else
    aesJudge rx (onAes rx (fun r =>
      { r with st := .locked, rate := if near then min rate 15 else 15, blkA := none, blkB := none }) s)
  | .locked | .mismatch => aesJudge rx (onAes rx (fun r => { r with rate := if near then min rate 15 else 15 }) s)
  | .off => s

/-- AES3_LOSS_OF_LOCK at the port (R245, Table 7.9); `count` says whether LOCK_LOSSES counts it. -/
def aesLoss (count : Bool) (rx : Nat) (s : State) : State :=
  match (aesRx s rx).st with
  | .locked | .mismatch =>
    let s1 := onAes rx (fun r => { r with st := .unlocked, rate := 15, lockLosses := min 15 (r.lockLosses + b2n count) }) s
    sourceStops (4 + rx) (stopEndpoint (fun _ q => aesIn rx q) s1)
  | .off | .acquiring | .unlocked => s

/-- AES3_SUBFRAME_RECEIVE (R246, Table 7.9). -/
def aes3Subframe (rx sub : Nat) (bits : BitVec 24) (v parityOk : Bool) (s : State) : State :=
  let r := aesRx s rx
  let wl24 := bit (aesCfg s rx) 8
  match r.st with
  | .locked | .mismatch =>
    let s1 := if parityOk then s else onAes rx (fun r => { r with parityErrs := min 255 (r.parityErrs + 1) }) s
    let fs := runningFlows s (fun f q => decide (f < 128) && q.kind == 4 && q.ep == 2 * rx + sub % 2
      && !aesOff s rx q)
    fs.foldl (fun s f =>
      let t : BitVec 4 := if v || r.nonAudio then tSET else 0
      let val := toWord ((if wl24 then bits.toNat else bits.toNat / 16 * 16) * 256)
      fifoPut f (if parityOk then ⟨val, t⟩ else lastGood (flowRun s f)) s) s1
  | .off | .acquiring | .unlocked => s

/-- Byte `i` of a channel-status block: byte 0 lies in [31:24] of the first word (R262). -/
def blockByte (b : List Word) (i : Nat) : Byte := (wordsBytes b).getD i 0

/-- The CRCC of a block (R247). -/
def blockCrcc (b : List Word) : Nat := crcc ((wordsBytes b).take 23)

/-- AES3_BLOCK_RECEIVE (R247). -/
def aes3Block (rx sub : Nat) (blk : List Word) (s : State) : State :=
  match (aesRx s rx).st with
  | .locked | .mismatch =>
    if blk.length ≠ 6 then s
    else
      let b0 := blockByte blk 0
      if b0.getLsbD 0 ∧ blockCrcc blk ≠ (blockByte blk 23).toNat then
        onAes rx (fun r => { r with crccErrs := min 255 (r.crccErrs + 1) }) s
      else
        onAes rx (fun r => { r with
          pro := b0.getLsbD 0
          nonAudio := b0.getLsbD 1
          blkA := if sub = 0 then some blk else r.blkA
          blkB := if sub = 0 then r.blkB else some blk }) s
  | .off | .acquiring | .unlocked => s

def aesTx (s : State) (n : Nat) : AesTx := tget {} s.ports.aesTx n

def onAesTx (n : Nat) (f : AesTx → AesTx) (s : State) : State :=
  { s with ports := { s.ports with aesTx := tmod {} s.ports.aesTx n f } }

/-- The transmitter runs (R248). -/
def aesSends (s : State) (tx : Nat) : Bool :=
  bit (aesCfg s (2 + tx)) 31 && decide (tx < 2) && masterFree s && gridRuns s

/-- AES3_Z_PREAMBLE (R248): a block begins, and both subframes' new blocks apply in the same frame. -/
def aes3Z (tx : Nat) (s : State) : State :=
  if aesSends s tx then onAesTx tx (fun t => { t with curA := t.newA, curB := t.newB, frame := 0 }) s else s

/-- The block a transmitter sends: with AUTOCRC a professional block's byte 23 is its CRCC (R248). -/
def sentBlock (cfg : Word) (b : List Word) : List Word :=
  if bit cfg 9 && (blockByte b 0).getLsbD 0 then
    match b with
    | [a, b1, c, d, e, f] => [a, b1, c, d, e, setFld f 7 0 (blockCrcc b)]
    | _ => b
  else b

/-- Audio bits of a sent subframe, rounded to WL24's word length (R248, R486): the 24 bits of time slots 4 to 27. -/
def aesAudio (cfg : Word) (v : Word) : Nat :=
  let w := if bit cfg 8 then 24 else 20
  let r := clampInt (-(2 ^ (w - 1))) (2 ^ (w - 1) - 1) (roundShift v.toInt (32 - w))
  (r % 2 ^ w).toNat * 2 ^ (24 - w)

/-- A sent subframe, bit i being time slot i; slots 0 to 3 hold the preamble (R248): audio, V = SET (R32), U = 0, C, and even
parity. An unbound subframe sends 0 with V = 1. -/
def subframeOut (cfg : Word) (x : Option Sample) (c : Bool) : Word :=
  let v := match x with | some y => aesAudio cfg y.val * 16 + b2n (y.tag.getLsbD 2) * 2 ^ 28 | none => 2 ^ 28
  let w := v + b2n c * 2 ^ 30
  toWord (w + ((List.range 32).countP (fun i => w.testBit i)) % 2 * 2 ^ 31)

/-- The channel-status bit of frame `i` (R247, R248): the first bit sent of a byte is its least significant. -/
def csBit (b : List Word) (i : Nat) : Bool := (blockByte b (i / 8)).getLsbD (i % 8)

/-- The sample of subframe `sub` of a transmitter, none where no running flow binds it. -/
def subframeSample (tx sub : Nat) (s : State) : Option Sample × State :=
  match (runningFlows s (fun f q => decide (128 ≤ f) && q.kind == 4 && q.ep == 2 * tx + sub)).head? with
  | some f => let (x, s1) := endpointRead f s; (some x, s1)
  | none => (none, s)

/-- A transmitter sends a frame (R248): a Z preamble every 192 frames. -/
def aesFrame (tx : Nat) (s0 : State) : State :=
  if aesSends s0 tx then
    let s := if (aesTx s0 tx).frame = 0 then aes3Z tx s0 else s0
    let (a, s1) := subframeSample tx 0 s
    let (b, s2) := subframeSample tx 1 s1
    let cfg := aesCfg s (2 + tx)
    let t := aesTx s tx
    onAesTx tx (fun t' => { t' with
      out := [subframeOut cfg a (csBit (sentBlock cfg t.curA) t.frame), subframeOut cfg b (csBit (sentBlock cfg t.curB) t.frame)]
      frame := (t.frame + 1) % 192 }) s2
  else s0

def bodyAesCfg (a : CmdArgs) (s : State) : Ans :=
  let u := fld (opnd a 0) 1 0
  let w := opnd a 1
  let r := fld w 23 20
  let txRate := (decide (2 ≤ r ∧ r ≤ 5) || decide (10 ≤ r ∧ r ≤ 12)) && rateInUse s r
  let uses (f : Nat) (q : Quad) : Bool := q.kind == 4 && aesUnit f q == u
  checks s
    [(resv (opnd a 0) 3 || resv w 0x80F00300, .unsupported),
     (if u < 2 then r != 0 || bit w 9 else !txRate, .range)]
    (match lowestFlow (active s) uses with
     | some f => ⟨.refused, s, [toWord f]⟩
     | none =>
       let s1 := { s with ports := { s.ports with aesCfg := tput 0 s.ports.aesCfg u w } }
       yes (if u < 2 then
           onAes u (fun x => { x with st := if bit w 31 then .acquiring else .off, rate := 15, blkA := none, blkB := none }) s1
         else s1))

def rowAesCfg : CmdRow := { op := 0x53, count := countIs 2, maxRes := fun _ _ => 1, body := bodyAesCfg }

def bodyAesCs (a : CmdArgs) (s : State) : Ans :=
  let w := opnd a 0
  let u := fld w 1 0
  let subB := bit w 4
  if bit w 31 then
    checks s [(resv w 0x80000013 || decide (u < 2), .unsupported)]
      (let blk := a.ops.drop 1
       yes { s with ports := { s.ports with aesTx := tmod {} s.ports.aesTx (u - 2) (fun t =>
         if subB then { t with newB := blk } else { t with newA := blk }) } })
  else
    checks s [(resv w 0x80000013, .unsupported)]
      (if u < 2 then
         match (if subB then (aesRx s u).blkB else (aesRx s u).blkA) with
         | some b => yes s b
         | none => no .refused s
       else
         let t := aesTx s (u - 2)
         yes s (sentBlock (aesCfg s u) (if subB then t.curB else t.curA)))

def rowAesCs : CmdRow :=
  { op := 0x54, count := fun a => decide (a.ops.length = if bit (opnd a 0) 31 then 7 else 1)
    maxRes := fun a _ => if bit (opnd a 0) 31 then 0 else 6, body := bodyAesCs }

/-! ## PDM (R249, R250) -/

/-- FREQ / 32 in Hz (Table 7.6). -/
def pdmLimit (s : State) (w : Word) : Nat := (if fam44 s then 44100 else 48000) * 2 ^ fld w 13 12

/-- PDM.CFG (R263). The reserved RATE code 0xF is UNSUPPORTED (R11; DEDUCED, log entry 160). -/
def bodyPdmCfg (a : CmdArgs) (s : State) : Ans :=
  let k := fld (opnd a 0) 0 0
  let w := opnd a 1
  let r := fld w 23 20
  checks s
    [(resv (opnd a 0) 1 || resv w 0x80F03100 || fld w 13 12 == 3 || r == 15, .unsupported),
     (!rateInUse s r || decide (pdmLimit s w < rateHz r), .range)]
    (match lowestFlow (active s) (fun _ q => q.kind == 5 && q.ep / 4 == k) with
     | some f => ⟨.refused, s, [toWord f]⟩
     | none => yes { s with ports := { s.ports with
         pdmCfg := tput 0 s.ports.pdmCfg k w
         pdmRun := if bit w 31 then s.ports.pdmRun else tput {} s.ports.pdmRun k {} } })

def rowPdmCfg : CmdRow := { op := 0x55, count := countIs 2, maxRes := fun _ _ => 1, body := bodyPdmCfg }

/-- PDM_CLOCK_START (R249, R250). -/
def pdmClockStart (k : Nat) (s : State) : State :=
  let r := tget {} s.ports.pdmRun k
  if bit (pdmCfg s k) 31 ∧ r.running = false ∧ masterFree s ∧ gridRuns s then
    { s with ports := { s.ports with pdmRun := tput {} s.ports.pdmRun k ⟨true, now s⟩ } }
  else s

def mic (s : State) (m : Nat) : PdmMic := tget {} s.ports.mics m

def onMic (m : Nat) (f : PdmMic → PdmMic) (s : State) : State :=
  { s with ports := { s.ports with mics := tmod {} s.ports.mics m f } }

/-- Bits of a microphone in one sample period of its clock (R249). -/
def pdmPer (s : State) (w : Word) : Nat := 32 * pdmLimit s w / max 1 (rateHz (fld w 23 20))

/-- Sample periods in the decimator's support: the 24 whose samples a start or a reset marks (R250). -/
def pdmSpan : Nat := 24

/-- The decimator's output for the bits in its support, `n` of them once its history is full (R250): all ones give positive full
scale, all zeros negative full scale, half ones 0. -/
def pdmValue (n : Nat) (bits : List Bool) : Word :=
  let ones := bits.countP id
  if bits.length < n then Config.pdmDecimate bits
  else if ones = 0 then 0x80000000 else if ones = bits.length then 0x7FFFFFFF else if 2 * ones = bits.length then 0
  else Config.pdmDecimate bits

/-- The samples of a clock's microphones carry SET: 10 ms plus 24 samples after the start (R250). -/
def pdmSettling (s : State) (k : Nat) : Bool :=
  let r := tget {} s.ports.pdmRun k
  !r.running || decide (since s r.since < 10 * msec + 24 * sec1 / max 1 (rateHz (fld (pdmCfg s k) 23 20)))

/-- A microphone's next decimator output (R249, R250), `bits` being those of the sample period, oldest first: the high-pass filter
acts where HPF is set, and a resumed stream and a synchronising reset mark CUT. -/
def micSample (m : Nat) (bits : List Bool) (s : State) : State :=
  let cfg := pdmCfg s (m / 4)
  let set := pdmSettling s (m / 4)
  let n := pdmSpan * pdmPer s cfg
  onMic m (fun c =>
    let bs := (bits.reverse ++ c.bits).take n
    let d := pdmValue n bs
    let x := d.toInt * 2 ^ 32
    let y := Config.pdmHpf (rateHz (fld cfg 23 20)) x c.hpX c.hpY
    let v := if bit cfg 8 then intWord (satQ31 (roundDiv y (2 ^ 32))) else d
    let t := (if set || decide (0 < c.setLeft) then tSET else 0) ||| (if c.cut then tCUT else 0)
    { c with bits := bs, out := ⟨v, t⟩, setLeft := c.setLeft - 1, cut := false, hpX := x, hpY := if bit cfg 8 then y else 0 }) s

/-- The sample of microphone `m` for a LOCKED flow, which takes its CUT. -/
def micTake (m : Nat) (s : State) : Sample × State :=
  let x := (mic s m).out
  (⟨x.val, x.tag ||| (if (tget {} s.ports.pdmRun (m / 4)).running then 0 else tSET)⟩,
   onMic m (fun c => { c with out := ⟨c.out.val, c.out.tag &&& 0b1101#4⟩ }) s)

/-! ## ASRC trackers (R253) -/

/-- The tracker's source delivers samples. -/
def sourceOn (s : State) (t : Nat) : Bool :=
  if t < 4 then (tdm s t).st == .running && !tdmMaster (tdm s t).cfg
  else (aesRx s (t - 4)).st == .locked || (aesRx s (t - 4)).st == .mismatch

/-- A FOREIGN flow of ACTIVE uses the tracker. -/
def trackerUsed (s : State) (t : Nat) : Bool :=
  !(runningFlows s (fun _ q => q.rel == 2 && trackerOf q == t)).isEmpty

/-- ASRC_TRACKER_LOCK. -/
def asrcTrackerLock (t : Nat) (s : State) : State :=
  if t < 6 ∧ trackerUsed s t ∧ sourceOn s t then onTracker t (fun _ => { locked := true }) s else s

/-- ASRC_REACQUIRE: the ratio moved by more than 1,000 ppm. -/
def asrcReacquire (t : Nat) (s : State) : State :=
  if (tracker s t).locked then
    onTracker t (fun _ => { acquiring := true })
      { s with ports := { s.ports with relocks := min 255 (s.ports.relocks + 1) } }
  else s

/-- ASRC_OUT_OF_RANGE (R253). RELOCKS counts ratio steps alone (DESIGN CHOICE, log entry 206). -/
def asrcOutOfRange (t : Nat) (s : State) : State :=
  if t < 6 ∧ trackerUsed s t then onTracker t (fun _ => { outOfRange := true }) s else s

/-- The ports at a change of ACTIVE: receivers are judged anew, trackers no flow uses are released. -/
def portsDiff (s : State) : State :=
  let s1 := aesJudge 1 (aesJudge 0 s)
  (List.range 6).foldl (fun s t => if trackerUsed s t then s else onTracker t (fun _ => {}) s) s1

end Sys2Proof.Machine
end

