-- ==== Sys2Proof/Machine/Isa.lean ====
section
/-! DEFINITION. The Fregon syllables (R86–R99, R120, Table 3.4): what each does to the registers, the memories and the ports of
its unit. A syllable answers a list of effects computed from the state at issue, so that the four of a bundle read before
any of them writes (R94). -/

namespace Sys2Proof.Machine

/-- An effect of a syllable. -/
inductive Eff where
  | setG (i : Nat) (r : Reg)
  | setA (i : Nat) (a : Acc)
  | setP (i : Nat) (b : Bool)
  | store (delay : Bool) (idx : Nat) (w : Word) (t : BitVec 4)
  | ret (i : Nat) (x : Sample)
  | jump (t : Nat)
  | call (t : Nat)
  | back
  | loop (last n : Nat)
  | fend
  | bad (r : BadRead)
  | fix (addr : Nat)
  | spent (u : Upset) (cause addr : Nat)
  deriving DecidableEq, Repr

/-! ## Registers (R86, Table 3.2) -/

def core (s : State) (n : Nat) : Core := tget {} s.cores.core n

def onCore (n : Nat) (f : Core → Core) (s : State) : State :=
  { s with cores := { s.cores with core := tmod {} s.cores.core n f } }

def regs (s : State) : Site → Regs
  | .sc n => (core s n.val).regs
  | .cp => s.cp.regs

def onRegs (u : Site) (f : Regs → Regs) (s : State) : State :=
  match u with
  | .sc n => onCore n.val (fun c => { c with regs := f c.regs }) s
  | .cp => { s with cp := { s.cp with regs := f s.cp.regs } }

def dReg : Reg := ⟨0, 0⟩
def dAcc : Acc := ⟨0, 0⟩

/-- g0 reads value 0 with tag 0. -/
def gReg (s : State) (u : Site) (i : Nat) : Reg := if i = 0 then dReg else tget dReg (regs s u).g i
def aReg (s : State) (u : Site) (i : Nat) : Acc := tget dAcc (regs s u).a i

/-- p0 is always 1. -/
def pReg (s : State) (u : Site) (i : Nat) : Bool := i == 0 || tget false (regs s u).p i

/-- A predicate field lets its syllable execute (R92). -/
def predOk (s : State) (u : Site) (p : Pred) : Bool := pReg s u p.pr.toNat != p.pn

/-- Format K executes when p[PR] is 1 (R92). -/
def predK (s : State) (u : Site) (pr : BitVec 3) : Bool := pReg s u pr.toNat

/-! ## Addresses (R81) -/

def CoreBinding.en (b : CoreBinding) : Bool := bit b.word 31
def CoreBinding.slot (b : CoreBinding) : Nat := fld b.word 28 28
def CoreBinding.depth (b : CoreBinding) : Nat := fld b.word 27 26
def CoreBinding.rate (b : CoreBinding) : Nat := fld b.word 23 20

/-- The slot a core runs. -/
def slotNow (s : State) (n : Nat) : Nat := ((active s).bind n).slot

def slotOf (s : State) (n k : Nat) : Slot := tget {} s.cores.slots (2 * n + k)

/-- The byte address of a state word; on the CP it is a word of CPRAM (R120). -/
def stateAddr (u : Site) (idx : Nat) : Nat :=
  match u with
  | .sc n => aPram n.val + 0x10000 + 4 * (idx % 16384)
  | .cp => aCpram + 4 * (idx % 131072)

/-- The byte address of a delay word of a slot; none with no region (R83, R84). -/
def delayAddr (sl : Slot) (idx : Nat) : Option Nat :=
  if sl.pages.isEmpty then none
  else
    let i := idx % (sl.pages.length * 1024)
    some (aCore + sl.pages.getD (i / 1024) 0 * 4096 + 4 * (i % 1024))

/-- The index g[RA] + OFF10 of a memory access: g[RA] unsigned, and the sum not wrapped at 2^32 before the modulo of R81 (DESIGN
CHOICE, log entry 135: only a delay region whose size is no power of two shows it). -/
def memIdx (s : State) (u : Site) (ra : Nat) (off : Nat) : Nat := (gReg s u ra).val.toNat + off

/-- The core number of a unit (4 for the CP). -/
def unitNo : Site → Nat
  | .sc n => n.val
  | .cp => 4

/-! ## Results -/

/-- OVR, SET and CUT of two source tags; bit 0 is 0 (R87, R88). -/
def tags2 (a b : Reg) : BitVec 4 := tagOR a.tag b.tag
def tag1 (a : Reg) : BitVec 4 := a.tag &&& 0b1110#4

/-- A two-operand result. -/
def eff2 (f : Word → Word → Word) (s : State) (u : Site) (rd ra rb : BitVec 5) : List Eff :=
  let a := gReg s u ra.toNat
  let b := gReg s u rb.toNat
  [.setG rd.toNat ⟨f a.val b.val, tags2 a b⟩]

/-- A one-operand result. -/
def eff1 (f : Word → Word) (s : State) (u : Site) (rd ra : BitVec 5) : List Eff :=
  let a := gReg s u ra.toNat
  [.setG rd.toNat ⟨f a.val, tag1 a⟩]

/-- An integer result clamped to a word. -/
def sat (i : Int) : Word := intWord (satQ31 i)

def opAdds (a b : Word) : Word := sat (a.toInt + b.toInt)
def opSubs (a b : Word) : Word := sat (a.toInt - b.toInt)
def opMulq (a b : Word) : Word := sat (roundShift (a.toInt * b.toInt) 31)
def opMin (a b : Word) : Word := if a.toInt ≤ b.toInt then a else b
def opMax (a b : Word) : Word := if a.toInt ≤ b.toInt then b else a
def opAbs (a : Word) : Word := sat a.toInt.natAbs
def opShls (sh : Nat) (a : Word) : Word := sat (a.toInt * 2 ^ sh)

/-- SEL (R87, R98). -/
def effSel (s : State) (u : Site) (rd ra rb : BitVec 5) (ps : BitVec 3) : List Eff :=
  let r := if pReg s u ps.toNat then gReg s u ra.toNat else gReg s u rb.toNat
  [.setG rd.toNat ⟨r.val, tag1 r⟩]

/-- MOVL and MOVH (R98). -/
def effMovl (rd : BitVec 5) (imm : BitVec 16) : List Eff := [.setG rd.toNat ⟨imm.setWidth 32, 0⟩]
def effMovh (s : State) (u : Site) (rd : BitVec 5) (imm : BitVec 16) : List Eff :=
  let r := gReg s u rd.toNat
  [.setG rd.toNat ⟨toWord (imm.toNat * 65536 + r.val.toNat % 65536), r.tag⟩]

/-- Compares. -/
def effCmp (f : Int → Int → Bool) (s : State) (u : Site) (pd : BitVec 3) (ra rb : BitVec 5) : List Eff :=
  [.setP pd.toNat (f (gReg s u ra.toNat).val.toInt (gReg s u rb.toNat).val.toInt)]

/-- TSTT. -/
def effTstt (s : State) (u : Site) (pd : BitVec 3) (ra : BitVec 5) (mask : BitVec 4) : List Eff :=
  [.setP pd.toNat (((gReg s u ra.toNat).tag &&& mask) != 0)]

/-- Predicate logic. -/
def effPred (f : Bool → Bool → Bool) (s : State) (u : Site) (pd pa pb : BitVec 3) : List Eff :=
  [.setP pd.toNat (f (pReg s u pa.toNat) (pReg s u pb.toNat))]

/-- TAGS, TAGC: the tag bits of IMM10[3:1] (R90). -/
def effTag (set : Bool) (s : State) (u : Site) (rd ra : BitVec 5) (mask : BitVec 3) : List Eff :=
  let r := gReg s u ra.toNat
  let m : BitVec 4 := mask.setWidth 4 <<< 1
  [.setG rd.toNat ⟨r.val, (if set then r.tag ||| m else r.tag &&& ~~~m) &&& 0b1110#4⟩]

/-- TAGR. -/
def effTagr (s : State) (u : Site) (rd ra : BitVec 5) : List Eff :=
  [.setG rd.toNat ⟨(gReg s u ra.toNat).tag.setWidth 32, 0⟩]

/-- TAGW. -/
def effTagw (s : State) (u : Site) (rd ra rb : BitVec 5) : List Eff :=
  [.setG rd.toNat ⟨(gReg s u ra.toNat).val, (gReg s u rb.toNat).val.setWidth 4 &&& 0b1110#4⟩]

/-! ## Accumulators (R87, R98) -/

/-- OVR, SET and CUT as an accumulator holds them. -/
def accTag (t : BitVec 4) : BitVec 3 := (t >>> 1).setWidth 3

/-- The exact product of two registers in Q2.62. -/
def product (a b : Reg) : Int := a.val.toInt * b.val.toInt

/-- MACZ, MAC (sign 1) and MSU (sign −1). -/
def effMac (keep : Bool) (sign : Int) (s : State) (u : Site) (ad : BitVec 3) (ra rb : BitVec 5) : List Eff :=
  let a := gReg s u ra.toNat
  let b := gReg s u rb.toNat
  let old := if keep then aReg s u ad.toNat else dAcc
  [.setA ad.toNat ⟨BitVec.ofInt 72 (old.val.toInt + sign * product a b), old.tag ||| accTag (tags2 a b)⟩]

def effAccadd (s : State) (u : Site) (ad sa : BitVec 3) : List Eff :=
  let a := aReg s u ad.toNat
  let b := aReg s u sa.toNat
  [.setA ad.toNat ⟨a.val + b.val, a.tag ||| b.tag⟩]

def effAccmv (s : State) (u : Site) (ad : BitVec 3) (ra : BitVec 5) : List Eff :=
  let a := gReg s u ra.toNat
  [.setA ad.toNat ⟨BitVec.ofInt 72 (a.val.toInt * 2 ^ 31), accTag a.tag⟩]

def effAccrd (s : State) (u : Site) (rd : BitVec 5) (sa : BitVec 3) (sh : BitVec 5) : List Eff :=
  let a := aReg s u sa.toNat
  [.setG rd.toNat ⟨sat (roundShift (a.val.toInt * 2 ^ sh.toNat) 31), a.tag.setWidth 4 <<< 1⟩]

/-! ## Memory (R81, R88, R89, R98, R109) -/

/-- A read of a core has failed before (Table 3.8). -/
def failedBefore (s : State) (u : Site) (r : BadRead) : Bool := (core s (unitNo u)).lastErr.contains r

/-- A read of the word at an address has failed before, by its stored code or by its beat's parity (Table 3.8). -/
def failedWord (s : State) (u : Site) (addr : Nat) : Bool :=
  (core s (unitNo u)).lastErr.any (fun r => match r with
    | .word a | .beat a _ false => a == addr
    | .beat _ _ true | .send _ => false)

/-- The parity of a core's next beat on the matrix fails; its state memory lies on its own side (R360, R365). -/
def coreBeat (s : State) (u : Site) (addr : Nat) : Option BeatErr :=
  match u with
  | .cp => none
  | .sc n => if addr < aCore then none else (beatUpset n.val s).map (·.1)

/-- The error that waits for a master's beat. -/
def beatError (m : Nat) (e : BeatErr) : Upset := if e = .addr then .request m else .data m

/-- A word that fails again reads as value 0 with SET; a state or delay word is rewritten so (Table 3.8). -/
def readsLost (rd addr : Nat) (tagged : Bool) : List Eff := .setG rd ⟨0, tSET⟩ :: (if tagged then [.fix addr] else [])

/-- Load the word at an address into `rd`; a word that no longer decodes, or whose beat fails its parity, is a data error, and
reads as value 0 with SET where it has failed before (Table 3.8). -/
def loadAt (s : State) (u : Site) (rd : Nat) (addr : Nat) (tagged : Bool) : List Eff :=
  match coreBeat s u addr with
  | some e =>
    if failedWord s u addr then .spent (beatError (unitNo u) e) (errCause e) addr :: readsLost rd addr tagged
    else [.bad (.beat addr e false)]
  | none =>
  if s.mem.bad.contains addr then
    if failedWord s u addr then readsLost rd addr tagged
    else [.bad (.word addr)]
  else [.setG rd ⟨s.mem.word addr, if tagged then s.mem.tag addr &&& 0b1110#4 else 0⟩]

/-- The second register of a pair. -/
def rd2 (rd : BitVec 5) : Nat := (rd.toNat + 1) % 32

def effLdw (s : State) (u : Site) (rd ra : BitVec 5) (off : BitVec 10) : List Eff :=
  loadAt s u rd.toNat (stateAddr u (memIdx s u ra.toNat off.toNat)) true

def effLdw2 (s : State) (u : Site) (rd ra : BitVec 5) (off : BitVec 10) : List Eff :=
  effLdw s u rd ra off ++ loadAt s u (rd2 rd) (stateAddr u (memIdx s u ra.toNat off.toNat + 1)) true

def storeEff (delay : Bool) (s : State) (u : Site) (rd idx : Nat) : List Eff :=
  let r := gReg s u rd
  [.store delay idx r.val (tag1 r)]

def effStw (s : State) (u : Site) (rd ra : BitVec 5) (off : BitVec 10) : List Eff :=
  storeEff false s u rd.toNat (memIdx s u ra.toNat off.toNat)

def effStw2 (s : State) (u : Site) (rd ra : BitVec 5) (off : BitVec 10) : List Eff :=
  effStw s u rd ra off ++ storeEff false s u (rd2 rd) (memIdx s u ra.toNat off.toNat + 1)

def effLdp (s : State) (u : Site) (rd ra : BitVec 5) (off : BitVec 10) : List Eff :=
  loadAt s u rd.toNat (aPage (unitNo u) s.sets.selB + 4 * (memIdx s u ra.toNat off.toNat % 4096)) false

/-- The address of a coefficient word (Table 3.1). -/
def coefAddr (s : State) (u : Site) (idx : Nat) : Nat :=
  aCram + unitNo u * 0x10000 + slotNow s (unitNo u) * 0x8000 + 4 * (idx % 8192)

def effLdc (s : State) (u : Site) (rd ra : BitVec 5) (off : BitVec 10) : List Eff :=
  loadAt s u rd.toNat (coefAddr s u (memIdx s u ra.toNat off.toNat)) false

def effLdc2 (s : State) (u : Site) (rd ra : BitVec 5) (off : BitVec 10) : List Eff :=
  effLdc s u rd ra off ++ loadAt s u (rd2 rd) (coefAddr s u (memIdx s u ra.toNat off.toNat + 1)) false

/-- The slot whose delay region the core uses. -/
def delaySlot (s : State) (u : Site) : Slot := slotOf s (unitNo u) (slotNow s (unitNo u))

def effLdd (s : State) (u : Site) (rd ra : BitVec 5) (off : BitVec 10) : List Eff :=
  match delayAddr (delaySlot s u) (memIdx s u ra.toNat off.toNat) with
  | some a => loadAt s u rd.toNat a true
  | none => [.setG rd.toNat ⟨0, tSET⟩]

def effStd (s : State) (u : Site) (rd ra : BitVec 5) (off : BitVec 10) : List Eff :=
  let i := memIdx s u ra.toNat off.toNat
  match delayAddr (delaySlot s u) i with
  | none => []
  | some a =>
    match coreBeat s u a with
    | some e => [.bad (.beat a e true)]
    | none => storeEff true s u rd.toNat i

/-- The port and sample a port access names: index 16·port + sample (R98). -/
def portIdx (s : State) (u : Site) (rp ri : BitVec 5) (imm : BitVec 5) : Nat :=
  16 * ((gReg s u rp.toNat).val.toNat % 32) + ((gReg s u ri.toNat).val.toNat + imm.toNat) % 16

/-- A sample of an input frame: value 0 with SET where no flow feeds the port. -/
def dSend : Sample := ⟨0, tSET⟩

/-- A send sample of the frame in computation fails its check (Table 3.8). -/
def sendLost (s : State) (u : Site) (i : Nat) : Bool :=
  match u with | .sc n => upset s (.send n i) | .cp => false

def effLds (s : State) (u : Site) (rd rp ri : BitVec 5) (imm : BitVec 5) : List Eff :=
  let i := portIdx s u rp ri imm
  let b := (active s).bind (unitNo u)
  if bit b.sends (i / 16) then
    if sendLost s u i then
      if failedBefore s u (.send i) then [.setG rd.toNat ⟨0, tSET⟩] else [.bad (.send i)]
    else
    let x := tget dSend (core s (unitNo u)).input i
    [.setG rd.toNat ⟨x.val, x.tag &&& 0b1110#4⟩]
  else [.setG rd.toNat ⟨0, tSET⟩]

def effStr (s : State) (u : Site) (rd rp ri : BitVec 5) (imm : BitVec 5) : List Eff :=
  let i := portIdx s u rp ri imm
  let b := (active s).bind (unitNo u)
  let r := gReg s u rd.toNat
  if bit b.returns (i / 16) then [.ret i ⟨r.val, stamp s r.tag⟩] else []

/-! ## Control (R96, R97) -/

/-- LOOP runs g[RC] times, clamped to 2^MAXE, and 0 times when it is 0 or negative. -/
def loopCount (s : State) (u : Site) (rc : BitVec 5) (maxe : BitVec 4) : Nat :=
  min (gReg s u rc.toNat).val.toInt.toNat (2 ^ maxe.toNat)

/-! ## Effects take place -/

/-- Write a tagged word of a memory that holds tags. -/
def putTagged (addr : Nat) (w : Word) (t : BitVec 4) (s : State) : State := { s with mem := s.mem.setWord addr w t }

/-- A versioned store of a core: its old content goes to the checkpoint buffer first (R107). Old content that no
longer decodes goes there as it stands, and no error is met by that (DESIGN CHOICE, log entry 198). CPRAM holds no tags. -/
def storeWord (u : Site) (delay : Bool) (idx : Nat) (w : Word) (t : BitVec 4) (s : State) : State :=
  match u with
  | .cp => { s with mem := s.mem.setPlain (stateAddr u idx) w }
  | .sc n =>
    let addr := if delay then delayAddr (delaySlot s u) idx else some (stateAddr u idx)
    match addr with
    | none => s
    | some a =>
      let old : Undo := ⟨delay, idx, s.mem.word a, s.mem.tag a⟩
      putTagged a w t (onCore n.val (fun c => { c with undo := old :: c.undo }) s)

/-- One register or memory effect; control effects are `nextPc`'s. -/
def applyEff (u : Site) (e : Eff) (s : State) : State :=
  match e with
  | .setG i r => if i = 0 then s else onRegs u (fun x => { x with g := tput dReg x.g i r }) s
  | .setA i a => onRegs u (fun x => { x with a := tput dAcc x.a i a }) s
  | .setP i b => if i = 0 then s else onRegs u (fun x => { x with p := tput false x.p i b }) s
  | .store d i w t => storeWord u d i w t s
  | .ret i x => onCore (unitNo u) (fun c => { c with out := tput dSend c.out i x }) s
  | .fend => onRegs u (fun x => { x with ended := true }) s
  | .fix a =>
    let m := s.mem.setWord a 0 tSET
    { s with mem := { m with bad := m.bad.filter (· != a) } }
  | .spent x c a => logAbort (unitNo u) ((rowOf a).elim 0xF (·.1)) c false 0 a (dropUpset x s)
  | .jump _ | .call _ | .back | .loop _ _ | .bad _ => s

/-- Loop levels of call level `depth` that a jump to `t` leaves end; those of a caller go on (R96). -/
def leaveLoops (depth t : Nat) : List LoopRec → List LoopRec
  | [] => []
  | l :: r => if l.depth < depth ∨ (l.first ≤ t ∧ t ≤ l.last) then l :: r else leaveLoops depth t r

/-- The index after bundle `pc` with no jump: loops of call level `depth` repeat or end (R96). -/
def fallThrough (depth pc : Nat) : List LoopRec → Nat × List LoopRec
  | [] => (pc + 1, [])
  | l :: r =>
    if l.depth = depth ∧ pc = l.last then
      if 1 < l.left then (l.first, { l with left := l.left - 1 } :: r) else fallThrough depth pc r
    else (pc + 1, l :: r)

/-- Call levels of a unit (R96, R120). -/
def callDepth : Site → Nat
  | .sc _ => 4
  | .cp => 16

/-- The control part of a bundle: its last control effect, else the next bundle. A RET ends the loop levels entered in the body
it leaves (DESIGN CHOICE, log entry 134). -/
def nextPc (u : Site) (effs : List Eff) (r : Regs) : Except Fault Regs :=
  let depth := r.calls.length
  let after := fallThrough depth r.pc r.loops
  match effs.getLast? with
  | some (.jump t) => .ok { r with pc := t, loops := leaveLoops depth t r.loops }
  | some (.call t) =>
    if depth < callDepth u then .ok { r with pc := t, calls := after.1 :: r.calls, loops := after.2 }
    else .error .callOverflow
  | some .back =>
    match r.calls with
    | [] => .error .callUnderflow
    | c :: cs => .ok { r with pc := c, calls := cs, loops := r.loops.filter (fun l => decide (l.depth ≤ cs.length)) }
  | some (.loop last n) =>
    if n = 0 then
      let f := fallThrough depth last r.loops
      .ok { r with pc := f.1, loops := f.2 }
    else if r.loops.length < 2 then .ok { r with pc := r.pc + 1, loops := ⟨r.pc + 1, last, n, depth⟩ :: r.loops }
    else .error .loopOverflow
  | _ => .ok { r with pc := after.1, loops := after.2 }

/-- Issue one bundle whose syllables have the given effects, in slot order (M, A0, A1, C). -/
def issue (u : Site) (effs : List Eff) (s : State) : Except Fault State :=
  let s1 := effs.foldl (fun s e => applyEff u e s) s
  match nextPc u effs (regs s1 u) with
  | .ok r => .ok (onRegs u (fun _ => r) s1)
  | .error f => .error f

end Sys2Proof.Machine
end

