-- ==== Sys2Proof/Machine/CoreRun.lean ====
section
/-! DEFINITION. The stream cores' frames (R91–R111): the encoding of syllables (Table 3.3), the interlock, a whole frame
computation, presentation, fallback, rollback, binding changes; and CORE.BIND, CORE.PARAM, CORE.READ (R115, R117, R118). -/

namespace Sys2Proof.Machine

/-! ## Encoding (R91–R93, Table 3.3) -/

def opc (w : Word) : Nat := fld w 31 24
def fPr (w : Word) : Nat := if opc w = 0x12 ∨ opc w = 0x13 then fld w 23 21 else fld w 22 20
def fRd (w : Word) : BitVec 5 := BitVec.ofNat 5 (if opc w = 0x12 ∨ opc w = 0x13 then fld w 20 16 else fld w 19 15)
def fRa (w : Word) : BitVec 5 := BitVec.ofNat 5 (fld w 14 10)
def fRb (w : Word) : BitVec 5 := BitVec.ofNat 5 (fld w 9 5)
def fSh (w : Word) : BitVec 5 := BitVec.ofNat 5 (fld w 4 0)
def fPd (w : Word) : BitVec 3 := BitVec.ofNat 3 (fld w 19 17)
def fPa (w : Word) : BitVec 3 := BitVec.ofNat 3 (fld w 14 12)
def fPb (w : Word) : BitVec 3 := BitVec.ofNat 3 (fld w 9 7)
def fOff (w : Word) : BitVec 10 := BitVec.ofNat 10 (fld w 9 0)
def fTarget (w : Word) : Nat := fld w 10 0

/-- The operand bits of [19:0] an opcode uses; none for an opcode reserved in a stream core's bundles. Bits [9:4] and [0] of the
IMM10 of TAGS and TAGC count as fields the instruction does not use (DESIGN CHOICE, log entry 136). -/
def opBits (op : Nat) : Option Word :=
  match op with
  | 0x01 | 0x02 | 0x03 | 0x04 | 0x05 | 0x06 | 0x07 | 0x0C | 0x0D | 0x0E | 0x1F => some 0xFFFE0
  | 0x08 | 0x09 | 0x0A | 0x0B => some 0xFFC1F
  | 0x0F | 0x1E => some 0xFFC00
  | 0x10 => some 0xFFFE7
  | 0x11 | 0x12 | 0x13 => some 0xFFFFF
  | 0x14 | 0x15 | 0x16 => some 0xE7FE0
  | 0x17 => some 0xE7DE0
  | 0x18 | 0x19 => some 0xE7380
  | 0x1A => some 0xE7000
  | 0x1C | 0x1D => some 0xFFC0E
  | 0x20 | 0x21 | 0x22 => some 0xE7FE0
  | 0x23 => some 0xE7000
  | 0x24 => some 0xE7C00
  | 0x25 => some 0xFF01F
  | 0x40 | 0x41 | 0x42 | 0x43 | 0x44 | 0x45 | 0x46 | 0x48 | 0x49 | 0x4C | 0x4D => some 0xFFFFF
  | 0x80 | 0x81 => some 0x7FF
  | 0x82 | 0x88 => some 0
  | 0x83 | 0x84 => some 0xFFFFF
  | _ => none

/-- No reserved opcode, field bit or encoding (R93). -/
def sylValid (w : Word) : Bool :=
  w == 0 ||
  match opBits (opc w) with
  | none => false
  | some m =>
    within w (m ||| 0xFFF00000) && !(opc w == 0x25 && decide (8 < fld w 4 0)) && !(opc w == 0x84 && fld w 19 11 == 0)

/-- The class of a syllable: 0 A, 1 M, 2 C, 3 reserved (R91). -/
def sylClass (w : Word) : Nat := opc w / 64

/-- A syllable executes (R92). -/
def sylOn (s : State) (u : Site) (w : Word) : Bool :=
  if opc w = 0x12 ∨ opc w = 0x13 then predK s u (BitVec.ofNat 3 (fld w 23 21))
  else predOk s u ⟨bit w 23, BitVec.ofNat 3 (fld w 22 20)⟩

/-- The effects of an encoded syllable that executes. -/
def sylEff (s : State) (u : Site) (w : Word) : List Eff :=
  let rd := fRd w
  let ra := fRa w
  let rb := fRb w
  let sh := fld w 4 0
  match opc w with
  | 0x01 => eff2 (· + ·) s u rd ra rb
  | 0x02 => eff2 opAdds s u rd ra rb
  | 0x03 => eff2 (· - ·) s u rd ra rb
  | 0x04 => eff2 opSubs s u rd ra rb
  | 0x05 => eff2 (· &&& ·) s u rd ra rb
  | 0x06 => eff2 (· ||| ·) s u rd ra rb
  | 0x07 => eff2 (· ^^^ ·) s u rd ra rb
  | 0x08 => eff1 (· <<< sh) s u rd ra
  | 0x09 => eff1 (· >>> sh) s u rd ra
  | 0x0A => eff1 (·.sshiftRight sh) s u rd ra
  | 0x0B => eff1 (opShls sh) s u rd ra
  | 0x0C => eff2 opMulq s u rd ra rb
  | 0x0D => eff2 opMin s u rd ra rb
  | 0x0E => eff2 opMax s u rd ra rb
  | 0x0F => eff1 opAbs s u rd ra
  | 0x10 => effSel s u rd ra rb (BitVec.ofNat 3 sh)
  | 0x11 => eff1 (· + (fOff w).signExtend 32) s u rd ra
  | 0x12 => effMovl rd (w.setWidth 16)
  | 0x13 => effMovh s u rd (w.setWidth 16)
  | 0x14 => effCmp (fun a b => decide (a < b)) s u (fPd w) ra rb
  | 0x15 => effCmp (fun a b => decide (a ≤ b)) s u (fPd w) ra rb
  | 0x16 => effCmp (fun a b => decide (a = b)) s u (fPd w) ra rb
  | 0x17 => effTstt s u (fPd w) ra (BitVec.ofNat 4 (fld w 8 5))
  | 0x18 => effPred (· && ·) s u (fPd w) (fPa w) (fPb w)
  | 0x19 => effPred (· || ·) s u (fPd w) (fPa w) (fPb w)
  | 0x1A => effPred (fun a _ => !a) s u (fPd w) (fPa w) 0
  | 0x1C => effTag true s u rd ra (BitVec.ofNat 3 (fld w 3 1))
  | 0x1D => effTag false s u rd ra (BitVec.ofNat 3 (fld w 3 1))
  | 0x1E => effTagr s u rd ra
  | 0x1F => effTagw s u rd ra rb
  | 0x20 => effMac false 1 s u (fPd w) ra rb
  | 0x21 => effMac true 1 s u (fPd w) ra rb
  | 0x22 => effMac true (-1) s u (fPd w) ra rb
  | 0x23 => effAccadd s u (fPd w) (fPa w)
  | 0x24 => effAccmv s u (fPd w) ra
  | 0x25 => effAccrd s u rd (fPa w) (fSh w)
  | 0x40 => effLdw s u rd ra (fOff w)
  | 0x41 => effLdw2 s u rd ra (fOff w)
  | 0x42 => effStw s u rd ra (fOff w)
  | 0x43 => effStw2 s u rd ra (fOff w)
  | 0x44 => effLdp s u rd ra (fOff w)
  | 0x45 => effLdc s u rd ra (fOff w)
  | 0x46 => effLdc2 s u rd ra (fOff w)
  | 0x48 => effLdd s u rd ra (fOff w)
  | 0x49 => effStd s u rd ra (fOff w)
  | 0x4C => effLds s u rd ra rb (fSh w)
  | 0x4D => effStr s u rd ra rb (fSh w)
  | 0x80 => [.jump (fTarget w)]
  | 0x81 => [.call (fTarget w)]
  | 0x82 => [.back]
  | 0x83 => [.loop (fTarget w) (loopCount s u rd (BitVec.ofNat 4 (fld w 14 11)))]
  | 0x84 => [.loop (fTarget w) (fld w 19 11)]
  | 0x88 => [.fend]
  | _ => []

/-! ## Interlock (R94, Table 3.4). Resources: g i is i, a i is 32 + i, p i is 40 + i. -/

def rG (i : Nat) : List Nat := if i = 0 then [] else [i]
def rA (i : Nat) : List Nat := [32 + i]
def rP (i : Nat) : List Nat := if i = 0 then [] else [40 + i]

/-- MAC-class: MACZ, MAC, MSU. -/
def isMac (op : Nat) : Bool := op == 0x20 || op == 0x21 || op == 0x22

/-- What a syllable waits for: its sources, and the accumulator that ACCADD or ACCMV overwrites. Neither this nor what it writes
depends on its predicate (DESIGN CHOICE, log entry 137). -/
def sylReads (w : Word) : List Nat :=
  let rd := (fRd w).toNat
  let ra := (fRa w).toNat
  let rb := (fRb w).toNat
  if w = 0 then []
  else
  rP (fPr w) ++
  match opc w with
  | 0x08 | 0x09 | 0x0A | 0x0B | 0x0F | 0x11 | 0x17 | 0x1C | 0x1D | 0x1E => rG ra
  | 0x10 => rG ra ++ rG rb ++ rP (fld w 2 0)
  | 0x12 => []
  | 0x13 => rG rd
  | 0x18 | 0x19 => rP (fPa w).toNat ++ rP (fPb w).toNat
  | 0x1A => rP (fPa w).toNat
  | 0x20 => rG ra ++ rG rb
  | 0x21 | 0x22 => rG ra ++ rG rb ++ rA (fPd w).toNat
  | 0x23 => rA (fPd w).toNat ++ rA (fPa w).toNat
  | 0x24 => rG ra ++ rA (fPd w).toNat
  | 0x25 => rA (fPa w).toNat
  | 0x40 | 0x41 | 0x44 | 0x45 | 0x46 | 0x48 => rG ra
  | 0x42 | 0x49 => rG ra ++ rG rd
  | 0x43 => rG ra ++ rG rd ++ rG (rd2 (fRd w))
  | 0x4C => rG ra ++ rG rb
  | 0x4D => rG ra ++ rG rb ++ rG rd
  | 0x80 | 0x81 | 0x82 | 0x84 | 0x88 => []
  | 0x83 => rG rd
  | _ => rG ra ++ rG rb

/-- What a syllable writes. A write of g0 or p0 is discarded and counts as none: two syllables of a bundle may both name it (DESIGN
CHOICE, log entry 179). -/
def sylWrites (w : Word) : List Nat :=
  let rd := (fRd w).toNat
  if w = 0 then []
  else match opc w with
  | 0x14 | 0x15 | 0x16 | 0x17 | 0x18 | 0x19 | 0x1A => rP (fPd w).toNat
  | 0x20 | 0x21 | 0x22 | 0x23 | 0x24 => rA (fPd w).toNat
  | 0x41 | 0x46 => rG rd ++ rG (rd2 (fRd w))
  | 0x42 | 0x43 | 0x49 | 0x4D => []
  | 0x80 | 0x81 | 0x82 | 0x83 | 0x84 | 0x88 => []
  | _ => rG rd

/-- The latency of a result (Table 3.4). -/
def sylLatency (op : Nat) : Nat :=
  if op = 0x0C ∨ (0x20 ≤ op ∧ op ≤ 0x24) then 3
  else if op = 0x25 ∨ (0x40 ≤ op ∧ op < 0x80) then 2 else 1

/-- A result on its way: its resource, the cycles until it is readable, and whether a MAC-class syllable made it. -/
structure Coming where
  res : Nat
  left : Nat
  mac : Bool
  deriving DecidableEq, Repr

/-- The cycles a syllable waits. -/
def sylWait (sb : List Coming) (w : Word) : Nat :=
  (sb.filter (fun c => (sylReads w).contains c.res && !(c.mac && isMac (opc w)))).foldl (fun m c => max m c.left) 0

/-- The stalls of a bundle. -/
def stalls (sb : List Coming) (ws : List Word) : Nat := ws.foldl (fun m w => max m (sylWait sb w)) 0

/-- `n` cycles pass. -/
def passCycles (n : Nat) (sb : List Coming) : List Coming :=
  (sb.map (fun c => { c with left := c.left - n })).filter (fun c => c.left != 0)

/-- The results a bundle puts on their way. -/
def bundleComing (ws : List Word) : List Coming :=
  ws.flatMap (fun w => (sylWrites w).map (fun r => ⟨r, sylLatency (opc w), isMac (opc w)⟩))

/-- The interlock after a bundle that took `n` cycles from its issue. -/
def afterBundle (n : Nat) (sb : List Coming) (ws : List Word) : List Coming := passCycles n (bundleComing ws ++ sb)

/-- The charge of an access to the delay region (R112). -/
def delayCharge (w : Word) : Nat := if opc w = 0x48 ∨ opc w = 0x49 then 24 else 0

/-! ## A frame computation (R97, R102, R105, R107) -/

/-- The four syllables of bundle `b`: M, A0, A1, C. -/
def fetch (s : State) (n slot b : Nat) : List Word := s.mem.words (aPram n + slot * 0x8000 + 16 * b) 4

/-- A syllable of bundle `b` no longer decodes (Table 3.8). -/
def fetchLost (s : State) (n slot b : Nat) : Bool :=
  (List.range 4).any (fun i => s.mem.bad.contains (aPram n + slot * 0x8000 + 16 * b + 4 * i))

/-- How a frame computation ends: FEND (or a fault of its bundles), a data read that fails, or a code fetch that fails. -/
inductive Ending where
  | complete
  | badData (r : BadRead)
  | badCode (b : Nat)
  deriving DecidableEq, Repr

/-- The read that fails, of a bundle's effects. -/
def badRead : List Eff → Option BadRead
  | [] => none
  | .bad r :: _ => some r
  | _ :: es => badRead es

/-- Frame-entry registers (Table 3.7). -/
def entryRegs (frameNo epoch : Nat) (first cutIn : Bool) (entry : Nat) : Regs :=
  { g := tput dReg (tput dReg (tput dReg [] 1 ⟨toWord frameNo, 0⟩) 2 ⟨toWord (epoch % 65536), 0⟩) 3
      ⟨toWord (b2n first + 2 * b2n cutIn), 0⟩
    pc := entry }

/-- Bundles until FEND, at most `fuel`: the state, the cycles and how the computation ends. -/
def runBundles (n : Fin 4) (slot : Nat) : Nat → List Coming → Nat → State → State × Nat × Ending
  | 0, _, cyc, s => (s, cyc, .complete)
  | fuel + 1, sb, cyc, s =>
    let u := Site.sc n
    let b := (regs s u).pc
    if fetchLost s n.val slot b then (s, cyc, .badCode b) else
    let ws := fetch s n.val slot b
    let on := ws.filter (sylOn s u)
    let effs := on.flatMap (sylEff s u)
    match badRead effs with
    | some r => (s, cyc, .badData r)
    | none =>
      let jumped := match effs.getLast? with | some (.jump _) | some (.call _) | some .back => 1 | _ => 0
      let w := stalls sb ws
      let after := 1 + jumped + (on.map delayCharge).foldl (· + ·) 0
      match issue u effs s with
      | .error _ => (s, cyc + w + after, .complete)
      | .ok s1 =>
        if (regs s1 u).ended then (s1, cyc + w + after, .complete)
        else runBundles n slot fuel (afterBundle after (passCycles w sb) ws) (cyc + w + after) s1

/-- The flows of core `n`'s ports in a set. -/
def portFlows (c : ConfigSet) (n : Nat) (p : Nat → Bool) : List Nat :=
  flowsWith c (fun f q => q.kind == 6 && q.ep / 32 == n && p f)

/-- The return (or send) flows begin a frame. -/
def rewind (n : Nat) (p : Nat → Bool) (s : State) : State :=
  (portFlows (active s) n p).foldl (fun s f => onFlow f (fun r => { r with pos := 0 }) s) s

/-- A binding change at a boundary: what was held is discarded, the memories are to be cleared. -/
def bindChange (n : Nat) (s : State) : State :=
  let b := (active s).bind n
  rewind n (fun _ => true) (onCore n (fun c =>
    if b.en then
      { st := .running, clearing := true, first := true, dueIn := 1 + b.depth
        fallbacks := c.fallbacks, rollbacks := c.rollbacks, peakPct := c.peakPct }
    else { fallbacks := c.fallbacks, rollbacks := c.rollbacks, peakPct := c.peakPct }) s)

/-- Undo checkpoint entries, newest first (R108). -/
def undoEntries (n : Nat) (es : List Undo) (s : State) : State :=
  es.foldl (fun s e =>
    let u := if e.delay then delayAddr (slotOf s n (slotNow s n)) e.idx else some (aPram n + 0x10000 + 4 * (e.idx % 16384))
    match u with
    | some a => putTagged a e.val e.tag s
    | none => s) s

/-- The cycles an undo takes (R108). -/
def undoCycles (es : List Undo) : Nat := es.foldl (fun c e => c + if e.delay then 8 else 2) 0

/-- ROLLBACKS counts. -/
def countRollback (n : Nat) (s : State) : State := onCore n (fun c => { c with rollbacks := min 255 (c.rollbacks + 1) }) s

/-- A checkpoint entry of core `n` fails its check. -/
def undoLost (s : State) (n : Nat) : Bool := s.mem.upsets.any (fun u => match u with | .checkpoint m => m.val == n | _ => false)

/-- An uncorrectable checkpoint entry during an undo (Table 3.8): the rollback is treated as a binding change of the same binding,
and FAULT is raised. -/
def checkpointLost (n : Nat) (s : State) : State :=
  let s1 := { s with mem := { s.mem with
    upsets := s.mem.upsets.filter (fun u => match u with | .checkpoint m => m.val != n | _ => true) } }
  logUndoBuffer 2 n (bindChange n s1)

/-- What a core keeps of a frame it presents. -/
def Frame.version (f : Frame) : Version := ⟨f.epoch, f.out⟩

/-- Every held frame is undone and its input waits again; its old version is kept for a fallback (R108, R110). With none held, a
trigger that falls while discarded frames are still to be computed again counts once more (Table 3.8). -/
def rollback (n : Nat) (s : State) : State :=
  let c := core s n
  match c.held with
  | [] => if 0 < c.redo ∨ c.retry then countRollback n s else s
  | f :: _ =>
    if undoLost s n then checkpointLost n s else
    let es := (c.held.reverse).flatMap (·.undo)
    let s1 := undoEntries n es s
    countRollback n (onCore n (fun c => { c with
      inputs := c.held.map (·.input) ++ c.inputs
      stale := c.held.map (·.version) ++ c.stale.drop c.held.length
      held := []
      redo := c.redo + c.held.length
      frameNo := f.no
      first := f.first
      cutIn := f.cutIn
      undoCost := c.undoCost + undoCycles es }) s1)

/-- Cycles in percent of the frame's, derated or not (R449), rounded up (Table 3.11). PEAK_PCT holds at most 255 (DESIGN CHOICE,
log entry 180). -/
def pctOf (s : State) (cyc rate : Nat) : Nat :=
  min 255 (ceilDiv (cyc * rateHz rate * 100) ((if bit s.margin.w0 5 then 479232000 else 491520000) * 16))

/-- CUTIN: a sample on an enabled send carries CUT (Table 3.7). -/
def cutOn (b : CoreBinding) (input : Tab Sample) : Bool :=
  input.any (fun x => bit b.sends (x.1 / 16) && x.2.tag.getLsbD 1)

/-- The core may compute: bound, running, its memories cleared, CORE clocked (R103, R105, R412, Table 3.8). -/
def coreReady (s : State) (n : Nat) : Bool :=
  (core s n).st == .running && !(core s n).clearing && running s && !pllbUnlocked s && !inSafe s

/-- What is in progress and held is rolled back at once (R108, Table 3.8); `failed` are the words whose read has failed. -/
def undoAll (n : Nat) (failed : List BadRead) (s : State) : State :=
  let c := core s n
  if undoLost s n ∧ (c.undo ≠ [] ∨ c.held ≠ []) then checkpointLost n s
  else
    let s1 := undoEntries n c.undo s
    let s2 := onCore n (fun c => { c with
      undo := [], out := [], retry := true, lastErr := failed, undoCost := c.undoCost + undoCycles c.undo }) s1
    if c.held.isEmpty then countRollback n s2 else rollback n s2

/-- The lane buffer from which the flow engine fetched a sample of core `n`'s send port (R85); none is bound: OL0's. -/
def sendLane (s : State) (n i : Nat) : Nat :=
  let c := active s
  128 + (match flowsWith c (fun f q => q.kind == 6 && q.ep == 32 * n + i / 16 && decide (128 ≤ f)) with
    | f :: _ => (c.flow f).lane
    | [] => 0)

/-- A data error (Table 3.8): what is in progress and held is rolled back at once, and the error logged. A send sample is data on
its way, so its entry is a parity record of the core's master port (DESIGN CHOICE, log entry 144). A word stays known as failed
while it still does. -/
def dataError (n : Nat) (r : BadRead) (s : State) : State :=
  let s1 := undoAll n (r :: (core s n).lastErr) s
  match r with
  | .word a => logRow 2 a s1
  | .send i => logAbort n 6 7 false 0 (aLane (sendLane s n i) (i % 16)) s1
  | .beat a e w => logAbort n ((rowOf a).elim 0xF (·.1)) (errCause e) w 0 a (dropUpset (beatError n e) s1)

/-- The failed words of which the memory still does not decode, or whose frame is still to be computed. -/
def stillBad (s : State) (l : List BadRead) : List BadRead :=
  l.filter (fun r => match r with | .word a => s.mem.bad.contains a | .send _ | .beat _ _ _ => true)

/-- A core's code fetch fails (Table 3.8): it halts on its slot. -/
def codeHalt (n k b : Nat) (s : State) : State :=
  logCodeRow n (aPram n + k * 0x8000 + 16 * (b % 2048)) (onCore n (fun c => { c with
    st := .halted, haltSlot := k, held := [], inputs := [], stale := [], redo := 0, retry := false, shown := none, shownCut := false
    undo := [], out := [] }) s)

/-- The send samples of a computed frame are released: their errors are gone with them. -/
def dropSends (n : Fin 4) (s : State) : State :=
  { s with mem := { s.mem with upsets := s.mem.upsets.filter (fun u => match u with | .send m _ => m != n | _ => true) } }

/-- CORE_FRAME_COMPUTE (R102, R105). After FEND the next fetch is at ENTRY (R100). No lock of the CP meets a
core: the banks of the delay regions are not lockable, and parameter pages and coefficients have ports of their own (Table 10.2, R349). A register whose parity fails is met in the first frame computed (R366, Table 3.8). -/
def coreFrameCompute (n : Fin 4) (s : State) : State :=
  let b := (active s).bind n.val
  let c := core s n.val
  match c.inputs with
  | [] => s
  | x :: rest =>
    if coreReady s n.val ∧ c.held.length < b.depth then
      let sl := slotOf s n.val b.slot
      if fetchLost s n.val b.slot 0 then codeHalt n.val b.slot 0 s else
      let entry := fld ((fetch s n.val b.slot 0).getD 0 0) 10 0
      let cut := c.cutIn || cutOn b x
      let s1 := onCore n.val (fun c => { c with
        regs := entryRegs c.frameNo s.sets.epoch c.first cut entry, input := x, out := [], undo := []
        lastErr := stillBad s c.lastErr }) s
      match registerUpset s (.sc n) with
      | some r => logRegister (.sc n) r (undoAll n.val c.lastErr s)
      | none =>
      let r := runBundles n b.slot (max sl.cycles 1) [] (64 + c.undoCost) s1
      match r.2.2 with
      | .badData a => dataError n.val a r.1
      | .badCode p => codeHalt n.val b.slot p r.1
      | .complete =>
        onCore n.val (fun k =>
          let f : Frame := ⟨k.frameNo, s.sets.epoch, k.first, k.cutIn, x, k.out, k.undo⟩
          { k with
            inputs := rest
            held := if k.late = 0 then k.held ++ [f] else k.held
            late := k.late - 1
            frameNo := k.frameNo + 1
            first := false
            cutIn := false
            undo := []
            undoCost := 0
            redo := k.redo - 1
            retry := false
            regs := { k.regs with pc := entry }
            lastErr := k.lastErr.filter (fun r => match r with | .word _ => true | .send _ | .beat _ _ _ => false)
            peakPct := max k.peakPct (pctOf s r.2.1 b.rate) }) (dropSends n r.1)
    else s

/-! ## Presentation and fallback (R104, R105, R110) -/

/-- How many complete input frames wait for a core at most; newer ones are dropped (DESIGN CHOICE, log entry 139). -/
def inputDepth : Nat := 4

/-- A core with no running send flow has its input frame complete at the boundary (R99, R105). -/
def idleInput (n : Nat) (s : State) : State :=
  if ((portFlows (active s) n (fun f => decide (128 ≤ f))).any (fun f => (flowRun s f).running)) then s
  else onCore n (fun c => { c with inputs := (c.inputs ++ [[]]).take inputDepth }) s

/-- FRAME_PRESENTATION at a boundary of the core's rate (R104–R106, R110). Presentations at a boundary come before the swap
and the writes that take effect there. -/
def framePresentation (n : Nat) (s : State) : State :=
  let b := (active s).bind n
  let c := core s n
  if c.st = .running ∧ b.en ∧ audioRuns s then
    let s0 := rewind n (fun f => decide (f < 128)) (idleInput n s)
    if 1 < c.dueIn then onCore n (fun c => { c with dueIn := c.dueIn - 1, cutFirst := false }) s0
    else match c.held with
      | f :: r =>
        onCore n (fun c => { c with dueIn := 0, shown := some f.version, shownCut := false, held := r
                                    stale := c.stale.drop 1, cutFirst := c.cutNext, cutNext := false }) s0
      | [] =>
        raiseIrq irqFallback (onCore n (fun c => { c with
          dueIn := 0
          shown := some (c.stale.headD ⟨s.sets.epoch, []⟩)
          shownCut := true
          stale := c.stale.drop 1
          cutFirst := true
          cutNext := true
          late := c.late + 1
          fallbacks := min 255 (c.fallbacks + 1) }) s0)
  else s

/-- EPO of a sample of the frame in presentation (R27). -/
def Version.epo (v : Version) : BitVec 4 := BitVec.ofNat 4 (v.epoch % 2)

/-- The sample a return flow takes (R97, Table 3.8): the presented frame's, or value 0 with SET. All 16 of a stale frame carry CUT
(R110). A sample the frame did not write carries the frame's EPO. -/
def returnSample (s : State) (ep pos : Nat) : Sample :=
  let n := ep / 32
  let c := core s n
  let i := 16 * (ep % 32) + pos % 16
  let cut : BitVec 4 := if c.st = .halted ∨ c.shownCut ∨ (c.cutFirst ∧ pos % 16 = 0) then tCUT else 0
  match c.st, c.shown with
  | .running, some v =>
    let x := tget ⟨0, tSET ||| v.epo⟩ v.out i
    ⟨x.val, x.tag ||| cut⟩
  | _, _ => ⟨0, tSET ||| cut ||| epo s⟩

/-- A send sample enters the input frame being gathered; with the last one the frame is complete (R105). -/
def sendSample (f ep : Nat) (x : Sample) (s : State) : State :=
  let n := ep / 32
  let pos := (flowRun s f).pos
  let s1 := onFlow f (fun r => { r with pos := r.pos + 1 })
    (onCore n (fun c => { c with sendBuf := tput dSend c.sendBuf (16 * (ep % 32) + pos % 16) x }) s)
  let fs := (portFlows (active s) n (fun f => decide (128 ≤ f))).filter (fun f => (flowRun s1 f).running)
  if fs.all (fun f => decide (16 ≤ (flowRun s1 f).pos)) then
    onCore n (fun c => { c with inputs := (c.inputs ++ [c.sendBuf]).take inputDepth, sendBuf := [] })
      (fs.foldl (fun s f => onFlow f (fun r => { r with pos := 0 }) s) s1)
  else s1

/-! ## Binding changes and triggers (R103, R109, R116, Table 3.8) -/

/-- A synchronising reset at a core, or the return of its clock (Table 3.8). -/
def coreSync (s : State) (n : Nat) : State :=
  let b := (active s).bind n
  if b.en ∧ (core s n).st = .running then
    rewind n (fun _ => true) (onCore n (fun c => { c with
      inputs := [], sendBuf := [], stale := [], redo := 0, retry := false, shown := none, shownCut := false, dueIn := 1 + b.depth
      cutFirst := true, cutNext := false, cutIn := true, late := 0
      frameNo := c.frameNo + c.redo }) (rollback n s))
  else s

/-- CORE is stopped (Table 3.8, PLLB unlocked): held frames are lost, and undone when the clock returns. -/
def coreStop (s : State) (n : Nat) : State :=
  if (core s n).st = .running then
    onCore n (fun c => { c with st := .stopped, inputs := [], stale := [], shown := none, shownCut := false }) s
  else s

/-- A core at a sleep commit: held frames are discarded and undone to the checkpoint (Table 11.5). -/
def coreSleep (s : State) (n : Nat) : State :=
  if (core s n).st = .running ∨ (core s n).st = .stopped then
    onCore n (fun c => { c with st := .stopped, inputs := [], stale := [], redo := 0, retry := false, shown := none
                                shownCut := false, frameNo := c.frameNo + c.redo }) (rollback n s)
  else s

/-- CORE returns: as for a synchronising reset, from the relock; what was held is undone there. -/
def coreResume (s : State) (n : Nat) : State :=
  if (core s n).st = .stopped ∧ ((active s).bind n).en ∧ inSafe s = false then coreSync (onCore n (fun c => { c with st := .running }) s) n else s

def onCores (f : State → Nat → State) (s : State) : State := (List.range 4).foldl f s

/-- CORE_MEMORY_CLEAR_DONE (R103): state memory and the bound slot's delay region hold value 0 with tag 0. -/
def coreClearDone (n : Nat) (s : State) : State :=
  if (core s n).clearing then
    let m := s.mem.clearRange (aPram n + 0x10000) 16384
    let m := (slotOf s n (slotNow s n)).pages.foldl (fun m p => m.clearRange (aCore + p * 4096) 1024) m
    onCore n (fun c => { c with clearing := false }) { s with mem := m }
  else s

/-- CODE_FETCH_ERROR (Table 3.8): a syllable of the bundle the core fetches no longer decodes, and the core halts on its slot.
The word stays lost until CORE.LOAD writes the slot, so a restart halts again at that fetch (R116). -/
def codeFetchError (n : Nat) (s : State) : State :=
  let c := core s n
  if c.st = .running then
    let k := slotNow s n
    let b := c.regs.pc % 2048
    let a := aPram n + k * 0x8000 + 16 * b
    codeHalt n k b { s with mem := { s.mem with bad := if s.mem.bad.contains a then s.mem.bad else a :: s.mem.bad } }
  else s

/-- Two bindings differ in what R103 names. -/
def rebinds (o b : CoreBinding) : Bool :=
  o.en != b.en || (b.en && (o.slot != b.slot || o.rate != b.rate || o.depth != b.depth))

/-- A HALTED core stays so on the slot on which it halted, whatever else of its binding changes (R116). -/
def staysHalted (s : State) (n : Nat) (b : CoreBinding) : Bool :=
  (core s n).st == .halted && b.en && b.slot == (core s n).haltSlot

/-- A core at a change of ACTIVE from `o` (R75, R103, R106, R109); `page` names the cores whose held frames the change invalidates,
which a swap does with all of them: the frames are staged under the old epoch. -/
def coreDiffOne (page : Nat → Bool) (o : ConfigSet) (s : State) (n : Nat) : State :=
  let b := (active s).bind n
  if rebinds (o.bind n) b && !staysHalted s n b then bindChange n s
  else if b.en && page n then rollback n s
  else s

def coreDiff (page : Nat → Bool) (o : ConfigSet) (s : State) : State := onCores (coreDiffOne page o) s

/-- SWAP step 3: a bound slot's count exceeds its budget (R113). -/
def coreCapacity (s : State) (c : ConfigSet) : Bool :=
  (List.range 4).any (fun n => let b := c.bind n
    b.en && (slotOf s n b.slot).loaded && decide (rateBudget b.rate < (slotOf s n b.slot).cycles))

/-- SWAP's binding checks (R115). -/
def coreSwap (s : State) (c : ConfigSet) : Option Status :=
  if (List.range 4).any (fun n => let b := c.bind n
      b.en && (!rateInUse s b.rate || c.flows.any (fun x => x.2.kind == 6 && x.2.ep / 32 == n && x.2.laneRate != b.rate)))
  then some .range
  else if (List.range 4).any (fun n => let b := c.bind n
      b.en && (!(slotOf s n b.slot).loaded || ((core s n).st == .halted && (core s n).haltSlot == b.slot)))
  then some .refused
  else none

/-! ## CORE.BIND, CORE.PARAM, CORE.READ (R115, R117, R118) -/

def writeBind (a : CmdArgs) (c : ConfigSet) : ConfigSet :=
  { c with coreBind := tput dBind c.coreBind (opnd a 0).toNat ⟨opnd a 1, opnd a 2, opnd a 3⟩ }

def bodyCoreBind (a : CmdArgs) (s : State) : Ans :=
  let w := opnd a 1
  let b : CoreBinding := ⟨w, opnd a 2, opnd a 3⟩
  checks s
    [(resv (opnd a 0) 3 || resv w 0x9CF00000 || (!b.en && (w != 0 || opnd a 2 != 0 || opnd a 3 != 0)), .unsupported),
     (b.en && (b.depth == 0 || b.depth == 3 || b.rate == 15), .range)]
    (yes (writeShadow 0x91 a.ops (writeBind a) s))

def rowCoreBind : CmdRow := { op := 0x91, pS := true, count := countIs 4, body := bodyCoreBind }

/-- Write the words of CORE.PARAM into the page of a bank. -/
def writePage (bankB : Bool) (ops : List Word) (s : State) : State :=
  let w := ops.headD 0
  { s with mem := s.mem.setWords (aPage (fld w 1 0) bankB + 4 * fld w 27 16) 0 ops.tail }

def bodyCoreParam (a : CmdArgs) (s : State) : Ans :=
  let w := opnd a 0
  let n := fld w 1 0
  checks s
    [(resv w 0x0FFFFF03, .unsupported),
     (fld w 15 8 != 0 || decide (4096 < fld w 27 16 + (a.ops.length - 1)), .range)]
    (let b := (active s).bind n
     let placed : Placed := ⟨0x92, a.ops, if b.en then some b.rate else none⟩
     if a.imm then
       let s1 := { s with sets := { s.sets with placed := s.sets.placed ++ [placed] } }
       yes (if a.mirror then writePage (!s.sets.selB) a.ops s1 else s1)
     else yes (writePage (!s.sets.selB) a.ops s))

def rowCoreParam : CmdRow :=
  { op := 0x92, pS := true, pI := true
    count := fun a => decide (2 ≤ a.ops.length ∧ a.ops.length ≤ 1023), body := bodyCoreParam }

/-- Eight tags a word, the first in [3:0]. -/
def tagWords : List (BitVec 4) → Nat → List Word
  | _, 0 => []
  | ts, n + 1 =>
    toWord (((List.range 8).map (fun i => (ts.getD i 0).toNat * 16 ^ i)).foldl (· + ·) 0) :: tagWords (ts.drop 8) n

def bodyCoreRead (a : CmdArgs) (s : State) : Ans :=
  let w := opnd a 0
  let n := fld w 1 0
  let len := fld w 15 8
  let addr (i : Nat) : Nat := aPram n + 0x10000 + 4 * ((fld w 29 16 + i) % 16384)
  checks s
    [(resv w 0x3FFFFF03, .unsupported), (len == 0, .range)]
    (readOk s ((List.range len).map addr)
      (yes s ((List.range len).map (fun i => s.mem.word (addr i)) ++
        tagWords ((List.range len).map (fun i => s.mem.tag (addr i))) (ceilDiv len 8))))

def rowCoreRead : CmdRow :=
  { op := 0x93, count := countIs 1, maxRes := fun a _ => fld (opnd a 0) 15 8 + ceilDiv (fld (opnd a 0) 15 8) 8
    body := bodyCoreRead }

end Sys2Proof.Machine
end

