-- ==== Sys2Proof/Machine/Crypto.lean ====
section
/-! DEFINITION. The cryptographic functions that chapter 12 names by their standards: SHA-256, HMAC-SHA-256 (FIPS 198-1),
the KDF in counter mode (SP 800-108), AES-256 and GCM (SP 800-38D), and ECDSA and ECDH on P-256. Their definitions are taken
from those standards (log entry 33). -/

namespace Sys2Proof.Machine

/-! ## SHA-256 -/

/-- Eight words of a 256-bit number, most significant first. -/
def words8 (n : Nat) : List Word := bytesWords (natBytes 32 n)

/-- The round constants, eight to a row. -/
def shaK : List Word :=
  [0x428a2f9871374491b5c0fbcfe9b5dba53956c25b59f111f1923f82a4ab1c5ed5,
   0xd807aa9812835b01243185be550c7dc372be5d7480deb1fe9bdc06a7c19bf174,
   0xe49b69c1efbe47860fc19dc6240ca1cc2de92c6f4a7484aa5cb0a9dc76f988da,
   0x983e5152a831c66db00327c8bf597fc7c6e00bf3d5a7914706ca635114292967,
   0x27b70a852e1b21384d2c6dfc53380d13650a7354766a0abb81c2c92e92722c85,
   0xa2bfe8a1a81a664bc24b8b70c76c51a3d192e819d6990624f40e3585106aa070,
   0x19a4c1161e376c082748774c34b0bcb5391c0cb34ed8aa4a5b9cca4f682e6ff3,
   0x748f82ee78a5636f84c878148cc7020890befffaa4506cebbef9a3f7c67178f2].flatMap words8

/-- The eight working words. -/
structure ShaSt where
  a : Word
  b : Word
  c : Word
  d : Word
  e : Word
  f : Word
  g : Word
  h : Word
  deriving DecidableEq, Repr

def shaInit : ShaSt :=
  ⟨0x6a09e667, 0xbb67ae85, 0x3c6ef372, 0xa54ff53a, 0x510e527f, 0x9b05688c, 0x1f83d9ab, 0x5be0cd19⟩

def rotr (w : Word) (n : Nat) : Word := w.rotateRight n

/-- The message schedule: `n` more words on a window held newest first, of which it gives the list oldest first. -/
def shaSchedule : Nat → List Word → List Word
  | 0, w => w.reverse
  | n + 1, w =>
    let x := w.getD 1 0
    let y := w.getD 14 0
    let s1 := rotr x 17 ^^^ rotr x 19 ^^^ (x >>> 10)
    let s0 := rotr y 7 ^^^ rotr y 18 ^^^ (y >>> 3)
    shaSchedule n ((s1 + w.getD 6 0 + s0 + w.getD 15 0) :: w)

/-- One round. -/
def shaRound (s : ShaSt) (kw : Word × Word) : ShaSt :=
  let t1 := s.h + (rotr s.e 6 ^^^ rotr s.e 11 ^^^ rotr s.e 25) + ((s.e &&& s.f) ^^^ (~~~s.e &&& s.g)) + kw.1 + kw.2
  let t2 := (rotr s.a 2 ^^^ rotr s.a 13 ^^^ rotr s.a 22) + ((s.a &&& s.b) ^^^ (s.a &&& s.c) ^^^ (s.b &&& s.c))
  ⟨t1 + t2, s.a, s.b, s.c, s.d + t1, s.e, s.f, s.g⟩

/-- The compression of one block of 16 words. -/
def shaBlock (s : ShaSt) (ws : List Word) : ShaSt :=
  let t := (shaK.zip (shaSchedule 48 ws.reverse)).foldl shaRound s
  ⟨s.a + t.a, s.b + t.b, s.c + t.c, s.d + t.d, s.e + t.e, s.f + t.f, s.g + t.g, s.h + t.h⟩

/-- The blocks of a padded message, `n` of them. -/
def shaBlocks : Nat → List Word → ShaSt → ShaSt
  | 0, _, s => s
  | n + 1, ws, s => shaBlocks n (ws.drop 16) (shaBlock s (ws.take 16))

/-- The padding of a message of `n` bytes. -/
def shaPad (n : Nat) : List Byte := 0x80 :: (List.replicate ((119 - n % 64) % 64) 0 ++ natBytes 8 (8 * n))

/-- SHA-256 of bytes, as eight words. -/
def sha256Words (m : List Byte) : List Word :=
  let ws := bytesWords (m ++ shaPad m.length)
  let s := shaBlocks (ws.length / 16) ws shaInit
  [s.a, s.b, s.c, s.d, s.e, s.f, s.g, s.h]

/-- SHA-256 of bytes. -/
def sha256 (m : List Byte) : List Byte := wordsBytes (sha256Words m)

/-! ## HMAC and the KDF -/

/-- HMAC-SHA-256. -/
def hmac (key msg : List Byte) : List Byte :=
  let k := if 64 < key.length then sha256 key else key
  let k := k ++ List.replicate (64 - k.length) 0
  sha256 (k.map (· ^^^ 0x5C) ++ sha256 (k.map (· ^^^ 0x36) ++ msg))

/-- ASCII bytes of a label. -/
def ascii (s : String) : List Byte := s.toList.map (fun c => BitVec.ofNat 8 c.toNat)

/-- SP 800-108 in counter mode with 32-bit counter and length fields: the first `bits` / 8 bytes. -/
def kdf (key : List Byte) (label : String) (context : List Byte) (bits : Nat) : List Byte :=
  ((List.range (ceilDiv bits 256)).flatMap (fun i =>
    hmac key (natBytes 4 (i + 1) ++ ascii label ++ [0] ++ context ++ natBytes 4 bits))).take (bits / 8)

/-! ## AES-256 -/

/-- Doubling in the AES field. -/
def xtime (b : Byte) : Byte := (b <<< 1) ^^^ (if b.getLsbD 7 then 0x1B else 0)

/-- The S-box of FIPS 197 as one number: entry `a` is byte `a`, the lowest first. -/
def sboxTable : Nat :=
    0x16BB54B00F2D99416842E6BF0D89A18CDF2855CEE9871E9B948ED9691198F8E1 * 2 ^ 1792 +
    0x9E1DC186B95735610EF6034866B53E708A8BBD4B1F74DDE8C6B4A61C2E2578BA * 2 ^ 1536 +
    0x08AE7A65EAF4566CA94ED58D6D37C8E779E4959162ACD3C25C2406490A3A32E0 * 2 ^ 1280 +
    0xDB0B5EDE14B8EE4688902A22DC4F816073195D643D7EA7C41744975FEC130CCD * 2 ^ 1024 +
    0xD2F3FF1021DAB6BCF5389D928F40A351A89F3C507F02F94585334D43FBAAEFD0 * 2 ^ 768 +
    0xCF584C4A39BECB6A5BB1FC20ED00D153842FE329B3D63B52A05A6E1B1A2C8309 * 2 ^ 512 +
    0x75B227EBE28012079A059618C323C7041531D871F1E5A534CCF73F362693FDB7 * 2 ^ 256 +
    0xC072A49CAFA2D4ADF04759FA7DC982CA76ABD7FE2B670130C56F6BF27B777C63 * 2 ^ 0

/-- The S-box. -/
def sbox (a : Byte) : Byte := BitVec.ofNat 8 (sboxTable >>> (8 * a.toNat))

def subWord (w : Word) : Word :=
  toWord (bytesNat ((wordBytes w).map sbox))

/-- `n` more words of the key schedule from index `i`, held newest first. -/
def keyWords : Nat → Nat → Byte → List Word → List Word
  | 0, _, _, ws => ws.reverse
  | n + 1, i, rc, ws =>
    let t := ws.getD 0 0
    let f := if i % 8 = 0 then subWord (t.rotateLeft 8) ^^^ (rc.setWidth 32 <<< 24)
      else if i % 8 = 4 then subWord t else t
    keyWords n (i + 1) (if i % 8 = 0 then xtime rc else rc) ((ws.getD 7 0 ^^^ f) :: ws)

/-- The 15 round keys of 16 bytes. -/
def roundKeys (key : List Byte) : List (List Byte) :=
  let ws := keyWords 52 8 1 (bytesWords key).reverse
  (List.range 15).map (fun r => wordsBytes ((ws.drop (4 * r)).take 4))

def xorBytes (a b : List Byte) : List Byte := (a.zip b).map (fun x => x.1 ^^^ x.2)

/-- SubBytes and ShiftRows on a state held by columns. -/
def subShift (s : List Byte) : List Byte :=
  (List.range 16).map (fun i => sbox (s.getD ((i + 4 * (i % 4)) % 16) 0))

/-- MixColumns of one column. -/
def mixCol (c : List Byte) : List Byte :=
  (List.range 4).map (fun r =>
    let x (i : Nat) : Byte := c.getD ((r + i) % 4) 0
    xtime (x 0) ^^^ (xtime (x 1) ^^^ x 1) ^^^ x 2 ^^^ x 3)

def mixColumns (s : List Byte) : List Byte :=
  (List.range 4).flatMap (fun c => mixCol ((s.drop (4 * c)).take 4))

/-- The rounds of a list of round keys, the last without MixColumns. -/
def aesRounds : List (List Byte) → List Byte → List Byte
  | [], s => s
  | [k], s => xorBytes (subShift s) k
  | k :: ks, s => aesRounds ks (xorBytes (mixColumns (subShift s)) k)

/-- AES of one block under round keys. -/
def aesBlock (ks : List (List Byte)) (b : List Byte) : List Byte :=
  match ks with
  | [] => b
  | k :: r => aesRounds r (xorBytes b k)

/-! ## GCM -/

/-- `n` steps of the product of GHASH; V and the bits of X as numbers, most significant bit first. -/
def gfMul : Nat → Nat → Nat → Nat → Nat
  | 0, _, _, z => z
  | n + 1, x, v, z =>
    let z' := if x.testBit n then z ^^^ v else z
    gfMul n x (if v.testBit 0 then (v / 2) ^^^ 0xE1000000000000000000000000000000 else v / 2) z'

/-- Bytes in blocks of 16, the last padded with zeros. -/
def gcmBlocks : Nat → List Byte → List (List Byte)
  | 0, _ => []
  | n + 1, bs => if bs.isEmpty then [] else
      let b := bs.take 16
      (b ++ List.replicate (16 - b.length) 0) :: gcmBlocks n (bs.drop 16)

def blocksOf (bs : List Byte) : List (List Byte) := gcmBlocks (bs.length / 16 + 1) bs

/-- GHASH of blocks under H. -/
def ghash (h : Nat) (bs : List (List Byte)) : Nat :=
  bs.foldl (fun y b => gfMul 128 (y ^^^ bytesNat b) h 0) 0

/-- CTR-mode encryption from the counter block `iv ‖ 2`. -/
def gctr (ks : List (List Byte)) (iv : List Byte) (m : List Byte) : List Byte :=
  ((blocksOf m).zipIdx.flatMap (fun x => xorBytes x.1 (aesBlock ks (iv ++ natBytes 4 (x.2 + 2))))).take m.length

/-- The GCM tag of a ciphertext, 16 bytes. -/
def gcmTag (key iv aad c : List Byte) : List Byte :=
  let ks := roundKeys key
  let h := bytesNat (aesBlock ks (List.replicate 16 0))
  let s := ghash h (blocksOf aad ++ blocksOf c ++ [natBytes 8 (8 * aad.length) ++ natBytes 8 (8 * c.length)])
  xorBytes (aesBlock ks (iv ++ natBytes 4 1)) (natBytes 16 s)

/-- Encryption or decryption of the text. -/
def gcmText (key iv m : List Byte) : List Byte := gctr (roundKeys key) iv m

/-! ## P-256 -/

def pP : Nat := 0xffffffff00000001000000000000000000000000ffffffffffffffffffffffff
def pN : Nat := 0xffffffff00000000ffffffffffffffffbce6faada7179e84f3b9cac2fc632551
def pB : Nat := 0x5ac635d8aa3a93e7b3ebbd55769886bc651d06b0cc53b0f63bce3c3e27d2604b
def pGx : Nat := 0x6b17d1f2e12c4247f8bce6e563a440f277037d812deb33a0f4a13945d898c296
def pGy : Nat := 0x4fe342e2fe1a7f9b8ee7eb4a7c0f9e162bce33576b315ececbb6406837bf51f5

/-- a^e modulo m, over the lowest `n` bits of e. -/
def powMod (m : Nat) : Nat → Nat → Nat → Nat
  | 0, _, _ => 1
  | n + 1, a, e => (if e % 2 = 1 then a else 1) * powMod m n (a * a % m) (e / 2) % m

/-- The inverse modulo a prime of at most 256 bits. -/
def invMod (m a : Nat) : Nat := powMod m 256 (a % m) (m - 2)

/-- Difference modulo p. -/
def subP (a b : Nat) : Nat := (a + (pP - b % pP)) % pP

/-- A point in Jacobian coordinates; Z = 0 is the neutral point. -/
structure Jac where
  x : Nat
  y : Nat
  z : Nat
  deriving DecidableEq, Repr

def jacZero : Jac := ⟨1, 1, 0⟩

/-- Doubling (a = −3). -/
def jacDbl (q : Jac) : Jac :=
  if q.z = 0 ∨ q.y = 0 then jacZero
  else
    let d := q.z * q.z % pP
    let g := q.y * q.y % pP
    let b := q.x * g % pP
    let al := 3 * (subP q.x d * ((q.x + d) % pP) % pP) % pP
    let x := subP (al * al) (8 * b)
    ⟨x, subP (al * subP (4 * b) x) (8 * (g * g % pP)), 2 * q.y * q.z % pP⟩

/-- Addition. -/
def jacAdd (q r : Jac) : Jac :=
  if q.z = 0 then r
  else if r.z = 0 then q
  else
    let z1 := q.z * q.z % pP
    let z2 := r.z * r.z % pP
    let u1 := q.x * z2 % pP
    let u2 := r.x * z1 % pP
    let s1 := q.y * (r.z * z2 % pP) % pP
    let s2 := r.y * (q.z * z1 % pP) % pP
    let h := subP u2 u1
    let t := subP s2 s1
    if h = 0 then (if t = 0 then jacDbl q else jacZero)
    else
      let h2 := h * h % pP
      let h3 := h * h2 % pP
      let v := u1 * h2 % pP
      let x := subP (subP (t * t) h3) (2 * v)
      ⟨x, subP (t * subP v x) (s1 * h3), h * (q.z * r.z % pP) % pP⟩

/-- k·Q over the lowest `n` bits of k, from the top. -/
def jacMul : Nat → Nat → Jac → Jac → Jac
  | 0, _, _, acc => acc
  | n + 1, k, q, acc =>
    let d := jacDbl acc
    jacMul n k q (if k.testBit n then jacAdd d q else d)

/-- Affine coordinates. -/
def affine (q : Jac) : Nat × Nat :=
  let i := invMod pP q.z
  let i2 := i * i % pP
  (q.x * i2 % pP, q.y * (i * i2 % pP) % pP)

def mulG (k : Nat) : Jac := jacMul 256 k ⟨pGx, pGy, 1⟩ jacZero

/-- The point lies on the curve. -/
def onCurve (x y : Nat) : Bool :=
  decide (x < pP) && decide (y < pP) && y * y % pP == subP (x * x * x + pB) (3 * x)

/-- Sixteen words X ‖ Y as two numbers. -/
def keyOf (ws : List Word) : Nat × Nat := (bytesNat (wordsBytes (ws.take 8)), bytesNat (wordsBytes ((ws.drop 8).take 8)))

/-- The public key of a private one, X ‖ Y in sixteen words. -/
def publicKey (d : Nat) : List Word := let a := affine (mulG d); words8 a.1 ++ words8 a.2

/-- ECDSA verification of (r, s) over a hash by the key X ‖ Y. -/
def ecdsaOk (key : List Word) (hash : List Byte) (sig : List Word) : Bool :=
  let (x, y) := keyOf key
  let (r, s) := keyOf sig
  if onCurve x y ∧ 0 < r ∧ r < pN ∧ 0 < s ∧ s < pN then
    let w := invMod pN s
    let q := jacAdd (mulG (bytesNat hash * w % pN)) (jacMul 256 (r * w % pN) ⟨x, y, 1⟩ jacZero)
    q.z != 0 && (affine q).1 % pN == r
  else false

/-- ECDSA signature (r, s) in sixteen words, by the private key `d` with the per-signature value `k`. -/
def ecdsaSign (d : Nat) (hash : List Byte) (k : Nat) : List Word :=
  let r := (affine (mulG k)).1 % pN
  words8 r ++ words8 (invMod pN k * (bytesNat hash + r * d) % pN)

/-- The ECDH shared secret: the x coordinate of d·Q, 32 bytes. -/
def ecdh (d : Nat) (key : List Word) : List Byte :=
  let (x, y) := keyOf key
  natBytes 32 (affine (jacMul 256 d ⟨x, y, 1⟩ jacZero)).1

end Sys2Proof.Machine
end

