-- ==== Sys2Proof/Machine/Seals.lean ====
section
/-! DEFINITION. Seal records, the seal buffer and the hash chain (R419–R422). -/

namespace Sys2Proof.Machine

/-- A seal by ID. -/
def sealOf (s : State) (sid : Nat) : SealSt := tget {} s.seals.seals sid

def onSealSt (sid : Nat) (f : SealSt → SealSt) (s : State) : State :=
  { s with seals := { s.seals with seals := tmod {} s.seals.seals sid f } }

/-- Words in the seal buffer (R422). -/
def sealWords (s : State) : Nat := s.seals.queue.foldl (fun a r => a + r.words.length) 0

/-- Words that wait for SEAL.READ. -/
def hostWords (s : State) : Nat := s.seals.queue.foldl (fun a r => if r.dest = 0 then a + r.words.length else a) 0

/-- Open seals. -/
def openSeals (s : State) : Nat := (List.range 8).countP (fun k => (sealOf s k).isOpen)

/-- The buffer's words, and the reserve of each open seal (R422). -/
def sealRoom (s : State) : Nat := 8192 - sealWords s - 28 * openSeals s

/-- Queue a record in the CP data area; SEAL is raised for a SIGN or CLOSE record to the host, or when its words reach 4,096 (R422). -/
def pushRecord (sid : Nat) (ws : List Word) (s : State) : State :=
  let e := sealOf s sid
  let s := waitPoint (sramPoint aCpData) s
  let s1 := { s with seals := { s.seals with queue := s.seals.queue ++ [⟨e.dest, e.port, ws⟩] } }
  let t := fld (ws.getD 0 0) 31 24
  raiseIf (e.dest == 0 && (t == 3 || t == 4 || (decide (hostWords s < 4096) && decide (4096 ≤ hostWords s1)))) irqSeal s1

/-- A record that does not fit closes its seal with OVERFLOW, whether or not SEAL.CLOSE has ended it (R422). -/
def sealOverflow (sid : Nat) (s : State) : State :=
  if (sealOf s sid).closeDue = some 1 ∨ (sealOf s sid).closeDue = some 2 then s
  else
    let s1 := onSealSt sid (fun e => { e with closeDue := some 1 }) s
    { s1 with seals := { s1.seals with overflows := min 255 (s1.seals.overflows + 1) } }

/-- W0 of a record (R421). -/
def recordHead (type sid len : Nat) : Word := toWord (type * 2 ^ 24 + sid * 2 ^ 16 + len)

/-- A 64-bit number as two words. -/
def words2 (n : Nat) : List Word := [toWord (n / 2 ^ 32), toWord n]

/-- A sample as the chain hashes it (R420): 5 bytes. -/
def sampleBytes (x : Sample) : List Byte := wordBytes x.val ++ [x.tag.setWidth 8]

/-- W0–W9 of the BLOCK record of the block in progress (Table 12.8). -/
def blockWords (sid : Nat) (e : SealSt) (valid : Bool) : List Word :=
  [recordHead 2 sid 18, toWord e.recs, toWord (e.blocks + 1)] ++ words2 e.firstSeq ++ words2 e.t0
    ++ [toWord e.unc, toWord (b2n valid * 2 ^ 31 + e.block.length),
        ((e.block.foldl (fun t x => tagOR t x.tag) 0).setWidth 32)]

/-- The chain head after the block (R420). -/
def blockHead (sid : Nat) (e : SealSt) (valid : Bool) : List Byte :=
  sha256 (e.head ++ wordsBytes ((blockWords sid e valid).drop 2) ++ e.block.flatMap sampleBytes)

/-- The block in progress ends: the head advances and its BLOCK record is queued. A block whose record does not fit ends the
seal; the chain then ends with the last block that was queued (log entry 36). -/
def blockEnd (sid : Nat) (s : State) : State :=
  let e := sealOf s sid
  if e.block.isEmpty then s
  else if sealRoom s < 18 then sealOverflow sid (onSealSt sid (fun e => { e with block := [] }) s)
  else
    let h := blockHead sid e s.tb.valid
    let s1 := onSealSt sid (fun e => { e with
      head := h, blocks := e.blocks + 1, recs := e.recs + 1, block := []
      signDue := e.signDue || (e.blocks + 1) % 16 == 0 }) s
    pushRecord sid (blockWords sid e s.tb.valid ++ bytesWords h) s1

/-- An uncorrectable error in a seal's state, met where the state is used: the seal closes with reason FAULT (Table 12.9). So does one
of which a beat of SEC's records fails its check (R360): it writes its abort record too, on the CP data area. -/
def sealCheck (sid : Nat) (s : State) : State :=
  let close := onSealSt sid (fun e => { e with closeDue := e.closeDue.orElse (fun _ => some 2) })
  if upset s (.sealState sid) then close (dropUpset (.sealState sid) s)
  else match beatUpset 7 s with
    | some (e, t) => close (logAbort 7 6 (errCause e) true 0 aCpData t)
    | none => s

/-- The seal that hashes a flow. -/
def sealOfFlow (s : State) (f : Nat) : Option Nat :=
  (List.range 8).find? (fun k =>
    let e := sealOf s k
    e.isOpen && e.started && e.flow == f && e.closeDue.isNone)

/-- An open seal of the flow takes the lane sample: value and tag without EPO (R419, R420). A step of the sequence number,
and a full block, end the block before it; a SEAL.CLOSE ends it at the first sample of a frame (R424). -/
def sealSample (f seqNo : Nat) (frame : Bool) (x : Sample) (s : State) : State :=
  match sealOfFlow s f with
  | none => s
  | some sid =>
    let s := sealCheck sid s
    let e := sealOf s sid
    let s1 := if e.block.length = 4096 ∨ (e.block ≠ [] ∧ seqNo ≠ (e.firstSeq + e.block.length) % 2 ^ 64) then blockEnd sid s else s
    if e.closeDue.isSome then s
    else if frame ∧ s.deferred.job = some (.sealClose sid) then
      onSealSt sid (fun e => { e with closeDue := e.closeDue.orElse (fun _ => some 0) }) (blockEnd sid s1)
    else if (sealOf s1 sid).closeDue.isSome then s1
    else onSealSt sid (fun e =>
      let y : Sample := ⟨x.val, x.tag &&& 0b1110#4⟩
      if e.block.isEmpty then { e with block := [y], firstSeq := seqNo, t0 := now s, unc := uncertainty s }
      else { e with block := e.block ++ [y] }) s1

/-- SEAL_BLOCK_END (R420): the block has 4,096 samples. While PLLB is gated SEC queues nothing (R363, log entry 153). A step of the sequence number ends it in `sealSample`. -/
def sealBlockEnd (sid : Nat) (s : State) : State :=
  let e := sealOf s sid
  if e.isOpen ∧ e.started ∧ e.closeDue = none ∧ e.block.length = 4096 ∧ pllbUnlocked s = false then blockEnd sid s else s

end Sys2Proof.Machine
end

