-- ==== Sys2Proof/Machine/Gram.lean ====
section
/-! DEFINITION. The words of GRAM and FCTX (R349, R366, Tables 10.2, 10.13): a set's items as GRAM holds them, flow contexts by word, and what FDMA
does where its read of one of them fails. -/

namespace Sys2Proof.Machine

/-- A word of a set as GRAM holds it, by the item's number: nodes, weirs, taps, output maps, the seven kinds of channel and
output settings, and the core bindings. Which offset holds which item is opaque (log entry 31). -/
def gramGet (c : ConfigSet) (k : Nat) : Option Word :=
  if k < 16384 then some (tget dNode c.nodes k)
  else if k < 16512 then some (c.weir (k - 16384))
  else if k < 16576 then some (tget dTap c.taps (k - 16512))
  else if k < 16592 then some (tget 0 c.outMaps (k - 16576))
  else if k < 16624 then some (c.mode (k - 16592))
  else if k < 16656 then some (c.gainW (k - 16624))
  else if k < 16672 then some (c.pairW (k - 16656))
  else if k < 16704 then some (c.presetW (k - 16672))
  else if k < 16736 then some (c.fir (k - 16704))
  else if k < 16768 then some (c.fade (k - 16736))
  else if k < 16802 then some (c.out (k - 16768))
  else if k < 16814 then
    let b := c.bind ((k - 16802) / 3)
    some (match (k - 16802) % 3 with | 0 => b.word | 1 => b.sends | _ => b.returns)
  else none

/-- Write a word of a set, by the item's number. -/
def gramSet (k : Nat) (w : Word) (c : ConfigSet) : ConfigSet :=
  if k < 16384 then { c with nodes := tput dNode c.nodes k w }
  else if k < 16512 then { c with weirs := tput dWeir c.weirs (k - 16384) w }
  else if k < 16576 then { c with taps := tput dTap c.taps (k - 16512) w }
  else if k < 16592 then { c with outMaps := tput 0 c.outMaps (k - 16576) w }
  else if k < 16624 then { c with feMode := tput 0 c.feMode (k - 16592) w }
  else if k < 16656 then { c with feGain := tput 0 c.feGain (k - 16624) w }
  else if k < 16672 then { c with fePair := tput 0 c.fePair (k - 16656) w }
  else if k < 16704 then { c with preset := tput dPreset c.preset (k - 16672) w }
  else if k < 16736 then { c with firSel := tput dFirSel c.firSel (k - 16704) w }
  else if k < 16768 then { c with firFade := tput dFirFade c.firFade (k - 16736) w }
  else if k < 16802 then { c with outCfg := tput dOut c.outCfg (k - 16768) w }
  else if k < 16814 then
    { c with coreBind := tmod dBind c.coreBind ((k - 16802) / 3) (fun b =>
        match (k - 16802) % 3 with | 0 => { b with word := w } | 1 => { b with sends := w } | _ => { b with returns := w }) }
  else c

/-- The bits of an item that are not reserved (R11, Tables 6.3, 6.4, 6.10, 6.11, 8.7, and R182–R185, R115 and chapter 4 for the settings). -/
def gramMask (k : Nat) : Word :=
  if k < 16384 then 0x001FFFFF
  else if k < 16512 then 0xC7FF00FF
  else if k < 16576 then 0x801F00FF
  else if k < 16592 then (if k % 2 = 0 then 0x00FFFFFF else 0x800000FF)
  else if k < 16624 then 0x83110000
  else if k < 16656 then 0x3F
  else if k < 16672 then 3
  else if k < 16704 then 0x30F00000
  else if k < 16736 then 0xF
  else if k < 16768 then 7
  else if k < 16802 then 0x80F11000
  else if (k - 16802) % 3 = 0 then 0x9CF00000
  else 0xFFFFFFFF

/-- The items of a set that GRAM holds. -/
def gramItems : Nat := 16814

/-- Word `i` of a flow context. -/
def setQuad (q : Quad) (i : Nat) (w : Word) : Quad :=
  match i with | 0 => { q with w0 := w } | 1 => { q with w1 := w } | 2 => { q with w2 := w } | _ => { q with w3 := w }

/-- The bits of a flow context's word that are not reserved (Table 7.1). -/
def fctxMask (i : Nat) : Word :=
  match i with | 0 => 0x70FF017F | 1 => 0x33FF0100 | 2 => 0xFFF | _ => 0xFFFFFFFF

def Quad.word (q : Quad) (i : Nat) : Word := match i with | 0 => q.w0 | 1 => q.w1 | 2 => q.w2 | _ => q.w3

/-! ## Reads by FDMA (R366, Table 10.13) -/

/-- Gain item `k` of ACTIVE, written by `f`, does not read: its node is taken as mute, by its ramp, and a weir as disabled, until a
command or a swap rewrites it (log entry 31). -/
def gainTaken (k : Nat) (f : State → State) (s : State) : State :=
  if k < 16512 then
    let t := f s
    mtxDiff (heard s) { t with sets := { t.sets with taken := k :: t.sets.taken.filter (· != k) } }
  else f s

/-- A context word of a flow of ACTIVE does not read: the flow is taken as stopped, its lane at value 0 with SET, until a swap rewrites
the entry. -/
def flowTaken (f : Nat) (q : Quad) (s : State) : State :=
  let s0 := stopFlow f s
  let s1 := { s0 with sets := { s0.sets with takenFlows := f :: s0.sets.takenFlows.filter (· != f) } }
  if f < 128 ∧ q.bound then { s1 with mtx := { s1.mtx with laneIn := tput ⟨0, 0⟩ s1.mtx.laneIn q.lane ⟨0, tSET⟩ } } else s1

/-- FDMA's reads of gains that fail. -/
def gainRead (s : State) (u : Upset) : State :=
  match u with
  | .gain off e =>
    let k := Config.gramItem off
    let s1 := logAbort 6 8 (errCause e) false 0 (bankBase aGram 0x30000 s.sets.selB + off) (dropUpset u s)
    gainTaken k id s1
  | _ => s

/-- The error that FDMA's read of a flow's context meets. -/
def contextUpset (s : State) (f : Nat) : Option BeatErr :=
  s.mem.upsets.findSome? (fun u => match u with | .context g e => if g = f then some e else none | _ => none)

/-- FDMA's read of a flow's context fails. -/
def contextLost (f : Nat) (q : Quad) (e : BeatErr) (s : State) : State :=
  flowTaken f q (logAbort 6 9 (errCause e) false 0 (bankBase aFctx 0x4000 s.sets.selB + 16 * f) (dropUpset (.context f e) s))

end Sys2Proof.Machine
end

