-- ==== Sys2Proof/Machine/Bist.lean ====
section
/-! DEFINITION. Targeted self-tests, classification, spare rows, the fault-log commands, SELFTEST, and the patrol
(R364, R367, R429–R441). -/

namespace Sys2Proof.Machine

/-! ## Service notices (R446, R450) -/

/-- Set notice bit `n` of ST_MARGIN; SERVICE is raised when it was 0. -/
def raiseNotice (n : Nat) (s : State) : State :=
  raiseIf (!bit s.margin.w0 n) irqService { s with margin := { s.margin with w0 := setBit s.margin.w0 n true } }

/-! ## Classification (R432, R433) -/

/-- CLASS of an entry. -/
def FaultEntry.cls (e : FaultEntry) : Nat := fld e.w0 23 20

/-- An earlier entry lies within the window of a new one: 24 h, or since the last POR while TB_VALID is 0. -/
def inWindow (valid : Bool) (e old : FaultEntry) : Bool := !valid || decide (e.time - old.time ≤ 24 * 3600 * sec1)

/-- The PENDING entries of a site take their class; the log is newest first, so an entry's earlier ones follow it. -/
def classifyLog (valid passed : Bool) (site : Nat) : List FaultEntry → List FaultEntry
  | [] => []
  | e :: r =>
    (if e.site = site ∧ e.cls = clPending then
      let again := r.any (fun o => o.site == site && inWindow valid e o)
      { e with w0 := setFld e.w0 23 20 (if passed && !again then clTransient else clLasting) }
     else e) :: classifyLog valid passed site r

/-- The bank and row that a memory entry names in its DETAIL0 (Table 13.4), of one of the 31 repair banks of R434. -/
def FaultEntry.row (e : FaultEntry) : Option (Nat × Nat) :=
  let k := e.site / 2 ^ 40
  if (k = 1 ∨ k = 0x0B) ∧ fld e.w2 27 23 < 31 then some (fld e.w2 27 23, fld e.w2 15 0) else none

/-- The REPAIR field of a site's LASTING entries that name the row and carry no code yet. -/
def markRepair (site bank row code : Nat) (log : List FaultEntry) : List FaultEntry :=
  log.map (fun e =>
    if e.site = site ∧ e.row = some (bank, row) ∧ e.cls = clLasting ∧ fld e.w0 15 14 = 0 then
      { e with w0 := setFld e.w0 15 14 code }
    else e)

/-- Spare rows of a bank in use (R434). -/
def sparesUsed (s : State) (bank : Nat) : Nat := (tget [] s.flt.repaired bank).length

/-- The row of a LASTING memory entry is repaired, if its bank has a free spare (R434). -/
def repairRow (site bank row : Nat) (s : State) : State :=
  let f := s.flt
  if sparesUsed s bank < 2 then
    { s with flt := { f with
        repaired := tmod [] f.repaired bank (fun l => l ++ [row]), log := markRepair site bank row 1 f.log } }
  else
    raiseNotice 0 { s with flt := { f with
      log := markRepair site bank row 2 f.log
      exhausted := if f.exhausted.contains bank then f.exhausted else f.exhausted ++ [bank] } }

/-- The rows that the entries of a site name which were PENDING and are LASTING now, in the order the errors arrived. -/
def lastingRows (site : Nat) (before after : List FaultEntry) : List (Nat × Nat) :=
  ((before.zip after).filterMap (fun x =>
    if x.1.site = site ∧ x.1.cls = clPending ∧ x.2.cls = clLasting then x.2.row else none)).reverse.eraseDups

/-- The test of a site ends: every entry that joined it takes its class, and each LASTING memory row is repaired (R434,
Table 13.2). -/
def classifySite (site : Nat) (passed : Bool) (s : State) : State :=
  let log := classifyLog s.tb.valid passed site s.flt.log
  (lastingRows site s.flt.log log).foldl (fun s x => repairRow site x.1 x.2 s) { s with flt := { s.flt with log := log } }

/-! ## Targeted self-tests (R429–R431) -/

/-- The test may run now (R430): INJECT waits until the channels are disabled in ACTIVE. -/
def testMayRun (s : State) (t : FaultTest) : Bool :=
  let i := t.site % 2 ^ 40
  if t.source = 8 then (bankChans i).all (fun c => !(active s).chEn c)
  else if t.source = 9 then !(active s).chEn i
  else true

/-- MTX runs, so BIST does (R363). -/
def bistOn (s : State) : Bool := running s && !pllbUnlocked s

/-- TARGETED_SELFTEST (R431): the first queued test whose site may be tested starts. -/
def targetedSelftest (s : State) : State :=
  if bistOn s ∧ s.flt.testing = false then
    match s.flt.tests.find? (testMayRun s) with
    | some t => { s with flt := { s.flt with tests := t :: s.flt.tests.filter (· ≠ t), testing := true } }
    | none => s
  else s

/-- A channel passes INJECT: both levels, ±25 % of full scale, within 1 % of their expected values, and no OVR (R429). -/
def injectPass (x : InjectLevels) : Bool :=
  decide (100 * (x.plus - 2 ^ 29).natAbs ≤ 2 ^ 29) && decide (100 * (x.minus + 2 ^ 29).natAbs ≤ 2 ^ 29) && !x.ovr

/-- The verdict of a reading of the test's own kind: INJECT reads every channel of a bank, or one channel (Table 13.1). -/
def testVerdict (t : FaultTest) (r : TestReading) : Option Bool :=
  match r with
  | .pattern ok => if testOf t.source = 5 then none else some ok
  | .inject l =>
    if testOf t.source = 5 ∧ l.length = (if t.source = 8 then 8 else 1) then some (l.all injectPass) else none

/-- The target of a repair bank (R434, Table 10.2; log entry 22). -/
def bankTarget (b : Nat) : Nat :=
  if b < 16 then 6 else if b < 20 then b - 14 else if b < 24 then 1 else if b = 24 then 7 else if b < 27 then 8
  else if b < 29 then 9 else 12

/-- The arbitration points that a targeted test reaches: a memory row's, or a hop's (Table 13.1). -/
def testPoint (t : FaultTest) (p : Nat) : Bool :=
  let b := t.site % 2 ^ 40 / 65536
  if testOf t.source = 1 then p == (if b < 16 then 16 + b else bankTarget b)
  else testOf t.source == 2 && pointTarget p == t.site % 16

/-- TARGETED_SELFTEST_COMPLETE (R432). A beat of BIST that fails its parity is a bus error to it (Table 10.13): the test fails. -/
def targetedComplete (reading : TestReading) (s : State) : State :=
  match s.flt.tests with
  | t :: _ =>
    if s.flt.testing ∧ bistOn s ∧ testMayRun s t then
      match testVerdict t reading with
      | some passed =>
        let s := waitLock (testPoint t) s
        let (ok, s0) := match beatLost 8 (bankTarget (t.site % 2 ^ 40 / 65536)) false 0 s with
          | some u => (false, u)
          | none => (passed, s)
        classifySite t.site ok { s0 with flt := { s0.flt with tests := s0.flt.tests.drop 1, testing := false } }
      | none => s
    else s
  | [] => s

/-- Every entry that is PENDING becomes UNTESTED, and the tests end (Table 13.2, resets). -/
def endTests (f : Faults) : Faults :=
  { f with
    log := f.log.map (fun e => if e.cls = clPending then { e with w0 := setFld e.w0 23 20 clUntested } else e)
    tests := [], testing := false }

/-! ## FAULT.READ and FAULT.CLEAR (R438, R439) -/

/-- The four words of a log position; zero words where it is empty. -/
def entryWords (l : List FaultEntry) (i : Nat) : List Word :=
  match l[i]? with
  | some e => [e.w0, e.w1, e.w2, e.w3]
  | none => [0, 0, 0, 0]

def bodyFaultRead (a : CmdArgs) (s : State) : Ans :=
  let w := opnd a 0
  let n := fld w 14 8
  checks s [(resv w 0x7F3F, .unsupported), (n == 0 || decide (64 < n) || decide (64 < fld w 5 0 + n), .range)]
    (yes s ((List.range n).flatMap (fun i => entryWords s.flt.log (fld w 5 0 + i))))

def rowFaultRead : CmdRow :=
  { op := 0xD0, pC := fun _ => true, count := countIs 1, maxRes := fun a _ => 4 * fld (opnd a 0) 14 8,
    body := fun a s => retOk s (fun k => decide (1537 ≤ k ∧ k < 1793)) (bodyFaultRead a s) }

def bodyFaultClear (_a : CmdArgs) (s : State) : Ans :=
  checks s [(testsBusy s, .busy)] (yes { s with flt := { s.flt with log := [], written := 0 } })

def rowFaultClear : CmdRow := { op := 0xD3, count := countIs 0, body := bodyFaultClear }

/-! ## Write-back and patrol (R364, R367) -/

/-- ECC_WRITEBACK (R364): a corrected word is written back, its content as it was, and logged. 2^32 + n names the checkpoint buffer
of core n, which has no address (DESIGN CHOICE, log entry 164). -/
def eccWriteback (a : Nat) (s : State) : State :=
  if logicOn s ∧ pllbUnlocked s = false then
    if 2 ^ 32 ≤ a then (if a < 2 ^ 32 + 4 then logUndoBuffer 1 (a - 2 ^ 32) s else s)
    else if s.mem.bad.contains (a / 4 * 4) then s
    else logRow 1 a s
  else s

/-- An uncorrectable word of a set's GRAM bank (R366, R367): ACTIVE's takes SHADOW's copy, which FDMA does not use until the entry is
rewritten; SHADOW's takes its reset value. A word that holds no item is a plain word. -/
def gramLost (bankB : Bool) (off : Nat) (s : State) : State :=
  let k := Config.gramItem off
  let w := bankBase aGram 0x30000 bankB + off
  if bankB == s.sets.selB then
    if gramItems ≤ k then { s with mem := s.mem.setPlain w (s.mem.word (bankBase aGram 0x30000 (!bankB) + off)) }
    else gainTaken k (onActive (gramSet k ((gramGet (shadow s) k).getD 0))) s
  else if gramItems ≤ k then { s with mem := s.mem.setPlain w 0 }
  else onShadow (gramSet k ((gramGet {} k).getD 0)) s

/-- An uncorrectable word of a flow context: ACTIVE's takes SHADOW's copy and its flow is taken as stopped; SHADOW's takes its reset
value. -/
def fctxLost (bankB : Bool) (off : Nat) (s : State) : State :=
  let f := off / 16
  let i := off % 16 / 4
  if bankB == s.sets.selB then
    flowTaken f ((active s).flow f)
      (onActive (fun c => { c with flows := tmod dFlow c.flows f (fun q => setQuad q i (((shadow s).flow f).word i)) }) s)
  else onShadow (fun c => { c with flows := tmod dFlow c.flows f (fun q => setQuad q i 0) }) s

/-- The sample that a rewritten word of a lane buffer or a delay line holds is value 0 with SET for its reader too. Word `i` of a
delay line holds its sample `i` from the oldest (DESIGN CHOICE, log entry 168). -/
def sampleLost (w : Nat) (s : State) : State :=
  if w < aLanes then
    onFlow ((w - aDelayLines) / 4096) (fun r => { r with delay := r.delay.set ((w - aDelayLines) % 4096 / 4) ⟨0, tSET⟩ }) s
  else
    let lane := (w - aLanes) / 1024
    if (w - aLanes) % 1024 / 4 = (tget 0 s.mtx.lanePos lane + 255) % 256 then
      { s with mtx := if lane < 128 then { s.mtx with laneIn := tput ⟨0, 0⟩ s.mtx.laneIn lane ⟨0, tSET⟩ }
                      else { s.mtx with laneOut := tput ⟨0, 0⟩ s.mtx.laneOut (lane - 128) ⟨0, tSET⟩ } }
    else s

/-- Word `k` of RET, by the item's number: channel records, pair records, the export counter, the fault log, newest entry first,
and the planner's history. Which offset holds which item is opaque (R397). -/
def retGet (s : State) (k : Nat) : Option Word :=
  if k < 1024 then some ((tget dChRec s.cal.ch (k / 4)).word (k % 4))
  else if k < 1536 then some ((tget dPairRec s.cal.pair ((k - 1024) / 4)).word (k % 4))
  else if k = 1536 then some (toWord s.cal.exports)
  else if k < 1793 then some ((entryWords s.flt.log ((k - 1537) / 4)).getD ((k - 1537) % 4) 0)
  else if k < 1889 then
    let r := s.margin.hist.getD ((k - 1793) / 3) (0, 0, 0)
    some (match (k - 1793) % 3 with | 0 => r.1 | 1 => r.2.1 | _ => r.2.2)
  else none

/-- Word `i` of a log entry takes a value. -/
def FaultEntry.setWord (e : FaultEntry) (i : Nat) (w : Word) : FaultEntry :=
  match i with | 0 => { e with w0 := w } | 1 => { e with w1 := w } | 2 => { e with w2 := w } | _ => { e with w3 := w }

/-- The bits of an item of RET that its format defines; the others read 0 (R11, Tables 4.9, 4.10, 13.9). -/
def retMask (k : Nat) : Word :=
  if k < 1024 then (if k % 4 = 2 then 0xFF00FFFF else 0xFFFFFFFF)
  else if k < 1536 then (match k % 4 with | 2 => 0x00FFFFFF | 3 => 0xFF000000 | _ => 0xFFFFFFFF)
  else if k = 1536 then 0xFFFFFFFF
  else if k < 1793 then 0xFFFFFFFF
  else match (k - 1793) % 3 with | 0 => 0xFFFF00FF | 1 => 0xFFFFFFFF | _ => 0xFFFF03FF

/-- Write word `k` of RET; a position that holds no entry takes none. -/
def retSet (k : Nat) (w : Word) (s : State) : State :=
  if k < 1024 then { s with cal := { s.cal with ch := tmod dChRec s.cal.ch (k / 4) (fun q => setQuad q (k % 4) w) } }
  else if k < 1536 then
    { s with cal := { s.cal with pair := tmod dPairRec s.cal.pair ((k - 1024) / 4) (fun q => setQuad q (k % 4) w) } }
  else if k = 1536 then { s with cal := { s.cal with exports := w.toNat } }
  else if k < 1793 then
    { s with flt := { s.flt with log := s.flt.log.modify ((k - 1537) / 4) (fun e => e.setWord ((k - 1537) % 4) w) } }
  else if k < 1889 then
    { s with margin := { s.margin with hist := s.margin.hist.modify ((k - 1793) / 3) (fun r =>
        match (k - 1793) % 3 with | 0 => (w, r.2) | 1 => (r.1, w, r.2.2) | _ => (r.1, r.2.1, w)) } }
  else s

/-- The items of RET; the words that hold none are plain. -/
def retItems : Nat := 1889

/-- The word of RET at an address. -/
def retWord (s : State) (a : Nat) : Word := (retGet s (Config.retItem (a - aRet))).getD (s.mem.word a)

/-- Write the word of RET at an address. -/
def retPut (a : Nat) (w : Word) (s : State) : State :=
  let k := Config.retItem (a - aRet)
  let s1 := { s with mem := { s.mem with bad := s.mem.bad.filter (· != a) } }
  if k < retItems then retSet k (w &&& retMask k) s1 else { s with mem := s.mem.setPlain a w }

/-- The reset value of an item of RET (Tables 4.9, 4.10, 13.3). -/
def retReset (k : Nat) : Word :=
  if k < 1024 then dChRec.word (k % 4) else if k < 1536 then dPairRec.word (k % 4) else 0

/-- The uncorrectable word is rewritten by its region (R367): value 0 with SET where SRAM holds samples (banks 8–12), the
other bank's word in an ACTIVE parameter page, an item's reset value in RET, value 0 elsewhere. -/
def rewriteLost (a : Nat) (s : State) : State :=
  let w := a / 4 * 4
  if aDelayLines ≤ w ∧ w < aParam then sampleLost w { s with mem := s.mem.setWord w 0 tSET }
  else if aParam ≤ w ∧ w < aParam + 0x20000 then
    let b := decide (aParam + 0x10000 ≤ w)
    let v := if b == s.sets.selB then s.mem.word (if b then w - 0x10000 else w + 0x10000) else 0
    { s with mem := s.mem.setWord w v 0 }
  else if aGram ≤ w ∧ w < aGram + 0x60000 then
    let b := decide (aGram + 0x30000 ≤ w)
    gramLost b (if b then w - aGram - 0x30000 else w - aGram) s
  else if aFctx ≤ w ∧ w < aFctx + 0x8000 then
    let b := decide (aFctx + 0x4000 ≤ w)
    let o := if b then w - aFctx - 0x4000 else w - aFctx
    if o < 4096 then fctxLost b o s else { s with mem := s.mem.setPlain w 0 }
  else if aRet ≤ w then retPut w (retReset (Config.retItem (w - aRet))) s
  else { s with mem := s.mem.setWord w 0 0 }

/-- The word's consumer meets the error at its next read (R367): a word that a core, the CP or SEC reads stays marked. FDMA, which
reads lanes and delay lines, takes value 0 with SET as rewritten. -/
def markLost (a : Nat) (s : State) : State :=
  let w := a / 4 * 4
  if w < aDelayLines ∨ aParam ≤ w then
    { s with mem := { s.mem with bad := if s.mem.bad.contains w then s.mem.bad else w :: s.mem.bad } }
  else s

/-- One uncorrectable word the patrol finds. -/
def patrolLost (s : State) (a : Nat) : State :=
  match rowOf a with
  | some _ => logRow 2 a (markLost a (rewriteLost a s))
  | none => s

/-- A beat of the patrol fails its parity (R360, R365): a bus error to BIST, which no rule says more of; where the beat goes is free (log
entries 2, 201). -/
def patrolBeat (s : State) : State :=
  match beatUpset 8 s with
  | none => s
  | some _ =>
    let (k, s0) := drawIn 0 9 s
    let (a, s1) := drawWord s0
    match beatLost 8 ([1, 2, 3, 4, 5, 6, 7, 8, 9, 12].getD k.toNat 1) false a.toNat s1 with
    | some t => t
    | none => s1

/-- BIST patrols in RUN while MTX runs (R363, R367). -/
def patrolOn (s : State) : Bool := s.power.st == .run && !pllbUnlocked s

/-- PATROL_PASS (R367): in RUN every protected word is read; what it finds is corrected or rewritten, and logged. The errors that
checks outside the stored words will find come with it (log entry 16). -/
def patrolPass (corrected uncorrectable : List Nat) (upsets : List Upset) (s : State) : State :=
  if patrolOn s then
    let s := patrolBeat (waitLock (fun _ => true) s)
    let s1 := uncorrectable.foldl patrolLost (corrected.foldl (fun s a => logRow 1 a s) s)
    { s1 with mem := { s1.mem with upsets := s1.mem.upsets ++ upsets.filter (fun u => match u with | .otp _ => false | _ => true) } }
  else s

/-! ## SELFTEST (R440, R441) -/

/-- The channels, or outputs, of a mask that ACTIVE enables. -/
def enabledMask (kind : Nat) (w : Word) (s : State) : Word :=
  if kind = 2 then wordOf ((bitsOf w).filter (fun c => (active s).chEn c))
  else if kind = 3 then wordOf ((bitsOf w).filter (fun d => (active s).outEn d))
  else 0

def bodySelftest (a : CmdArgs) (s : State) : Ans :=
  let w := opnd a 0
  let v := opnd a 1
  let kind := fld w 3 0
  checks s
    [ (resv w 0xF, .unsupported),
      (kind == 0 || decide (4 < kind) || ((kind == 1 || kind == 4) && v != 0), .range),
      (decide (b2n s.flt.testing < s.flt.tests.length), .busy) ]
    (let e := enabledMask kind v s
     if e ≠ 0 then ⟨.refused, s, [e]⟩
     else
       let s1 := if kind = 4 then { s with margin := { s.margin with running := true } } else s
       yes (startJob 0xD1 (.selftest kind v) s1))

def rowSelftest : CmdRow :=
  { op := 0xD1, pD := fun _ => true, count := countIs 2, maxRes := fun _ _ => 1, body := bodySelftest }

/-- An entry of a failing site (R440): a memory row, whose word the pass could not correct and rewrites (R367), an input channel, or an output, of whose entry no rule gives the
source and the detail words (free values, log entry 2). -/
def selftestFail (kind : Nat) (s : State) (x : Nat) : State :=
  if kind = 1 then
    match rowOf x with
    | some (t, b, r) =>
      repairRow (siteOf 1 (rowSite b r)) b r
        (logLasting 2 (rowSite b r) 1 (rowDetail t b r) (toWord x) (markLost x (rewriteLost x s)))
    | none => s
  else if kind = 2 then logLasting 9 x 5 (toWord x) 0 s
  else
    let (c, s1) := drawWord s
    let (d0, s2) := drawWord s1
    let (d1, s3) := drawWord s2
    logLasting (c.toNat % 256) (2 ^ 32 + x) 6 d0 d1 s3

/-- An output passes OFFSET: a line output within 2.0 mV between its legs, a headphone output whose servo trims to 0.2 mV (R441). -/
def offsetPass (d : Nat) (uv : Int) : Bool := decide (uv.natAbs ≤ if d < 24 then 2000 else 200)

/-- The sites of the test that fail. -/
def selftestSites (kind : Nat) (v : Word) (r : SelftestReadings) : List Nat :=
  if kind = 1 then r.rows.filter (fun x => (rowOf x).isSome)
  else if kind = 2 then (bitsOf v).filter (fun c => r.inject.any (fun x => x.1 == c && !injectPass x.2))
  else if kind = 3 then (bitsOf v).filter (fun d => r.offset.any (fun x => x.1 == d && !offsetPass d x.2))
  else []

/-- Every named channel, or clamped output (R441), has been measured, and none is enabled in ACTIVE meanwhile (R430); a PLANNER
test ends with its run. -/
def selftestDone (kind : Nat) (v : Word) (r : SelftestReadings) (s : State) : Bool :=
  enabledMask kind v s == 0
    && (if kind = 2 then (bitsOf v).all (fun c => r.inject.any (fun x => x.1 == c))
        else if kind = 3 then (bitsOf v).all (fun d => (dac s d).clamp && (dac s d).phase == .clamped && r.offset.any (fun x => x.1 == d))
        else if kind = 4 then !s.margin.running
        else true)

/-- SELFTEST_COMPLETE (R440): OK when every site passed, else FAULT. -/
def selftestComplete (readings : SelftestReadings) (s : State) : State :=
  match s.deferred.job with
  | some (.selftest kind v) =>
    if bistOn s ∧ selftestDone kind v readings s then
      let l := selftestSites kind v readings
      let s := if kind = 1 then waitLock (fun _ => true) s else s
      finishJob (if l.isEmpty then .ok else .fault) (l.foldl (selftestFail kind) s)
    else s
  | _ => s

end Sys2Proof.Machine
end

