-- ==== Sys2Proof/Machine/FlowSample.lean ====
section
/-! DEFINITION. FLOW_SAMPLE (R232–R235): one lane sample period of a running flow, ingress and egress of every endpoint kind. -/

namespace Sys2Proof.Machine

/-! ## Ingress -/

/-- A LOCKED flow of a port takes its word out of the FIFO one period before the padding, as its latency allows (R233). -/
def portLead (f : Nat) (q : Quad) : Nat := if f < 128 ∧ q.rel = 0 ∧ (q.kind = 3 ∨ q.kind = 4) then 1 else 0

/-- What the endpoint makes in this period reaches the delay line or the lane; before, it is from before the start (R232). -/
def kept (s : State) (f : Nat) (q : Quad) : Bool := decide ((flowRun s f).startLeft ≤ (flowRun s f).pad + portLead f q)

/-- The sample an ingress flow's endpoint gives in this period: a channel's capture point takes the operands; a port's word comes
from its FIFO, a microphone's from its decimator, a core's from what it presents. Behind held pads a port or a microphone gives
value 0 with SET (R385). -/
def ingressSample (f : Nat) (q : Quad) (even odd : List Int) (s : State) : Sample × State :=
  if q.rel ≠ 0 then (if kept s f q ∧ ¬(s.power.padsHeld ∧ q.kind ≠ 1) then asrcIngress f q s else (zeroSample tSET, asrcTake f s))
  else match q.kind with
  | 1 =>
    let (x, s1) := captureAin q.ep (atFrame s q.lane) even odd s
    (x, feedAin q.ep x s1)
  | 5 =>
    let r := flowRun s f
    if s.power.padsHeld then (zeroSample tSET, s)
    else if r.stopped then (repeatLast s r, s)
    else
      let (x, s1) := micTake q.ep s
      (x, onFlow f (fun r => { r with last := some x }) s1)
  | 6 => (returnSample s q.ep (flowRun s f).pos, onFlow f (fun r => { r with pos := r.pos + 1 }) s)
  | _ => if kept s f q ∧ s.power.padsHeld = false then fifoGet f s else (zeroSample tSET, s)

/-- A flow's CUT mark of a restart is due on what it delivers now (Table 1.5): behind an egress flow's ASRC channel that is the next
sample its endpoint takes. -/
def takeCut (f : Nat) (q : Quad) (x : Sample) (s : State) : Sample × State :=
  if (flowRun s f).cutNext then
    if 128 ≤ f ∧ q.rel ≠ 0 then (x, onFlow f (fun r => { r with cutNext := false, fifoCut := true }) s)
    else (withCut x, onFlow f (fun r => { r with cutNext := false }) s)
  else (x, s)

/-- Every flow marks CUT while the holdover mute holds (R326). -/
def holdCut (s : State) (x : Sample) : Sample := if gHeld s then withCut x else x

/-- The error that FDMA's next read of a flow's delay line meets. -/
def delayUpset (s : State) (f : Nat) : Option BeatErr :=
  s.mem.upsets.findSome? (fun u => match u with | .delayWord g e => if g = f then some e else none | _ => none)

/-- The word that FDMA writes into a flow's delay line, as the line holds it (R365, R366, Table 10.13): where the beat is not performed, what
the line held there, which is the word now due, or before the line is full a free one (log entry 2); value 0 with SET where its data
fails. A flow without padding has no such write. -/
def delayWrite (f : Nat) (x : Sample) (s : State) : Sample × State :=
  let r := flowRun s f
  if r.pad = 0 then (x, s)
  else if upset s (.request 6) then
    let s1 := logAbort 6 6 6 true 0 (aDelayLines + 4096 * f) (dropUpset (.request 6) s)
    match r.startLeft, r.delay with
    | 0, y :: _ => (y, s1)
    | _, _ =>
      let (w, s2) := drawWord s1
      let (t, s3) := drawIn 0 15 s2
      (⟨w, BitVec.ofNat 4 t.toNat⟩, s3)
  else if upset s (.data 6) then
    (zeroSample (stamp s tSET), logAbort 6 6 7 true 0 (aDelayLines + 4096 * f) (dropUpset (.data 6) s))
  else (x, s)

/-- Through the delay line (R234): what was first stored for the sample now due, if the endpoint made it, and the sample. The
first samples of a start are value 0 with SET, and those that the endpoint made before the boundary are dropped (R232). A word of
the line that fails its check is delivered as value 0 with SET (R366). -/
def delayed (f : Nat) (q : Quad) (x : Sample) (s : State) : Option Sample × Sample × State :=
  let (x, s) := delayWrite f x s
  let r := flowRun s f
  if 0 < r.startLeft then
    (none, zeroSample (stamp s tSET), onFlow f (fun r => { r with
      startLeft := r.startLeft - 1
      delay := if r.startLeft ≤ r.pad + portLead f q then r.delay ++ [x] else r.delay
      hashed := if r.startLeft ≤ r.pad + portLead f q then r.hashed ++ [x] else r.hashed }) s)
  else match r.delay with
    | [] => (none, x, s)
    | y :: ys =>
      let s1 := onFlow f (fun r => { r with delay := ys ++ [x], hashed := r.hashed.tail ++ [x] }) s
      let y0 := r.hashed.headD y
      match delayUpset s f with
      | some e => (some y0, zeroSample (stamp s tSET),
          logAbort 6 6 (errCause e) false 0 (aDelayLines + 4096 * f) (dropUpset (.delayWord f e) s1))
      | none => (some y0, y, s1)

/-- The check of an ingress flow's word at its first SRAM write (R365, R366, Table 10.13): value 0 with SET is stored. The filter
engine's capture point and the ASRC are source 0x06, another writer's beat source 0x03. -/
def ingressHop (f : Nat) (q : Quad) (z : Sample) (s : State) : Sample × State :=
  match ingressUpset s f with
  | none => (z, s)
  | some w =>
    if kept s f q then
      let s1 := dropUpset (.ingress f w) s
      (zeroSample (stamp s tSET),
        if q.kind = 1 ∧ q.rel = 0 then logLane false q.ep w s1
        else if q.rel ≠ 0 then logLane false q.lane w s1
        else logAbort 6 6 7 true 0 (aLane q.lane (tget 0 s.mtx.lanePos q.lane)) s1)
    else (z, s)

/-- One period of an ingress flow. A seal hashes the word first written to SRAM for the lane sample (R369, R419): the delay line's, or without
padding the lane's. -/
def ingressStep (f : Nat) (q : Quad) (even odd : List Int) (s : State) : State :=
  let (x, s1) := ingressSample f q even odd s
  let (x, s2) := ingressHop f q x s1
  let (h, y, s3) := delayed f q x s2
  let (y, s4) := takeCut f q y s3
  let y := holdCut s4 y
  let z : Sample := if q.kind = 6 then y else ⟨y.val, stamp s4 y.tag⟩
  let (z', s5) := laneWriteLost q.lane z s4
  sealSample f (flowRun s f).seq (atFrame s q.lane) (if (flowRun s f).pad = 0 then z' else h.getD z') (writeLane q.lane z' s5)

/-! ## Egress -/

/-- FDMA's read of an input lane fails (R366, Table 10.13): the sample is value 0 with SET, and the word is rewritten so. -/
def laneLost (s : State) (u : Upset) : State :=
  match u with
  | .lane n e =>
    let a := aLane n ((tget 0 s.mtx.lanePos n + 255) % 256)
    logAbort 6 6 (errCause e) false 0 a { (dropUpset u s) with
      mem := (dropUpset u s).mem.setWord a 0 (stamp s tSET)
      mtx := { s.mtx with laneIn := tput ⟨0, 0⟩ s.mtx.laneIn n ⟨0, stamp s tSET⟩ } }
  | _ => s

/-- The sample an egress flow reads from its lane. -/
def laneSample (q : Quad) (s0 : State) : Sample × State :=
  let s := s0.mem.upsets.foldl laneLost s0
  if q.direct then (tget ⟨0, 0⟩ s.mtx.laneIn q.lane, s)
  else
    matrixSample q.lane (rateHz q.laneRate) (s.mem.upsets.foldl gainRead s)

/-- The first sample of a frame of the lane that an egress flow reads: that of an input lane is already written when the flow reads it.
An input lane that no running flow feeds has no frames: any sample begins one. -/
def frameRead (s : State) (q : Quad) : Bool :=
  if q.direct then
    tget 0 s.mtx.lanePos q.lane % 16 == 1 || !((inFlow (active s) q.lane).any (fun x => (flowRun s x.1).running))
  else atFrame s (readLane q)

/-- PANIC's DIG engages and releases at frame boundaries of the flow's lane (Table 6.12, R216). -/
def digStep (f : Nat) (q : Quad) (s : State) : State :=
  if digital f q ∧ frameRead s q then
    onFlow f (fun r => { r with dig := s.panic.latch && bit s.panic.cfg 8 }) s
  else s

/-- A DAC channel takes samples: its interpolator runs, from a start until the end of Table 8.4; nothing passes behind held pads
(R385). -/
def dacTakes (s : State) (d : Nat) : Bool := running s && gridRuns s && !s.power.padsHeld && !(dac s d).stopped

/-- An egress flow gives its endpoint a sample: a send to its core; else into the FIFO, or into the flow's ASRC
channel before it; behind held pads it is discarded (R385), and at a channel that takes none. -/
def egressTo (f : Nat) (q : Quad) (x : Sample) (s : State) : State :=
  if q.kind = 6 then sendSample f q.ep x s
  else if s.power.padsHeld ∨ (q.kind = 2 ∧ dacTakes s q.ep = false) then onFlow f (fun r => { r with
    fifo := [], hist := [], ahead := [], begun := r.begun || (r.startLeft == 0 && decide (r.asrcLeft ≤ 1))
    asrcLeft := if r.startLeft = 0 then r.asrcLeft - 1 else r.asrcLeft }) s
  else if q.rel ≠ 0 then asrcEgress f q x s
  else fifoPut f x (onFlow f (fun r => { r with begun := r.begun || r.startLeft == 0 }) s)

/-- One period of an egress flow. -/
def egressStep (f : Nat) (q : Quad) (s : State) : State :=
  let (x, s1) := laneSample q (digStep f q s)
  let (_, y, s2) := delayed f q x s1
  let (y, s3) := takeCut f q y s2
  let y := holdCut s3 y
  let (z, s4) := if q.rel = 0 then silenced f q y s3 else (y, s3)
  let (z, s5) := if q.rel = 0 then egressHop f q z s4 else (z, s4)
  egressTo f q z s5

/-- FLOW_SAMPLE (R235): a running flow moves one sample and its counter advances. FDMA reads the flow's context, and waits for a lock of
the lanes' bank, of GRAM or of FCTX (R358, Table 10.6). -/
def flowSample (f : Nat) (even odd : List Int) (s : State) : State :=
  let q := (active s).flow f
  if q.bound ∧ (flowRun s f).running ∧ audioRuns s then
    let s := waitLock (fun p => p == sramPoint aLanes || p == 8 || p == 9) s
    match contextUpset s f with
    | some e => contextLost f q e s
    | none =>
    let s1 := if f < 128 then ingressStep f q even odd s else egressStep f q s
    onFlow f (fun r => { r with seq := (r.seq + 1) % 2 ^ 64 }) s1
  else s

end Sys2Proof.Machine
end

