-- ==== Sys2Proof/Machine/Beats.lean ====
section
/-! DEFINITION. What the sample clocks do within a tick of the timebase where the table has no row for it (log entry 145): an input
channel that no LOCKED flow carries, the PDM decimators, the modulators' samples at the millrace, the DAC interpolators and final
stages, and the AES3 transmitters' frames. -/

namespace Sys2Proof.Machine

/-- A running LOCKED flow takes the endpoint's samples itself. -/
def lockedFlow (s : State) (kind ep : Nat) : Bool :=
  !(runningFlows s (fun _ q => q.kind == kind && q.ep == ep && q.rel == 0)).isEmpty

/-- A sample of an ingress endpoint enters the ASRC channel of the CONVERT flow that carries it (R229). -/
def toAsrc (kind ep : Nat) (x : Sample) (s : State) : State :=
  (runningFlows s (fun f q => decide (f < 128) && q.kind == kind && q.ep == ep && q.rel != 0)).foldl
    (fun s f => asrcPush f [x] (onFlow f (fun r => { r with stopped := false }) s)) s

/-- A sample period of a running channel while the filter engine has no clock: its CIC words wait in the FIFO, and each that finds
it full is discarded and slips (R40, Table 7.8). -/
def cicWaits (ch : Nat) (even odd : List Int) (s : State) : State :=
  let c := chan s ch
  if c.live then
    let mode := (active s).pairMode ch
    let ratio := cicRatio s (active s) ch
    let e := if mode = 1 ∧ c.oddNext then (c.dec, 0) else decimateWait ratio even c.dec
    let o := if mode = 2 ∨ (mode = 1 ∧ c.oddNext) then decimateWait ratio odd c.decOdd else (c.decOdd, 0)
    let s1 := onChan ch (fun c => { c with
      dec := e.1, decOdd := o.1, oddNext := mode == 1 && !c.oddNext, cutNext := c.cutNext || decide (0 < e.2 + o.2) }) s
    (List.range (e.2 + o.2)).foldl (fun s _ =>
      (runningFlows s (fun _ q => q.kind == 1 && q.ep == ch)).foldl (fun s f => slip f s) s) s1
  else s

/-- A sample period of a channel's chains (R19, R163, R179): a channel that no LOCKED flow carries runs all the same. -/
def ainBeat (ch : Nat) (even odd : List Int) (s : State) : State :=
  if running s = false ∨ gridRuns s = false ∨ (active s).gov ch ≠ ch then s
  else if pllbUnlocked s then cicWaits ch even odd s
  else if audioRuns s = false ∨ lockedFlow s 1 ch then s
  else
    let (x, s1) := captureAin ch ((chan s ch).pos == 0) even odd s
    toAsrc 1 ch x (feedAin ch x s1)

/-- The first sample of a microphone whose clock has stood still carries CUT (Table 1.5). -/
def micResumes (m : Nat) (s : State) : State :=
  if (runningFlows s (fun f q => q.kind == 5 && q.ep == m && (flowRun s f).stopped)).isEmpty then s
  else onMic m (fun c => { c with cut := true }) s

/-- The levels a PDM line shows: free ones where its pad has no supply (Table 14.8 gives none; log entry 197). -/
def lineLevels (edges : List (Bool × Bool)) (s : State) : List (Bool × Bool) × State :=
  if s.power.iovddA then (edges, s)
  else
    let r := drawWords edges.length s
    (r.1.map (fun w => (bit w 0, bit w 1)), r.2)

/-- A sample period of the two microphones on a line, its clock edges in time order: A from the rising edges, B from the falling ones
(R249). -/
def pdmBeat (line : Nat) (edges : List (Bool × Bool)) (s : State) : State :=
  if (tget {} s.ports.pdmRun (line / 2)).running ∧ masterFree s ∧ audioRuns s ∧ line < 4 then
    let l := (lineLevels edges s).1
    [(2 * line, l.map (·.1)), (2 * line + 1, l.map (·.2))].foldl (fun s x =>
      let s1 := micSample x.1 x.2 (micResumes x.1 s)
      if lockedFlow s1 5 x.1 then
        (runningFlows s1 (fun _ q => q.kind == 5 && q.ep == x.1)).foldl
          (fun s f => onFlow f (fun r => { r with stopped := false }) s) s1
      else toAsrc 5 x.1 (mic s1 x.1).out s1) (lineLevels edges s).2
  else s

/-- Words of the interpolator's history that are held (R272). The spec gives no length: 64 is the model's choice (log entry 163). -/
def interpLen : Nat := 64

/-- A DAC channel's FIFO has run empty (R271). -/
def dacEmpty (s : State) (f : Nat) : Bool := (flowRun s f).fifo.isEmpty && (flowRun s f).ahead.isEmpty

/-- A DAC channel's interpolator takes its next sample (R270, R271). Where its FIFO has run empty, or no flow feeds it any more, a
starvation fade starts; samples that return end it. Before a flow's first sample its start's value 0 with SET comes (R232), but no
sample returns with it to a fade that runs. -/
def dacBeat (d : Nat) (s : State) : State :=
  if dacTakes s d then
    match (runningFlows s (fun f q => decide (128 ≤ f) && q.kind == 2 && q.ep == d)).head? with
    | none => if (dac s d).hist = [] then s else starveStart d s
    | some f =>
      if dacEmpty s f ∧ starting s f = false then slip f (starveStart d s)
      else if dacEmpty s f ∧ ((dac s d).starve = .fadeOut ∨ (dac s d).starve = .silent) then s
      else
        let (x, s1) := endpointRead f s
        onDac d (fun c => { c with hist := (x.val :: c.hist).take interpLen }) (starveEnd d s1)
  else s

end Sys2Proof.Machine
end

