-- ==== Sys2Proof/Machine/SylRows.lean ====
section
/-! DEFINITION. The syllable rows of the opcode table (R81–R99, R120): each is the issue of a bundle that holds this
syllable alone, on the named stream core or the CP (log entry 25). -/

namespace Sys2Proof.Machine

/-- An uncorrectable read by the CP (R366, Table 10.13): the bus returns an error, and the row is logged. The patrol has
rewritten the word, so it decodes at the next read. -/
def cpReadError (r : BadRead) (s : State) : State :=
  match r with
  | .send _ | .beat _ _ _ => s
  | .word addr =>
  logRow 2 addr { s with cp := { s.cp with busError := true }, mem := { s.mem with bad := s.mem.bad.filter (· != addr) } }

/-- A CP that issues a bundle does not wait for an event any more (R120). -/
def wake (u : Site) (s : State) : State :=
  match u with
  | .cp => { s with cp := { s.cp with wfe := false } }
  | .sc _ => s

/-- A unit meets a parity error of its register file (R364, R366): a stream core as Table 3.8 states; the CP takes a bus error, and its
bundle does not issue (Table 10.13; log entry 203). -/
def registerLost (u : Site) (r : Nat) (s : State) : State :=
  match u with
  | .sc n => logRegister u r (undoAll n.val (core s n.val).lastErr s)
  | .cp => busErr true (logRegister u r s)

/-- A read of a unit fails: a stream core's as Table 3.8 states, the CP's with a bus error (R366). -/
def readLost (u : Site) (r : BadRead) (s : State) : State :=
  match u with
  | .sc n => dataError n.val r s
  | .cp => cpReadError r s

/-- What keeps a bundle whose syllables have the effects `e` from issuing: a register of the unit's file that fails its parity, where
something executes, or a read that fails. -/
def bundleLost (u : Site) (e : List Eff) (s : State) : Option State :=
  match (if e.isEmpty then none else registerUpset s u), badRead e with
  | some r, _ => some (registerLost u r s)
  | none, some a => some (readLost u a s)
  | none, none => none

/-- Issue a bundle that holds one syllable: its effects where its predicate lets it execute (R92), and none otherwise. -/
def runSyl (u : Site) (on : Bool) (effs : List Eff) (s : State) : Out :=
  let e := if on then effs else []
  match bundleLost u e s with
  | some t => ev s t
  | none =>
    match issue u e (wake u s) with
    | .ok s1 => ev s s1
    | .error f => .fault f

/-- A syllable the CP does not implement (R120). -/
def runCore (m : String) (u : Site) (on : Bool) (effs : List Eff) (s : State) : Out :=
  match u with
  | .sc _ => runSyl u on effs s
  | .cp => .refused (.cpDoesNotImplement m)

/-- A core's beat on the matrix: while PLLB is gated the matrix stands still, and the syllable waits to issue (R363, log entry
153). -/
def onMatrix (m : String) (u : Site) (on : Bool) (effs : List Eff) (s : State) : Out :=
  match u with
  | .sc _ => if on && pllbUnlocked s then .next s else runSyl u on effs s
  | .cp => .refused (.cpDoesNotImplement m)

/-- The syllable 0x0000_0000: no effect (R93, R98). -/
def execBundleNop (u : Site) (s : State) : Out := runSyl u true [] s

/-- ADD: wrapping addition (R98, Table 3.4). -/
def execAdd (u : Site) (p : Pred) (rd : BitVec 5) (ra : BitVec 5) (rb : BitVec 5) (s : State) : Out :=
  runSyl u (predOk s u p) (eff2 (· + ·) s u rd ra rb) s

/-- ADDS: saturating addition (R98, Table 3.4). -/
def execAdds (u : Site) (p : Pred) (rd : BitVec 5) (ra : BitVec 5) (rb : BitVec 5) (s : State) : Out :=
  runSyl u (predOk s u p) (eff2 opAdds s u rd ra rb) s

/-- SUB: wrapping subtraction (R98, Table 3.4). -/
def execSub (u : Site) (p : Pred) (rd : BitVec 5) (ra : BitVec 5) (rb : BitVec 5) (s : State) : Out :=
  runSyl u (predOk s u p) (eff2 (· - ·) s u rd ra rb) s

/-- SUBS: saturating subtraction (R98, Table 3.4). -/
def execSubs (u : Site) (p : Pred) (rd : BitVec 5) (ra : BitVec 5) (rb : BitVec 5) (s : State) : Out :=
  runSyl u (predOk s u p) (eff2 opSubs s u rd ra rb) s

/-- AND (R98, Table 3.4). -/
def execAnd (u : Site) (p : Pred) (rd : BitVec 5) (ra : BitVec 5) (rb : BitVec 5) (s : State) : Out :=
  runSyl u (predOk s u p) (eff2 (· &&& ·) s u rd ra rb) s

/-- OR (R98, Table 3.4). -/
def execOr (u : Site) (p : Pred) (rd : BitVec 5) (ra : BitVec 5) (rb : BitVec 5) (s : State) : Out :=
  runSyl u (predOk s u p) (eff2 (· ||| ·) s u rd ra rb) s

/-- XOR (R98, Table 3.4). -/
def execXor (u : Site) (p : Pred) (rd : BitVec 5) (ra : BitVec 5) (rb : BitVec 5) (s : State) : Out :=
  runSyl u (predOk s u p) (eff2 (· ^^^ ·) s u rd ra rb) s

/-- SHL: wrapping left shift (R98, Table 3.4). -/
def execShl (u : Site) (p : Pred) (rd : BitVec 5) (ra : BitVec 5) (sh : BitVec 5) (s : State) : Out :=
  runSyl u (predOk s u p) (eff1 (· <<< sh.toNat) s u rd ra) s

/-- SHR: logical right shift (R98, Table 3.4). -/
def execShr (u : Site) (p : Pred) (rd : BitVec 5) (ra : BitVec 5) (sh : BitVec 5) (s : State) : Out :=
  runSyl u (predOk s u p) (eff1 (· >>> sh.toNat) s u rd ra) s

/-- SAR: arithmetic right shift (R98, Table 3.4). -/
def execSar (u : Site) (p : Pred) (rd : BitVec 5) (ra : BitVec 5) (sh : BitVec 5) (s : State) : Out :=
  runSyl u (predOk s u p) (eff1 (·.sshiftRight sh.toNat) s u rd ra) s

/-- SHLS: saturating left shift (R98, Table 3.4). -/
def execShls (u : Site) (p : Pred) (rd : BitVec 5) (ra : BitVec 5) (sh : BitVec 5) (s : State) : Out :=
  runSyl u (predOk s u p) (eff1 (opShls sh.toNat) s u rd ra) s

/-- MULQ: Q1.31 product (R98, Table 3.4). -/
def execMulq (u : Site) (p : Pred) (rd : BitVec 5) (ra : BitVec 5) (rb : BitVec 5) (s : State) : Out :=
  runCore "MULQ" u (predOk s u p) (eff2 opMulq s u rd ra rb) s

/-- MIN (R98, Table 3.4). -/
def execMin (u : Site) (p : Pred) (rd : BitVec 5) (ra : BitVec 5) (rb : BitVec 5) (s : State) : Out :=
  runSyl u (predOk s u p) (eff2 opMin s u rd ra rb) s

/-- MAX (R98, Table 3.4). -/
def execMax (u : Site) (p : Pred) (rd : BitVec 5) (ra : BitVec 5) (rb : BitVec 5) (s : State) : Out :=
  runSyl u (predOk s u p) (eff2 opMax s u rd ra rb) s

/-- ABS (R98, Table 3.4). -/
def execAbs (u : Site) (p : Pred) (rd : BitVec 5) (ra : BitVec 5) (s : State) : Out :=
  runSyl u (predOk s u p) (eff1 opAbs s u rd ra) s

/-- SEL (R98, Table 3.4). -/
def execSel (u : Site) (p : Pred) (rd : BitVec 5) (ra : BitVec 5) (rb : BitVec 5) (ps : BitVec 3) (s : State) : Out :=
  runSyl u (predOk s u p) (effSel s u rd ra rb ps) s

/-- ADDI (R98, Table 3.4). -/
def execAddi (u : Site) (p : Pred) (rd : BitVec 5) (ra : BitVec 5) (imm : BitVec 10) (s : State) : Out :=
  runSyl u (predOk s u p) (eff1 (· + imm.signExtend 32) s u rd ra) s

/-- CMPLT (R98, Table 3.4). -/
def execCmplt (u : Site) (p : Pred) (pd : BitVec 3) (ra : BitVec 5) (rb : BitVec 5) (s : State) : Out :=
  runSyl u (predOk s u p) (effCmp (fun a b => decide (a < b)) s u pd ra rb) s

/-- CMPLE (R98, Table 3.4). -/
def execCmple (u : Site) (p : Pred) (pd : BitVec 3) (ra : BitVec 5) (rb : BitVec 5) (s : State) : Out :=
  runSyl u (predOk s u p) (effCmp (fun a b => decide (a ≤ b)) s u pd ra rb) s

/-- CMPEQ (R98, Table 3.4). -/
def execCmpeq (u : Site) (p : Pred) (pd : BitVec 3) (ra : BitVec 5) (rb : BitVec 5) (s : State) : Out :=
  runSyl u (predOk s u p) (effCmp (fun a b => decide (a = b)) s u pd ra rb) s

/-- TSTT (R98, Table 3.4). -/
def execTstt (u : Site) (p : Pred) (pd : BitVec 3) (ra : BitVec 5) (mask : BitVec 4) (s : State) : Out :=
  runSyl u (predOk s u p) (effTstt s u pd ra mask) s

/-- PAND (R98, Table 3.4). -/
def execPand (u : Site) (p : Pred) (pd : BitVec 3) (pa : BitVec 3) (pb : BitVec 3) (s : State) : Out :=
  runSyl u (predOk s u p) (effPred (· && ·) s u pd pa pb) s

/-- POR (R98, Table 3.4). -/
def execPor (u : Site) (p : Pred) (pd : BitVec 3) (pa : BitVec 3) (pb : BitVec 3) (s : State) : Out :=
  runSyl u (predOk s u p) (effPred (· || ·) s u pd pa pb) s

/-- PNOT (R98, Table 3.4). -/
def execPnot (u : Site) (p : Pred) (pd : BitVec 3) (pa : BitVec 3) (s : State) : Out :=
  runSyl u (predOk s u p) (effPred (fun a _ => !a) s u pd pa 0) s

/-- TAGS (R90). -/
def execTags (u : Site) (p : Pred) (rd : BitVec 5) (ra : BitVec 5) (mask : BitVec 3) (s : State) : Out :=
  runSyl u (predOk s u p) (effTag true s u rd ra mask) s

/-- TAGC (R90). -/
def execTagc (u : Site) (p : Pred) (rd : BitVec 5) (ra : BitVec 5) (mask : BitVec 3) (s : State) : Out :=
  runSyl u (predOk s u p) (effTag false s u rd ra mask) s

/-- TAGR (R98, Table 3.4). -/
def execTagr (u : Site) (p : Pred) (rd : BitVec 5) (ra : BitVec 5) (s : State) : Out :=
  runSyl u (predOk s u p) (effTagr s u rd ra) s

/-- TAGW (R98, Table 3.4). -/
def execTagw (u : Site) (p : Pred) (rd : BitVec 5) (ra : BitVec 5) (rb : BitVec 5) (s : State) : Out :=
  runSyl u (predOk s u p) (effTagw s u rd ra rb) s

/-- MACZ (R98, Table 3.4). -/
def execMacz (u : Site) (p : Pred) (ad : BitVec 3) (ra : BitVec 5) (rb : BitVec 5) (s : State) : Out :=
  runCore "MACZ" u (predOk s u p) (effMac false 1 s u ad ra rb) s

/-- MAC (R98, Table 3.4). -/
def execMac (u : Site) (p : Pred) (ad : BitVec 3) (ra : BitVec 5) (rb : BitVec 5) (s : State) : Out :=
  runCore "MAC" u (predOk s u p) (effMac true 1 s u ad ra rb) s

/-- MSU (R98, Table 3.4). -/
def execMsu (u : Site) (p : Pred) (ad : BitVec 3) (ra : BitVec 5) (rb : BitVec 5) (s : State) : Out :=
  runCore "MSU" u (predOk s u p) (effMac true (-1) s u ad ra rb) s

/-- ACCADD (R98, Table 3.4). -/
def execAccadd (u : Site) (p : Pred) (ad : BitVec 3) (sa : BitVec 3) (s : State) : Out :=
  runCore "ACCADD" u (predOk s u p) (effAccadd s u ad sa) s

/-- ACCMV (R98, Table 3.4). -/
def execAccmv (u : Site) (p : Pred) (ad : BitVec 3) (ra : BitVec 5) (s : State) : Out :=
  runCore "ACCMV" u (predOk s u p) (effAccmv s u ad ra) s

/-- ACCRD (R98, Table 3.4). -/
def execAccrd (u : Site) (p : Pred) (rd : BitVec 5) (sa : BitVec 3) (sh : BitVec 5) (s : State) : Out :=
  if sh.toNat ≤ 8 then runCore "ACCRD" u (predOk s u p) (effAccrd s u rd sa sh) s else .refused (.reservedEncoding "ACCRD")

/-- LDW (R98, Table 3.4). -/
def execLdw (u : Site) (p : Pred) (rd : BitVec 5) (ra : BitVec 5) (off : BitVec 10) (s : State) : Out :=
  runSyl u (predOk s u p) (effLdw s u rd ra off) s

/-- LDW2 (R98, Table 3.4). -/
def execLdw2 (u : Site) (p : Pred) (rd : BitVec 5) (ra : BitVec 5) (off : BitVec 10) (s : State) : Out :=
  runSyl u (predOk s u p) (effLdw2 s u rd ra off) s

/-- STW (R107). -/
def execStw (u : Site) (p : Pred) (rd : BitVec 5) (ra : BitVec 5) (off : BitVec 10) (s : State) : Out :=
  runSyl u (predOk s u p) (effStw s u rd ra off) s

/-- STW2 (R107). -/
def execStw2 (u : Site) (p : Pred) (rd : BitVec 5) (ra : BitVec 5) (off : BitVec 10) (s : State) : Out :=
  runSyl u (predOk s u p) (effStw2 s u rd ra off) s

/-- LDP (R98, Table 3.4). -/
def execLdp (u : Site) (p : Pred) (rd : BitVec 5) (ra : BitVec 5) (off : BitVec 10) (s : State) : Out :=
  runCore "LDP" u (predOk s u p) (effLdp s u rd ra off) s

/-- LDC (R98, Table 3.4). -/
def execLdc (u : Site) (p : Pred) (rd : BitVec 5) (ra : BitVec 5) (off : BitVec 10) (s : State) : Out :=
  runCore "LDC" u (predOk s u p) (effLdc s u rd ra off) s

/-- LDC2 (R98, Table 3.4). -/
def execLdc2 (u : Site) (p : Pred) (rd : BitVec 5) (ra : BitVec 5) (off : BitVec 10) (s : State) : Out :=
  runCore "LDC2" u (predOk s u p) (effLdc2 s u rd ra off) s

/-- LDD (R83). -/
def execLdd (u : Site) (p : Pred) (rd : BitVec 5) (ra : BitVec 5) (off : BitVec 10) (s : State) : Out :=
  onMatrix "LDD" u (predOk s u p) (effLdd s u rd ra off) s

/-- STD (R83, R107). -/
def execStd (u : Site) (p : Pred) (rd : BitVec 5) (ra : BitVec 5) (off : BitVec 10) (s : State) : Out :=
  onMatrix "STD" u (predOk s u p) (effStd s u rd ra off) s

/-- LDS (R99). -/
def execLds (u : Site) (p : Pred) (rd : BitVec 5) (rp : BitVec 5) (ri : BitVec 5) (imm : BitVec 5) (s : State) : Out :=
  runCore "LDS" u (predOk s u p) (effLds s u rd rp ri imm) s

/-- STR (R99). -/
def execStr (u : Site) (p : Pred) (rd : BitVec 5) (rp : BitVec 5) (ri : BitVec 5) (imm : BitVec 5) (s : State) : Out :=
  runCore "STR" u (predOk s u p) (effStr s u rd rp ri imm) s

/-- BR (R96). -/
def execBr (u : Site) (p : Pred) (target : BitVec 11) (s : State) : Out :=
  runSyl u (predOk s u p) [.jump target.toNat] s

/-- CALL (R96). -/
def execCall (u : Site) (p : Pred) (target : BitVec 11) (s : State) : Out :=
  runSyl u (predOk s u p) [.call target.toNat] s

/-- RET (R96). -/
def execRet (u : Site) (p : Pred) (s : State) : Out :=
  runSyl u (predOk s u p) [.back] s

/-- MOVL: a zero-extended 16-bit immediate with tag 0 (R98). -/
def execMovl (u : Site) (pr : BitVec 3) (rd : BitVec 5) (imm : BitVec 16) (s : State) : Out :=
  runSyl u (predK s u pr) (effMovl rd imm) s

/-- MOVH: the upper 16 bits of a register (R98). -/
def execMovh (u : Site) (pr : BitVec 3) (rd : BitVec 5) (imm : BitVec 16) (s : State) : Out :=
  runSyl u (predK s u pr) (effMovh s u rd imm) s

/-- LOOP (R96). -/
def execLoop (u : Site) (rc : BitVec 5) (maxe : BitVec 4) (last : BitVec 11) (s : State) : Out :=
  runSyl u true [.loop last.toNat (loopCount s u rc maxe)] s

/-- LOOPI (R96). -/
def execLoopi (u : Site) (count : BitVec 9) (last : BitVec 11) (s : State) : Out :=
  if count = 0 then .refused (.reservedEncoding "LOOPI") else runSyl u true [.loop last.toNat count.toNat] s

/-- FEND: the frame computation ends; a return sample not written presents 0 with SET (R97). -/
def execFend (u : Site) (s : State) : Out := runCore "FEND" u true [.fend] s

end Sys2Proof.Machine
end

