-- ==== Sys2Proof/Machine/Loader.lean ====
section
/-! DEFINITION. CORE.LOAD (R112–R114): the static rules of Table 3.10, the count of the cycle rule, and the load. -/

namespace Sys2Proof.Machine

/-! ## The staged image (Table 12.5) -/

/-- Word `i` of the staging area. -/
def staged (s : State) (i : Nat) : Word := s.mem.word (aStaging + 4 * i)

/-- `n` words of the staging area from word `i`. -/
def stagedWords (s : State) (i n : Nat) : List Word := s.mem.words (aStaging + 4 * i) n

/-- Step 6 of Table 12.6: one compatibility entry names this silicon and `fw` (0 for firmware). -/
def compatOk (s : State) (fw : Word) : Bool :=
  (List.range (min 8 (fld (staged s 8) 3 0))).any (fun k =>
    staged s (12 + 2 * k) == fw && staged s (13 + 2 * k) == 0xA1)

/-! ## Static rules (Table 3.10) -/

/-- A program as its bundles: M, A0, A1, C. -/
abbrev Prog := List (List Word)

/-- Cut a list of words into bundles. -/
def toBundles : List Word → Prog
  | a :: b :: c :: d :: r => [a, b, c, d] :: toBundles r
  | _ => []

def bundleAt (p : Prog) (b : Nat) : List Word := p.getD b []

/-- The C syllable of a bundle. -/
def ctl (ws : List Word) : Word := ws.getD 3 0

/-- Reason 0x01: a syllable's class is not allowed in its slot (R91). -/
def classBad (ws : List Word) : Bool :=
  (ws.zip [1, 0, 0, 2]).any (fun x => x.1 != 0 && sylClass x.1 != x.2)

def isLoop (w : Word) : Bool := w != 0 && (opc w == 0x83 || opc w == 0x84)

/-- Reason 0x03 of one bundle: END placement, nesting in the text, or a predicate on LOOP, LOOPI or FEND (R92, R96). -/
def loopBad (p : Prog) (b : Nat) : Bool :=
  let w := ctl (bundleAt p b)
  let outer := (List.range b).filter (fun k =>
    let v := ctl (bundleAt p k)
    isLoop v && decide (b ≤ fTarget v))
  (isLoop w && (decide (fTarget w ≤ b) || decide (p.length ≤ fTarget w) || decide (2 ≤ outer.length)
      || outer.any (fun k => decide (fTarget (ctl (bundleAt p k)) < fTarget w))))
    || (w != 0 && (isLoop w || opc w == 0x88) && fld w 23 20 != 0)

/-- Two equal entries. -/
def hasDup : List Nat → Bool
  | [] => false
  | a :: r => r.contains a || hasDup r

/-- The first reason a bundle fails by itself, in the order of Table 3.10. -/
def bundleReason (p : Prog) (b : Nat) : Option Nat :=
  let ws := bundleAt p b
  let w := ctl ws
  if classBad ws then some 1
  else if w != 0 && opc w == 0x80 && decide (fTarget w ≤ b) then some 2
  else if loopBad p b then some 3
  else if hasDup (ws.flatMap sylWrites) then some 5
  else none

/-- The first bundle, from bundle 2 on, that fails by itself. -/
def staticFail (p : Prog) : Option (Nat × Nat) :=
  ((List.range p.length).filterMap (fun b =>
    if b < 2 then none else (bundleReason p b).map (fun r => (r, b)))).head?

/-- Reason 0x06: the frame vector (Table 3.5), and the bundle of the first bad word. -/
def vectorFail (p : Prog) : Option (Nat × Nat) :=
  let v := bundleAt p 0
  if p.length < 2 then some (6, 0)
  else if resv (v.getD 0 0) 0x7FF || decide (fld (v.getD 0 0) 10 0 < 2) || resv (v.getD 1 0) 0xFF
      || decide (128 < fld (v.getD 1 0) 7 0) || resv (v.getD 3 0) 0x3FF then some (6, 0)
  else if (bundleAt p 1).any (· != 0) then some (6, 1)
  else none

/-! ## The cycle rule (R112) -/

/-- A counted path: what is on its way, the cycles and the versioned stores. -/
structure Path where
  sb : List Coming
  cyc : Nat
  stores : Nat
  deriving DecidableEq, Repr

/-- Of paths with the same interlock keep the largest counts. -/
def mergePath (l : List Path) (x : Path) : List Path :=
  match l with
  | [] => [x]
  | y :: r =>
    if y.sb = x.sb then ⟨y.sb, max y.cyc x.cyc, max y.stores x.stores⟩ :: r else y :: mergePath r x

/-- The versioned stores of a bundle. -/
def storesOf (ws : List Word) : Nat :=
  ws.foldl (fun n w => n + if opc w = 0x42 ∨ opc w = 0x49 then 1 else if opc w = 0x43 then 2 else 0) 0

/-- The delay and undo charges of a bundle (R112). -/
def chargeOf (ws : List Word) : Nat :=
  ws.foldl (fun n w => n + delayCharge w +
    if opc w = 0x42 then 2 else if opc w = 0x43 then 4 else if opc w = 0x49 then 8 else 0) 0

/-- One cycle passes on a path: what a RET costs its CALL (R113). -/
def stepCycle (x : Path) : Path := { x with sb := passCycles 1 x.sb, cyc := x.cyc + 1 }

/-- The FEND bundle issues on a path: it counts 1 (R113). -/
def stepFend (ws : List Word) (x : Path) : Path :=
  ⟨afterBundle 1 x.sb ws, x.cyc + 1, x.stores + storesOf ws⟩

/-- A bundle issues on a path: its stalls, one cycle, `extra` cycles and its charges. -/
def stepPath (ws : List Word) (extra : Nat) (x : Path) : Path :=
  let w := stalls x.sb ws
  let run := 1 + extra + (ws.map delayCharge).foldl (· + ·) 0
  ⟨afterBundle run (passCycles w x.sb) ws, x.cyc + w + 1 + extra + chargeOf ws, x.stores + storesOf ws⟩

/-- Repeat a body: when one path comes round to the interlock it started from, the rest is counted at once. -/
def repeatBody (body : List Path → Except (Nat × Nat) (List Path)) :
    Nat → List Path → Except (Nat × Nat) (List Path)
  | 0, xs => .ok xs
  | n + 1, xs =>
    match body xs with
    | .error e => .error e
    | .ok ys =>
      match xs, ys with
      | [x], [y] =>
        if x.sb = y.sb then .ok [⟨y.sb, y.cyc + n * (y.cyc - x.cyc), y.stores + n * (y.stores - x.stores)⟩]
        else repeatBody body n ys
      | _, _ => repeatBody body n ys

/-- The paths from bundle `b` through `last` (a loop's END, or the program's last bundle). `inCall` ends a path at RET;
`top` says that running past `last` leaves the program. An ENTRY past the code is such a run (DESIGN CHOICE, log entry 138). Depths are the calls and loops entered. Fuel bounds the walk. -/
def walk (p : Prog) : Nat → Nat → Nat → Bool → Bool → Nat → Nat → List Path → Except (Nat × Nat) (List Path)
  | 0, b, _, _, _, _, _, _ => .error (9, b)
  | fuel + 1, b, last, inCall, top, calls, loops, xs =>
    if last < b then (if top then .error (9, last) else .ok xs)
    else
      let ws := bundleAt p b
      let w := ctl ws
      let sure := fld w 23 20 == 0
      let go := xs.map (stepPath ws 0)
      let both (l r : Except (Nat × Nat) (List Path)) : Except (Nat × Nat) (List Path) :=
        match l, r with
        | .error e, _ => .error e
        | _, .error e => .error e
        | .ok a, .ok c => .ok (c.foldl mergePath a)
      if w = 0 then walk p fuel (b + 1) last inCall top calls loops go
      else match opc w with
      | 0x88 => .ok (xs.map (stepFend ws))
      | 0x83 | 0x84 =>
        if 2 ≤ loops then .error (3, b)
        else
          let n := if opc w = 0x84 then fld w 19 11 else 2 ^ fld w 14 11
          match repeatBody (walk p fuel (b + 1) (fTarget w) inCall false calls (loops + 1)) n go with
          | .error e => .error e
          | .ok ys => walk p fuel (fTarget w + 1) last inCall top calls loops ys
      | 0x80 =>
        if p.length ≤ fTarget w then .error (9, b)
        else
          let taken := walk p fuel (fTarget w) last inCall top calls loops (xs.map (stepPath ws 1))
          if sure then taken else both taken (walk p fuel (b + 1) last inCall top calls loops go)
      | 0x81 =>
        if 4 ≤ calls then .error (4, b)
        else if fTarget w < 2 ∨ p.length ≤ fTarget w then .error (9, b)
        else
          match walk p fuel (fTarget w) (p.length - 1) true true (calls + 1) loops (xs.map (stepPath ws 1)) with
          | .error e => .error e
          | .ok ys =>
            let next := walk p fuel (b + 1) last inCall top calls loops (ys.map stepCycle)
            if sure then next else both next (walk p fuel (b + 1) last inCall top calls loops go)
      | 0x82 =>
        if !inCall then .error (4, b)
        else if sure then .ok go
        else both (.ok go) (walk p fuel (b + 1) last inCall top calls loops go)
      | _ => walk p fuel (b + 1) last inCall top calls loops go

/-- The worst-case cycle and store counts of a program (R112), or the path rule it breaks. -/
def countProg (p : Prog) : Except (Nat × Nat) (Nat × Nat) :=
  match walk p 20000 (fld ((bundleAt p 0).getD 0 0) 10 0) (p.length - 1) false true 0 0 [⟨[], 0, 0⟩] with
  | .error e => .error e
  | .ok xs => .ok (64 + (xs.foldl (fun m x => max m x.cyc) 0), xs.foldl (fun m x => max m x.stores) 0)

/-- The first static rule a program breaks, or its counts (Table 3.10; reasons 0x07 and 0x08 name no bundle and carry
index 0, log entry 26). -/
def judge (p : Prog) : Except (Nat × Nat) (Nat × Nat) :=
  match vectorFail p with
  | some e => .error e
  | none =>
    match staticFail p with
    | some e => .error e
    | none =>
      match countProg p with
      | .error e => .error e
      | .ok (c, n) =>
        let v := bundleAt p 0
        if 512 < n then .error (7, 0)
        else if (v.getD 2 0).toNat < c ∨ fld (v.getD 3 0) 9 0 < n then .error (8, 0)
        else .ok (c, n)

/-- The first bundle with a reserved syllable (R93). -/
def reservedAt (p : Prog) : Option Nat :=
  (List.range p.length).find? (fun b => decide (2 ≤ b) && (bundleAt p b).any (fun w => !sylValid w))

/-! ## The command (R114, Table 3.9) -/

/-- The pages held by the slots other than `k` (R84). -/
def heldPages (s : State) (k : Nat) : List Nat :=
  (List.range 8).flatMap (fun i => if i = k then [] else (tget ({} : Slot) s.cores.slots i).pages)

/-- Write the image into the slot. -/
def loadSlot (s : State) (n k : Nat) (p : Prog) (coef : List Word) (cyc stores : Nat) : State :=
  let free := (List.range 512).filter (fun i => !(heldPages s (2 * n + k)).contains i)
  let pages := free.take (fld ((bundleAt p 0).getD 1 0) 7 0)
  let m := s.mem.setWords (aPram n + k * 0x8000) 0 p.flatten
  { s with
    mem := m.setWords (aCram + n * 0x10000 + k * 0x8000) 0 coef
    cores := { s.cores with slots := tput {} s.cores.slots (2 * n + k) ⟨true, cyc, stores, pages, p.length⟩ } }

def bodyCoreLoad (a : CmdArgs) (s : State) : Ans :=
  let w := opnd a 0
  let n := fld w 1 0
  let k := fld w 4 4
  let codeLen := (staged s 10).toNat
  let coefLen := (staged s 11).toNat
  let p := toBundles (stagedWords s 64 (codeLen / 4))
  let delay := fld ((bundleAt p 0).getD 1 0) 7 0
  let b := (active s).bind n
  checks s [(resv w 0x13, .unsupported)]
    (if s.sec.verified = false then ⟨.unsupported, s, [0x0A000000]⟩
     else readOk s ((List.range (64 + (codeLen + coefLen) / 4)).map (fun i => aStaging + 4 * i)) <|
     match reservedAt p with
     | some i => ⟨.unsupported, s, [toWord (0x0A000000 + i)]⟩
     | none =>
       checks s
         [ (decide (2048 < p.length) || decide (32768 < coefLen), .range),
           ((b.en && b.slot == k) || ((core s n).st == .halted && (core s n).haltSlot == k) || s.sets.swap.isSome, .busy),
           (decide (512 < (heldPages s (2 * n + k)).length + delay), .noCapacity) ]
         (match judge p with
          | .error (r, i) => ⟨.refused, s, [toWord (r * 16777216 + i)]⟩
          | .ok (c, st) =>
            if compatOk s s.power.fwVersion then
              yes (loadSlot s n k p (stagedWords s (64 + codeLen / 4) (coefLen / 4)) c st)
                [toWord c, toWord st, toWord (delay * 4096)]
            else no .untestedCombination s))

def rowCoreLoad : CmdRow := { op := 0x90, count := countIs 1, maxRes := fun _ _ => 3, body := bodyCoreLoad }

end Sys2Proof.Machine
end

