-- ==== Sys2Proof/Machine/Sets.lean ====
section
/-! DEFINITION. The two configuration sets (R65–R77): SWAP and its checks, the flip, copies, SET.READ, and the boundary at
which IMMEDIATE writes reach ACTIVE. -/

namespace Sys2Proof.Machine

/-! ## A change of ACTIVE -/

/-- The channels of a pair whose mode changes stop before they start anew (R135). -/
def pairsStop (o : ConfigSet) (s : State) : State :=
  (List.range 32).foldl (fun s ch =>
    if o.pairMode ch = (active s).pairMode ch then s else onChan ch (fun c => { c with run := .off }) s) s

/-- Every block follows a change of ACTIVE from the set `o` (Table 2.9); `page` names the cores whose held frames it invalidates. -/
def followActive (page : Nat → Bool) (o : ConfigSet) (s : State) : State :=
  tapsFollow (pairsStop o s) (portsDiff (coreDiff page o (outDiff o (flowDiff o (mrDiff o (mtxDiff o (feDiff o s)))))))

/-- The write of a set item by opcode (Table 2.8), but parameter pages. -/
def itemWrite (op : Nat) (a : CmdArgs) (c : ConfigSet) : ConfigSet :=
  match op with
  | 0x40 | 0x41 | 0x42 | 0x43 => writeMtx op a c
  | 0x44 | 0x45 => writeMr op a c
  | 0x60 => writeOut a c
  | 0x91 => writeBind a c
  | _ => writeFe op a c

/-- A placed IMMEDIATE write reaches ACTIVE (R67). -/
def placedWrite (s : State) (p : Placed) : State :=
  if p.op = 0x92 then writePage s.sets.selB p.ops s
  else writeActive p.op p.ops (itemWrite p.op ⟨false, 0, 0, false, true, p.ops⟩) s

/-- Placed writes write core `n`'s parameter page, and so roll it back (Table 3.8). -/
def placedPage (ps : List Placed) (n : Nat) : Bool := ps.any (fun p => p.op == 0x92 && fld (p.ops.headD 0) 1 0 == n)

/-- Placed writes take effect together: every item is written, then every block follows. -/
def applyPlaced (ps : List Placed) (s : State) : State :=
  if ps.isEmpty then s
  else
    let o := heard s
    let s1 := ps.foldl placedWrite s
    followActive (placedPage ps) o { s1 with sets := { s1.sets with placed := s1.sets.placed.filter (fun p => !ps.contains p) } }

/-- A common frame boundary: a frame boundary at every lane rate in use (R36). -/
def commonBoundary (s : State) : Bool := frameStart s (fun _ => true)

/-- IMMEDIATE_WRITE_APPLY (R67): a frame boundary of `rate`; a write that serves no lane takes any boundary. -/
def immediateWriteApply (rate : Nat) (s : State) : State :=
  if audioRuns s ∧ frameStart s (fun q => q.laneRate == rate) then
    applyPlaced (s.sets.placed.filter (fun p => match p.rate with | some r => r == rate | none => true)) s
  else s

/-! ## SWAP (R70–R76) -/

/-- SHADOW exceeds a capacity of Table 1.10 (R71, step 3). -/
def swapCapacity (s : State) : Bool :=
  let c := shadow s
  firCapacity s c || mtxCapacity s || flowCapacity c || coreCapacity s c

/-- The checks of R71, step 4, in opcode order. -/
def swapOwn (s : State) : Option Status :=
  let c := shadow s
  [feSwap12 c, feSwap34 c, fltSwap1 s c, fltSwap23 s c, mtxSwap1 c, mtxSwap2 (active s) c, flowSwap s c, outSwap s c,
    coreSwap s c].findSome? id

/-- The word at an address belongs to a set's bank: its items, flow contexts and parameter pages (R65). -/
def inBank (bankB : Bool) (a : Nat) : Bool :=
  let g := bankBase aGram 0x30000 bankB
  let f := bankBase aFctx 0x4000 bankB
  decide (g ≤ a ∧ a < g + 0x30000) || decide (f ≤ a ∧ a < f + 0x4000) || decide (aPage 0 bankB ≤ a ∧ a < aPage 4 bankB)

/-- A word that the CP reads for a command no longer decodes: a bus error and its entry (R366, Table 10.13). The patrol has rewritten it,
so it decodes at the next read. -/
def wordLost (a : Nat) (s : State) : State :=
  logRow 2 a { s with cp := { s.cp with busError := true }, mem := s.mem.unmark (· == a) }

/-- A command reads words of a set: one that no longer decodes ends it with FAULT. -/
def setOk (want : Nat → Bool) (x : Ans) (s : State) : Ans :=
  if x.st ≠ .ok then x else match s.mem.bad.find? want with | some a => no .fault (wordLost a s) | none => x

/-- The swap ends without effect: SWAP_STATUS takes `c` and SWAP_DONE is raised. -/
def withdrawSwap (c : Status) (s : State) : State :=
  raiseIrq irqSwapDone { s with sets := { s.sets with swap := none, swapStatus := BitVec.ofNat 4 c.code } }

def bodySwap (a : CmdArgs) (s : State) : Ans :=
  if flag a 2 then
    checks s [(flag a 0 || flag a 1, .unsupported)]
      (if s.sets.swap.isSome then yes (withdrawSwap .refused s) [1] else yes s [0])
  else
    checks s
      [(setBusy s || measuring s, .busy), (feSwapRef s, .refNotReady), (swapCapacity s, .noCapacity)]
      (match swapOwn s with
       | some c => no c s
       | none =>
         yes { s with sets := { s.sets with swap := some ⟨flag a 0, flag a 1, flag a 0, now s⟩ } }
           [toWord ((s.sets.epoch + 1) % 65536)])

/-- The checks of a SWAP read SHADOW (R71). -/
def rowSwap : CmdRow :=
  { op := 0x10, flags := 7, count := countIs 0, maxRes := fun _ _ => 1
    body := fun a s => setOk (fun x => !flag a 2 && inBank (!s.sets.selB) x) (bodySwap a s) s }

/-- The tag names the epoch before the present one (R27). -/
def oldTag (s : State) (t : BitVec 4) : Bool := t.getLsbD 0 != (epo s).getLsbD 0

/-- A sample of the epoch before the present one remains on the way of a running flow: in its lane, and of an egress flow in the
lane's look-ahead line, the delay line, the ASRC channel and the FIFO, or in the input frames of the core it feeds (R28). -/
def oldInFlow (s : State) (f : Nat) : Bool :=
  let q := (active s).flow f
  let r := flowRun s f
  let old (x : Sample) : Bool := oldTag s x.tag
  if f < 128 then old (tget ⟨0, 0⟩ s.mtx.laneIn q.lane)
  else
    (!q.direct && (old (tget ⟨0, 0⟩ s.mtx.laneOut q.lane)
        || (tget {} s.mtx.weirs q.lane).line.any (fun t => oldTag s t.tag)))
      || r.fifo.any old || r.ahead.any old || r.hist.any old || r.delay.any old
      || (q.kind == 6 &&
        (let c := core s (q.ep / 32)
         let i := 16 * (q.ep % 32)
         (List.range r.pos).any (fun k => old (tget dSend c.sendBuf (i + k % 16)))
           || c.inputs.any (fun fr => (List.range 16).any (fun k => old (tget dSend fr (i + k))))))

/-- A frame of the epoch before the present one remains in a core's staging buffers (R28). -/
def oldInCore (s : State) (n : Nat) : Bool :=
  let c := core s n
  c.st == .running && (c.held.any (fun f => f.epoch != s.sets.epoch) || c.stale.any (fun v => v.epoch != s.sets.epoch) ||
    (match c.shown with | none => false | some v => v.epoch != s.sets.epoch))

/-- A sample of the epoch before the present one remains in a lane, a staging buffer or an egress FIFO (R28). -/
def oldEpochLeft (s : State) : Bool :=
  (runningFlows s (fun _ _ => true)).any (oldInFlow s) || (List.range 4).any (oldInCore s)

/-- SWAP_TAKE_EFFECT (R73, R75): a common frame boundary that satisfies R28. -/
def swapTakeEffect (s : State) : State :=
  match s.sets.swap with
  | none => s
  | some r =>
    if r.armed = false ∧ audioRuns s ∧ commonBoundary s ∧ oldEpochLeft s = false then
      let o := heard s
      raiseIrq irqSwapDone (followActive (fun _ => true) o { s with sets := { s.sets with
        selB := !s.sets.selB, epoch := (s.sets.epoch + 1) % 65536, swap := none, swapStatus := 0, copying := r.copy, taken := [], takenFlows := [] } })
    else s

/-- SWAP_TIMEOUT (Table 2.10): 100 ms from acceptance, or from the arming edge. -/
def swapTimeout (s : State) : State :=
  match s.sets.swap with
  | none => s
  | some r => if r.armed = false ∧ 100 * msec ≤ since s r.since then withdrawSwap .timeout s else s

/-! ## Copies and SET.READ (R68) -/

/-- ACTIVE is copied into SHADOW, its parameter pages with it. -/
def copySet (s : State) : State :=
  let s1 := onShadow (fun _ => active s) s
  let b := s.sets.selB
  { s1 with mem := (List.range 4).foldl (fun m n => m.copyRange (aPage n b) (aPage n (!b)) 4096) s1.mem }

/-- What the copy writes decodes again. -/
def copied (s : State) : State := { (copySet s) with mem := (copySet s).mem.unmark (inBank (!s.sets.selB)) }

/-- COPY_COMPLETE (Table 2.9). A word of ACTIVE that no longer decodes is logged, and copied as the patrol has rewritten it. -/
def copyComplete (s0 : State) : State :=
  let s := if s0.sets.copying then (s0.mem.bad.filter (inBank s0.sets.selB)).foldl (fun s a => wordLost a s) s0 else s0
  if s.sets.copying then
    let s1 := copied s
    raiseIrq irqSetCopied { s1 with sets := { s1.sets with copying := false } }
  else s

def rowSetCopy : CmdRow :=
  { op := 0x12, count := countIs 0, body := fun _ s => setOk (inBank s.sets.selB) (checks s [(setBusy s, .busy)] (yes (copied s))) s }

/-- The reserved bits of an addressing operand, by the opcode that writes the item; none for an opcode not marked S. -/
def addrMask (op : Nat) : Option Word :=
  match op with
  | 0x22 | 0x23 | 0x30 | 0x32 | 0x33 => some 0x1F
  | 0x24 => some 0xF
  | 0x40 => some 0x7F007F
  | 0x41 | 0x42 => some 0x7FFF7F
  | 0x43 => some 0x7F
  | 0x44 => some 0x707
  | 0x45 => some 7
  | 0x50 | 0x51 => some 0xFF
  | 0x60 => some 0x3F
  | 0x91 => some 3
  | 0x92 => some 0x0FFFFF03
  | _ => none

/-- The addressing operand names no item (R218, R284, R117). -/
def addrRange (op : Nat) (w : Word) : Bool :=
  match op with
  | 0x41 | 0x42 => spanBad w
  | 0x60 => decide (33 < w.toNat)
  | 0x92 => fld w 15 8 == 0 || decide (4096 < fld w 27 16 + fld w 15 8)
  | _ => false

/-- The largest number of result words of SET.READ. -/
def readWords (op : Nat) (w : Word) : Nat :=
  match op with
  | 0x41 => ceilDiv (fld w 15 8) 2
  | 0x42 => fld w 15 8
  | 0x45 => 2
  | 0x50 | 0x51 => 4
  | 0x91 => 3
  | 0x92 => fld w 15 8
  | _ => 1

/-- The value operands of an item as held (R162, R189, R225, R264, R284, R115, R117). -/
def readItem (op : Nat) (w : Word) (c : ConfigSet) (bankB : Bool) (s : State) : List Word :=
  let i := w.toNat
  let node (j : Nat) : Word := c.node (fld w 22 16 + j) (fld w 6 0)
  match op with
  | 0x22 => [c.mode i]
  | 0x23 => [c.gainW i]
  | 0x24 => [c.pairW i]
  | 0x30 => [c.presetW i]
  | 0x32 => [c.fir i]
  | 0x33 => [c.fade i]
  | 0x40 => [node 0]
  | 0x41 =>
    (List.range (ceilDiv (fld w 15 8) 2)).map (fun j =>
      toWord (fld (node (2 * j)) 15 0 * 65536 + if 2 * j + 1 < fld w 15 8 then fld (node (2 * j + 1)) 15 0 else 0))
  | 0x42 => (List.range (fld w 15 8)).map (fun j => toWord (fld (node j) 20 16))
  | 0x43 => [c.weir i]
  | 0x44 => [c.tap (fld w 10 8) (fld w 2 0)]
  | 0x45 => [c.outMap i 0, c.outMap i 1]
  | 0x50 | 0x51 => let q := c.flow i; [q.w0, q.w1, q.w2, q.w3]
  | 0x60 => [c.out i]
  | 0x91 => let b := c.bind i; [b.word, b.sends, b.returns]
  | _ => s.mem.words (aPage (fld w 1 0) bankB + 4 * fld w 27 16) (fld w 15 8)

def bodySetRead (a : CmdArgs) (s : State) : Ans :=
  let h := opnd a 0
  let w := opnd a 1
  let op := fld h 31 24
  match addrMask op with
  | none => no .unsupported s
  | some m =>
    checks s [(resv h 0xFF010000 || resv w m, .unsupported), (addrRange op w, .range)]
      (let sh := bit h 16
       let b := if sh then !s.sets.selB else s.sets.selB
       let page := aPage (fld w 1 0) b + 4 * fld w 27 16
       readOk s (if op = 0x92 then (List.range (fld w 15 8)).map (fun i => page + 4 * i) else [])
         (setOk (holdsItem b op [w]) (yes s (readItem op w (if sh then shadow s else active s) b s)) s))

def rowSetRead : CmdRow :=
  { op := 0x13, count := countIs 2, maxRes := fun a _ => readWords (fld (opnd a 0) 31 24) (opnd a 1), body := bodySetRead }

end Sys2Proof.Machine
end

