-- ==== Sys2Proof/Machine/Clocks.lean ====
section
/-! DEFINITION. PLLs, synchronisation and the timebase (R315–R345). -/

namespace Sys2Proof.Machine

/-! ## Fields (Table 9.8) -/

def Pll.en (p : Pll) : Bool := bit p.cfg 31
def Pll.window (p : Pll) : Nat := fld p.cfg 19 16
def Pll.thresh (p : Pll) : Nat := fld p.cfg 10 8
def Pll.bw (p : Pll) : Nat := fld p.cfg 2 0

/-- A THRESH code in ppm (Table 9.8). -/
def threshPpm (c : Nat) : Nat :=
  match c with | 0 => 2 | 1 => 5 | 2 => 10 | 3 => 20 | 4 => 50 | 5 => 100 | 6 => 200 | _ => 500

/-- The effective THRESH code (R323). -/
def Pll.thrCode (p : Pll) : Nat := min 7 (p.thresh + p.boost)

/-- The threshold that judges a window: 200 ppm while locking after NAP (R322), which the planner does not raise and PLLA_THR does not show
(DESIGN CHOICE, log entry 208), else the effective code's. -/
def Pll.limit (p : Pll) : Nat := if p.fromNap then 200 else threshPpm p.thrCode

/-- A PLL by unit: 0 PLLA, else PLLB. -/
def pll (s : State) (u : Nat) : Pll := if u = 0 then s.clk.a else s.clk.b

def onPll (u : Nat) (f : Pll → Pll) (s : State) : State :=
  if u = 0 then { s with clk := { s.clk with a := f s.clk.a } } else { s with clk := { s.clk with b := f s.clk.b } }

/-- The latest SN22 result, in 1/16 °C. -/
def tempCode (s : State) : Nat := fld (tget 0 s.sense.results 22) 11 0

/-- The distance of two codes. -/
def codeDist (a b : Nat) : Nat := ((a : Int) - b).natAbs

/-- The XREF frequency in use (R318): the OTP word, or 24.576 MHz. -/
def xrefHz (s : State) : Nat := if s.sec.otp.xrefFreq = 0 then 24576000 else s.sec.otp.xrefFreq

/-! ## Feedback dividers (R316, Tables 9.1, 9.2) -/

/-- f_ref of a reference (Table 9.2). An AES3 receiver whose measured rate is unknown has none: the model's choice is 0, with which no
window is within threshold (log entry 173). -/
def refHz (s : State) (ref : Nat) (mclk : Nat) : Nat :=
  if ref = 0 then xrefHz s
  else if ref = 1 then mclk
  else if ref < 6 then
    let w := (tdm s (ref - 2)).cfg
    tdmSlots w * tdmWidth w * rateHz (tdmRate w)
  else 128 * rateHz (aesRx s (ref - 6)).rate

/-- f_ref of a PLL's present reference. -/
def pllRefHz (s : State) (u : Nat) : Nat := if u = 0 then refHz s s.clk.ref.toNat s.clk.mclkHz else xrefHz s

/-- PERI runs derated (R448). -/
def derated (s : State) : Bool := bit s.margin.w0 5

/-- The DCO target of a family (Table 9.1), and that of a PLL: a derated PLLB runs at 39/40 (R448). -/
def familyDco (f44 : Bool) : Nat := if f44 then 2709504000 else 2949120000
def dcoTarget (s : State) (u : Nat) : Nat :=
  if u = 0 then familyDco (fam44 s) else if derated s then 2875392000 else 2949120000

/-- N.F in units of 2^−24 under prescaler 2^p: F is the fraction rounded to nearest (R316). -/
def divNF (dco f p : Nat) : Nat := (roundDiv (dco * 2 ^ 24) (2 ^ p * f)).toNat

/-- P: the smallest value for which N + F / 2^24 ≤ 251 (R316). -/
def divP (dco f : Nat) : Option Nat := (List.range 8).find? (fun p => decide (divNF dco f p ≤ 251 * 2 ^ 24))

/-- The division ratio 2^P × (N + F / 2^24) in units of 2^−24; none where R316 cannot be met. -/
def divRatio (dco f : Nat) : Option Nat :=
  if f = 0 then none
  else match divP dco f with
    | none => none
    | some p => if divNF dco f p < 16 * 2 ^ 24 then none else some (2 ^ p * divNF dco f p)

/-! ## Timebase (R338–R340) -/

/-- The period of a source in 2^−32 ns. That of XT32 before a measurement is its nominal one, as R339 says of the RC, in whole picoseconds
(DESIGN CHOICE, log entry 209). -/
def srcPeriod (s : State) (c : TbSrc) : Nat :=
  match c with
  | .periLocked | .periCoast => if derated s then (16 * 2 ^ 32 + 0x46AAAAAB) * 40 / 39 else 16 * 2 ^ 32 + 0x46AAAAAB
  | .rc16 => 62500 * 2 ^ 32 / 1000
  | .xt32 => (if s.tb.calFresh then s.tb.xtPs else 30517578) * 2 ^ 32 / 1000
  | .rc32 => (if s.tb.calFresh then s.tb.rcPs else 31250000) * 2 ^ 32 / 1000

/-- The source that the present condition selects (Table 9.6). -/
def srcNow (s : State) : TbSrc :=
  if !pllbUnlocked s then
    (if s.clk.b.st == .holdover || s.clk.b.st == .holdoverMuted then .periCoast else .periLocked)
  else if s.tb.lockedOnce = false then .rc16
  else if s.tb.xt32 && bit s.clk.aon 31 then .xt32 else .rc32

/-- ΔT is the largest |T − T_cal| (R339). -/
def noteTemp (code : Nat) (s : State) : State := { s with tb := { s.tb with dT := max s.tb.dT (codeDist code s.tb.tCal) } }

/-- SN22's last result, which stands for the temperature: there is none before a scan has written one since a reset or a loss, nor in REST
and HIBERNATE, where AON_TEMP_SAMPLE measures it (R308, R339). -/
def sn22 (s : State) : Option Nat :=
  match s.power.st with
  | .rest | .hibernate => none
  | .off | .reset | .run | .entering | .doze | .nap | .wakeHold | .wakeHoldDark =>
    if tget 0 s.sense.results 22 = 0 then none else some (tempCode s)

/-- The timebase moves to the source of the present condition: what grew is kept, and a change of clock adds the slower
clock's period to U (R338). `temp` is the latest SN22 result, if there is one. -/
def tbSwitchAt (temp : Option Nat) (s : State) : State :=
  let c := srcNow s
  if c = s.tb.src then s
  else
    let peri (x : TbSrc) : Bool := x == .periLocked || x == .periCoast
    let step := if peri c && peri s.tb.src then 0
      else ceilDiv (max (srcPeriod s c) (srcPeriod s s.tb.src)) (2 ^ 32)
    let s1 := { s with tb := { s.tb with src := c, uBase := min 0xFFFFFFFF (uncertainty s + step), elapsed := 0 } }
    match temp with
    | some t => if c = .rc32 then noteTemp t s1 else s1
    | none => s1

def tbSwitch (s : State) : State := tbSwitchAt (sn22 s) s

/-- 24 h in ns. -/
def day : Nat := 24 * 3600 * sec1

/-- RUN time passes: at 24 h a planner run begins, unless one is in progress (R445). -/
def Margin.pass (m : Margin) (ns : Nat) : Margin :=
  if m.runNs + ns < day then { m with runNs := m.runNs + ns } else { m with runNs := (m.runNs + ns) % day, running := true }

/-- `n` periods of the present source (R338). -/
def tbAdvance (n : Nat) (s : State) : State :=
  if vaonOn s then
    let t := s.tb.frac + n * srcPeriod s s.tb.src
    let ns := t / 2 ^ 32
    { s with
      tb := { s.tb with count := (s.tb.count + ns) % 2 ^ 64, frac := t % 2 ^ 32, elapsed := s.tb.elapsed + ns }
      margin := if running s then s.margin.pass ns else s.margin }
  else s

/-- What has grown under the present tolerance of XT32 or of the 32 kHz RC is kept when the tolerance changes (R338). -/
def foldGrowth (s : State) : State :=
  match s.tb.src with
  | .xt32 | .rc32 => { s with tb := { s.tb with uBase := uncertainty s, elapsed := 0 } }
  | .periLocked | .periCoast | .rc16 => s

/-- AON_CALIBRATION (R339): in RUN, against AUD while PLLA is locked, else against PERI; the temperature of the measurement is
recorded. -/
def aonCalibration (xtPs rcPs : Nat) (s : State) : State :=
  if running s && ((s.clk.a.st == .locked && !s.clk.a.gated) || !pllbUnlocked s) then
    { s with tb := { (foldGrowth s).tb with xtPs := xtPs, rcPs := rcPs, calFresh := true, tCal := tempCode s, dT := 0 } }
  else s

/-- AON_TEMP_SAMPLE (R339): in REST and HIBERNATE the largest |T − T_cal| grows. -/
def aonTempSample (code : Nat) (s : State) : State :=
  match s.power.st with
  | .rest | .hibernate => noteTemp (code % 4096) s
  | _ => s

/-- XT32_OSCILLATES (R338, Table 9.7). -/
def xt32Oscillates (on : Bool) (s : State) : State :=
  if vaonOn s then tbSwitch { s with tb := { s.tb with xt32 := on } } else s

/-- TIME.READ (R345). -/
def bodyTimeRead (a : CmdArgs) (s : State) : Ans :=
  let hi (n : Nat) : Word := toWord (n / 2 ^ 32)
  yes (if flag a 0 then { s with tb := { s.tb with valid := true } } else s)
    [hi s.tb.count, toWord s.tb.count, toWord (uncertainty s), hi s.tb.lastT0, toWord s.tb.lastT0]

def rowTimeRead : CmdRow :=
  { op := 0x72, flags := 1, pC := fun _ => true, count := countIs 0, maxRes := fun _ _ => 5, body := bodyTimeRead }

/-! ## State changes of a PLL -/

/-- The count of a lock stops with MTX, and goes on with it (R363). -/
def lockFreeze (s : State) : State :=
  { s with cp := { s.cp with lock := s.cp.lock.map (fun l => { l with frozen := l.frozen.orElse (fun _ => some (since s l.since)) }) } }
def lockThaw (s : State) : State :=
  { s with cp := { s.cp with lock := s.cp.lock.map (fun l =>
      match l.frozen with | some n => { l with since := now s - n, frozen := none } | none => l) } }

/-- CORE, MTX and PERI stop (R41, R329, R363): cores lose what they hold and the sense converter stops. The flow engine stops, so
the AUD-side FIFOs run empty (Table 7.8). -/
def pllbStop (s : State) : State := lockFreeze (senseStop (onCores coreStop s))

/-- CORE, MTX and PERI run again. -/
def pllbResume (s : State) : State := onCores coreResume (lockThaw s)

/-- A PLL relocks (R330): its outputs are gated and it acquires; TDM masters stop with AUD (R239). -/
def relock (u : Nat) (s : State) : State :=
  let s1 := if u = 0 then mastersStop s else { (pllbStop s) with power := { s.power with onRc := true } }
  tbSwitch (raiseIrq irqClock (onPll u (fun p => { p with
    st := .acquiring, gated := true, good := 0, bad := 0, qual := 0, fromNap := false, winAt := now s }) s1))

/-- Lock does not hold for the 60 s of a RELOCK test that runs: the test fails (Table 13.1, log entry 30). -/
def relockFails (u : Nat) (s : State) : State :=
  if (pll s u).testing then classifySite (siteOf 0x07 u) false (onPll u (fun p => { p with testing := false }) s) else s

/-- A PLL is turned off with its outputs. -/
def pllOff (u : Nat) (s : State) : State :=
  let changed := (pll s u).st != .off
  let s1 := if u = 0 then s else { (pllbStop s) with power := { s.power with onRc := true } }
  tbSwitch (raiseIf changed irqClock (onPll u (fun p => { p with
    st := .off, gated := false, good := 0, bad := 0, qual := 0, guardTrip := false, guardBad := false, dco := 0 })
    (relockFails u s1)))

/-- A PLL enters HOLDOVER (R320, R324): its tuning word freezes at the mean of the last window within threshold. -/
def enterHoldover (u : Nat) (s : State) : State :=
  let s1 := onPll u (fun p => { p with
    st := .holdover, good := 0, bad := 0, qual := 0, holdAt := now s, t0Code := tempCode s, word := p.mean, dco := p.mean })
    (relockFails u s)
  tbSwitch (raiseIrq irqClock { s1 with clk := { s1.clk with losses := min 15 (s1.clk.losses + 1) } })

/-- XREF is lost when it is the reference that PLL `u` has lost (Table 9.3): XREF_OK, a live bit, clears (Table 11.12). -/
def xrefLost (u : Nat) (s : State) : State :=
  if u = 1 ∨ s.clk.ref = 0 then { s with power := { s.power with xrefOk := false } } else s

/-- REFERENCE_LOST (R324): a locked PLL enters HOLDOVER; a count of windows starts over. -/
def referenceLost (u : Nat) (s : State) : State :=
  let s := xrefLost u s
  match (pll s u).st with
  | .locked => onPll u (fun p => { p with refAway := true }) (enterHoldover u s)
  | .holdover | .holdoverMuted | .acquiring => onPll u (fun p => { p with good := 0, qual := 0, refAway := true }) s
  | .off => s

/-- A port event is PLLA's loss of reference when the port was its running source and is not any more (R324). -/
def refFollow (before s : State) : State :=
  let r := s.clk.ref.toNat
  let runs (x : State) : Bool :=
    if r < 2 then true
    else if r < 6 then (tdm x (r - 2)).st == .running && !tdmMaster (tdm x (r - 2)).cfg
    else (aesRx x (r - 6)).st == .locked
  if runs before && !runs s then referenceLost 0 s else s

/-- What follows a row's answer. -/
def onNext (f : State → State) : Out → Out
  | .next s => .next (f s)
  | .fault r => .fault r
  | .refused r => .refused r

/-! ## Lock windows (R319, R320, R327) -/

/-- A relock locks late: its RELOCK test fails (R321, Table 13.1). -/
def lateLock (u : Nat) (s : State) : State :=
  let p := pll s u
  let s1 := if 0 < p.lockBy ∧ p.lockBy < now s then relockFails u s else s
  onPll u (fun p => { p with lockBy := 0 }) s1

/-- PLLA is locked again after the holdover mute: the restart waits for its boundary (R328). -/
def lockNow (u : Nat) (s : State) : State :=
  let p := pll s u
  let s1 := onPll u (fun p => { p with st := .locked, good := 0, bad := 0, qual := 0, fromNap := false }) (lateLock u s)
  let s2 := if u = 0 ∧ p.st = .holdoverMuted then { s1 with clk := { s1.clk with restart := true } } else s1
  let s3 := if u = 1 then { s2 with tb := { s2.tb with lockedOnce := s2.tb.lockedOnce || !p.gated } } else s2
  tbSwitch (raiseIrq irqClock s3)

/-- A window within the threshold counts, any other starts the count over; the third in a row locks, provided the guard has passed
its last window (Table 9.4). -/
def countGood (u : Nat) (ok : Bool) (s : State) : State :=
  if !ok then onPll u (fun p => { p with good := 0 }) s
  else if 2 ≤ (pll s u).good ∧ (pll s u).guardBad = false then lockNow u s
  else onPll u (fun p => { p with good := p.good + 1 }) s

/-- k of a PLL's windows: 10 while it locks after NAP (R322), else WINDOW. -/
def Pll.winK (p : Pll) : Nat := if p.fromNap then 10 else p.window

/-- The count of DCO ÷ 4 that a window of PLL `u` expects, in units of 2^−26 (R316, R319); 0 where R316 cannot be met. -/
def winExpected (s : State) (u : Nat) : Nat :=
  match divRatio (dcoTarget s u) (pllRefHz s u) with
  | some r => r * 2 ^ (pll s u).winK
  | none => 0

/-- The frequency of the DCO that a count of DCO ÷ 4 shows, Hz. -/
def countHz (s : State) (u count : Nat) : Nat := count * 4 * pllRefHz s u / 2 ^ (pll s u).winK

/-- The furthest a PLL's DCO moves by the present, Hz: 10 ppm per millisecond in a pull-in, 1 % per 10 µs in a relock (R327). -/
def dcoReach (s : State) (u : Nat) : Nat :=
  let p := pll s u
  ceilDiv (p.dco * since s p.winAt) (match p.st with | .acquiring => 10 ^ 6 | _ => 10 ^ 11)

/-- The count of a window: a loop that pulls in, or relocks a running DCO, gives none that its slew rate does not reach. -/
def winCount (s : State) (u count : Nat) : Nat :=
  let p := pll s u
  let bound (hz : Nat) : Nat := hz * 2 ^ p.winK / (4 * max 1 (pllRefHz s u))
  match p.st with
  | .acquiring | .holdover | .holdoverMuted =>
    if p.dco = 0 then count else max (bound (p.dco - dcoReach s u)) (min (bound (p.dco + dcoReach s u) + 1) count)
  | .off | .locked => count

/-- The error of a count is at most `ppm` (R319). -/
def withinPpm (expected count ppm : Nat) : Bool :=
  decide (((count * 2 ^ 26 : Nat) - (expected : Int)).natAbs * 1000000 ≤ ppm * expected)

/-- What the window leaves besides its judgement: the DCO's frequency, and the mean of a window within threshold (R324). The guard's
windows, of which each lock window holds one at least, have passed since the last FREQUENCY_GUARD_TRIP (R331). -/
def noteWindow (u count : Nat) (refPresent ok : Bool) (s : State) : State :=
  onPll u (fun p => { p with
    dco := countHz s u count, mean := if ok then countHz s u count else p.mean, winAt := now s
    guardBad := false, refAway := !refPresent }) s

/-- PLL_WINDOW (R319, R320, R327): the count of DCO ÷ 4 over the window, whether the reference was present, and its deviation from
nominal in ppm. In holdover the loop coasts on its frozen word until the reference has qualified. -/
def pllWindow (u count : Nat) (refPresent : Bool) (refPpm : Nat) (s : State) : State :=
  let p := pll s u
  let e := winExpected s u
  let n := winCount s u count
  let ok := refPresent && decide (0 < e) && withinPpm e n p.limit
  let s1 := noteWindow u n refPresent ok s
  match p.st with
  | .off => s
  | .acquiring => countGood u ok s1
  | .locked =>
    if ok then onPll u (fun p => { p with bad := 0 }) s1
    else if !withinPpm e n (4 * p.limit) ∨ 1 ≤ p.bad then enterHoldover u s1
    else onPll u (fun p => { p with bad := p.bad + 1 }) s1
  | .holdover | .holdoverMuted =>
    if p.qual < 3 then
      onPll u (fun p => { p with good := 0, winAt := now s, refAway := !refPresent, qual := if refPresent ∧ refPpm ≤ 500 then p.qual + 1 else 0 }) s
    else if refPresent then countGood u ok s1
    else onPll u (fun p => { p with good := 0, qual := 0, dco := p.word, refAway := true }) s

/-! ## Holdover (R326–R328) -/

/-- E of R326 in ppb: 0.5 ppm/s × t + 8 ppm/°C × |T − T0|. -/
def driftPpb (s : State) : Nat :=
  500 * since s s.clk.a.holdAt / sec1 + 500 * codeDist (tempCode s) s.clk.a.t0Code

/-- HOLDOVER_MUTE (R326, R280): at 1 s or 20 ppm every output's g_out ramps to 0 with its clamp released, digital egress ramps
to 0, and the state changes. -/
def holdoverMute (s : State) : State :=
  if s.clk.a.st = .holdover ∧ (sec1 ≤ since s s.clk.a.holdAt ∨ 20000 ≤ driftPpb s) then
    let s1 := (List.range 34).foldl (fun s d =>
      if (dac s d).clamp then s else onDac d (gFall (holdSteps s) s) s) s
    let s2 := (runningFlows s1 digital).foldl
      (fun s f => onFlow f (fun r => { r with muteJ := some 0 }) s) s1
    raiseIrq irqClock (raiseIrq irqHoldMute (onPll 0 (fun p => { p with st := .holdoverMuted }) s2))
  else s

/-- HOLDOVER_RESTART (R328): the common frame boundary after the lock. -/
def holdoverRestart (s : State) : State :=
  if s.clk.restart ∧ s.clk.a.st = .locked ∧ audioRuns s ∧ commonBoundary s then
    let s0 := { s with clk := { s.clk with restart := false } }
    let s1 := (activeFlows s0).foldl (fun s f => onFlow f (fun r =>
      { r with cutNext := r.cutNext || r.running, muteJ := none }) s) s0
    (List.range 34).foldl (fun s d =>
      match (dac s d).phase with
      | .unmuting | .playing => unmute d s
      | _ => s) s1
  else s

/-! ## Synchronising reset (R177, R334, Tables 5.8, 7.8, 9.5) -/

/-- A flow of a master port or a transmitter slips once where t0 is not on a boundary of its old grid (R40, Table 7.8): bit p of
`aligned` says that it is at TDM port p, bit 4 + i at transmitter i. -/
def syncSlips (aligned : BitVec 6) (s : State) : State :=
  (runningFlows s (fun f q =>
    (q.kind == 3 && tdmMaster (tdm s (q.ep / 32)).cfg && !aligned.getLsbD (q.ep / 32))
      || (q.kind == 4 && decide (128 ≤ f) && !aligned.getLsbD (4 + q.ep / 2)))).foldl
    (fun s f => slip f (onFlow f (fun r => { r with fifoCut := true }) s)) s

/-- The microphones of a running clock at t0 (R250): the decimator's history is cleared, its first sample carries CUT and 24 + 11
samples carry SET. -/
def pdmSync (s : State) : State :=
  (List.range 8).foldl (fun s m =>
    if (tget {} s.ports.pdmRun (m / 4)).running then onMic m (fun c =>
      { c with bits := [], hpX := 0, hpY := 0, setLeft := max c.setLeft 35, cut := true }) s
    else s) s

/-- t0: the dividers and grids restart, decimators and cores follow, writes that waited for the old grid apply. -/
def syncReset (aligned : BitVec 6) (s : State) : State :=
  let s1 := applyPlaced s.sets.placed s
  let s2 := pdmSync (onCores coreSync (feSync s1))
  let s3 := syncSlips aligned s2
  { s3 with mtx := { s3.mtx with lanePos := [] }, tb := { s3.tb with lastT0 := now s3 } }

/-- A reset acts: RUN, with PLLA's grids running (Table 9.5). -/
def syncActs (s : State) : Bool := running s && gridRuns s

/-- A pulse of SYNC_OUT starts (R335); behind held pads the ball stays low (Table 11.7). -/
def syncPulse (c : Bool) (s : State) : State :=
  if c && !s.power.padsHeld then { s with clk := { s.clk with pulses := s.clk.pulses + 1, pulseAt := now s } } else s

/-- SYNC_OUT is high: 16 AUD cycles from the pulse's start (R335), unless held low (R333, Table 11.7). -/
def syncOutHigh (s : State) : Bool :=
  decide (0 < s.clk.pulses) && s.clk.outmode == 1 && masterFree s && s.power.iovddA
    && decide (since s s.clk.pulseAt * masterHz s < 16 * sec1)

/-- An EMIT's request reaches AUD (R335); while AUD does not run it waits for its edges (DESIGN CHOICE, log entry 149). -/
def syncEmit (s : State) : State :=
  if s.clk.emitReq ∧ syncActs s then syncPulse true { s with clk := { s.clk with emitReq := false } } else s

/-- SYNCHRONISING_RESET (R334): the t0 of a SYNC with NOW; SYNC_OUT pulses under FOLLOW (R335). -/
def synchronisingReset (aligned : BitVec 6) (s : State) : State :=
  if s.clk.syncReq ∧ syncActs s then
    let s1 := syncReset aligned s
    syncPulse (s1.clk.outmode = 1) { s1 with clk := { s1.clk with syncReq := false, emitReq := false } }
  else s

/-- SYNC_IN_EDGE (R73, R335, Table 9.5): an armed swap takes the edge; else INMODE decides. -/
def syncInEdge (aligned : BitVec 6) (s : State) : State :=
  if running s = false ∨ s.power.padsHeld ∨ s.power.iovddA = false then s
  else match s.sets.swap with
    | some r =>
      if r.armed then { s with sets := { s.sets with swap := some { r with armed := false, since := now s } } }
      else edgeMode s
    | none => edgeMode s
where
  edgeMode (s : State) : State :=
    if s.clk.inmode = 0 ∨ gridRuns s = false then s
    else
      let s1 := syncReset aligned s
      if s.clk.inmode = 2 then { s1 with clk := { s1.clk with inmode := 0 } } else s1

/-- SYNC (R344): a REFUSED part leaves the whole command without effect (log entry 29). OUTMODE 0b10, which the rule neither defines nor
calls reserved, is UNSUPPORTED as 0b11 is: the model's choice (log entry 172). -/
def bodySync (a : CmdArgs) (s : State) : Ans :=
  let w := opnd a 0
  let cfg := flag a 2
  let out := if cfg then BitVec.ofNat 2 (fld w 5 4) else s.clk.outmode
  checks s
    [(cfg && (resv w 0x33 || fld w 1 0 == 3 || 2 ≤ fld w 5 4), .unsupported),
     (flag a 1 && out == 0, .refused),
     (flag a 0 && !(match s.clk.a.st with | .locked | .holdover | .holdoverMuted => true | _ => false), .refused)]
    (let s1 := if cfg then { s with clk := { s.clk with inmode := BitVec.ofNat 2 (fld w 1 0), outmode := out } } else s
     let s2 := if flag a 1 ∧ flag a 0 = false then syncEmit { s1 with clk := { s1.clk with emitReq := true } } else s1
     yes (if flag a 0 then { s2 with clk := { s2.clk with syncReq := true } } else s2))

def rowSync : CmdRow :=
  { op := 0x11, flags := 7, count := fun a => decide (a.ops.length = if flag a 2 then 1 else 0), body := bodySync }

/-! ## Frequency guard and ungating (R330–R333) -/

/-- The output dividers of a PLL: AUD of PLLA; CORE, MTX and PERI of PLLB (Table 1.8). -/
def guardRatio (u ratio : Nat) : Bool := if u = 0 then ratio == 120 else ratio == 6 || ratio == 12 || ratio == 48

/-- Cycles of the guard's window and their frequency: 2^10 of the reference, or 2^14 of the 16 MHz RC while it is absent (R331). -/
def guardWindow (s : State) (u : Nat) : Nat × Nat :=
  if (pll s u).refAway then (2 ^ 14, 16000000) else (2 ^ 10, pllRefHz s u)

/-- The output of divider `ratio`, of which `count` cycles fell into the guard's window, measures above its target + 2 % (R331). -/
def guardTrips (s : State) (u ratio count : Nat) : Bool :=
  let w := guardWindow s u
  decide (102 * dcoTarget s u * w.1 < 100 * (count * w.2) * ratio)

/-- The longest a running DCO at `hz` takes to lock, ns (R321). -/
def relockBound (s : State) (u hz : Nat) : Nat :=
  70000 + ceilDiv (codeDist hz (dcoTarget s u) * 10 ^ 6) (dcoTarget s u)
    + ceilDiv (3 * 2 ^ (pll s u).window * sec1) (max 1 (pllRefHz s u))

/-- FREQUENCY_GUARD_TRIP (R331, R333): a window of the guard. A running PLL of which an output measures more than 2 % too fast is
relocked whatever runs, and a RELOCK test that runs has failed; for PLLA every clamp engages first. A PLL that acquires keeps its gate closed. -/
def frequencyGuardTrip (u ratio count : Nat) (s : State) : State :=
  if guardRatio u ratio = false ∨ guardTrips s u ratio count = false then s
  else match (pll s u).st with
  | .locked | .holdover | .holdoverMuted =>
    if u < 2 then
      let s1 := if u = 0 then clampAll s else s
      let s2 := logFault 0x07 u (toWord u) (toWord ratio) (relockFails u s1)
      let s3 := if u = 0 then { s2 with clk := { s2.clk with restart := false } } else s2
      let w := guardWindow s u
      let by_ := now s + relockBound s u (count * w.2 * ratio / w.1)
      onPll u (fun p => { p with guardTrip := true, testing := true, lockAt := now s, lockBy := by_ }) (relock u s3)
    else s
  | .acquiring => onPll u (fun p => { p with guardBad := true, good := 0 }) s
  | .off => s

/-- The ungating edge after a guard trip of PLLA (R333). -/
def guardRestart (s : State) : State :=
  let s1 := syncReset 0x3F s
  let s2 := (activeFlows s1).foldl (fun s f => onFlow f (fun r =>
    { r with cutNext := r.cutNext || r.running, muteJ := none }) s) s1
  startAll s2

/-- PLL_UNGATE (R330): the outputs ungate together; PLLB's return brings the CP back to MTX. -/
def pllUngate (u : Nat) (s : State) : State :=
  let p := pll s u
  if p.gated ∧ p.guardBad = false ∧ (p.st = .locked ∨ p.st = .holdover) then
    let s1 := raiseIrq irqClock (onPll u (fun p => { p with gated := false, guardTrip := false, lockAt := now s }) s)
    if u = 0 then
      syncEmit (if p.guardTrip ∧ running s then guardRestart s1 else { s1 with mtx := { s1.mtx with lanePos := [] } })
    else
      let s2 := { s1 with power := { s1.power with onRc := false }, tb := { s1.tb with lockedOnce := true } }
      tbSwitch (pllbResume s2)
  else s

/-! ## PLL.CFG and PLL.REF (R332, R342, R343) -/

/-- Everything R332 names is disabled. -/
def audioQuiet (s : State) : Bool :=
  let a := active s
  (List.range 32).all (fun ch => !a.chEn ch)
    && (List.range 34).all (fun d => !a.outEn d)
    && (activeFlows s).isEmpty
    && (List.range 4).all (fun n => !(a.bind n).en)
    && (List.range 8).all (fun b => !busActive s b)
    && (List.range 4).all (fun p => !(tdmEn (tdm s p).cfg && tdmMaster (tdm s p).cfg))
    && (List.range 2).all (fun i => !bit (aesCfg s (2 + i)) 31 && !bit (pdmCfg s i) 31)

/-- A loop bandwidth code in Hz (Table 9.8). -/
def bwHz (c : Nat) : Nat := match c with | 0 => 100 | 1 => 300 | 2 => 1000 | 3 => 3000 | 4 => 10000 | 5 => 30000 | _ => 100000

/-- The threshold is at least 4 counts of the window: DCO ÷ 4 counts over 2^k reference cycles (R319). -/
def threshFits (s : State) (u : Nat) (w : Word) : Bool :=
  let f := pllRefHz s u
  let dco := if u = 0 then familyDco (bit w 30) else dcoTarget s 1
  decide (4 * 4 * f * 1000000 ≤ threshPpm (fld w 10 8) * dco * 2 ^ fld w 19 16)

/-- PLLA stays off: in NAP until a wake starts it, and in WAKE-HOLD (Table 11.2, R388). -/
def pllsHeld (s : State) : Bool :=
  match s.power.st with
  | .nap => s.power.waking.isNone
  | .wakeHold | .wakeHoldDark => true
  | _ => false

/-- A PLLA word takes effect (R342). Where PLLA stays off it waits for its start, cold in another family or after EN 0 (R322). -/
def applyPlla (w : Word) (s : State) : State :=
  let o := s.clk.a.cfg
  let s1 := onPll 0 (fun p => { p with cfg := w }) s
  if pllsHeld s then onPll 0 (fun p => { p with word := if bit o 30 = bit w 30 ∧ bit o 31 then p.word else 0 }) s1
  else if bit w 31 then
    (if bit o 31 = false ∨ bit o 30 ≠ bit w 30 then relock 0 (relockFails 0 s1) else s1)
  else if bit o 31 then pllOff 0 { s1 with clk := { s1.clk with restart := false } } else s1

/-- PLL.CFG (R342). With an AES3 reference of unknown rate f_ref is 0, so that every BW of PLLA is RANGE: the model's choice (log entry
173). -/
def bodyPllCfg (a : CmdArgs) (s : State) : Ans :=
  let u := opnd a 0
  let w := opnd a 1
  checks s [(resv u 3, .unsupported)]
    (if u = 3 then no .range s
     else if u = 2 then
       checks s [(resv w 0x800000FF, .unsupported), (fld w 7 0 == 0, .range), (s.sets.swap.isSome, .busy)]
         (yes (tbSwitch { (foldGrowth s) with clk := { s.clk with aon := w } }))
     else
       let n := u.toNat
       checks s
         [ (resv w 0xC00F0707 || fld w 2 0 == 7, .unsupported),
           (decide (fld w 19 16 < 10) || !threshFits s n w
             || (n == 0 && decide (refHz s s.clk.ref.toNat s.clk.mclkHz < 50 * bwHz (fld w 2 0)))
             || (n == 1 && (!bit w 31 || bit w 30 || fld w 2 0 != 6)), .range),
           (s.sets.swap.isSome, .busy),
           (n == 0 && (bit w 31 != bit s.clk.a.cfg 31 || bit w 30 != bit s.clk.a.cfg 30) && !audioQuiet s, .refused) ]
         (yes (if n = 0 then applyPlla w s else onPll 1 (fun p => { p with cfg := w }) s)))

def rowPllCfg : CmdRow := { op := 0x70, pC := fun _ => true, count := countIs 2, body := bodyPllCfg }

/-- The reference lies outside Table 9.2, or its ratio does not meet R316. An enabled AES3 receiver of unknown rate has no frequency to
test, and PLL.REF accepts it: the model's choice (log entry 173). -/
def refBad (s : State) (ref : Nat) (hz : Word) : Bool :=
  let f := refHz s ref hz.toNat
  let lo := if ref = 0 then 8000000 else if ref = 1 then 1000000 else if ref < 6 then 256000 else 4096000
  let hi := if ref < 2 then 52000000 else if ref < 6 then 25000000 else 24576000
  (ref != 1 && hz != 0)
    || (decide (2 ≤ ref ∧ ref < 6) && !(tdmEn (tdm s (ref - 2)).cfg && !tdmMaster (tdm s (ref - 2)).cfg))
    || (decide (6 ≤ ref) && !bit (aesCfg s (ref - 6)) 31)
    || (if 6 ≤ ref ∧ (aesRx s (ref - 6)).rate = 15 then false
        else decide (f < lo) || decide (hi < f) || (divRatio (dcoTarget s 0) f).isNone)

/-- PLL.REF (R343). In ACQUIRING the count of windows starts over with the new reference (DESIGN CHOICE, log entry 150). -/
def bodyPllRef (a : CmdArgs) (s : State) : Ans :=
  let r := opnd a 0
  let ref := r.toNat
  checks s [(resv r 7, .unsupported), (refBad s ref (opnd a 1), .range)]
    (match lowestFlow (active s) (fun f q => q.kind == 4 && decide (f < 128) && q.rel != 2
        && 6 + q.ep / 2 == s.clk.ref.toNat) with
     | some f => ⟨.refused, s, [toWord f]⟩
     | none =>
       let s1 := { s with clk := { s.clk with ref := BitVec.ofNat 3 ref, mclkHz := (opnd a 1).toNat } }
       yes (match s1.clk.a.st with
         | .locked => enterHoldover 0 s1
         | .holdover | .holdoverMuted | .acquiring => onPll 0 (fun p => { p with good := 0, qual := 0 }) s1
         | .off => s1))

def rowPllRef : CmdRow :=
  { op := 0x71, pC := fun _ => true, count := countIs 2, maxRes := fun _ _ => 1, body := bodyPllRef }

/-- RELOCK_TEST_HOLD (Table 13.1, R432): lock has held for 60 s, so the test passes. -/
def relockTestHold (u : Nat) (s : State) : State :=
  let p := pll s u
  if p.testing ∧ p.st = .locked ∧ p.gated = false ∧ 60 * sec1 ≤ since s p.lockAt then
    classifySite (siteOf 0x07 u) true (onPll u (fun p => { p with testing := false }) s)
  else s

end Sys2Proof.Machine
end

