-- ==== Sys2Proof/Machine/MarginPlan.lean ====
section
/-! DEFINITION. The margin planner, its notices and MARGIN.READ (R442–R452), and the AVS regulator (R394, R447). -/

namespace Sys2Proof.Machine

/-! ## AVS settings (R394) -/

def avsOn (s : State) : Bool := bit s.power.avs0 31
def avsVmin (s : State) : Nat := fld s.power.avs1 25 16
def avsVmax (s : State) : Nat := fld s.power.avs1 9 0

/-- AVS is disabled: no PMBus traffic, and REQUEST reads 0 (Table 13.9). -/
def avsDisable (s : State) : State :=
  { s with
    power := { s.power with avs0 := setBit s.power.avs0 31 false, target := s.power.request, avsSteps := [] }
    margin := { s.margin with w2 := setFld s.margin.w2 9 0 0 } }

/-- The regulator fails: an entry of source 0x0F with its address (Table 13.4). -/
def avsEntry (addr : Nat) (s : State) : State := logFault 0x0F addr (toWord addr) 0 s

/-- AVS.CFG (R394): with EN the regulator answers READ_VOUT or not, and its reading is a free value (log entry 2). -/
def bodyAvsCfg (a : CmdArgs) (s : State) : Ans :=
  let w := opnd a 0
  let v := opnd a 1
  checks s
    [ (resv w 0x807F00FF || resv v 0x03FF03FF, .unsupported),
      (decide (fld v 25 16 < 750) || decide (900 < fld v 9 0) || decide (fld v 9 0 < fld v 25 16), .range) ]
    (let s1 := { s with power := { s.power with avs0 := w, avs1 := v } }
     if bit w 31 = false then yes (avsDisable { s1 with power := { s1.power with request := 0 } }) [0]
     else
       let (ack, s2) := drawIn 0 1 s1
       let (mv, s3) := drawIn 0 1023 s2
       if ack = 0 ∨ mv < fld v 25 16 ∨ (fld v 9 0 : Int) < mv then no .fault (avsEntry (fld w 22 16) (avsDisable s3))
       else
         yes { s3 with
             power := { s3.power with request := mv.toNat, target := mv.toNat, stepAt := 0, avsSteps := [] }
             margin := { s3.margin with w2 := setFld s3.margin.w2 9 0 mv.toNat } } [toWord mv.toNat])

def rowAvsCfg : CmdRow := { op := 0x82, count := countIs 2, maxRes := fun _ _ => 1, body := bodyAvsCfg }

/-- AVS_STEP (R447): one step of 5 mV toward the planner's request, 1 ms after the last. -/
def avsStep (s : State) : State :=
  let p := s.power
  if avsOn s ∧ running s ∧ p.request ≠ p.target ∧ (p.stepAt = 0 ∨ msec ≤ since s p.stepAt) then
    let v := if p.request < p.target then min p.target (p.request + 5) else max p.target (p.request - 5)
    { s with power := { p with request := v, stepAt := now s, avsSteps := now s :: p.avsSteps } }
  else s

/-- The regulator fails: AVS is disabled, the last request is held, and AVS_FAULT is raised (R447). -/
def avsFail (s : State) : State :=
  let s1 := raiseNotice 1 (avsEntry (fld s.power.avs0 22 16) (avsDisable s))
  { s1 with power := { s1.power with avsSteps := [] }, margin := { s1.margin with avsSeen := s1.margin.avsSeen || s1.margin.running } }

/-- AVS_VERIFY (R447): a NACK fails at once; a READ_VOUT is judged against the request as it stands once 5 ms have passed since a
step. -/
def avsVerify (read : Option Nat) (s : State) : State :=
  let p := s.power
  let due (t : Nat) : Bool := decide (5 * msec ≤ since s t)
  if avsOn s ∧ running s then
    match read with
    | none => avsFail s
    | some v =>
      if p.avsSteps.any due = false then s
      else if codeDist v p.request ≤ 10 then
        { s with power := { p with avsSteps := p.avsSteps.filter (fun t => !due t) } }
      else avsFail s
  else s

/-! ## The gauge margin (R444) -/

/-- A voltage in mV, and that of SN26, CODE × 1.2 V / 4,096 (R443), in units of 1/256 mV. -/
def millivolts (v : Nat) : Int := 256 * v
def gaugeMv (m : PlannerMeas) : Int := 75 * m.sn26

/-- The pair with the lowest stressed frequency (R444). -/
def worstPair (m : PlannerMeas) : Nat × Nat :=
  m.pairs.tail.foldl (fun a p => if p.1 < a.1 then p else a) (m.pairs.headD (0, 0))

/-- f_target × 4.096 × 10¹⁰, the common denominator of TM. -/
def tmDen (s : State) : Int := (if derated s then 479232000 else 491520000) * 40960000000

/-- The frequency of a ring, 1,000 times its count, projected to V/256 mV and 125 °C, times 4.096 × 10¹⁰. -/
def projected (m : PlannerMeas) (count : Nat) (v : Int) : Int :=
  1000 * count * (2560000 + 12 * (v - gaugeMv m)) * (12976 + m.sn27)

/-- TM(V) ≥ n %. -/
def tmAtLeast (s : State) (m : PlannerMeas) (v : Int) (n : Nat) : Bool :=
  decide (tmDen s * (100 + n) ≤ 100 * projected m (worstPair m).1 v)

/-- TM(V) in 0.1 %, rounded to nearest (R486) and held to 0–255. -/
def tmCode (s : State) (m : PlannerMeas) (v : Int) : Nat :=
  (clampInt 0 255 (roundDiv (1000 * (projected m (worstPair m).1 v - tmDen s)) (tmDen s).toNat)).toNat

/-- V_top. -/
def vTop (s : State) (m : PlannerMeas) : Int := if avsOn s then millivolts (avsVmax s) else gaugeMv m

/-- MG; where its denominator is 0 the formula states no value (a free one, log entry 2). -/
def gaugeMargin (m : PlannerMeas) (s : State) : Nat × State :=
  let v := vTop s m
  let num := 100 * projected m (worstPair m).1 v - 106 * tmDen s
  let den := 100 * projected m (worstPair m).2 v - 106 * tmDen s
  if den = 0 then
    let (x, s1) := drawIn 0 100 s
    (x.toNat, s1)
  else ((clampInt 0 100 (Int.fdiv (100 * num) den)).toNat, s)

/-- The voltages the planner may request, lowest first: 5 mV steps from the present request (log entry 32). -/
def requests (s : State) : List Nat :=
  let lo := avsVmin s + (s.power.request - avsVmin s) % 5
  ((List.range 40).map (fun k => lo + 5 * k)).filter (fun v => decide (v ≤ avsVmax s))

/-- Step 2 of Table 13.8. -/
def planRequest (m : PlannerMeas) (s : State) : Nat :=
  let r := s.power.request
  let v := ((requests s).find? (fun v => tmAtLeast s m (millivolts v) 10)).getD (avsVmax s)
  if v < r ∧ r < v + 10 then r else v

/-! ## The planner (R445, R446) -/

/-- A run may end now: it is in progress, and PLLB is locked (R445). -/
def runDue (s : State) : Bool := running s && !pllbUnlocked s && s.margin.running

/-- The smallest of the margins evaluated. -/
def leastMargin (l : List Nat) : Nat := (l.filter (· != 255)).foldl min 100

/-- PLANNER_RUN (R446): steps 1 to 9 on what the monitors measured. AVS_FAULT clears after a run without a failure (R450). -/
def plannerRun (m : PlannerMeas) (s : State) : State :=
  if runDue s then
    let (mg, s0) := gaugeMargin m s
    let mb := pctMargin (2000 - 25 * codeDist m.sn25 2048) 2000
    let md := pctMargin (100 * (950 - (max m.uA m.uB : Int))) 45000
    let mn := s.margin.mn
    let mh := s.margin.mh
    let req := if avsOn s then planRequest m s else 0
    let top := vTop s m
    let w0 := s.margin.w0
    let pend := !derated s && !tmAtLeast s m top 10
    let low := !tmAtLeast s m (gaugeMv m) 6
    let eom := derated s && !tmAtLeast s m top 6
    let recal := decide (mb < 50) || decide (mn < 50)
    let wear := decide (mh < 20)
    let notices := [(7, eom), (6, low), (4, pend), (3, recal), (2, wear), (1, s.margin.avsSeen), (0, !s.flt.exhausted.isEmpty)]
    let w0' := notices.foldl (fun w x => setBit w x.1 x.2) w0
    let w0'' := setFld (setFld w0' 31 24 (leastMargin [mg, mb, md, mn, mh])) 23 16 (fld w0 23 16 + 1)
    let w1 := toWord (mg * 2 ^ 24 + mb * 2 ^ 16 + md * 2 ^ 8 + mn)
    let w2 := toWord (mh * 2 ^ 24 + tmCode s m (if avsOn s then millivolts req else gaugeMv m) * 2 ^ 16 + req)
    let boost := if md < 15 then 2 else if md < 30 then 1 else 0
    let s1 := { s0 with
      margin := { s0.margin with
        w0 := w0'', w1 := w1, w2 := w2, hist := ((w0'', w1, w2) :: s.margin.hist).take 32
        running := false, avsSeen := false }
      clk := { s0.clk with a := { s0.clk.a with boost := boost }, b := { s0.clk.b with boost := boost } }
      power := { s0.power with target := if avsOn s then req else s.power.target } }
    raiseIf (notices.any (fun x => x.2 && !bit w0 x.1)) irqService s1
  else s

/-! ## MARGIN.READ (R452) -/

/-- The words of HIST n; zero words where no such run is stored. -/
def marginWords (s : State) (n : Nat) : List Word :=
  if n = 0 then [s.margin.w0, s.margin.w1, s.margin.w2]
  else match s.margin.hist[n]? with
    | some (a, b, c) => [a, b, c]
    | none => [0, 0, 0]

/-- MARGIN.READ: a value above 31 is RANGE, as the rule says in so many words, though its bits lie outside HIST (log entry 165). -/
def bodyMarginRead (a : CmdArgs) (s : State) : Ans :=
  let w := opnd a 0
  checks s [(decide (31 < w.toNat), .range)] (yes s (marginWords s w.toNat))

def rowMarginRead : CmdRow :=
  { op := 0xD2, pC := fun _ => true, count := countIs 1, maxRes := fun _ _ => 3
    body := fun a s => retOk s (fun k => opnd a 0 != 0 && decide (1793 ≤ k) && (k - 1793) / 3 == (opnd a 0).toNat) (bodyMarginRead a s) }

/-! ## Derating at a cold start of PLLB (R448) -/

/-- The ACTIVE set fits the derated matrix limit (R448, R449). -/
def fitsDerated (s : State) : Bool :=
  decide ((activeNodes s).foldl (fun n k => n + rateHz (((outRate (active s) (k % 128)).getD 15))) 0 ≤ 3833856000)

/-- PLLB starts cold: a pending derating takes effect, at a REST wake only when ACTIVE fits the derated limits. -/
def derateAtStart (restWake : Bool) (s : State) : State :=
  if bit s.margin.w0 4 ∧ (restWake = false ∨ fitsDerated s) then
    { s with margin := { s.margin with w0 := setBit (setBit s.margin.w0 4 false) 5 true } }
  else s

end Sys2Proof.Machine
end

