-- ==== Sys2Proof/Machine/Resets.lean ====
section
/-! DEFINITION. What each state and each reset keeps (R397, Table 11.13), the resets (R390–R392), the watchdog (R393), and
the supply events of Table 14.8. -/

namespace Sys2Proof.Machine

/-- Change every entry of a table, keeping its canonical form. -/
def tmap {α : Type} [DecidableEq α] (d : α) (f : α → α) (t : List (Nat × α)) : List (Nat × α) :=
  (t.map (fun x => (x.1, f x.2))).filter (fun x => decide (x.2 ≠ d))

/-! ## Losses of the sleep states (Table 11.13) -/

/-- Lost in NAP and deeper: detector values and meters. -/
def loseNap (s : State) : State := { s with filt := { s.filt with dets := [], meters := [], capture := [] } }

/-- Counters kept only by sleep down to NAP, lost in every reset: cores, slips, ports, ASRC. -/
def loseCounts (s : State) : State :=
  { s with
    cores := { s.cores with core := tmap {} (fun c => { c with fallbacks := 0, rollbacks := 0, peakPct := 0 }) s.cores.core }
    flows := tmap {} (fun r => { r with slips := 0 }) s.flows
    ports := { s.ports with
      tdm := tmap {} (fun p => { p with crcErrs := 0, frameErrs := 0 }) s.ports.tdm
      aesRx := tmap {} (fun r => { r with parityErrs := 0, crccErrs := 0, lockLosses := 0 }) s.ports.aesRx
      relocks := 0 } }

/-- Lost in REST and deeper: what the switched logic holds. The running SLEEP is kept by the power controller. -/
def loseRest (s : State) : State :=
  let s1 := loseCounts (loseNap s)
  { s1 with
    host := {}
    deferred := { job := s1.deferred.job }
    fe := { s1.fe with ovrReg := 0 }
    sense := { s1.sense with results := [], drops := 0, misses := 0, aborted := false }
    clk := { s1.clk with losses := 0 }
    power := { s1.power with agent := 0, reason := 0 }
    sec := { s1.sec with session := none, debug := 0, chal := none, tagFails := 0 }
    seals := {} }

/-- Lost in HIBERNATE: the memories, both sets and the global settings. -/
def loseHibernate (s : State) : State :=
  let s1 := foldGrowth (loseRest s)
  { s1 with
    sets := {}, fe := {}, mtx := {}, mr := {}, flows := [], ports := {}, sense := {}, cores := {}, cp := {}, mem := s1.mem.retOnly
    cal := { s1.cal with snapshot := none, staging := [] }
    filt := {}
    outs := { s1.outs with dacs := tmap {} (fun x => { trim := x.trim }) s1.outs.dacs }
    jack := { s1.jack with micbias := 0 }
    clk := { ({} : Clocks) with
      a := { ({} : Clocks).a with testing := s1.clk.a.testing }
      b := { ({} : Clocks).b with testing := s1.clk.b.testing } }
    sec := { s1.sec with verified := false, drbg := {} }
    power := { s1.power with fwVersion := 0, boot := .romWait } }

/-! ## Resets (R390, R392, Table 11.13) -/

/-- The memories that hold firmware, programs, coefficients and the staging area survive RESET.SOFT, and RET. -/
def softMem (m : Memory) : Memory :=
  let keeps (a : Nat) : Bool :=
    decide (a < 0x100000)
      || (decide (aPram 0 ≤ a ∧ a < aPram 4) && decide ((a - aPram 0) % 0x40000 < 0x10000))
      || decide (aStaging ≤ a ∧ a < aSramEnd)
      || decide (aCram ≤ a ∧ a < aGram) || decide (aRet ≤ a)
  { cells := m.cells.filter (fun x => keeps x.1), tags := m.tags.filter (fun x => keeps (4 * x.1))
    bad := m.bad.filter keeps, remap := m.remap }

/-- A jack as AON sees it after a reset of its word: the pin's level remains. -/
def bareJacks (s : State) : Jacks :=
  { run := tmap {} (fun x => { pin := x.pin, since := x.since }) s.jack.run }

/-- The state every reset deeper than CORE leaves, with what PIN keeps: timebase, calibration records, ageing, reset
causes, straps and rails, OTP, the outputs as they stand, the TAP, and the queue and free values of the model.
ST_MARGIN_PLAN.REQUEST reads 0, as the AVS settings reset here, though PIN keeps the word (DESIGN CHOICE, log entry 143). -/
def afterReset (s : State) : State :=
  { pending := s.pending
    free := s.free
    mem := s.mem.retOnly
    tb := (foldGrowth s).tb
    cal := { ch := s.cal.ch, pair := s.cal.pair, exports := s.cal.exports }
    outs := { s.outs with dacs := tmap {} (fun x =>
      let y : Dac := { x with lockout := false, pause := 0, trips := [] }
      if y.phase = .clamped then y.halt else y) s.outs.dacs }
    jack := bareJacks s
    power := { cause := s.power.cause, wdrCount := s.power.wdrCount, straps := s.power.straps, hpvdd := s.power.hpvdd,
               spkvdd := s.power.spkvdd, iovddA := s.power.iovddA, iovddH := s.power.iovddH, xrefOk := s.power.xrefOk }
    sec := { otp := s.sec.otp, otpBad := s.sec.otpBad }
    margin := { s.margin with w2 := setFld s.margin.w2 9 0 0, running := false, again := false, avsSeen := false }
    pins := s.pins }

/-- The part of it that WDR and SOFT keep too: the fault log, whose tests end, and PANIC. -/
def afterWdr (s : State) : State := { afterReset s with flt := endTests s.flt, panic := s.panic }

/-- Outputs at a reset: Table 8.4 while AUD runs, else the clamps at once (Table 11.10). -/
def resetOutputs (s : State) : State := if gridRuns s ∧ running s then stopAll (holdClass s) else clampAll s

/-- A PLL starts cold: its lock windows run while its outputs are gated (R321, R330). -/
def coldStart (u : Nat) (s : State) : State :=
  raiseIrq irqClock (onPll u (fun p => { p with
    st := .acquiring, gated := true, good := 0, bad := 0, qual := 0, fromNap := false, dco := 0, guardBad := false
    lockBy := 0, winAt := now s }) s)

/-- PLLB starts cold (R318, R448). -/
def startPllb (restWake : Bool) (s : State) : State :=
  let s1 := coldStart 1 (derateAtStart restWake s)
  { s1 with power := { s1.power with onRc := true } }

/-- RESET.SOFT (R392): the firmware in CPRAM restarts; packets accepted and not executed wait for it. A verification it abandons
leaves its image unverified (Table 10.9). A PLLB that is off starts
once XREF is ready (R318). -/
def softReset (s : State) : State :=
  let r := afterWdr (vcmReturn (stopAll (holdClass s)))
  let r := { r with
    mem := softMem s.mem
    cores := { slots := s.cores.slots }
    filt := { banks := s.filt.banks }
    sec := { r.sec with verified := s.sec.verified && s.deferred.job != some .imageExec }
    host := { accepted := s.host.accepted }
    clk := { b := { s.clk.b with cfg := 0x800C0506, testing := false, lockBy := 0 } }
    power := { r.power with
      st := .run, boot := .run, fwVersion := s.power.fwVersion, onRc := s.power.onRc, padsHeld := s.power.padsHeld, tdmHeld := s.power.tdmHeld
      restarting := true, cause := r.power.cause ||| 0b010000 } }
  let t := tbSwitchAt (sn22 s) r
  if s.clk.b.st = .off ∧ s.power.xrefOk then startPllb false t else t

/-- RESET.SOFT as a command. It has no response (R392): the row leaves none. -/
def bodyResetSoft (_a : CmdArgs) (s : State) : Ans := yes (softReset s)

def rowResetSoft : CmdRow := { op := 0x02, pC := fun _ => true, count := countIs 0, body := bodyResetSoft }

/-- FIRMWARE_READY (R392): the restarted firmware executes commands; BOOT_DONE. -/
def firmwareReady (s : State) : State :=
  if s.power.restarting then raiseIrq irqBootDone { s with power := { s.power with restarting := false } } else s

/-- Entry to SAFE mode: its cause, a fault-log entry with the status that caused it, and BOOT_DONE. -/
def enterSafe (cause : Nat) (c : Status) (s : State) : State :=
  let s1 := { s with power := { s.power with boot := .safe, safeCause := BitVec.ofNat 3 cause } }
  raiseIrq irqBootDone (logFault 0x0D 3 (toWord (3 + cause * 256)) (toWord c.code) s1)

/-- Both copies of word `w` of OTP fail their ECC; the redundant one lies at offset 0x800 + `w` (R398). -/
def otpLost (s : State) (w : Nat) : Bool := s.sec.otpBad.contains w && s.sec.otpBad.contains (0x800 + w)

/-- So do those of some word. -/
def otpAnyLost (s : State) : Bool := s.sec.otpBad.any (otpLost s)

/-- The boot ROM starts: it waits for an image from the host, or reads the flash (R411, R488). A boot ROM or an OTP word that
fails its check puts the device in SAFE mode, at every boot (R412, Table 10.13). -/
def bootRom (s : State) : State :=
  let p := s.power
  let s1 := { s with power := { p with
      boot := if p.straps.flash then .verify else .romWait, bootPrev := .romWait, onRc := true, fwVersion := 0, safeCause := 0 } }
  if p.straps.bromOk = false then enterSafe 2 .fault s1
  else if p.straps.otpOk = false ∨ otpAnyLost s then enterSafe 3 .fault s1
  else s1

/-- A watchdog reset (R390): the boot ROM runs with REMAP 0, as at power-up. -/
def watchdogReset (s : State) : State :=
  let r := afterWdr (vcmReturn (resetOutputs s))
  let r := bootRom { r with power := { r.power with
    st := .run, cause := r.power.cause ||| 0b001000, wdrCount := min 255 (r.power.wdrCount + 1) } }
  tbSwitchAt (sn22 s) (if r.power.xrefOk then startPllb false r else r)

/-- A PIN reset, by nRESET or a brown-out: the device waits for its boot start (R467), which the mute ramp precedes (Table
11.10). -/
def pinResetTo (brown : Bool) (s : State) : State :=
  let r := afterReset (if brown then clampAll s else resetOutputs s)
  let p := r.power
  tbSwitchAt (sn22 s) (resetRest { r with
    jack := { r.jack with micbias := 0 }
    pins := {}
    power := { p with st := .reset, xrefOk := false, straps := (({} : Power)).straps
                      cause := p.cause ||| (if brown then 0b000100 else 0b000010) } })

/-- PIN_RESET (R390). -/
def pinReset (s : State) : State := if vaonOn s then pinResetTo false s else s

/-- BROWN_OUT (R390, Table 14.8). -/
def brownOut (s : State) : State := if vaonOn s then pinResetTo true s else s

/-- POWER_ON_RESET (R390, R397): everything but OTP takes its reset value. -/
def powerOnReset (s : State) : State := { pending := s.pending, free := s.free, sec := { otp := s.sec.otp, otpBad := s.sec.otpBad } }

/-- VAON_LOSS (Table 14.8): OFF; AON and RET are lost, the clamps release and the outputs are high impedance. -/
def vaonLoss (s : State) : State :=
  { powerOnReset s with
    power := { st := .off, cause := 0 }
    outs := { dacs := (List.range 34).map (fun d => (d, { clamp := false })) } }

/-! ## RESET.CORE (R391) -/

/-- State memories and delay regions, of bound and of unbound cores and slots, take value 0 with tag 0 (Table 11.13). -/
def clearCores (s : State) : State :=
  let m := (List.range 4).foldl (fun m n => m.clearRange (aPram n + 0x10000) 16384) s.mem
  { s with mem := m.clearRange aCore (512 * 1024) }

/-- A bound core restarts as at a binding change (R103); its counters are lost. -/
def coreRestart (s : State) (n : Nat) : State := if ((active s).bind n).en then bindChange n s else s

/-- The output-lane detectors and meters are lost; those of the inputs stay (Table 11.13). -/
def loseLaneDets (s : State) : State :=
  { s with filt := { s.filt with
      dets := s.filt.dets.filter (fun x => decide (x.1 < 32)), meters := s.filt.meters.filter (fun x => decide (x.1 < 32)) } }

/-- The flows restart and the DACs they feed fade by R271. -/
def flowRestart (s : State) : State :=
  (runningFlows s (fun _ q => q.kind == 2)).foldl (fun s f => starveStart ((active s).flow f).ep s) (restartFlows s)

/-- RESET.CORE (R391): it interrupts what the cores and FDMA have in flight (Table 10.9). -/
def bodyResetCore (_a : CmdArgs) (s : State) : Ans :=
  checks s [((List.range 8).any (fun k => (tget {} s.seals.seals k).isOpen), .refused)]
    (let s := cutShort ((List.range 4).flatMap (fun n => bothWays n 6) ++ bothWays 6 6 ++ [⟨6, 8, false⟩, ⟨6, 9, false⟩]) s
     let s1 := if s.sets.swap.isSome then withdrawSwap .refused s else s
     let s2 := loseCounts (clearCores <| onCores coreRestart <| (flowRestart (mtxReset (loseLaneDets s1))))
     yes { s2 with power := { s2.power with cause := s2.power.cause ||| 0b100000 } })

def rowResetCore : CmdRow := { op := 0x03, count := countIs 0, body := bodyResetCore }

/-! ## Watchdog (R393) -/

def wdtOn (s : State) : Bool := bit s.power.wdt 31
def wdtHost (s : State) : Bool := bit s.power.wdt 30

/-- The watchdog's limit, ns. -/
def wdtLimit (s : State) : Nat := 2 ^ fld s.power.wdt 3 0 * msec

/-- The count restarts. In a sleep state it stands still and goes on at the return to RUN, where the time since commit is added
(R393). -/
def wdtKick (s : State) : State :=
  { s with power := { s.power with wdtAt := if running s then now s else s.power.commitAt } }

def bodyWdtCfg (a : CmdArgs) (s : State) : Ans :=
  let w := opnd a 0
  let k := fld w 3 0
  checks s [(resv w 0xE000000F, .unsupported), (decide (k < 4) || decide (12 < k), .range), (bit s.power.wdt 29, .refused)]
    (yes (wdtKick { s with power := { s.power with wdt := w } }))

def rowWdtCfg : CmdRow := { op := 0x05, count := countIs 1, body := bodyWdtCfg }

/-- WATCHDOG_EXPIRY (R393): the count has run its time, in RUN or during entry. -/
def watchdogExpiry (s : State) : State :=
  if wdtOn s ∧ running s ∧ wdtLimit s ≤ since s s.power.wdtAt then watchdogReset s else s

/-! ## Supply events (Table 14.8) -/

/-- HPVDD_LOCKOUT: the pumps stop, and every headphone output is clamped until ACTIVE disables and re-enables it. -/
def hpvddLockout (s : State) : State :=
  if vaonOn s then
    let s1 := (List.range 8).foldl (fun s i =>
      let d := 24 + i
      let t := clampNow d s
      if (active s).outEn d then onDac d (fun x => { x with lockout := true }) t else t) s
    { s1 with power := { s1.power with hpvdd := false }, outs := { s1.outs with pumps := [] } }
  else s

/-- HPVDD_RECOVER: HPVDD is above 1.62 V; locked-out outputs stay clamped. -/
def hpvddRecover (s : State) : State :=
  if vaonOn s then { s with power := { s.power with hpvdd := true } } else s

/-- SPKVDD_LOCKOUT: a protection pause of both speakers. -/
def spkvddLockout (s : State) : State :=
  if vaonOn s then
    let s1 := [32, 33].foldl (fun s d => onDac d (fun x => { x with pause := x.pause ||| 0b100 }) (clampNow d s)) s
    { s1 with power := { s1.power with spkvdd := false } }
  else s

/-- SPKVDD_RECOVER: the speakers run Table 8.3. -/
def spkvddRecover (s : State) : State :=
  if vaonOn s ∧ s.power.spkvdd = false then
    [32, 33].foldl (fun s d => startEvent d (onDac d (fun x => { x with pause := x.pause &&& 0b011 }) s))
      { s with power := { s.power with spkvdd := true } }
  else s

/-- With the loss of IOVDD_A (`rail`) slave TDM ports and receivers see stopped endpoints, and masters run on (Tables 7.9, 14.8). A sleep
entry or SAFE mode stops every port and keeps the counters (Table 11.13). -/
def portsStop (rail : Bool) (s : State) : State :=
  let s1 := (List.range 4).foldl (fun s p =>
    let t := tdm s p
    if tdmEn t.cfg ∧ ¬(rail ∧ tdmMaster t.cfg) then
      sourceStops p (stopEndpoint (fun _ q => tdmFlow p q) (onTdm p (fun t => { t with st := .stopped, good := 0, rate := 15 }) s))
    else s) s
  let s2 := (List.range 2).foldl (fun s r => aesLoss rail r s) s1
  if rail then s2 else stopEndpoint (fun _ q => q.kind == 5) { s2 with ports := { s2.ports with pdmRun := [] } }

/-- What runs stops at an entry to SAFE mode from RUN: the outputs are clamped, and channels, cores, flows and ports stop, so PLLA may lose its
reference (R324); a pending swap waits for its 100 ms (Table 2.10), and a write that waited for a boundary never comes into use (R412; log
entry 192). -/
def safeStop (s : State) : State :=
  let s1 := onCores coreSleep s
  refFollow s (portsStop false (clampAll (tapsFollow s { s1 with
    sets := { s1.sets with placed := [] }
    flows := tmap {} (fun r => { seq := r.seq, slips := r.slips }) s1.flows
    fe := { s1.fe with chans := [] }
    mtx := {} })))

/-- Entry to SAFE mode while firmware runs (Table 10.13). -/
def safeFromRun (cause : Nat) (s : State) : State := enterSafe cause .fault (safeStop s)

/-- Uncorrectable words of OTP come to light, each by its offset in the array: one copy lost, the word is read from the other; with both
lost, the device enters SAFE mode (Tables 10.11, 10.13). The model does so where the loss comes to light, and OTP stays so for good
(DESIGN CHOICE, log entry 202). -/
def otpFound (ws : List Nat) (s : State) : State :=
  let s1 := { s with sec := { s.sec with otpBad := s.sec.otpBad ++ ws.filter (fun w => !s.sec.otpBad.contains w) } }
  if otpAnyLost s1 ∧ otpAnyLost s = false then safeFromRun 3 s1 else s1

/-- The words of OTP among the errors that come to light. -/
def otpWords (us : List Upset) : List Nat := us.filterMap (fun u => match u with | .otp w => some w | _ => none)

/-- What a patrol pass brings to light: the words of memories, the errors of other places, and those of OTP (log entry 16). -/
def patrolFinds (corrected uncorrectable : List Nat) (upsets : List Upset) (s : State) : State :=
  if patrolOn s then otpFound (otpWords upsets) (patrolPass corrected uncorrectable upsets s) else s

/-- IOVDD_A_LOSS (Table 14.8). -/
def iovddALoss (s : State) : State :=
  if vaonOn s ∧ s.power.iovddA then refFollow s { (portsStop true s) with power := { s.power with iovddA := false } } else s

/-- The ports acquire again: slaves and receivers look for their clocks, masters start at their next frame boundary. -/
def portsReturn (s : State) : State :=
  let s1 := (List.range 4).foldl (fun s p =>
    let t := tdm s p
    if tdmEn t.cfg ∧ t.st ≠ .running then
      onTdm p (fun t => { t with st := if tdmMaster t.cfg then t.st else .acquiring, good := 0 }) s else s) s
  (List.range 2).foldl (fun s r =>
    if bit (aesCfg s r) 31 ∧ ((aesRx s r).st = .unlocked ∨ (aesRx s r).st = .off) then
      onAes r (fun x => { x with st := .acquiring }) s else s) s1

/-- IOVDD_A_RETURN (Table 14.8): the rail is back within range. -/
def iovddAReturn (s : State) : State :=
  if vaonOn s ∧ s.power.iovddA = false then
    let s1 := { s with power := { s.power with iovddA := true } }
    if s.power.padsHeld then s1 else portsReturn s1
  else s

/-- IOVDD_H_LOSS and IOVDD_H_RETURN (Table 14.8): the host port ignores its pins while the rail is out of range. -/
def iovddH (on : Bool) (s : State) : State :=
  if vaonOn s then { s with power := { s.power with iovddH := on } } else s

end Sys2Proof.Machine
end

