-- ==== Sys2Proof/Machine/Keys.lean ====
section
/-! DEFINITION. OTP and lifecycle, keys derived from SECRET, certificates, and the random values of the DRBG
(R398–R406). -/

namespace Sys2Proof.Machine

/-- The bytes of DEVICE_ID. -/
def deviceIdBytes : List Byte := wordsBytes [Config.deviceId.1, Config.deviceId.2]

/-- A private key derived under a label (R403). -/
def deriveKey (label : String) : Nat := bytesNat (kdf Config.secret.toList label deviceIdBytes 384) % (pN - 1) + 1

def attestKey : Nat := deriveKey "PK-ATTEST"
def encryptKey : Nat := deriveKey "PK-ENCRYPT"

/-- Keys are derived in every lifecycle state but RMA (Table 12.2, R402). -/
def keysOn (s : State) : Bool := s.sec.otp.lifecycle != .rma

/-! ## The CTR_DRBG with AES-256 and a derivation function (R406, SP 800-90A; log entry 190) -/

/-- `n` blocks of key stream from counter block `v`, which advances before each, and the last counter block. -/
def drbgBlocks (ks : List (List Byte)) : Nat → List Byte → List Byte × List Byte
  | 0, v => ([], v)
  | n + 1, v =>
    let v1 := natBytes 16 ((bytesNat v + 1) % 2 ^ 128)
    let r := drbgBlocks ks n v1
    (aesBlock ks v1 ++ r.1, r.2)

/-- CTR_DRBG_Update with 48 bytes of provided data. -/
def drbgUpdate (data : List Byte) (d : Drbg) : Drbg :=
  let t := xorBytes (drbgBlocks (roundKeys d.key) 3 d.v).1 data
  { d with key := t.take 32, v := t.drop 32 }

/-- BCC: the chained encryption of blocks. -/
def drbgBcc (ks : List (List Byte)) (bs : List (List Byte)) : List Byte :=
  bs.foldl (fun c b => aesBlock ks (xorBytes c b)) (List.replicate 16 0)

/-- Block_Cipher_df to 48 bytes. -/
def drbgDf (input : List Byte) : List Byte :=
  let x := natBytes 4 input.length ++ natBytes 4 48 ++ input ++ [0x80]
  let bs := gcmBlocks ((x.length + 15) / 16) x
  let ks := roundKeys ((List.range 32).map (BitVec.ofNat 8))
  let t := (List.range 3).flatMap (fun i => drbgBcc ks ((natBytes 4 i ++ List.replicate 12 0) :: bs))
  let kx := roundKeys (t.take 32)
  let x1 := aesBlock kx (t.drop 32)
  let x2 := aesBlock kx x1
  x1 ++ x2 ++ aesBlock kx x2

/-- The entropy source seeds the DRBG: what it gives is free (log entry 2). The first seeding takes a nonce too. -/
def drbgSeed (s : State) : State :=
  let d := s.sec.drbg
  let (ws, s1) := drawWords (if d.seeded then 8 else 12) s
  let d0 : Drbg := if d.seeded then d else { key := List.replicate 32 0, v := List.replicate 16 0 }
  { s1 with sec := { s1.sec with drbg := { drbgUpdate (drbgDf (wordsBytes ws)) d0 with seeded := true, count := 0 } } }

/-- One request of `n` words to the DRBG (R406): it is seeded at each boot, and again after every 2^16 requests. Of a stopped one nothing
is drawn: what a CLOSE record is signed with then no rule states (free, log entry 2). -/
def drbgWords (n : Nat) (s : State) : List Word × State :=
  if s.sec.drbgFail then drawWords n s
  else
  let s1 := if s.sec.drbg.seeded = false ∨ 65536 ≤ s.sec.drbg.count then drbgSeed s else s
  let d := s1.sec.drbg
  let r := drbgBlocks (roundKeys d.key) ((n + 3) / 4) d.v
  let d1 := { drbgUpdate (List.replicate 48 0) { d with v := r.2 } with count := d.count + 1 }
  ((List.range n).map (fun i => (bytesWords r.1).getD i 0), { s1 with sec := { s1.sec with drbg := d1 } })

/-- A random number of the DRBG in 1 … n − 1 (R406). -/
def drawScalar (s : State) : Nat × State :=
  let (ws, s1) := drbgWords 12 s
  (bytesNat (wordsBytes ws) % (pN - 1) + 1, s1)

/-- A signature by the attestation key over the SHA-256 of bytes. -/
def attestSign (m : List Byte) (s : State) : List Word × State :=
  let (k, s1) := drawScalar s
  (ecdsaSign attestKey (sha256 m) k, s1)

/-- Root-key slot `n` is programmed and unrevoked. -/
def slotValid (s : State) (n : Nat) : Bool := s.sec.otp.keySet.getLsbD n && !s.sec.otp.keyRevoked.getLsbD n

/-- The hash of a root-key slot. -/
def slotHash (s : State) (n : Nat) : List Word := tget [] s.sec.otp.rootkeys n

/-- The key's SHA-256 equals slot `n`, which is valid. -/
def keyInSlot (s : State) (key : List Word) (n : Nat) : Bool :=
  slotValid s n && sha256Words (wordsBytes key) == slotHash s n

/-- The key's SHA-256 equals some valid slot. -/
def keyTrusted (s : State) (key : List Word) : Bool := (List.range 4).any (keyInSlot s key)

/-- SIG of a certificate verifies under its ISSUER_KEY (R404). -/
def certSigOk (c : List Word) : Bool :=
  ecdsaOk ((c.drop 36).take 16) (sha256 (wordsBytes (c.take 52))) ((c.drop 52).take 16)

/-- A certificate is valid (R404). -/
def certOk (s : State) (c : List Word) : Bool := keyTrusted s ((c.drop 36).take 16) && certSigOk c

/-- The device's certificate words W2–W35 as R405 returns them. -/
def deviceKeys : List Word := [Config.deviceId.1, Config.deviceId.2] ++ publicKey attestKey ++ publicKey encryptKey

/-! ## What SEC reads (R366, R398, Tables 10.11, 10.13) -/

/-- A command that SEC carries out for itself. A beat at KEYS that fails ends it with FAULT, without effect. -/
def secAns (x : Ans) (s : State) : Ans :=
  if x.st ≠ .ok then x
  else match beatLost 7 11 false aKeys s with
    | none => x
    | some t => no .fault t

/-! ## OTP.WRITE (R400, Table 12.3) -/

/-- OTP.WRITE items the lifecycle state permits (Table 12.2). -/
def otpItemOk (s : State) (item : Nat) : Bool :=
  match s.sec.otp.lifecycle with
  | .blank => item == 1
  | .maker => true
  | .field => item == 5
  | .rma => false

/-- Number of operands of an item (Table 12.3). -/
def otpCount (item : Nat) : Option Nat :=
  match item with | 1 => some 9 | 2 => some 1 | 3 => some 2 | 4 => some 69 | 5 => some 2 | _ => none

/-- The item as the command programs it. -/
def otpProgram (item index : Nat) (ws : List Word) (o : Otp) : Otp :=
  match item with
  | 1 => { o with rootkeys := tput [] o.rootkeys index ws, keySet := o.keySet ||| (1#4 <<< index) }
  | 2 => { o with policy := true }
  | 3 => { o with xrefFreq := (ws.getD 0 0).toNat }
  | 4 => { o with cert := ws, certSet := true }
  | _ => { o with arb := tmod 0 o.arb index (fun v => max v (min 64 (ws.getD 0 0).toNat)) }

/-- The word offset of an item in OTP (Table 12.1). -/
def otpOffset (item index : Nat) : Nat :=
  match item with | 1 => 0x10 + 8 * index | 2 => 0x31 | 3 => 0x32 | 4 => 0x40 | 5 => 0x38 + 2 * index | _ => 0x100

/-- The certificate may be programmed: it verifies with TYPE DEVICE, this DEVICE_ID and this device's keys (Table 12.3). -/
def certMine (s : State) (c : List Word) : Bool :=
  certOk s c && c.getD 0 0 == 0x504B4345 && c.getD 1 0 == 0x02000000 && (c.drop 2).take 34 == deviceKeys

/-- OTP is programmed and read back; a failure leaves the item in an unknown state and an entry: unprogrammed, or `u` of `n`
words, all of it free (log entries 2, 155). -/
def otpCommit (item index n : Nat) (f : Otp → Otp) (u : List Word → Otp → Otp) (res : Otp → List Word) (s : State) : Ans :=
  let (ok, s1) := drawIn 0 1 s
  if ok = 1 then
    let o := f s1.sec.otp
    yes { s1 with sec := { s1.sec with otp := o } } (res o)
  else
    let (b, s2) := drawIn 0 1 s1
    let (v, s3) := drawWords n s2
    let s4 := if b = 1 then { s3 with sec := { s3.sec with otp := u v s3.sec.otp } } else s3
    no .fault (logFault 0x0D (4 + otpOffset item index) 2 (toWord (otpOffset item index)) s4)

def bodyOtpWrite (a : CmdArgs) (s : State) : Ans :=
  let w := opnd a 0
  let item := fld w 7 0
  let ix := fld w 9 8
  let ws := a.ops.drop 1
  let v := ws.getD 0 0
  let o := s.sec.otp
  checks s
    [ (resv w 0x3FF || (item == 4 && resv (ws.getD 1 0) 0xFF000007), .unsupported),
      ((otpCount item).isNone || (item == 3 && (decide (v.toNat < 8000000) || decide (52000000 < v.toNat)))
        || (item == 5 && decide (64 < v.toNat)), .range),
      (!otpItemOk s item, .lifecycle),
      ((item == 1 && o.keySet.getLsbD ix) || (item == 3 && o.xrefFreq != 0)
        || (item == 4 && (o.certSet || !certMine s ws)), .refused) ]
    (otpCommit item ix ws.length (otpProgram item ix ws) (otpProgram item ix) (fun o => if item = 5 then [toWord (tget 0 o.arb ix)] else []) s)

def rowOtpWrite : CmdRow :=
  { op := 0xB2, pK := true, fuse := true
    count := fun a => match otpCount (fld (opnd a 0) 7 0) with | some n => decide (a.ops.length = n) | none => decide (1 ≤ a.ops.length)
    maxRes := fun a _ => if fld (opnd a 0) 7 0 = 5 then 1 else 0, body := fun a s => secAns (bodyOtpWrite a s) s }

/-! ## LIFECYCLE, KEY.REVOKE and CERT.READ (R401, R402, R405) -/

def Lifecycle.rank : Lifecycle → Nat
  | .blank => 0 | .maker => 1 | .field => 3 | .rma => 7

/-- The coded states of TARGET. -/
def lifecycleOf (n : Nat) : Option Lifecycle :=
  match n with | 0 => some .blank | 1 => some .maker | 3 => some .field | 7 => some .rma | _ => none

/-- Forward transitions (R399): BLANK → MAKER → FIELD → RMA, and MAKER → RMA. -/
def lifecycleForward (o n : Lifecycle) : Bool :=
  match o, n with
  | .blank, .maker | .maker, .field | .field, .rma | .maker, .rma => true
  | _, _ => false

/-- A seal is open. -/
def anySeal (s : State) : Bool := (List.range 8).any (fun k => (tget {} s.seals.seals k).isOpen)

def bodyLifecycle (a : CmdArgs) (s : State) : Ans :=
  let w := opnd a 0
  checks s [(resv w 7, .unsupported)]
    (match lifecycleOf w.toNat with
     | none => no .lifecycle s
     | some t =>
       checks s
         [ (!lifecycleForward s.sec.otp.lifecycle t, .lifecycle),
           ((t == .maker && s.sec.otp.keySet == 0) || (t == .field && !s.sec.otp.certSet) || (t == .rma && anySeal s), .refused) ]
         (yes { s with sec := { s.sec with otp := { s.sec.otp with lifecycle := t } } }))

def rowLifecycle : CmdRow := { op := 0xB3, pK := true, fuse := true, count := countIs 1, body := fun a s => secAns (bodyLifecycle a s) s }

def bodyKeyRevoke (a : CmdArgs) (s : State) : Ans :=
  let w := opnd a 0
  let n := w.toNat
  let others := (List.range 4).any (fun k => k != n && slotValid s k)
  checks s
    [ (resv w 3, .unsupported),
      (s.sec.otp.lifecycle == .blank || s.sec.otp.lifecycle == .rma, .lifecycle),
      (!s.sec.otp.keySet.getLsbD n || !others, .refused) ]
    (yes { s with sec := { s.sec with otp := { s.sec.otp with keyRevoked := s.sec.otp.keyRevoked ||| (1#4 <<< n) } } })

def rowKeyRevoke : CmdRow := { op := 0xB4, pK := true, fuse := true, count := countIs 1, body := fun a s => secAns (bodyKeyRevoke a s) s }

def bodyCertRead (a : CmdArgs) (s : State) : Ans :=
  let w := opnd a 0
  let part1 := bit w 0
  checks s
    [ (resv w 1, .unsupported), (!part1 && !keysOn s, .lifecycle), (part1 && !s.sec.otp.certSet, .refused) ]
    (yes s (if part1 then s.sec.otp.cert else deviceKeys))

def rowCertRead : CmdRow :=
  { op := 0xC3, count := countIs 1, maxRes := fun a _ => if bit (opnd a 0) 0 then 68 else 34
    body := fun a s => secAns (bodyCertRead a s) s }

end Sys2Proof.Machine
end

