-- ==== Sys2Proof/Machine/Calibration.lean ====
section
/-! DEFINITION. System calibration (R145–R161): CAL.Z, CAL.F and their completion, and the export, import and factory
commands. -/

namespace Sys2Proof.Machine

/-! ## Acceptance (Table 4.11) -/

/-- Full-scale level of a channel at its mode and gain, 0.01 dBu (R122). -/
def fullLevel (s : State) (ch : Nat) : Int := fullScale ((active s).chMode ch) - 100 * (gainNow s ch : Int)

/-- A mask that names no channel, or the odd channel of an INTERLEAVE or STACK pair. -/
def maskBad (s : State) (m : Word) : Bool :=
  m == 0 || (bitsOf m).any (fun ch => ch % 2 == 1 && (active s).pairMode ch != 0)

/-- Named channels that are not enabled, or stopped. -/
def notRunning (s : State) (m : Word) : Word :=
  wordOf ((bitsOf m).filter (fun ch => !(active s).chEn ch || !(chan s ch).live))

/-- The BUSY conditions of Table 4.11 but the deferred one. -/
def calBusy (s : State) : Bool := s.sets.swap.isSome || !s.cal.staging.isEmpty

/-- A measurement is accepted. -/
def calStart (op : Nat) (m : Word) (j : Job) (s : State) : Ans :=
  let r := notRunning s m
  if r ≠ 0 then ⟨.refused, s, [r]⟩ else yes (startJob op j s)

def bodyCalZ (a : CmdArgs) (s : State) : Ans :=
  let m := opnd a 0
  checks s [(maskBad s m, .range), (calBusy s, .busy)] (calStart 0x25 m (.calZ m) s)

def rowCalZ : CmdRow := { op := 0x25, pD := fun _ => true, count := countIs 1, maxRes := fun _ _ => 1, body := bodyCalZ }

def bodyCalF (a : CmdArgs) (s : State) : Ans :=
  let m := opnd a 0
  let l := sfld (opnd a 1) 15 0
  let off (ch : Nat) : Bool := decide (l < fullLevel s ch - 2000) || decide (fullLevel s ch - 100 < l)
  checks s
    [(resv (opnd a 1) 0xFFFF, .unsupported), (maskBad s m || (bitsOf m).any off, .range), (calBusy s, .busy)]
    (calStart 0x26 m (.calF m l) s)

def rowCalF : CmdRow := { op := 0x26, pD := fun _ => true, count := countIs 2, maxRes := fun _ _ => 1, body := bodyCalF }

/-! ## Completion (R146–R148) -/

/-- The measurement of a channel. -/
def measOf (l : List CalMeas) (ch : Nat) : Option CalMeas := l.find? (fun m => m.ch == ch)

/-- √(num/den) of the sums' variance, rounded to nearest to a Q1.31 code before GAIN and G_RATIO are formed from it (DESIGN CHOICE, log
entry 183). -/
def CalSum.rms (a : CalSum) : Nat := sqrtRatio (a.n * a.sq - a.sum * a.sum).toNat (a.n * a.n)

/-- A measurement with its means and rms levels taken from what the FIR gave (R146, R147, R174); the report stands where it gave
nothing (log entry 159). -/
def measSums (s : State) (x : CalMeas) : CalMeas :=
  let a := tget {} s.deferred.sums (2 * x.ch)
  let b := tget {} s.deferred.sums (2 * x.ch + 1)
  if a.n = 0 then x
  else if b.n = 0 then { x with mean := roundDiv a.sum a.n, rms := a.rms }
  else { x with
    mean := roundDiv a.sum a.n, rms := a.rms, rmsOdd := b.rms
    dMean := roundDiv (b.sum * a.n - a.sum * b.n) (a.n * b.n) }

/-- Measurements of all named channels, in channel order; none if one is missing. -/
def measures (s : State) (m : Word) (l : List CalMeas) : Option (List CalMeas) :=
  ((bitsOf m).mapM (measOf l)).map (·.map (measSums s))

/-- The channel is the even one of an INTERLEAVE or STACK pair. -/
def paired (s : State) (ch : Nat) : Bool := (active s).pairMode ch != 0

/-- The gain range of a channel. -/
def rangeNow (s : State) (ch : Nat) : Nat := rangeOf ((active s).chMode ch) (gainNow s ch)

/-- The length of CAL.F's measurement: 250 ms, or 1.5 s when a named channel is an INTERLEAVE pair (R147). -/
def calFLength (s : State) (m : Word) : Nat :=
  if (bitsOf m).any (fun ch => (active s).pairMode ch == 1) then 1500 * msec else 250 * msec

/-- The measurement in progress has begun on every named channel (R158) and has run for `t` ns since. -/
def measured (s : State) (t : Nat) : Bool :=
  decide (calMask s &&& ~~~s.deferred.meas = 0) && decide (t ≤ since s s.deferred.since)

/-- CAL.Z's RANGE row of Table 4.8. -/
def zRange (s : State) (x : CalMeas) : Bool :=
  decide (0x0147AE14 < x.mean.natAbs) || (paired s x.ch && decide (0x0147AE14 < x.dMean.natAbs)) || decide (-9000 < x.noise)

/-- GAIN of a measurement: E_e / E_m in Q2.30 (R147). -/
def calGain (s : State) (level : Int) (x : CalMeas) : Nat :=
  (roundDiv (fxPow10 (level - fullLevel s x.ch) 2000 * 2 ^ 61) (isqrt (2 ^ 257) * x.rms)).toNat

/-- G_RATIO: the even to the odd rms in Q2.30. -/
def calRatio (x : CalMeas) : Nat := (roundDiv ((x.rms : Int) * 2 ^ 30) x.rmsOdd).toNat

/-- A Q2.30 factor lies outside −1.00 dB to +1.00 dB. -/
def gainOut (g : Nat) : Bool := decide (g < gainOf 30 (-100)) || decide (gainOf 30 100 < g)

/-- CAL.F's RANGE rows of Table 4.8. -/
def fRange (s : State) (level : Int) (x : CalMeas) : Bool :=
  decide (x.freqMilliHz < 990000) || decide (1010000 < x.freqMilliHz)
    || x.rms == 0 || gainOut (calGain s level x)
    || (paired s x.ch && (x.rmsOdd == 0 || gainOut (calRatio x)))
    || ((active s).pairMode x.ch == 1 && decide (2000000 < x.skewFs.natAbs))

/-- CAL_TIME. -/
def calTime (s : State) : Word := toWord (s.tb.count / 2 ^ 30)

/-- Write a channel record of the channel's present range. -/
def onChRec (ch : Nat) (f : Quad → Quad) (s : State) : State :=
  { s with cal := { s.cal with ch := tmod dChRec s.cal.ch (8 * ch + rangeNow s ch) f } }

/-- Write a pair record of the pair's present range. -/
def onPairRec (ch : Nat) (f : Quad → Quad) (s : State) : State :=
  { s with cal := { s.cal with pair := tmod dPairRec s.cal.pair (8 * (ch / 2) + rangeNow s ch) f } }

/-- D_OFFSET of a pair, from its measurement. SOURCE_Z reads 0x1 after CAL.F too, as Table 4.10 codes no other measurement (DESIGN
CHOICE, log entry 182). -/
def writeDOffset (s : State) (x : CalMeas) : State :=
  if paired s x.ch then
    onPairRec x.ch (fun q => { q with w0 := intWord (satQ31 x.dMean), w3 := setFld q.w3 31 28 1 }) s
  else s

/-- CAL.Z writes OFFSET, NOISE and D_OFFSET. -/
def zWrite (s : State) (x : CalMeas) : State :=
  let s1 := onChRec x.ch (fun q => { q with
    w0 := intWord (satQ31 x.mean)
    w2 := setFld (setFld q.w2 31 28 1) 15 0 (x.noise % 65536).toNat
    w3 := calTime s }) s
  writeDOffset s1 x

/-- CAL.F writes GAIN, G_RATIO, SKEW and D_OFFSET. -/
def fWrite (level : Int) (s : State) (x : CalMeas) : State :=
  let g := calGain s level x
  let s1 := onChRec x.ch (fun q => { q with w1 := toWord g, w2 := setFld q.w2 27 24 1, w3 := calTime s }) s
  if paired s x.ch then
    onPairRec x.ch (fun q => { q with
      w1 := toWord (calRatio x)
      w2 := if (active s).pairMode x.ch = 1 then setFld q.w2 23 0 (x.skewFs % 2 ^ 24).toNat else q.w2
      w3 := setFld q.w3 27 24 1 }) (writeDOffset s1 x)
  else s1

/-- NOISE of a record as a signed number; none when it was not measured. -/
def noiseOf (q : Quad) : Option Int := if fld q.w2 15 0 = 0x8000 then none else some (sfld q.w2 15 0)

/-- MN (Table 13.7): the largest rise of a record's NOISE over the factory copy's. -/
def noiseMargin (s : State) : Nat :=
  let rises := s.cal.ch.filterMap (fun x =>
    match noiseOf x.2, noiseOf (tget dChRec s.sec.otp.facCh x.1) with
    | some a, some b => some (a - b)
    | _, _ => none)
  match rises with
  | [] => 255
  | r :: rs => pctMargin (600 - rs.foldl max r) 600

/-- The calibration ends: Table 4.8 in its order, the records on OK, the moves of R152. A sample the model itself marked
during the measurement counts like one the report of the measurement names. The final status comes at the measurement's end, before
the 64 samples of the moves have passed (DESIGN CHOICE, log entry 181). -/
def calEnd (l : List CalMeas) (bad : CalMeas → Bool) (level : CalMeas → Word) (write : State → CalMeas → State) (s : State) : State :=
  if s.deferred.marked ∨ l.any (·.marked) then finishJob .refused s
  else
    let r := l.filter bad
    if r.isEmpty = false then
      finishJob .range (r.foldl (fun s x => logFault 0x09 x.ch (toWord x.ch) (level x) s) s)
    else if l.any (·.memErr) then finishJob .fault s
    else finishJob .ok (moveAll s (l.foldl write s))

/-- CAL_Z_COMPLETE, 500 ms after the measurement began (R146, R148). -/
def calZComplete (meas : List CalMeas) (s : State) : State :=
  match s.deferred.job with
  | some (.calZ m) =>
    match (if measured s (500 * msec) then measures s m meas else none) with
    | some l =>
      let s1 := calEnd l (zRange s) (fun x => intWord (satQ31 x.mean)) zWrite s
      if s1.deferred.status = 0 ∧ s1.sec.otp.factorySet then { s1 with margin := { s1.margin with mn := noiseMargin s1 } }
      else s1
    | none => s
  | _ => s

/-- CAL_F_COMPLETE, at the end of the measurement's length (R147, R148). -/
def calFComplete (meas : List CalMeas) (s : State) : State :=
  match s.deferred.job with
  | some (.calF m level) =>
    match (if measured s (calFLength s m) then measures s m meas else none) with
    | some l => calEnd l (fRange s level) (fun x => toWord x.rms) (fWrite level) s
    | none => s
  | _ => s

/-- CAL.Z or CAL.F runs. -/
def calRuns (s : State) : Bool := calMask s != 0

/-! ## Export and import (R159, R160) -/

/-- Words of a part (Table 4.12). -/
def partWords (n : Nat) : Option Nat := if n < 8 then some 128 else if n = 8 then some 512 else if n = 9 then some 32 else none

def Quad.words (q : Quad) : List Word := [q.w0, q.w1, q.w2, q.w3]

/-- Words of a part of records. -/
def partOf (ch pair : Tab Quad) (n : Nat) : List Word :=
  if n < 8 then (List.range 32).flatMap (fun c => (tget dChRec ch (8 * c + n)).words)
  else (List.range 128).flatMap (fun k => (tget dPairRec pair k).words)

/-- The words of parts 0 to 8 in order. -/
def allParts (ch pair : Tab Quad) : List Word := (List.range 9).flatMap (partOf ch pair)

/-- The header before its signature: W0–W11. -/
def exportHead (counter : Nat) (ch pair : Tab Quad) : List Word :=
  [0x5043414C, 1, toWord counter, 0x000000A1] ++ sha256Words (wordsBytes (allParts ch pair))

/-- PART 0: the snapshot, the counter and the signed header. -/
def takeSnapshot (s : State) : State :=
  let n := s.cal.exports + 1
  let h := exportHead n s.cal.ch s.cal.pair
  let (sig, s1) := attestSign (wordsBytes h) s
  { s1 with cal := { s1.cal with exports := n, snapshot := some ⟨s.cal.ch, s.cal.pair, h ++ sig ++ [0, 0, 0, 0]⟩ } }

def bodyCalExport (a : CmdArgs) (s : State) : Ans :=
  let w := opnd a 0
  let n := w.toNat
  checks s
    [ (resv w 0xF, .unsupported), (decide (9 < n), .range), (n == 0 && !keysOn s, .lifecycle),
      (n != 0 && s.cal.snapshot.isNone, .refused), (n == 0 && s.sec.drbgFail, .fault) ]
    (let s1 := if n = 0 then takeSnapshot s else s
     match s1.cal.snapshot with
     | some k => yes s1 (if n = 9 then k.header else partOf k.ch k.pair n)
     | none => yes s1)

def rowCalExport : CmdRow :=
  { op := 0x27, count := countIs 1, maxRes := fun a _ => (partWords (fld (opnd a 0) 3 0)).getD 0
    body := fun a s => retOk s (fun k => opnd a 0 == 0 && decide (k < 1537)) (secAns (bodyCalExport a s) s) }

/-- A table of records from words: entry `k` is given by `f k`. -/
def recordTab (d : Quad) (n : Nat) (f : Nat → List Word) : Tab Quad :=
  (List.range n).foldl (fun t k =>
    match f k with
    | [a, b, c, e] => tput d t k ⟨a, b, c, e⟩
    | _ => t) []

/-- SOURCE fields become 3 wherever they were non-zero (R160). -/
def importCh (q : Quad) : Quad :=
  let z := if fld q.w2 31 28 = 0 then 0 else 3
  let f := if fld q.w2 27 24 = 0 then 0 else 3
  { q with w2 := setFld (setFld q.w2 31 28 z) 27 24 f }

def importPair (q : Quad) : Quad :=
  let z := if fld q.w3 31 28 = 0 then 0 else 3
  let f := if fld q.w3 27 24 = 0 then 0 else 3
  { q with w3 := setFld (setFld q.w3 31 28 z) 27 24 f }

/-- CAL_TIME of every channel record (Table 4.9: the timebase at the last write): an import and a restore write the records, a
clear of the SOURCE fields keeps it (DEDUCED, log entry 146). -/
def stampCh (t : Word) (q : Quad) : Quad := { q with w3 := t }

/-- The staged records, with their SOURCE fields and CAL_TIME as an import writes them. -/
def stagedCh (now : Word) (t : Tab (List Word)) : Tab Quad :=
  recordTab dChRec 256 (fun k =>
    match ((tget [] t (k % 8)).drop (4 * (k / 8))).take 4 with
    | [a, b, c, e] => (stampCh now (importCh ⟨a, b, c, e⟩)).words
    | _ => [])

def stagedPair (t : Tab (List Word)) : Tab Quad :=
  tmap dPairRec importPair (recordTab dPairRec 128 (fun k => ((tget [] t 8).drop (4 * k)).take 4))

/-- The staged parts that are missing. -/
def missingParts (s : State) : Word := wordOf ((List.range 9).filter (fun n => tget [] s.cal.staging n == []))

/-- PART 9 (R160). -/
def importCommit (h : List Word) (s : State) : Ans :=
  let t := s.cal.staging
  let s0 := { s with cal := { s.cal with staging := [] } }
  let m := missingParts s
  if m ≠ 0 then ⟨.refused, s0, [m]⟩
  else if h.getD 1 0 ≠ 1 then ⟨.unsupported, s0, []⟩
  else if sha256Words (wordsBytes ((List.range 9).flatMap (tget [] t))) ≠ (h.drop 4).take 8
      ∨ ecdsaOk (publicKey attestKey) (sha256 (wordsBytes (h.take 12))) ((h.drop 12).take 16) = false then
    ⟨.refused, s0, [0x80000000]⟩
  else yes (moveAll s { s0 with cal := { s0.cal with ch := stagedCh (calTime s) t, pair := stagedPair t } })

/-- A field of a record's SOURCE word has a reserved code (Table 4.9). -/
def sourceBad (w : Word) : Bool := decide (3 < fld w 31 28) || decide (3 < fld w 27 24)

/-- A staged part holds a record with a reserved bit or code (R11, Tables 4.9, 4.10). -/
def partBad (n : Nat) (ws : List Word) : Bool :=
  (List.range (ws.length / 4)).any (fun k =>
    let w (i : Nat) : Word := ws.getD (4 * k + i) 0
    if n < 8 then resv (w 2) 0xFF00FFFF || sourceBad (w 2)
    else n == 8 && (resv (w 2) 0x00FFFFFF || resv (w 3) 0xFF000000 || sourceBad (w 3)))

def bodyCalImport (a : CmdArgs) (s : State) : Ans :=
  let w := opnd a 0
  let n := w.toNat
  let ws := a.ops.drop 1
  checks s
    [ (resv w 0xF || partBad n ws, .unsupported), (decide (9 < n), .range), (n == 9 && !keysOn s, .lifecycle),
      (calRuns s, .busy) ]
    (if n = 9 then importCommit ws s
     else yes { s with cal := { s.cal with staging := tput [] s.cal.staging n ws } })

def rowCalImport : CmdRow :=
  { op := 0x28
    count := fun a => match partWords (fld (opnd a 0) 3 0) with
      | some n => decide (a.ops.length = 1 + n)
      | none => false
    maxRes := fun _ _ => 1, body := fun a s => secAns (bodyCalImport a s) s }

/-! ## CAL.FACTORY (R161) -/

/-- Every record of a table with its SOURCE fields at `v`. -/
def setSourceCh (v : Nat) (q : Quad) : Quad := { q with w2 := setFld (setFld q.w2 31 28 v) 27 24 v }
def setSourcePair (v : Nat) (q : Quad) : Quad := { q with w3 := setFld (setFld q.w3 31 28 v) 27 24 v }

/-- The four words of a record, but for its reserved bits (R11, Tables 4.9, 4.10). -/
def cleanCh (ws : List Word) : List Word := [ws.getD 0 0, ws.getD 1 0, ws.getD 2 0 &&& 0xFF00FFFF, ws.getD 3 0]
def cleanPair (ws : List Word) : List Word := [ws.getD 0 0, ws.getD 1 0, ws.getD 2 0 &&& 0x00FFFFFF, ws.getD 3 0 &&& 0xFF000000]

/-- The factory copy after a programming that failed: records of unknown words. -/
def factoryUnknown (ws : List Word) (o : Otp) : Otp :=
  { o with
    factorySet := true
    facCh := recordTab dChRec 256 (fun k => cleanCh (ws.drop (4 * k)))
    facPair := recordTab dPairRec 128 (fun k => cleanPair (ws.drop (1024 + 4 * k))) }

/-- The factory copy as field records, SOURCE 0x2 and CAL_TIME `now` in every record. -/
def restoreCal (now : Word) (o : Otp) (c : Cal) : Cal :=
  { c with
    ch := recordTab dChRec 256 (fun k => (stampCh now (setSourceCh 2 (tget dChRec o.facCh k))).words)
    pair := recordTab dPairRec 128 (fun k => (setSourcePair 2 (tget dPairRec o.facPair k)).words) }

def bodyCalFactory (a : CmdArgs) (s : State) : Ans :=
  let w := opnd a 0
  let op := w.toNat
  let fac := s.sec.otp.factorySet
  checks s
    [ (resv w 3 || op == 3, .unsupported), (op == 1 && s.sec.otp.lifecycle != .maker, .lifecycle), (calRuns s, .busy),
      ((op == 0 && !fac) || (op == 1 && fac), .refused) ]
    (if op = 0 then yes (moveAll s { s with cal := restoreCal (calTime s) s.sec.otp s.cal })
     else if op = 1 then
       otpCommit 6 0 1536 (fun o => { o with factorySet := true, facCh := s.cal.ch, facPair := s.cal.pair }) factoryUnknown
         (fun _ => []) s
     else
       yes (moveAll s { s with cal := { s.cal with
         ch := tmap dChRec (setSourceCh 0) s.cal.ch, pair := tmap dPairRec (setSourcePair 0) s.cal.pair } }))

def rowCalFactory : CmdRow := { op := 0x29, fuse := true, count := countIs 1, body := fun a s => secAns (bodyCalFactory a s) s }

end Sys2Proof.Machine
end

