-- ==== Sys2Proof/Machine/Power.lean ====
section
/-! DEFINITION. Sleep entry, the sleep states, wake, wake failure and PADS.RELEASE (R370–R389). -/

namespace Sys2Proof.Machine

/-! ## SLEEP (R373–R376) -/

/-- LAST_STATE codes (Table 11.12). -/
def stDoze : BitVec 3 := 2
def stNap : BitVec 3 := 3
def stRest : BitVec 3 := 5
def stHib : BitVec 3 := 6

/-- REST or HIBERNATE. -/
def deep (t : BitVec 3) : Bool := t == stRest || t == stHib

/-- The wake latency of NAP, 72 µs + 3,072 / f_XREF, is at most `us` (Table 11.2). -/
def napFits (s : State) (us : Nat) : Bool := decide (72 ≤ us ∧ 3072 * 1000000 ≤ (us - 72) * xrefHz s)

/-- The deepest state that meets MAX_WAKE and supports the sources of the mask (R374, Table 11.3). -/
def sleepChoice (s : State) (us : Nat) (mask : Word) : BitVec 3 :=
  if 150000 ≤ us ∧ within mask 0x23 then stHib
  else if 45000 ≤ us ∧ within mask 0x27 then stRest
  else if napFits s us then stNap
  else stDoze

/-- Some jack has EN = 1. -/
def anyJack (s : State) : Bool := (List.range 4).any (fun n => (jackWord s n).en)

/-- A start event that the VCM node's ramp precedes (Table 11.6): the clamped output runs Table 8.3 at the ramp's end. -/
def startAfterVcm (s : State) (d : Nat) : State :=
  if (active s).outEn d ∧ startHeld s d = false ∧ (dac s d).phase = .clamped then
    onDac d (fun x => { x with phase := .waitVcm, since := now s }) s
  else startEvent d s

/-- Every preparation is undone: the VCM node goes up again, over 40 ms where it had come down, and clamped outputs then start
(Table 11.6). -/
def undoEntry (agent : BitVec 4) (reason : BitVec 4) (s : State) : State :=
  let s1 := { s with power := { s.power with st := .run, entry := none, agent := agent, reason := reason } }
  finishJob .refused
    (if s1.outs.vcm = .on then startAll s1 else (List.range 34).foldl startAfterVcm (vcmReturn s1))

def bodySleep (a : CmdArgs) (s : State) : Ans :=
  if flag a 0 then
    (match s.power.entry with
     | some _ => yes (undoEntry 0 7 s) [1]
     | none => yes s [0])
  else
    let us := (opnd a 0).toNat
    let mask := opnd a 1
    let timer := (opnd a 2).toNat
    checks s
      [ (resv mask 0x3F, .unsupported),
        (s.sets.swap.isSome || s.power.onRc, .busy),
        (decide (us < 5) || mask == 0 || (bit mask 5 && timer == 0) || (mask &&& 0xE != 0 && !anyJack s), .range) ]
      (let t := sleepChoice s us mask
       let s1 := startJob 0x80 .sleep s
       yes { s1 with power := { s1.power with st := .entering, entry := some ⟨t, mask, timer, false, [], now s⟩ } }
         [t.setWidth 32])

def rowSleep : CmdRow :=
  { op := 0x80, flags := 1, pD := fun a => !flag a 0
    count := fun a => decide (a.ops.length = if flag a 0 then 0 else 3), maxRes := fun _ _ => 1, body := bodySleep }

/-! ## Query and preparation (R377, Table 11.4) -/

/-- The agents that refuse, with their reasons, in order of ID. -/
def refusals (s : State) : List (BitVec 4 × BitVec 4) :=
  let ramps := s.mtx.ramps.any (fun x => x.2.isSome && computed (active s) (x.1 % 128))
  let buses := (List.range 8).any (fun b => busActive s b)
  let tapRamps := s.mr.taps.any (fun x => x.2.ramp) || s.mr.assignRamp.any (fun x => x.2.isSome)
    || s.mr.blockRamp.any (fun x => x.2.isSome)
  let sealed := (List.range 8).any (fun k => (tget {} s.seals.seals k).isOpen) || !s.seals.queue.isEmpty
  let lock (p : Pll) : Bool := p.gated || p.st == .acquiring
  (if ramps then [(2, 1)] else []) ++ (if buses then [(3, 2)] else if tapRamps then [(3, 1)] else [])
    ++ (if outSequence s then [(4, 1)] else []) ++ (if sealed then [(6, 3)] else [])
    ++ (if lock s.clk.a || lock s.clk.b then [(7, 4)] else [])

/-- Every output is clamped, or takes part in a classification, which runs on in DOZE and NAP (Table 8.6). -/
def outsDown (s : State) : Bool := (List.range 34).all (fun d => (dac s d).phase == .clamped || (dac s d).phase == .probing)

/-- The preparation of an agent is complete for the chosen state. -/
def agentReady (s : State) (t : BitVec 3) (agent : Nat) : Bool :=
  match agent with
  | 1 => s.fe.chans.all (fun x => x.2.move.isNone)
  | 4 => if deep t then allClamped s && s.outs.vcm == .zero else outsDown s
  | 5 => s.sense.idx.isNone
  | 8 => !s.flt.testing
  | _ => true

/-- The agents that delay entry. -/
def delays (s : State) (t : BitVec 3) : List Nat :=
  [1, 4, 5, 8].filter (fun a => !agentReady s t a && (a != 5 || t != stDoze))

/-- During an entry to REST or HIBERNATE the VCM node ramps down once every output is clamped (R283). -/
def vcmFollow (s : State) : State :=
  match s.power.entry with
  | some e => if e.queried ∧ deep e.target ∧ allClamped s ∧ (s.outs.vcm = .on ∨ s.outs.vcm = .rampUp) then vcmRamp .rampDown s else s
  | none => s

/-- What BIST may have in flight when a sleep entry ends it (R361, Table 10.9): its test's accesses, or the patrol's of every memory. -/
def bistInFlight (s : State) : List InFlight :=
  match s.flt.testing, s.flt.tests with
  | true, q :: _ =>
    if testOf q.source = 1 then bothWays 8 (bankTarget (q.site % 2 ^ 40 / 65536))
    else if testOf q.source = 2 then bothWays 8 (q.site % 16)
    else []
  | _, _ => [1, 2, 3, 4, 5, 6, 7, 8, 9, 12].flatMap (bothWays 8)

/-- The self-test that runs, or the patrol, ends for a sleep entry, and what it has in flight is interrupted. -/
def endTest (s : State) : State := cutShort (bistInFlight s) { s with flt := { s.flt with testing := false } }

/-- SLEEP_QUERY (R377): any refusal ends the entry; otherwise the delaying agents prepare. -/
def sleepQuery (s : State) : State :=
  match s.power.entry with
  | none => s
  | some e =>
    if e.queried then s
    else match refusals s with
      | (ag, re) :: _ =>
        finishJob .refused { s with power := { s.power with st := .run, entry := none, agent := ag, reason := re } }
      | [] =>
        let d := delays s e.target
        let s0 := if d.contains 8 then s else endTest s
        let s1 := { s0 with power := { s0.power with entry := some { e with queried := true, delays := d, since := now s } } }
        let s2 := if deep e.target then holdClass s1 else s1
        vcmFollow (if d.contains 4 then stopAll s2 else s2)

/-- AGENT_ACCEPT (R377). The self-test agent ends its test, which stays queued and runs again (Table 13.2). -/
def agentAccept (agent : Nat) (s : State) : State :=
  match s.power.entry with
  | none => s
  | some e =>
    let s0 := if agent = 8 ∧ e.delays.contains 8 then endTest s else s
    if e.queried ∧ agentReady s0 e.target agent then
      { s0 with power := { s0.power with entry := some { e with delays := e.delays.filter (· != agent) } } }
    else s0

/-- The longest DELAY of an agent, ns (Table 11.4). -/
def maxDelay (t : BitVec 3) (agent : Nat) : Nat :=
  match agent with
  | 1 => 10 * msec
  | 4 => if deep t then 45 * msec else 5 * msec
  | 5 => 600 * usec
  | _ => msec

/-- DELAY_EXPIRED (Table 11.6). -/
def delayExpired (agent : Nat) (s : State) : State :=
  match s.power.entry with
  | none => s
  | some e =>
    if e.queried ∧ e.delays.contains agent ∧ maxDelay e.target agent ≤ since s e.since then
      undoEntry (BitVec.ofNat 4 agent) 5 s
    else s

/-! ## Commit (R379, Tables 4.3, 5.6, 11.5, 11.7) -/

/-- The power state of a LAST_STATE code. -/
def sleepSt (t : BitVec 3) : PowerSt :=
  if t = stDoze then .doze else if t = stNap then .nap else if t = stRest then .rest else .hibernate

/-- A buffer at entry: kept in DOZE, held in NAP, off in REST with its setting kept. -/
def refSleep (t : BitVec 3) (r : RefBuf) : RefBuf :=
  if t = stDoze then r else if t = stNap then { r with ready := false, lost := none } else { on := r.on }

/-- A buffer powers up, or leaves its hold, at a wake: it is ready `need` ns later (Table 4.3, Table 11.8). A count of 40 ms
that NAP met unfinished gives way to those of the wake, and the 100 ms of R128 run anew from it (DESIGN CHOICE, log entry 200). -/
def refWake (t need : Nat) (r : RefBuf) : RefBuf :=
  if r.on then { r with powered := true, onAt := t, need := need, late := false, lost := none, fromOn := true } else r

/-- An output at the commit: clamped (R268), unless it takes part in a classification (Table 8.6). -/
def Dac.sleep (x : Dac) : Dac :=
  let y := { x.halt with level := 0 }
  if x.phase = .probing then y else { y with phase := .clamped, clamp := true, g := .zero }

/-- Audio stops: flows stop with their sequence counters, cores are undone to their checkpoints, channels end their fades, and
their taps drop (R210). -/
def audioStop (s : State) : State :=
  let s1 := onCores coreSleep s
  tapsFollow s { s1 with
    flows := tmap {} (fun r => { seq := r.seq, slips := r.slips }) s1.flows
    fe := { s1.fe with chans := [] }
    mtx := {}
    outs := { s1.outs with pumps := [], dacs := tmap {} Dac.sleep s1.outs.dacs } }

/-- A PLL stops, and a running one stores its tuning word (R322); 0 is none. -/
def Pll.stop (p : Pll) : Pll :=
  { p with
    st := .off, gated := false, good := 0, bad := 0, qual := 0
    word := match p.st with
      | .locked | .holdover | .holdoverMuted => p.dco
      | .acquiring => if p.fromNap then p.word else p.dco
      | .off => 0 }

/-- The PLLs stop; CLOCK is raised where a state changes (R341). -/
def pllsStop (s : State) : State :=
  raiseIf (s.clk.a.st != .off || s.clk.b.st != .off) irqClock
    { s with clk := { s.clk with a := s.clk.a.stop, b := s.clk.b.stop, restart := false }, power := { s.power with onRc := true } }

/-- A PLL starts from its stored word, or cold where it has none (R322). -/
def Pll.fromWord (t : Nat) (p : Pll) : Pll :=
  { p with st := .acquiring, gated := true, good := 0, fromNap := p.word != 0, dco := p.word, guardBad := false, lockBy := 0, winAt := t }

/-- The PLLs start after NAP: PLLB, and PLLA where its EN is 1; CLOCK is raised (R341). -/
def pllsWake (s : State) : State :=
  raiseIrq irqClock { s with clk := { s.clk with
    b := s.clk.b.fromWord (now s), a := if s.clk.a.en then s.clk.a.fromWord (now s) else s.clk.a } }

/-- SLEEP_COMMIT (R379): the common frame boundary after the last ACCEPT, or at once if no lane runs (R377). A sequence that a
trigger has started since delays NAP and deeper (Table 8.16). The timebase moves while SN22 still holds its result (R339). -/
def sleepCommit (s : State) : State :=
  match s.power.entry with
  | none => s
  | some e =>
    if e.queried ∧ e.delays = [] ∧ (e.target = stDoze ∨ s.sense.idx = none) ∧ (audioRuns s = true → commonBoundary s = true) then
      let t := e.target
      let s1 := audioStop (if deep t then holdClass s else s)
      let s2 := { s1 with fe := { s1.fe with refs := tmap {} (refSleep t) s1.fe.refs } }
      let s3 := { s2 with
        margin := { s2.margin with running := false, again := s2.margin.running, avsSeen := false }
        power := { s2.power with
        st := sleepSt t, lastState := t, padsHeld := true, entry := none, wakeMask := e.mask, timer := e.timer, tdmHeld := (List.range 4).map (fun p => (tdm s2 p).cfg)
        commitAt := now s, waking := none, stepOff := none, audioWait := false
        xrefOk := s2.power.xrefOk && !deep t } }
      let s3 := match sn22 s2 with | some c => if deep t then noteTemp c s3 else s3 | none => s3
      let s4 := portsStop false s3
      let s5 := tbSwitch (if t = stDoze then refFollow s3 s4 else pllsStop (lockFreeze (senseStop (loseNap s4))))
      let s6 := if t = stRest then loseRest s5 else if t = stHib then loseHibernate s5 else s5
      tbSwitch (if deep t then { s6 with pins := {} } else s6)
    else s

/-! ## Wake events (Table 11.3, R384) -/

/-- The wake sequence starts from the present sleep state (Table 11.8). -/
def startWake (src : Nat) (s : State) : State :=
  let step : WakeStep := match s.power.st with
    | .rest | .hibernate | .wakeHoldDark => .dvdd
    | .nap => .pll
    | .wakeHold => if s.power.lastState = stNap then .pll else .xref
    | _ => .done
  let s1 := { s with power := { s.power with
    waking := some step, wakeAt := now s, stepSince := now s, wakeBy := BitVec.ofNat 4 (src + 1), retries := 0
    wakeFail := 0, stepOff := none } }
  let refs (need : Nat) (x : State) : State :=
    { x with fe := { x.fe with refs := tmap {} (refWake (now s) need) x.fe.refs } }
  match s.power.st with
  | .wakeHold => if step = .pll then pllsWake s1 else s1
  | .nap => refs (150 * usec) (pllsWake s1)
  | .rest => vcmRamp .rampUp (refs (40 * msec) s1)
  | .hibernate => vcmRamp .rampUp s1
  | _ => s1

/-- The wake event of source `src`: an enabled source wakes a sleep state, and undoes an entry (Table 11.6), in its
query phase too (DESIGN CHOICE, log entry 210). -/
def wakeEvent (src : Nat) (s : State) : State :=
  match s.power.st with
  | .doze | .nap | .rest | .hibernate =>
    if s.power.wakeMask.getLsbD src ∧ s.power.waking = none then startWake src s else s
  | .entering =>
    match s.power.entry with
    | some e => if e.mask.getLsbD src then undoEntry 0 6 s else s
    | none => s
  | _ => s

/-- WAKE_PIN (R373, R388): a rising edge wakes, or starts a new wake from WAKE-HOLD with the boot state it had. -/
def wakePin (s : State) : State :=
  match s.power.st with
  | .wakeHold | .wakeHoldDark =>
    let s1 := startWake 0 s
    { s1 with power := { s1.power with
        st := sleepSt s.power.lastState
        boot := if s.power.boot = .wakeHold then s.power.bootPrev else s.power.boot } }
  | _ => wakeEvent 0 s

/-- SLEEP_TIMER (Table 11.3): TIMER ms after commit. -/
def sleepTimer (s : State) : State :=
  if s.power.timer * msec ≤ since s s.power.commitAt ∧ s.power.st ≠ .entering then wakeEvent 5 s else s

/-- A jack or button event after `before` is a wake event when it is a confirmed one (R373). -/
def jackWake (n : Nat) (before s : State) : State :=
  let b := jackRun before n
  let j := jackRun s n
  if b.present = false ∧ j.present then wakeEvent 1 s
  else if b.present ∧ j.present = false then wakeEvent 2 s
  else if j.pressed ∧ (b.pressed = false ∨ b.button ≠ j.button) then wakeEvent 3 s
  else s

/-! ## The wake sequence (R384, R387, R388) -/

/-- DVDD_POWER_GOOD: the logic starts on the RC, restored from retention, or the boot ROM starts (Table 11.8). XREF's time counts
from the wake event, after a failed DVDD step from the retry (R387; DESIGN CHOICE, log entry 196). -/
def dvddPowerGood (s : State) : State :=
  if s.power.waking = some .dvdd ∧ s.power.stepOff = none then
    let s1 := { s with power := { s.power with waking := some .xref } }
    if s.power.st = .hibernate then bootRom s1 else s1
  else s

/-- PLLA starts again where its EN is 1 (Table 11.8, R337). -/
def startPlla (s : State) : State :=
  if s.clk.a.en ∧ s.clk.a.st = .off then coldStart 0 s else s

/-- The XREF oscillator has power: with the logic, and not before DVDD is good in a wake (Tables 11.2, 11.5); a step that has failed
turns it off for 1 ms (R387). -/
def xrefOn (s : State) : Bool :=
  match s.power.st with
  | .run | .entering | .doze | .nap => true
  | .wakeHold => s.power.waking != some .xref || s.power.stepOff.isNone
  | .rest | .hibernate | .wakeHoldDark => match s.power.waking with
    | none | some .dvdd => false
    | some .xref => s.power.stepOff.isNone
    | some .pll | some .done => true
  | .off | .reset => false

/-- XREF lies within 3 % of 24.576 MHz, where OTP gives no frequency word (R318). -/
def xrefFits (s : State) : Bool :=
  s.sec.otp.xrefFreq != 0
    || decide (97 * 24576000 ≤ 100 * s.power.straps.xrefHz ∧ 100 * s.power.straps.xrefHz ≤ 103 * 24576000)

/-- XREF_READY (R318, R387): XREF_OK, a live bit (Table 11.12). PLLB starts cold where a boot start or a wake's XREF step has
waited for it; in NAP and in WAKE-HOLD it stays off (Table 11.2, R388). -/
def xrefReady (s : State) : State :=
  let p := s.power
  let s1 := { s with power := { p with xrefOk := true } }
  if xrefOn s = false then s
  else match p.waking with
    | some .xref =>
      if p.stepOff = none then
        startPllb (p.st = .rest) (startPlla { s1 with power := { s1.power with waking := some .pll, stepSince := now s } })
      else s
    | some _ => s1
    | none =>
      if xrefFits s = false then s
      else if running s ∧ s.clk.b.st = .off then startPllb false s1 else s1

/-- The limit of the present step, ns (R387). After NAP it is PLLB's time to lock; PLLA has none. -/
def stepLimit (s : State) : Option Nat :=
  match s.power.waking with
  | some .dvdd => some (2 * msec)
  | some .xref => some (5 * msec)
  | some .pll => if s.power.st = .nap ∧ pllbUnlocked s then some (5 * msec) else none
  | _ => none

/-- ST_POWER.STATE (Table 11.12). The states in which the window cannot be read have no code; they show 0. -/
def stateCode (s : State) : Nat :=
  match s.power.st with
  | .entering => 1
  | .doze => 2
  | .nap => 3
  | .wakeHold | .wakeHoldDark => 4
  | _ => 0

/-- ST_POWER (Table 11.12). -/
def stPower (s : State) : Word :=
  let p := s.power
  toWord (stateCode s * 2 ^ 29 + p.lastState.toNat * 2 ^ 26 + p.wakeSrc.toNat * 2 ^ 22 + b2n p.padsHeld * 2 ^ 21
    + p.agent.toNat * 2 ^ 17 + p.reason.toNat * 2 ^ 13 + p.retries.toNat * 2 ^ 11 + p.wakeFail.toNat * 2 ^ 9
    + b2n p.xrefOk * 2 ^ 8)

/-- SLEEP's final status, once (R376); REST and deeper have lost ST_DEFERRED's opcode (Table 11.13). -/
def finishSleep (c : Status) (s : State) : State :=
  if s.deferred.job = some .sleep then finishJob c { s with deferred := { s.deferred with opcode := 0x80 } } else s

/-- WAKE-HOLD (R388): WAKE_FAULT and an entry; with the logic powered, SLEEP's final status is FAULT. -/
def wakeHold (dvdd : Bool) (s : State) : State :=
  let p := s.power
  let s1 := if dvdd then
      { s with power := { p with st := .wakeHoldDark, waking := none, stepOff := none, wakeFail := 1 } }
    else
      finishSleep .fault (pllsStop { s with power := { p with
        st := .wakeHold, waking := none, stepOff := none, wakeFail := 2, bootPrev := p.boot, boot := .wakeHold } })
  raiseIrq irqWakeFault (logFault 0x0C (if dvdd then 0 else 1) (stPower s1) 0 s1)

/-- WAKE_STEP_TIMEOUT (R387): the failed resource alone is turned off for 1 ms; the third retry's failure is WAKE-HOLD. -/
def wakeStepTimeout (s : State) : State :=
  match stepLimit s with
  | none => s
  | some lim =>
    if s.power.stepOff = none ∧ lim ≤ since s s.power.stepSince then
      if s.power.retries = 3 then wakeHold (s.power.waking = some .dvdd) s
      else
        let s1 := { s with power := { s.power with stepOff := some (now s) } }
        if s.power.waking = some .pll then
          raiseIrq irqClock { s1 with clk := { s1.clk with b := s1.clk.b.stop }, power := { s1.power with onRc := true } }
        else s1
    else s

/-- WAKE_RETRY (R387): the step is repeated 1 ms later. -/
def wakeRetry (s : State) : State :=
  match s.power.stepOff with
  | none => s
  | some t =>
    if msec ≤ since s t then
      let s1 := { s with power := { s.power with stepOff := none, stepSince := now s, retries := s.power.retries + 1 } }
      if s.power.waking = some .pll then raiseIrq irqClock { s1 with clk := { s1.clk with b := s1.clk.b.fromWord (now s) } } else s1
    else s

/-! ## Return to RUN (R372, R385) -/

/-- PLLB is locked, and PLLA if its EN is 1, with their outputs running. -/
def pllsReady (s : State) : Bool :=
  let up (p : Pll) : Bool := !p.gated && (p.st == .locked || p.st == .holdover || p.st == .holdoverMuted)
  up s.clk.b && (!s.clk.a.en || up s.clk.a)

/-- Every kept buffer is ready, or 45 ms have passed (R372). -/
def refsReady (s : State) : Bool :=
  s.fe.refs.all (fun x => !x.2.on || x.2.ready) || decide (45 * msec ≤ since s s.power.wakeAt)

/-- The conditions of R372 hold in the present state. -/
def wakeDone (s : State) : Bool :=
  match s.power.st, s.power.waking with
  | .doze, some _ => pllsReady s
  | .nap, some .pll => s.power.stepOff.isNone && pllsReady s
  | .rest, some .pll => pllsReady s && refsReady s
  | .hibernate, some step => step != .dvdd && (s.power.boot == .run || s.power.boot == .romWait || s.power.boot == .safe)
  | _, _ => false

/-- RETURN_TO_RUN (R385, R393): SLEEP's final status is OK; the frame grids restart after NAP or deeper. A classification waits
for the pads (Table 8.10); where the pads are released already, the outputs start (R386). -/
def returnToRun (s : State) : State :=
  if wakeDone s then
    let p := s.power
    let late := p.st == .rest || p.st == .hibernate
    let s1 := { s with
      power := { p with
        st := .run, waking := none, wakeSrc := p.wakeBy, audioWait := true, heldJack := false
        onRc := pllbUnlocked s, wdtAt := p.wdtAt + since s p.commitAt }
      host := { s.host with seqFree := s.host.seqFree || late }
      margin := { s.margin with running := s.margin.running || late || s.margin.again, again := false }
      mtx := {} }
    let s2 := holdClass (raiseIf p.heldJack irqJack s1)
    let s3 := foldGrowth (tbSwitch (finishSleep .ok s2))
    let s4 := { s3 with tb := { s3.tb with calFresh := false } }
    if p.padsHeld then s4 else startAll s4
  else s

/-- A flow restarts after sleep (R232, R235, R385): its counter goes on, its first sample carries CUT, and an endpoint
behind held pads, or one that does not deliver yet, is a stopped one. -/
def wakeFlow (s : State) (f : Nat) : State :=
  let n := (flowRun s f).seq
  let k := ((active s).flow f).kind
  onFlow f (fun r => { r with
    seq := n, cutNext := true
    stopped := r.stopped || (s.power.padsHeld && decide (f < 128) && (k == 3 || k == 4 || k == 5)) }) (startFlow f s)

/-- A core resumes from its checkpoint; its first frame has CUTIN set. -/
def wakeCore (s : State) (n : Nat) : State := coreResume s n

/-- AUDIO_RESTART (R385): the first common frame boundary after the return to RUN. -/
def audioRestart (s : State) : State :=
  if s.power.audioWait ∧ running s ∧ gridRuns s ∧ pllbUnlocked s = false ∧ inSafe s = false then
    let s0 := { s with power := { s.power with audioWait := false } }
    let s1 := tapsFollow s0 ((indexes 32 (fun ch => (active s0).chEn ch)).foldl (fun s ch => beginChan ch s) s0)
    let s2 := onCores wakeCore ((activeFlows s1).foldl wakeFlow s1)
    (indexes 128 (fun ol => computed (active s2) ol)).foldl (fun s ol =>
      { s with mtx := { s.mtx with weirs := tput {} s.mtx.weirs ol (weirFresh ((active s).weir ol) (stamp s tSET)) } }) s2
  else s

/-! ## PADS.RELEASE (R386) -/

/-- A jack whose class a sleep left unknown is classified (Table 8.10). -/
def jackRelease (s : State) (n : Nat) : State :=
  let j := jackRun s n
  if (jackWord s n).en ∧ j.present ∧ j.step = .none ∧ (j.cls = clsNone ∨ j.cls = clsUnknown) then
    onJack n (fun j => { j with cls := clsRuns, step := .waiting }) s
  else s

def bodyPadsRelease (_a : CmdArgs) (s : State) : Ans :=
  checks s [(s.power.st == .wakeHold || s.power.st == .wakeHoldDark, .refused)]
    (if s.power.padsHeld then
       let s1 := { s with power := { s.power with padsHeld := false } }
       let s2 := if s1.power.iovddA then portsReturn s1 else s1
       yes (startAll ((List.range 4).foldl jackRelease s2)) [1]
     else yes s [0])

def rowPadsRelease : CmdRow :=
  { op := 0x81, pC := fun _ => true, count := countIs 0, maxRes := fun _ _ => 1, body := bodyPadsRelease }

end Sys2Proof.Machine
end

