-- ==== Sys2Proof/Machine/StatusWin.lean ====
section
/-! DEFINITION. The status window (R78–R80, Table 2.11): the value of every register and what a completed host read clears
(R46). -/

namespace Sys2Proof.Machine

/-- ST_STATE.BOOT (Table 2.12). -/
def Boot.code : Boot → Nat
  | .romWait => 0 | .verify => 1 | .run => 2 | .safe => 3 | .wakeHold => 4

/-- ST_STATE.LIFECYCLE (Table 2.12). -/
def Lifecycle.code : Lifecycle → Nat
  | .blank => 0 | .maker => 1 | .field => 2 | .rma => 3

/-- ST_STATE (Table 2.12). -/
def stState (s : State) : Word :=
  toWord (s.power.boot.code * 2 ^ 12 + s.sec.otp.lifecycle.code * 2 ^ 6 + b2n s.sec.otp.policy * 2 ^ 5
    + b2n s.sec.session.isSome * 2 ^ 4 + b2n s.power.onRc * 2 ^ 3)

/-- ST_IRQ_PENDING (Table 2.14): bit 0 is live. -/
def stIrq (s : State) : Word := setBit s.irq.pend 0 (!s.host.responses.isEmpty)

/-- nIRQ is driven low (R80). -/
def nIrqLow (s : State) : Bool := vaonOn s && stIrq s &&& s.irq.mask != 0

/-- Unread responses, from the acceptance of their packets (R51, Table 2.15). -/
def unread (s : State) : Nat := s.host.accepted.length + s.host.responses.length

/-- ST_HOST (Table 2.15). -/
def stHost (s : State) : Word :=
  toWord (s.host.expSeq.toNat * 2 ^ 16 + b2n s.host.seqFree * 2 ^ 15 + unread s % 8 * 2 ^ 12 + s.host.drops % 256)

/-- ST_SET (Table 2.16). -/
def stSet (s : State) : Word :=
  let armed := match s.sets.swap with | some r => r.armed | none => false
  toWord (s.sets.swapStatus.toNat * 2 ^ 20 + b2n s.sets.copying * 2 ^ 19 + b2n armed * 2 ^ 18
    + b2n s.sets.swap.isSome * 2 ^ 17 + b2n s.sets.selB * 2 ^ 16 + s.sets.epoch % 65536)

/-- ST_DEFERRED (Table 2.17). -/
def stDeferred (s : State) : Word :=
  toWord (s.deferred.opcode.toNat * 2 ^ 24 + s.deferred.status.toNat * 2 ^ 16 + b2n s.deferred.job.isSome * 2 ^ 15)

/-- ST_RESET_CAUSE (Table 11.11). -/
def stCause (s : State) : Word := toWord (s.power.wdrCount % 256 * 2 ^ 24 + s.power.cause.toNat)

/-- PLLA_STATE, PLLB_STATE (Table 9.7). -/
def PllSt.code : PllSt → Nat
  | .off => 0 | .acquiring => 1 | .locked => 2 | .holdover => 3 | .holdoverMuted => 4

/-- TB_SRC (Table 9.7). -/
def TbSrc.code : TbSrc → Nat
  | .periLocked => 0 | .periCoast => 1 | .rc16 => 2 | .xt32 => 3 | .rc32 => 4

/-- DRIFT_EST (Table 9.7): E of R326 in 0.1 ppm. -/
def driftEst (s : State) : Nat :=
  match s.clk.a.st with
  | .holdover | .holdoverMuted => min 255 (driftPpb s / 100)
  | _ => 0

/-- ST_CLOCK (Table 9.7). -/
def stClock (s : State) : Word :=
  toWord (b2n s.tb.valid * 2 ^ 31 + s.tb.src.code * 2 ^ 28 + s.clk.losses % 16 * 2 ^ 24 + s.clk.b.st.code * 2 ^ 21
    + s.clk.a.thrCode * 2 ^ 18 + s.clk.a.st.code * 2 ^ 13 + s.clk.ref.toNat * 2 ^ 10 + b2n (fam44 s) * 2 ^ 9
    + b2n s.tb.xt32 * 2 ^ 8 + driftEst s)

/-- The class of a log entry (Table 13.3). -/
def lastingCount (s : State) : Nat := s.flt.log.countP (fun e => fld e.w0 23 20 == clLasting)

/-- ST_FAULT (Table 13.5). -/
def stFault (s : State) : Word :=
  toWord (lastingCount s * 2 ^ 24 + s.flt.overwritten % 256 * 2 ^ 16 + s.flt.log.length % 128 * 2 ^ 8
    + s.flt.written % 64)

/-- ST_FAULT_LAST0–3 (Table 13.5). -/
def stFaultLast (s : State) (n : Nat) : Word := (entryWords s.flt.log 0).getD n 0

/-- ST_REPAIR (Table 13.5): each of the 31 repair banks has 2 spare rows (R434). -/
def stRepair (s : State) : Word :=
  let used := s.flt.repaired.map (fun x => x.2.length)
  toWord (used.foldl (· + ·) 0 % 64 * 2 ^ 16 + used.countP (fun n => decide (2 ≤ n)) % 32)

/-- ST_COREn.STATE (Table 3.11). -/
def CoreSt.code : CoreSt → Nat
  | .unbound => 0 | .running => 1 | .halted => 2 | .stopped => 3

/-- ST_COREn (Table 3.11). -/
def stCore (s : State) (n : Nat) : Word :=
  let c := core s n
  let b := (active s).bind n
  toWord (c.fallbacks % 256 * 2 ^ 24 + c.rollbacks % 256 * 2 ^ 16 + c.st.code * 2 ^ 13 + b.slot * 2 ^ 12
    + (if b.en then b.depth else 0) * 2 ^ 10 + min 255 c.peakPct)

/-- ST_SLIPw (Table 7.10). -/
def stSlip (s : State) (w : Nat) : Word :=
  toWord ((List.range 8).foldl (fun a j => a + min 15 (flowRun s (8 * w + j)).slips * 2 ^ (4 * j)) 0)

/-- ST_TDMn.STATE (Table 7.11). -/
def TdmSt.code : TdmSt → Nat
  | .off => 0 | .running => 1 | .stopped => 2 | .acquiring => 3

/-- ST_TDMn (Table 7.11). -/
def stTdm (s : State) (n : Nat) : Word :=
  let t := tdm s n
  toWord (min 255 t.crcErrs * 2 ^ 24 + min 255 t.frameErrs * 2 ^ 16
    + (if tdmMaster t.cfg then tdmRate t.cfg else t.rate) % 16 * 2 ^ 4 + t.st.code)

/-- ST_AESRXn.STATE (Table 7.12). -/
def AesSt.code : AesSt → Nat
  | .off => 0 | .locked => 1 | .acquiring => 2 | .unlocked => 3 | .mismatch => 4

/-- ST_AESRXn (Table 7.12). -/
def stAesRx (s : State) (n : Nat) : Word :=
  let r := aesRx s n
  let shows := r.st == .locked || r.st == .mismatch
  toWord (min 255 r.parityErrs * 2 ^ 24 + min 255 r.crccErrs * 2 ^ 16 + b2n r.pro * 2 ^ 15 + b2n r.nonAudio * 2 ^ 14
    + min 15 r.lockLosses * 2 ^ 8 + (if shows then r.rate % 16 else 15) * 2 ^ 4 + r.st.code)

/-- ASRC channels in use in ACTIVE (Table 7.13): the flows whose clock relation takes one. -/
def asrcInUse (s : State) : Nat := (activeFlows s).countP (fun f => ((active s).flow f).rel != 0)

/-- ST_ASRC (Table 7.13). -/
def stAsrc (s : State) : Word :=
  toWord (min 255 s.ports.relocks * 2 ^ 24 + asrcInUse s % 256 * 2 ^ 16
    + ((List.range 6).foldl (fun a t => a + b2n (tget {} s.ports.trackers t).locked * 2 ^ t) 0))

/-- ST_SENSE_SNn (Table 8.17); SN28–SN31 read 0 (R308). -/
def stSense (s : State) (n : Nat) : Word := if n < 28 then tget 0 s.sense.results n else 0

/-- ST_SENSE_DROPS (Table 8.18). -/
def stSenseDrops (s : State) : Word :=
  toWord (b2n s.sense.idx.isSome * 2 ^ 31 + b2n s.sense.aborted * 2 ^ 24 + min 255 s.sense.misses * 2 ^ 16
    + min 65535 s.sense.drops)

/-- ST_JACK (Table 8.11). -/
def stJack (s : State) : Word :=
  toWord ((List.range 4).foldl (fun a n =>
    let j := jackRun s n
    a + (b2n j.present * 128 + j.cls.toNat * 16 + b2n j.muted * 8 + b2n j.pressed * 4 + j.button.toNat) * 2 ^ (8 * n)) 0)

/-- ST_SEALn (Table 12.10). -/
def stSeal (s : State) (n : Nat) : Word :=
  let x := tget ({} : SealSt) s.seals.seals n
  toWord (b2n x.isOpen * 2 ^ 31 + x.dest.toNat * 2 ^ 29 + x.port % 4 * 2 ^ 27 + x.flow % 256 * 2 ^ 16
    + x.blocks % 65536)

/-- ST_SEAL_BUF (Table 12.10). -/
def stSealBuf (s : State) : Word := toWord (sealWords s % 65536 * 2 ^ 16 + min 255 s.seals.overflows)

/-- ST_SEC (Table 12.10). -/
def stSec (s : State) : Word :=
  toWord (min 255 s.sec.tagFails * 2 ^ 24 + (s.sec.debug).toNat * 2 ^ 16 + b2n s.sec.drbgFail * 2 ^ 15
    + s.power.safeCause.toNat * 2 ^ 12)

/-- A register of the lower half of the window, by word index. -/
def winLow (s : State) (i : Nat) : Word :=
  match i with
  | 0 => 0x00003234
  | 1 => 0x000000A1
  | 2 => s.power.fwVersion
  | 3 => stState s
  | 4 => stIrq s
  | 5 => s.irq.mask
  | 6 => stHost s
  | 7 => stSet s
  | 8 => stDeferred s
  | 9 => stCause s
  | 10 => stPower s
  | 12 => toWord s.tb.count
  | 13 => toWord (s.tb.count / 2 ^ 32)
  | 14 => toWord (uncertainty s)
  | 15 => stClock s
  | 16 => stFault s
  | 17 => stFaultLast s 0
  | 18 => stFaultLast s 1
  | 19 => stFaultLast s 2
  | 20 => stFaultLast s 3
  | 21 => stRepair s
  | 32 => s.fe.ovrReg
  | 48 => stCore s 0
  | 49 => stCore s 1
  | 50 => stCore s 2
  | 51 => stCore s 3
  | _ => 0

/-- A register of the upper part of the window, by word index (from 0x400). -/
def winHigh (s : State) (i : Nat) : Word :=
  if i < 0x120 then stSlip s (i - 0x100)
  else if i < 0x124 then stTdm s (i - 0x120)
  else if i < 0x126 then stAesRx s (i - 0x124)
  else if i = 0x126 then stAsrc s
  else if i < 0x140 then 0
  else if i < 0x160 then stSense s (i - 0x140)
  else if i = 0x160 then stSenseDrops s
  else if i = 0x161 then stJack s
  else if i < 0x180 then 0
  else if i < 0x188 then stSeal s (i - 0x180)
  else if i = 0x188 then stSealBuf s
  else if i = 0x189 then stSec s
  else if i < 0x1C0 then 0
  else if i = 0x1C0 then s.margin.w0
  else if i = 0x1C1 then s.margin.w1
  else if i = 0x1C2 then s.margin.w2
  else 0

/-- The word of the status window at byte offset 4·`i` (Table 2.11). Meters: AIN n is n, output lane n is 32 + n. -/
def winWord (s : State) (i : Nat) : Word :=
  if i < 0x40 then winLow s i
  else if i < 0xE0 then tget 0x80008000 s.filt.meters (i - 0x40)
  else if i < 0x100 then 0
  else winHigh s i

/-! ## What a completed host read clears (R46) -/

/-- An RC field is cleared with its register, by word index. A flag that its condition still drives sets again and raises
its interrupt (R144). -/
def winClear (i : Nat) (s : State) : State :=
  if i = 4 then { s with irq := { s.irq with pend := 0 } }
  else if i = 6 then { s with host := { s.host with drops := 0 } }
  else if i = 9 then { s with power := { s.power with cause := 0, wdrCount := 0 } }
  else if i = 15 then { s with clk := { s.clk with losses := 0 } }
  else if i = 16 then { s with flt := { s.flt with overwritten := 0 } }
  else if i = 32 then
    let still := (List.range 32).foldl (fun w c => if ((chan s c).ovr || (chan s c).unstable) && bit s.fe.ovrReg c then setBit w c true else w) 0
    raiseIf (still != 0) irqOverload { s with fe := { s.fe with ovrReg := still } }
  else if 48 ≤ i ∧ i < 52 then
    onCore (i - 48) (fun c => { c with fallbacks := 0, rollbacks := 0, peakPct := 0 }) s
  else if 0x100 ≤ i ∧ i < 0x120 then
    (List.range 8).foldl (fun s j => onFlow (8 * (i - 0x100) + j) (fun r => { r with slips := 0 }) s) s
  else if 0x120 ≤ i ∧ i < 0x124 then onTdm (i - 0x120) (fun t => { t with crcErrs := 0, frameErrs := 0 }) s
  else if 0x124 ≤ i ∧ i < 0x126 then
    onAes (i - 0x124) (fun r => { r with parityErrs := 0, crccErrs := 0, lockLosses := 0 }) s
  else if i = 0x126 then { s with ports := { s.ports with relocks := 0 } }
  else if i = 0x160 then { s with sense := { s.sense with aborted := false, misses := 0, drops := 0 } }
  else if i = 0x188 then { s with seals := { s.seals with overflows := 0 } }
  else if i = 0x189 then { s with sec := { s.sec with tagFails := 0 } }
  else s

/-- The words of a range, captured together (R46). -/
def winWords (s : State) (i n : Nat) : List Word := (List.range n).map (fun k => winWord s (i + k))

/-- Every RC field of a range is cleared. -/
def winClears (i n : Nat) (s : State) : State := (List.range n).foldl (fun s k => winClear (i + k) s) s

end Sys2Proof.Machine
end

