-- ==== Sys2Proof/Machine/Cp.lean ====
section
/-! DEFINITION. The control processor on the bus matrix (R34, R120, R346–R359): its paths, word, halfword and byte accesses,
locked sequences, and register writes by a master. -/

namespace Sys2Proof.Machine

/-! ## Targets and the CP's paths (Tables 10.2, 10.3, 10.6) -/

/-- What a byte address names for the CP: the target (Table 10.2), the storage address that the model keeps it under, the
arbitration point, and whether the CP reads, writes and locks there. -/
structure BusPath where
  target : Nat
  phys : Nat
  point : Nat
  rd : Bool
  wr : Bool
  lock : Bool
  deriving DecidableEq, Repr

/-- The path of an SRAM address (Table 10.3): flow delay lines are FDMA's, lanes are read and parameter pages written. -/
def sramPath (a : Nat) : Option BusPath :=
  let bank := (a - aCore) / 0x40000
  let p (rd wr : Bool) : Option BusPath := some ⟨6, a, 16 + bank, rd, wr, decide (8 ≤ bank)⟩
  if a < aDelayLines then p true true
  else if a < aLanes then none
  else if a < aParam then p true false
  else if a < aCpData then p false true
  else p true true

/-- The CP's path to an address; none where it has none (R347, R351). -/
def cpPath (s : State) (a : Nat) : Option BusPath :=
  let base := if s.mem.remap then 0 else aCpram
  let brom := if s.mem.remap then aCpram else 0
  if brom ≤ a ∧ a < brom + 0x10000 then some ⟨0, a - brom, 0, true, true, false⟩
  else if base ≤ a ∧ a < base + 0x80000 then some ⟨1, a - base + aCpram, 1, true, true, true⟩
  else if aPram 0 ≤ a ∧ a < aPram 4 ∧ (a - aPram 0) % 0x40000 < 0x20000 then
    some ⟨2 + (a - aPram 0) / 0x40000, a, 2 + (a - aPram 0) / 0x40000, true, true, false⟩
  else if aCore ≤ a ∧ a < aSramEnd then sramPath a
  else if aCram ≤ a ∧ a < aCram + 0x40000 then some ⟨7, a, 7, true, true, false⟩
  else if aGram ≤ a ∧ a < aGram + 0x60000 then some ⟨8, a, 8, true, true, true⟩
  else if aFctx ≤ a ∧ a < aFctx + 0x8000 then some ⟨9, a, 9, true, true, true⟩
  else if aPeri ≤ a ∧ a < aPeri + 0x8000 then some ⟨10, a, 10, true, true, false⟩
  else if aRet ≤ a ∧ a < aRet + 0x10000 then some ⟨12, a, 12, true, true, true⟩
  else none

/-! ## PERI (R350, Tables 10.4, 10.5) -/

/-- A word of PERI; a read of a detector's W0 captures its four words, and W1–W3 return that capture. A W1–W3 that no
capture of its detector precedes is a free word (log entry 2). -/
def periRead (a : Nat) (s : State) : Word × State :=
  let o := a - aPeri
  if o < 4 then (toWord (b2n s.mem.remap), s)
  else if 0x1000 ≤ o ∧ o < 0x2000 then (winWord s ((o - 0x1000) / 4), s)
  else if 0x2000 ≤ o ∧ o < 0x2A00 then
    let n := (o - 0x2000) / 16
    let i := o % 16 / 4
    if i = 0 then ((detWords s n).w0, detCapture n s)
    else match tget none s.filt.capture n with
      | some q => (q.word i, s)
      | none => drawWord s
  else (tget 0 s.mem.peri (a / 4), s)

/-- The CP writes a word of the status window (R350): those that hold what the firmware has computed, meters, sense results and
ST_MARGIN, take it, but for reserved bits (R11); the others show the hardware's own state (DESIGN CHOICE, log entry 166). -/
def winWrite (i : Nat) (w : Word) (s : State) : State :=
  if 0x40 ≤ i ∧ i < 0xE0 then { s with filt := { s.filt with meters := tput 0x80008000 s.filt.meters (i - 0x40) w } }
  else if 0x140 ≤ i ∧ i < 0x160 then { s with sense := { s.sense with results := tput 0 s.sense.results (i - 0x140) w } }
  else match i with
    | 0x1C0 => { s with margin := { s.margin with w0 := w &&& 0xFFFF00FF } }
    | 0x1C1 => { s with margin := { s.margin with w1 := w } }
    | 0x1C2 => { s with margin := { s.margin with w2 := w &&& 0xFFFF03FF } }
    | _ => s

/-- A write of a PERI register. REMAP is written by the boot ROM alone, and the detectors are read-only; every other register keeps
what is written. The firmware restarts the watchdog's count at the block of the power controller (R393, log entry 154). -/
def periWrite (a : Nat) (w : Word) (s : State) : State :=
  let o := a - aPeri
  if o < 4 ∨ (0x2000 ≤ o ∧ o < 0x2A00) then s
  else if 0x1000 ≤ o ∧ o < 0x2000 then winWrite ((o - 0x1000) / 4) w s
  else
    let s1 := { s with mem := { s.mem with peri := tput 0 s.mem.peri (a / 4) w } }
    if 0x7000 ≤ o ∧ o < 0x8000 ∧ wdtHost s = false then wdtKick s1 else s1

/-! ## Memories with a layout of their own -/

/-- The bank and offset of a GRAM or FCTX address. -/
def bankOff (base size a : Nat) : Bool × Nat :=
  if base + size ≤ a then (true, a - base - size) else (false, a - base)

/-- Bank A or B. -/
def bankOf (s : State) (b : Bool) : ConfigSet := if b then s.sets.bankB else s.sets.bankA

/-- Change bank A or B. -/
def onBank (b : Bool) (f : ConfigSet → ConfigSet) (s : State) : State :=
  if b then { s with sets := { s.sets with bankB := f s.sets.bankB } }
  else { s with sets := { s.sets with bankA := f s.sets.bankA } }

/-! ## Word accesses -/

/-- The word that a path reads, with its tag (R34): only SRAM and PRAM hold tags. A word of GRAM or RET that holds no item is a plain
word. An address that is not a multiple of 4 names the
aligned word that holds it (DESIGN CHOICE, log entry 140). -/
def pathRead (b : BusPath) (s : State) : (Word × BitVec 4) × State :=
  let a := b.phys / 4 * 4
  match b.target with
  | 0 =>
    let y (i : Nat) : Nat := (Config.bromByte (a + i)).toNat
    ((toWord (y 0 + y 1 * 256 + y 2 * 65536 + y 3 * 16777216), 0), s)
  | 8 =>
    let (bk, o) := bankOff aGram 0x30000 a
    (((gramGet (bankOf s bk) (Config.gramItem o)).getD (s.mem.word a), 0), s)
  | 9 =>
    let (bk, o) := bankOff aFctx 0x4000 a
    ((if o < 4096 then ((bankOf s bk).flow (o / 16)).word (o % 16 / 4) else s.mem.word a, 0), s)
  | 10 =>
    let (w, s1) := periRead a s
    ((w, 0), s1)
  | 12 =>
    ((retWord s a, 0), s)
  | _ => ((s.mem.word a, s.mem.tag a &&& 0b1110#4), s)

/-- Write the word of a path, aligned as `pathRead` aligns it, an item's reserved bits as 0 (R11). BROM is read-only and keeps its bytes. -/
def pathWrite (b : BusPath) (w : Word) (t : BitVec 4) (s : State) : State :=
  let a := b.phys / 4 * 4
  match b.target with
  | 0 => s
  | 1 | 7 => { s with mem := s.mem.setPlain a w }
  | 8 =>
    let (bk, o) := bankOff aGram 0x30000 a
    let s1 := { s with mem := { s.mem with bad := s.mem.bad.filter (· != a) } }
    if Config.gramItem o < gramItems then onBank bk (gramSet (Config.gramItem o) (w &&& gramMask (Config.gramItem o))) s1 else { s with mem := s.mem.setPlain a w }
  | 9 =>
    let (bk, o) := bankOff aFctx 0x4000 a
    if o < 4096 then
      onBank bk (fun c => { c with flows := tmod dFlow c.flows (o / 16) (fun q => setQuad q (o % 16 / 4) (w &&& fctxMask (o % 16 / 4))) })
        { s with mem := { s.mem with bad := s.mem.bad.filter (· != a) } }
    else { s with mem := s.mem.setPlain a w }
  | 10 => periWrite a w s
  | 12 => retPut a w s
  | _ => { s with mem := s.mem.setWord a w t }

/-- A refused request of the CP (R352): an abort record, and a bus error. -/
def cpRefused (target cause : Nat) (write : Bool) (a : Nat) (s : State) : State :=
  busErr true (logAbort 4 target cause write 0 a s)

/-- A check of the CP's own fails before a beat is performed: a register it reads, or the beat's address and control parity
(R366, Table 10.13). A bus error, and the entry; of the register file that is the model's choice (log entry 203). -/
def cpBeatLost (b : BusPath) (write : Bool) (a : Nat) (s : State) : Option State :=
  match registerUpset s .cp with
  | some r => some (busErr true (logRegister .cp r s))
  | none =>
    if upset s (.request 4) then some (busErr true (logAbort 4 b.target 6 write 0 a (dropUpset (.request 4) s))) else none

/-- Read by the CP: a word and its tag, or value 0 with tag 0 along no path; none where the word does not decode, or a check of
its hop fails (R366). A word of BROM that fails its parity puts the device in SAFE mode (Table 10.13). -/
def cpRead (a : Nat) (s : State) : Option (Word × BitVec 4) × State :=
  match cpPath s a with
  | some b =>
    if b.rd then
      match cpBeatLost b false a s with
      | some t => (none, t)
      | none =>
      if upset s (.data 4) then (none, busErr true (logAbort 4 b.target 7 false 0 a (dropUpset (.data 4) s)))
      else if b.target = 0 ∧ upset s .brom then (none, safeFromRun 2 (busErr true (dropUpset .brom s)))
      else if s.mem.bad.contains (b.phys / 4 * 4) then (none, cpReadError (.word (b.phys / 4 * 4)) s)
      else
        let (x, s1) := pathRead b s
        (some x, busErr false s1)
    else (some (0, 0), cpRefused 0xF 5 false a s)
  | none => (some (0, 0), cpRefused 0xF 5 false a s)

/-- A write of the CP along its path: `put` where the checks of its hop hold. A data parity error discards the beat with a write
error: the CP has no path to write SRAM banks 8 to 12, where value 0 with SET would be stored (R366, Tables 10.3, 10.13). -/
def cpBeat (b : BusPath) (a : Nat) (put : State → State) (s : State) : State :=
  match cpBeatLost b true a s with
  | some t => t
  | none =>
    if upset s (.data 4) then busErr true (logAbort 4 b.target 7 true 0 a (dropUpset (.data 4) s)) else busErr false (put s)

/-- Write by the CP; along no path the write is discarded (R352). -/
def cpWrite (a : Nat) (w : Word) (t : BitVec 4) (s : State) : State :=
  match cpPath s a with
  | some b => if b.wr then cpBeat b a (pathWrite b w t) s else cpRefused 0xF 5 true a s
  | none => cpRefused 0xF 5 true a s

/-- The byte address of an access (R120), modulo 2^32. -/
def busAddr (s : State) (ra : BitVec 5) (off : BitVec 10) : Nat :=
  ((gReg s .cp ra.toNat).val.toNat + 4 * off.toNat) % 2 ^ 32

/-- A register of the CP takes a value. -/
def cpSet (rd : BitVec 5) (w : Word) (t : BitVec 4) (s : State) : State := applyEff .cp (.setG rd.toNat ⟨w, t⟩) s

/-- A syllable of the CP: its effect where its predicate lets it, then the next bundle. -/
def runCp (p : Pred) (f : State → State) (s : State) : Out :=
  let s0 := wake .cp s
  let s1 := if predOk s .cp p then f s0 else s0
  match issue .cp [] s1 with
  | .ok s2 => ev s s2
  | .error e => .fault e

/-- A syllable of the CP that acts on the bus. While PLLB is gated the matrix stands still, and the CP waits at the bundle (R363, log
entry 153). -/
def runBus (p : Pred) (f : State → State) (s : State) : Out :=
  if predOk s .cp p && pllbUnlocked s then .next s else runCp p f s

/-- Replace the bytes [8·i, 8·i + bits) of a word (log entry 7: little-endian). -/
def part (w v : Word) (i bits : Nat) : Word := setFld w (8 * i + bits - 1) (8 * i) v.toNat

/-- LDG, LDGL's read: a word with its tag. After a read that fails the register keeps its value (DESIGN CHOICE, log entry 169). -/
def cpLoad (rd : BitVec 5) (a : Nat) (s : State) : State :=
  match cpRead a s with
  | (some x, s1) => cpSet rd x.1 x.2 s1
  | (none, s1) => s1

/-- LDGH, LDGB: the `bits` bits at the address, aligned down to their size (DESIGN CHOICE, log entry 140). No rule states the register's upper bits: they are free (log entry 2). The
tag is the word's, as LDG delivers it (DEDUCED, log entry 34). -/
def cpLoadPart (bits : Nat) (rd : BitVec 5) (a : Nat) (s : State) : State :=
  let i := if bits = 16 then a % 4 / 2 * 2 else a % 4
  match cpRead a s with
  | (some x, s1) =>
    let (u, s2) := drawWord s1
    cpSet rd (setFld u (bits - 1) 0 (fld x.1 (8 * i + bits - 1) (8 * i))) x.2 s2
  | (none, s1) => s1

/-- STG: a word and its tag; a register's tag bit 0 is written as 0 (R88). -/
def cpStore (rd : BitVec 5) (a : Nat) (s : State) : State :=
  let r := gReg s .cp rd.toNat
  cpWrite a r.val (tag1 r) s

/-- Write some bytes of a word of a path, its tag unchanged (R34); what its other bytes hold is taken without the effects of a read. -/
def pathPart (b : BusPath) (bits : Nat) (v : Word) (s : State) : State :=
  let a := b.phys / 4 * 4
  let i := if bits = 16 then b.phys % 4 / 2 * 2 else b.phys % 4
  if b.target = 0 then s
  else if b.target ≤ 7 then { s with mem := s.mem.setBytes (a + i) ((leBytes v).take (bits / 8)) }
  else
    pathWrite b (part (pathRead b s).1.1 v i bits) 0 s

/-- STGH, STGB: the low halfword or byte of the register. -/
def cpStorePart (bits : Nat) (rd : BitVec 5) (a : Nat) (s : State) : State :=
  match cpPath s a with
  | some b =>
    if b.wr then cpBeat b a (pathPart b bits (gReg s .cp rd.toNat).val) s else cpRefused 0xF 5 true a s
  | none => cpRefused 0xF 5 true a s

/-! ## Locked sequences (R358, R359, Table 10.8) -/

/-- LDGL. A read that fails takes the lock all the same, which is the model's choice (log entry 169). -/
def cpLoadLocked (rd : BitVec 5) (a : Nat) (s : State) : State :=
  match cpPath s a with
  | none => cpSet rd 0 0 (cpRefused 0xF 5 false a s)
  | some b =>
    if b.lock = false then cpSet rd 0 0 (cpRefused b.target 9 false a s)
    else if b.rd = false then cpSet rd 0 0 (cpRefused 0xF 5 false a s)
    else
      let s1 := match s.cp.lock with
        | some l => logAbort 4 (pointTarget l.point) 3 false 0 l.addr (unlock false s)
        | none => s
      let s2 := cpLoad rd a s1
      { s2 with cp := { s2.cp with lock := some { point := b.point, addr := a, since := now s, frozen := none }, lockLost := false } }

/-- STGU: writes the word and releases the lock; after LOCK_TIMEOUT it is not written, and the CP takes a bus error. With no lock
held, or to an address outside the locked point, it writes as STG does and no lock remains: the model's choice (log entry 170). -/
def cpStoreUnlock (rd : BitVec 5) (a : Nat) (s : State) : State :=
  if s.cp.lockLost then busErr true (unlock false s) else unlock false (cpStore rd a s)

/-- 16 MTX cycles in ns, rounded down. -/
def lockNs : Nat := 65

/-- LOCK_TIMEOUT (R359): 16 MTX cycles have passed; they do not pass while PLLB is gated (R363). -/
def lockTimeout (s : State) : State :=
  match s.cp.lock with
  | some l => if logicOn s ∧ pllbUnlocked s = false ∧ lockNs ≤ since s l.since then waitLock (fun _ => true) s else s
  | none => s

/-! ## Bundles of the CP (R120) -/

/-- The effect of an encoded bus syllable, 0x50 to 0x57. -/
def busSyl (w : Word) (s : State) : State :=
  let rd := fRd w
  let a := busAddr s (fRa w) (fOff w)
  match opc w with
  | 0x50 => cpLoad rd a s
  | 0x51 => cpStore rd a s
  | 0x52 => cpLoadPart 16 rd a s
  | 0x53 => cpStorePart 16 rd a s
  | 0x54 => cpLoadPart 8 rd a s
  | 0x55 => cpStorePart 8 rd a s
  | 0x56 => cpLoadLocked rd a s
  | 0x57 => cpStoreUnlock rd a s
  | _ => s

def isBus (w : Word) : Bool := decide (0x50 ≤ opc w ∧ opc w ≤ 0x57)

/-- A syllable that slot M of a CP bundle may hold. -/
def cpHigh (w : Word) : Bool := w == 0 || isBus w || (decide (0x40 ≤ opc w ∧ opc w ≤ 0x43) && sylValid w)

/-- A syllable that the other slot may hold: A0 or C, by its class. -/
def cpLow (w : Word) : Bool :=
  w == 0 || (opc w == 0x90 && fld w 19 0 == 0)
    || (sylValid w && (decide (1 ≤ opc w ∧ opc w ≤ 0x1F ∧ opc w ≠ 0x0C) || decide (0x80 ≤ opc w ∧ opc w ≤ 0x84)))

/-- The CP fetches a word. A fetch that succeeds leaves what the last access reported. -/
def cpFetch (a : Nat) (s : State) : Option Word × State :=
  match cpRead a s with
  | (some x, t) => (some x.1, busErr (s.cp.busError || t.cp.busError) t)
  | (none, t) => (none, t)

/-- A bundle of the CP issues: M, then the A0 or C syllable, each from the registers as they stood (R94, R120). The syllable of slot M lies
at the lower address, as a stream core's does; a bundle with a syllable that the CP does not have holds it there, and so does a stack
overflow; a syllable on the bus waits while the matrix stands still (R363; DESIGN CHOICE, log entry 204). -/
def cpBundle (hi lo : Word) (s : State) : State :=
  let onHi := hi ≠ 0 ∧ sylOn s .cp hi
  let onLo := lo ≠ 0 ∧ sylOn s .cp lo
  let eHi := if onHi then sylEff s .cp hi else []
  let eLo := if onLo then sylEff s .cp lo else []
  if cpHigh hi = false ∨ cpLow lo = false ∨ (onHi ∧ isBus hi ∧ pllbUnlocked s) then s
  else match bundleLost .cp (eHi ++ eLo) s with
    | some t => t
    | none =>
      let s1 := wake .cp s
      let s2 := if onHi ∧ isBus hi then busSyl hi s1 else s1
      match issue .cp (eHi ++ eLo) s2 with
      | .error _ => s
      | .ok t => if onLo ∧ opc lo = 0x90 then { t with cp := { t.cp with wfe := true } } else t

/-- The CP fetches and issues its next bundle: bundle `b` lies at byte address 8·b. -/
def cpIssue (s : State) : State :=
  if logicOn s then
    let pc := s.cp.regs.pc
    match cpFetch (8 * pc % 2 ^ 32) s with
    | (none, t) => t
    | (some hi, t) =>
      match cpFetch ((8 * pc + 4) % 2 ^ 32) t with
      | (none, u) => u
      | (some lo, u) => cpBundle hi lo u
  else s

/-! ## Register writes (R350–R352) -/

/-- The target of an address, whoever asks: PERI 10, KEYS 11; none for a memory or no target. -/
def regTarget (a : Nat) : Option Nat :=
  if aPeri ≤ a ∧ a < aPeri + 0x8000 then some 10
  else if aKeys ≤ a ∧ a < aKeys + 0x1000 then some 11
  else none

/-- A master has a write path to the registers of a target (Table 10.6). -/
def regPath (master t : Nat) : Bool := (t == 10 && (master == 4 || master == 7)) || (t == 11 && master == 7)

/-- The memory of Table 10.2 that holds the address, whoever asks. -/
def memTarget (s : State) (a : Nat) : Option Nat :=
  let base := if s.mem.remap then 0 else aCpram
  let brom := if s.mem.remap then aCpram else 0
  if brom ≤ a ∧ a < brom + 0x10000 then some 0
  else if base ≤ a ∧ a < base + 0x80000 then some 1
  else if a < 0x100000 then none
  else (rowOf a).map (·.1)

/-- A master has a write path to an address of target `t` (Tables 10.3, 10.6). -/
def memPath (s : State) (master t a : Nat) : Bool :=
  match master with
  | 4 => (cpPath s a).any (·.wr)
  | 5 => t == 1 || (t == 6 && decide (aStaging ≤ a))
  | 6 => t == 6 && decide (aDelayLines ≤ a ∧ a < aParam)
  | 7 => t == 1 || t == 12 || (t == 6 && decide (aCpData ≤ a))
  | 8 => t != 0
  | n => t == 2 + n || (t == 6 && (List.range 2).any (fun k => (slotOf s n k).pages.any (fun p =>
      decide (aCore + p * 4096 ≤ a ∧ a < aCore + p * 4096 + 4096))))

/-- An error of a master's beat: the CP takes a bus error. -/
def masterErr (master : Nat) (s : State) : State := if master = 4 then busErr true s else s

/-- A write beat of a master at target `t`: performed where the checks of its hop hold (R360, R365, R366), and for the CP that of its
registers. -/
def masterBeat (master t a : Nat) (put : State → State) (s : State) : State :=
  match (if master = 4 then registerUpset s .cp else none) with
  | some r => masterErr master (logRegister .cp r s)
  | none => match beatLost master t true a s with
    | some u => masterErr master u
    | none => put s

/-- REGISTER_WRITE (R350): a register without behaviour of its own keeps the value; along no path, and outside every range, the
write is discarded with an abort record (R352). Memory addresses hold no register, and the matrix has masters 0 to 8 (R346). While
PLLB is gated the write waits (R363, log entry 153). -/
def registerWrite (master a : Nat) (w : Word) (s : State) : State :=
  let lost := masterErr master (logAbort master 0xF 5 true 0 a s)
  if logicOn s ∧ master ≤ 8 ∧ pllbUnlocked s = false then
    match regTarget a with
    | some t => if regPath master t then masterBeat master t a (periWrite a w) s else lost
    | none => match memTarget s a with
      | some t => if memPath s master t a then masterBeat master t a id s else lost
      | none => lost
  else s

/-! ## The rows -/

/-- LDG (R120). -/
def execLdg (p : Pred) (rd ra : BitVec 5) (off : BitVec 10) (s : State) : Out :=
  runBus p (cpLoad rd (busAddr s ra off)) s

/-- STG (R120). -/
def execStg (p : Pred) (rd ra : BitVec 5) (off : BitVec 10) (s : State) : Out :=
  runBus p (cpStore rd (busAddr s ra off)) s

/-- LDGH (R120). -/
def execLdgh (p : Pred) (rd ra : BitVec 5) (off : BitVec 10) (s : State) : Out :=
  runBus p (cpLoadPart 16 rd (busAddr s ra off)) s

/-- STGH (R34, R120). -/
def execStgh (p : Pred) (rd ra : BitVec 5) (off : BitVec 10) (s : State) : Out :=
  runBus p (cpStorePart 16 rd (busAddr s ra off)) s

/-- LDGB (R120). -/
def execLdgb (p : Pred) (rd ra : BitVec 5) (off : BitVec 10) (s : State) : Out :=
  runBus p (cpLoadPart 8 rd (busAddr s ra off)) s

/-- STGB (R34, R120). -/
def execStgb (p : Pred) (rd ra : BitVec 5) (off : BitVec 10) (s : State) : Out :=
  runBus p (cpStorePart 8 rd (busAddr s ra off)) s

/-- LDGL (R358). -/
def execLdgl (p : Pred) (rd ra : BitVec 5) (off : BitVec 10) (s : State) : Out :=
  runBus p (cpLoadLocked rd (busAddr s ra off)) s

/-- STGU (R358). -/
def execStgu (p : Pred) (rd ra : BitVec 5) (off : BitVec 10) (s : State) : Out :=
  runBus p (cpStoreUnlock rd (busAddr s ra off)) s

/-- WFE (R120): the CP waits. What its events are no rule states; the next bundle it issues ends the wait (log entry 35). -/
def execWfe (p : Pred) (s : State) : Out := runCp p (fun s => { s with cp := { s.cp with wfe := true } }) s

/-- LOCK_TIMEOUT (R359). -/
def execLockTimeout (s : State) : Out := ev s (lockTimeout s)

/-- REGISTER_WRITE (R350). -/
def execRegisterWrite (master addr : Nat) (value : Word) (s : State) : Out := ev s (registerWrite master addr value s)

end Sys2Proof.Machine
end

