-- ==== Sys2Proof/Machine/ExecAudio.lean ====
section
/-! DEFINITION. The meanings of the matrix, millrace, output, jack, sense, flow and port rows (chapters 6 to 8). -/

namespace Sys2Proof.Machine

/-- ROUTE (R217). -/
def execRoute (a : CmdArgs) (s : State) : Out := execRow rowRoute a s

/-- GAIN (R218). -/
def execGain (a : CmdArgs) (s : State) : Out := execRow rowGain a s

/-- RAMP (R219). -/
def execRamp (a : CmdArgs) (s : State) : Out := execRow rowRamp a s

/-- WEIR (R220). -/
def execWeir (a : CmdArgs) (s : State) : Out := execRow rowWeir a s

/-- NODE_RAMP_END (R194). -/
def execNodeRampEnd (il ol : Nat) (s : State) : Out := ev s (nodeRampEnd il ol s)

/-- MR_TAP (R221). -/
def execMrTap (a : CmdArgs) (s : State) : Out := execRow rowMrTap a s

/-- MR_OUT (R222). -/
def execMrOut (a : CmdArgs) (s : State) : Out := execRow rowMrOut a s

/-- TAP_RAMP_END (R208). -/
def execTapRampEnd (what : TapRamp) (s : State) : Out := ev s (tapRampEnd what s)

/-- PANIC_CFG (R223). -/
def execPanicCfg (a : CmdArgs) (s : State) : Out := execRow rowPanicCfg (withFlag a 0 false) s

/-- PANIC_RELEASE (R216). -/
def execPanicRelease (a : CmdArgs) (s : State) : Out := execRow rowPanicCfg (withFlag a 0 true) s

/-- FLOW_BIND (R257). -/
def execFlowBind (a : CmdArgs) (s : State) : Out := execRow rowFlowBind a s

/-- FLOW_UNBIND (R258). -/
def execFlowUnbind (a : CmdArgs) (s : State) : Out := execRow rowFlowUnbind a s

/-- FLOW_SAMPLE (R235). -/
def execFlowSample (flow : Nat) (even odd : List Int) (s : State) : Out := ev s (flowSample flow even odd s)

/-- TDM_MASTER_CLOCK_START (R239). -/
def execTdmMasterClockStart (port : Nat) (s : State) : Out := ev s (tdmMasterClockStart port s)

/-- TDM_FRAME_SEND (R238). -/
def execTdmFrameSend (port : Nat) (s : State) : Out := ev s (tdmFrameSend port s)

/-- AES_CS_READ (R262). -/
def execAesCsRead (a : CmdArgs) (s : State) : Out := execRow rowAesCs (withField a 31 31 0) s

/-- AES_CS_WRITE (R262). -/
def execAesCsWrite (a : CmdArgs) (s : State) : Out := execRow rowAesCs (withField a 31 31 1) s

/-- AES3_SUBFRAME_RECEIVE (R246). -/
def execAes3SubframeReceive (rx sub : Nat) (bits : BitVec 24) (v parityOk : Bool) (s : State) : Out := ev s (aes3Subframe rx sub bits v parityOk s)

/-- AES3_BLOCK_RECEIVE (R247). -/
def execAes3BlockReceive (rx sub : Nat) (block : List Word) (s : State) : Out := ev s (aes3Block rx sub block s)

/-- AES3_Z_PREAMBLE (R248). -/
def execAes3ZPreamble (tx : Nat) (s : State) : Out := ev s (aes3Z tx s)

/-- PDM_CFG (R263). -/
def execPdmCfg (a : CmdArgs) (s : State) : Out := execRow rowPdmCfg a s

/-- PDM_CLOCK_START (R250). -/
def execPdmClockStart (clk : Nat) (s : State) : Out := ev s (pdmClockStart clk s)

/-- ASRC_TRACKER_LOCK (R253). -/
def execAsrcTrackerLock (trk : Nat) (s : State) : Out := ev s (asrcTrackerLock trk s)

/-- ASRC_REACQUIRE (R253). -/
def execAsrcReacquire (trk : Nat) (s : State) : Out := ev s (asrcReacquire trk s)

/-- ASRC_OUT_OF_RANGE (R253). -/
def execAsrcOutOfRange (trk : Nat) (s : State) : Out := ev s (asrcOutOfRange trk s)

/-- OUT_CFG (R284). -/
def execOutCfg (a : CmdArgs) (s : State) : Out := execRow rowOutCfg a s

/-- PUMP_SOFT_START_DONE (R278). -/
def execPumpSoftStartDone (pair : Nat) (s : State) : Out := ev s (pumpSoftStartDone pair s)

/-- SERVO_DONE (R278). -/
def execServoDone (dac : Nat) (trimUv : Int) (s : State) : Out := ev s (servoDone dac trimUv s)

/-- SPEAKER_UNMUTE_START (R278). -/
def execSpeakerUnmuteStart (dac : Nat) (s : State) : Out := ev s (speakerUnmuteStart dac s)

/-- UNMUTE_RAMP_END (R267). -/
def execUnmuteRampEnd (dac : Nat) (s : State) : Out := ev s (unmuteRampEnd dac s)

/-- PUMP_STOP (R273). -/
def execPumpStop (pair : Nat) (s : State) : Out := ev s (pumpStop pair s)

/-- VCM_RAMP_END (R283). -/
def execVcmRampEnd (s : State) : Out := ev s (vcmRampEnd s)

/-- CLASSG_SWITCH_HIGH (R274). -/
def execClassgSwitchHigh (pair : Nat) (s : State) : Out := ev s (classgHigh pair s)

/-- CLASSG_SWITCH_LOW (R274). -/
def execClassgSwitchLow (pair : Nat) (s : State) : Out := ev s (classgLow pair s)

/-- STARVATION_FADE_END (R271). -/
def execStarvationFadeEnd (dac : Nat) (s : State) : Out := ev s (starvationFadeEnd dac s)

/-- SPEAKER_OVERCURRENT (R281). -/
def execSpeakerOvercurrent (spk : Nat) (s : State) : Out := ev s (vcmFollow (speakerOvercurrent spk s))

/-- SPEAKER_TRIP_RESTART (R281). -/
def execSpeakerTripRestart (spk : Nat) (s : State) : Out := ev s (speakerTripRestart spk s)

/-- SPEAKER_OVERTEMP (R281). -/
def execSpeakerOvertemp (code : Nat) (s : State) : Out := ev s (speakerOvertemp code s)

/-- SPEAKER_TEMP_RECOVER (R281). -/
def execSpeakerTempRecover (code : Nat) (s : State) : Out := ev s (speakerTempRecover code s)

/-- JACK_CFG (R297). -/
def execJackCfg (a : CmdArgs) (s : State) : Out := execRow rowJackCfg (withFlag a 0 false) s

/-- JACK_UNMUTE (R297). -/
def execJackUnmute (a : CmdArgs) (s : State) : Out := execRow rowJackCfg (withFlag a 0 true) s

/-- MICBIAS (R298). -/
def execMicbias (a : CmdArgs) (s : State) : Out := execRow rowMicbias a s

/-- JACK_MUTE_AUTO_RELEASE (R294). -/
def execJackMuteAutoRelease (jack : Nat) (s : State) : Out := ev s (jackMuteAutoRelease jack s)

/-- CLASSIFICATION_START (R289). -/
def execClassificationStart (jack : Nat) (s : State) : Out := ev s (classificationStart jack s)

/-- TIP_READ (R289). -/
def execTipRead (jack code : Nat) (s : State) : Out := ev s (tipRead jack code s)

/-- MIC_READ_A (R289). -/
def execMicReadA (jack code : Nat) (s : State) : Out := ev s (micReadA jack code s)

/-- MIC_READ_B (R289). -/
def execMicReadB (jack code : Nat) (s : State) : Out := ev s (micReadB jack code s)

/-- CLASSIFICATION_TIMEOUT (R289). -/
def execClassificationTimeout (jack : Nat) (s : State) : Out := ev s (classificationTimeout jack s)

/-- SENSE_SEQ (R309). -/
def execSenseSeq (a : CmdArgs) (s : State) : Out := execRow rowSenseSeq a s

/-- SENSE_START (R310). -/
def execSenseStart (a : CmdArgs) (s : State) : Out := execRow rowSenseStart a s

/-- SENSE_NOW (R311). -/
def execSenseNow (a : CmdArgs) (s : State) : Out := execRow rowSenseNow a s

/-- SENSE_WATCH (R312). -/
def execSenseWatch (a : CmdArgs) (s : State) : Out := execRow rowSenseWatch a s

/-- SENSE_TRIG_EDGE (R302). -/
def execSenseTrigEdge (rising : Bool) (s : State) : Out := ev s (senseTrigEdge rising s)

/-- SEQUENCE_ENTRY_COMPLETE (R302). -/
def execSequenceEntryComplete (code : Nat) (s : State) : Out := ev s (sequenceEntryComplete code s)

/-- URGENT_CONVERSION_COMPLETE (R306). -/
def execUrgentConversionComplete (s : State) : Out := ev s (urgentComplete s)

end Sys2Proof.Machine
end

