-- ==== Sys2Proof/Machine/ExecClocks.lean ====
section
/-! DEFINITION. The meanings of the clock, port, power, reset and supply rows (chapters 7, 9, 11, 13 and 14). -/

namespace Sys2Proof.Machine

/-- One beat. -/
def beat (s : State) (b : Beat) : State :=
  match b with
  | .ain ch even odd => ainBeat ch even odd s
  | .pdm line edges => pdmBeat line edges s
  | .mod ch codes => modStep ch codes s
  | .dac d => dacBeat d s
  | .final d phase => if running s ∧ gridRuns s then finalStep d phase s else s
  | .aes tx => aesFrame tx s
  | .cp => cpIssue s

/-- TIMEBASE_TICK (R338): `n` periods of the present source, and what the sample clocks and the CP do at their end (log entry 145). -/
def timebaseTick (n : Nat) (beats : List Beat) (s : State) : State := beats.foldl beat (tbAdvance n s)

/-- TDM_CFG (R260). -/
def execTdmCfg (a : CmdArgs) (s : State) : Out := onNext (fun t => settle s (refFollow s t)) (execRow rowTdmCfg a s)

/-- TDM_FRAME_RECEIVE (R238). -/
def execTdmFrameReceive (port cycles rate : Nat) (slots : List Word) (s : State) : Out := ev s (refFollow s (tdmFrameReceive port cycles rate slots s))

/-- TDM_CLOCK_STOP (R255). -/
def execTdmClockStop (port : Nat) (s : State) : Out := ev s (refFollow s (tdmClockStop port s))

/-- AES_CFG (R261). -/
def execAesCfg (a : CmdArgs) (s : State) : Out := onNext (fun t => settle s (refFollow s t)) (execRow rowAesCfg a s)

/-- AES3_LOCK (R245). -/
def execAes3Lock (rx rate : Nat) (near : Bool) (s : State) : Out := ev s (refFollow s (aes3Lock rx rate near s))

/-- AES3_LOSS_OF_LOCK (R245). -/
def execAes3LossOfLock (rx : Nat) (s : State) : Out := ev s (refFollow s (aesLoss true rx s))

/-- MUTE_RAMP_END (R279). -/
def execMuteRampEnd (dac : Nat) (s : State) : Out := ev s (vcmFollow (muteRampEnd dac s))

/-- PANIC_ASSERT (R214). -/
def execPanicAssert (s : State) : Out := ev s (vcmFollow (panicAssert s))

/-- HPDET_CHANGE (R288). -/
def execHpdetChange (jack : Nat) (level : Bool) (s : State) : Out := ev s (hpdetChange jack level s)

/-- INSERTION_CONFIRMED (R288). -/
def execInsertionConfirmed (jack : Nat) (s : State) : Out := ev s (jackWake jack s (insertionConfirmed jack s))

/-- REMOVAL_CONFIRMED (R291). -/
def execRemovalConfirmed (jack : Nat) (s : State) : Out := ev s (jackWake jack s (removalConfirmed jack s))

/-- BUTTON_SAMPLE (R292). -/
def execButtonSample (jack code : Nat) (s : State) : Out := ev s (jackWake jack s (buttonSample jack code s))

/-- DETECTION_READ_REISSUE (R314). -/
def execDetectionReadReissue (jack code : Nat) (s : State) : Out := ev s (jackWake jack s (detectionReissue jack code s))

/-- WATCH_CONVERSION (R304). -/
def execWatchConversion (code : Nat) (s : State) : Out := ev s (watchConversion code s)

/-- PLL_CFG (R342). -/
def execPllCfg (a : CmdArgs) (s : State) : Out := execRow rowPllCfg a s

/-- PLL_REF (R343). -/
def execPllRef (a : CmdArgs) (s : State) : Out := execRow rowPllRef a s

/-- TIME_READ (R345). -/
def execTimeRead (a : CmdArgs) (s : State) : Out := execRow rowTimeRead a s

/-- PLL_WINDOW (R319). -/
def execPllWindow (unit count : Nat) (refPresent : Bool) (refPpm : Nat) (s : State) : Out :=
  ev s (pllWindow unit count refPresent refPpm s)

/-- REFERENCE_LOST (R324). -/
def execReferenceLost (unit : Nat) (s : State) : Out := ev s (referenceLost unit s)

/-- HOLDOVER_MUTE (R326). -/
def execHoldoverMute (s : State) : Out := ev s (holdoverMute s)

/-- HOLDOVER_RESTART (R328). -/
def execHoldoverRestart (s : State) : Out := ev s (holdoverRestart s)

/-- PLL_UNGATE (R330). -/
def execPllUngate (unit : Nat) (s : State) : Out := ev s (pllUngate unit s)

/-- FREQUENCY_GUARD_TRIP (R333). -/
def execFrequencyGuardTrip (unit : Nat) (r : GuardReading) (s : State) : Out :=
  ev s (vcmFollow (frequencyGuardTrip unit r.ratio r.count s))

/-- RELOCK_TEST_HOLD (R429). -/
def execRelockTestHold (unit : Nat) (s : State) : Out := ev s (relockTestHold unit s)

/-- XREF_READY (R387). -/
def execXrefReady (s : State) : Out := ev s (xrefReady s)

/-- XT32_OSCILLATES (R338). -/
def execXt32Oscillates (on : Bool) (s : State) : Out := ev s (xt32Oscillates on s)

/-- TIMEBASE_TICK (R338). -/
def execTimebaseTick (t : Tick) (s : State) : Out := ev s (timebaseTick t.periods t.beats s)

/-- AON_CALIBRATION (R339). -/
def execAonCalibration (xtPs rcPs : Nat) (s : State) : Out := ev s (aonCalibration xtPs rcPs s)

/-- AON_TEMP_SAMPLE (R339). -/
def execAonTempSample (code : Nat) (s : State) : Out := ev s (aonTempSample code s)

/-- SLEEP (R373). -/
def execSleep (a : CmdArgs) (s : State) : Out := execRow rowSleep (withFlag a 0 false) s

/-- SLEEP_CANCEL (R375). -/
def execSleepCancel (a : CmdArgs) (s : State) : Out := execRow rowSleep (withFlag a 0 true) s

/-- SLEEP_QUERY (R377). -/
def execSleepQuery (s : State) : Out := ev s (sleepQuery s)

/-- AGENT_ACCEPT (R377). -/
def execAgentAccept (agent : Nat) (s : State) : Out := ev s (agentAccept agent s)

/-- DELAY_EXPIRED (R380). -/
def execDelayExpired (agent : Nat) (s : State) : Out := ev s (delayExpired agent s)

/-- SLEEP_COMMIT (R379). -/
def execSleepCommit (s : State) : Out := ev s (sleepCommit s)

/-- WAKE_PIN (R373). -/
def execWakePin (s : State) : Out := ev s (wakePin s)

/-- SLEEP_TIMER (R373). -/
def execSleepTimer (s : State) : Out := ev s (sleepTimer s)

/-- DVDD_POWER_GOOD (R384). -/
def execDvddPowerGood (s : State) : Out := ev s (dvddPowerGood s)

/-- WAKE_STEP_TIMEOUT (R387). -/
def execWakeStepTimeout (s : State) : Out := ev s (wakeStepTimeout s)

/-- WAKE_RETRY (R387). -/
def execWakeRetry (s : State) : Out := ev s (wakeRetry s)

/-- RETURN_TO_RUN (R385). -/
def execReturnToRun (s : State) : Out := ev s (returnToRun s)

/-- AUDIO_RESTART (R385). -/
def execAudioRestart (s : State) : Out := ev s (audioRestart s)

/-- PADS_RELEASE (R386). -/
def execPadsRelease (a : CmdArgs) (s : State) : Out := execRow rowPadsRelease a s

/-- FIRMWARE_READY (R392). -/
def execFirmwareReady (s : State) : Out := ev s (firmwareReady s)

/-- RESET_CORE (R391). -/
def execResetCore (a : CmdArgs) (s : State) : Out := execRow rowResetCore a s

/-- WDT_CFG (R393). -/
def execWdtCfg (a : CmdArgs) (s : State) : Out := execRow rowWdtCfg a s

/-- WATCHDOG_EXPIRY (R393). -/
def execWatchdogExpiry (s : State) : Out := ev s (watchdogExpiry s)

/-- PIN_RESET (R390). -/
def execPinReset (s : State) : Out := ev s (pinReset s)

/-- BROWN_OUT (R390). -/
def execBrownOut (s : State) : Out := ev s (brownOut s)

/-- POWER_ON_RESET (R390). -/
def execPowerOnReset (s : State) : Out := ev s (powerOnReset s)

/-- VAON_LOSS (R469). -/
def execVaonLoss (s : State) : Out := ev s (vaonLoss s)

/-- HPVDD_LOCKOUT (R469). -/
def execHpvddLockout (s : State) : Out := ev s (vcmFollow (hpvddLockout s))

/-- HPVDD_RECOVER (R469). -/
def execHpvddRecover (s : State) : Out := ev s (hpvddRecover s)

/-- SPKVDD_LOCKOUT (R469). -/
def execSpkvddLockout (s : State) : Out := ev s (vcmFollow (spkvddLockout s))

/-- SPKVDD_RECOVER (R469). -/
def execSpkvddRecover (s : State) : Out := ev s (spkvddRecover s)

/-- IOVDD_A_LOSS (R469). -/
def execIovddALoss (s : State) : Out := ev s (iovddALoss s)

/-- IOVDD_A_RETURN (R469). -/
def execIovddAReturn (s : State) : Out := ev s (iovddAReturn s)

/-- IOVDD_H_LOSS (R469). -/
def execIovddHLoss (s : State) : Out := ev s (iovddH false s)

/-- IOVDD_H_RETURN (R469). -/
def execIovddHReturn (s : State) : Out := ev s (iovddH true s)

/-- AVS_CFG (R394). -/
def execAvsCfg (a : CmdArgs) (s : State) : Out := execRow rowAvsCfg a s

/-- AVS_STEP (R447). -/
def execAvsStep (s : State) : Out := ev s (avsStep s)

/-- AVS_VERIFY (R447). -/
def execAvsVerify (readMv : Option Nat) (s : State) : Out := ev s (avsVerify readMv s)

/-- PLANNER_RUN (R446). -/
def execPlannerRun (meas : PlannerMeas) (s : State) : Out := ev s (plannerRun meas s)

/-- MARGIN_READ (R452). -/
def execMarginRead (a : CmdArgs) (s : State) : Out := execRow rowMarginRead a s

end Sys2Proof.Machine
end

