-- ==== Sys2Proof/Machine/ExecCores.lean ====
section
/-! DEFINITION. The meanings of the stream-core command and event rows (chapter 3). -/

namespace Sys2Proof.Machine

/-- CORE_BIND (R115). -/
def execCoreBind (a : CmdArgs) (s : State) : Out := execRow rowCoreBind a s

/-- CORE_PARAM (R117). -/
def execCoreParam (a : CmdArgs) (s : State) : Out := execRow rowCoreParam a s

/-- CORE_READ (R118). -/
def execCoreRead (a : CmdArgs) (s : State) : Out := execRow rowCoreRead a s

/-- CORE_FRAME_COMPUTE (R105). -/
def execCoreFrameCompute (core : Fin 4) (s : State) : Out := ev s (coreFrameCompute core s)

/-- FRAME_PRESENTATION (R105). -/
def execFramePresentation (core : Fin 4) (s : State) : Out := ev s (framePresentation core.val s)

/-- CORE_MEMORY_CLEAR_DONE (R103). -/
def execCoreMemoryClearDone (core : Fin 4) (s : State) : Out := ev s (coreClearDone core.val s)

/-- CODE_FETCH_ERROR (R109). -/
def execCodeFetchError (core : Fin 4) (s : State) : Out := ev s (codeFetchError core.val s)

end Sys2Proof.Machine
end

