-- ==== Sys2Proof/Machine/Sessions.lean ====
section
/-! DEFINITION. Host sessions, debug unlock and the TAP (R413–R418). -/

namespace Sys2Proof.Machine

/-! ## Sessions (R414–R416) -/

/-- The shared secret with a public key; no rule states it for a key that is no point of the curve (free, log entry 2). -/
def sharedSecret (d : Nat) (key : List Word) (s : State) : List Byte × State :=
  let q := keyOf key
  if onCurve q.1 q.2 then (ecdh d key, s)
  else
    let (ws, s1) := drawWords 8 s
    (wordsBytes ws, s1)

/-- The host certificate is refused (R414): it is no certificate of TYPE HOST, has no rights, or fails R404. In BLANK the
issuer's slot is not checked. -/
def hostCertBad (s : State) (c : List Word) : Bool :=
  c.getD 0 0 != 0x504B4345 || fld (c.getD 1 0) 31 24 != 1 || fld (c.getD 1 0) 2 0 == 0
    || !(if s.sec.otp.lifecycle = .blank then certSigOk c else certOk s c)

/-- The session that follows (R414, R415), with the 40 result words. -/
def openSession (c qh nh : List Word) (s : State) : Ans :=
  let (d, s1) := drawScalar s
  let (nd, s2) := drbgWords 8 s1
  let qd := publicKey d
  let (sig, s3) := if keysOn s then attestSign (wordsBytes (qh ++ nh ++ qd ++ nd)) s2 else (List.replicate 16 0, s2)
  let (z, s4) := sharedSecret d qh s3
  let k := kdf z "PK-SESSION" (wordsBytes (nh ++ nd)) 512
  yes { s4 with sec := { s4.sec with
      session := some ⟨BitVec.ofNat 3 (fld (c.getD 1 0) 2 0), k.take 32, (k.drop 32).take 32, 0, 0⟩ } }
    (qd ++ nd ++ sig)

/-- The words of OTP that SESSION.OPEN reads (Table 12.1): SECRET, DEVICE_ID, the root keys with KEY_SET and KEY_REVOKED, and LIFECYCLE. SAFE
mode serves it, so it may meet a word of which both copies are lost: a read by SEC that fails (Table 10.13). -/
def sessionWords : List Nat := List.range 0x0A ++ (List.range 0x22).map (0x10 + ·)

def bodySessionOpen (a : CmdArgs) (s : State) : Ans :=
  let c := a.ops.take 68
  let qh := (a.ops.drop 68).take 16
  let nh := (a.ops.drop 84).take 8
  let sig := (a.ops.drop 92).take 16
  checks s
    [ (resv (c.getD 1 0) 0xFF000007, .unsupported),
      (hostCertBad s c || !ecdsaOk ((c.drop 4).take 16) (sha256 (wordsBytes (qh ++ nh ++ [Config.deviceId.1, Config.deviceId.2]))) sig, .refused),
      (s.sec.drbgFail || sessionWords.any (otpLost s), .fault) ]
    (openSession c qh nh s)

def rowSessionOpen : CmdRow :=
  { op := 0xB0, count := countIs 108, maxRes := fun _ _ => 40
    body := fun a s => secAns (bodySessionOpen a s) s }

def bodySessionClose (_a : CmdArgs) (s : State) : Ans := yes { s with sec := { s.sec with session := none } }

def rowSessionClose : CmdRow := { op := 0xB1, pK := true, count := countIs 0, body := bodySessionClose }

/-! ## Debug (R418) -/

def bodyDebugChal (_a : CmdArgs) (s : State) : Ans :=
  checks s [(s.sec.drbgFail, .fault)]
    (let (ws, s1) := drbgWords 8 s
     yes { s1 with sec := { s1.sec with chal := some (ws, now s) } } ws)

def rowDebugChal : CmdRow :=
  { op := 0xB5, pK := true, count := countIs 0, maxRes := fun _ _ => 8
    body := fun a s => secAns (bodyDebugChal a s) s }

/-- The challenge held, while its 60 s last. -/
def chalNow (s : State) : Option (List Word) :=
  match s.sec.chal with
  | some (c, t) => if since s t ≤ 60 * sec1 then some c else none
  | none => none

def bodyDebugResp (a : CmdArgs) (s : State) : Ans :=
  let key := a.ops.take 16
  let scope := a.ops.getD 16 0
  let sig := (a.ops.drop 17).take 16
  let good := match chalNow s with
    | some c => keyTrusted s key && ecdsaOk key (sha256 (wordsBytes (c ++ [Config.deviceId.1, Config.deviceId.2] ++ [scope]))) sig && !anySeal s
    | none => false
  checks s
    [(resv scope 7, .unsupported), (s.sec.otp.lifecycle == .blank, .lifecycle), (!good, .refused)]
    (yes { s with sec := { s.sec with debug := scope.setWidth 3, chal := none } })

def rowDebugResp : CmdRow := { op := 0xB6, pK := true, count := countIs 33, body := fun a s => secAns (bodyDebugResp a s) s }

/-- DEBUG_CHALLENGE_EXPIRY (R418): 60 s have passed. -/
def challengeExpiry (s : State) : State :=
  match s.sec.chal with
  | some (_, t) => if 60 * sec1 ≤ since s t then { s with sec := { s.sec with chal := none } } else s
  | none => s

/-! ## The TAP (R417) -/

/-- A TAP instruction is loaded and its data register captured, while JTAG is served: in reset, REST and HIBERNATE the TAP is held in
reset (Tables 11.7, 14.4), and without IOVDD_A its pins are dead (Table 14.8). Until it is unlocked an internal debug instruction reads as BYPASS (R417), so it is the row JTAG_BYPASS. -/
def tap (j : Jtag) (tdo : Word) (s : State) : State :=
  if logicOn s ∧ s.power.iovddA then { s with pins := { s.pins with jtag := j, tdo := tdo } } else s

/-- SAMPLE/PRELOAD: the boundary register takes what is shifted in; what it captured of the pins, and its layout, no rule
gives (free, log entry 2). -/
def tapSample (boundary : Word) (s : State) : State :=
  let (w, s1) := drawWord s
  if logicOn s ∧ s.power.iovddA then { s1 with pins := ⟨.sample, boundary, w⟩ } else s

/-- EXTEST: the boundary register drives the pads. -/
def tapExtest (s : State) : State :=
  let (w, s1) := drawWord s
  if logicOn s ∧ s.power.iovddA then { s1 with pins := { s1.pins with jtag := .extest, tdo := w } } else s

end Sys2Proof.Machine
end

