-- ==== Sys2Proof/Machine/Images.lean ====
section
/-! DEFINITION. Fregon images, boot and SAFE mode (R407–R412, R467). -/

namespace Sys2Proof.Machine

/-! ## Admission (Tables 12.5, 12.6) -/

/-- An image as the words of its slot: the header, then the body and the trailer. -/
abbrev Img := List Word

def Img.w (m : Img) (i : Nat) : Word := m.getD i 0
def Img.firmware (m : Img) : Bool := fld (m.w 2) 31 24 == 1
def Img.enc (m : Img) : Bool := bit (m.w 2) 16
def Img.bodyWords (m : Img) : Nat := (m.w 3).toNat / 4
def Img.header (m : Img) : List Word := m.take 64
def Img.body (m : Img) : List Word := (m.drop 64).take m.bodyWords
def Img.tag (m : Img) : List Word := if m.enc then (m.drop (64 + m.bodyWords)).take 4 else []
def Img.sig (m : Img) : List Word := (m.drop (64 + m.bodyWords + (if m.enc then 4 else 0))).take 16
def Img.signer (m : Img) : List Word := (m.drop 28).take 16
def Img.eph (m : Img) : List Word := (m.drop 44).take 16

/-- Bytes the image takes. -/
def Img.size (m : Img) : Nat := 256 + (m.w 3).toNat + (if m.enc then 16 else 0) + 64

/-- Step 1: an unknown value or a reserved bit. -/
def Img.badForm (m : Img) : Bool :=
  m.w 0 != 0x46524547 || m.w 1 != 1 || resv (m.w 2) 0xFF010300 || !(fld (m.w 2) 31 24 == 1 || fld (m.w 2) 31 24 == 2)
    || resv (m.w 5) 0x3FF || resv (m.w 8) 0xF || m.w 9 != 0 || m.w 63 != 0
    || (List.range 8).any (fun k => resv (m.w (13 + 2 * k)) 0xFF)

/-- Step 1: a length, the ARB value or NCOMPAT outside its limits. -/
def Img.badLength (m : Img) (room : Nat) : Bool :=
  let n := (m.w 3).toNat
  let code := (m.w 10).toNat
  let coef := (m.w 11).toNat
  n % 4 != 0
    || (if m.firmware then decide (n < 4) || decide (523952 < n) || code != 0 || coef != 0
        else code % 16 != 0 || coef % 4 != 0 || code + coef != n)
    || decide (64 < fld (m.w 5) 7 0) || fld (m.w 8) 3 0 == 0 || decide (8 < fld (m.w 8) 3 0) || decide (room < m.size)

/-- Step 3: SIG over the header, the body as stored and the tag. -/
def Img.signed (m : Img) : Bool :=
  ecdsaOk m.signer (sha256 (wordsBytes (m.header ++ m.body ++ m.tag))) m.sig

/-- Step 6: ROM API and one compatibility entry that names this silicon, and firmware 0 or the running one. -/
def Img.declared (m : Img) (fw : Word) : Bool :=
  decide ((m.w 6).toNat ≤ 0x00010000) && decide (0x00010000 ≤ (m.w 7).toNat)
    && (List.range (min 8 (fld (m.w 8) 3 0))).any (fun k =>
      m.w (12 + 2 * k) == (if m.firmware then 0 else fw) && m.w (13 + 2 * k) == 0xA1)

/-- The key of an encrypted body (R407). -/
def imageKey (m : Img) (s : State) : List Byte × State :=
  let (z, s1) := sharedSecret encryptKey m.eph s
  (kdf z "PK-IMAGE" deviceIdBytes 256, s1)

/-- The GCM IV of an image: W60–W62. -/
def Img.iv (m : Img) : List Byte := wordsBytes ((m.drop 60).take 3)

/-- The outcome of an admission: the step that failed (0: none), its status, and the body in clear. -/
structure Admission where
  step : Nat
  st : Status
  body : List Word

/-- The first step that fails, with its status (Table 12.6); `room` is the size of the staging area or flash slot. -/
def admitImage (m : Img) (room : Nat) (s : State) : Admission × State :=
  let (key, s1) := imageKey m s
  let slot := fld (m.w 2) 9 8
  let lc := s.sec.otp.lifecycle
  let bad (n : Nat) (c : Status) : Admission × State := (⟨n, c, []⟩, s)
  if m.badForm then bad 1 .unsupported
  else if m.badLength room then bad 1 .range
  else if lc = .blank then bad 2 .lifecycle
  else if keyInSlot s m.signer slot = false then bad 2 .refused
  else if m.signed = false then bad 3 .refused
  else if fld (m.w 5) 7 0 < tget 0 s.sec.otp.arb (fld (m.w 5) 9 8) then bad 4 .refused
  else if m.enc ∧ lc = .rma then bad 5 .lifecycle
  else if m.enc ∧ gcmTag key m.iv (wordsBytes m.header) (wordsBytes m.body) ≠ wordsBytes m.tag then bad 5 .refused
  else if m.declared s.power.fwVersion = false then bad 6 .untestedCombination
  else if m.enc then (⟨0, .ok, bytesWords (gcmText key m.iv (wordsBytes m.body))⟩, s1)
  else (⟨0, .ok, m.body⟩, s)

/-! ## SAFE mode (R412) -/

/-- Admitted firmware starts (R348, R410): the body is in CPRAM, REMAP is set, BOOT reads RUN, and the planner is due
(R445). -/
def startFirmware (version : Word) (body : List Word) (s : State) : State :=
  let s := waitPoint 1 s
  let m := (s.mem.clearRange aCpram 0x20000).setWords aCpram 0 body
  raiseIrq irqBootDone { s with
    mem := { m with remap := true }
    cp := {}
    power := { s.power with boot := .run, fwVersion := version, safeCause := 0 }
    margin := { s.margin with running := true } }

/-! ## IMAGE.LOAD and IMAGE.EXEC (R409, R410) -/

/-- An IMAGE.EXEC runs. -/
def execRuns (s : State) : Bool := s.deferred.job == some .imageExec

/-- IMAGE.LOAD: HDMA writes the staging area. A beat that fails its parity is discarded, and the command reports FAULT (R366). -/
def bodyImageLoad (a : CmdArgs) (s : State) : Ans :=
  let w := opnd a 0
  let n := a.ops.length - 1
  let off := fld w 18 0
  checks s
    [ (resv w 0x7FFFF, .unsupported), (off % 4 != 0 || decide (524288 < off + 4 * n), .range), (execRuns s, .busy) ]
    (let last := aStaging + off + 4 * (n - 1)
     let s := waitLock (fun p => p == sramPoint (aStaging + off) || p == sramPoint last) s
     match beatUpset 5 s with
     | some (e, t) => no .fault (logAbort 5 6 (errCause e) true 0 (aStaging + off) { t with sec := { t.sec with verified := false } })
     | none =>
       yes { s with mem := s.mem.setWords (aStaging + off) 0 (a.ops.drop 1), sec := { s.sec with verified := false } })

def rowImageLoad : CmdRow :=
  { op := 0xA0, pC := fun _ => true, count := fun a => decide (2 ≤ a.ops.length ∧ a.ops.length ≤ 1023), body := bodyImageLoad }

/-- The staged image says FIRMWARE. -/
def stagedFirmware (s : State) : Bool := fld (staged s 2) 31 24 == 1

def bodyImageExec (_a : CmdArgs) (s : State) : Ans :=
  checks s [(stagedFirmware s && s.power.boot == .run, .unsupported)]
    (let s1 := startJob 0xA1 .imageExec s
     yes (if stagedFirmware s ∧ (s.power.boot = .romWait ∨ s.power.boot = .safe) then
            { s1 with power := { s1.power with bootPrev := s.power.boot, boot := .verify } }
          else s1))

def rowImageExec : CmdRow :=
  { op := 0xA1, pD := fun _ => true, pC := fun _ => true, count := countIs 0, body := bodyImageExec }

/-- The staged image, as far as its header says it goes. -/
def stagedImage (s : State) : Img :=
  stagedWords s 0 (min 131072 (64 + (staged s 3).toNat / 4 + 20))

/-- The first word of it that does not decode (R366). -/
def stagedLost (s : State) : Option Nat :=
  (s.mem.bad.filter (fun a => decide (aStaging ≤ a))).find? (fun a => decide (a < aStaging + (stagedImage s).size))

/-- BOOT returns to what it was before VERIFY (R410). -/
def bootBack (s : State) : State :=
  if s.power.boot = .verify then { s with power := { s.power with boot := s.power.bootPrev } } else s

/-- IMAGE_EXEC_COMPLETE (R408, R410): admission of the staged image ends. A decrypted body replaces the ciphertext in place. SEC
waits for a lock of the staging area's banks or of CPRAM (R358), and for the clock of the matrix (R363). -/
def imageExecComplete (s : State) : State :=
  if execRuns s ∧ logicOn s ∧ pllbUnlocked s = false then
    let s := waitLock (fun p => p == 1 || p == sramPoint aStaging || p == sramPoint (aSramEnd - 4)) s
    match beatUpset 7 s with
    | some (e, t) => finishJob .fault (logAbort 7 6 (errCause e) false 0 aStaging (bootBack t))
    | none =>
    if otpAnyLost s then finishJob .fault (bootBack s) else
    match stagedLost s with
    | some a => finishJob .fault (logRow 2 a { (bootBack s) with mem := { s.mem with bad := s.mem.bad.filter (· != a) } })
    | none =>
      let m := stagedImage s
      let (r, s1) := admitImage m 524288 s
      if r.st = .ok then
        let s2 := { s1 with mem := s1.mem.setWords (aStaging + 256) 0 r.body }
        if m.firmware then finishJob .ok (startFirmware (m.w 4) r.body s2)
        else finishJob .ok { s2 with sec := { s2.sec with verified := true } }
      else if m.firmware ∧ r.step = 6 then finishJob r.st (enterSafe 1 r.st s1)
      else finishJob r.st (bootBack s1)
  else s

/-! ## Boot (R411, R459, R467, Table 12.7) -/

/-- BOOT_START (R318, R390, R459, R467): once a mute ramp has ended, the straps are sampled; with TMODE high the device stays in
reset. The boot ROM runs, and the VCM node begins its ramp. -/
def bootStart (st : Straps) (s : State) : State :=
  if s.power.st = .reset ∧ s.power.straps.tmode = false ∧ muting s = false then
    let s1 := { s with power := { s.power with straps := st } }
    if st.tmode then s1 else vcmRamp .rampUp (bootRom { s1 with power := { s1.power with st := .run } })
  else s

/-- The words of a flash slot, as far as the header says the image goes. -/
def flashImage (ws : List Word) : Img := ws.take (64 + (ws.getD 3 0).toNat / 4 + 20)

/-- An entry for a flash slot that failed (Table 13.4). -/
def slotFailed (slot : Nat) (r : Admission) (s : State) : State :=
  logFault 0x0D slot (toWord (slot + r.step * 256)) (toWord r.st.code) s

/-- A slot is tried: its admission, as the boot ROM runs only firmware (log entry 37). A beat of SEC that fails its check ends it with
FAULT (R360). -/
def trySlot (m : Option Img) (s : State) : Option Admission × State :=
  match m with
  | none => (none, s)
  | some m =>
    match beatUpset 7 s with
    | some (e, t) => (some ⟨1, .fault, []⟩, logAbort 7 1 (errCause e) false 0 aCpram t)
    | none =>
      let (r, s1) := admitImage m 0x100000 s
      (some (if r.st = .ok ∧ m.firmware = false then ⟨1, .unsupported, []⟩ else r), s1)

/-- The entry when no flash answers: what it says of the step and the status no rule gives (free, log entry 2). -/
def noFlash (s : State) : State :=
  let (k, s1) := drawIn 1 6 s
  let (c, s2) := drawWord s1
  logFault 0x0D 0 (toWord (k.toNat * 256)) c s2

/-- The logic has power for the boot ROM: in RUN, or in a wake from HIBERNATE whose DVDD has come. -/
def romRuns (s : State) : Bool :=
  logicOn s || (s.power.st == .hibernate && (match s.power.waking with | some .xref | some .pll | some .done => true | _ => false))

/-- FLASH_BOOT (R411, Table 12.7): the boot ROM has read both slots; none: no flash answers. -/
def flashBoot (slotA slotB : Option (List Word)) (s : State) : State :=
  if s.power.boot = .verify ∧ execRuns s = false ∧ romRuns s ∧ pllbUnlocked s = false then
    let a := slotA.map flashImage
    let b := slotB.map flashImage
    let va := match a with | some m => (m.w 4).toNat | none => 0
    let vb := match b with | some m => (m.w 4).toNat | none => 0
    let bFirst := a.isNone || (b.isSome && decide (va < vb))
    let i1 := if bFirst then 1 else 0
    let m1 := if bFirst then b else a
    let m2 := if bFirst then a else b
    let (r1, s1) := trySlot m1 s
    match m1, r1 with
    | some m, some x =>
      if x.st = .ok then startFirmware (m.w 4) x.body s1
      else
        let s2 := slotFailed i1 x s1
        let (r2, s3) := trySlot m2 s2
        (match m2, r2 with
         | some n, some y =>
           if y.st = .ok then startFirmware (n.w 4) y.body s3
           else bothFail (x.step == 6 || y.step == 6) (slotFailed (1 - i1) y s3)
         | _, _ => bothFail (x.step == 6) s3)
    | _, _ => bothFail false (noFlash s1)
  else s
where
  bothFail (untested : Bool) (s : State) : State :=
    if untested then enterSafe 1 .untestedCombination s
    else raiseIrq irqSecurity { s with power := { s.power with boot := .romWait } }

end Sys2Proof.Machine
end

