-- ==== Sys2Proof/Machine/SealCmds.lean ====
section
/-! DEFINITION. Sealed capture: opening, signing, closing and reading seals (R406, R423–R426). -/

namespace Sys2Proof.Machine

/-- SEAL.OPEN may not name the flow at all (R423). -/
def sealRange (s : State) (w : Word) : Bool :=
  let f := fld w 7 0
  let q := (active s).flow f
  decide (127 < f) || decide (2 ≤ fld w 9 8) || (fld w 9 8 == 1 && !tdmSealEn (tdm s (fld w 13 12)).cfg)
    || (q.kind == 1 && q.rel != 0)

/-- The reason SEAL.OPEN is refused (R423). -/
def sealRefusal (s : State) (f : Nat) : Option Word :=
  let q := (active s).flow f
  if q.bound = false ∨ q.sealBit = false then some 1
  else if (List.range 8).any (fun k => (sealOf s k).isOpen && (sealOf s k).flow == f) then some 2
  else if openSeals s = 8 then some 3
  else if s.sec.debug ≠ 0 then some 4
  else none

/-- The lowest seal ID that is not open (DESIGN CHOICE, log entry 156). -/
def freeSeal (s : State) : Nat := ((List.range 8).find? (fun k => !(sealOf s k).isOpen)).getD 0

def bodySealOpen (a : CmdArgs) (s : State) : Ans :=
  let w := opnd a 0
  let f := fld w 7 0
  checks s
    [ (resv w 0x33FF, .unsupported), (sealRange s w, .range),
      (s.sec.otp.lifecycle == .blank || s.sec.otp.lifecycle == .rma, .lifecycle) ]
    (match sealRefusal s f with
     | some r => ⟨.refused, s, [r]⟩
     | none =>
       if s.sec.drbgFail then no .fault s
       else
         let k := freeSeal s
         yes (onSealSt k (fun _ => { isOpen := true, dest := BitVec.ofNat 2 (fld w 9 8), port := fld w 13 12, flow := f }) s)
           [toWord k])

def rowSealOpen : CmdRow := 
  { op := 0xC0, count := countIs 1, maxRes := fun _ _ => 1, body := fun a s => secAns (bodySealOpen a s) s }

/-- W0–W16 of the OPEN record (Table 12.8). -/
def openWords (sid : Nat) (nonce : List Word) (s : State) : List Word :=
  let f := (sealOf s sid).flow
  let q := (active s).flow f
  [recordHead 1 sid 33, 0, toWord (q.laneRate * 2 ^ 20 + f), q.w0] ++ [Config.deviceId.1, Config.deviceId.2] ++ nonce
    ++ words2 (now s) ++ [toWord (uncertainty s)] ++ words2 (flowRun s f).seq
    ++ [s.power.fwVersion, toWord (s.sets.epoch % 65536)]

/-- Hashing starts: the OPEN record is queued and H_0 is fixed (R420, R423). -/
def sealBegin (sid : Nat) (s : State) : State :=
  let (nonce, s1) := drbgWords 4 s
  let ws := openWords sid nonce s
  let (sig, s2) := attestSign (wordsBytes ws) s1
  let s3 := onSealSt sid (fun e => { e with started := true, head := sha256 (wordsBytes ws) }) s2
  if sealRoom s3 < 33 then sealOverflow sid s3
  else pushRecord sid (ws ++ sig) (onSealSt sid (fun e => { e with recs := 1 }) s3)

/-- A frame boundary of the sealed flow's lane rate. -/
def sealFrame (s : State) (sid : Nat) : Bool := atFrame s ((active s).flow (sealOf s sid).flow).lane

/-- SEAL_START (R423): the next frame boundary of the flow's lane rate. -/
def sealStart (sid : Nat) (s : State) : State :=
  let e := sealOf s sid
  if e.isOpen ∧ e.started = false ∧ e.closeDue = none ∧ audioRuns s ∧ sealFrame s sid then sealBegin sid s else s

/-- The SIGN record that follows every 16th block (R422), where one is due: it covers the blocks that have ended. -/
def signDue (sid : Nat) (s : State) : State :=
  let e := sealOf s sid
  if e.signDue then
    let s0 := onSealSt sid (fun e => { e with signDue := false }) s
    if sealRoom s < 27 then sealOverflow sid s0
    else
      let ws := [recordHead 3 sid 27, toWord e.recs, toWord e.blocks] ++ bytesWords e.head
      let (sig, s1) := attestSign (wordsBytes ws) s0
      pushRecord sid (ws ++ sig) (onSealSt sid (fun e => { e with recs := e.recs + 1 }) s1)
  else s

/-- SEAL_SIGN_RECORD (R422). While PLLB is gated SEC queues nothing (R363, log entry 153). -/
def sealSignRecord (sid : Nat) (s0 : State) : State :=
  if pllbUnlocked s0 = false then
    let s := sealCheck sid s0
    if (sealOf s sid).isOpen ∧ (sealOf s sid).closeDue = none then signDue sid s else s
  else s0

/-- SEAL.CLOSE (R424). Its CLOSE record needs a random value, so it reports FAULT once the DRBG has stopped (R406). -/
def bodySealClose (a : CmdArgs) (s : State) : Ans :=
  let w := opnd a 0
  checks s [(resv w 7, .unsupported), (!(sealOf s w.toNat).isOpen, .refused), (s.sec.drbgFail, .fault)]
    (yes (startJob 0xC1 (.sealClose w.toNat) s))

def rowSealClose : CmdRow := { op := 0xC1, pD := fun _ => true, count := countIs 1, body := bodySealClose }

/-- A SEAL.CLOSE of the seal runs. -/
def closing (s : State) (sid : Nat) : Bool := s.deferred.job == some (.sealClose sid)

/-- The last block of a SEAL.CLOSE may end: at a frame boundary of the flow's lane rate, or with no sample on its way. -/
def closeReady (s : State) (sid : Nat) : Bool :=
  closing s sid && (!(sealOf s sid).started || !(flowRun s (sealOf s sid).flow).running || !audioRuns s || sealFrame s sid)

/-- SEAL_CLOSE_RECORD (R422, R424, Table 12.9): the last block has ended, a SIGN record that is due precedes the CLOSE record, which is signed
and queued from the seal's reserve, and SEAL.CLOSE reports OK; it reports FAULT where a beat of SEC fails (Table 10.13) or the DRBG has
stopped (R406). A close with FAULT writes an entry. While PLLB is gated SEC queues nothing (R363, log entry 153). -/
def sealCloseRecord (sid : Nat) (s : State) : State :=
  let e0 := sealOf s sid
  if e0.isOpen ∧ (e0.closeDue.isSome ∨ closeReady s sid) ∧ pllbUnlocked s = false then
    let s0 := sealCheck sid s
    let s1 := signDue sid (blockEnd sid (if e0.started then s0 else sealBegin sid s0))
    let e := sealOf s1 sid
    let r := e.closeDue.getD 0
    let ws := [recordHead 4 sid 28, toWord e.recs, toWord e.blocks, toWord r] ++ bytesWords e.head
    let (sig, s2) := attestSign (wordsBytes ws) s1
    let s3 := onSealSt sid (fun e => { e with isOpen := false, started := false, signDue := false, closeDue := none })
      (pushRecord sid (ws ++ sig) s2)
    let s4 := if r = 2 then logFault 0x0E 0 (toWord sid) 0 s3 else s3
    if closing s sid then finishJob (if (beatUpset 7 s).isSome ∨ s.sec.drbgFail then .fault else .ok) s4 else s4
  else s

/-- The host's records from the front of the queue that fit in `n` words, and the rest. -/
def takeRecords : Nat → List SealRec → List Word × List SealRec
  | _, [] => ([], [])
  | n, r :: rs =>
    if r.dest = 0 then
      if r.words.length ≤ n then
        let (ws, q) := takeRecords (n - r.words.length) rs
        (r.words ++ ws, q)
      else ([], r :: rs)
    else
      let (ws, q) := takeRecords n rs
      (ws, r :: q)

def bodySealRead (a : CmdArgs) (s : State) : Ans :=
  let w := opnd a 0
  checks s [(resv w 0x3FF, .unsupported), (w == 0, .range)]
    (let (ws, q) := takeRecords w.toNat s.seals.queue
     yes { s with seals := { s.seals with queue := q } } ws)

def rowSealRead : CmdRow :=
  { op := 0xC2, count := countIs 1, maxRes := fun a _ => fld (opnd a 0) 9 0, body := bodySealRead }

/-- DRBG_HEALTH_FAIL (R406): the DRBG stops, an entry is written, and every open seal closes with FAULT. -/
def drbgHealthFail (test : Nat) (s : State) : State :=
  if logicOn s ∧ s.sec.drbgFail = false then
    let s1 := { s with
      sec := { s.sec with drbgFail := true }
      seals := { s.seals with seals := s.seals.seals.map (fun x =>
        (x.1, if x.2.isOpen then { x.2 with closeDue := x.2.closeDue.orElse (fun _ => some 2) } else x.2)) } }
    logFault 0x0E 0 (toWord test) 0 s1
  else s

end Sys2Proof.Machine
end

