-- ==== Sys2Proof/Machine/Host.lean ====
section
/-! DEFINITION. The host port (R43–R53), the system commands (R64), and the execution of a packet (R54–R59). -/

namespace Sys2Proof.Machine

/-! ## System commands (R64) -/

def rowNop : CmdRow := { op := 0x00, pC := fun _ => true, count := countIs 0, body := fun _ s => yes s }

/-- ST_DEVICE_ID, ST_REVISION, ST_FW_VERSION and the ROM API version of revision A1. -/
def rowDevInfo : CmdRow :=
  { op := 0x01, pC := fun _ => true, count := countIs 0, maxRes := fun _ _ => 4
    body := fun _ s => yes s [0x00003234, 0x000000A1, s.power.fwVersion, 0x00010000] }

/-- IRQ.MASK writes ST_IRQ_MASK; EN_WAKE_FAULT stays 1 (Table 2.13). -/
def rowIrqMask : CmdRow :=
  { op := 0x04, pC := fun _ => true, count := countIs 1
    body := fun a s => checks s [(resv (opnd a 0) 0x3FFFF, .unsupported)]
      (yes { s with irq := { s.irq with mask := setBit (opnd a 0) 10 true } }) }

/-! ## The opcode table (R62, Table 2.7) -/

/-- A port command whose change may take PLLA's reference away (R324). -/
def followed (r : CmdRow) : CmdRow :=
  { r with body := fun a s => let x := r.body a s; { x with s := refFollow s x.s } }

/-- The row of an opcode; none where Table 2.7 has none. -/
def rowAt (op : Nat) : Option CmdRow :=
  match op with
  | 0x00 => some rowNop | 0x01 => some rowDevInfo | 0x02 => some rowResetSoft | 0x03 => some rowResetCore
  | 0x04 => some rowIrqMask | 0x05 => some rowWdtCfg
  | 0x10 => some rowSwap | 0x11 => some rowSync | 0x12 => some rowSetCopy | 0x13 => some rowSetRead
  | 0x20 => some rowRefOn | 0x21 => some rowRefOff | 0x22 => some rowFeMode | 0x23 => some rowFeGain
  | 0x24 => some rowFePair | 0x25 => some rowCalZ | 0x26 => some rowCalF | 0x27 => some rowCalExport
  | 0x28 => some rowCalImport | 0x29 => some rowCalFactory
  | 0x30 => some rowFltPreset | 0x31 => some rowFirWrite | 0x32 => some rowFirSel | 0x33 => some rowFirFade
  | 0x34 => some rowDetCfg | 0x35 => some rowDetRead
  | 0x40 => some rowRoute | 0x41 => some rowGain | 0x42 => some rowRamp | 0x43 => some rowWeir
  | 0x44 => some rowMrTap | 0x45 => some rowMrOut | 0x46 => some rowPanicCfg
  | 0x50 => some rowFlowBind | 0x51 => some rowFlowUnbind | 0x52 => some (followed rowTdmCfg)
  | 0x53 => some (followed rowAesCfg) | 0x54 => some rowAesCs | 0x55 => some rowPdmCfg
  | 0x60 => some rowOutCfg | 0x61 => some rowJackCfg | 0x62 => some rowMicbias | 0x63 => some rowSenseSeq
  | 0x64 => some rowSenseStart | 0x65 => some rowSenseNow | 0x66 => some rowSenseWatch
  | 0x70 => some rowPllCfg | 0x71 => some rowPllRef | 0x72 => some rowTimeRead
  | 0x80 => some rowSleep | 0x81 => some rowPadsRelease | 0x82 => some rowAvsCfg
  | 0x90 => some rowCoreLoad | 0x91 => some rowCoreBind | 0x92 => some rowCoreParam | 0x93 => some rowCoreRead
  | 0xA0 => some rowImageLoad | 0xA1 => some rowImageExec
  | 0xB0 => some rowSessionOpen | 0xB1 => some rowSessionClose | 0xB2 => some rowOtpWrite | 0xB3 => some rowLifecycle
  | 0xB4 => some rowKeyRevoke | 0xB5 => some rowDebugChal | 0xB6 => some rowDebugResp
  | 0xC0 => some rowSealOpen | 0xC1 => some rowSealClose | 0xC2 => some rowSealRead | 0xC3 => some rowCertRead
  | 0xD0 => some rowFaultRead | 0xD1 => some rowSelftest | 0xD2 => some rowMarginRead | 0xD3 => some rowFaultClear
  | _ => none

/-! ## Executing a packet (R54–R58, R487) -/

/-- A command word (Table 2.4) with the operand words that follow it. -/
def cmdArgs (sess : Bool) (w : Word) (ops : List Word) : CmdArgs :=
  { session := sess, flags := BitVec.ofNat 4 (fld w 23 20), resv := BitVec.ofNat 2 (fld w 19 18), mirror := bit w 17
    imm := bit w 16, ops := ops }

/-- One command of a packet: checks 1 and 2 of R487, then its row's. -/
def runCommand (sess : Bool) (w : Word) (rest : List Word) (s : State) : Ans :=
  if rest.length < fld w 15 0 then no .range s
  else match rowAt (fld w 31 24) with
    | none => no .unsupported s
    | some r => runRow r (cmdArgs sess w (rest.take (fld w 15 0))) s

/-- What the execution of a packet leaves: the state with the response's words, whether RESET.SOFT ended it (it has no
response), and whether a session was opened in it. -/
structure Ran where
  s : State
  soft : Bool
  opened : Bool

/-- The commands of a payload, in order, up to the first status that is not OK (R55). `n` bounds their number. A command whose own
status word is the 1,025th of the response reports RANGE, and that word is added (DESIGN CHOICE, log entry 141). -/
def runCommands (sess : Bool) : Nat → List Word → Bool → State → Ran
  | 0, _, o, s => ⟨s, false, o⟩
  | _ + 1, [], o, s => ⟨s, false, o⟩
  | n + 1, w :: rest, o, s =>
    let x := runCommand sess w rest s
    let op := fld w 31 24
    if x.st = .ok ∧ op = 2 then ⟨x.s, true, o⟩
    else
      let s1 := { x.s with host := { x.s.host with building := s.host.building ++ ansWords op x } }
      if x.st = .ok then runCommands sess n (rest.drop (fld w 15 0)) (o || op == 0xB0) s1
      else ⟨s1, false, o⟩

/-! ## Packets (R48, Table 2.2) -/

/-- TYPE, SEQ and LENGTH of a packet. -/
def packetHead (type : Byte) (seq : BitVec 8) (n : Nat) : List Byte := [type, seq] ++ natBytes 2 n

/-- The GCM IV of a packet (R415). -/
def packetIv (direction counter : Nat) : List Byte := natBytes 4 direction ++ natBytes 8 counter

/-- A packet without a tag. -/
def plainPacket (type : Byte) (seq : BitVec 8) (payload : List Byte) : List Byte :=
  let m := packetHead type seq payload.length ++ payload
  0xA5 :: (m ++ natBytes 2 (crc16 m))

/-- A response of type 0x82: the payload encrypted, the CRC over what is sent, and the tag (R415). -/
def sealedPacket (x : Session) (seq : BitVec 8) (payload : List Byte) : List Byte :=
  let h := packetHead 0x82 seq payload.length
  let iv := packetIv 2 x.cDh
  let c := gcmText x.kDh iv payload
  0xA5 :: (h ++ c ++ natBytes 2 (crc16 (h ++ c)) ++ gcmTag x.kDh iv h c)

/-- A response under the session in force, or none, and that session with its counter advanced. -/
def makeResponse (x : Option Session) (seq : BitVec 8) (ws : List Word) : List Byte × Option Session :=
  match x with
  | none => (plainPacket 0x02 seq (wordsBytes ws), none)
  | some x => (sealedPacket x seq (wordsBytes ws), some { x with cDh := x.cDh + 1 })

/-- Queue a packet-level response (R51, R52). -/
def packetLevel (seq : BitVec 8) (c : Status) (s : State) : State :=
  let (p, x) := makeResponse s.sec.session seq [statusWord 0xFF c 0]
  { s with host := { s.host with responses := s.host.responses ++ [p] }, sec := { s.sec with session := x } }

/-! ## WRITE_PKT (R49–R51, Table 2.3) -/

/-- The host port is powered and served: the logic runs and IOVDD_H is in range (R45, Table 14.8). -/
def hostOn (s : State) : Bool := logicOn s && s.power.iovddH

/-- The I²C address of the host port: 0b01110, GPIO15, GPIO14 (R43). -/
def hostAddr (s : State) : BitVec 7 :=
  0b0111000 ||| BitVec.ofNat 7 (2 * b2n s.power.straps.gpio15 + b2n s.power.straps.gpio14)

/-- The host port takes part in the transaction: always on SPI, at its own address on I²C (R43). -/
def addressed (x : Xfer) (s : State) : Bool := hostOn s && (!s.power.straps.i2c || x.addr == hostAddr s)

/-- The device's bytes of one transaction: on SPI 0x00 while the host sends its `w` bytes, then `r` bytes, which are those
the manual defines and 0x00 after them (R44). -/
def sendBytes (w r : Nat) (defined : List Byte) (s : State) : State :=
  { s with host := { s.host with
    bytesOut := List.replicate (if s.power.straps.i2c then 0 else w) 0 ++ (defined ++ List.replicate (r - defined.length) 0).take r } }

/-- A transaction with code `code` runs `f`; one with another code is ignored, and one to another address is not this
device's (R43, R44). -/
def transaction (x : Xfer) (code : Byte) (w r : Nat) (f : State → State) (s : State) : State :=
  if addressed x s = false then s else if x.code = code then f s else sendBytes w r [] s

/-- The bytes from the first 0xA5 on. -/
def fromSync (bs : List Byte) : List Byte := bs.dropWhile (fun b => b != 0xA5)

/-- The tag of a session packet verifies under a counter value. -/
def tagOk (x : Session) (counter : Nat) (p : List Byte) (n : Nat) : Bool :=
  gcmTag x.kHd (packetIv 1 counter) ((p.drop 1).take 4) ((p.drop 5).take n) == (p.drop (7 + n)).take 16

/-- NOT_AUTHENTICATED at packet level (Table 2.3, test 6): type 0x02, no counter, SECURITY; the failure is counted. -/
def notAuthenticated (seq : BitVec 8) (s : State) : State :=
  raiseIrq irqSecurity { s with
    host := { s.host with responses := s.host.responses ++ [plainPacket 0x02 seq (wordsBytes [statusWord 0xFF .notAuthenticated 0])] }
    sec := { s.sec with tagFails := min 255 (s.sec.tagFails + 1) } }

/-- The stored response is sent again; none is held until the packet has been executed. -/
def resend (s : State) : State :=
  match s.host.stored with
  | some r => { s with host := { s.host with responses := s.host.responses ++ [r] } }
  | none => s

/-- Acceptance (R50): the expected number advances, SEQ_FREE clears, and the watchdog restarts under SRC (R393). -/
def acceptPacket (sess : Bool) (seq : BitVec 8) (ws : List Word) (s : State) : State :=
  let s1 := { s with host := { s.host with
    expSeq := seq + 1, seqFree := false, lastSeq := some seq, accepted := s.host.accepted ++ [⟨sess, seq, ws⟩], stored := none } }
  if wdtHost s1 then wdtKick s1 else s1

/-- Tests 7 to 9 of Table 2.3. -/
def bySeq (sess : Bool) (seq : BitVec 8) (ws : List Word) (s : State) : State :=
  if s.host.seqFree ∨ seq = s.host.expSeq then
    let x := if sess then s.sec.session.map (fun x => { x with cHd := x.cHd + 1 }) else s.sec.session
    acceptPacket sess seq ws { s with sec := { s.sec with session := x } }
  else if some seq = s.host.lastSeq then resend s
  else packetLevel seq .seqError s

/-- A packet whose CRC is right (Table 2.3, tests 5 to 9). -/
def checkedPacket (p : List Byte) (n : Nat) (s : State) : State :=
  let type := p.getD 1 0
  let seq := p.getD 2 0
  let payload := (p.drop 5).take n
  if type ≠ 0x01 ∧ type ≠ 0x81 then packetLevel seq .unsupported s
  else if type = 0x01 then bySeq false seq (bytesWords payload) s
  else match s.sec.session with
    | none => notAuthenticated seq s
    | some x =>
      if tagOk x x.cHd p n then bySeq true seq (bytesWords (gcmText x.kHd (packetIv 1 x.cHd) payload)) s
      else if some seq = s.host.lastSeq ∧ 0 < x.cHd ∧ tagOk x (x.cHd - 1) p n then resend s
      else notAuthenticated seq s

/-- HDMA's access to a packet buffer in CPRAM fails its parity (R360, R366); where the buffer lies no rule says (free, log entry 2). -/
def packetBeat (e : BeatErr) (write : Bool) (s : State) : State :=
  let (a, s1) := drawWord s
  logAbort 5 1 (errCause e) write 0 a.toNat s1

/-- The bytes of a packet reach its buffer: whether a beat was discarded (Table 10.13), and the state. -/
def packetStored (s : State) : Bool × State :=
  let s := waitPoint 1 s
  match beatUpset 5 s with
  | some (e, t) => (false, packetBeat e true t)
  | none => (true, s)

/-- One packet from its sync byte (Table 2.3). A packet that passes its CRC is the host's wake event (Table 11.3). A packet of which a
beat is discarded, or that is cut short, fails its CRC (R361, Table 10.9; log entry 191). -/
def packetIn (p : List Byte) (s0 : State) : State :=
  let (stored, s) := packetStored s0
  let n := bytesNat ((p.drop 3).take 2)
  let seq := if p.length < 3 then s.host.expSeq else p.getD 2 0
  let tagged := (p.getD 1 0).getLsbD 7
  let whole := 7 + n + (if tagged then 16 else 0)
  if 4 ≤ unread s then { s with host := { s.host with drops := min 255 (s.host.drops + 1) } }
  else if 5 ≤ p.length ∧ (4096 < n ∨ n % 4 ≠ 0) then packetLevel seq .range s
  else if p.length < 5 ∨ p.length < whole then packetLevel seq .badCrc (cutShort [⟨5, 1, true⟩, ⟨5, 6, true⟩] s)
  else if stored = false ∨ crc16 ((p.drop 1).take (4 + n)) ≠ bytesNat ((p.drop (5 + n)).take 2) then
    packetLevel seq .badCrc s
  else wakeEvent 4 (checkedPacket p n s)

/-- The packet of a WRITE_PKT; a transaction without a 0xA5 carries none (R49). -/
def packetOf (bytes : List Byte) (s : State) : State :=
  if (fromSync bytes).isEmpty then s else packetIn (fromSync bytes) s

/-- WRITE_PKT, code 0x5A (R49): 0x00 throughout on SPI, and the packet the bytes carry. -/
def writePkt (x : Xfer) (bytes : List Byte) (s : State) : State :=
  transaction x 0x5A (1 + bytes.length) 0 (fun s => packetOf bytes (sendBytes (1 + bytes.length) 0 [] s)) s

/-- The oldest unread response leaves the queue once `n` bytes are the whole of it (R47). -/
def responseSent (n : Nat) (l : List (List Byte)) : List (List Byte) :=
  match l with
  | [] => []
  | r :: rs => if r.length ≤ n then rs else r :: rs

/-- A response whose CRC bytes are inverted: the host sees a mismatch. -/
def crcInverted (p : List Byte) : List Byte :=
  let n := bytesNat ((p.drop 3).take 2)
  p.take (5 + n) ++ ((p.drop (5 + n)).take 2).map (fun b => ~~~b) ++ p.drop (7 + n)

/-- HDMA reads the oldest unread response: a beat that fails its parity inverts the CRC, as it does for READ_ST (Table 10.13; log entry
191). -/
def responseRead (s : State) : List Byte × State :=
  match s.host.responses with
  | [] => ([], s)
  | p :: _ =>
    let s := waitPoint 1 s
    match beatUpset 5 s with
    | some (e, t) => (crcInverted p, packetBeat e false t)
    | none => (p, s)

/-- A read transaction that ends before its `all` bytes have passed interrupts what HDMA reads at target `t` (R361, Table 10.9). -/
def readCut (t n all : Nat) (s : State) : State := if n < all then cutShort [⟨5, t, false⟩] s else s

/-- READ_PKT, code 0x5B, with `n` bytes read (R47): the oldest unread response, or 0x00 on every byte. -/
def readPkt (x : Xfer) (n : Nat) (s : State) : State :=
  transaction x 0x5B 2 n (fun s0 =>
    let (p, s) := responseRead s0
    let s1 := readCut 1 n p.length (sendBytes 2 n p s)
    { s1 with host := { s1.host with responses := responseSent n s1.host.responses } }) s

/-- Offset and count of a READ_ST (R45). -/
abbrev rangeRead (offset n : Nat) : Prop := offset % 4 = 0 ∧ 1 ≤ n ∧ n ≤ 64 ∧ offset + 4 * n ≤ 4096

/-- The data bytes of a READ_ST (R45, R46). -/
def readData (offset n : Nat) (s : State) : List Byte :=
  if rangeRead offset n then wordsBytes (winWords s (offset / 4) n) else List.replicate (4 * (n % 256)) 0

/-- HDMA's read of the status window fails: at the PERI bridge, by its address or its data, or on the way back (R360, R365). -/
def statusError (s : State) : Option (BeatErr × State) :=
  if upset s .status then some (.data, dropUpset .status s) else beatUpset 5 s

/-- The abort record of that read. -/
def statusLost (offset : Nat) (s : State) : State :=
  match statusError s with
  | some (e, t) => logAbort 5 10 (errCause e) false 0 (aPeri + 0x1000 + offset) t
  | none => s

/-- The CRC of a READ_ST; a parity error of HDMA's read inverts it (R366, Table 10.13). -/
def readCrc (offset n : Nat) (s : State) : Nat :=
  if (statusError s).isSome then 0xFFFF - crc16 (readData offset n s) else crc16 (readData offset n s)

/-- A READ_ST that reads `m` bytes is complete: on SPI nCS rises after the CRC's last bit, on I²C the host NACKs the
CRC's last byte (R46). -/
def readWhole (n m : Nat) (s : State) : Bool :=
  if s.power.straps.i2c then m == 4 * n + 2 else decide (4 * n + 2 ≤ m)

/-- READ_ST, code 0x5C, with `m` bytes read (R45, R46): the words with their CRC, and after a complete transaction the RC
fields cleared. -/
def readSt (x : Xfer) (offset n m : Nat) (s : State) : State :=
  transaction x 0x5C 5 m (fun s =>
    let s1 := sendBytes 5 m (readData offset n s ++ natBytes 2 (readCrc offset n s)) (statusLost offset s)
    let s1 := if rangeRead offset n then readCut 10 m (4 * n + 2) s1 else s1
    if readWhole n m s ∧ rangeRead offset n then winClears (offset / 4) n s1 else s1) s

/-! ## PACKET_EXECUTE (R55, R59) -/

/-- The packet is held for the return to RUN (R382). -/
def packetHeld (s : State) : Bool :=
  (s.power.st == .doze || s.power.st == .nap) && s.power.wakeMask.getLsbD 4

/-- The response is queued and stored. -/
def queueResponse (p : List Byte) (s : State) : State :=
  { s with host := { s.host with responses := s.host.responses ++ [p], stored := some p, building := [] } }

/-- The oldest accepted packet runs, and its response is queued: type 0x82 in a session that was open before it, with that
session's keys where the packet closed it, and 0x02 for a packet that opened one (R51, R414–R416). -/
def packetExecute (s : State) : State :=
  match s.host.accepted with
  | [] => s
  | p :: ps =>
    if cpServes s = false ∨ packetHeld s then s
    else
      let s0 := { s with host := { s.host with accepted := ps, building := [] } }
      let r := runCommands p.sess p.words.length p.words false s0
      if r.soft then r.s
      else if r.opened then queueResponse (makeResponse none p.seq r.s.host.building).1 r.s
      else
        match r.s.sec.session with
        | some _ =>
          let (m, x) := makeResponse r.s.sec.session p.seq r.s.host.building
          queueResponse m { r.s with sec := { r.s.sec with session := x } }
        | none => queueResponse (makeResponse s.sec.session p.seq r.s.host.building).1 r.s

/-! ## The rows of this file -/

/-- RESET_SOFT (R392): it has no response, so the row leaves no status word where it executes. -/
def execResetSoft (a : CmdArgs) (s : State) : Out :=
  if cpServes s then
    let s0 := { s with host := { s.host with building := [] } }
    let x := runRow rowResetSoft a s0
    .next (if x.st = .ok then x.s else { x.s with host := { x.s.host with building := ansWords 2 x } })
  else .next s

end Sys2Proof.Machine
end

