-- ==== Sys2Proof/Machine/ExecHost.lean ====
section
/-! DEFINITION. The meanings of the host-port, system, image, session, debug, seal and TAP rows (chapters 2 and 12). -/

namespace Sys2Proof.Machine

/-- WRITE_PKT (R49). -/
def execWritePkt (x : HostWrite) (s : State) : Out := ev s (writePkt x.head x.bytes s)

/-- READ_PKT (R47). -/
def execReadPkt (x : HostRead) (s : State) : Out := ev s (readPkt x.head x.count s)

/-- READ_ST (R46). -/
def execReadSt (offset n : Nat) (x : HostRead) (s : State) : Out := ev s (readSt x.head offset n x.count s)

/-- PACKET_EXECUTE (R55). -/
def execPacketExecute (s : State) : Out := .next { packetExecute s with pending := s.pending }

/-- NOP (R64). -/
def execNop (a : CmdArgs) (s : State) : Out := execRow rowNop a s

/-- DEV_INFO (R64). -/
def execDevInfo (a : CmdArgs) (s : State) : Out := execRow rowDevInfo a s

/-- IRQ_MASK (R64). -/
def execIrqMask (a : CmdArgs) (s : State) : Out := execRow rowIrqMask a s

/-- IMAGE_LOAD (R409). -/
def execImageLoad (a : CmdArgs) (s : State) : Out := execRow rowImageLoad a s

/-- IMAGE_EXEC (R410). -/
def execImageExec (a : CmdArgs) (s : State) : Out := execRow rowImageExec a s

/-- IMAGE_EXEC_COMPLETE (R408). -/
def execImageExecComplete (s : State) : Out := ev s (imageExecComplete s)

/-- BOOT_START (R467). -/
def execBootStart (straps : Straps) (s : State) : Out := ev s (bootStart straps s)

/-- FLASH_BOOT (R411). -/
def execFlashBoot (slotA slotB : Option (List Word)) (s : State) : Out := ev s (flashBoot slotA slotB s)

/-- SESSION_OPEN (R414). -/
def execSessionOpen (a : CmdArgs) (s : State) : Out := execRow rowSessionOpen a s

/-- SESSION_CLOSE (R416). -/
def execSessionClose (a : CmdArgs) (s : State) : Out := execRow rowSessionClose a s

/-- DEBUG_CHAL (R418). -/
def execDebugChal (a : CmdArgs) (s : State) : Out := execRow rowDebugChal a s

/-- DEBUG_RESP (R418). -/
def execDebugResp (a : CmdArgs) (s : State) : Out := execRow rowDebugResp a s

/-- DEBUG_CHALLENGE_EXPIRY (R418). -/
def execDebugChallengeExpiry (s : State) : Out := ev s (challengeExpiry s)

/-- DRBG_HEALTH_FAIL (R406). -/
def execDrbgHealthFail (test : Nat) (s : State) : Out := ev s (drbgHealthFail test s)

/-- SEAL_OPEN (R423). -/
def execSealOpen (a : CmdArgs) (s : State) : Out := execRow rowSealOpen a s

/-- SEAL_START (R423). -/
def execSealStart (sid : Nat) (s : State) : Out := ev s (sealStart sid s)

/-- SEAL_BLOCK_END (R420). -/
def execSealBlockEnd (sid : Nat) (s : State) : Out := ev s (sealBlockEnd sid s)

/-- SEAL_SIGN_RECORD (R422). -/
def execSealSignRecord (sid : Nat) (s : State) : Out := ev s (sealSignRecord sid s)

/-- SEAL_CLOSE (R424). -/
def execSealClose (a : CmdArgs) (s : State) : Out := execRow rowSealClose a s

/-- SEAL_CLOSE_RECORD (R424). -/
def execSealCloseRecord (sid : Nat) (s : State) : Out := ev s (sealCloseRecord sid s)

/-- SEAL_READ (R425). -/
def execSealRead (a : CmdArgs) (s : State) : Out := execRow rowSealRead a s

/-- JTAG_BYPASS (R417). -/
def execJtagBypass (s : State) : Out := ev s (tap .bypass 0 s)

/-- JTAG_IDCODE (R417). -/
def execJtagIdcode (s : State) : Out := ev s (tap .idcode 0xA3234F1B s)

/-- JTAG_SAMPLE_PRELOAD (R417). -/
def execJtagSamplePreload (boundary : Word) (s : State) : Out := ev s (tapSample boundary s)

/-- JTAG_EXTEST (R417). -/
def execJtagExtest (s : State) : Out := ev s (tapExtest s)

end Sys2Proof.Machine
end

