-- ==== Sys2Proof/Machine/ExecInputs.lean ====
section
/-! DEFINITION. The meanings of the front-end and filter rows (chapters 4 and 5): each row is one call. -/

namespace Sys2Proof.Machine

/-- REF_ON (R153). -/
def execRefOn (a : CmdArgs) (s : State) : Out := execRow rowRefOn a s

/-- REF_OFF (R154). -/
def execRefOff (a : CmdArgs) (s : State) : Out := execRow rowRefOff a s

/-- REF_READY (R127). -/
def execRefReady (r : RefReading) (s : State) : Out := ev s (refReady r.bank r.tol s)

/-- CHANNEL_START (R129). -/
def execChannelStart (ch : Nat) (s : State) : Out := ev s (tapsFollow s (channelStart ch s))

/-- REF_SETTLE_LATE (R128). -/
def execRefSettleLate (bank : Nat) (s : State) : Out := ev s (refSettleLate bank s)

/-- REF_OUT_OF_TOLERANCE (R130). -/
def execRefOutOfTolerance (bank : Nat) (s : State) : Out := ev s (refOutOfTolerance bank s)

/-- BUFFER_OFF (R130). -/
def execBufferOff (bank : Nat) (s : State) : Out := ev s (tapsFollow s (bufferOff bank s))

/-- FE_MODE (R155). -/
def execFeMode (a : CmdArgs) (s : State) : Out := execRow rowFeMode a s

/-- FE_GAIN (R156). -/
def execFeGain (a : CmdArgs) (s : State) : Out := execRow rowFeGain a s

/-- FE_PAIR (R157). -/
def execFePair (a : CmdArgs) (s : State) : Out := execRow rowFePair a s

/-- GAIN_SWITCH (R142). -/
def execGainSwitch (ch : Nat) (crossing : Bool) (s : State) : Out := ev s (gainSwitch ch crossing s)

/-- OVERLOAD_TRIP (R137). -/
def execOverloadTrip (ch : Nat) (s : State) : Out := ev s (overloadTrip ch s)

/-- OVERLOAD_RELEASE (R137). -/
def execOverloadRelease (ch : Nat) (s : State) : Out := ev s (overloadRelease ch s)

/-- MODULATOR_INSTABILITY (R139). -/
def execModulatorInstability (ch : Nat) (s : State) : Out := ev s (modulatorInstability ch s)

/-- MODULATOR_RECOVERY (R139). -/
def execModulatorRecovery (ch : Nat) (s : State) : Out := ev s (modulatorRecovery ch s)

/-- NEIGHBOUR_SET_END (R140). -/
def execNeighbourSetEnd (ch : Nat) (s : State) : Out := ev s (neighbourSetEnd ch s)

/-- COEFFICIENT_MOVE_END (R152). -/
def execCoefficientMoveEnd (ch : Nat) (s : State) : Out := ev s (coefficientMoveEnd ch s)

/-- FLT_PRESET (R182). -/
def execFltPreset (a : CmdArgs) (s : State) : Out := execRow rowFltPreset a s

/-- FIR_WRITE_HDR (R183). -/
def execFirWriteHdr (a : CmdArgs) (s : State) : Out := execRow rowFirWrite (withFlag a 0 true) s

/-- FIR_WRITE (R183). -/
def execFirWrite (a : CmdArgs) (s : State) : Out := execRow rowFirWrite (withFlag a 0 false) s

/-- FIR_SEL (R184). -/
def execFirSel (a : CmdArgs) (s : State) : Out := execRow rowFirSel a s

/-- FIR_FADE (R185). -/
def execFirFade (a : CmdArgs) (s : State) : Out := execRow rowFirFade a s

/-- FADE_END (R175). -/
def execFadeEnd (ch : Nat) (s : State) : Out := ev s (fadeEnd ch s)

/-- QUEUED_FADE_START (R176). -/
def execQueuedFadeStart (ch : Nat) (s : State) : Out := ev s (queuedFadeStart ch s)

/-- DET_CFG (R187). -/
def execDetCfg (a : CmdArgs) (s : State) : Out := execRow rowDetCfg a s

/-- DET_READ (R188). -/
def execDetRead (a : CmdArgs) (s : State) : Out := execRow rowDetRead a s

/-- METER_UPDATE (R181). -/
def execMeterUpdate (s : State) : Out := ev s (meterUpdate s)

/-- DETECTOR_CAPTURE_READ (R350). -/
def execDetectorCaptureRead (det : Nat) (s : State) : Out := ev s (detCapture det s)

end Sys2Proof.Machine
end

