-- ==== Sys2Proof/Machine/ExecKeys.lean ====
section
/-! DEFINITION. The meanings of the calibration, core-load and one-time programming rows (chapters 3, 4 and 12). -/

namespace Sys2Proof.Machine

/-- CAL_Z (R146). -/
def execCalZ (a : CmdArgs) (s : State) : Out := execRow rowCalZ a s

/-- CAL_F (R147). -/
def execCalF (a : CmdArgs) (s : State) : Out := execRow rowCalF a s

/-- CAL_Z_COMPLETE (R148). -/
def execCalZComplete (meas : List CalMeas) (s : State) : Out := ev s (calZComplete meas s)

/-- CAL_F_COMPLETE (R148). -/
def execCalFComplete (meas : List CalMeas) (s : State) : Out := ev s (calFComplete meas s)

/-- CAL_EXPORT_PART0 (R159). -/
def execCalExportPart0 (a : CmdArgs) (s : State) : Out := execRow rowCalExport (withField a 3 0 0) s

/-- CAL_EXPORT_PART (R159). -/
def execCalExportPart (a : CmdArgs) (s : State) : Out := execRow rowCalExport a s

/-- CAL_IMPORT_PART (R160). -/
def execCalImportPart (a : CmdArgs) (s : State) : Out := execRow rowCalImport a s

/-- CAL_IMPORT_COMMIT (R160). -/
def execCalImportCommit (a : CmdArgs) (s : State) : Out := execRow rowCalImport (withField a 3 0 9) s

/-- CAL_FACTORY_RESTORE (R161). -/
def execCalFactoryRestore (a : CmdArgs) (s : State) : Out := execRow rowCalFactory (withField a 1 0 0) s

/-- CAL_FACTORY_PROGRAM (R161). -/
def execCalFactoryProgram (a : CmdArgs) (s : State) : Out := execRow rowCalFactory (withField a 1 0 1) s

/-- CAL_FACTORY_CLEAR (R161). -/
def execCalFactoryClear (a : CmdArgs) (s : State) : Out := execRow rowCalFactory (withField a 1 0 2) s

/-- CORE_LOAD (R114). -/
def execCoreLoad (a : CmdArgs) (s : State) : Out := execRow rowCoreLoad a s

/-- OTP_WRITE_ROOTKEY (R400). -/
def execOtpWriteRootkey (a : CmdArgs) (s : State) : Out := execRow rowOtpWrite (withField a 7 0 1) s

/-- OTP_WRITE_POLICY (R400). -/
def execOtpWritePolicy (a : CmdArgs) (s : State) : Out := execRow rowOtpWrite (withField a 7 0 2) s

/-- OTP_WRITE_XREF_FREQ (R400). -/
def execOtpWriteXrefFreq (a : CmdArgs) (s : State) : Out := execRow rowOtpWrite (withField a 7 0 3) s

/-- OTP_WRITE_CERT (R400). -/
def execOtpWriteCert (a : CmdArgs) (s : State) : Out := execRow rowOtpWrite (withField a 7 0 4) s

/-- OTP_WRITE_ARB (R400). -/
def execOtpWriteArb (a : CmdArgs) (s : State) : Out := execRow rowOtpWrite (withField a 7 0 5) s

/-- LIFECYCLE (R402). -/
def execLifecycle (a : CmdArgs) (s : State) : Out := execRow rowLifecycle a s

/-- KEY_REVOKE (R401). -/
def execKeyRevoke (a : CmdArgs) (s : State) : Out := execRow rowKeyRevoke a s

/-- CERT_READ_KEYS (R405). -/
def execCertReadKeys (a : CmdArgs) (s : State) : Out := execRow rowCertRead (withField a 0 0 0) s

/-- CERT_READ (R405). -/
def execCertRead (a : CmdArgs) (s : State) : Out := execRow rowCertRead (withField a 0 0 1) s

end Sys2Proof.Machine
end

