-- ==== Sys2Proof/Machine/ExecSets.lean ====
section
/-! DEFINITION. The meanings of the configuration-set, synchronisation and reliability rows (chapters 2, 9, 10 and 13). -/

namespace Sys2Proof.Machine

/-- SWAP (R71). -/
def execSwap (a : CmdArgs) (s : State) : Out := execRow rowSwap (withFlag a 2 false) s

/-- SWAP_CANCEL (R76). -/
def execSwapCancel (a : CmdArgs) (s : State) : Out := execRow rowSwap (withFlag a 2 true) s

/-- SWAP_TAKE_EFFECT (R75). -/
def execSwapTakeEffect (s : State) : Out := ev s (refFollow s (swapTakeEffect s))

/-- SWAP_TIMEOUT (R76). -/
def execSwapTimeout (s : State) : Out := ev s (swapTimeout s)

/-- COPY_COMPLETE (R75). -/
def execCopyComplete (s : State) : Out := ev s (copyComplete s)

/-- SET_COPY (R68). -/
def execSetCopy (a : CmdArgs) (s : State) : Out := execRow rowSetCopy a s

/-- SET_READ (R68). -/
def execSetRead (a : CmdArgs) (s : State) : Out := execRow rowSetRead a s

/-- IMMEDIATE_WRITE_APPLY (R67). -/
def execImmediateWriteApply (rate : Nat) (s : State) : Out := ev s (immediateWriteApply rate s)

/-- SYNC_CFG (R344). -/
def execSyncCfg (a : CmdArgs) (s : State) : Out := execRow rowSync (withFlag a 2 true) s

/-- SYNC_EMIT (R335). -/
def execSyncEmit (a : CmdArgs) (s : State) : Out := execRow rowSync (withFlag a 1 true) s

/-- SYNC_NOW (R334). -/
def execSyncNow (a : CmdArgs) (s : State) : Out := execRow rowSync (withFlag a 0 true) s

/-- SYNC_IN_EDGE (R335). -/
def execSyncInEdge (aligned : BitVec 6) (s : State) : Out := ev s (syncInEdge aligned s)

/-- SYNCHRONISING_RESET (R177). -/
def execSynchronisingReset (aligned : BitVec 6) (s : State) : Out := ev s (synchronisingReset aligned s)

/-- ECC_WRITEBACK (R364). -/
def execEccWriteback (addr : Nat) (s : State) : Out := ev s (eccWriteback addr s)

/-- PATROL_PASS (R367). -/
def execPatrolPass (corrected uncorrectable : List Nat) (upsets : List Upset) (s : State) : Out :=
  ev s (patrolFinds corrected uncorrectable upsets s)

/-- FAULT_READ (R438). -/
def execFaultRead (a : CmdArgs) (s : State) : Out := execRow rowFaultRead a s

/-- FAULT_CLEAR (R439). -/
def execFaultClear (a : CmdArgs) (s : State) : Out := execRow rowFaultClear a s

/-- SELFTEST_PATROL (R440). -/
def execSelftestPatrol (a : CmdArgs) (s : State) : Out := execRow rowSelftest (withField a 3 0 1) s

/-- SELFTEST_INJECT (R440). -/
def execSelftestInject (a : CmdArgs) (s : State) : Out := execRow rowSelftest (withField a 3 0 2) s

/-- SELFTEST_OFFSET (R441). -/
def execSelftestOffset (a : CmdArgs) (s : State) : Out := execRow rowSelftest (withField a 3 0 3) s

/-- SELFTEST_PLANNER (R440). -/
def execSelftestPlanner (a : CmdArgs) (s : State) : Out := execRow rowSelftest (withField a 3 0 4) s

/-- SELFTEST_COMPLETE (R440). -/
def execSelftestComplete (readings : SelftestReadings) (s : State) : Out := ev s (selftestComplete readings s)

/-- TARGETED_SELFTEST (R431). -/
def execTargetedSelftest (s : State) : Out := ev s (targetedSelftest s)

/-- TARGETED_SELFTEST_COMPLETE (R432). -/
def execTargetedSelftestComplete (reading : TestReading) (s : State) : Out := ev s (targetedComplete reading s)

end Sys2Proof.Machine
end

