-- ==== Sys2Proof/Machine/Dispatch.lean ====
section
/-! DEFINITION. exec: one direct call of a meaning for each command of the opcode table. -/

namespace Sys2Proof.Machine

/-- A command's effect on everything but the queue. -/
def exec (i : Instr) (s : State) : Host.Outcome State Fault Refusal :=
  match i with
  | .writePkt x => Sys2Proof.Machine.execWritePkt x s
  | .readPkt x => Sys2Proof.Machine.execReadPkt x s
  | .readSt offset n x => Sys2Proof.Machine.execReadSt offset n x s
  | .packetExecute => Sys2Proof.Machine.execPacketExecute s
  | .nop a => Sys2Proof.Machine.execNop a s
  | .devInfo a => Sys2Proof.Machine.execDevInfo a s
  | .irqMask a => Sys2Proof.Machine.execIrqMask a s
  | .resetSoft a => Sys2Proof.Machine.execResetSoft a s
  | .firmwareReady => Sys2Proof.Machine.execFirmwareReady s
  | .resetCore a => Sys2Proof.Machine.execResetCore a s
  | .wdtCfg a => Sys2Proof.Machine.execWdtCfg a s
  | .watchdogExpiry => Sys2Proof.Machine.execWatchdogExpiry s
  | .swap a => Sys2Proof.Machine.execSwap a s
  | .swapCancel a => Sys2Proof.Machine.execSwapCancel a s
  | .swapTakeEffect => Sys2Proof.Machine.execSwapTakeEffect s
  | .swapTimeout => Sys2Proof.Machine.execSwapTimeout s
  | .copyComplete => Sys2Proof.Machine.execCopyComplete s
  | .setCopy a => Sys2Proof.Machine.execSetCopy a s
  | .setRead a => Sys2Proof.Machine.execSetRead a s
  | .immediateWriteApply rate => Sys2Proof.Machine.execImmediateWriteApply rate s
  | .syncCfg a => Sys2Proof.Machine.execSyncCfg a s
  | .syncEmit a => Sys2Proof.Machine.execSyncEmit a s
  | .syncNow a => Sys2Proof.Machine.execSyncNow a s
  | .syncInEdge aligned => Sys2Proof.Machine.execSyncInEdge aligned s
  | .synchronisingReset aligned => Sys2Proof.Machine.execSynchronisingReset aligned s
  | .refOn a => Sys2Proof.Machine.execRefOn a s
  | .refOff a => Sys2Proof.Machine.execRefOff a s
  | .refReady r => Sys2Proof.Machine.execRefReady r s
  | .channelStart ch => Sys2Proof.Machine.execChannelStart ch s
  | .refSettleLate bank => Sys2Proof.Machine.execRefSettleLate bank s
  | .refOutOfTolerance bank => Sys2Proof.Machine.execRefOutOfTolerance bank s
  | .feMode a => Sys2Proof.Machine.execFeMode a s
  | .feGain a => Sys2Proof.Machine.execFeGain a s
  | .fePair a => Sys2Proof.Machine.execFePair a s
  | .gainSwitch ch crossing => Sys2Proof.Machine.execGainSwitch ch crossing s
  | .overloadTrip ch => Sys2Proof.Machine.execOverloadTrip ch s
  | .overloadRelease ch => Sys2Proof.Machine.execOverloadRelease ch s
  | .modulatorInstability ch => Sys2Proof.Machine.execModulatorInstability ch s
  | .modulatorRecovery ch => Sys2Proof.Machine.execModulatorRecovery ch s
  | .neighbourSetEnd ch => Sys2Proof.Machine.execNeighbourSetEnd ch s
  | .calZ a => Sys2Proof.Machine.execCalZ a s
  | .calF a => Sys2Proof.Machine.execCalF a s
  | .calZComplete meas => Sys2Proof.Machine.execCalZComplete meas s
  | .calFComplete meas => Sys2Proof.Machine.execCalFComplete meas s
  | .coefficientMoveEnd ch => Sys2Proof.Machine.execCoefficientMoveEnd ch s
  | .calExportPart0 a => Sys2Proof.Machine.execCalExportPart0 a s
  | .calExportPart a => Sys2Proof.Machine.execCalExportPart a s
  | .calImportPart a => Sys2Proof.Machine.execCalImportPart a s
  | .calImportCommit a => Sys2Proof.Machine.execCalImportCommit a s
  | .calFactoryRestore a => Sys2Proof.Machine.execCalFactoryRestore a s
  | .calFactoryProgram a => Sys2Proof.Machine.execCalFactoryProgram a s
  | .calFactoryClear a => Sys2Proof.Machine.execCalFactoryClear a s
  | .fltPreset a => Sys2Proof.Machine.execFltPreset a s
  | .firWriteHdr a => Sys2Proof.Machine.execFirWriteHdr a s
  | .firWrite a => Sys2Proof.Machine.execFirWrite a s
  | .firSel a => Sys2Proof.Machine.execFirSel a s
  | .firFade a => Sys2Proof.Machine.execFirFade a s
  | .fadeEnd ch => Sys2Proof.Machine.execFadeEnd ch s
  | .queuedFadeStart ch => Sys2Proof.Machine.execQueuedFadeStart ch s
  | .detCfg a => Sys2Proof.Machine.execDetCfg a s
  | .detRead a => Sys2Proof.Machine.execDetRead a s
  | .meterUpdate => Sys2Proof.Machine.execMeterUpdate s
  | .detectorCaptureRead det => Sys2Proof.Machine.execDetectorCaptureRead det s
  | .route a => Sys2Proof.Machine.execRoute a s
  | .gain a => Sys2Proof.Machine.execGain a s
  | .ramp a => Sys2Proof.Machine.execRamp a s
  | .weir a => Sys2Proof.Machine.execWeir a s
  | .nodeRampEnd il ol => Sys2Proof.Machine.execNodeRampEnd il ol s
  | .mrTap a => Sys2Proof.Machine.execMrTap a s
  | .mrOut a => Sys2Proof.Machine.execMrOut a s
  | .tapRampEnd what => Sys2Proof.Machine.execTapRampEnd what s
  | .panicCfg a => Sys2Proof.Machine.execPanicCfg a s
  | .panicRelease a => Sys2Proof.Machine.execPanicRelease a s
  | .panicAssert => Sys2Proof.Machine.execPanicAssert s
  | .flowBind a => Sys2Proof.Machine.execFlowBind a s
  | .flowUnbind a => Sys2Proof.Machine.execFlowUnbind a s
  | .flowSample flow even odd => Sys2Proof.Machine.execFlowSample flow even odd s
  | .tdmCfg a => Sys2Proof.Machine.execTdmCfg a s
  | .tdmMasterClockStart port => Sys2Proof.Machine.execTdmMasterClockStart port s
  | .tdmFrameReceive port cycles rate slots => Sys2Proof.Machine.execTdmFrameReceive port cycles rate slots s
  | .tdmFrameSend port => Sys2Proof.Machine.execTdmFrameSend port s
  | .tdmClockStop port => Sys2Proof.Machine.execTdmClockStop port s
  | .aesCfg a => Sys2Proof.Machine.execAesCfg a s
  | .aesCsRead a => Sys2Proof.Machine.execAesCsRead a s
  | .aesCsWrite a => Sys2Proof.Machine.execAesCsWrite a s
  | .aes3SubframeReceive rx sub bits v parityOk => Sys2Proof.Machine.execAes3SubframeReceive rx sub bits v parityOk s
  | .aes3BlockReceive rx sub block => Sys2Proof.Machine.execAes3BlockReceive rx sub block s
  | .aes3Lock rx rate near => Sys2Proof.Machine.execAes3Lock rx rate near s
  | .aes3LossOfLock rx => Sys2Proof.Machine.execAes3LossOfLock rx s
  | .aes3ZPreamble tx => Sys2Proof.Machine.execAes3ZPreamble tx s
  | .pdmCfg a => Sys2Proof.Machine.execPdmCfg a s
  | .pdmClockStart clk => Sys2Proof.Machine.execPdmClockStart clk s
  | .asrcTrackerLock trk => Sys2Proof.Machine.execAsrcTrackerLock trk s
  | .asrcReacquire trk => Sys2Proof.Machine.execAsrcReacquire trk s
  | .asrcOutOfRange trk => Sys2Proof.Machine.execAsrcOutOfRange trk s
  | .outCfg a => Sys2Proof.Machine.execOutCfg a s
  | .pumpSoftStartDone pair => Sys2Proof.Machine.execPumpSoftStartDone pair s
  | .servoDone dac trimUv => Sys2Proof.Machine.execServoDone dac trimUv s
  | .speakerUnmuteStart dac => Sys2Proof.Machine.execSpeakerUnmuteStart dac s
  | .unmuteRampEnd dac => Sys2Proof.Machine.execUnmuteRampEnd dac s
  | .muteRampEnd dac => Sys2Proof.Machine.execMuteRampEnd dac s
  | .pumpStop pair => Sys2Proof.Machine.execPumpStop pair s
  | .vcmRampEnd => Sys2Proof.Machine.execVcmRampEnd s
  | .classgSwitchHigh pair => Sys2Proof.Machine.execClassgSwitchHigh pair s
  | .classgSwitchLow pair => Sys2Proof.Machine.execClassgSwitchLow pair s
  | .speakerOvercurrent spk => Sys2Proof.Machine.execSpeakerOvercurrent spk s
  | .speakerTripRestart spk => Sys2Proof.Machine.execSpeakerTripRestart spk s
  | .speakerOvertemp code => Sys2Proof.Machine.execSpeakerOvertemp code s
  | .speakerTempRecover code => Sys2Proof.Machine.execSpeakerTempRecover code s
  | .jackCfg a => Sys2Proof.Machine.execJackCfg a s
  | .jackUnmute a => Sys2Proof.Machine.execJackUnmute a s
  | .micbias a => Sys2Proof.Machine.execMicbias a s
  | .hpdetChange jack level => Sys2Proof.Machine.execHpdetChange jack level s
  | .jackMuteAutoRelease jack => Sys2Proof.Machine.execJackMuteAutoRelease jack s
  | .insertionConfirmed jack => Sys2Proof.Machine.execInsertionConfirmed jack s
  | .removalConfirmed jack => Sys2Proof.Machine.execRemovalConfirmed jack s
  | .classificationStart jack => Sys2Proof.Machine.execClassificationStart jack s
  | .tipRead jack code => Sys2Proof.Machine.execTipRead jack code s
  | .micReadA jack code => Sys2Proof.Machine.execMicReadA jack code s
  | .micReadB jack code => Sys2Proof.Machine.execMicReadB jack code s
  | .classificationTimeout jack => Sys2Proof.Machine.execClassificationTimeout jack s
  | .detectionReadReissue jack code => Sys2Proof.Machine.execDetectionReadReissue jack code s
  | .buttonSample jack code => Sys2Proof.Machine.execButtonSample jack code s
  | .senseSeq a => Sys2Proof.Machine.execSenseSeq a s
  | .senseStart a => Sys2Proof.Machine.execSenseStart a s
  | .senseNow a => Sys2Proof.Machine.execSenseNow a s
  | .senseWatch a => Sys2Proof.Machine.execSenseWatch a s
  | .senseTrigEdge rising => Sys2Proof.Machine.execSenseTrigEdge rising s
  | .sequenceEntryComplete code => Sys2Proof.Machine.execSequenceEntryComplete code s
  | .watchConversion code => Sys2Proof.Machine.execWatchConversion code s
  | .urgentConversionComplete => Sys2Proof.Machine.execUrgentConversionComplete s
  | .pllCfg a => Sys2Proof.Machine.execPllCfg a s
  | .pllRef a => Sys2Proof.Machine.execPllRef a s
  | .timeRead a => Sys2Proof.Machine.execTimeRead a s
  | .pllWindow unit count refPresent refPpm => Sys2Proof.Machine.execPllWindow unit count refPresent refPpm s
  | .referenceLost unit => Sys2Proof.Machine.execReferenceLost unit s
  | .holdoverMute => Sys2Proof.Machine.execHoldoverMute s
  | .holdoverRestart => Sys2Proof.Machine.execHoldoverRestart s
  | .pllUngate unit => Sys2Proof.Machine.execPllUngate unit s
  | .frequencyGuardTrip unit r => Sys2Proof.Machine.execFrequencyGuardTrip unit r s
  | .xrefReady => Sys2Proof.Machine.execXrefReady s
  | .timebaseTick t => Sys2Proof.Machine.execTimebaseTick t s
  | .aonCalibration xtPs rcPs => Sys2Proof.Machine.execAonCalibration xtPs rcPs s
  | .aonTempSample code => Sys2Proof.Machine.execAonTempSample code s
  | .sleep a => Sys2Proof.Machine.execSleep a s
  | .sleepCancel a => Sys2Proof.Machine.execSleepCancel a s
  | .sleepQuery => Sys2Proof.Machine.execSleepQuery s
  | .agentAccept agent => Sys2Proof.Machine.execAgentAccept agent s
  | .delayExpired agent => Sys2Proof.Machine.execDelayExpired agent s
  | .sleepCommit => Sys2Proof.Machine.execSleepCommit s
  | .wakePin => Sys2Proof.Machine.execWakePin s
  | .sleepTimer => Sys2Proof.Machine.execSleepTimer s
  | .dvddPowerGood => Sys2Proof.Machine.execDvddPowerGood s
  | .wakeStepTimeout => Sys2Proof.Machine.execWakeStepTimeout s
  | .wakeRetry => Sys2Proof.Machine.execWakeRetry s
  | .returnToRun => Sys2Proof.Machine.execReturnToRun s
  | .audioRestart => Sys2Proof.Machine.execAudioRestart s
  | .padsRelease a => Sys2Proof.Machine.execPadsRelease a s
  | .avsCfg a => Sys2Proof.Machine.execAvsCfg a s
  | .pinReset => Sys2Proof.Machine.execPinReset s
  | .brownOut => Sys2Proof.Machine.execBrownOut s
  | .powerOnReset => Sys2Proof.Machine.execPowerOnReset s
  | .vaonLoss => Sys2Proof.Machine.execVaonLoss s
  | .bootStart straps => Sys2Proof.Machine.execBootStart straps s
  | .flashBoot slotA slotB => Sys2Proof.Machine.execFlashBoot slotA slotB s
  | .hpvddLockout => Sys2Proof.Machine.execHpvddLockout s
  | .spkvddLockout => Sys2Proof.Machine.execSpkvddLockout s
  | .spkvddRecover => Sys2Proof.Machine.execSpkvddRecover s
  | .iovddALoss => Sys2Proof.Machine.execIovddALoss s
  | .iovddHLoss => Sys2Proof.Machine.execIovddHLoss s
  | .coreLoad a => Sys2Proof.Machine.execCoreLoad a s
  | .coreBind a => Sys2Proof.Machine.execCoreBind a s
  | .coreParam a => Sys2Proof.Machine.execCoreParam a s
  | .coreRead a => Sys2Proof.Machine.execCoreRead a s
  | .coreFrameCompute core => Sys2Proof.Machine.execCoreFrameCompute core s
  | .framePresentation core => Sys2Proof.Machine.execFramePresentation core s
  | .coreMemoryClearDone core => Sys2Proof.Machine.execCoreMemoryClearDone core s
  | .codeFetchError core => Sys2Proof.Machine.execCodeFetchError core s
  | .bundleNop u => Sys2Proof.Machine.execBundleNop u s
  | .add u p rd ra rb => Sys2Proof.Machine.execAdd u p rd ra rb s
  | .adds u p rd ra rb => Sys2Proof.Machine.execAdds u p rd ra rb s
  | .sub u p rd ra rb => Sys2Proof.Machine.execSub u p rd ra rb s
  | .subs u p rd ra rb => Sys2Proof.Machine.execSubs u p rd ra rb s
  | .and u p rd ra rb => Sys2Proof.Machine.execAnd u p rd ra rb s
  | .or u p rd ra rb => Sys2Proof.Machine.execOr u p rd ra rb s
  | .xor u p rd ra rb => Sys2Proof.Machine.execXor u p rd ra rb s
  | .shl u p rd ra sh => Sys2Proof.Machine.execShl u p rd ra sh s
  | .shr u p rd ra sh => Sys2Proof.Machine.execShr u p rd ra sh s
  | .sar u p rd ra sh => Sys2Proof.Machine.execSar u p rd ra sh s
  | .shls u p rd ra sh => Sys2Proof.Machine.execShls u p rd ra sh s
  | .mulq u p rd ra rb => Sys2Proof.Machine.execMulq u p rd ra rb s
  | .min u p rd ra rb => Sys2Proof.Machine.execMin u p rd ra rb s
  | .max u p rd ra rb => Sys2Proof.Machine.execMax u p rd ra rb s
  | .abs u p rd ra => Sys2Proof.Machine.execAbs u p rd ra s
  | .sel u p rd ra rb ps => Sys2Proof.Machine.execSel u p rd ra rb ps s
  | .addi u p rd ra imm => Sys2Proof.Machine.execAddi u p rd ra imm s
  | .movl u pr rd imm => Sys2Proof.Machine.execMovl u pr rd imm s
  | .movh u pr rd imm => Sys2Proof.Machine.execMovh u pr rd imm s
  | .cmplt u p pd ra rb => Sys2Proof.Machine.execCmplt u p pd ra rb s
  | .cmple u p pd ra rb => Sys2Proof.Machine.execCmple u p pd ra rb s
  | .cmpeq u p pd ra rb => Sys2Proof.Machine.execCmpeq u p pd ra rb s
  | .tstt u p pd ra mask => Sys2Proof.Machine.execTstt u p pd ra mask s
  | .pand u p pd pa pb => Sys2Proof.Machine.execPand u p pd pa pb s
  | .por u p pd pa pb => Sys2Proof.Machine.execPor u p pd pa pb s
  | .pnot u p pd pa => Sys2Proof.Machine.execPnot u p pd pa s
  | .tags u p rd ra mask => Sys2Proof.Machine.execTags u p rd ra mask s
  | .tagc u p rd ra mask => Sys2Proof.Machine.execTagc u p rd ra mask s
  | .tagr u p rd ra => Sys2Proof.Machine.execTagr u p rd ra s
  | .tagw u p rd ra rb => Sys2Proof.Machine.execTagw u p rd ra rb s
  | .macz u p ad ra rb => Sys2Proof.Machine.execMacz u p ad ra rb s
  | .mac u p ad ra rb => Sys2Proof.Machine.execMac u p ad ra rb s
  | .msu u p ad ra rb => Sys2Proof.Machine.execMsu u p ad ra rb s
  | .accadd u p ad sa => Sys2Proof.Machine.execAccadd u p ad sa s
  | .accmv u p ad ra => Sys2Proof.Machine.execAccmv u p ad ra s
  | .accrd u p rd sa sh => Sys2Proof.Machine.execAccrd u p rd sa sh s
  | .ldw u p rd ra off => Sys2Proof.Machine.execLdw u p rd ra off s
  | .ldw2 u p rd ra off => Sys2Proof.Machine.execLdw2 u p rd ra off s
  | .stw u p rd ra off => Sys2Proof.Machine.execStw u p rd ra off s
  | .stw2 u p rd ra off => Sys2Proof.Machine.execStw2 u p rd ra off s
  | .ldp u p rd ra off => Sys2Proof.Machine.execLdp u p rd ra off s
  | .ldc u p rd ra off => Sys2Proof.Machine.execLdc u p rd ra off s
  | .ldc2 u p rd ra off => Sys2Proof.Machine.execLdc2 u p rd ra off s
  | .ldd u p rd ra off => Sys2Proof.Machine.execLdd u p rd ra off s
  | .std u p rd ra off => Sys2Proof.Machine.execStd u p rd ra off s
  | .lds u p rd rp ri imm => Sys2Proof.Machine.execLds u p rd rp ri imm s
  | .str u p rd rp ri imm => Sys2Proof.Machine.execStr u p rd rp ri imm s
  | .br u p target => Sys2Proof.Machine.execBr u p target s
  | .call u p target => Sys2Proof.Machine.execCall u p target s
  | .ret u p => Sys2Proof.Machine.execRet u p s
  | .loop u rc maxe last => Sys2Proof.Machine.execLoop u rc maxe last s
  | .loopi u count last => Sys2Proof.Machine.execLoopi u count last s
  | .fend u => Sys2Proof.Machine.execFend u s
  | .ldg p rd ra off => Sys2Proof.Machine.execLdg p rd ra off s
  | .stg p rd ra off => Sys2Proof.Machine.execStg p rd ra off s
  | .ldgh p rd ra off => Sys2Proof.Machine.execLdgh p rd ra off s
  | .stgh p rd ra off => Sys2Proof.Machine.execStgh p rd ra off s
  | .ldgb p rd ra off => Sys2Proof.Machine.execLdgb p rd ra off s
  | .stgb p rd ra off => Sys2Proof.Machine.execStgb p rd ra off s
  | .ldgl p rd ra off => Sys2Proof.Machine.execLdgl p rd ra off s
  | .stgu p rd ra off => Sys2Proof.Machine.execStgu p rd ra off s
  | .wfe p => Sys2Proof.Machine.execWfe p s
  | .lockTimeout => Sys2Proof.Machine.execLockTimeout s
  | .registerWrite master addr value => Sys2Proof.Machine.execRegisterWrite master addr value s
  | .eccWriteback addr => Sys2Proof.Machine.execEccWriteback addr s
  | .patrolPass corrected uncorrectable upsets => Sys2Proof.Machine.execPatrolPass corrected uncorrectable upsets s
  | .imageLoad a => Sys2Proof.Machine.execImageLoad a s
  | .imageExec a => Sys2Proof.Machine.execImageExec a s
  | .imageExecComplete => Sys2Proof.Machine.execImageExecComplete s
  | .sessionOpen a => Sys2Proof.Machine.execSessionOpen a s
  | .sessionClose a => Sys2Proof.Machine.execSessionClose a s
  | .otpWriteRootkey a => Sys2Proof.Machine.execOtpWriteRootkey a s
  | .otpWritePolicy a => Sys2Proof.Machine.execOtpWritePolicy a s
  | .otpWriteXrefFreq a => Sys2Proof.Machine.execOtpWriteXrefFreq a s
  | .otpWriteCert a => Sys2Proof.Machine.execOtpWriteCert a s
  | .otpWriteArb a => Sys2Proof.Machine.execOtpWriteArb a s
  | .lifecycle a => Sys2Proof.Machine.execLifecycle a s
  | .keyRevoke a => Sys2Proof.Machine.execKeyRevoke a s
  | .certReadKeys a => Sys2Proof.Machine.execCertReadKeys a s
  | .certRead a => Sys2Proof.Machine.execCertRead a s
  | .debugChal a => Sys2Proof.Machine.execDebugChal a s
  | .debugResp a => Sys2Proof.Machine.execDebugResp a s
  | .debugChallengeExpiry => Sys2Proof.Machine.execDebugChallengeExpiry s
  | .drbgHealthFail test => Sys2Proof.Machine.execDrbgHealthFail test s
  | .sealOpen a => Sys2Proof.Machine.execSealOpen a s
  | .sealStart sid => Sys2Proof.Machine.execSealStart sid s
  | .sealBlockEnd sid => Sys2Proof.Machine.execSealBlockEnd sid s
  | .sealSignRecord sid => Sys2Proof.Machine.execSealSignRecord sid s
  | .sealClose a => Sys2Proof.Machine.execSealClose a s
  | .sealCloseRecord sid => Sys2Proof.Machine.execSealCloseRecord sid s
  | .sealRead a => Sys2Proof.Machine.execSealRead a s
  | .faultRead a => Sys2Proof.Machine.execFaultRead a s
  | .faultClear a => Sys2Proof.Machine.execFaultClear a s
  | .marginRead a => Sys2Proof.Machine.execMarginRead a s
  | .selftestPatrol a => Sys2Proof.Machine.execSelftestPatrol a s
  | .selftestInject a => Sys2Proof.Machine.execSelftestInject a s
  | .selftestOffset a => Sys2Proof.Machine.execSelftestOffset a s
  | .selftestPlanner a => Sys2Proof.Machine.execSelftestPlanner a s
  | .selftestComplete readings => Sys2Proof.Machine.execSelftestComplete readings s
  | .targetedSelftest => Sys2Proof.Machine.execTargetedSelftest s
  | .targetedSelftestComplete reading => Sys2Proof.Machine.execTargetedSelftestComplete reading s
  | .relockTestHold unit => Sys2Proof.Machine.execRelockTestHold unit s
  | .plannerRun meas => Sys2Proof.Machine.execPlannerRun meas s
  | .avsStep => Sys2Proof.Machine.execAvsStep s
  | .avsVerify readMv => Sys2Proof.Machine.execAvsVerify readMv s
  | .jtagBypass => Sys2Proof.Machine.execJtagBypass s
  | .jtagIdcode => Sys2Proof.Machine.execJtagIdcode s
  | .jtagSamplePreload boundary => Sys2Proof.Machine.execJtagSamplePreload boundary s
  | .jtagExtest => Sys2Proof.Machine.execJtagExtest s
  | .hpvddRecover => Sys2Proof.Machine.execHpvddRecover s
  | .iovddAReturn => Sys2Proof.Machine.execIovddAReturn s
  | .iovddHReturn => Sys2Proof.Machine.execIovddHReturn s
  | .starvationFadeEnd dac => Sys2Proof.Machine.execStarvationFadeEnd dac s
  | .bufferOff bank => Sys2Proof.Machine.execBufferOff bank s
  | .xt32Oscillates on => Sys2Proof.Machine.execXt32Oscillates on s

end Sys2Proof.Machine
end

