-- ==== Sys2Proof/Safety.lean ====
section
/-! DEFINITION. What counts as a safe run: a command completes, OTP is consistent and only moves forward, and the tables of
State are in canonical form. -/

namespace Sys2Proof.Machine

/-- The command answers a next state. -/
def completes (i : Instr) (s : State) : Prop := ∃ t, exec i s = .next t

/-- OTP is consistent (Tables 12.1 to 12.3, R401, R402): a revoked slot is programmed, no anti-rollback counter exceeds its
64 fuses, MAKER and later have a programmed slot, and FIELD has its certificate. -/
def OtpSound (o : Otp) : Prop :=
  o.keyRevoked &&& ~~~o.keySet = 0 ∧ (∀ n, tget 0 o.arb n ≤ 64)
    ∧ (o.lifecycle ≠ .blank → o.keySet ≠ 0) ∧ (o.lifecycle = .field → o.certSet = true)

/-- OTP only moves forward (R398–R402): no programmed or revoked bit clears, no counter falls, the policy does not open
again, the lifecycle does not go back, and an item once programmed keeps its words. -/
def OtpForward (o p : Otp) : Prop :=
  o.keySet &&& ~~~p.keySet = 0 ∧ o.keyRevoked &&& ~~~p.keyRevoked = 0 ∧ (o.policy = true → p.policy = true)
    ∧ (o.certSet = true → p.certSet = true) ∧ (o.factorySet = true → p.factorySet = true)
    ∧ (∀ n, tget 0 o.arb n ≤ tget 0 p.arb n) ∧ o.lifecycle.rank ≤ p.lifecycle.rank
    ∧ (∀ k < 4, o.keySet.getLsbD k = true → tget [] p.rootkeys k = tget [] o.rootkeys k)
    ∧ (o.xrefFreq ≠ 0 → p.xrefFreq = o.xrefFreq) ∧ (o.certSet = true → p.cert = o.cert)
    ∧ (o.factorySet = true → p.facCh = o.facCh ∧ p.facPair = o.facPair)

/-- The CP executes the command in its present condition: power and firmware serve it, and every check of R487 that precedes
the command's own passes. -/
abbrev Admitted (r : CmdRow) (a : CmdArgs) (s : State) : Prop :=
  cpServes s = true ∧ ∀ c ∈ commonChecks r a s, c.1 = false

/-- The machine as a command finds it: its packet's response is empty so far (log entry 11). -/
def fresh (s : State) : State := { s with host := { s.host with building := [] } }

/-- The machine `t` after a command has answered: its status word with its result words (R57). -/
def answered (op : Nat) (st : Status) (res : List Word) (t : State) : State :=
  { t with host := { t.host with building := statusWord op st res.length :: res } }

/-- The words of SHADOW that hold what the command names decode again, as it writes them (R366). -/
abbrev shadowReads (op : Nat) (a : CmdArgs) (s : State) : State :=
  { s with mem := s.mem.unmark (holdsItem (!s.sets.selB) op a.ops) }

/-- An IMMEDIATE write is placed for a boundary of `rate`: ACTIVE stands, and SHADOW too without MIRROR (R67). -/
def PlacedAs (op : Nat) (a : CmdArgs) (rate : Option Nat) (s t : State) : Prop :=
  t.sets.placed = s.sets.placed ++ [⟨op, a.ops, rate⟩] ∧ active t = active s ∧ (a.mirror = false → shadow t = shadow s) ∧
  t = { s with sets := t.sets, mem := t.mem } ∧
  (op = 0x92 ∨ t.mem = { s.mem with bad := t.mem.bad } ∧ (a.mirror = false → t.mem = s.mem))

/-- A running flow with nothing in its way: samples move, its start is over, no mark is due, no mute holds, no word fails its check,
and no lock keeps FDMA from the lanes (R232, R326, R358, R366, R385). -/
abbrev FlowPlain (s : State) (f : Nat) : Prop :=
  (flowRun s f).running = true ∧ audioRuns s = true ∧ (flowRun s f).startLeft = 0 ∧ (flowRun s f).cutNext = false ∧
  s.power.padsHeld = false ∧ gHeld s = false ∧ s.mem.upsets = [] ∧ s.cp.lock = none

/-- The sample an egress flow reads in its period: its input lane's present sample where it is direct, else the output lane's next
one (R190, R231). -/
def laneGives (s : State) (q : Quad) : Sample :=
  if q.direct then tget ⟨0, 0⟩ s.mtx.laneIn q.lane else (matrixSample q.lane (rateHz q.laneRate) s).1

/-! ## What a bundle of one syllable leaves (R92, R94, R96) -/

/-- The registers when the next bundle is due: no jump, loops repeat or end (R96). -/
def nextBundle (r : Regs) : Regs :=
  { r with pc := (fallThrough r.calls.length r.pc r.loops).1, loops := (fallThrough r.calls.length r.pc r.loops).2 }

/-- Only the unit's registers changed; a CP that issues a bundle does not wait for an event any more. -/
def RegsDone (u : Site) (s t : State) : Prop :=
  t = { s with cores := { s.cores with core := t.cores.core }, cp := t.cp } ∧
  match u with
  | .sc n => t.cp = s.cp ∧ core t n.val = { core s n.val with regs := regs t u } ∧ ∀ k ≠ n.val, core t k = core s k
  | .cp => t.cp = { s.cp with regs := regs t u, wfe := false } ∧ ∀ k, core t k = core s k

/-- The syllable completes: the unit's registers take `f` and the next bundle is due; nothing else changes. -/
def BundleGives (i : Instr) (u : Site) (f : Regs → Regs) (s : State) : Prop :=
  ∃ t, exec i s = .next t ∧ regs t u = nextBundle (f (regs s u)) ∧ RegsDone u s t

/-- A core's bundle is done: core `n` takes `f`, memory is `m`, the next bundle is due, and nothing else changes. -/
def CoreDone (n : Fin 4) (f : Core → Core) (m : Memory) (s t : State) : Prop :=
  core t n.val = { f (core s n.val) with regs := nextBundle (core s n.val).regs } ∧ (∀ k ≠ n.val, core t k = core s k) ∧
  t = { s with mem := m, cores := { s.cores with core := t.cores.core } }

/-- A general register takes a value and a tag; g0 discards them. -/
def withG (rd : BitVec 5) (v : Word) (t : BitVec 4) (r : Regs) : Regs :=
  if rd = 0 then r else { r with g := tput dReg r.g rd.toNat ⟨v, t⟩ }

/-- An accumulator takes a value and its tag bits. -/
def withA (ad : BitVec 3) (v : BitVec 72) (t : BitVec 3) (r : Regs) : Regs :=
  { r with a := tput dAcc r.a ad.toNat ⟨v, t⟩ }

/-- A predicate takes a value; p0 discards it. -/
def withP (pd : BitVec 3) (b : Bool) (r : Regs) : Regs :=
  if pd = 0 then r else { r with p := tput false r.p pd.toNat b }

/-! ## Sleep entry and wake (R375, R384) -/

/-- A sleep entry is undone (Table 11.6): back in RUN with the agent and reason of ST_POWER, SLEEP ends REFUSED with CMD_DONE, and
a VCM node that was going down goes up again; only outputs may start. -/
def EntryUndone (agent reason : BitVec 4) (s t : State) : Prop :=
  t.power = { s.power with st := .run, entry := none, agent := agent, reason := reason } ∧
  t.deferred = { s.deferred with status := 8, job := none } ∧ bit t.irq.pend irqCmdDone = true ∧
  (s.outs.vcm = .rampDown ∨ s.outs.vcm = .zero → t.outs.vcm = .rampUp ∧ t.outs.vcmAt = now s) ∧
  (s.outs.vcm = .on ∨ s.outs.vcm = .rampUp → t.outs.vcm = s.outs.vcm ∧ t.outs.vcmAt = s.outs.vcmAt) ∧
  t = { s with power := t.power, deferred := t.deferred, irq := { s.irq with pend := t.irq.pend }, outs := t.outs }

/-- A wake starts (Table 11.8): at DVDD from REST or HIBERNATE, at the PLLs from NAP, and from DOZE with nothing to wait for. -/
def WakeStarted (src : BitVec 4) (s t : State) : Prop :=
  t.power = { s.power with
    waking := some (match s.power.st with | .rest | .hibernate => .dvdd | .nap => .pll | _ => .done), wakeAt := now s
    stepSince := now s, wakeBy := src, retries := 0, wakeFail := 0, stepOff := none } ∧
  (s.power.st = .nap → bit t.irq.pend irqClock = true ∧
    t.clk.b.st = .acquiring ∧ t.clk.b.gated = true ∧ t.clk.b.fromNap = (s.clk.b.word != 0) ∧
    (s.clk.a.en = true → t.clk.a.st = .acquiring ∧ t.clk.a.gated = true)) ∧
  (s.power.st = .rest ∨ s.power.st = .hibernate → t.outs.vcm = .rampUp ∧ t.outs.vcmAt = now s) ∧
  (s.power.st = .doze → t = { s with power := t.power }) ∧ (s.power.st ≠ .nap → t.irq = s.irq) ∧
  t = { s with power := t.power, clk := t.clk, fe := t.fe, irq := { s.irq with pend := t.irq.pend }
               outs := { s.outs with vcm := t.outs.vcm, vcmAt := t.outs.vcmAt } }

/-- A PIN reset (Table 11.10): the device is in reset with the cause noted; the memories but RET, both sets, the log and the sessions are
lost; calibration, OTP, the rails and the timebase's count stay; the VCM node and the pumps go down once no output mutes. -/
def AfterPin (cause : BitVec 6) (s t : State) : Prop :=
  t.power = { ({} : Power) with st := .reset, cause := s.power.cause ||| cause, wdrCount := s.power.wdrCount
                                hpvdd := s.power.hpvdd, spkvdd := s.power.spkvdd, iovddA := s.power.iovddA
                                iovddH := s.power.iovddH } ∧
  t.mem = s.mem.retOnly ∧ t.sets = {} ∧ t.flt = {} ∧ t.panic = {} ∧ t.irq = {} ∧ t.host = {} ∧ t.deferred = {} ∧ t.cores = {} ∧
  t.sec = { otp := s.sec.otp, otpBad := s.sec.otpBad } ∧ t.cal = { ch := s.cal.ch, pair := s.cal.pair, exports := s.cal.exports } ∧
  (muting t = false → t.outs.vcm = .zero ∧ t.outs.pumps = []) ∧ (muting t = true → t.outs.vcm = s.outs.vcm) ∧
  t.tb.count = s.tb.count ∧ t.pins = {}

/-- AVS is given up (R447): EN is 0, the request stands, AVS_FAULT is set and an entry is written. -/
def AvsGaveUp (s t : State) : Prop :=
  t.power = { s.power with avs0 := setBit s.power.avs0 31 false, target := s.power.request, avsSteps := [] } ∧
  t.margin.avsSeen = (s.margin.avsSeen || s.margin.running) ∧ fld t.margin.w2 9 0 = 0 ∧
  bit t.margin.w0 1 = true ∧ t.flt.written = s.flt.written + 1 ∧ bit t.irq.pend irqFault = true ∧
  (bit s.margin.w0 1 = false → bit t.irq.pend irqService = true) ∧
  t = { s with power := t.power, margin := { s.margin with w0 := t.margin.w0, w2 := t.margin.w2, avsSeen := t.margin.avsSeen }, flt := t.flt, irq := t.irq }

/-! ## Calibration, OTP and seals -/

/-- A calibration has ended with OK: its job is done, CMD_DONE is raised, and beside the records only the gains on their way to
them and MN may differ. -/
def CalDone (s t : State) : Prop :=
  t.deferred = { s.deferred with status := 0, job := none } ∧ bit t.irq.pend irqCmdDone = true ∧
  t = { s with deferred := t.deferred, irq := { s.irq with pend := t.irq.pend }, fe := t.fe
               cal := { s.cal with ch := t.cal.ch, pair := t.cal.pair }, margin := { s.margin with mn := t.margin.mn } }

/-- OTP is programmed: the read-back verifies and `o` is held, or it fails, FAULT is answered with an entry, and the item is
either as it was or holds some words `v`, as `u v` (which of them is free, log entries 2, 155). -/
def OtpAttempt (op : Nat) (i : Instr) (res : List Word) (o : Otp) (u : List Word → Otp) (s : State) : Prop :=
  (∃ t, exec i s = .next (answered op .ok res t) ∧ t = { s with free := t.free, sec := { s.sec with otp := o } }) ∨
  (∃ t, exec i s = .next (answered op .fault [] t) ∧ (t.sec = s.sec ∨ ∃ v, t.sec = { s.sec with otp := u v }) ∧
    t.flt.written = s.flt.written + 1 ∧ bit t.irq.pend irqFault = true ∧
    t = { s with free := t.free, sec := t.sec, flt := t.flt, irq := { s.irq with pend := t.irq.pend } })

/-- A record of a type joined the seal buffer, to the seal's destination; nothing but the seals, the free values, SEAL's
flag and the DRBG differs. -/
def SealQueued (sid type : Nat) (s t : State) : Prop :=
  (∃ r, t.seals.queue = s.seals.queue ++ [r] ∧ r.dest = (sealOf s sid).dest ∧ r.port = (sealOf s sid).port ∧
    ∃ n, r.words.head? = some (recordHead type sid n)) ∧
  (∀ k ≠ sid, sealOf t k = sealOf s k) ∧
  t = { s with free := t.free, seals := t.seals, irq := { s.irq with pend := t.irq.pend }
               sec := { s.sec with drbg := t.sec.drbg } }

/-- Every table of State that memory reads and writes is in canonical form. -/
def MemSound (s : State) : Prop := s.mem.wf = true

end Sys2Proof.Machine
end

