-- ==== Sys2Proof/Certificates/Slice0/Obligations.lean ====
section
/-! DEFINITION. The statements for the provers. Each docstring names the rule of spec/ that the statement formalises. A clause
about a command says what it answers and leaves when the checks of R487 that precede its own pass (Admitted); a clause about an
event, what it leaves when its rule lets it happen. `{ s with … }` says the frame: every field not written is as before. -/

open Sys2Proof Sys2Proof.Machine

/-- Reference buffers (R127, R128, R130, R153, R154, Table 4.3): REF.ON powers the named buffers that are off and starts their
count; REF.OFF, refused with the mask of enabled channels unless FORCE, turns a buffer off, after the 64-sample ramp of the channels
that run on it; the buffer is ready after its count, and after a loss of tolerance when the monitor has been back for 40 ms; the
late entry and the loss of tolerance follow the table; and at the end of the ramps the channels stop. That a loss of tolerance with
no channel of the bank running leaves the buffer not ready, and writes no entry, is the model's choice (log entry 184). -/
def Obligations.ReferenceBuffers : Prop :=
  (∀ (a : CmdArgs) (s : State), Admitted rowRefOn a s → resv (opnd a 0) 0xF = false →
    ∃ t, exec (.refOn a) s = .next (answered 0x20 .ok [refWord t] t) ∧ t = { s with fe := { s.fe with refs := t.fe.refs } } ∧
      ∀ b < 4, refBuf t b = if bit (opnd a 0) b ∧ (refBuf s b).powered = false
        then { on := true, powered := true, onAt := now s, fromOn := true } else refBuf s b) ∧
  (∀ (a : CmdArgs) (s : State), Admitted rowRefOff a s → resv (opnd a 0) 0xF = false →
    (flag a 0 = true ∨ enabledIn s (opnd a 0).toNat = 0) →
    exec (.refOff a) s = .next (answered 0x21 .ok [] ((indexes 4 (bit (opnd a 0))).foldl refOffBank (fresh s)))) ∧
  (∀ (a : CmdArgs) (s : State), Admitted rowRefOff a s → resv (opnd a 0) 0xF = false → flag a 0 = false →
    enabledIn s (opnd a 0).toNat ≠ 0 →
    exec (.refOff a) s = .next (answered 0x21 .refused [enabledIn s (opnd a 0).toNat] s)) ∧
  (∀ (s : State) (b : Nat), (refBuf s b).powered = true → (∀ ch ∈ bankChans b, (chan s ch).live = false) →
    refOffBank s b = onRef b (fun r => { onAt := r.onAt, need := r.need }) s) ∧
  (∀ (s : State) (b : Nat), (refBuf s b).powered = true → (∃ ch ∈ bankChans b, (chan s ch).live = true) →
    refOffBank s b = rampBank b (onRef b (fun r => { r with
      on := false, ready := false, offAfterRamp := true, fromOn := false }) s)) ∧
  (∀ (s : State) (b ch : Nat), chan (rampBank b s) ch = if ch ∈ bankChans b ∧ (chan s ch).run = .running
    then { chan s ch with run := .ramping, rampJ := 0 } else chan s ch) ∧
  (∀ (s : State) (b tol : Nat), (refBuf s b).powered = true → (refBuf s b).offAfterRamp = false → (refBuf s b).ready = false →
    (refBuf s b).need ≤ since s (refBuf s b).onAt →
    (∀ l, (refBuf s b).lost = some l → 40000000 ≤ tol ∧ 40000000 ≤ since s l) →
    exec (.refReady ⟨b, tol⟩) s = .next (onRef b (fun r => { r with
      ready := true, late := false, lost := none, fromOn := false }) s)) ∧
  (∀ (s : State) (b : Nat), (refBuf s b).powered = true → (refBuf s b).fromOn = true → (refBuf s b).late = false →
    100000000 ≤ since s (refBuf s b).onAt →
    exec (.refSettleLate b) s = .next (logFault 0x08 b (toWord b) 0 (onRef b (fun r => { r with late := true }) s))) ∧
  (∀ (s : State) (b : Nat), (refBuf s b).powered = true → (refBuf s b).ready = true →
    exec (.refOutOfTolerance b) s = .next (if ∃ ch ∈ bankChans b, (chan s ch).live = true then
        logFault 0x08 b (toWord b) 0 (rampBank b (onRef b (fun r => { r with ready := false, lost := some (now s) }) s))
      else onRef b (fun r => { r with ready := false }) s)) ∧
  (∀ (s : State) (b : Nat), ((refBuf s b).offAfterRamp = true ∨ ∃ ch ∈ bankChans b, (chan s ch).run = .ramping) →
    (∀ ch ∈ bankChans b, rampDone s ch = true) →
    ∃ t, exec (.bufferOff b) s = .next t ∧ t = { s with fe := t.fe, mr := { s.mr with taps := t.mr.taps } } ∧
      t.fe.ovrReg = s.fe.ovrReg ∧
      refBuf t b = (if (refBuf s b).offAfterRamp then { onAt := (refBuf s b).onAt, need := (refBuf s b).need } else refBuf s b) ∧
      ∀ ch, chan t ch = if ch ∈ bankChans b ∧ (chan s ch).run = .ramping then { run := .stopped } else chan s ch)

/-- Input channels (R129, R137, R139, R140, R142, R144, R152): a channel that waits for its reference starts, at a frame boundary of
its lane rate, from zero with the ACTIVE gain and bank, and counts its start (that SET also covers the samples on their way through
the decimator, `leadIn`, is the model's choice, log entries 106, 186); a pending gain change applies at a sign change that is not
ignored, or after 2 ms; where it goes to another range the other record comes into use without a ramp, and a move of the
channel's sign alone goes on (R152, R155); it flags SET for N_a + S samples; the overload comparator and an unstable modulator of the channel that governs the named one set that
channel's flags and its ST_OVR bit, raising OVERLOAD when the bit was 0, and a trip flags its neighbours; their ends leave the
counts of the rules; and a coefficient move ends after its 64 samples. -/
def Obligations.InputChannels : Prop :=
  (∀ (s : State) (ch : Nat), (active s).chEn ch = true → (chan s ch).run = .stopped → (refBuf s (ch / 8)).ready = true →
    audioRuns s = true → chanBoundary s ch = true →
    ∃ t, exec (.channelStart ch) s = .next t ∧ t = { s with fe := t.fe, mr := { s.mr with taps := t.mr.taps } } ∧
      chan t ch = { ({} : Chan) with
        run := .running, gain := (active s).chGain ch, bank := (active s).chBank ch
        setLeft := leadIn s (active s) ch + nA 2000000 (chanHz (active s) ch) + settleIn (active s) ch
        nbr := (active s).chNbr ch && neighbourTripped s ch } ∧
      ∀ k ≠ ch, chan t k = chan s k) ∧
  (∀ (s : State) (ch : Nat) (crossing : Bool) (p : GainPend), (chan s ch).gainPend = some p → (chan s ch).live = true →
    ((crossing = true ∧ (chan s ch).crossHold = 0) ∨ 2000000 ≤ since s p.since) →
    ∃ (t : State) (move : Option Move), exec (.gainSwitch ch crossing) s = .next t ∧
      t = onChan ch (fun c => { c with
        gain := p.target, gainPend := none, move := move
        setLeft := max c.setLeft
          (nA (if p.cross then 200000 else 20000) (chanHz (active s) ch) + settleIn (active s) ch) }) s ∧
      move = (if rangeOf ((active s).chMode ch) (chan s ch).gain = rangeOf ((active s).chMode ch) p.target
        then (chan s ch).move
        else (chan s ch).move.bind (fun m =>
          if m.src.pol = (corrOf t ch).pol then none else some { m with src := { corrOf t ch with pol := m.src.pol } }))) ∧
  (∀ (s : State) (ch g : Nat), g = (active s).gov ch → modRuns s g = true → (chan s g).ovr = false →
    ∃ t, exec (.overloadTrip ch) s = .next t ∧ chan t g = { chan s g with ovr := true } ∧
      t.fe.ovrReg = setBit s.fe.ovrReg g true ∧
      t.irq.pend = (if bit s.fe.ovrReg g then s.irq.pend else setBit s.irq.pend irqOverload true) ∧
      (∀ n ≠ g, chan t n = if n ∈ bankChans (g / 8) ∧ (chan s n).live = true ∧ (active s).chNbr n = true
        then { chan s n with nbr := true } else chan s n) ∧
      t = { s with fe := { s.fe with chans := t.fe.chans, ovrReg := t.fe.ovrReg }, irq := { s.irq with pend := t.irq.pend } }) ∧
  (∀ (s : State) (ch g : Nat), g = (active s).gov ch → (chan s g).ovr = true →
    ∃ t, exec (.overloadRelease ch) s = .next t ∧
      chan t g = { chan s g with ovr := false, ovrTail := max (chan s g).ovrTail (settleIn (active s) g) } ∧
      (∀ n ≠ g, chan t n = chan s n) ∧ tget 0 t.fe.release g = now s ∧
      t = { s with fe := { s.fe with chans := t.fe.chans, release := t.fe.release } }) ∧
  (∀ (s : State) (ch g : Nat), g = (active s).gov ch → modRuns s g = true → (chan s g).unstable = false →
    ∃ t, exec (.modulatorInstability ch) s = .next t ∧ chan t g = { chan s g with unstable := true } ∧
      (∀ n ≠ g, chan t n = chan s n) ∧ t.fe.ovrReg = setBit s.fe.ovrReg g true ∧
      t.irq.pend = (if bit s.fe.ovrReg g then s.irq.pend else setBit s.irq.pend irqOverload true) ∧
      t = { s with fe := { s.fe with chans := t.fe.chans, ovrReg := t.fe.ovrReg }, irq := { s.irq with pend := t.irq.pend } }) ∧
  (∀ (s : State) (ch g : Nat), g = (active s).gov ch → (chan s g).unstable = true →
    exec (.modulatorRecovery ch) s = .next (onChan g (fun c => { c with
      unstable := false, ovrTail := max c.ovrTail (settleIn (active s) g)
      setLeft := max c.setLeft (settleIn (active s) g) }) s)) ∧
  (∀ (s : State) (ch : Nat), (chan s ch).nbr = true →
    (∀ n ∈ bankChans (ch / 8), n = ch ∨ ((chan s n).ovr = false ∧ 20000 ≤ since s (tget 0 s.fe.release n))) →
    exec (.neighbourSetEnd ch) s = .next (onChan ch (fun c => { c with
      nbr := false, setLeft := max c.setLeft (settleIn (active s) ch) }) s)) ∧
  (∀ (s : State) (ch : Nat) (m : Move), (chan s ch).move = some m → m.j = 64 →
    exec (.coefficientMoveEnd ch) s = .next (onChan ch (fun c => { c with move := none }) s))

/-- The capture point and fades (R30, R132–R135, R145, R155, R163–R166, R170, R175, R176): a half-band stage gives the exact sum of its
taps, rounded and saturated, and the modulator samples of one output period pass the CIC, HB1 and HB2 of a sub-chain (their
coefficients are constants without a body, and that each stage holds `hbLen` words, and the CIC `cicLen` words' samples, is the model's
choice, log entries 19, 193); a FIR gives the exact sum of its taps, scaled
by its shift, rounded and saturated; a running channel's sample is its FIR's output, or the blend of two within a fade (whose last
bit R175 leaves open), less OFFSET, times GAIN and POL, rounded once and clamped; the odd sub-chain of a pair has D_OFFSET and
G_RATIO too, an AVERAGE pair gives the mean of both, and an INTERLEAVE pair passes each in its turn through the skew filter. A fade that has given its L samples ends on the requested bank, and a queued request starts from there, at
a frame boundary of the channel, with the fade length of ACTIVE. -/
def Obligations.CrossFades : Prop :=
  (∀ (preset stage : Nat) (h : List Int), halfBand preset stage h = satQ31 (roundDiv
    ((List.range hbLen).map (fun i => Config.halfBandTap preset stage i * h.getD i 0)).sum (2 ^ Config.halfBandScale preset stage))) ∧
  (∀ (preset ratio : Nat) (codes : List Int) (d : Decim) (held : Nat → List Int) (a : Nat → Int) (p q r : List Int), d.fifo = [] →
    codes.length = 4 * ratio → (∀ k, held k = ((codes.take (k * ratio)).reverse ++ d.codes).take (cicLen * ratio)) →
    (∀ k, a k = Config.cic ratio (held k)) → p = (a 2 :: a 1 :: d.h1).take hbLen → q = (a 4 :: a 3 :: p).take hbLen →
    r = (halfBand preset 1 q :: halfBand preset 1 p :: d.h2).take hbLen →
    decimate preset ratio codes d = (halfBand preset 2 r, { codes := held 4, fifo := [], h1 := q, h2 := r })) ∧
  (∀ (b : FirBank) (h : List Sample), firY b h = satQ31 (roundDiv
    (((List.range (fld b.desc 8 0)).map (fun i =>
      (tget 0 b.coefs i).toInt * (h.getD i ⟨0, 0⟩).val.toInt)).sum * 2 ^ fld b.desc 29 28) (2 ^ 23))) ∧
  (∀ (s : State) (ch : Nat) (frame : Bool) (even odd : List Int) (c : Chan) (h : List Sample) (k : Corr), c = chan s ch →
    c.run = .running → (active s).pairMode ch = 0 → c.fade = none → c.oldBank = none → c.move = none → k = corrOf s ch →
    h = (⟨intWord (decimate (presetOf (active s) ch) (cicRatio s (active s) ch) even c.dec).1, inputTag c⟩ :: c.hist).take 384 →
    (captureAin ch frame even odd s).1 =
      ⟨intWord (satFront (roundDiv (((firOut s c.bank h).1 - k.offset) * k.gain * k.pol) (2 ^ 60))),
       tagOR (firOut s c.bank h).2 ((if 0 < c.outSet ∨ 0 < c.bankSet then tSET else 0) ||| (if c.cutNext then tCUT else 0))⟩) ∧
  (∀ (s : State) (ch : Nat) (frame : Bool) (even odd : List Int) (c : Chan) (f : Fade) (h : List Sample) (k : Corr), c = chan s ch →
    c.run = .running → (active s).pairMode ch = 0 → c.fade = some f → f.j < f.len → c.move = none → k = corrOf s ch →
    h = (⟨intWord (decimate (presetOf (active s) ch) (cicRatio s (active s) ch) even c.dec).1, inputTag c⟩ :: c.hist).take 384 →
    (chan (captureAin ch frame even odd s).2 ch).fade = some { f with j := f.j + 1 } ∧
    ∃ up : Bool, (captureAin ch frame even odd s).1.val = intWord (satFront (roundDiv
      ((blend (fadeW f.j f.len up) (firOut s f.src h).1 (firOut s f.dst h).1 - k.offset) * k.gain * k.pol) (2 ^ 60)))) ∧
  (∀ (s : State) (ch : Nat) (frame : Bool) (even odd : List Int) (c : Chan) (h h' : List Sample) (k : Corr), c = chan s ch →
    c.run = .running → (active s).pairMode ch ≠ 0 → c.fade = none → c.oldBank = none → c.move = none → k = corrOf s ch →
    h = (⟨intWord (decimate (presetOf (active s) ch) (cicRatio s (active s) ch) even c.dec).1, inputTag c⟩ :: c.hist).take 384 →
    h' = (⟨intWord (decimate (presetOf (active s) ch) (cicRatio s (active s) ch) odd c.decOdd).1, inputTag c⟩ :: c.histOdd).take 384 →
    let x := satFront (roundDiv (((firOut s c.bank h).1 - k.offset) * k.gain * k.pol) (2 ^ 60))
    let y := satFront (roundDiv (((firOut s c.bank h').1 - (k.offset + k.dOffset)) * k.gain * k.gRatio * k.pol) (2 ^ 90))
    ((active s).pairMode ch = 2 → (captureAin ch frame even odd s).1.val = intWord (roundDiv (x + y) 2)) ∧
    ((active s).pairMode ch = 1 → c.oddNext = false → (captureAin ch frame even odd s).1.val =
      intWord (skewFilter 0 ((⟨intWord x, (firOut s c.bank h).2⟩ :: c.cor).take 16)).1) ∧
    ((active s).pairMode ch = 1 → c.oddNext = true → (captureAin ch frame even odd s).1.val =
      intWord (skewFilter (64 * k.skew) ((⟨intWord y, (firOut s c.bank h').2⟩ :: c.corOdd).take 16)).1)) ∧
  (∀ (s : State) (ch : Nat) (f : Fade), (chan s ch).fade = some f → f.j = f.len →
    exec (.fadeEnd ch) s = .next (onChan ch (fun c => { c with bank := f.dst, fade := none }) s)) ∧
  (∀ (s : State) (ch b : Nat), (chan s ch).queued = some b → (chan s ch).fade = none → (chan s ch).live = true →
    (chan s ch).pos = 0 →
    exec (.queuedFadeStart ch) s = .next (onChan ch (fun c => { c with
      queued := none, fade := some ⟨c.bank, b, (active s).fadeLen ch, 0⟩ }) s)) ∧
  (∀ (s : State) (ch b : Nat) (f : Fade), (chan s ch).queued = some b → (chan s ch).fade = some f → f.j = f.len →
    (chan s ch).live = true → (chan s ch).pos = 0 →
    ∃ t, exec (.queuedFadeStart ch) s = .next t ∧ (chan t ch).bank = f.dst ∧ (chan t ch).queued = none ∧
      (chan t ch).fade = some ⟨f.dst, b, (active s).fadeLen ch, 0⟩ ∧
      t = { s with fe := { s.fe with chans := t.fe.chans } } ∧ ∀ k ≠ ch, chan t k = chan s k)

/-- Set items (R67, R68, R155–R157, R182, R184, R185): the front-end and filter commands write their item in SHADOW alone, with
every other item as it was, and its words decode again (R366, `shadowReads`); with IMMEDIATE the write is placed, and with MIRROR it reaches SHADOW too (that SHADOW is written when
the command is placed is the model's choice, log entry 18). -/
def Obligations.FrontEndItems : Prop :=
  (∀ (a : CmdArgs) (s : State), Admitted rowFeMode a s → a.imm = false → resv (opnd a 0) 0x1F = false →
    resv (opnd a 1) 0x83110000 = false → fld (opnd a 1) 25 24 ≠ 3 →
    exec (.feMode a) s = .next (answered 0x22 .ok [] (onShadow (fun c => { c with
      feMode := tput 0 c.feMode (opnd a 0).toNat (opnd a 1) }) (shadowReads 0x22 a s)))) ∧
  (∀ (a : CmdArgs) (s : State), Admitted rowFeGain a s → a.imm = false → resv (opnd a 0) 0x1F = false →
    resv (opnd a 1) 0x3F = false → (opnd a 1).toNat ≤ 60 →
    exec (.feGain a) s = .next (answered 0x23 .ok [] (onShadow (fun c => { c with
      feGain := tput 0 c.feGain (opnd a 0).toNat (opnd a 1) }) (shadowReads 0x23 a s)))) ∧
  (∀ (a : CmdArgs) (s : State), Admitted rowFeGain a s → a.imm = true → resv (opnd a 0) 0x1F = false →
    resv (opnd a 1) 0x3F = false → (opnd a 1).toNat ≤ modeMax ((active s).chMode (opnd a 0).toNat) →
    bit (calMask s) (opnd a 0).toNat = false →
    ∃ t, exec (.feGain a) s = .next (answered 0x23 .ok [] t) ∧ active t = active s ∧
      t.sets.placed = s.sets.placed ++ [⟨0x23, a.ops, chanRate s (opnd a 0).toNat⟩] ∧
      shadow t = (if a.mirror then { shadow s with feGain := tput 0 (shadow s).feGain (opnd a 0).toNat (opnd a 1) }
        else shadow s) ∧ t = { s with sets := t.sets, mem := if a.mirror then (shadowReads 0x23 a s).mem else s.mem }) ∧
  (∀ (a : CmdArgs) (s : State), Admitted rowFePair a s → a.imm = false → resv (opnd a 0) 0xF = false →
    resv (opnd a 1) 3 = false → opnd a 1 ≠ 3 →
    exec (.fePair a) s = .next (answered 0x24 .ok [] (onShadow (fun c => { c with
      fePair := tput 0 c.fePair (opnd a 0).toNat (opnd a 1) }) (shadowReads 0x24 a s)))) ∧
  (∀ (a : CmdArgs) (s : State), Admitted rowFltPreset a s → a.imm = false → resv (opnd a 0) 0x1F = false →
    resv (opnd a 1) 0x30F00000 = false → fld (opnd a 1) 23 20 ≠ 15 →
    (if rateTop (fld (opnd a 1) 23 20) then fld (opnd a 1) 29 28 = 3
      else rateHz (fld (opnd a 1) 23 20) ≤ presetMax (fld (opnd a 1) 29 28) (rate44 (fld (opnd a 1) 23 20))) →
    exec (.fltPreset a) s = .next (answered 0x30 .ok [] (onShadow (fun c => { c with
      preset := tput 0x00300000 c.preset (opnd a 0).toNat (opnd a 1) }) (shadowReads 0x30 a s)))) ∧
  (∀ (a : CmdArgs) (s : State), Admitted rowFirSel a s → a.imm = false → resv (opnd a 0) 0x1F = false →
    resv (opnd a 1) 0xF = false → (opnd a 1).toNat ≤ 8 →
    exec (.firSel a) s = .next (answered 0x32 .ok [] (onShadow (fun c => { c with
      firSel := tput 8 c.firSel (opnd a 0).toNat (opnd a 1) }) (shadowReads 0x32 a s)))) ∧
  (∀ (a : CmdArgs) (s : State), Admitted rowFirFade a s → a.imm = false → resv (opnd a 0) 0x1F = false →
    resv (opnd a 1) 7 = false → opnd a 1 ≠ 7 →
    exec (.firFade a) s = .next (answered 0x33 .ok [] (onShadow (fun c => { c with
      firFade := tput 2 c.firFade (opnd a 0).toNat (opnd a 1) }) (shadowReads 0x33 a s))))

/-- Coefficient banks and detectors (R172, R173, R179–R181, R183, R187, R188, R350, Tables 5.4, 5.10): FIR.WRITE replaces a
bank's descriptor or coefficients and returns its CRC-32; DET.CFG writes the settings of the named detectors, whose peak goes on
from where it stands when its hold or decay changes; DET.READ returns four words each and clears peaks and flags with CLEAR; a
meter update copies every detector into its meter word; and a read of W0 captures the detector's four words. -/
def Obligations.BanksAndDetectors : Prop :=
  (∀ (a : CmdArgs) (s : State) (b : Nat) (d : Word), Admitted rowFirWrite (withFlag a 0 true) s → opnd a 1 = d →
    opnd a 0 = toWord (b * 65536) → b < 8 → resv d 0x33FF01FF = false → fld d 8 0 ≤ 384 →
    fld d 25 16 ≤ 2 * (fld d 8 0 - 1) → bankFading s b = false →
    (∀ ch < 32, (active s).chBank ch = b → (active s).chEn ch = true → fld d 8 0 * chanHz (active s) ch ≤ 18432000) →
    (fld d 8 0 = 0 → ∀ ch < 32, (active s).chBank ch ≠ b) →
    exec (.firWriteHdr a) s = .next (answered 0x31 .ok [bankCrc { firBank s b with desc := d }]
      (putBank b { firBank s b with desc := d } (fresh s)))) ∧
  (∀ (a : CmdArgs) (s : State) (b off : Nat) (cs : List (BitVec 24)), Admitted rowFirWrite (withFlag a 0 false) s →
    a.ops = toWord (b * 65536 + off) :: cs.map (fun c => c.setWidth 32) → b < 8 → off < 512 → off + cs.length ≤ 384 →
    bankFading s b = false →
    exec (.firWrite a) s = .next (answered 0x31 .ok
      [bankCrc { firBank s b with coefs := tputs 0 (firBank s b).coefs off cs }]
      (putBank b { firBank s b with coefs := tputs 0 (firBank s b).coefs off cs } s))) ∧
  (∀ (b : Nat) (k : FirBank) (s : State), firBank (putBank b k s) b = k ∧ ∀ c ≠ b, firBank (putBank b k s) c = firBank s c) ∧
  (∀ (a : CmdArgs) (s : State) (f n : Nat), Admitted rowDetCfg a s → resv (opnd a 0) 0x017F00FF = false →
    resv (opnd a 1) 0xBFFFFF00 = false → detSpan (opnd a 0) = some (f, n) → fld (opnd a 1) 29 26 ≤ 13 →
    ∃ t, exec (.detCfg a) s = .next (answered 0x34 .ok [] t) ∧
      t = { s with filt := { s.filt with detCfg := t.filt.detCfg, dets := t.filt.dets } } ∧
      ∀ d, tget dDet t.filt.detCfg d = (if f ≤ d ∧ d < f + n then opnd a 1 else tget dDet s.filt.detCfg d) ∧
        tget {} t.filt.dets d = if f ≤ d ∧ d < f + n ∧ fld (tget dDet s.filt.detCfg d) 25 16 ≠ fld (opnd a 1) 25 16
          then detRebase (tget dDet s.filt.detCfg d) (tget {} s.filt.dets d).hz (tget {} s.filt.dets d)
          else tget {} s.filt.dets d) ∧
  (∀ (a : CmdArgs) (s : State) (f n : Nat), Admitted rowDetRead a s → resv (opnd a 0) 0x017F00FF = false →
    detSpan (opnd a 0) = some (f, n) →
    ∃ t, exec (.detRead a) s = .next (answered 0x35 .ok
        (((List.range n).map (f + ·)).flatMap (fun d =>
          [(detWords s d).w0, (detWords s d).w1, (detWords s d).w2, (detWords s d).w3])) t) ∧
      t = { s with filt := { s.filt with dets := t.filt.dets } } ∧
      ∀ d, tget {} t.filt.dets d = if flag a 0 = true ∧ f ≤ d ∧ d < f + n
        then { tget ({} : Det) s.filt.dets d with p0 := 0, age := 0, ref := 0, ovr := false, set := false, cut := false }
        else tget {} s.filt.dets d) ∧
  (∀ s : State, ∃ t, exec .meterUpdate s = .next t ∧ t = { s with filt := { s.filt with meters := t.filt.meters } } ∧
    ∀ n < 160, tget dMeter t.filt.meters n = meterWord s n) ∧
  (∀ (s : State) (n : Nat), exec (.detectorCaptureRead n) s = .next { s with
    filt := { s.filt with capture := tput none s.filt.capture n (some (detWords s n)) } })

/-- The confluence matrix (R190–R195, R198–R200, R217–R220, R366, Tables 6.1, 6.3, 6.4): the legal gain codes and their Q4.20 values (with 10^x
in 128 fraction bits, log entry 9); a node that changes its target ramps over the N samples of its ramp time in its shape, RCOS and at least
16 samples from or to mute, by the formulas of R194; FDMA takes ACTIVE but for a gain word that does not read, a node as mute and a
weir as disabled; a sample of an output lane is the sum of its nodes'
products, each rounded, saturated to Q1.31, after its limiter: without look-ahead the gain falls at once to what the sum needs and
rises by its step; with look-ahead a sum that enters plans the gains of the waiting ones, the newest at most what it needs, and never
raises one (the precision of gains in dB is the model's choice, log entry 133); a write of it whose data parity fails stores 0 with SET
(Table 10.13); ROUTE and GAIN write the gain codes of their nodes, RAMP the
ramp fields alone and WEIR a limiter's word, in SHADOW, with every other entry as it was; and a node ramp that has given its
samples ends. -/
def Obligations.MatrixItems : Prop :=
  (∀ c : BitVec 16, codeOk c = true ↔ c = 0x8000 ∨ (-12000 ≤ c.toInt ∧ c.toInt ≤ 1800)) ∧
  (codeGain 0x0708 = 0x7F17AF ∧ codeGain 0x0000 = 0x100000 ∧ codeGain 0xFDA8 = 0x804DD ∧ codeGain 0xFC18 = 0x50F45 ∧
    codeGain 0xD120 = 1 ∧ codeGain 0x8000 = 0) ∧
  (∀ c : BitVec 16, c ≠ 0x8000 → codeGain c = (roundDiv (fxExp (roundDiv (fxLn10 * c.toInt) 2000)) (2 ^ 108)).toNat) ∧
  (∀ (s : State) (old t : BitVec 16) (e : Word) (n N : Nat), nodeRamp s n = none → t = nodeCode e →
    N = (if fld e 19 16 = 15 then 0 else 2 ^ fld e 19 16) →
    newRamp s old e n = (if codeGain old = 0 ∨ t = 0x8000 then some ⟨codeGain old, some old.toInt, t, max N 16, true, 0⟩
      else if N = 0 then none else some ⟨codeGain old, some old.toInt, t, N, bit e 20, 0⟩)) ∧
  (∀ (r : NodeRamp) (j : Nat), (r.len ≤ j → rampGain r j = codeGain r.target) ∧
    (j < r.len → r.rcos = true → rampGain r j = (roundDiv (r.g0 * fxOne +
      roundDiv (fxOne - fxCosPi (j + 1) (r.len + 1)) 2 * ((codeGain r.target : Int) - r.g0)) (2 ^ 128)).toNat) ∧
    ∀ d : Int, j < r.len → r.rcos = false → r.d0 = some d → rampGain r j = (roundDiv (fxExp (roundDiv (fxMul (d * fxOne +
      roundDiv ((r.target.toInt * fxOne - d * fxOne) * (j + 1)) (r.len + 1)) fxLn10) 2000)) (2 ^ 108)).toNat) ∧
  (∀ s : State, s.sets.taken = [] → s.sets.takenFlows = [] → heard s = active s) ∧
  (∀ (s : State) (k : Nat), s.sets.taken = [k] → (∀ il < 128, ∀ ol < 128, 128 * il + ol = k →
      (heard s).node il ol = setFld ((active s).node il ol) 15 0 0x8000) ∧
    ∀ ol < 128, 16384 + ol = k → (heard s).weir ol = setBit ((active s).weir ol) 31 false) ∧
  (∀ (s : State) (c : ConfigSet) (ol : Nat), (laneSum s c ol (List.range 128)).1 = ((List.range 128).map (fun il => roundDiv
    ((tget ⟨0, 0⟩ s.mtx.laneIn il).val.toInt * (match nodeRamp s (128 * il + ol) with
      | some r => rampGain r r.j
      | none => codeGain (nodeCode (c.node il ol)) : Nat)) (2 ^ 20))).sum) ∧
  (∀ (s : State) (c : ConfigSet) (ol : Nat), (laneSum s c ol (List.range 128)).2 =
    ((List.range 128).filter (fun il => (nodeRamp s (128 * il + ol)).isSome ||
      nodeCode (c.node il ol) != muteCode)).foldr (fun il t => tagOR t (tget ⟨0, 0⟩ s.mtx.laneIn il).tag) 0) ∧
  (∀ (s : State) (ol hz : Nat), ol < 128 → bit ((heard s).weir ol) 31 = false → (tget ({} : WeirRun) s.mtx.weirs ol).releasing = none →
    upset s (.request 6) = false → upset s (.data 6) = false →
    let r := matrixSample ol hz s
    let l := laneSum s (heard s) ol (List.range 128)
    r.1 = ⟨intWord (satQ31 l.1), stamp s l.2⟩ ∧ tget ⟨0, 0⟩ r.2.mtx.laneOut ol = r.1 ∧
      ∀ n, tget none r.2.mtx.ramps n = if n % 128 = ol
        then (tget none s.mtx.ramps n).map (fun q => { q with j := min q.len (q.j + 1) }) else tget none s.mtx.ramps n) ∧
  (∀ (s : State) (ol hz : Nat), upset s (.request 6) = false → upset s (.data 6) = true →
    (matrixSample ol hz s).1 = ⟨0, stamp s tSET⟩) ∧
  (∀ (s : State) (ol hz : Nat) (e : Word) (sum g : Int), upset s (.request 6) = false → upset s (.data 6) = false → e = (heard s).weir ol → bit e 31 = true → bit e 30 = false →
    sum = clampInt (-(2 ^ 39)) (2 ^ 39 - 1) (laneSum s (heard s) ol (List.range 128)).1 →
    g = min (weirNeed e sum) (min 0 ((tget ({} : WeirRun) s.mtx.weirs ol).gain + weirStep (fld e 26 16) hz)) →
    (matrixSample ol hz s).1 = ⟨intWord (satQ31 (weirApply g sum)), stamp s (laneSum s (heard s) ol (List.range 128)).2⟩ ∧
      tget {} (matrixSample ol hz s).2.mtx.weirs ol = { gain := g }) ∧
  (∀ (s : State) (ol hz : Nat) (e : Word) (sum : Int) (w : WeirRun) (x : WeirTap) (xs : List WeirTap), upset s (.request 6) = false → upset s (.data 6) = false →
    e = (heard s).weir ol →
    bit e 31 = true → bit e 30 = true → w = tget {} s.mtx.weirs ol →
    sum = clampInt (-(2 ^ 39)) (2 ^ 39 - 1) (laneSum s (heard s) ol (List.range 128)).1 →
    planTap e (weirStep (fld e 26 16) hz) w.gain w.line sum (stamp s (laneSum s (heard s) ol (List.range 128)).2) = x :: xs →
    (matrixSample ol hz s).1 = ⟨intWord (satQ31 (weirApply x.plan x.sum)), stamp s x.tag⟩ ∧
      tget {} (matrixSample ol hz s).2.mtx.weirs ol = { gain := x.plan, line := xs }) ∧
  (∀ (e : Word) (step gain sum : Int) (line : List WeirTap) (tag : BitVec 4),
    let l := planTap e step gain line sum tag
    l.length = line.length + 1 ∧
      (∀ x, l.getLast? = some x → x.sum = sum ∧ x.tag = tag ∧ x.plan ≤ weirNeed e sum ∧
        x.plan ≤ min 0 ((match line.getLast? with | some y => y.plan | none => gain) + step)) ∧
      ∀ i < line.length, (l.getD i ⟨0, 0, 0⟩).sum = (line.getD i ⟨0, 0, 0⟩).sum ∧
        (l.getD i ⟨0, 0, 0⟩).tag = (line.getD i ⟨0, 0, 0⟩).tag ∧ (l.getD i ⟨0, 0, 0⟩).plan ≤ (line.getD i ⟨0, 0, 0⟩).plan) ∧
  (∀ (a : CmdArgs) (s : State), Admitted rowRoute a s → a.imm = false → resv (opnd a 0) 0x7F007F = false →
    resv (opnd a 1) 0xFFFF = false → codeOk ((opnd a 1).setWidth 16) = true →
    exec (.route a) s = .next (answered 0x40 .ok [] (onShadow (fun c => { c with
      nodes := tmod 0x00088000 c.nodes (128 * fld (opnd a 0) 22 16 + fld (opnd a 0) 6 0)
        (fun e => setFld e 15 0 ((opnd a 1).setWidth 16 : BitVec 16).toNat) }) (shadowReads 0x40 a s)))) ∧
  (∀ (a : CmdArgs) (s : State), Admitted rowGain a s → a.imm = false → resv (opnd a 0) 0x7FFF7F = false →
    (fld (opnd a 0) 15 8 % 2 = 1 → fld (opnd a (1 + fld (opnd a 0) 15 8 / 2)) 15 0 = 0) → spanBad (opnd a 0) = false →
    (∀ x ∈ routeTargets 0x41 a, codeOk x.2 = true) →
    ∃ t, exec (.gain a) s = .next (answered 0x41 .ok [] t) ∧
      t = onShadow (fun c => { c with nodes := (shadow t).nodes }) (shadowReads 0x41 a s) ∧
      ∀ il < 128, ∀ ol < 128, (shadow t).node il ol =
        if ol = fld (opnd a 0) 6 0 ∧ fld (opnd a 0) 22 16 ≤ il ∧ il < fld (opnd a 0) 22 16 + fld (opnd a 0) 15 8
        then setFld ((shadow s).node il ol) 15 0 (let j := il - fld (opnd a 0) 22 16
          if j % 2 = 0 then fld (opnd a (1 + j / 2)) 31 16 else fld (opnd a (1 + j / 2)) 15 0)
        else (shadow s).node il ol) ∧
  (∀ (a : CmdArgs) (s : State), Admitted rowRamp a s → a.imm = false → resv (opnd a 0) 0x7FFF7F = false →
    resv (opnd a 1) 0x1F = false → spanBad (opnd a 0) = false →
    ∃ t, exec (.ramp a) s = .next (answered 0x42 .ok [] t) ∧
      t = onShadow (fun c => { c with nodes := (shadow t).nodes }) (shadowReads 0x42 a s) ∧
      ∀ il < 128, ∀ ol < 128, (shadow t).node il ol =
        if ol = fld (opnd a 0) 6 0 ∧ fld (opnd a 0) 22 16 ≤ il ∧ il < fld (opnd a 0) 22 16 + fld (opnd a 0) 15 8
        then setFld (setFld ((shadow s).node il ol) 20 20 (fld (opnd a 1) 4 4)) 19 16 (fld (opnd a 1) 3 0)
        else (shadow s).node il ol) ∧
  (∀ (a : CmdArgs) (s : State), Admitted rowWeir a s → a.imm = false → resv (opnd a 0) 0x7F = false →
    resv (opnd a 1) 0xC7FF00FF = false → 10 ≤ fld (opnd a 1) 26 16 → fld (opnd a 1) 26 16 ≤ 2000 → fld (opnd a 1) 7 0 ≤ 120 →
    (bit (opnd a 1) 30 = true → bit (opnd a 1) 31 = true) →
    exec (.weir a) s = .next (answered 0x43 .ok [] (onShadow (fun c => { c with
      weirs := tput 0x00640000 c.weirs (opnd a 0).toNat (opnd a 1) }) (shadowReads 0x43 a s)))) ∧
  (∀ (s : State) (il ol : Nat) (r : NodeRamp), tget none s.mtx.ramps (128 * il + ol) = some r → r.len ≤ r.j →
    ∃ t, exec (.nodeRampEnd il ol) s = .next t ∧ t = { s with mtx := { s.mtx with ramps := t.mtx.ramps } } ∧
      ∀ n, tget none t.mtx.ramps n = if n = 128 * il + ol then none else tget none s.mtx.ramps n)

/-- The millrace (R207–R209, R221, R222, Tables 6.10, 6.11): MR.TAP writes one tap entry of SHADOW and MR.OUT one bus's two
output words; after its 4,096 samples a tap ramp ends on its target, or, half-way through a change of channel, takes the new channel
and ramps in from −∞; and assignment and block ramps end after theirs. -/
def Obligations.MillraceItems : Prop :=
  (∀ (a : CmdArgs) (s : State), Admitted rowMrTap a s → a.imm = false → resv (opnd a 0) 0x707 = false →
    resv (opnd a 1) 0x801F00FF = false → tapCodeOk ((opnd a 1).setWidth 8) = true →
    exec (.mrTap a) s = .next (answered 0x44 .ok [] (onShadow (fun c => { c with
      taps := tput 0x00000080 c.taps (8 * fld (opnd a 0) 10 8 + fld (opnd a 0) 2 0) (opnd a 1) }) (shadowReads 0x44 a s)))) ∧
  (∀ (a : CmdArgs) (s : State), Admitted rowMrOut a s → a.imm = false → resv (opnd a 0) 7 = false →
    resv (opnd a 1) 0x00FFFFFF = false → resv (opnd a 2) 0x800000FF = false →
    ∃ t, exec (.mrOut a) s = .next (answered 0x45 .ok [] t) ∧
      t = onShadow (fun c => { c with outMaps := (shadow t).outMaps }) (shadowReads 0x45 a s) ∧
      ∀ bus w, w < 2 → (shadow t).outMap bus w =
        if bus = fld (opnd a 0) 2 0 then opnd a (1 + w) else (shadow s).outMap bus w) ∧
  (∀ (s : State) (bus k : Nat), k < 8 → (tapRun s (8 * bus + k)).ramp = true → (tapRun s (8 * bus + k)).next = none →
    4096 ≤ mrSamples s (tapRun s (8 * bus + k)).since →
    exec (.tapRampEnd (.tap bus k)) s = .next (onTap (8 * bus + k) (fun r => { r with ramp := false, src := 0, since := 0 }) s)) ∧
  (∀ (s : State) (bus k c : Nat), k < 8 → (tapRun s (8 * bus + k)).ramp = true → (tapRun s (8 * bus + k)).next = some c →
    4096 ≤ mrSamples s (tapRun s (8 * bus + k)).since →
    exec (.tapRampEnd (.tap bus k)) s = .next (onTap (8 * bus + k) (fun r =>
      { chan := c, code := r.code, ramp := r.code != 0x80#8, since := if r.code = 0x80#8 then 0 else now s }) s)) ∧
  (∀ (s : State) (bus d : Nat) (l : LevelRamp), d < 32 → tget none s.mr.assignRamp (64 * bus + d) = some l →
    4096 ≤ mrSamples s l.since → exec (.tapRampEnd (.assign bus d)) s = .next { s with
      mr := { s.mr with assignRamp := tput none s.mr.assignRamp (64 * bus + d) none } }) ∧
  (∀ (s : State) (d : Nat) (l : LevelRamp), tget none s.mr.blockRamp d = some l → 4096 ≤ mrSamples s l.since →
    exec (.tapRampEnd (.block d)) s = .next { s with
      mr := { s.mr with blockRamp := tput none s.mr.blockRamp d none } })

/-- Output sequences (R267, R268, R271, R273–R275, R278, R279, Tables 8.3, 8.4): each step of an enable or disable sequence
happens after its time in the family in use, and moves the output, its clamp, its gain and its pump as the table states; the class-G
supply switches on the pair's level; and a starvation fade ends after its 3,072 steps; where an event clamps the last output in an entry to REST or HIBERNATE, the VCM
node begins its ramp (R283). The model's choices here: a pump under CLASSG
AUTO starts on the low rails (log entry 47); the level of the last final-stage step is what the class-G events test (log entry 48);
the 40 ms VCM ramp does not scale with the 44.1 kHz family (log entry 111). -/
def Obligations.OutputSequences : Prop :=
  (∀ (a : CmdArgs) (s : State), Admitted rowOutCfg a s → a.imm = false → resv (opnd a 0) 0x3F = false →
    resv (opnd a 1) 0x80F11000 = false → outBad (opnd a 0).toNat (opnd a 1) = false →
    exec (.outCfg a) s = .next (answered 0x60 .ok [] (onShadow (fun c => { c with
      outCfg := tput 0x00300000 c.outCfg (opnd a 0).toNat (opnd a 1) }) (shadowReads 0x60 a s)))) ∧
  (∀ (s : State) (n : Nat), n < 4 → (pump s n).on = true → (pump s n).up = false →
    seqTime s 500000 ≤ since s (pump s n).since →
    ∃ t, exec (.pumpSoftStartDone n) s = .next t ∧ pump t n = { pump s n with up := true, high := classHigh s n } ∧
      (∀ d, dac t d = if (d = 24 + 2 * n ∨ d = 25 + 2 * n) ∧ (dac s d).phase = .pumpStart
        then { dac s d with phase := .servo, since := now s } else dac s d) ∧
      t = { s with outs := { s.outs with dacs := t.outs.dacs, pumps := t.outs.pumps } } ∧ ∀ m ≠ n, pump t m = pump s m) ∧
  (∀ (s : State) (d : Nat) (trim : Int), (dac s d).phase = .servo → seqTime s 2000000 ≤ since s (dac s d).since →
    gHeld s = false →
    ∃ t, exec (.servoDone d trim) s = .next t ∧
      dac t d = { dac s d with trim := trim, phase := .unmuting, clamp := false, g := .rising, since := now s
                               gFrom := gNow s (dac s d), gAt := now s, gLen := 12288, stopped := false } ∧
      t = { s with outs := { s.outs with dacs := t.outs.dacs }, margin := { s.margin with mh := t.margin.mh } } ∧
      ∀ k ≠ d, dac t k = dac s k) ∧
  (∀ (s : State) (d : Nat), (dac s d).phase = .spkStart → seqTime s 1000000 ≤ since s (dac s d).since → gHeld s = false →
    exec (.speakerUnmuteStart d) s = .next (onDac d (fun x => { x with
      phase := .unmuting, clamp := false, g := .rising, since := now s
      gFrom := gNow s x, gAt := now s, gLen := 12288, stopped := false }) s)) ∧
  (∀ (s : State) (d : Nat), (dac s d).phase = .unmuting → (dac s d).g = .rising →
    seqTime s 4000000 ≤ since s (dac s d).since →
    exec (.unmuteRampEnd d) s = .next (onDac d (fun x => { x with phase := .playing, g := .one }) s)) ∧
  (∀ (s : State) (d : Nat), (dac s d).phase = .muting → seqTime s 4000000 ≤ since s (dac s d).since →
    ∃ t, exec (.muteRampEnd d) s = .next (vcmFollow t) ∧
      dac t d = { dac s d with phase := .clamped, clamp := true, g := .zero, starve := .none, hist := [], level := 0
                               since := now s, stopped := true, path := 0 } ∧
      (∀ k ≠ d, dac t k = dac s k) ∧
      t = { s with outs := { s.outs with
        dacs := t.outs.dacs
        vcm := if s.power.st = .reset ∧ muting t = false then .zero else s.outs.vcm
        pumps := if s.power.st = .reset ∧ muting t = false then [] else s.outs.pumps } }) ∧
  (∀ s : State, (∀ e, s.power.entry = some e → e.queried = true → deep e.target = true → allClamped s = true →
      s.outs.vcm = .zero ∨ s.outs.vcm = .rampDown) → vcmFollow s = s) ∧
  (∀ (s : State) (e : SleepEntry), s.power.entry = some e → e.queried = true → deep e.target = true → allClamped s = true →
    s.outs.vcm = .on ∨ s.outs.vcm = .rampUp →
    vcmFollow s = { s with outs := { s.outs with vcm := .rampDown, vcmAt := now s } }) ∧
  (∀ (s : State) (n : Nat), n < 4 → (pump s n).on = true →
    (∀ d ∈ [24 + 2 * n, 25 + 2 * n], (dac s d).phase = .clamped ∧ seqTime s 10000000 ≤ since s (dac s d).since) →
    exec (.pumpStop n) s = .next (onPump n (fun _ => {}) s)) ∧
  (∀ s : State, s.outs.vcm = .rampDown → 40000000 ≤ since s s.outs.vcmAt →
    exec .vcmRampEnd s = .next { s with outs := { s.outs with vcm := .zero } }) ∧
  (∀ s : State, s.outs.vcm = .rampUp → 40000000 ≤ since s s.outs.vcmAt → gHeld s = false →
    ∃ t, exec .vcmRampEnd s = .next t ∧ t.outs.vcm = .on ∧ t = { s with outs := { t.outs with vcmAt := s.outs.vcmAt } } ∧
      (∀ n, pump t n = if n < 4 ∧ (pump s n).on = false ∧ ((dac s (24 + 2 * n)).phase = .waitVcm ∨
          (dac s (25 + 2 * n)).phase = .waitVcm)
        then { on := true, since := now s } else pump s n) ∧
      ∀ d, dac t d = if 34 ≤ d ∨ (dac s d).phase ≠ .waitVcm then dac s d
        else if d < 24 then { dac s d with
          phase := .unmuting, clamp := false, g := .rising, since := now s
          gFrom := gNow s (dac s d), gAt := now s, gLen := 12288, stopped := false }
        else if d < 32 then { dac s d with
          phase := if (pump s ((d - 24) / 2)).on ∧ (pump s ((d - 24) / 2)).up then .servo else .pumpStart
          since := now s, stopped := false }
        else { dac s d with phase := .spkStart, clamp := false, since := now s, stopped := false }) ∧
  (∀ (s : State) (n : Nat), (pump s n).up = true → classHigh s n = false →
    (∃ d ∈ [24 + 2 * n, 25 + 2 * n], 539423503 < (dac s d).level.natAbs) →
    exec (.classgSwitchHigh n) s = .next (onPump n (fun p => { p with high := true }) s)) ∧
  (∀ (s : State) (n : Nat), (pump s n).up = true → classHigh s n = false →
    (∀ d ∈ [24 + 2 * n, 25 + 2 * n], (dac s d).level.natAbs ≤ 381882595) → 100000000 ≤ since s (pump s n).loudAt →
    exec (.classgSwitchLow n) s = .next (onPump n (fun p => { p with high := false }) s)) ∧
  (∀ (s : State) (d : Nat), (dac s d).starve = .fadeOut → 3072 ≤ finalSteps s (dac s d).sAt →
    exec (.starvationFadeEnd d) s = .next (onDac d (fun x => { x with starve := .silent }) s)) ∧
  (∀ (s : State) (d : Nat), (dac s d).starve = .fadeIn → 3072 ≤ finalSteps s (dac s d).sAt →
    exec (.starvationFadeEnd d) s = .next (onDac d (fun x => { x with starve := .none }) s))

/-- Speaker protection (R281, Table 8.5, Table 13.4): an over-current clamps the channel at once, counts the trips of the last
second, locks the channel out at the third and logs the entry; the restart comes 100 ms later; over-temperature pauses both
speaker channels, with an entry for each (the model's choice, log entry 46), and recovery below 120 °C starts them again. -/
def Obligations.SpeakerProtection : Prop :=
  (∀ (s : State) (k : Nat), k < 2 → (dac s (32 + k)).clamp = false →
    let trips := now s :: (dac s (32 + k)).trips.filter (fun t => decide (now s - t < 1000000000))
    exec (.speakerOvercurrent k) s = .next (vcmFollow (logFault 0x0A k (toWord k) (toWord trips.length)
      (onDac (32 + k) (fun x => { x with
        trips := trips, lockout := x.lockout || decide (3 ≤ trips.length), pause := x.pause ||| 1 })
        (clampNow (32 + k) s))))) ∧
  (∀ (s : State) (d : Nat), dac (clampNow d s) d = { dac s d with
      phase := .clamped, clamp := true, g := .zero, level := 0
      since := if (dac s d).phase = .clamped then (dac s d).since else now s } ∧ ∀ e ≠ d, dac (clampNow d s) e = dac s e) ∧
  (∀ (s : State) (k : Nat), k < 2 → (dac s (32 + k)).pause = 1 → (dac s (32 + k)).lockout = false →
    (dac s (32 + k)).phase = .clamped → 100000000 ≤ since s (dac s (32 + k)).since → (active s).outEn (32 + k) = true →
    s.panic.latch = false → s.power.padsHeld = false → running s = true → inSafe s = false → entryHeld s = false → s.power.spkvdd = true →
    ∃ t, exec (.speakerTripRestart k) s = .next t ∧
      dac t (32 + k) = { dac s (32 + k) with pause := 0, phase := .spkStart, clamp := false, since := now s, stopped := false } ∧
      (∀ d, d ≠ 32 + k → dac t d = dac s d) ∧ t = { s with outs := { s.outs with dacs := t.outs.dacs } }) ∧
  (∀ (s : State) (code : Nat), 3264 ≤ code → (dac s 32).pause.getLsbD 1 = false →
    ∃ t, exec (.speakerOvertemp code) s = .next t ∧ (dac t 32).pause = (dac s 32).pause ||| 2 ∧
      (dac t 33).pause = (dac s 33).pause ||| 2 ∧ t.flt.written = s.flt.written + 2 ∧ bit t.irq.pend irqFault = true ∧
      (∀ d ∈ [32, 33], (dac s d).phase = .playing → (dac s d).g = .one →
        (dac t d).phase = .muting ∧ (dac t d).g = .falling ∧ (dac t d).since = now s ∧ (dac t d).gFrom = 2 ^ 32 ∧
        (dac t d).gAt = now s ∧ (dac t d).gLen = 12288) ∧
      (∀ d, d ≠ 32 → d ≠ 33 → dac t d = dac s d) ∧
      t = { s with outs := { s.outs with dacs := t.outs.dacs }, flt := t.flt, irq := { s.irq with pend := t.irq.pend } }) ∧
  (∀ (s : State) (code : Nat), code < 2944 → (dac s 32).pause.getLsbD 1 = true →
    ∃ t, exec (.speakerTempRecover code) s = .next t ∧
      (dac t 32).pause = (dac s 32).pause &&& 5 ∧ (dac t 33).pause = (dac s 33).pause &&& 5 ∧
      (∀ d ∈ [32, 33], (dac s d).phase = .clamped → (dac s d).pause = 2 → (dac s d).lockout = false →
        (active s).outEn d = true → s.panic.latch = false → s.power.padsHeld = false → running s = true →
        inSafe s = false → entryHeld s = false → s.power.spkvdd = true →
        (dac t d).phase = .spkStart ∧ (dac t d).clamp = false ∧ (dac t d).since = now s) ∧
      (∀ d, d ≠ 32 → d ≠ 33 → dac t d = dac s d) ∧ t = { s with outs := { s.outs with dacs := t.outs.dacs } })

/-- Jack detection (R287, R288, R291, R294, R297, R298, Table 8.10): JACK.CFG applies its word at once, ending detection when EN
is 0; JACK.CFG with UNMUTE and the automatic release end the jack mute; MICBIAS writes the modes and answers which regulators
run; a change at HPnDET restarts the count and, with AMUTE, the first indication of removal mutes; and in RUN insertion is
confirmed after 50 ms and removal after 8 ms. -/
def Obligations.JackDetection : Prop :=
  (∀ (a : CmdArgs) (s : State) (n : Nat) (w : JackWord), Admitted rowJackCfg (withFlag a 0 false) s →
    resv (opnd a 0) 3 = false → n = (opnd a 0).toNat → w = ⟨opnd a 1, opnd a 2, opnd a 3⟩ →
    resv w.w0 0xF8000000 = false → resv w.w1 0x0FFF0FFF = false → resv w.w2 0x0FFF0FFF = false →
    fld w.w1 11 0 < fld w.w1 27 16 → fld w.w1 27 16 < fld w.w2 11 0 → fld w.w2 11 0 < fld w.w2 27 16 →
    fld w.w2 27 16 < 1502 →
    ∃ t, exec (.jackCfg a) s = .next (answered 0x61 .ok [] t) ∧ jackWord t n = w ∧ (∀ k ≠ n, jackWord t k = jackWord s k) ∧
      (∀ k ≠ n, jackRun t k = jackRun s k) ∧
      t = { s with jack := t.jack, outs := { s.outs with dacs := t.outs.dacs, pumps := t.outs.pumps } } ∧
      (w.en = false → (jackRun t n).present = false ∧ (jackRun t n).cls = 0 ∧ (jackRun t n).step = .none ∧
        (jackRun t n).muted = false) ∧
      (w.en = true → (jackRun s n).step ≠ .none → (jackRun t n).step = .waiting ∧ (jackRun t n).orient = .idle) ∧
      (w.en = true → (jackRun s n).step = .none → (jackRun t n) = { jackRun s n with
        since := if (jackWord s n).en = false ∨ (jackWord s n).inv ≠ w.inv then now s else (jackRun s n).since })) ∧
  (∀ (a : CmdArgs) (s : State) (n : Nat), Admitted rowJackCfg (withFlag a 0 true) s → resv (opnd a 0) 3 = false →
    n = (opnd a 0).toNat → (jackRun s n).muted = true →
    ∃ t, exec (.jackUnmute a) s = .next (answered 0x61 .ok [] t) ∧ (jackRun t n).muted = false ∧
      t = startJack n (onJack n (fun j => { j with muted := false, removing := false }) (fresh s))) ∧
  (∀ (a : CmdArgs) (s : State), Admitted rowMicbias a s → resv (opnd a 0) 0xFF = false →
    (∀ n < 4, micMode ((opnd a 0).setWidth 8) n ≠ 3) →
    ∃ t, exec (.micbias a) s = .next (answered 0x62 .ok [wordOf (indexes 4 (micOn t))] t) ∧
      t = { s with jack := { s.jack with micbias := (opnd a 0).setWidth 8 } }) ∧
  (∀ (s : State) (n : Nat) (level : Bool), n < 4 → (jackRun s n).pin ≠ level → (jackWord s n).amute = false →
    exec (.hpdetChange n level) s = .next (onJack n (fun j => { j with pin := level, since := now s }) s)) ∧
  (∀ (s : State) (n : Nat), n < 4 → (jackRun s n).pin = (jackWord s n).inv → (jackWord s n).en = true →
    (jackWord s n).amute = true → (jackRun s n).present = true → (jackRun s n).muted = false →
    ∃ t, exec (.hpdetChange n (!(jackRun s n).pin)) s = .next t ∧ jackRun t n = { jackRun s n with
        pin := !(jackRun s n).pin, since := now s, muted := true, removing := true, muteAt := now s } ∧
      (∀ d ∈ [24 + 2 * n, 25 + 2 * n], (dac s d).phase = .playing → (dac s d).g = .one →
        (dac t d).phase = .muting ∧ (dac t d).g = .falling) ∧
      t = { s with jack := { s.jack with run := t.jack.run }, outs := { s.outs with dacs := t.outs.dacs } }) ∧
  (∀ (s : State) (n : Nat), (jackRun s n).muted = true → (jackRun s n).removing = true →
    (plugSeen s n = true ∨ (8000000 ≤ since s (jackRun s n).muteAt ∧ since s (jackRun s n).since < 8000000)) →
    exec (.jackMuteAutoRelease n) s = .next (startJack n (onJack n (fun j => { j with muted := false, removing := false }) s))) ∧
  (∀ (s : State) (n : Nat), n < 4 → s.power.st = .run → (jackWord s n).en = true → plugSeen s n = true →
    (jackRun s n).present = false → 50000000 ≤ since s (jackRun s n).since →
    exec (.insertionConfirmed n) s = .next (onJack n (fun j => { j with present := true, cls := 6, step := .waiting }) s)) ∧
  (∀ (s : State) (n : Nat), s.power.st = .run → (jackWord s n).en = true → plugSeen s n = false →
    (jackRun s n).present = true → 8000000 ≤ since s (jackRun s n).since →
    ∃ t, exec (.removalConfirmed n) s = .next t ∧ (jackRun t n).present = false ∧ (jackRun t n).cls = 0 ∧
      (jackRun t n).orient = .idle ∧ (jackRun t n).step = .none ∧ bit t.irq.pend irqJack = true ∧
      t = { s with jack := { s.jack with run := t.jack.run }, outs := { s.outs with dacs := t.outs.dacs },
                   irq := { s.irq with pend := t.irq.pend } })

/-- Jack classification (R289, R290, R314, Tables 8.8, 8.9, 14.8): the probe starts once both outputs are clamped, and a supply lockout, or
HPVDD out of its range, keeps the clamp; each read is made at
its time and, unless the converter drops it, moves classification on by its code; a dropped read, of the tip or of the microphone, is tried again 100 µs
later and given up as UNKNOWN 10 ms after its first attempt. -/
def Obligations.JackClassification : Prop :=
  (∀ (s : State) (n : Nat), (jackRun s n).step = .waiting → classifyFree s = true →
    (dac s (24 + 2 * n)).phase = .clamped → (dac s (25 + 2 * n)).phase = .clamped →
    ∃ t, exec (.classificationStart n) s = .next t ∧ (jackRun t n).step = .tip ∧ (jackRun t n).stepAt = now s ∧
      (jackRun t n).orient = .idle ∧ (jackRun t n).cls = 6 ∧ (jackRun t n).dropped = false ∧
      (∀ d, dac t d = if d = 24 + 2 * n ∨ d = 25 + 2 * n then { (dac s d).halt with phase := .probing, clamp := (dac s d).lockout || !s.power.hpvdd }
        else dac s d) ∧
      t = { s with jack := { s.jack with run := t.jack.run }, outs := { s.outs with dacs := t.outs.dacs } }) ∧
  (∀ (s : State) (n code : Nat), readDue n .tip 1000000 s = true → code < 4096 →
    let m := urgentMeets s
    let s2 := clampJack n (senseResult n 3 2 code { m.2 with sense := { m.2.sense with urgent := true } })
    exec (.tipRead n code) s = .next (settle s (
      if m.1 then onJack n (fun j => { j with dropped := true, stepAt := now s, tryAt := now s }) (dropUrgent m.2)
      else if 2730 < code then classEnd n 4 s2 else if 546 ≤ code then classEnd n 5 s2
      else onJack n (fun j => { j with orient := .ctia, step := .micA, stepAt := now s, dropped := false }) s2))) ∧
  (∀ (s : State) (n code : Nat), readDue n .micA 6000000 s = true → code < 4096 →
    let m := urgentMeets s
    exec (.micReadA n code) s = .next (settle s (
      if m.1 then onJack n (fun j => { j with dropped := true, stepAt := now s, tryAt := now s }) (dropUrgent m.2)
      else onJack n (fun j => { j with micA := code, orient := .omtp, step := .micB, stepAt := now s, dropped := false })
        (senseResult (4 + n) 3 0 code { m.2 with sense := { m.2.sense with urgent := true } })))) ∧
  (∀ (s : State) (n code : Nat), readDue n .micB 6000000 s = true → code < 4096 →
    let m := urgentMeets s
    exec (.micReadB n code) s = .next (settle s (
      if m.1 then onJack n (fun j => { j with dropped := true, stepAt := now s, tryAt := now s }) (dropUrgent m.2)
      else classEnd n
        (if micWindow (jackRun s n).micA then 2 else if micWindow code then 3
          else if (jackRun s n).micA < 137 ∧ code < 137 then 1 else 5)
        (senseResult (4 + n) 3 0 code { m.2 with sense := { m.2.sense with urgent := true } })))) ∧
  (∀ (s : State) (n : Nat) (cls : BitVec 3), s.power.st = .run → (jackRun s n).muted = false →
    ∃ t, t = classEnd n cls s ∧ (jackRun t n).cls = cls ∧ (jackRun t n).step = .none ∧ bit t.irq.pend irqJack = true ∧
      (jackRun t n).orient = (if cls = 2 then .ctia else if cls = 3 then .omtp else .grounded)) ∧
  (∀ (s : State) (n : Nat), (jackRun s n).step ∈ [.tip, .micA, .micB] → (jackRun s n).dropped = true →
    classifyFree s = true → 10000000 ≤ since s (jackRun s n).stepAt → exec (.classificationTimeout n) s = .next (settle s (classEnd n 5 s))) ∧
  (∀ (s : State) (n code : Nat), (jackRun s n).dropped = true → 100000 ≤ since s (jackRun s n).tryAt →
    (jackRun s n).step = .micA → classifyFree s = true → code < 4096 →
    let m := urgentMeets s
    exec (.detectionReadReissue n code) s = .next (settle s (
      if m.1 then onJack n (fun j => { j with tryAt := now s }) (dropUrgent m.2)
      else onJack n (fun j => { j with micA := code, orient := .omtp, step := .micB, stepAt := now s, dropped := false })
        (senseResult (4 + n) 3 0 code { m.2 with sense := { m.2.sense with urgent := true } })))) ∧
  (∀ (s : State) (n code : Nat), (jackRun s n).dropped = true → 100000 ≤ since s (jackRun s n).tryAt →
    (jackRun s n).step = .tip → classifyFree s = true → code < 4096 →
    let m := urgentMeets s
    let s2 := clampJack n (senseResult n 3 2 code { m.2 with sense := { m.2.sense with urgent := true } })
    exec (.detectionReadReissue n code) s = .next (settle s (
      if m.1 then onJack n (fun j => { j with tryAt := now s }) (dropUrgent m.2)
      else if 2730 < code then classEnd n 4 s2 else if 546 ≤ code then classEnd n 5 s2
      else onJack n (fun j => { j with orient := .ctia, step := .micA, stepAt := now s, dropped := false }) s2))) ∧
  (∀ (s : State) (n code : Nat), (jackRun s n).dropped = true → 100000 ≤ since s (jackRun s n).tryAt →
    (jackRun s n).step = .micB → classifyFree s = true → code < 4096 →
    let m := urgentMeets s
    exec (.detectionReadReissue n code) s = .next (settle s (
      if m.1 then onJack n (fun j => { j with tryAt := now s }) (dropUrgent m.2)
      else classEnd n
        (if micWindow (jackRun s n).micA then 2 else if micWindow code then 3
          else if (jackRun s n).micA < 137 ∧ code < 137 then 1 else 5)
        (senseResult (4 + n) 3 0 code { m.2 with sense := { m.2.sense with urgent := true } }))))

/-- Buttons (R292, Table 8.11): a read that the converter drops waits for its reissue; of the others eight in one window make a
press with its button, or a release, and fewer only count. -/
def Obligations.JackButtons : Prop :=
  (∀ (s : State) (n code : Nat), buttonsOn s n = true → code < 4096 →
    let m := urgentMeets s
    let w := buttonWindow (jackWord s n) code
    let cnt := if (jackRun s n).win = w then min 9 ((jackRun s n).cnt + 1) else 1
    ∃ t, exec (.buttonSample n code) s = .next t ∧
      jackRun t n = (if m.1 then { jackRun s n with dropped := true, tryAt := now s } else { jackRun s n with
        win := w, cnt := cnt, dropped := false
        pressed := if cnt = 8 then decide (w < 4) else (jackRun s n).pressed
        button := if cnt = 8 ∧ w < 4 then BitVec.ofNat 2 w else (jackRun s n).button }) ∧
      t = { s with jack := { s.jack with run := t.jack.run }, irq := { s.irq with pend := t.irq.pend }, sense := t.sense,
                   free := t.free, power := { s.power with heldJack := t.power.heldJack } }) ∧
  (∀ (s : State) (n code : Nat), s.power.st = .run → buttonsOn s n = true → code < 4096 → (jackRun s n).cnt = 7 →
    (jackRun s n).win = buttonWindow (jackWord s n) code → (jackRun s n).pressed = decide (4 ≤ (jackRun s n).win) →
    ∃ t, exec (.buttonSample n code) s = .next t ∧ ((urgentMeets s).1 = false → bit t.irq.pend irqJack = true)) ∧
  (∀ (s : State) (n code : Nat), buttonsOn s n = true → code < 4096 → (jackRun s n).cnt ≠ 7 →
    ∃ t, exec (.buttonSample n code) s = .next t ∧ t.irq = s.irq)

/-- The emergency mute (R214–R216, R223, R383, Tables 6.12, 6.13, 11.6): with EN an assertion sets the latch, clamps every output at once and
raises PANIC, in every state with power, through a sleep entry, which goes on, and from a classification, which runs anew; PANIC.CFG writes its
setting, BUSY while the latch is set, and answers the level of the chosen input (a free bit while EN is
1, log entry 24); and RELEASE clears the latch, with a start event at every
output, when the input is no longer asserted, else it is REFUSED; with the latch clear it does nothing. That an input without
IOVDD_A gives no edge is the model's choice (log entry 197). -/
def Obligations.EmergencyMute : Prop :=
  (∀ s : State, s.power.st ≠ .off → s.power.st ≠ .reset → s.power.iovddA = true → bit s.panic.cfg 31 = true →
    exec .panicAssert s = .next (vcmFollow (raiseIrq irqPanic (clampAll { holdClass s with
      panic := { s.panic with latch := true, level := true } })))) ∧
  (∀ s : State, s.power.st ≠ .off → s.power.st ≠ .reset → s.power.iovddA = true → bit s.panic.cfg 31 = true →
    ∃ t, exec .panicAssert s = .next t ∧ t.power = s.power ∧ t.deferred = s.deferred ∧ t.panic.latch = true ∧
      bit t.irq.pend irqPanic = true ∧ ∀ d < 34, (dac t d).clamp = true ∧ (dac t d).phase = .clamped) ∧
  (∀ s : State, (bit s.panic.cfg 31 = false ∨ s.power.iovddA = false ∨ s.power.st = .reset ∨ s.power.st = .off) →
    exec .panicAssert s = .next (vcmFollow s)) ∧
  (∀ s : State, (∀ n < 4, (jackRun s n).step = .none ∨ (jackRun s n).step = .waiting) → holdClass s = s) ∧
  (∀ (s : State) (n : Nat), n < 4 → (jackRun s n).step ∈ [.tip, .micA, .micB] →
    jackRun (holdClass s) n = { jackRun s n with step := .waiting, orient := .idle, dropped := false }) ∧
  (∀ (s : State) (d : Nat), d < 34 → (dac (clampAll s) d).clamp = true ∧ (dac (clampAll s) d).g = .zero ∧
    (dac (clampAll s) d).phase = .clamped ∧ (dac (clampAll s) d).level = 0 ∧
    (dac (clampAll s) d).starve = (dac s d).starve) ∧
  (∀ (a : CmdArgs) (s : State), Admitted rowPanicCfg (withFlag a 0 false) s → resv (opnd a 0) 0xC000010F = false →
    s.panic.latch = false → (s.power.straps.flash = true → fld (opnd a 0) 3 0 < 8 ∨ 11 < fld (opnd a 0) 3 0) →
    ∃ t w, exec (.panicCfg a) s = .next (answered 0x46 .ok [w] t) ∧ t.panic.cfg = opnd a 0 ∧ t.panic.latch = false ∧
      bit w 31 = false ∧ bit w 30 = t.panic.level ∧
      t.panic.level = (bit (opnd a 0) 31 && bit (Config.freeWord s.free) 0) ∧
      t = { s with panic := t.panic, free := t.free }) ∧
  (∀ (a : CmdArgs) (s : State), Admitted rowPanicCfg (withFlag a 0 false) s → resv (opnd a 0) 0xC000010F = false →
    s.panic.latch = true → (s.power.straps.flash = true → fld (opnd a 0) 3 0 < 8 ∨ 11 < fld (opnd a 0) 3 0) →
    exec (.panicCfg a) s = .next (answered 0x46 .busy [] s)) ∧
  (∀ (a : CmdArgs) (s : State), Admitted rowPanicCfg (withFlag a 0 true) s → opnd a 0 = 0 → s.panic.latch = false →
    ∃ t w, exec (.panicRelease a) s = .next (answered 0x46 .ok [w] t) ∧ bit w 31 = false ∧ bit w 30 = t.panic.level ∧
      t.panic.latch = false ∧ t.panic.cfg = s.panic.cfg ∧ t = { s with panic := t.panic, free := t.free }) ∧
  (∀ (a : CmdArgs) (s : State), Admitted rowPanicCfg (withFlag a 0 true) s → opnd a 0 = 0 → s.panic.latch = true →
    s.panic.level = false →
    ∃ t, exec (.panicRelease a) s = .next (answered 0x46 .ok [0] t) ∧
      t = startAll { fresh s with panic := { s.panic with latch := false } }) ∧
  (∀ (a : CmdArgs) (s : State), Admitted rowPanicCfg (withFlag a 0 true) s → opnd a 0 = 0 → s.panic.latch = true →
    s.panic.level = true →
    ∃ t, if bit (Config.freeWord s.free) 0
      then exec (.panicRelease a) s = .next (answered 0x46 .refused [0xC0000000] t) ∧ t.panic.latch = true
      else exec (.panicRelease a) s = .next (answered 0x46 .ok [0] t) ∧ t.panic.latch = false ∧ t.panic.level = false)

/-- The sense converter (R302–R306, R309–R312, Tables 8.15 to 8.17): the four commands load, start, watch and convert; a trigger
edge starts the sequence or counts a miss; each entry's conversion writes its result and the last raises SENSE; the watch scan
moves to the next channel of its mask, and after the last begins again with the mask of that moment; and an urgent conversion ends.
That an edge which EDGE does not select does nothing is the model's choice (log entry 174). Behind held pads, and without IOVDD_A, an edge
is ignored (Tables 11.7, 14.8). -/
def Obligations.SenseConverter : Prop :=
  (∀ (a : CmdArgs) (s : State) (w : Word) (es : List Word), Admitted rowSenseSeq a s → a.ops = w :: es → resv w 3 = false →
    es.all (fun e => !entryResv e && !bit e 4) = true → s.sense.idx = none →
    exec (.senseSeq a) s = .next (answered 0x63 .ok [] { s with sense := { s.sense with edge := w.setWidth 2, seq := es } })) ∧
  (∀ (a : CmdArgs) (s : State), Admitted rowSenseStart a s → s.sense.idx = none → s.sense.seq ≠ [] →
    ∃ t, exec (.senseStart a) s = .next (answered 0x64 .ok [] t) ∧ t.sense.idx = some 0 ∧
      t.sense.scanCh = (if senseOn s then some (scanAt s).1 else s.sense.scanCh) ∧
      t.sense.scanMask = (if senseOn s then (scanAt s).2 else s.sense.scanMask) ∧
      t = { s with free := t.free, sense := { s.sense with
        idx := some 0, watchTail := t.sense.watchTail, scanCh := t.sense.scanCh, scanMask := t.sense.scanMask } }) ∧
  (∀ (a : CmdArgs) (s : State), Admitted rowSenseNow a s → entryResv (opnd a 0) = false → bit (opnd a 0) 4 = false →
    ∃ t w, if (urgentMeets s).1
      then exec (.senseNow a) s = .next (answered 0x65 .busy [] t) ∧
        t = { s with free := t.free, sense := { s.sense with drops := min 65535 (s.sense.drops + 1) } }
      else exec (.senseNow a) s = .next (answered 0x65 .ok [w] t) ∧
        tget 0 t.sense.results (fld (opnd a 0) 4 0) = w ∧ fld w 15 14 = 1 ∧ fld w 13 12 = fld (opnd a 0) 13 12 ∧
        fld w 31 16 = (fld (tget 0 s.sense.results (fld (opnd a 0) 4 0)) 31 16 + 1) % 65536 ∧
        t = { s with free := t.free, sense := { s.sense with results := t.sense.results } }) ∧
  (∀ (a : CmdArgs) (s : State), Admitted rowSenseWatch a s → resv (opnd a 0) 0x0FFF0000 = false →
    exec (.senseWatch a) s = .next (answered 0x66 .ok
      [opnd a 0 ||| 0x01C00000 ||| (if s.margin.running then 0x0E000000 else 0)]
      { s with sense := { s.sense with
        hostMask := opnd a 0
        scanCh := if senseOn s then some (scanAt s).1 else s.sense.scanCh
        scanMask := if senseOn s then (scanAt s).2 else s.sense.scanMask } })) ∧
  (∀ (s : State) (rising : Bool), senseOn s = true → s.power.padsHeld = false →
    s.power.iovddA = true → s.sense.edge.getLsbD (if rising then 0 else 1) = true →
    s.sense.idx = none → s.sense.seq ≠ [] →
    ∃ t, exec (.senseTrigEdge rising) s = .next t ∧ t.sense.idx = some 0 ∧
      t = { s with free := t.free, sense := { s.sense with
        idx := some 0, watchTail := t.sense.watchTail, scanCh := some (scanAt s).1, scanMask := (scanAt s).2 } }) ∧
  (∀ (s : State) (rising : Bool) (i : Nat), senseOn s = true → s.power.padsHeld = false →
    s.power.iovddA = true → s.sense.edge.getLsbD (if rising then 0 else 1) = true →
    s.sense.idx = some i →
    exec (.senseTrigEdge rising) s = .next { s with sense := { s.sense with misses := min 255 (s.sense.misses + 1) } }) ∧
  (∀ (s : State) (rising : Bool), (s.power.padsHeld = true ∨ s.power.iovddA = false ∨
      s.sense.edge.getLsbD (if rising then 0 else 1) = false) →
    exec (.senseTrigEdge rising) s = .next s) ∧
  (∀ (s : State) (code i : Nat), s.sense.idx = some i → senseOn s = true → s.sense.urgent = false →
    s.sense.watchTail = false →
    exec (.sequenceEntryComplete code) s = .next (
      let e := s.sense.seq.getD i 0
      let s1 := senseResult (fld e 4 0) 0 (fld e 13 12) code s
      if i + 1 < s.sense.seq.length then { s1 with sense := { s1.sense with idx := some (i + 1) } }
      else raiseIrq irqSense { s1 with sense := { s1.sense with idx := none } })) ∧
  (∀ (s : State) (ch src gain code : Nat), src < 4 → gain < 4 →
    let t := senseResult ch src gain code s
    fld (tget 0 t.sense.results ch) 11 0 = code % 4096 ∧ fld (tget 0 t.sense.results ch) 13 12 = gain ∧
      fld (tget 0 t.sense.results ch) 15 14 = src ∧
      fld (tget 0 t.sense.results ch) 31 16 = (fld (tget 0 s.sense.results ch) 31 16 + 1) % 65536 ∧
      ∀ k ≠ ch, tget 0 t.sense.results k = tget 0 s.sense.results k) ∧
  (∀ (s : State) (code ch c : Nat), senseOn s = true → s.sense.urgent = false → s.sense.idx = none →
    s.sense.scanCh = some ch → (bitsOf s.sense.scanMask).find? (fun k => decide (ch < k)) = some c →
    ∃ t, exec (.watchConversion code) s = .next t ∧ t.sense.scanCh = some c ∧ t.sense.scanMask = s.sense.scanMask ∧
      t.sense.results = (senseResult ch 2 0 code s).sense.results ∧ t.sense.watchTail = false ∧
      t = { s with sense := { s.sense with scanCh := some c, results := t.sense.results, watchTail := false } }) ∧
  (∀ (s : State) (code ch : Nat), senseOn s = true → s.sense.urgent = false → s.sense.idx = none →
    s.sense.scanCh = some ch → (bitsOf s.sense.scanMask).find? (fun k => decide (ch < k)) = none →
    ∃ t, exec (.watchConversion code) s = .next t ∧ t.sense.scanCh = some (lowest (watchMask s)) ∧
      t.sense.scanMask = watchMask s ∧ t.sense.results = (senseResult ch 2 0 code s).sense.results ∧
      t = { s with sense := { s.sense with
        scanCh := t.sense.scanCh, scanMask := t.sense.scanMask, results := t.sense.results, watchTail := false } }) ∧
  (∀ s : State, exec .urgentConversionComplete s = .next { s with sense := { s.sense with urgent := false } })

/-- Flow contexts (R232, R235, R257, R258, Table 7.14): FLOW.BIND writes the context of its flow in SHADOW, refused with the lowest
flow of SHADOW that takes the same endpoint or lane; FLOW.UNBIND makes the context zero; and every other context stands. -/
def Obligations.FlowContexts : Prop :=
  (∀ (a : CmdArgs) (s : State), Admitted rowFlowBind a s → resv (opnd a 0) 0xFF = false → bindResv (bindQuad a) = false →
    bindRange (opnd a 0).toNat (bindQuad a) = false → clashing s (opnd a 0).toNat (bindQuad a) = none →
    ∃ t, exec (.flowBind a) s = .next (answered 0x50 .ok [] t) ∧ t = onShadow (fun c => { c with flows := (shadow t).flows }) (shadowReads 0x50 a s) ∧
      ∀ f, (shadow t).flow f = if f = (opnd a 0).toNat then ⟨opnd a 1, opnd a 2, opnd a 3, opnd a 4⟩ else (shadow s).flow f) ∧
  (∀ (a : CmdArgs) (s : State) (g : Nat), Admitted rowFlowBind a s → resv (opnd a 0) 0xFF = false →
    bindResv (bindQuad a) = false → bindRange (opnd a 0).toNat (bindQuad a) = false →
    clashing s (opnd a 0).toNat (bindQuad a) = some g →
    exec (.flowBind a) s = .next (answered 0x50 .refused [toWord g] s)) ∧
  (∀ (a : CmdArgs) (s : State), Admitted rowFlowUnbind a s → resv (opnd a 0) 0xFF = false →
    ∃ t, exec (.flowUnbind a) s = .next (answered 0x51 .ok [] t) ∧ t = onShadow (fun c => { c with flows := (shadow t).flows }) (shadowReads 0x51 a s) ∧
      ∀ f, (shadow t).flow f = if f = (opnd a 0).toNat then ⟨0, 0, 0, 0⟩ else (shadow s).flow f)

/-- A sample of a flow (R27, R29, R40, R216, R226–R235, R240, R249, R251–R253, R326, Tables 6.12, 7.2, 7.9): in each period of a running flow
its 64-bit counter advances by one, and its sample comes from its endpoint or goes to it. The samples of a start are 0 with SET, and
a delay line gives its oldest. An ingress flow of a TDM or AES3 port takes the oldest word of its FIFO and repeats the last where it
finds none; one of a channel takes the capture point's sample (CrossFades says what that is), one of a microphone its decimator's,
one of a core the presented frame's, and one through the ASRC the output of its channel, whose value is free (the model's choice, log
entry 2). An egress flow gives its lane's sample (MatrixItems says what an output lane's is) to its port or DAC's FIFO, to the support
of its ASRC channel, or to its core; a digital one under PANIC's DIG sends 0 with SET. The outputs of an egress flow's ASRC channel pass its
FIFO too, and its endpoint takes the oldest word there, the next output where the FIFO is empty, the last sample again with CUT where
there is neither, and 0 with SET before the start is over. That a FOREIGN flow's channel follows the frames its endpoint took is the model's
choice (log entry 194). A flow of which FDMA's read of the context fails
is taken as stopped (Table 10.13). That a return flow's sample keeps the EPO of the core's own version is the model's choice (log
entry 53). -/
def Obligations.FlowSamples : Prop :=
  (∀ (s : State) (f : Nat) (even odd : List Int), ((active s).flow f).bound = true → (flowRun s f).running = true →
    audioRuns s = true → s.mem.upsets.all (fun u => match u with | .context _ _ | .gain _ _ => false | _ => true) = true →
    ∃ t, exec (.flowSample f even odd) s = .next t ∧ (flowRun t f).seq = ((flowRun s f).seq + 1) % 2 ^ 64 ∧
      t.sets = s.sets ∧ t.clk = s.clk ∧ t.power = s.power ∧ (s.cp.lock = none → t.cp = s.cp) ∧ t.host = s.host ∧
      t.cal = s.cal) ∧
  (∀ (s : State) (f : Nat) (even odd : List Int) (e : BeatErr), ((active s).flow f).bound = true → (flowRun s f).running = true →
    audioRuns s = true → s.cp.lock = none → contextUpset s f = some e →
    exec (.flowSample f even odd) s = .next (settle s (contextLost f ((active s).flow f) e s)) ∧
      (flowRun (contextLost f ((active s).flow f) e s) f).running = false) ∧
  (∀ (s : State) (f : Nat) (even odd : List Int), f < 128 → ((active s).flow f).bound = true → (flowRun s f).running = true →
    audioRuns s = true → 0 < (flowRun s f).startLeft → (flowRun s f).cutNext = false → gHeld s = false → s.mem.upsets = [] →
    s.cp.lock = none →
    ∃ t, exec (.flowSample f even odd) s = .next t ∧ (flowRun t f).startLeft = (flowRun s f).startLeft - 1 ∧
      tget ⟨0, 0⟩ t.mtx.laneIn ((active s).flow f).lane = ⟨0, stamp s tSET⟩) ∧
  (∀ (s : State) (f : Nat) (even odd : List Int) (y : Sample) (rest : List Sample), f < 128 → ((active s).flow f).kind ∈ [3, 4] →
    ((active s).flow f).rel = 0 → FlowPlain s f → (flowRun s f).fifo = y :: rest → (flowRun s f).delay = [] →
    ∃ t, exec (.flowSample f even odd) s = .next t ∧ (flowRun t f).fifo = rest ∧ (flowRun t f).fifoCut = false ∧
      tget ⟨0, 0⟩ t.mtx.laneIn ((active s).flow f).lane =
        ⟨y.val, stamp s (if (flowRun s f).fifoCut then y.tag ||| tCUT else y.tag)⟩) ∧
  (∀ (s : State) (f : Nat) (even odd : List Int) (y z : Sample) (rest zs : List Sample), f < 128 → ((active s).flow f).kind ∈ [3, 4] →
    ((active s).flow f).rel = 0 → FlowPlain s f → (flowRun s f).fifo = y :: rest → (flowRun s f).delay = z :: zs →
    (flowRun s f).fifoCut = false →
    ∃ t, exec (.flowSample f even odd) s = .next t ∧ (flowRun t f).fifo = rest ∧ (flowRun t f).delay = zs ++ [y] ∧
      tget ⟨0, 0⟩ t.mtx.laneIn ((active s).flow f).lane = ⟨z.val, stamp s z.tag⟩) ∧
  (∀ (s : State) (f : Nat) (even odd : List Int) (x : Sample), f < 128 → ((active s).flow f).kind ∈ [3, 4] →
    (((active s).flow f).rel = 0 ∨ (flowRun s f).stopped = true) → FlowPlain s f → (flowRun s f).fifo = [] →
    (flowRun s f).delay = [] → (flowRun s f).last = some x →
    ∃ t, exec (.flowSample f even odd) s = .next t ∧ (flowRun t f).slips = min 15 ((flowRun s f).slips + 1) ∧
      bit t.irq.pend irqSlip = true ∧
      tget ⟨0, 0⟩ t.mtx.laneIn ((active s).flow f).lane = ⟨x.val, stamp s (x.tag ||| tCUT)⟩) ∧
  (∀ (s : State) (f : Nat) (even odd : List Int), f < 128 → ((active s).flow f).kind = 1 → ((active s).flow f).rel = 0 →
    FlowPlain s f → (flowRun s f).delay = [] →
    let x := (captureAin ((active s).flow f).ep (atFrame s ((active s).flow f).lane) even odd s).1
    ∃ t, exec (.flowSample f even odd) s = .next t ∧
      tget ⟨0, 0⟩ t.mtx.laneIn ((active s).flow f).lane = ⟨x.val, stamp s x.tag⟩) ∧
  (∀ (s : State) (f : Nat) (even odd : List Int), f < 128 → ((active s).flow f).kind = 5 → ((active s).flow f).rel = 0 →
    FlowPlain s f → (flowRun s f).delay = [] → (flowRun s f).stopped = false →
    let x := (mic s ((active s).flow f).ep).out
    ∃ t, exec (.flowSample f even odd) s = .next t ∧
      (mic t ((active s).flow f).ep).out = ⟨x.val, x.tag &&& 0b1101#4⟩ ∧
      tget ⟨0, 0⟩ t.mtx.laneIn ((active s).flow f).lane = ⟨x.val, stamp s (x.tag |||
        (if (tget ({} : PdmRun) s.ports.pdmRun (((active s).flow f).ep / 4)).running then 0 else tSET))⟩) ∧
  (∀ (s : State) (f : Nat) (even odd : List Int) (v : Version), f < 128 → ((active s).flow f).kind = 6 →
    ((active s).flow f).rel = 0 → FlowPlain s f → (flowRun s f).delay = [] →
    let c := core s (((active s).flow f).ep / 32)
    c.st = .running → c.shown = some v → c.shownCut = false → c.cutFirst = false →
    ∃ t, exec (.flowSample f even odd) s = .next t ∧ (flowRun t f).pos = (flowRun s f).pos + 1 ∧
      tget ⟨0, 0⟩ t.mtx.laneIn ((active s).flow f).lane = tget ⟨0, tSET ||| v.epo⟩ v.out
        (16 * (((active s).flow f).ep % 32) + (flowRun s f).pos % 16)) ∧
  (∀ (s : State) (f : Nat) (even odd : List Int), f < 128 → ((active s).flow f).kind = 6 →
    ((active s).flow f).rel = 0 → FlowPlain s f → (flowRun s f).delay = [] →
    (core s (((active s).flow f).ep / 32)).st = .halted →
    ∃ t, exec (.flowSample f even odd) s = .next t ∧
      tget ⟨0, 0⟩ t.mtx.laneIn ((active s).flow f).lane = ⟨0, tSET ||| tCUT ||| epo s⟩) ∧
  (∀ (s : State) (f : Nat) (even odd : List Int), f < 128 → ((active s).flow f).bound = true → ((active s).flow f).rel ≠ 0 →
    FlowPlain s f → (flowRun s f).delay = [] → (flowRun s f).fifo = [] → (flowRun s f).stopped = false →
    (flowRun s f).hist ≠ [] → ((active s).flow f).kind ≠ 6 →
    let k := tracker s (trackerOf ((active s).flow f))
    ∃ t, exec (.flowSample f even odd) s = .next t ∧ tget ⟨0, 0⟩ t.mtx.laneIn ((active s).flow f).lane =
      if ((active s).flow f).rel = 2 ∧ k.outOfRange = true then ⟨0, stamp s tSET⟩
      else ⟨Config.freeWord s.free, stamp s (histTag (flowRun s f).hist (flowRun s f).hist.length |||
        (if ((active s).flow f).rel = 2 ∧ k.locked = false then tSET else 0))⟩) ∧
  (∀ (s : State) (f : Nat) (even odd : List Int), 128 ≤ f → ((active s).flow f).kind ∈ [2, 3, 4] → ((active s).flow f).rel = 0 →
    (((active s).flow f).kind = 2 → dacTakes s ((active s).flow f).ep = true) → FlowPlain s f →
    (s.panic.latch && bit s.panic.cfg 8) = false → (flowRun s f).stopped = false → (flowRun s f).delay = [] →
    (flowRun s f).muteJ = none → (flowRun s f).dig = false →
    fifoFill s (fifoPeers s f ((active s).flow f)) < fifoDepth ((active s).flow f) →
    ∃ t, exec (.flowSample f even odd) s = .next t ∧
      (flowRun t f).fifo = (flowRun s f).fifo ++ [laneGives s ((active s).flow f)] ∧ ∀ g ≠ f, flowRun t g = flowRun s g) ∧
  (∀ (s : State) (f : Nat) (even odd : List Int), 128 ≤ f → ((active s).flow f).kind ∈ [3, 4] → ((active s).flow f).rel = 0 →
    FlowPlain s f → s.panic.latch = true → bit s.panic.cfg 8 = true →
    frameRead s ((active s).flow f) = true →
    (flowRun s f).stopped = false → (flowRun s f).delay = [] →
    fifoFill s (fifoPeers s f ((active s).flow f)) < fifoDepth ((active s).flow f) →
    ∃ t, exec (.flowSample f even odd) s = .next t ∧ (flowRun t f).fifo = (flowRun s f).fifo ++ [⟨0, stamp s tSET⟩]) ∧
  (∀ (s : State) (f : Nat) (even odd : List Int), 128 ≤ f → ((active s).flow f).kind = 2 →
    dacTakes s ((active s).flow f).ep = false → FlowPlain s f →
    ∃ t, exec (.flowSample f even odd) s = .next t ∧ (flowRun t f).fifo = [] ∧ (flowRun t f).hist = [] ∧ (flowRun t f).ahead = []) ∧
  (∀ (s : State) (f : Nat) (even odd : List Int), 128 ≤ f → ((active s).flow f).kind ∈ [2, 3, 4] → ((active s).flow f).rel ≠ 0 →
    (((active s).flow f).kind = 2 → dacTakes s ((active s).flow f).ep = true) → FlowPlain s f → (flowRun s f).delay = [] →
    (s.panic.latch && bit s.panic.cfg 8) = false → (flowRun s f).dig = false → (flowRun s f).muteJ = none →
    (flowRun s f).stopped = false → (flowRun s f).asrcLeft ≤ 1 →
    fifoFill s (fifoPeers s f ((active s).flow f)) + (flowRun s f).ahead.length ≤ fifoDepth ((active s).flow f) →
    let q := (active s).flow f
    let h := (laneGives s q :: (flowRun s f).hist).take (supportOf f q)
    let place := (flowRun s f).asrcPhase
    ∃ t n, exec (.flowSample f even odd) s = .next t ∧ (flowRun t f).fifo = (flowRun s f).fifo ++ (flowRun s f).ahead ∧
      (flowRun t f).hist = h ∧ (flowRun t f).ahead.length = n ∧ (flowRun t f).begun = true ∧ (flowRun t f).asrcLeft = 0 ∧
      (q.rel = 1 → 0 < rateHz q.laneRate → n = (place + rateHz q.epRate) / rateHz q.laneRate ∧
        (flowRun t f).asrcPhase = (place + rateHz q.epRate) % rateHz q.laneRate) ∧
      (q.rel = 2 → delivers s q = true → 0 < rateHz q.laneRate →
        n = min (flowRun s f).asrcReads (ceilDiv (102 * rateHz q.epRate) (100 * rateHz q.laneRate)) + place / rateHz q.laneRate) ∧
      (∀ x ∈ (flowRun t f).ahead, if q.rel = 2 ∧ (tracker s (trackerOf q)).outOfRange = true then x = ⟨0, stamp s tSET⟩
        else x.tag = stamp s (histTag h h.length ||| (if q.rel = 2 && !(tracker s (trackerOf q)).locked then tSET else 0)))) ∧
  (∀ (s : State) (f : Nat) (y : Sample) (rest : List Sample), (flowRun s f).fifo = y :: rest →
    (endpointRead f s).1 = (if (flowRun s f).fifoCut then ⟨y.val, y.tag ||| tCUT⟩ else y) ∧
    (flowRun (endpointRead f s).2 f).fifo = rest ∧ (flowRun (endpointRead f s).2 f).fifoCut = false) ∧
  (∀ (s : State) (f : Nat) (y : Sample) (rest : List Sample), (flowRun s f).fifo = [] → (flowRun s f).ahead = y :: rest →
    (flowRun s f).stopped = false → fifoFill s (fifoPeers s f ((active s).flow f)) < fifoDepth ((active s).flow f) →
    (endpointRead f s).1 = (if (flowRun s f).fifoCut then ⟨y.val, y.tag ||| tCUT⟩ else y) ∧
    (flowRun (endpointRead f s).2 f).fifo = [] ∧ (flowRun (endpointRead f s).2 f).ahead = rest) ∧
  (∀ (s : State) (f : Nat) (x : Sample), (flowRun s f).fifo = [] → (flowRun s f).ahead = [] → (flowRun s f).last = some x →
    (endpointRead f s).1 = ⟨x.val, x.tag ||| tCUT⟩ ∧
    (flowRun (endpointRead f s).2 f).slips = min 15 ((flowRun s f).slips + 1)) ∧
  (∀ (s : State) (f : Nat), 128 ≤ f → (flowRun s f).fifo = [] → (flowRun s f).ahead = [] → (flowRun s f).last = none →
    (flowRun s f).begun = false →
    (endpointRead f s).1 = ⟨0, if (flowRun s f).fifoCut then stamp s tSET ||| tCUT else stamp s tSET⟩ ∧
    (flowRun (endpointRead f s).2 f).slips = (flowRun s f).slips) ∧
  (∀ (s : State) (f n : Nat) (even odd : List Int), 128 ≤ f → ((active s).flow f).kind = 6 → ((active s).flow f).rel = 0 →
    n = ((active s).flow f).ep / 32 → FlowPlain s f → (flowRun s f).delay = [] → (flowRun s f).muteJ = none →
    (flowRun s f).dig = false → (flowRun s f).pos + 1 < 16 →
    let i := 16 * (((active s).flow f).ep % 32) + (flowRun s f).pos
    ∃ t, exec (.flowSample f even odd) s = .next t ∧ (flowRun t f).pos = (flowRun s f).pos + 1 ∧
      core t n = { core s n with sendBuf := tput dSend (core s n).sendBuf i (laneGives s ((active s).flow f)) })

/-- TDM ports (R237–R242, R255, R260, Tables 7.4, 7.9, 7.11): TDM.CFG takes its word unless a bound flow uses the port; a master
starts at a frame boundary; a slave's frame of a wrong length counts an error, its second correct frame makes it RUNNING, and
then its slots go to the flows that bind them; a running port sends one word a slot, an unbound slot as 0 or, with TRI, at high
impedance; and a stopped clock stops its flows. That a slot's word lies in the low bits of an operand (log entry 52), and that a frame
of a wrong length makes the tracker acquire anew and stops the ASRC flows (log entry 162), are the model's choices. -/
def Obligations.TdmPorts : Prop :=
  (∀ (a : CmdArgs) (s : State), Admitted rowTdmCfg a s → resv (opnd a 0) 3 = false → resv (opnd a 1) 0xFFFFFFE0 = false →
    fld (opnd a 1) 29 28 ≠ 3 → fld (opnd a 1) 14 13 ≠ 3 → fld (opnd a 1) 12 11 ≠ 3 → tdmRate (opnd a 1) ≠ 15 →
    tdmRange s (opnd a 1) = false → tdmInUse s (opnd a 0).toNat (opnd a 1) = none →
    exec (.tdmCfg a) s = .next (settle s (refFollow s (answered 0x52 .ok [] (onTdm (opnd a 0).toNat (fun t => { t with
      cfg := opnd a 1, good := 0, out := [], lastBit := none, rate := 15
      st := if bit (opnd a 1) 31 = false then .off
        else if bit (opnd a 1) 30 = true ∧ (s.power.padsHeld = true ∨ s.clk.a.gated = true) then .stopped
        else .acquiring }) s))))) ∧
  (∀ (s : State) (p : Nat), tdmEn (tdm s p).cfg = true → tdmMaster (tdm s p).cfg = true → (tdm s p).st ≠ .running →
    masterFree s = true → gridRuns s = true →
    exec (.tdmMasterClockStart p) s = .next (onTdm p (fun t => { t with st := .running }) s)) ∧
  (∀ (s : State) (p cycles rate : Nat) (slots : List Word), p < 4 → tdmEn (tdm s p).cfg = true →
    tdmMaster (tdm s p).cfg = false → s.power.iovddA = true → s.power.padsHeld = false → inSafe s = false →
    cycles ≠ tdmSlots (tdm s p).cfg * tdmWidth (tdm s p).cfg →
    ∃ t, exec (.tdmFrameReceive p cycles rate slots) s = .next (settle s (refFollow s t)) ∧
      tdm t p = { tdm s p with st := .acquiring, good := 0, frameErrs := min 255 ((tdm s p).frameErrs + 1) } ∧
      (∀ q ≠ p, tdm t q = tdm s q) ∧ tracker t p = { acquiring := true } ∧ (∀ k ≠ p, tracker t k = tracker s k) ∧
      (∀ f ∈ runningFlows s (fun f q => decide (f < 128) && (tdmFlow p q && q.rel != 0)), (flowRun t f).stopped = true) ∧
      t = { s with ports := { s.ports with tdm := t.ports.tdm, trackers := t.ports.trackers }, flows := t.flows }) ∧
  (∀ (s : State) (p rate : Nat) (slots : List Word), p < 4 → tdmEn (tdm s p).cfg = true → tdmMaster (tdm s p).cfg = false →
    s.power.iovddA = true → s.power.padsHeld = false → inSafe s = false → (tdm s p).st ≠ .running → rate ≤ 15 → s.clk.ref.toNat < 2 →
    ∃ t, exec (.tdmFrameReceive p (tdmSlots (tdm s p).cfg * tdmWidth (tdm s p).cfg) rate slots) s = .next t ∧
      tdm t p = { tdm s p with rate := rate, good := (tdm s p).good + 1, st := if 1 ≤ (tdm s p).good then .running else .acquiring } ∧
      t = { s with ports := { s.ports with tdm := t.ports.tdm } } ∧ ∀ q ≠ p, tdm t q = tdm s q) ∧
  (∀ (s : State) (p rate : Nat) (slots : List Word), p < 4 → tdmEn (tdm s p).cfg = true → tdmMaster (tdm s p).cfg = false →
    s.power.iovddA = true → s.power.padsHeld = false → inSafe s = false → (tdm s p).st = .running →
    exec (.tdmFrameReceive p (tdmSlots (tdm s p).cfg * tdmWidth (tdm s p).cfg) rate slots) s =
      .next (settle s (refFollow s (deliverSlots p slots (onTdm p (fun t => { t with rate := min rate 15 }) s))))) ∧
  (∀ (s : State) (p cycles rate : Nat) (slots : List Word), p < 4 → tdmEn (tdm s p).cfg = true →
    tdmMaster (tdm s p).cfg = true → (tdm s p).st = .running → masterFree s = true →
    s.power.iovddA = true →
    exec (.tdmFrameReceive p cycles rate slots) s = .next (settle s (refFollow s (deliverSlots p slots s)))) ∧
  (∀ (s : State) (p f : Nat) (slots : List Word), runningFlows s (fun g q => decide (g < 128) && tdmFlow p q) = [f] →
    ((active s).flow f).fmt = 0 → fifoFill s (fifoPeers s f ((active s).flow f)) < fifoDepth ((active s).flow f) →
    deliverSlots p slots s = onFlow f (fun r => { r with
      stopped := false
      fifo := r.fifo ++ [⟨slotValue (tdm s p).cfg (slots.getD (((active s).flow f).ep % 32) 0),
        if r.stopped then tCUT else 0⟩] }) s) ∧
  (∀ (s : State) (p : Nat), tdmEn (tdm s p).cfg = true → (tdm s p).st = .running → running s = true →
    s.power.padsHeld = false → (tdmMaster (tdm s p).cfg = true → masterFree s = true) →
    ∃ t, exec (.tdmFrameSend p) s = .next t ∧ (tdm t p).out.length = tdmSlots (tdm s p).cfg ∧
      (tdm t p).out = (slotsSend p (List.range (tdmSlots (tdm s p).cfg)) s).1 ∧
      (tdm t p).lastBit = ((frameBits (tdm s p).cfg (tdm s p).out).getLast?).join ∧
      (∀ q ≠ p, tdm t q = tdm s q) ∧ t.sets = s.sets ∧ t.mtx = s.mtx ∧ t.mem = s.mem) ∧
  (∀ (s : State) (p f k : Nat), (runningFlows s (fun g q => decide (128 ≤ g) && tdmFlow p q && q.ep % 32 == k)).head? = some f →
    (slotSend p k s).1 = some (if ((active s).flow f).fmt = 1 then tagWord (endpointRead f s).1
      else slotContent (tdm s p).cfg (endpointRead f s).1.val)) ∧
  (∀ (s : State) (p k : Nat), runningFlows s (fun g q => decide (128 ≤ g) && tdmFlow p q && q.ep % 32 == k) = [] →
    (bit (tdm s p).cfg 10 = false ∨ k ≠ fld (tdm s p).cfg 9 5) →
    slotSend p k s = (if bit (tdm s p).cfg 24 then none else some 0, s)) ∧
  (∀ (s : State) (p : Nat), p < 4 → tdmEn (tdm s p).cfg = true → tdmMaster (tdm s p).cfg = false → (tdm s p).st ≠ .off →
    s.clk.ref.toNat < 2 →
    ∃ t, exec (.tdmClockStop p) s = .next t ∧ tdm t p = { tdm s p with st := .stopped, good := 0, rate := 15 } ∧
      tracker t p = { acquiring := true } ∧ (∀ k ≠ p, tracker t k = tracker s k) ∧ (∀ q ≠ p, tdm t q = tdm s q) ∧
      (∀ f ∈ runningFlows s (fun f q => decide (f < 128) && tdmFlow p q), (flowRun t f).stopped = true) ∧
      t = { s with ports := { s.ports with tdm := t.ports.tdm, trackers := t.ports.trackers }, flows := t.flows })

/-- AES3 receivers and transmitters (R245–R248, R261, R262, Tables 7.5, 7.9, 7.12): configuration, lock and its loss, subframes
with good and bad parity, channel-status blocks with and without a good CRCC, and the blocks a transmitter sends. PDM clocks and ASRC trackers (R249, R250, R253, R263, Tables 7.6, 7.13). -/
def Obligations.Aes3PdmAndTrackers : Prop :=
  (∀ (a : CmdArgs) (s : State), Admitted rowAesCfg a s → resv (opnd a 0) 3 = false → resv (opnd a 1) 0x80F00300 = false →
    (opnd a 0).toNat < 2 → fld (opnd a 1) 23 20 = 0 → bit (opnd a 1) 9 = false →
    lowestFlow (active s) (fun f q => q.kind == 4 && aesUnit f q == (opnd a 0).toNat) = none →
    ∃ t, exec (.aesCfg a) s = .next (settle s (refFollow s (answered 0x53 .ok [] t))) ∧
      aesCfg t (opnd a 0).toNat = opnd a 1 ∧
      aesRx t (opnd a 0).toNat = { aesRx s (opnd a 0).toNat with
        st := if bit (opnd a 1) 31 then .acquiring else .off, rate := 15, blkA := none, blkB := none } ∧
      t = { s with ports := { s.ports with aesCfg := t.ports.aesCfg, aesRx := t.ports.aesRx } }) ∧
  (∀ (a : CmdArgs) (s : State), Admitted rowAesCfg a s → resv (opnd a 0) 3 = false → resv (opnd a 1) 0x80F00300 = false →
    2 ≤ (opnd a 0).toNat → fld (opnd a 1) 23 20 ∈ [2, 3, 4, 5, 10, 11, 12] → rateInUse s (fld (opnd a 1) 23 20) = true →
    lowestFlow (active s) (fun f q => q.kind == 4 && aesUnit f q == (opnd a 0).toNat) = none →
    exec (.aesCfg a) s = .next (settle s (refFollow s (answered 0x53 .ok [] { s with ports := { s.ports with
      aesCfg := tput 0 s.ports.aesCfg (opnd a 0).toNat (opnd a 1) } })))) ∧
  (∀ (s : State) (rx rate : Nat) (near : Bool), (aesRx s rx).st = .acquiring → s.power.padsHeld = false →
    s.power.iovddA = true → inSafe s = false → (near = true → 32000 ≤ rateHz rate ∧ rateHz rate ≤ 192000) →
    (∀ f ∈ runningFlows s (fun f q => decide (f < 128) && aesIn rx q && q.rel != 2),
      ((active s).flow f).epRate = if near then min rate 15 else 15) → s.clk.ref.toNat < 2 →
    ∃ t, exec (.aes3Lock rx rate near) s = .next t ∧ aesRx t rx = { aesRx s rx with
        st := .locked, rate := if near then min rate 15 else 15, blkA := none, blkB := none } ∧
      (∀ k ≠ rx, aesRx t k = aesRx s k) ∧ t = { s with ports := { s.ports with aesRx := t.ports.aesRx } }) ∧
  (∀ (s : State) (rx : Nat), ((aesRx s rx).st = .locked ∨ (aesRx s rx).st = .mismatch) → s.clk.ref.toNat < 2 →
    ∃ t, exec (.aes3LossOfLock rx) s = .next t ∧
      aesRx t rx = { aesRx s rx with st := .unlocked, rate := 15, lockLosses := min 15 ((aesRx s rx).lockLosses + 1) } ∧
      tracker t (4 + rx) = { acquiring := true } ∧
      (∀ f ∈ runningFlows s (fun f q => decide (f < 128) && aesIn rx q), (flowRun t f).stopped = true) ∧
      t = { s with ports := { s.ports with aesRx := t.ports.aesRx, trackers := t.ports.trackers }, flows := t.flows }) ∧
  (∀ (s : State) (rx sub f : Nat) (bits : BitVec 24) (v : Bool), (aesRx s rx).st = .locked →
    runningFlows s (fun k q => decide (k < 128) && q.kind == 4 && q.ep == 2 * rx + sub % 2 &&
      !aesOff s rx q) = [f] → bit (aesCfg s rx) 8 = true →
    fifoFill s (fifoPeers s f ((active s).flow f)) < fifoDepth ((active s).flow f) →
    exec (.aes3SubframeReceive rx sub bits v true) s = .next (onFlow f (fun r => { r with
      stopped := false
      fifo := r.fifo ++ [⟨toWord (bits.toNat * 256),
        (if v || (aesRx s rx).nonAudio then tSET else 0) ||| (if r.stopped then tCUT else 0)⟩] }) s)) ∧
  (∀ (s : State) (rx sub : Nat) (bits : BitVec 24) (v : Bool), (aesRx s rx).st = .locked →
    ∃ t, exec (.aes3SubframeReceive rx sub bits v false) s = .next t ∧
      aesRx t rx = { aesRx s rx with parityErrs := min 255 ((aesRx s rx).parityErrs + 1) } ∧
      t = { s with ports := { s.ports with aesRx := t.ports.aesRx }, flows := t.flows, irq := { s.irq with pend := t.irq.pend } }) ∧
  (∀ (s : State) (rx sub : Nat) (blk : List Word), (aesRx s rx).st = .locked → blk.length = 6 →
    ((blockByte blk 0).getLsbD 0 = true → blockCrcc blk = (blockByte blk 23).toNat) →
    exec (.aes3BlockReceive rx sub blk) s = .next (onAes rx (fun r => { r with
      pro := (blockByte blk 0).getLsbD 0, nonAudio := (blockByte blk 0).getLsbD 1
      blkA := if sub = 0 then some blk else r.blkA, blkB := if sub = 0 then r.blkB else some blk }) s)) ∧
  (∀ (s : State) (rx sub : Nat) (blk : List Word), (aesRx s rx).st = .locked → blk.length = 6 →
    (blockByte blk 0).getLsbD 0 = true → blockCrcc blk ≠ (blockByte blk 23).toNat →
    exec (.aes3BlockReceive rx sub blk) s = .next (onAes rx (fun r => { r with crccErrs := min 255 (r.crccErrs + 1) }) s)) ∧
  (∀ (a : CmdArgs) (s : State) (w : Word) (blk : List Word), Admitted rowAesCs (withField a 31 31 0) s →
    w = opnd (withField a 31 31 0) 0 → resv w 0x80000013 = false → bit w 31 = false → fld w 1 0 < 2 →
    (if bit w 4 then (aesRx s (fld w 1 0)).blkB else (aesRx s (fld w 1 0)).blkA) = some blk →
    exec (.aesCsRead a) s = .next (answered 0x54 .ok blk s)) ∧
  (∀ (a : CmdArgs) (s : State) (w : Word), Admitted rowAesCs (withField a 31 31 0) s →
    w = opnd (withField a 31 31 0) 0 → resv w 0x80000013 = false → bit w 31 = false → 2 ≤ fld w 1 0 →
    exec (.aesCsRead a) s = .next (answered 0x54 .ok (sentBlock (aesCfg s (fld w 1 0))
      (if bit w 4 then (aesTx s (fld w 1 0 - 2)).curB else (aesTx s (fld w 1 0 - 2)).curA)) s)) ∧
  (∀ (a : CmdArgs) (s : State) (w : Word), Admitted rowAesCs (withField a 31 31 1) s →
    w = opnd (withField a 31 31 1) 0 → resv w 0x80000013 = false → bit w 31 = true → 2 ≤ fld w 1 0 →
    exec (.aesCsWrite a) s = .next (answered 0x54 .ok [] { s with ports := { s.ports with
      aesTx := tmod {} s.ports.aesTx (fld w 1 0 - 2) (fun t =>
        if bit w 4 then { t with newB := a.ops.drop 1 } else { t with newA := a.ops.drop 1 }) } })) ∧
  (∀ (s : State) (tx : Nat), bit (aesCfg s (2 + tx)) 31 = true → tx < 2 → masterFree s = true → gridRuns s = true →
    exec (.aes3ZPreamble tx) s = .next { s with ports := { s.ports with
      aesTx := tmod {} s.ports.aesTx tx (fun t => { t with curA := t.newA, curB := t.newB, frame := 0 }) } }) ∧
  (∀ (a : CmdArgs) (s : State), Admitted rowPdmCfg a s → resv (opnd a 0) 1 = false → resv (opnd a 1) 0x80F03100 = false →
    fld (opnd a 1) 13 12 ≠ 3 → rateInUse s (fld (opnd a 1) 23 20) = true → rateHz (fld (opnd a 1) 23 20) ≤ pdmLimit s (opnd a 1) →
    lowestFlow (active s) (fun _ q => q.kind == 5 && q.ep / 4 == (opnd a 0).toNat) = none →
    ∃ t, exec (.pdmCfg a) s = .next (answered 0x55 .ok [] t) ∧ pdmCfg t (opnd a 0).toNat = opnd a 1 ∧
      (bit (opnd a 1) 31 = false → (tget ({} : PdmRun) t.ports.pdmRun (opnd a 0).toNat).running = false) ∧
      t = { s with ports := { s.ports with pdmCfg := t.ports.pdmCfg, pdmRun := t.ports.pdmRun } }) ∧
  (∀ (s : State) (k : Nat), bit (pdmCfg s k) 31 = true → (tget ({} : PdmRun) s.ports.pdmRun k).running = false →
    masterFree s = true → gridRuns s = true →
    exec (.pdmClockStart k) s = .next { s with ports := { s.ports with
      pdmRun := tput {} s.ports.pdmRun k ⟨true, now s⟩ } }) ∧
  (∀ (s : State) (t : Nat), t < 6 → trackerUsed s t = true → sourceOn s t = true →
    exec (.asrcTrackerLock t) s = .next (onTracker t (fun _ => { locked := true }) s)) ∧
  (∀ (s : State) (t : Nat), (tracker s t).locked = true →
    exec (.asrcReacquire t) s = .next (onTracker t (fun _ => { acquiring := true })
      { s with ports := { s.ports with relocks := min 255 (s.ports.relocks + 1) } })) ∧
  (∀ (s : State) (t : Nat), t < 6 → trackerUsed s t = true →
    exec (.asrcOutOfRange t) s = .next (onTracker t (fun _ => { outOfRange := true }) s))

/-- Word syllables (R87, R88, R90, R98, Table 3.4): on a stream core and on the CP each gives its result, with OVR, SET and CUT of
its sources and tag bit 0 clear, to RD (g0 discards it), and then the next bundle is due; nothing else changes. -/
def Obligations.WordSyllables : Prop :=
  (∀ (s : State) (u : Site) (p : Pred) (rd ra rb : BitVec 5), predOk s u p = true → registerUpset s u = none →
    let a := (gReg s u ra.toNat).val
    let b := (gReg s u rb.toNat).val
    let t := ((gReg s u ra.toNat).tag ||| (gReg s u rb.toNat).tag) &&& 0b1110#4
    BundleGives (.add u p rd ra rb) u (withG rd (a + b) t) s ∧
    BundleGives (.adds u p rd ra rb) u (withG rd (intWord (satQ31 (a.toInt + b.toInt))) t) s ∧
    BundleGives (.sub u p rd ra rb) u (withG rd (a - b) t) s ∧
    BundleGives (.subs u p rd ra rb) u (withG rd (intWord (satQ31 (a.toInt - b.toInt))) t) s ∧
    BundleGives (.and u p rd ra rb) u (withG rd (a &&& b) t) s ∧
    BundleGives (.or u p rd ra rb) u (withG rd (a ||| b) t) s ∧
    BundleGives (.xor u p rd ra rb) u (withG rd (a ^^^ b) t) s ∧
    BundleGives (.min u p rd ra rb) u (withG rd (if a.toInt ≤ b.toInt then a else b) t) s ∧
    BundleGives (.max u p rd ra rb) u (withG rd (if a.toInt ≤ b.toInt then b else a) t) s) ∧
  (∀ (s : State) (n : Fin 4) (p : Pred) (rd ra rb : BitVec 5), predOk s (.sc n) p = true → registerUpset s (.sc n) = none →
    BundleGives (.mulq (.sc n) p rd ra rb) (.sc n) (withG rd
      (intWord (satQ31 (roundDiv ((gReg s (.sc n) ra.toNat).val.toInt * (gReg s (.sc n) rb.toNat).val.toInt) (2 ^ 31))))
      (((gReg s (.sc n) ra.toNat).tag ||| (gReg s (.sc n) rb.toNat).tag) &&& 0b1110#4)) s) ∧
  (∀ (s : State) (u : Site) (p : Pred) (rd ra sh : BitVec 5) (imm : BitVec 10), predOk s u p = true → registerUpset s u = none →
    let a := (gReg s u ra.toNat).val
    let t := (gReg s u ra.toNat).tag &&& 0b1110#4
    BundleGives (.shl u p rd ra sh) u (withG rd (a <<< sh.toNat) t) s ∧
    BundleGives (.shr u p rd ra sh) u (withG rd (a >>> sh.toNat) t) s ∧
    BundleGives (.sar u p rd ra sh) u (withG rd (a.sshiftRight sh.toNat) t) s ∧
    BundleGives (.shls u p rd ra sh) u (withG rd (intWord (satQ31 (a.toInt * 2 ^ sh.toNat))) t) s ∧
    BundleGives (.abs u p rd ra) u (withG rd (intWord (satQ31 a.toInt.natAbs)) t) s ∧
    BundleGives (.addi u p rd ra imm) u (withG rd (a + imm.signExtend 32) t) s) ∧
  (∀ (s : State) (u : Site) (p : Pred) (rd ra rb : BitVec 5) (ps : BitVec 3), predOk s u p = true → registerUpset s u = none →
    let x := if pReg s u ps.toNat then gReg s u ra.toNat else gReg s u rb.toNat
    BundleGives (.sel u p rd ra rb ps) u (withG rd x.val (x.tag &&& 0b1110#4)) s) ∧
  (∀ (s : State) (u : Site) (pr : BitVec 3) (rd : BitVec 5) (imm : BitVec 16), pReg s u pr.toNat = true → registerUpset s u = none →
    BundleGives (.movl u pr rd imm) u (withG rd (imm.setWidth 32) 0) s ∧
    BundleGives (.movh u pr rd imm) u (withG rd (toWord (imm.toNat * 65536 + (gReg s u rd.toNat).val.toNat % 65536))
      (gReg s u rd.toNat).tag) s)

/-- Predicate and tag syllables (R86, R87, R90, R98, Table 3.4): compares, TSTT and predicate logic write PD (p0 discards it);
TAGS, TAGC and TAGW write tag bits OVR, SET and CUT alone, and TAGR reads a tag as a value. -/
def Obligations.PredicateAndTagSyllables : Prop :=
  ∀ (s : State) (u : Site) (p : Pred) (rd ra rb : BitVec 5) (pd pa pb : BitVec 3) (m4 : BitVec 4) (m3 : BitVec 3),
    predOk s u p = true → registerUpset s u = none →
    let a := gReg s u ra.toNat
    let b := gReg s u rb.toNat
    BundleGives (.cmplt u p pd ra rb) u (withP pd (decide (a.val.toInt < b.val.toInt))) s ∧
    BundleGives (.cmple u p pd ra rb) u (withP pd (decide (a.val.toInt ≤ b.val.toInt))) s ∧
    BundleGives (.cmpeq u p pd ra rb) u (withP pd (decide (a.val = b.val))) s ∧
    BundleGives (.tstt u p pd ra m4) u (withP pd (decide (a.tag &&& m4 ≠ 0))) s ∧
    BundleGives (.pand u p pd pa pb) u (withP pd (pReg s u pa.toNat && pReg s u pb.toNat)) s ∧
    BundleGives (.por u p pd pa pb) u (withP pd (pReg s u pa.toNat || pReg s u pb.toNat)) s ∧
    BundleGives (.pnot u p pd pa) u (withP pd (!pReg s u pa.toNat)) s ∧
    BundleGives (.tags u p rd ra m3) u (withG rd a.val ((a.tag ||| (m3.setWidth 4 <<< 1)) &&& 0b1110#4)) s ∧
    BundleGives (.tagc u p rd ra m3) u (withG rd a.val ((a.tag &&& ~~~(m3.setWidth 4 <<< 1)) &&& 0b1110#4)) s ∧
    BundleGives (.tagr u p rd ra) u (withG rd (a.tag.setWidth 32) 0) s ∧
    BundleGives (.tagw u p rd ra rb) u (withG rd a.val (b.val.setWidth 4 &&& 0b1110#4)) s

/-- Accumulator syllables (R86, R87, R98, Table 3.4): exact Q2.62 products accumulate modulo 2^72 (that Q10.62 wraps is the model's
choice, log entry 57), tags add up, and ACCRD shifts, rounds to nearest even and saturates. -/
def Obligations.AccumulatorSyllables : Prop :=
  ∀ (s : State) (n : Fin 4) (p : Pred) (rd ra rb : BitVec 5) (ad sa : BitVec 3) (sh : BitVec 5), predOk s (.sc n) p = true → registerUpset s (.sc n) = none →
    let u := Site.sc n
    let a := gReg s u ra.toNat
    let b := gReg s u rb.toNat
    let x := aReg s u ad.toNat
    let y := aReg s u sa.toNat
    let t := accTag (a.tag ||| b.tag)
    BundleGives (.macz u p ad ra rb) u (withA ad (BitVec.ofInt 72 (a.val.toInt * b.val.toInt)) t) s ∧
    BundleGives (.mac u p ad ra rb) u (withA ad (BitVec.ofInt 72 (x.val.toInt + a.val.toInt * b.val.toInt)) (x.tag ||| t)) s ∧
    BundleGives (.msu u p ad ra rb) u (withA ad (BitVec.ofInt 72 (x.val.toInt - a.val.toInt * b.val.toInt)) (x.tag ||| t)) s ∧
    BundleGives (.accadd u p ad sa) u (withA ad (x.val + y.val) (x.tag ||| y.tag)) s ∧
    BundleGives (.accmv u p ad ra) u (withA ad (BitVec.ofInt 72 (a.val.toInt * 2 ^ 31)) (accTag a.tag)) s ∧
    (sh.toNat ≤ 8 → BundleGives (.accrd u p rd sa sh) u (withG rd
      (intWord (satQ31 (roundDiv (y.val.toInt * 2 ^ sh.toNat) (2 ^ 31)))) (y.tag.setWidth 4 <<< 1)) s)

/-- Loads (R81, R83, R88, R89, R98, R99): a word that decodes comes with its stored tag from state memory and delay regions, and
with tag 0 from parameter and coefficient memory; a delay load of a slot without a region, and LDS of a port that is not enabled,
give 0 with SET; LDS gives the input sample. The model's choices: a pair is rd and rd + 1 modulo 32 where rd is odd (log entry 58);
an enabled send that no flow feeds reads 0 with SET (log entry 101); g[RA] is unsigned and its sum with OFF10 is not wrapped before
the region's modulo (log entry 135); and a delay access waits while PLLB is unlocked, as the matrix stands still (log entry 153). A delay, coefficient or parameter access is stated for a beat that meets no parity error. -/
def Obligations.LoadSyllables : Prop :=
  (∀ (s : State) (u : Site) (p : Pred) (rd ra : BitVec 5) (off : BitVec 10) (x : Nat), predOk s u p = true → registerUpset s u = none →
    x = stateAddr u ((gReg s u ra.toNat).val.toNat + off.toNat) → x ∉ s.mem.bad →
    BundleGives (.ldw u p rd ra off) u (withG rd (s.mem.word x) (s.mem.tag x &&& 0b1110#4)) s) ∧
  (∀ (s : State) (u : Site) (p : Pred) (rd ra : BitVec 5) (off : BitVec 10) (x y : Nat), predOk s u p = true → registerUpset s u = none →
    x = stateAddr u ((gReg s u ra.toNat).val.toNat + off.toNat) →
    y = stateAddr u ((gReg s u ra.toNat).val.toNat + off.toNat + 1) → x ∉ s.mem.bad → y ∉ s.mem.bad →
    BundleGives (.ldw2 u p rd ra off) u (fun r => withG (rd + 1) (s.mem.word y) (s.mem.tag y &&& 0b1110#4)
      (withG rd (s.mem.word x) (s.mem.tag x &&& 0b1110#4) r)) s) ∧
  (∀ (s : State) (n : Fin 4) (p : Pred) (rd ra : BitVec 5) (off : BitVec 10) (i : Nat), predOk s (.sc n) p = true → registerUpset s (.sc n) = none →
    i = (gReg s (.sc n) ra.toNat).val.toNat + off.toNat → beatUpset n.val s = none →
    (aPage n.val s.sets.selB + 4 * (i % 4096) ∉ s.mem.bad →
      BundleGives (.ldp (.sc n) p rd ra off) (.sc n) (withG rd (s.mem.word (aPage n.val s.sets.selB + 4 * (i % 4096))) 0) s) ∧
    (coefAddr s (.sc n) i ∉ s.mem.bad →
      BundleGives (.ldc (.sc n) p rd ra off) (.sc n) (withG rd (s.mem.word (coefAddr s (.sc n) i)) 0) s) ∧
    (coefAddr s (.sc n) i ∉ s.mem.bad → coefAddr s (.sc n) (i + 1) ∉ s.mem.bad →
      BundleGives (.ldc2 (.sc n) p rd ra off) (.sc n) (fun r => withG (rd + 1) (s.mem.word (coefAddr s (.sc n) (i + 1))) 0
        (withG rd (s.mem.word (coefAddr s (.sc n) i)) 0 r)) s) ∧
    (∀ x, delayAddr (delaySlot s (.sc n)) i = some x → x ∉ s.mem.bad → pllbUnlocked s = false →
      BundleGives (.ldd (.sc n) p rd ra off) (.sc n) (withG rd (s.mem.word x) (s.mem.tag x &&& 0b1110#4)) s) ∧
    (delayAddr (delaySlot s (.sc n)) i = none → pllbUnlocked s = false → BundleGives (.ldd (.sc n) p rd ra off) (.sc n) (withG rd 0 tSET) s)) ∧
  (∀ (s : State) (n : Fin 4) (p : Pred) (rd ra : BitVec 5) (off : BitVec 10), predOk s (.sc n) p = true →
    pllbUnlocked s = true → exec (.ldd (.sc n) p rd ra off) s = .next s ∧ exec (.std (.sc n) p rd ra off) s = .next s) ∧
  (∀ (s : State) (n : Fin 4) (p : Pred) (rd rp ri imm : BitVec 5) (k j : Nat), predOk s (.sc n) p = true → registerUpset s (.sc n) = none →
    k = (gReg s (.sc n) rp.toNat).val.toNat % 32 → j = ((gReg s (.sc n) ri.toNat).val.toNat + imm.toNat) % 16 →
    sendLost s (.sc n) (16 * k + j) = false →
    (bit ((active s).bind n.val).sends k = true → BundleGives (.lds (.sc n) p rd rp ri imm) (.sc n) (withG rd
      (tget ⟨0, tSET⟩ (core s n.val).input (16 * k + j)).val
      ((tget ⟨0, tSET⟩ (core s n.val).input (16 * k + j)).tag &&& 0b1110#4)) s) ∧
    (bit ((active s).bind n.val).sends k = false →
      BundleGives (.lds (.sc n) p rd rp ri imm) (.sc n) (withG rd 0 tSET) s))

/-- Stores (R83, R88, R89, R97–R99, R107): STW and STW2 write the register's value and tag (bit 0 as 0) to state memory, STD to
the slot's delay region; on a stream core the word's previous content goes to the checkpoint first; STR writes the return sample
with the epoch's bit, when the port is enabled. The model's choices: the pair of an odd rd (log entry 58) and the sum g[RA] + OFF10
(log entry 135). -/
def Obligations.StoreSyllables : Prop :=
  (∀ (s : State) (n : Fin 4) (p : Pred) (rd ra : BitVec 5) (off : BitVec 10) (i x : Nat) (r : Reg), predOk s (.sc n) p = true → registerUpset s (.sc n) = none →
    i = (gReg s (.sc n) ra.toNat).val.toNat + off.toNat → x = stateAddr (.sc n) i → r = gReg s (.sc n) rd.toNat →
    ∃ t, exec (.stw (.sc n) p rd ra off) s = .next t ∧
      CoreDone n (fun c => { c with undo := ⟨false, i, s.mem.word x, s.mem.tag x⟩ :: c.undo })
        (s.mem.setWord x r.val (r.tag &&& 0b1110#4)) s t) ∧
  (∀ (s : State) (n : Fin 4) (p : Pred) (rd ra : BitVec 5) (off : BitVec 10) (i x y : Nat) (r q : Reg) (m : Memory),
    predOk s (.sc n) p = true → registerUpset s (.sc n) = none →
    i = (gReg s (.sc n) ra.toNat).val.toNat + off.toNat → x = stateAddr (.sc n) i → y = stateAddr (.sc n) (i + 1) →
    r = gReg s (.sc n) rd.toNat → q = gReg s (.sc n) (rd + 1).toNat → m = s.mem.setWord x r.val (r.tag &&& 0b1110#4) →
    ∃ t, exec (.stw2 (.sc n) p rd ra off) s = .next t ∧
      CoreDone n (fun c => { c with undo := ⟨false, i + 1, m.word y, m.tag y⟩ :: ⟨false, i, s.mem.word x, s.mem.tag x⟩ :: c.undo })
        (m.setWord y q.val (q.tag &&& 0b1110#4)) s t) ∧
  (∀ (s : State) (p : Pred) (rd ra : BitVec 5) (off : BitVec 10) (x : Nat), predOk s .cp p = true → registerUpset s .cp = none →
    x = stateAddr .cp ((gReg s .cp ra.toNat).val.toNat + off.toNat) →
    ∃ t, exec (.stw .cp p rd ra off) s = .next t ∧ regs t .cp = nextBundle (regs s .cp) ∧
      t = { s with mem := s.mem.setPlain x (gReg s .cp rd.toNat).val, cp := { s.cp with regs := t.cp.regs, wfe := false } }) ∧
  (∀ (s : State) (p : Pred) (rd ra : BitVec 5) (off : BitVec 10) (x y : Nat), predOk s .cp p = true → registerUpset s .cp = none →
    x = stateAddr .cp ((gReg s .cp ra.toNat).val.toNat + off.toNat) →
    y = stateAddr .cp ((gReg s .cp ra.toNat).val.toNat + off.toNat + 1) →
    ∃ t, exec (.stw2 .cp p rd ra off) s = .next t ∧ regs t .cp = nextBundle (regs s .cp) ∧
      t = { s with mem := (s.mem.setPlain x (gReg s .cp rd.toNat).val).setPlain y (gReg s .cp (rd + 1).toNat).val
                   cp := { s.cp with regs := t.cp.regs, wfe := false } }) ∧
  (∀ (s : State) (n : Fin 4) (p : Pred) (rd ra : BitVec 5) (off : BitVec 10) (i x : Nat) (r : Reg), predOk s (.sc n) p = true → registerUpset s (.sc n) = none →
    i = (gReg s (.sc n) ra.toNat).val.toNat + off.toNat → delayAddr (delaySlot s (.sc n)) i = some x →
    r = gReg s (.sc n) rd.toNat → beatUpset n.val s = none → pllbUnlocked s = false →
    ∃ t, exec (.std (.sc n) p rd ra off) s = .next t ∧
      CoreDone n (fun c => { c with undo := ⟨true, i, s.mem.word x, s.mem.tag x⟩ :: c.undo })
        (s.mem.setWord x r.val (r.tag &&& 0b1110#4)) s t) ∧
  (∀ (s : State) (n : Fin 4) (p : Pred) (rd ra : BitVec 5) (off : BitVec 10), predOk s (.sc n) p = true →
    (delaySlot s (.sc n)).pages = [] → pllbUnlocked s = false →
    ∃ t, exec (.std (.sc n) p rd ra off) s = .next t ∧ CoreDone n id s.mem s t) ∧
  (∀ (s : State) (n : Fin 4) (p : Pred) (rd rp ri imm : BitVec 5) (k j : Nat) (r : Reg), predOk s (.sc n) p = true → registerUpset s (.sc n) = none →
    k = (gReg s (.sc n) rp.toNat).val.toNat % 32 → j = ((gReg s (.sc n) ri.toNat).val.toNat + imm.toNat) % 16 →
    r = gReg s (.sc n) rd.toNat →
    ∃ t, exec (.str (.sc n) p rd rp ri imm) s = .next t ∧
      CoreDone n (fun c => if bit ((active s).bind n.val).returns k
        then { c with out := tput ⟨0, tSET⟩ c.out (16 * k + j) ⟨r.val, stamp s r.tag⟩ } else c) s.mem s t)

/-- Control syllables (R96–R98): BR and CALL go to their target, BR ending the loops of its call level that it leaves (the
model's choice, log entry 100); RET returns, and ends the loops of the body it leaves (the model's choice, log entry 134); LOOP and LOOPI
repeat the bundles after them, LOOP not at all for a count of zero or less; FEND ends the frame computation; the all-zero
syllable has no effect. -/
def Obligations.ControlSyllables : Prop :=
  (∀ (s : State) (u : Site) (p : Pred) (target : BitVec 11), predOk s u p = true → registerUpset s u = none →
    (∃ t, exec (.br u p target) s = .next t ∧ RegsDone u s t ∧
      regs t u = { regs s u with pc := target.toNat, loops := leaveLoops (regs s u).calls.length target.toNat (regs s u).loops }) ∧
    ((regs s u).calls.length < callDepth u → ∃ t, exec (.call u p target) s = .next t ∧ RegsDone u s t ∧
      regs t u = { regs s u with
        pc := target.toNat, calls := (nextBundle (regs s u)).pc :: (regs s u).calls, loops := (nextBundle (regs s u)).loops })) ∧
  (∀ (s : State) (u : Site) (p : Pred) (c : Nat) (cs : List Nat), predOk s u p = true → registerUpset s u = none → (regs s u).calls = c :: cs →
    ∃ t, exec (.ret u p) s = .next t ∧ RegsDone u s t ∧ regs t u = { regs s u with
      pc := c, calls := cs, loops := (regs s u).loops.filter (fun l => decide (l.depth ≤ cs.length)) }) ∧
  (∀ (s : State) (u : Site) (rc : BitVec 5) (maxe : BitVec 4) (last : BitVec 11) (n : Nat), registerUpset s u = none →
    n = min (gReg s u rc.toNat).val.toInt.toNat (2 ^ maxe.toNat) → n ≠ 0 → (regs s u).loops.length < 2 →
    ∃ t, exec (.loop u rc maxe last) s = .next t ∧ RegsDone u s t ∧
      regs t u = { regs s u with
        pc := (regs s u).pc + 1
        loops := ⟨(regs s u).pc + 1, last.toNat, n, (regs s u).calls.length⟩ :: (regs s u).loops }) ∧
  (∀ (s : State) (u : Site) (rc : BitVec 5) (maxe : BitVec 4) (last : BitVec 11), registerUpset s u = none → (gReg s u rc.toNat).val.toInt ≤ 0 →
    ∃ t, exec (.loop u rc maxe last) s = .next t ∧ RegsDone u s t ∧
      regs t u = { regs s u with
        pc := (fallThrough (regs s u).calls.length last.toNat (regs s u).loops).1
        loops := (fallThrough (regs s u).calls.length last.toNat (regs s u).loops).2 }) ∧
  (∀ (s : State) (u : Site) (count : BitVec 9) (last : BitVec 11), registerUpset s u = none → count ≠ 0 → (regs s u).loops.length < 2 →
    ∃ t, exec (.loopi u count last) s = .next t ∧ RegsDone u s t ∧
      regs t u = { regs s u with
        pc := (regs s u).pc + 1
        loops := ⟨(regs s u).pc + 1, last.toNat, count.toNat, (regs s u).calls.length⟩ :: (regs s u).loops }) ∧
  (∀ (s : State) (n : Fin 4), registerUpset s (.sc n) = none → BundleGives (.fend (.sc n)) (.sc n) (fun r => { r with ended := true }) s) ∧
  (∀ (s : State) (u : Site), BundleGives (.bundleNop u) u id s)

/-- Skipped syllables (R92): with PR selecting a predicate that does not let it execute, a syllable of any predicated opcode has
no effect, and the next bundle is due. -/
def Obligations.SkippedSyllables : Prop :=
  (∀ (s : State) (u : Site) (p : Pred) (rd ra rb sh : BitVec 5) (pd pa pb : BitVec 3) (imm : BitVec 10) (m : BitVec 4)
    (target : BitVec 11), predOk s u p = false →
    ∀ i ∈ [Instr.add u p rd ra rb, .adds u p rd ra rb, .sub u p rd ra rb, .subs u p rd ra rb, .and u p rd ra rb,
      .or u p rd ra rb, .xor u p rd ra rb, .shl u p rd ra sh, .shr u p rd ra sh, .sar u p rd ra sh, .shls u p rd ra sh,
      .min u p rd ra rb, .max u p rd ra rb, .abs u p rd ra, .sel u p rd ra rb pd, .addi u p rd ra imm, .cmplt u p pd ra rb,
      .cmple u p pd ra rb, .cmpeq u p pd ra rb, .tstt u p pd ra m, .pand u p pd pa pb, .por u p pd pa pb, .pnot u p pd pa,
      .tags u p rd ra pa, .tagc u p rd ra pa, .tagr u p rd ra, .tagw u p rd ra rb, .ldw u p rd ra imm, .ldw2 u p rd ra imm,
      .stw u p rd ra imm, .stw2 u p rd ra imm, .br u p target, .call u p target, .ret u p],
      BundleGives i u id s) ∧
  (∀ (s : State) (n : Fin 4) (p : Pred) (rd ra rb sh : BitVec 5) (ad sa : BitVec 3) (imm : BitVec 10),
    predOk s (.sc n) p = false → sh.toNat ≤ 8 →
    ∀ i ∈ [Instr.mulq (.sc n) p rd ra rb, .macz (.sc n) p ad ra rb, .mac (.sc n) p ad ra rb, .msu (.sc n) p ad ra rb,
      .accadd (.sc n) p ad sa, .accmv (.sc n) p ad ra, .accrd (.sc n) p rd sa sh, .ldp (.sc n) p rd ra imm,
      .ldc (.sc n) p rd ra imm, .ldc2 (.sc n) p rd ra imm, .ldd (.sc n) p rd ra imm, .std (.sc n) p rd ra imm,
      .lds (.sc n) p rd ra rb sh, .str (.sc n) p rd ra rb sh],
      BundleGives i (.sc n) id s) ∧
  (∀ (s : State) (u : Site) (pr : BitVec 3) (rd : BitVec 5) (imm : BitVec 16), pReg s u pr.toNat = false →
    BundleGives (.movl u pr rd imm) u id s ∧ BundleGives (.movh u pr rd imm) u id s) ∧
  (∀ (s : State) (p : Pred) (rd ra : BitVec 5) (off : BitVec 10), predOk s .cp p = false →
    ∀ i ∈ [Instr.ldg p rd ra off, .stg p rd ra off, .ldgh p rd ra off, .stgh p rd ra off, .ldgb p rd ra off,
      .stgb p rd ra off, .ldgl p rd ra off, .stgu p rd ra off, .wfe p],
      BundleGives i .cp id s)

/-- Stops of syllables (R93, R96, R120, Table 3.9): the CP refuses the syllables it does not implement; ACCRD with SH above 8 and
LOOPI with COUNT 0 are reserved encodings; an executing CALL with every call level in use (4, on the CP 16), a RET with no return index,
and a LOOP or LOOPI of a count above 0 with two loops held fault. No other command or syllable is refused, and none faults else. That the machine stops there, and how, is the model's choice: log entries 130
(faults), 131 (the CP) and 132 (reserved encodings). -/
def Obligations.SyllableStops : Prop :=
  (∀ (s : State) (p : Pred) (rd ra rb sh : BitVec 5) (ad sa : BitVec 3) (off : BitVec 10),
    exec (.mulq .cp p rd ra rb) s = .refused (.cpDoesNotImplement "MULQ") ∧
    exec (.macz .cp p ad ra rb) s = .refused (.cpDoesNotImplement "MACZ") ∧
    exec (.mac .cp p ad ra rb) s = .refused (.cpDoesNotImplement "MAC") ∧
    exec (.msu .cp p ad ra rb) s = .refused (.cpDoesNotImplement "MSU") ∧
    exec (.accadd .cp p ad sa) s = .refused (.cpDoesNotImplement "ACCADD") ∧
    exec (.accmv .cp p ad ra) s = .refused (.cpDoesNotImplement "ACCMV") ∧
    (sh.toNat ≤ 8 → exec (.accrd .cp p rd sa sh) s = .refused (.cpDoesNotImplement "ACCRD")) ∧
    exec (.ldp .cp p rd ra off) s = .refused (.cpDoesNotImplement "LDP") ∧
    exec (.ldc .cp p rd ra off) s = .refused (.cpDoesNotImplement "LDC") ∧
    exec (.ldc2 .cp p rd ra off) s = .refused (.cpDoesNotImplement "LDC2") ∧
    exec (.ldd .cp p rd ra off) s = .refused (.cpDoesNotImplement "LDD") ∧
    exec (.std .cp p rd ra off) s = .refused (.cpDoesNotImplement "STD") ∧
    exec (.lds .cp p rd ra rb sh) s = .refused (.cpDoesNotImplement "LDS") ∧
    exec (.str .cp p rd ra rb sh) s = .refused (.cpDoesNotImplement "STR") ∧
    exec (.fend .cp) s = .refused (.cpDoesNotImplement "FEND")) ∧
  (∀ (s : State) (u : Site) (p : Pred) (rd sh : BitVec 5) (sa : BitVec 3) (last : BitVec 11), 8 < sh.toNat →
    exec (.accrd u p rd sa sh) s = .refused (.reservedEncoding "ACCRD") ∧
    exec (.loopi u 0 last) s = .refused (.reservedEncoding "LOOPI")) ∧
  (∀ (s : State) (u : Site) (p : Pred) (target : BitVec 11), predOk s u p = true → registerUpset s u = none →
    callDepth u ≤ (regs s u).calls.length → exec (.call u p target) s = .fault .callOverflow) ∧
  (∀ (s : State) (u : Site) (p : Pred), predOk s u p = true → registerUpset s u = none →
    (regs s u).calls = [] → exec (.ret u p) s = .fault .callUnderflow) ∧
  (∀ (s : State) (u : Site) (rc : BitVec 5) (maxe : BitVec 4) (last : BitVec 11), registerUpset s u = none →
    0 < (gReg s u rc.toNat).val.toInt → 2 ≤ (regs s u).loops.length → exec (.loop u rc maxe last) s = .fault .loopOverflow) ∧
  (∀ (s : State) (u : Site) (count : BitVec 9) (last : BitVec 11), registerUpset s u = none → count ≠ 0 →
    2 ≤ (regs s u).loops.length → exec (.loopi u count last) s = .fault .loopOverflow) ∧
  (∀ n : Fin 4, callDepth (.sc n) = 4) ∧ callDepth .cp = 16 ∧
  (∀ (s : State) (i : Instr) (f : Fault), exec i s = .fault f →
    (f = .callUnderflow ∧ ∃ u p, i = .ret u p ∧ (regs s u).calls = []) ∨
    (f = .callOverflow ∧ ∃ u p target, i = .call u p target ∧ callDepth u ≤ (regs s u).calls.length) ∨
    (f = .loopOverflow ∧ ∃ u, 2 ≤ (regs s u).loops.length ∧
      ((∃ rc maxe last, i = .loop u rc maxe last) ∨ ∃ count last, i = .loopi u count last))) ∧
  (∀ (s : State) (i : Instr) (r : Refusal), exec i s = .refused r →
    (∃ (p : Pred) (rd ra rb sh : BitVec 5) (ad sa : BitVec 3) (off : BitVec 10), (i, r) ∈ [
      (Instr.mulq .cp p rd ra rb, Refusal.cpDoesNotImplement "MULQ"), (.macz .cp p ad ra rb, .cpDoesNotImplement "MACZ"),
      (.mac .cp p ad ra rb, .cpDoesNotImplement "MAC"), (.msu .cp p ad ra rb, .cpDoesNotImplement "MSU"),
      (.accadd .cp p ad sa, .cpDoesNotImplement "ACCADD"), (.accmv .cp p ad ra, .cpDoesNotImplement "ACCMV"),
      (.accrd .cp p rd sa sh, .cpDoesNotImplement "ACCRD"), (.ldp .cp p rd ra off, .cpDoesNotImplement "LDP"),
      (.ldc .cp p rd ra off, .cpDoesNotImplement "LDC"), (.ldc2 .cp p rd ra off, .cpDoesNotImplement "LDC2"),
      (.ldd .cp p rd ra off, .cpDoesNotImplement "LDD"), (.std .cp p rd ra off, .cpDoesNotImplement "STD"),
      (.lds .cp p rd ra rb sh, .cpDoesNotImplement "LDS"), (.str .cp p rd ra rb sh, .cpDoesNotImplement "STR"),
      (.fend .cp, .cpDoesNotImplement "FEND")]) ∨
    (∃ u p rd sa sh, i = .accrd u p rd sa sh ∧ 8 < sh.toNat ∧ r = .reservedEncoding "ACCRD") ∨
    ∃ u last, i = .loopi u 0 last ∧ r = .reservedEncoding "LOOPI")

/-- Stream-core commands and frames (R81–R84, R97, R100, R103–R105, R109, R110, R114–R118, Table 3.8): CORE.LOAD writes a verified,
correct image into its slot; CORE.BIND writes SHADOW; CORE.PARAM writes SHADOW's page; CORE.READ returns state words and tags; a
frame computation uses up its input and holds the frame; a presentation shows the oldest held frame, or falls back; the memory
clear leaves zeros; and a code fetch error halts the core, the word staying lost until its slot is loaded. That PEAK_PCT stands at 255
for a longer frame is the model's choice (log entry 180). -/
def Obligations.StreamCores : Prop :=
  (∀ (a : CmdArgs) (s : State) (n k c st : Nat) (p : Prog), Admitted rowCoreLoad a s → resv (opnd a 0) 0x13 = false →
    n = fld (opnd a 0) 1 0 → k = fld (opnd a 0) 4 4 → s.sec.verified = true → s.mem.bad = [] →
    s.mem.upsets = [] →
    p = toBundles (stagedWords s 64 ((staged s 10).toNat / 4)) → reservedAt p = none → p.length ≤ 2048 →
    (staged s 11).toNat ≤ 32768 → ¬(((active s).bind n).en = true ∧ ((active s).bind n).slot = k) →
    ¬((core s n).st = .halted ∧ (core s n).haltSlot = k) → s.sets.swap = none →
    (heldPages s (2 * n + k)).length + fld ((bundleAt p 0).getD 1 0) 7 0 ≤ 512 → judge p = .ok (c, st) →
    compatOk s s.power.fwVersion = true →
    ∃ t, exec (.coreLoad a) s = .next (answered 0x90 .ok
        [toWord c, toWord st, toWord (fld ((bundleAt p 0).getD 1 0) 7 0 * 4096)] t) ∧
      (slotOf t n k).loaded = true ∧ (slotOf t n k).cycles = c ∧ (slotOf t n k).stores = st ∧
      (∀ i < 8, i ≠ 2 * n + k → tget ({} : Slot) t.cores.slots i = tget {} s.cores.slots i) ∧
      t.mem = (s.mem.setWords (aPram n + k * 0x8000) 0 p.flatten).setWords (aCram + n * 0x10000 + k * 0x8000) 0
        (stagedWords s (64 + (staged s 10).toNat / 4) ((staged s 11).toNat / 4)) ∧
      t = { s with mem := t.mem, cores := { s.cores with slots := t.cores.slots } }) ∧
  (∀ (a : CmdArgs) (s : State) (b : CoreBinding), Admitted rowCoreBind a s → b = ⟨opnd a 1, opnd a 2, opnd a 3⟩ →
    resv (opnd a 0) 3 = false → resv b.word 0x9CF00000 = false →
    ((b.en = true ∧ (b.depth = 1 ∨ b.depth = 2) ∧ b.rate ≠ 15) ∨ b = ⟨0, 0, 0⟩) →
    exec (.coreBind a) s = .next (answered 0x91 .ok [] (onShadow (fun c => { c with
      coreBind := tput ⟨0, 0, 0⟩ c.coreBind (opnd a 0).toNat b }) (shadowReads 0x91 a s)))) ∧
  (∀ (a : CmdArgs) (s : State), Admitted rowCoreParam a s → a.imm = false → resv (opnd a 0) 0x0FFFFF03 = false →
    fld (opnd a 0) 15 8 = 0 → fld (opnd a 0) 27 16 + (a.ops.length - 1) ≤ 4096 →
    exec (.coreParam a) s = .next (answered 0x92 .ok [] { s with
      mem := s.mem.setWords (aPage (fld (opnd a 0) 1 0) (!s.sets.selB) + 4 * fld (opnd a 0) 27 16) 0 a.ops.tail })) ∧
  (∀ (a : CmdArgs) (s : State) (x : Nat → Nat), Admitted rowCoreRead a s → resv (opnd a 0) 0x3FFFFF03 = false →
    fld (opnd a 0) 15 8 ≠ 0 →
    x = (fun i => aPram (fld (opnd a 0) 1 0) + 0x10000 + 4 * ((fld (opnd a 0) 29 16 + i) % 16384)) →
    (∀ i < fld (opnd a 0) 15 8, x i ∉ s.mem.bad) → s.mem.upsets = [] →
    exec (.coreRead a) s = .next (answered 0x93 .ok
      ((List.range (fld (opnd a 0) 15 8)).map (fun i => s.mem.word (x i)) ++
        tagWords ((List.range (fld (opnd a 0) 15 8)).map (fun i => s.mem.tag (x i))) (ceilDiv (fld (opnd a 0) 15 8) 8)) s)) ∧
  (∀ (s s2 : State) (n : Fin 4) (x : Tab Sample) (rest : List (Tab Sample)) (b : CoreBinding) (entry cyc : Nat),
    b = (active s).bind n.val → (core s n.val).inputs = x :: rest → coreReady s n.val = true → s.mem.upsets = [] →
    (core s n.val).held.length < b.depth → fetchLost s n.val b.slot 0 = false →
    entry = fld ((fetch s n.val b.slot 0).getD 0 0) 10 0 →
    runBundles n b.slot (max (slotOf s n.val b.slot).cycles 1) [] (64 + (core s n.val).undoCost)
      (onCore n.val (fun c => { c with
        regs := entryRegs c.frameNo s.sets.epoch c.first (c.cutIn || cutOn b x) entry, input := x, out := [], undo := [],
        lastErr := stillBad s c.lastErr }) s)
      = (s2, cyc, .complete) → (core s2 n.val).late = 0 →
    ∃ t, exec (.coreFrameCompute n) s = .next t ∧ (core t n.val).inputs = rest ∧
      (core t n.val).frameNo = (core s2 n.val).frameNo + 1 ∧ (core t n.val).first = false ∧ (core t n.val).cutIn = false ∧
      (core t n.val).held = (core s2 n.val).held ++ [⟨(core s2 n.val).frameNo, s.sets.epoch, (core s2 n.val).first,
        (core s2 n.val).cutIn, x, (core s2 n.val).out, (core s2 n.val).undo⟩] ∧
      (core t n.val).peakPct = max (core s2 n.val).peakPct (pctOf s2 cyc b.rate) ∧ (core t n.val).undo = [] ∧
      (∀ k ≠ n.val, core t k = core s2 k) ∧ t.mem = { s2.mem with upsets := t.mem.upsets }) ∧
  (∀ (s : State) (n : Fin 4) (f : Frame) (r : List Frame), (core s n.val).st = .running →
    ((active s).bind n.val).en = true → audioRuns s = true → (core s n.val).dueIn ≤ 1 → (core s n.val).held = f :: r →
    ∃ t, exec (.framePresentation n) s = .next t ∧ (core t n.val).shown = some ⟨f.epoch, f.out⟩ ∧
      (core t n.val).shownCut = false ∧ (core t n.val).held = r ∧
      (core t n.val).fallbacks = (core s n.val).fallbacks ∧ (core t n.val).cutFirst = (core s n.val).cutNext ∧
      (∀ k ≠ n.val, core t k = core s k) ∧ t = { s with cores := { s.cores with core := t.cores.core }, flows := t.flows }) ∧
  (∀ (s : State) (n : Fin 4), (core s n.val).st = .running → ((active s).bind n.val).en = true → audioRuns s = true →
    (core s n.val).dueIn ≤ 1 → (core s n.val).held = [] →
    ∃ t, exec (.framePresentation n) s = .next t ∧
      (core t n.val).shown = some ((core s n.val).stale.headD ⟨s.sets.epoch, []⟩) ∧ (core t n.val).shownCut = true ∧
      (core t n.val).fallbacks = min 255 ((core s n.val).fallbacks + 1) ∧ (core t n.val).late = (core s n.val).late + 1 ∧
      (core t n.val).cutNext = true ∧ bit t.irq.pend irqFallback = true ∧ (∀ k ≠ n.val, core t k = core s k) ∧
      t = { s with cores := { s.cores with core := t.cores.core }, flows := t.flows, irq := { s.irq with pend := t.irq.pend } }) ∧
  (∀ (s : State) (n : Fin 4), (core s n.val).clearing = true →
    ∃ t, exec (.coreMemoryClearDone n) s = .next t ∧ (core t n.val).clearing = false ∧
      (∀ i < 16384, t.mem.word (aPram n.val + 0x10000 + 4 * i) = 0 ∧ t.mem.tag (aPram n.val + 0x10000 + 4 * i) = 0) ∧
      (∀ p ∈ (slotOf s n.val (slotNow s n.val)).pages, ∀ i < 1024,
        t.mem.word (aCore + p * 4096 + 4 * i) = 0 ∧ t.mem.tag (aCore + p * 4096 + 4 * i) = 0) ∧
      t = { s with mem := t.mem, cores := { s.cores with core := t.cores.core } }) ∧
  (∀ (s : State) (n : Fin 4) (a : Nat), (core s n.val).st = .running →
    a = aPram n.val + slotNow s n.val * 0x8000 + 16 * ((core s n.val).regs.pc % 2048) →
    ∃ t, exec (.codeFetchError n) s = .next t ∧ (core t n.val).st = .halted ∧ (core t n.val).haltSlot = slotNow s n.val ∧
      (core t n.val).held = [] ∧ (core t n.val).inputs = [] ∧ (core t n.val).shown = none ∧
      (∀ k ≠ n.val, core t k = core s k) ∧
      t = { s with mem := { s.mem with bad := if s.mem.bad.contains a then s.mem.bad else a :: s.mem.bad }
                   cores := { s.cores with core := t.cores.core }, flt := t.flt, irq := { s.irq with pend := t.irq.pend } })

/-- The CP on the bus matrix (R34, R120, R347, R350–R352, R358, R359, Tables 10.2, 10.3, 10.6, 10.8): word, halfword and byte
accesses to the memories of plain words; an access along no path gives 0 or is discarded, with an abort record and a bus error;
BROM gives its bytes and is not written; GRAM and FCTX hold the two sets' items, whose reserved bits are written as 0 (R11), and RET its own, whose undefined bits read 0, and
their other words are plain;
PERI gives REMAP, the status window, the detectors with their capture, and the registers that keep what is written; LDGL takes the
lock and STGU writes and releases it; after LOCK_TIMEOUT STGU does not write; WFE waits; a register write along its path is kept; and of the CP's own
bundle a load and an addition each read the registers as they stood at issue.
The model's choices: the byte order of a word (log entry 7); which offsets of GRAM and RET hold which item (log entry 31); the tag LDGH
and LDGB deliver, their register's upper bits being free (log entries 2, 34); what ends a WFE (log entry 35); 65 ns, and a STGU after
LOCK_TIMEOUT (log entry 92); the alignment of an access (log entry 140); which words of the status window take a write (log entry 166);
an STGU without a lock (log entry 170); where FCTX holds a flow's context and its plain words (log entries 17, 171); a write of BROM
without an error (log entry 152); a lock's count that stands still, and accesses that wait, while PLLB is unlocked (log entry 153); the firmware's watchdog restart is a write of its block of PERI (log entry 154);
the bundle's slot M lies at the lower address (log entry 204). The accesses are stated where no check fails. -/
def Obligations.BusAccesses : Prop :=
  (∀ (s : State) (p : Pred) (rd ra : BitVec 5) (off : BitVec 10) (x : Nat) (b : BusPath), predOk s .cp p = true →
    x = busAddr s ra off → cpPath s x = some b → b.rd = true → s.mem.upsets = [] → pllbUnlocked s = false → b.phys / 4 * 4 ∉ s.mem.bad →
    1 ≤ b.target → b.target ≤ 7 →
    (∃ t, exec (.ldg p rd ra off) s = .next t ∧
      regs t .cp = nextBundle (withG rd (s.mem.word (b.phys / 4 * 4)) (s.mem.tag (b.phys / 4 * 4) &&& 0b1110#4) (regs s .cp)) ∧
      t = { s with cp := { s.cp with regs := t.cp.regs, wfe := false, busError := false } }) ∧
    (rd ≠ 0 → ∃ t, exec (.ldgh p rd ra off) s = .next t ∧
      fld (gReg t .cp rd.toNat).val 15 0 =
        fld (s.mem.word (b.phys / 4 * 4)) (16 * (x % 4 / 2) + 15) (16 * (x % 4 / 2)) ∧
      regs t .cp = nextBundle (withG rd (gReg t .cp rd.toNat).val (s.mem.tag (b.phys / 4 * 4) &&& 0b1110#4) (regs s .cp)) ∧
      t = { s with free := t.free, cp := { s.cp with regs := t.cp.regs, wfe := false, busError := false } }) ∧
    (rd ≠ 0 → ∃ t, exec (.ldgb p rd ra off) s = .next t ∧
      fld (gReg t .cp rd.toNat).val 7 0 = fld (s.mem.word (b.phys / 4 * 4)) (8 * (x % 4) + 7) (8 * (x % 4)) ∧
      regs t .cp = nextBundle (withG rd (gReg t .cp rd.toNat).val (s.mem.tag (b.phys / 4 * 4) &&& 0b1110#4) (regs s .cp)) ∧
      t = { s with free := t.free, cp := { s.cp with regs := t.cp.regs, wfe := false, busError := false } }) ∧
    (b.lock = true → s.cp.lock = none → ∃ t, exec (.ldgl p rd ra off) s = .next t ∧
      regs t .cp = nextBundle (withG rd (s.mem.word (b.phys / 4 * 4)) (s.mem.tag (b.phys / 4 * 4) &&& 0b1110#4) (regs s .cp)) ∧
      t = { s with cp := { regs := t.cp.regs, lockLost := false, wfe := false, busError := false
                           lock := some { point := b.point, addr := x, since := now s, frozen := none } } })) ∧
  (∀ (s : State) (p : Pred) (rd ra : BitVec 5) (off : BitVec 10) (x : Nat) (b : BusPath) (m : Memory), predOk s .cp p = true →
    x = busAddr s ra off → cpPath s x = some b → b.wr = true → s.mem.upsets = [] → pllbUnlocked s = false →
    1 ≤ b.target → b.target ≤ 7 →
    m = (if b.target = 1 ∨ b.target = 7 then s.mem.setPlain (b.phys / 4 * 4) (gReg s .cp rd.toNat).val
      else s.mem.setWord (b.phys / 4 * 4) (gReg s .cp rd.toNat).val ((gReg s .cp rd.toNat).tag &&& 0b1110#4)) →
    (∃ t, exec (.stg p rd ra off) s = .next t ∧ regs t .cp = nextBundle (regs s .cp) ∧
      t = { s with mem := m, cp := { s.cp with regs := t.cp.regs, wfe := false, busError := false } }) ∧
    (∃ t, exec (.stgh p rd ra off) s = .next t ∧ regs t .cp = nextBundle (regs s .cp) ∧
      t = { s with mem := s.mem.setBytes (b.phys / 4 * 4 + b.phys % 4 / 2 * 2) ((leBytes (gReg s .cp rd.toNat).val).take 2)
                   cp := { s.cp with regs := t.cp.regs, wfe := false, busError := false } }) ∧
    (∃ t, exec (.stgb p rd ra off) s = .next t ∧ regs t .cp = nextBundle (regs s .cp) ∧
      t = { s with mem := s.mem.setBytes (b.phys / 4 * 4 + b.phys % 4) ((leBytes (gReg s .cp rd.toNat).val).take 1)
                   cp := { s.cp with regs := t.cp.regs, wfe := false, busError := false } }) ∧
    (s.cp.lockLost = false → ∃ t, exec (.stgu p rd ra off) s = .next t ∧ regs t .cp = nextBundle (regs s .cp) ∧
      t = { s with mem := m, cp := { regs := t.cp.regs, lock := none, lockLost := false, wfe := false, busError := false } })) ∧
  (∀ (s : State) (p : Pred) (rd ra : BitVec 5) (off : BitVec 10), predOk s .cp p = true → s.cp.lockLost = true →
    pllbUnlocked s = false →
    ∃ t, exec (.stgu p rd ra off) s = .next t ∧ t.mem = s.mem ∧ regs t .cp = nextBundle (regs s .cp) ∧
      t = { s with cp := { regs := t.cp.regs, lock := none, lockLost := false, wfe := false, busError := true } }) ∧
  (∀ (s : State) (p : Pred) (rd ra : BitVec 5) (off : BitVec 10), predOk s .cp p = true → cpPath s (busAddr s ra off) = none →
    pllbUnlocked s = false →
    (∃ t, exec (.ldg p rd ra off) s = .next t ∧ regs t .cp = nextBundle (withG rd 0 0 (regs s .cp)) ∧
      t.cp.busError = true ∧ t.flt.written = s.flt.written + 1 ∧ t.mem = s.mem) ∧
    (∃ t, exec (.stg p rd ra off) s = .next t ∧ regs t .cp = nextBundle (regs s .cp) ∧
      t.cp.busError = true ∧ t.flt.written = s.flt.written + 1 ∧ t.mem = s.mem)) ∧
  (∀ (s : State) (p : Pred) (rd ra : BitVec 5) (off : BitVec 10) (b : BusPath) (a : Nat), predOk s .cp p = true →
    cpPath s (busAddr s ra off) = some b → b.rd = true → s.mem.upsets = [] → pllbUnlocked s = false →
    a = b.phys / 4 * 4 → a ∉ s.mem.bad →
    (b.target = 0 → ∃ t, exec (.ldg p rd ra off) s = .next t ∧
      regs t .cp = nextBundle (withG rd (toWord ((Config.bromByte a).toNat + (Config.bromByte (a + 1)).toNat * 256 +
        (Config.bromByte (a + 2)).toNat * 65536 + (Config.bromByte (a + 3)).toNat * 16777216)) 0 (regs s .cp)) ∧
      t = { s with cp := { s.cp with regs := t.cp.regs, wfe := false, busError := false } }) ∧
    (b.target = 8 → ∃ t, exec (.ldg p rd ra off) s = .next t ∧
      regs t .cp = nextBundle (withG rd ((gramGet (bankOf s (bankOff aGram 0x30000 a).1)
        (Config.gramItem (bankOff aGram 0x30000 a).2)).getD (s.mem.word a)) 0 (regs s .cp)) ∧
      t = { s with cp := { s.cp with regs := t.cp.regs, wfe := false, busError := false } }) ∧
    (b.target = 9 → ∃ t, exec (.ldg p rd ra off) s = .next t ∧
      regs t .cp = nextBundle (withG rd (if (bankOff aFctx 0x4000 a).2 < 4096
        then ((bankOf s (bankOff aFctx 0x4000 a).1).flow ((bankOff aFctx 0x4000 a).2 / 16)).word
          ((bankOff aFctx 0x4000 a).2 % 16 / 4) else s.mem.word a) 0 (regs s .cp)) ∧
      t = { s with cp := { s.cp with regs := t.cp.regs, wfe := false, busError := false } }) ∧
    (b.target = 12 → ∃ t, exec (.ldg p rd ra off) s = .next t ∧
      regs t .cp = nextBundle (withG rd ((retGet s (Config.retItem (a - aRet))).getD (s.mem.word a)) 0 (regs s .cp)) ∧
      t = { s with cp := { s.cp with regs := t.cp.regs, wfe := false, busError := false } }) ∧
    (b.target = 10 → a = aPeri → ∃ t, exec (.ldg p rd ra off) s = .next t ∧
      regs t .cp = nextBundle (withG rd (toWord (b2n s.mem.remap)) 0 (regs s .cp)) ∧
      t = { s with cp := { s.cp with regs := t.cp.regs, wfe := false, busError := false } }) ∧
    (b.target = 10 → aPeri + 0x1000 ≤ a → a < aPeri + 0x2000 → ∃ t, exec (.ldg p rd ra off) s = .next t ∧
      regs t .cp = nextBundle (withG rd (winWord s ((a - aPeri - 0x1000) / 4)) 0 (regs s .cp)) ∧
      t = { s with cp := { s.cp with regs := t.cp.regs, wfe := false, busError := false } }) ∧
    (b.target = 10 → ∀ n < 160, a = aPeri + 0x2000 + 16 * n → ∃ t, exec (.ldg p rd ra off) s = .next t ∧
      regs t .cp = nextBundle (withG rd (detWords s n).w0 0 (regs s .cp)) ∧
      t = { s with filt := { s.filt with capture := tput none s.filt.capture n (some (detWords s n)) }
                   cp := { s.cp with regs := t.cp.regs, wfe := false, busError := false } }) ∧
    (b.target = 10 → ∀ n < 160, ∀ i < 4, i ≠ 0 → ∀ q, a = aPeri + 0x2000 + 16 * n + 4 * i →
      tget none s.filt.capture n = some q → ∃ t, exec (.ldg p rd ra off) s = .next t ∧
      regs t .cp = nextBundle (withG rd (q.word i) 0 (regs s .cp)) ∧
      t = { s with cp := { s.cp with regs := t.cp.regs, wfe := false, busError := false } }) ∧
    (b.target = 10 → aPeri + 0x2A00 ≤ a → ∃ t, exec (.ldg p rd ra off) s = .next t ∧
      regs t .cp = nextBundle (withG rd (tget 0 s.mem.peri (a / 4)) 0 (regs s .cp)) ∧
      t = { s with cp := { s.cp with regs := t.cp.regs, wfe := false, busError := false } })) ∧
  (∀ (s : State) (p : Pred) (rd ra : BitVec 5) (off : BitVec 10) (b : BusPath) (a : Nat) (v : Word), predOk s .cp p = true →
    cpPath s (busAddr s ra off) = some b → b.wr = true → s.mem.upsets = [] → pllbUnlocked s = false →
    a = b.phys / 4 * 4 →
    v = (gReg s .cp rd.toNat).val →
    (b.target = 0 → ∃ t, exec (.stg p rd ra off) s = .next t ∧ regs t .cp = nextBundle (regs s .cp) ∧
      t = { s with cp := { s.cp with regs := t.cp.regs, wfe := false, busError := false } }) ∧
    (b.target = 8 → ∃ t, exec (.stg p rd ra off) s = .next t ∧ regs t .cp = nextBundle (regs s .cp) ∧
      (if Config.gramItem (bankOff aGram 0x30000 a).2 < 16814 then
        bankOf t (bankOff aGram 0x30000 a).1 =
          gramSet (Config.gramItem (bankOff aGram 0x30000 a).2)
            (v &&& gramMask (Config.gramItem (bankOff aGram 0x30000 a).2)) (bankOf s (bankOff aGram 0x30000 a).1) ∧
        bankOf t (!(bankOff aGram 0x30000 a).1) = bankOf s (!(bankOff aGram 0x30000 a).1) ∧
        t = { s with mem := { s.mem with bad := s.mem.bad.filter (· != a) }
                     sets := { s.sets with bankA := t.sets.bankA, bankB := t.sets.bankB }
                     cp := { s.cp with regs := t.cp.regs, wfe := false, busError := false } }
      else t = { s with mem := s.mem.setPlain a v, cp := { s.cp with regs := t.cp.regs, wfe := false, busError := false } })) ∧
    (b.target = 9 → (bankOff aFctx 0x4000 a).2 < 4096 → ∃ t, exec (.stg p rd ra off) s = .next t ∧
      regs t .cp = nextBundle (regs s .cp) ∧ t.mem = { s.mem with bad := s.mem.bad.filter (· != a) } ∧
      (∀ f, (bankOf t (bankOff aFctx 0x4000 a).1).flow f = if f = (bankOff aFctx 0x4000 a).2 / 16
        then setQuad ((bankOf s (bankOff aFctx 0x4000 a).1).flow f) ((bankOff aFctx 0x4000 a).2 % 16 / 4)
          (v &&& fctxMask ((bankOff aFctx 0x4000 a).2 % 16 / 4))
        else (bankOf s (bankOff aFctx 0x4000 a).1).flow f) ∧
      bankOf t (!(bankOff aFctx 0x4000 a).1) = bankOf s (!(bankOff aFctx 0x4000 a).1)) ∧
    (b.target = 9 → 4096 ≤ (bankOff aFctx 0x4000 a).2 → ∃ t, exec (.stg p rd ra off) s = .next t ∧
      regs t .cp = nextBundle (regs s .cp) ∧
      t = { s with mem := s.mem.setPlain a v, cp := { s.cp with regs := t.cp.regs, wfe := false, busError := false } }) ∧
    (b.target = 12 → ∃ t, exec (.stg p rd ra off) s = .next t ∧ regs t .cp = nextBundle (regs s .cp) ∧
      t = if Config.retItem (a - aRet) < 1889 then
          { retSet (Config.retItem (a - aRet)) (v &&& retMask (Config.retItem (a - aRet))) s with
            mem := { s.mem with bad := s.mem.bad.filter (· != a) }
            cp := { s.cp with regs := t.cp.regs, wfe := false, busError := false } }
        else { s with mem := s.mem.setPlain a v, cp := { s.cp with regs := t.cp.regs, wfe := false, busError := false } }) ∧
    (b.target = 10 → aPeri + 0x2A00 ≤ a → a < aPeri + 0x7000 → ∃ t, exec (.stg p rd ra off) s = .next t ∧
      regs t .cp = nextBundle (regs s .cp) ∧
      t = { s with mem := { s.mem with peri := tput 0 s.mem.peri (a / 4) v }
                   cp := { s.cp with regs := t.cp.regs, wfe := false, busError := false } }) ∧
    (b.target = 10 → ∀ i < 160, a = aPeri + 0x1100 + 4 * i → ∃ t, exec (.stg p rd ra off) s = .next t ∧
      t = { s with filt := { s.filt with meters := tput 0x80008000 s.filt.meters i v }
                   cp := { s.cp with regs := t.cp.regs, wfe := false, busError := false } })) ∧
  (∀ (c : ConfigSet) (j k : Nat) (w : Word), j < 16814 → k < 16814 →
    gramGet (gramSet k w c) j = if j = k then some w else gramGet c j) ∧
  (∀ k, (k < 16384 → gramMask k = 0x001FFFFF) ∧ (16384 ≤ k → k < 16512 → gramMask k = 0xC7FF00FF) ∧
    (16512 ≤ k → k < 16576 → gramMask k = 0x801F00FF) ∧ (16768 ≤ k → k < 16802 → gramMask k = 0x80F11000)) ∧
  fctxMask 0 = 0x70FF017F ∧ fctxMask 1 = 0x33FF0100 ∧ fctxMask 2 = 0xFFF ∧
  (∀ (s : State) (p : Pred) (rd ra : BitVec 5) (off : BitVec 10), predOk s .cp p = true → pllbUnlocked s = true →
    ∀ i ∈ [Instr.ldg p rd ra off, .stg p rd ra off, .ldgh p rd ra off, .stgh p rd ra off, .ldgb p rd ra off,
      .stgb p rd ra off, .ldgl p rd ra off, .stgu p rd ra off], exec i s = .next s) ∧
  (∀ (s : State) (hi lo : Word) (b : BusPath), logicOn s = true → s.mem.upsets = [] → pllbUnlocked s = false →
    cpFetch (8 * s.cp.regs.pc % 2 ^ 32) s = (some hi, s) → cpFetch ((8 * s.cp.regs.pc + 4) % 2 ^ 32) s = (some lo, s) →
    opc hi = 0x50 → opc lo = 1 → cpLow lo = true → sylOn s .cp hi = true → sylOn s .cp lo = true → fRd hi ≠ fRd lo →
    cpPath s (busAddr s (fRa hi) (fOff hi)) = some b → b.rd = true → 1 ≤ b.target → b.target ≤ 7 →
    b.phys / 4 * 4 ∉ s.mem.bad →
    let x := gReg s .cp (fRa lo).toNat
    let y := gReg s .cp (fRb lo).toNat
    regs (beat s .cp) .cp = nextBundle (withG (fRd lo) (x.val + y.val) ((x.tag ||| y.tag) &&& 0b1110#4)
      (withG (fRd hi) (s.mem.word (b.phys / 4 * 4)) (s.mem.tag (b.phys / 4 * 4) &&& 0b1110#4) (regs s .cp)))) ∧
  (∀ (s : State) (p : Pred), predOk s .cp p = true →
    ∃ t, exec (.wfe p) s = .next t ∧ regs t .cp = nextBundle (regs s .cp) ∧
      t = { s with cp := { s.cp with regs := t.cp.regs, wfe := true } }) ∧
  (∀ (s : State) (l : Lock), s.cp.lock = some l → logicOn s = true → pllbUnlocked s = false → 65 ≤ since s l.since →
    exec .lockTimeout s = .next (logAbort 4 (pointTarget l.point) 4 false 0 l.addr
      { s with cp := { s.cp with lock := none, lockLost := true } })) ∧
  (∀ (s : State) (master a : Nat) (w : Word), logicOn s = true → pllbUnlocked s = false → s.mem.upsets = [] →
    aPeri + 0x2A00 ≤ a → a < aPeri + 0x8000 → (master = 4 ∨ master = 7) → (a < aPeri + 0x7000 ∨ wdtHost s = true) →
    exec (.registerWrite master a w) s = .next { s with mem := { s.mem with peri := tput 0 s.mem.peri (a / 4) w } }) ∧
  (∀ (s : State) (master a : Nat) (w : Word), logicOn s = true → pllbUnlocked s = false → aPeri ≤ a → a < aPeri + 0x8000 → master ≤ 8 →
    master ≠ 4 → master ≠ 7 → exec (.registerWrite master a w) s = .next (logAbort master 0xF 5 true 0 a s)) ∧
  (∀ (s : State) (master a : Nat) (w : Word), logicOn s = true → pllbUnlocked s = false → s.mem.upsets = [] →
    aPeri + 0x7000 ≤ a → a < aPeri + 0x8000 → (master = 4 ∨ master = 7) → wdtHost s = false → running s = true →
    exec (.registerWrite master a w) s = .next { s with
      mem := { s.mem with peri := tput 0 s.mem.peri (a / 4) w }, power := { s.power with wdtAt := now s } }) ∧
  (∀ (s : State) (master a : Nat) (w : Word), logicOn s = true → pllbUnlocked s = false → aPeri + 0x8000 ≤ a → a < aKeys → master ≤ 8 → master ≠ 4 →
    exec (.registerWrite master a w) s = .next (logAbort master 0xF 5 true 0 a s))

/-- The memories (R33, R34): a written word reads back with its tag, its byte writes reach exactly their bytes, and every other
byte and tag stands, whatever the memory held. -/
def Obligations.MemoryWords : Prop :=
  (∀ (m : Memory) (a b : Nat) (w : Word) (t : BitVec 4),
    (m.setWord a w t).word b = (if b / 4 = a / 4 then w else m.word b) ∧
    (m.setWord a w t).tag b = (if b / 4 = a / 4 then t else m.tag b)) ∧
  (∀ (m : Memory) (a b : Nat) (w : Word) (t : BitVec 4), b / 4 ≠ a / 4 → (m.setWord a w t).byte b = m.byte b) ∧
  (∀ (m : Memory) (a b : Nat) (w : Word), (m.setPlain a w).word b = (if b / 4 = a / 4 then w else m.word b) ∧
    (m.setPlain a w).tag b = m.tag b) ∧
  (∀ (m : Memory) (a b : Nat) (vs : List Byte), (m.setBytes a vs).byte b =
    (if a ≤ b then vs.getD (b - a) (m.byte b) else m.byte b)) ∧
  (∀ (m : Memory) (a i : Nat) (t : BitVec 4) (ws : List Word), a % 4 = 0 → i < ws.length →
    (m.setWords a t ws).word (a + 4 * i) = ws.getD i 0 ∧ (m.setWords a t ws).tag (a + 4 * i) = t) ∧
  (∀ (m : Memory) (a n b : Nat), a ≤ b → b < a + 4 * n → (m.clearRange a n).byte b = 0)

/-- The configuration sets (R65–R68, R70–R76): SWAP makes a swap pending and answers the epoch it will have; CANCEL withdraws it;
the swap takes effect at a common frame boundary, flipping the banks, raising SWAP_DONE and, with COPY, starting the copy; it times out
after 100 ms; SET.COPY and the end of a copy make SHADOW equal ACTIVE; SET.READ returns an item as held; a word that no longer decodes ends SET.COPY and
SET.READ with FAULT (Table 10.13); and placed IMMEDIATE
writes reach ACTIVE together at a frame boundary of their rate. -/
def Obligations.ConfigurationSets : Prop :=
  (∀ (a : CmdArgs) (s : State), Admitted rowSwap (withFlag a 2 false) s → setBusy s = false → measuring s = false →
    feSwapRef s = false → swapCapacity s = false → swapOwn s = none →
    exec (.swap a) s = .next (answered 0x10 .ok [toWord ((s.sets.epoch + 1) % 65536)]
      { s with sets := { s.sets with swap := some ⟨flag a 0, flag a 1, flag a 0, now s⟩ } })) ∧
  (∀ (a : CmdArgs) (s : State), Admitted rowSwap (withFlag a 2 true) s → flag a 0 = false → flag a 1 = false →
    (s.sets.swap.isSome = true → exec (.swapCancel a) s = .next (answered 0x10 .ok [1]
      (raiseIrq irqSwapDone { s with sets := { s.sets with swap := none, swapStatus := 8 } }))) ∧
    (s.sets.swap = none → exec (.swapCancel a) s = .next (answered 0x10 .ok [0] s))) ∧
  (∀ (s : State) (r : SwapReq), s.sets.swap = some r → r.armed = false → audioRuns s = true →
    commonBoundary s = true → oldEpochLeft s = false →
    ∃ t, exec .swapTakeEffect s = .next t ∧ bit t.irq.pend irqSwapDone = true ∧
      t.sets = { s.sets with
        selB := !s.sets.selB, epoch := (s.sets.epoch + 1) % 65536, swap := none, swapStatus := 0, copying := r.copy,
        taken := [], takenFlows := [] } ∧
      active t = shadow s ∧ shadow t = active s) ∧
  (∀ (s : State) (r : SwapReq), s.sets.swap = some r → r.armed = false → 100000000 ≤ since s r.since →
    exec .swapTimeout s = .next (raiseIrq irqSwapDone { s with sets := { s.sets with swap := none, swapStatus := 13 } })) ∧
  (∀ s : State, s.sets.copying = true →
    ∃ t, exec .copyComplete s = .next t ∧ shadow t = active s ∧ active t = active s ∧ t.sets.copying = false ∧
      bit t.irq.pend irqSetCopied = true ∧ t = { s with
        sets := t.sets, mem := t.mem, flt := t.flt, cp := { s.cp with busError := t.cp.busError }
        irq := { s.irq with pend := t.irq.pend } } ∧
      ((∀ x ∈ s.mem.bad, inBank s.sets.selB x = false) → t.flt = s.flt ∧ t.cp = s.cp)) ∧
  (∀ (a : CmdArgs) (s : State), Admitted rowSetCopy a s → setBusy s = false →
    (∀ x ∈ s.mem.bad, inBank s.sets.selB x = false) →
    ∃ t, exec (.setCopy a) s = .next (answered 0x12 .ok [] t) ∧ shadow t = active s ∧ active t = active s ∧
      t = { s with sets := t.sets, mem := t.mem }) ∧
  (∀ (a : CmdArgs) (s : State) (x : Nat), Admitted rowSetCopy a s → setBusy s = false →
    s.mem.bad.find? (inBank s.sets.selB) = some x →
    exec (.setCopy a) s = .next (answered 0x12 .fault [] (wordLost x (fresh s)))) ∧
  (∀ (a : CmdArgs) (s : State) (op : Nat) (m : Word), Admitted rowSetRead a s → resv (opnd a 0) 0xFF010000 = false →
    op = fld (opnd a 0) 31 24 → addrMask op = some m → resv (opnd a 1) m = false → addrRange op (opnd a 1) = false →
    s.mem.bad = [] → s.mem.upsets = [] →
    exec (.setRead a) s = .next (answered 0x13 .ok (readItem op (opnd a 1)
      (if bit (opnd a 0) 16 then shadow s else active s) (if bit (opnd a 0) 16 then !s.sets.selB else s.sets.selB) s) s)) ∧
  (∀ (a : CmdArgs) (s : State) (op x : Nat) (m : Word), Admitted rowSetRead a s → resv (opnd a 0) 0xFF010000 = false →
    op = fld (opnd a 0) 31 24 → op ≠ 0x92 → addrMask op = some m → resv (opnd a 1) m = false → addrRange op (opnd a 1) = false →
    s.mem.bad.find? (holdsItem (if bit (opnd a 0) 16 then !s.sets.selB else s.sets.selB) op [opnd a 1]) = some x →
    s.mem.upsets = [] →
    exec (.setRead a) s = .next (answered 0x13 .fault [] (wordLost x (fresh s)))) ∧
  (∀ (s : State) (rate : Nat) (due : List Placed), audioRuns s = true →
    frameStart s (fun q => q.laneRate == rate) = true →
    due = s.sets.placed.filter (fun p => match p.rate with | some r => r == rate | none => true) →
    ∃ t, exec (.immediateWriteApply rate) s = .next t ∧ shadow t = shadow s ∧
      t.sets.placed = s.sets.placed.filter (fun p => !due.contains p) ∧
      active t = due.foldl (fun c p => if p.op = 0x92 then c else itemWrite p.op ⟨false, 0, 0, false, true, p.ops⟩ c) (active s))

/-- IMMEDIATE writes (R67): with its own checks passed, each command marked I is placed for the frame boundary of its rate and
leaves ACTIVE as it is; without MIRROR it leaves SHADOW too. -/
def Obligations.ImmediateWrites : Prop :=
  ∀ (a : CmdArgs) (s : State), a.imm = true →
    (Admitted rowFirSel a s → (bodyFirSel a s).st = .ok →
      ∃ t, exec (.firSel a) s = .next (answered 0x32 .ok [] t) ∧ PlacedAs 0x32 a (chanRate s (opnd a 0).toNat) s t) ∧
    (Admitted rowFirFade a s → (bodyFirFade a s).st = .ok →
      ∃ t, exec (.firFade a) s = .next (answered 0x33 .ok [] t) ∧ PlacedAs 0x33 a (chanRate s (opnd a 0).toNat) s t) ∧
    (Admitted rowRoute a s → (bodyRoute a s).st = .ok →
      ∃ t, exec (.route a) s = .next (answered 0x40 .ok [] t) ∧ PlacedAs 0x40 a (outRate (active s) (fld (opnd a 0) 6 0)) s t) ∧
    (Admitted rowGain a s → (bodyGain a s).st = .ok →
      ∃ t, exec (.gain a) s = .next (answered 0x41 .ok [] t) ∧ PlacedAs 0x41 a (outRate (active s) (fld (opnd a 0) 6 0)) s t) ∧
    (Admitted rowRamp a s → (bodyRamp a s).st = .ok →
      ∃ t, exec (.ramp a) s = .next (answered 0x42 .ok [] t) ∧ PlacedAs 0x42 a (outRate (active s) (fld (opnd a 0) 6 0)) s t) ∧
    (Admitted rowWeir a s → (bodyWeir a s).st = .ok →
      ∃ t, exec (.weir a) s = .next (answered 0x43 .ok [] t) ∧ PlacedAs 0x43 a (outRate (active s) (fld (opnd a 0) 6 0)) s t) ∧
    (Admitted rowMrTap a s → (bodyMrTap a s).st = .ok →
      ∃ t, exec (.mrTap a) s = .next (answered 0x44 .ok [] t) ∧ PlacedAs 0x44 a (some (if fam44 s then 10 else 3)) s t) ∧
    (Admitted rowOutCfg a s → (bodyOutCfg a s).st = .ok →
      ∃ t, exec (.outCfg a) s = .next (answered 0x60 .ok [] t) ∧
        PlacedAs 0x60 a (some ((active s).outRateCode (opnd a 0).toNat)) s t) ∧
    (Admitted rowCoreParam a s → (bodyCoreParam a s).st = .ok →
      ∃ t, exec (.coreParam a) s = .next (answered 0x92 .ok [] t) ∧
        PlacedAs 0x92 a (if ((active s).bind (fld (opnd a 0) 1 0)).en then some ((active s).bind (fld (opnd a 0) 1 0)).rate else none)
          s t)

/-- Synchronisation (R73, R177, R334, R335, R344, Table 9.5): SYNC writes the modes, gives a pulse or asks for a reset; a pulse
starts at once where AUD runs and else keeps its request; a SYNC_IN edge serves an armed swap, and otherwise acts by INMODE; and the
reset restarts the grids, the decimators and their counts, and records t0. The model's choices: what an edge and NOW do (log entry
63); an EMIT while AUD stands still keeps its request, and gives no pulse behind held pads (log entry 149); the writes placed before a
reset apply at t0 (log entry 96). -/
def Obligations.Synchronisation : Prop :=
  (∀ (a : CmdArgs) (s : State), Admitted rowSync (withFlag a 2 true) s → flag a 0 = false → flag a 1 = false →
    resv (opnd a 0) 0x33 = false → fld (opnd a 0) 1 0 ≠ 3 → fld (opnd a 0) 5 4 < 2 →
    exec (.syncCfg a) s = .next (answered 0x11 .ok [] { s with
      clk := { s.clk with inmode := BitVec.ofNat 2 (fld (opnd a 0) 1 0), outmode := BitVec.ofNat 2 (fld (opnd a 0) 5 4) } })) ∧
  (∀ (a : CmdArgs) (s : State), Admitted rowSync (withFlag a 1 true) s → flag a 0 = false → flag a 2 = false →
    s.clk.outmode ≠ 0 →
    (running s = true → gridRuns s = true → s.power.padsHeld = false → exec (.syncEmit a) s = .next (answered 0x11 .ok []
      { s with clk := { s.clk with pulses := s.clk.pulses + 1, pulseAt := now s, emitReq := false } })) ∧
    (running s = true → gridRuns s = true → s.power.padsHeld = true → exec (.syncEmit a) s = .next (answered 0x11 .ok []
      { s with clk := { s.clk with emitReq := false } })) ∧
    ((running s = false ∨ gridRuns s = false) → exec (.syncEmit a) s = .next (answered 0x11 .ok []
      { s with clk := { s.clk with emitReq := true } }))) ∧
  (∀ (a : CmdArgs) (s : State), Admitted rowSync (withFlag a 0 true) s → flag a 1 = false → flag a 2 = false →
    s.clk.a.st ∈ [.locked, .holdover, .holdoverMuted] →
    exec (.syncNow a) s = .next (answered 0x11 .ok [] { s with clk := { s.clk with syncReq := true } })) ∧
  (∀ (s : State) (aligned : BitVec 6) (r : SwapReq), running s = true → s.power.padsHeld = false → s.power.iovddA = true →
    s.sets.swap = some r →
    r.armed = true →
    exec (.syncInEdge aligned) s = .next { s with sets := { s.sets with swap := some { r with armed := false, since := now s } } }) ∧
  (∀ (s : State) (aligned : BitVec 6), running s = true → s.power.padsHeld = false → s.power.iovddA = true →
    s.sets.swap = none → s.clk.inmode = 2 →
    gridRuns s = true →
    ∃ t, exec (.syncInEdge aligned) s = .next t ∧ t.clk.inmode = 0 ∧ t.tb.lastT0 = now s ∧ t.mtx.lanePos = [] ∧
      t.sets.placed = []) ∧
  (∀ (s : State) (aligned : BitVec 6), s.clk.syncReq = true → running s = true → gridRuns s = true →
    ∃ t, exec (.synchronisingReset aligned) s = .next t ∧ t.clk.syncReq = false ∧ t.tb.lastT0 = now s ∧ t.mtx.lanePos = [] ∧
      t.sets.placed = [] ∧ t.clk.emitReq = false ∧
      t.clk.pulses = s.clk.pulses + (if s.clk.outmode = 1 ∧ s.power.padsHeld = false then 1 else 0) ∧
      (s.sets.placed = [] → ∀ ch < 32, (chan s ch).live = true →
        (chan t ch).hist = [] ∧ (chan t ch).histOdd = [] ∧ (chan t ch).cutNext = true ∧ (chan t ch).fade = none ∧
        (chan t ch).queued = none ∧ (chan t ch).bank = (active s).chBank ch))

/-- PLL lock and relock (R319, R320, R324, R330–R333, R342, R343, Table 9.4): a window is judged by its count of DCO ÷ 4 against
the expected one; the third good window in a row locks, and a bad one starts the count over; a locked PLL leaves LOCKED at the
second bad window in a row, at one beyond four times the threshold, or with its reference, its word frozen at the mean of the last
good window; PLL.CFG and PLL.REF act as their rules say; a guard trip relocks, with every clamp for PLLA, and in ACQUIRING keeps the
gate closed; a RELOCK test whose lock comes late fails; and the outputs ungate after the lock. The model's choices: PLL.REF in ACQUIRING
stays there and counts windows anew (log entry 150); a lock window holds a window of the guard, so that one passes it (log entry
175); a RELOCK test fails when its lock does not hold (log entry 30). -/
def Obligations.PhaseLockedLoops : Prop :=
  (∀ (s s1 : State) (u count ppm n e : Nat) (pres ok : Bool), u < 2 → n = winCount s u count → e = winExpected s u →
    ok = (pres && decide (0 < e) && withinPpm e n (pll s u).limit) → s1 = noteWindow u n pres ok s →
    ((pll s u).st = .acquiring → ok = true → (pll s u).good < 2 →
      exec (.pllWindow u count pres ppm) s = .next (onPll u (fun p => { p with good := p.good + 1 }) s1)) ∧
    ((pll s u).st = .acquiring → ok = true → 2 ≤ (pll s u).good → ∃ t, exec (.pllWindow u count pres ppm) s = .next t ∧
      (pll t u).st = .locked ∧ pll t (1 - u) = pll s (1 - u) ∧ bit t.irq.pend irqClock = true ∧
      ((pll s u).testing = true → 0 < (pll s u).lockBy → (pll s u).lockBy < now s → (pll t u).testing = false)) ∧
    ((pll s u).st = .acquiring → ok = false →
      exec (.pllWindow u count pres ppm) s = .next (onPll u (fun p => { p with good := 0 }) s1)) ∧
    ((pll s u).st = .locked → ok = true →
      exec (.pllWindow u count pres ppm) s = .next (onPll u (fun p => { p with bad := 0 }) s1)) ∧
    ((pll s u).st = .locked → ok = false → withinPpm e n (4 * (pll s u).limit) = true → (pll s u).bad = 0 →
      exec (.pllWindow u count pres ppm) s = .next (onPll u (fun p => { p with bad := p.bad + 1 }) s1)) ∧
    ((pll s u).st = .locked → ok = false → (withinPpm e n (4 * (pll s u).limit) = false ∨ 1 ≤ (pll s u).bad) →
      ∃ t, exec (.pllWindow u count pres ppm) s = .next t ∧ (pll t u).st = .holdover ∧ (pll t u).holdAt = now s ∧
        (pll t u).word = (pll s u).mean ∧ t.clk.losses = min 15 (s.clk.losses + 1) ∧ bit t.irq.pend irqClock = true)) ∧
  (∀ (s : State) (u : Nat), u < 2 →
    ((pll s u).st = .locked → ∃ t, exec (.referenceLost u) s = .next t ∧ (pll t u).st = .holdover ∧ (pll t u).holdAt = now s ∧
      (pll t u).t0Code = tempCode s ∧ (pll t u).word = (pll s u).mean ∧ t.clk.losses = min 15 (s.clk.losses + 1) ∧
      bit t.irq.pend irqClock = true) ∧
    ((pll s u).st = .acquiring →
      exec (.referenceLost u) s = .next (onPll u (fun p => { p with good := 0, qual := 0, refAway := true })
        (xrefLost u s)))) ∧
  (∀ (before t : State) (p : Nat), p < 4 → before.clk.ref.toNat = p + 2 → t.clk.ref = before.clk.ref →
    (tdm before p).st = .running → tdmMaster (tdm before p).cfg = false → (tdm t p).st ≠ .running →
    refFollow before t = referenceLost 0 t) ∧
  (∀ (a : CmdArgs) (s : State), Admitted rowPllCfg a s → opnd a 0 = 2 → resv (opnd a 1) 0x800000FF = false →
    fld (opnd a 1) 7 0 ≠ 0 → s.sets.swap = none →
    ∃ t, exec (.pllCfg a) s = .next (answered 0x70 .ok [] t) ∧ t.clk = { s.clk with aon := opnd a 1 } ∧
      t = { s with clk := t.clk, tb := t.tb }) ∧
  (∀ (a : CmdArgs) (s : State) (u : Nat) (w : Word), Admitted rowPllCfg a s → opnd a 0 = toWord u → u < 2 → w = opnd a 1 →
    resv w 0xC00F0707 = false → fld w 2 0 ≠ 7 → 10 ≤ fld w 19 16 → threshFits s u w = true → s.sets.swap = none →
    (u = 0 → 50 * bwHz (fld w 2 0) ≤ refHz s s.clk.ref.toNat s.clk.mclkHz) →
    (u = 1 → bit w 31 = true ∧ bit w 30 = false ∧ fld w 2 0 = 6) →
    (u = 0 → (bit w 31 ≠ bit s.clk.a.cfg 31 ∨ bit w 30 ≠ bit s.clk.a.cfg 30) → audioQuiet s = true) →
    (u = 0 → pllsHeld s = false) →
    ∃ t, exec (.pllCfg a) s = .next (answered 0x70 .ok [] t) ∧ (pll t u).cfg = w ∧
      (u = 1 → t = { s with clk := { s.clk with b := { s.clk.b with cfg := w } } }) ∧
      (u = 0 → bit w 31 = bit s.clk.a.cfg 31 → bit w 30 = bit s.clk.a.cfg 30 →
        t = { s with clk := { s.clk with a := { s.clk.a with cfg := w } } }) ∧
      (u = 0 → bit w 31 = true → (bit s.clk.a.cfg 31 = false ∨ bit s.clk.a.cfg 30 ≠ bit w 30) →
        (pll t 0).st = .acquiring ∧ (pll t 0).gated = true ∧ bit t.irq.pend irqClock = true) ∧
      (u = 0 → bit w 31 = false → bit s.clk.a.cfg 31 = true → (pll t 0).st = .off ∧ (pll t 0).gated = false)) ∧
  (∀ (a : CmdArgs) (s : State) (w : Word), Admitted rowPllCfg a s → opnd a 0 = 0 → w = opnd a 1 → resv w 0xC00F0707 = false →
    fld w 2 0 ≠ 7 → 10 ≤ fld w 19 16 → threshFits s 0 w = true → s.sets.swap = none →
    50 * bwHz (fld w 2 0) ≤ refHz s s.clk.ref.toNat s.clk.mclkHz → audioQuiet s = true → pllsHeld s = true →
    exec (.pllCfg a) s = .next (answered 0x70 .ok [] { s with clk := { s.clk with a := { s.clk.a with
      cfg := w, word := if bit s.clk.a.cfg 30 = bit w 30 ∧ bit s.clk.a.cfg 31 = true then s.clk.a.word else 0 } } })) ∧
  (∀ (a : CmdArgs) (s : State), Admitted rowPllRef a s → resv (opnd a 0) 7 = false →
    refBad s (opnd a 0).toNat (opnd a 1) = false →
    lowestFlow (active s) (fun f q => q.kind == 4 && decide (f < 128) && q.rel != 2 && 6 + q.ep / 2 == s.clk.ref.toNat) = none →
    ∃ t, exec (.pllRef a) s = .next (answered 0x71 .ok [] t) ∧ t.clk.ref.toNat = (opnd a 0).toNat ∧
      t.clk.mclkHz = (opnd a 1).toNat ∧
      (s.clk.a.st = .locked → t.clk.a.st = .holdover ∧ bit t.irq.pend irqClock = true) ∧
      (s.clk.a.st ≠ .locked → t.clk.a.st = s.clk.a.st ∧ (s.clk.a.st ≠ .off → t.clk.a.good = 0))) ∧
  (∀ (s : State) (ratio hz : Nat), guardRatio 0 ratio = true → guardTrips s 0 ratio hz = true → s.clk.a.st ∈ [.locked, .holdover, .holdoverMuted] →
    ∃ t, exec (.frequencyGuardTrip 0 ⟨ratio, hz⟩) s = .next t ∧ t.clk.a.st = .acquiring ∧ t.clk.a.gated = true ∧
      t.clk.a.testing = true ∧ t.clk.a.guardTrip = true ∧ t.flt.written = s.flt.written + 1 ∧
      ∀ d < 34, (dac t d).clamp = true ∧ (dac t d).g = .zero) ∧
  (∀ (s : State) (ratio hz : Nat), guardRatio 1 ratio = true → guardTrips s 1 ratio hz = true → s.clk.b.st ∈ [.locked, .holdover, .holdoverMuted] →
    ∃ t, exec (.frequencyGuardTrip 1 ⟨ratio, hz⟩) s = .next t ∧ t.clk.b.st = .acquiring ∧ t.clk.b.gated = true ∧
      t.clk.a = s.clk.a ∧ t.power.onRc = true ∧ (s.mem.upsets = [] → t.flt.written = s.flt.written + 1)) ∧
  (∀ (s : State) (u ratio hz : Nat),
    ((guardRatio u ratio = false ∨ guardTrips s u ratio hz = false) → exec (.frequencyGuardTrip u ⟨ratio, hz⟩) s = .next (vcmFollow s)) ∧
    (guardRatio u ratio = true → guardTrips s u ratio hz = true → (pll s u).st = .acquiring →
      exec (.frequencyGuardTrip u ⟨ratio, hz⟩) s = .next (vcmFollow (onPll u (fun p => { p with guardBad := true, good := 0 }) s))) ∧
    (u < 2 → (pll s u).guardBad = true → exec (.pllUngate u) s = .next s)) ∧
  (∀ s : State, s.clk.b.gated = true → s.clk.b.guardBad = false → s.clk.b.st = .locked →
    ∃ t, exec (.pllUngate 1) s = .next t ∧ t.clk.b.gated = false ∧ t.clk.a = s.clk.a ∧ t.power.onRc = false ∧
      t.tb.lockedOnce = true ∧ bit t.irq.pend irqClock = true) ∧
  (∀ s : State, s.clk.a.gated = true → s.clk.a.guardBad = false → s.clk.a.st = .locked → s.clk.a.guardTrip = false →
    exec (.pllUngate 0) s = .next (syncEmit (raiseIrq irqClock { s with
      clk := { s.clk with a := { s.clk.a with gated := false, guardTrip := false, lockAt := now s } }
      mtx := { s.mtx with lanePos := [] } }))) ∧
  (∀ (s : State) (u : Nat), u < 2 → (pll s u).testing = true → (pll s u).st = .locked → (pll s u).gated = false →
    60000000000 ≤ since s (pll s u).lockAt →
    exec (.relockTestHold u) s = .next (classifySite (siteOf 0x07 u) true (onPll u (fun p => { p with testing := false }) s)))

/-- Holdover (R326–R328): after 1 s, or a drift of 20 ppm, the outputs' gains fall to 0 within 2 ms, digital egress ramps out and the
state and HOLD_MUTE say so; at the common frame boundary after the relock every flow restarts with CUT and the outputs ramp in. That the 2 ms ramp runs over the
final-stage steps within 2 ms, rounded up, from where g_out stands, and does not scale with the family, is the model's choice (log
entries 28, 111). -/
def Obligations.Holdover : Prop :=
  (∀ s : State, s.clk.a.st = .holdover → (1000000000 ≤ since s s.clk.a.holdAt ∨ 20000 ≤ driftPpb s) →
    ∃ t, exec .holdoverMute s = .next t ∧ t.clk.a = { s.clk.a with st := .holdoverMuted } ∧
      bit t.irq.pend irqHoldMute = true ∧ bit t.irq.pend irqClock = true ∧
      (∀ d < 34, dac t d = if (dac s d).clamp = true ∨ (dac s d).g = .zero then dac s d
        else { dac s d with g := .falling, gFrom := gNow s (dac s d), gAt := now s, gLen := holdSteps s }) ∧
      (∀ f ∈ runningFlows s digital, (flowRun t f).muteJ = some 0) ∧
      t = { s with clk := { s.clk with a := t.clk.a }, irq := { s.irq with pend := t.irq.pend }, flows := t.flows,
                   outs := { s.outs with dacs := t.outs.dacs } }) ∧
  (∀ s : State, s.clk.restart = true → s.clk.a.st = .locked → audioRuns s = true → commonBoundary s = true →
    ∃ t, exec .holdoverRestart s = .next t ∧ t.clk = { s.clk with restart := false } ∧
      (∀ f ∈ activeFlows s, (flowRun s f).running = true → (flowRun t f).cutNext = true ∧ (flowRun t f).muteJ = none) ∧
      (∀ d < 34, (dac s d).phase = .playing → (dac t d).phase = .unmuting ∧ (dac t d).g = .rising ∧ (dac t d).since = now s) ∧
      t = { s with clk := t.clk, flows := t.flows, outs := { s.outs with dacs := t.outs.dacs } })

/-- The timebase (R318, R338–R340, R345, R445): TIME.READ returns the count, U and the last t0, and sets TB_VALID with its flag; a tick
adds whole periods of the present source with their fraction kept, and starts a planner run at 24 h in RUN; then the beats of the
sample clocks act in turn, an operand of the tick by the model's choice (log entry 145): a channel's sample reaches its detector (R179) and
its CONVERT flows, or its CIC's words wait in its FIFO while MTX stands still (R41, Table 1.9); a microphone's bits enter its decimator (R249, R250); eight modulator samples pass
a tap's CIC (R206; its width and rounding are the model's choice, log entry 147); a DAC's interpolator takes its next sample or begins to
starve (R271); a final stage adds block path and buses, saturates and applies its gain (R209, R210, R267); and an AES3 frame carries its
samples, V, C and even parity (R248). The AON calibrator records its measurements in RUN and the
temperature's distance in deep sleep; the XREF starts PLLB at a cold start; and XT32's state is kept. Also the model's choices: the CIC's
words wait in the channel's FIFO while PLLB is unlocked (log entry 127) and the CIC holds `cicLen` words' samples (log entry 193), the DAC's interpolator keeps 64 words (log entry 163),
a microphone's decimator 24 samples' worth of bits (log entry 178), and a detector compares |x| with P as it stood at the sample before
(log entry 185). -/
def Obligations.TimebaseAndXref : Prop :=
  (∀ (a : CmdArgs) (s : State), Admitted rowTimeRead a s →
    exec (.timeRead a) s = .next (answered 0x72 .ok
      [toWord (s.tb.count / 2 ^ 32), toWord s.tb.count, toWord (uncertainty s), toWord (s.tb.lastT0 / 2 ^ 32), toWord s.tb.lastT0]
      (if flag a 0 then { s with tb := { s.tb with valid := true } } else s))) ∧
  (∀ (s : State) (n : Nat), s.power.st ≠ .off →
    ∃ t, exec (.timebaseTick ⟨n, []⟩) s = .next t ∧
      t.tb.count = (s.tb.count + (s.tb.frac + n * srcPeriod s s.tb.src) / 2 ^ 32) % 2 ^ 64 ∧
      t.tb.frac = (s.tb.frac + n * srcPeriod s s.tb.src) % 2 ^ 32 ∧
      t = { s with tb := { s.tb with count := t.tb.count, frac := t.tb.frac, elapsed := t.tb.elapsed },
                   margin := if running s then s.margin.pass ((s.tb.frac + n * srcPeriod s s.tb.src) / 2 ^ 32) else s.margin }) ∧
  (∀ (m : Margin) (ns : Nat), (m.pass ns).runNs = (if m.runNs + ns < 86400000000000 then m.runNs + ns
      else (m.runNs + ns) % 86400000000000) ∧
    (m.pass ns).running = (m.running || decide (86400000000000 ≤ m.runNs + ns))) ∧
  (∀ (s : State) (n : Nat) (beats : List Beat),
    exec (.timebaseTick ⟨n, beats⟩) s = .next (settle s (beats.foldl beat (tbAdvance n s)))) ∧
  (∀ (s : State) (ch : Nat) (even odd : List Int) (fs : List Nat), running s = true → gridRuns s = true →
    (active s).gov ch = ch → pllbUnlocked s = false → audioRuns s = true → lockedFlow s 1 ch = false → (chan s ch).run ≠ .off →
    fs = runningFlows s (fun f q => decide (f < 128) && q.kind == 1 && q.ep == ch && q.rel != 0) → fs.Nodup →
    let x := (captureAin ch ((chan s ch).pos == 0) even odd s).1
    let t := beat s (.ain ch even odd)
    tget {} t.filt.dets ch = detStep (tget dDet s.filt.detCfg ch) (chanHz (active s) ch) x (tget {} s.filt.dets ch) ∧
    ∀ f ∈ fs, (flowRun t f).hist = (x :: (flowRun s f).hist).take (supportOf f ((active s).flow f))) ∧
  (∀ (s : State) (ch ratio : Nat) (even odd : List Int) (held : Nat → List Int) (a : Nat → Int), running s = true →
    gridRuns s = true → (active s).gov ch = ch → pllbUnlocked s = true → (chan s ch).live = true → (active s).pairMode ch = 0 →
    ratio = cicRatio s (active s) ch → even.length = 4 * ratio →
    (∀ k, held k = ((even.take (k * ratio)).reverse ++ (chan s ch).dec.codes).take (cicLen * ratio)) →
    (∀ k, a k = Config.cic ratio (held k)) →
    let words := (chan s ch).dec.fifo ++ [a 1, a 2, a 3, a 4]
    chan (beat s (.ain ch even odd)) ch = { chan s ch with
      dec := { (chan s ch).dec with codes := held 4, fifo := words.take 8 }, oddNext := false
      cutNext := (chan s ch).cutNext || decide (8 < words.length) }) ∧
  (∀ (s : State) (line m n : Nat) (edges : List (Bool × Bool)) (bits bs : List Bool),
    (tget ({} : PdmRun) s.ports.pdmRun (line / 2)).running = true → masterFree s = true → audioRuns s = true → line < 4 →
    ((m = 2 * line ∧ bits = edges.map (·.1)) ∨ (m = 2 * line + 1 ∧ bits = edges.map (·.2))) →
    n = 24 * pdmPer s (pdmCfg s (line / 2)) → bs = (bits.reverse ++ (mic s m).bits).take n →
    let t := beat s (.pdm line edges)
    (mic t m).bits = bs ∧ (mic t m).setLeft = (mic s m).setLeft - 1 ∧
      (bit (pdmCfg s (line / 2)) 8 = false → (mic t m).out.val = pdmValue n bs) ∧
      (mic t m).out.tag &&& tSET = (if pdmSettling s (line / 2) || decide (0 < (mic s m).setLeft) then tSET else 0)) ∧
  (∀ (s : State) (ch : Nat) (codes m : List Int), modRuns s ch = true → m = (codes.reverse ++ (chan s ch).mods).take 15 →
    beat s (.mod ch codes) = onChan ch (fun c => { c with
      mods := m
      tap := roundDiv (((List.range 15).map (fun i => ((min (i + 1) (15 - i) : Nat) : Int) * m.getD i 0)).sum) 64 }) s) ∧
  (∀ (s : State) (d f : Nat) (x : Sample) (rest : List Sample), dacTakes s d = true →
    (runningFlows s (fun f q => decide (128 ≤ f) && q.kind == 2 && q.ep == d)).head? = some f →
    (flowRun s f).fifo = x :: rest → (flowRun s f).fifoCut = false →
    let t := beat s (.dac d)
    (flowRun t f).fifo = rest ∧
      ((dac s d).starve ∈ [.none, .fadeIn] → dac t d = { dac s d with hist := (x.val :: (dac s d).hist).take 64 }) ∧
      ((dac s d).starve ∈ [.fadeOut, .silent] → dac t d = { dac s d with
        hist := [x.val], starve := .fadeIn, sFrom := starveNow s (dac s d), sAt := now s })) ∧
  (∀ (s : State) (d f : Nat), dacTakes s d = true → (active s).outEn d = true →
    (runningFlows s (fun f q => decide (128 ≤ f) && q.kind == 2 && q.ep == d)).head? = some f →
    (flowRun s f).fifo = [] → (flowRun s f).ahead = [] → (flowRun s f).last ≠ none → (dac s d).starve = .none →
    let t := beat s (.dac d)
    dac t d = { dac s d with starve := .fadeOut, sFrom := 2 ^ 32, sAt := now s } ∧
      (flowRun t f).slips = min 15 ((flowRun s f).slips + 1) ∧ bit t.irq.pend irqSlip = true) ∧
  (∀ (s : State) (d phase : Nat), running s = true → gridRuns s = true →
    let v := satQ31 (roundDiv (blockValue s d phase + busesAt s d) (2 ^ 32))
    let t := beat s (.final d phase)
    (dac t d).level = roundDiv (v * gNow s (dac s d)) (2 ^ 32) ∧ ((dac s d).g = .one → (dac t d).level = v) ∧
      ((dac s d).g = .zero → (dac t d).level = 0) ∧ (dac t d).path = pathValue s d phase ∧
      ∀ e ≠ d, dac t e = dac s e) ∧
  (∀ (s : State) (d : Nat), busesAt s d = if d < 32 then ((List.range 8).map (fun b => roundDiv
      (((List.range 8).map (fun t => if tapLive s (tapRun s (8 * b + t)).chan
        then (chan s (tapRun s (8 * b + t)).chan).tap * tapNow s (tapRun s (8 * b + t)) else 0)).sum *
        assignLevel s (active s) b d) (2 ^ 32))).sum else 0) ∧
  (∀ (s : State) (tx f : Nat) (x : Sample) (rest : List Sample), aesSends s tx = true → (aesTx s tx).frame ≠ 0 →
    (runningFlows s (fun f q => decide (128 ≤ f) && q.kind == 4 && q.ep == 2 * tx)).head? = some f →
    (flowRun s f).fifo = x :: rest → (flowRun s f).fifoCut = false →
    let t := beat s (.aes tx)
    (aesTx t tx).frame = ((aesTx s tx).frame + 1) % 192 ∧ ∃ a b, (aesTx t tx).out = [a, b] ∧ fld a 3 0 = 0 ∧
      fld a 27 4 = aesAudio (aesCfg s (2 + tx)) x.val ∧ bit a 28 = x.tag.getLsbD 2 ∧ bit a 29 = false ∧
      bit a 30 = csBit (sentBlock (aesCfg s (2 + tx)) (aesTx s tx).curA) (aesTx s tx).frame ∧
      (List.range 32).countP (bit a) % 2 = 0) ∧
  (∀ (s : State) (xt rc : Nat), running s = true →
    ((s.clk.a.st = .locked ∧ s.clk.a.gated = false) ∨ pllbUnlocked s = false) →
    exec (.aonCalibration xt rc) s = .next { s with
      tb := { s.tb with
        xtPs := xt, rcPs := rc, calFresh := true, tCal := tempCode s, dT := 0
        uBase := if s.tb.src = .xt32 ∨ s.tb.src = .rc32 then uncertainty s else s.tb.uBase
        elapsed := if s.tb.src = .xt32 ∨ s.tb.src = .rc32 then 0 else s.tb.elapsed } }) ∧
  (∀ (s : State) (code : Nat), (s.power.st = .rest ∨ s.power.st = .hibernate) →
    exec (.aonTempSample code) s = .next { s with
      tb := { s.tb with dT := max s.tb.dT (codeDist (code % 4096) s.tb.tCal) } }) ∧
  (∀ (s : State) (on : Bool), s.power.st ≠ .off →
    ∃ t, exec (.xt32Oscillates on) s = .next t ∧ t.tb.xt32 = on ∧ t.tb.count = s.tb.count ∧ t = { s with tb := t.tb }) ∧
  (∀ s : State, s.power.st = .run → s.power.xrefOk = false → s.power.waking = none → s.clk.b.st = .off →
    (s.sec.otp.xrefFreq = 0 → 97 * 24576000 ≤ 100 * s.power.straps.xrefHz ∧ 100 * s.power.straps.xrefHz ≤ 103 * 24576000) →
    ∃ t, exec .xrefReady s = .next t ∧ t.power.xrefOk = true ∧ t.clk.b.st = .acquiring ∧ t.clk.b.gated = true ∧
      t.power.onRc = true ∧ t.clk.a = s.clk.a)

/-- Sleep entry (R373–R380, Tables 11.2–11.6): SLEEP chooses a state and starts the entry; SLEEP with CANCEL undoes it; a refusing
agent ends it with its ID and reason; the delaying agents accept one by one, the self-test agent, and the patrol where no test delays the entry, with at most one abort record of
what it had in flight (a free value, log entry 42); an agent that takes too long undoes it; and the
commit, at a common frame boundary, enters the chosen state with the pads held, every output clamped but one that a classification
probes. That agent 0 (the host's CANCEL, a wake event, a self-test end) stands for no agent, and the agents' order, are the model's
choices (log entry 76). -/
def Obligations.SleepEntries : Prop :=
  (∀ (a : CmdArgs) (s : State) (us : Nat) (mask : Word), Admitted rowSleep (withFlag a 0 false) s → us = (opnd a 0).toNat →
    mask = opnd a 1 → resv mask 0x3F = false → s.sets.swap = none → s.power.onRc = false → 5 ≤ us → mask ≠ 0 →
    (bit mask 5 = true → opnd a 2 ≠ 0) → (mask &&& 0xE ≠ 0 → anyJack s = true) →
    let t : BitVec 3 := if 150000 ≤ us ∧ within mask 0x23 then 6 else if 45000 ≤ us ∧ within mask 0x27 then 5
      else if napFits s us then 3 else 2
    exec (.sleep a) s = .next (answered 0x80 .ok [t.setWidth 32] { s with
      deferred := { opcode := 0x80, job := some .sleep, since := now s }
      power := { s.power with st := .entering, entry := some ⟨t, mask, (opnd a 2).toNat, false, [], now s⟩ } })) ∧
  (∀ (a : CmdArgs) (s : State), Admitted rowSleep (withFlag a 0 true) s →
    (s.power.entry = none → exec (.sleepCancel a) s = .next (answered 0x80 .ok [0] s)) ∧
    (s.power.entry.isSome = true → ∃ t, exec (.sleepCancel a) s = .next (answered 0x80 .ok [1] t) ∧ EntryUndone 0 7 s t)) ∧
  (∀ (s : State) (e : SleepEntry) (ag re : BitVec 4) (l : List (BitVec 4 × BitVec 4)), s.power.entry = some e → e.queried = false →
    refusals s = (ag, re) :: l →
    exec .sleepQuery s = .next (raiseIrq irqCmdDone { s with
      deferred := { s.deferred with status := 8, job := none }
      power := { s.power with st := .run, entry := none, agent := ag, reason := re } })) ∧
  (∀ (s : State) (e : SleepEntry), s.power.entry = some e → e.queried = false → refusals s = [] →
    ∃ t, exec .sleepQuery s = .next t ∧
      t.power = { s.power with entry := some { e with queried := true, delays := delays s e.target, since := now s } } ∧
      (∀ d < 34, 4 ∈ delays s e.target → (dac s d).phase = .playing →
        (dac t d).phase = .muting ∧ (dac t d).since = now s ∧ (dac t d).g = if (dac s d).g = .zero then .zero else .falling) ∧
      (4 ∉ delays s e.target → t.outs.dacs = s.outs.dacs) ∧
      (8 ∈ delays s e.target → t.flt = s.flt ∧ t.free = s.free ∧ t.irq = s.irq) ∧
      (8 ∉ delays s e.target → t.flt.testing = false ∧ t.flt.written ≤ s.flt.written + 1 ∧
        (t.flt.written = s.flt.written → t.flt = { s.flt with testing := false } ∧ t.irq = s.irq)) ∧
      t = { s with power := t.power, outs := t.outs, jack := { s.jack with run := t.jack.run }, free := t.free, flt := t.flt,
                   irq := { s.irq with pend := t.irq.pend } }) ∧
  (∀ (s : State) (e : SleepEntry) (agent : Nat), s.power.entry = some e → e.queried = true → agent ≠ 8 →
    agentReady s e.target agent = true →
    exec (.agentAccept agent) s = .next { s with
      power := { s.power with entry := some { e with delays := e.delays.filter (· != agent) } } }) ∧
  (∀ (s : State) (e : SleepEntry), s.power.entry = some e → e.queried = true → 8 ∈ e.delays →
    ∃ t, exec (.agentAccept 8) s = .next t ∧ t.flt.testing = false ∧ t.flt.written ≤ s.flt.written + 1 ∧
      (t.flt.written = s.flt.written → t.flt = { s.flt with testing := false } ∧ t.irq = s.irq) ∧
      t.power = { s.power with entry := some { e with delays := e.delays.filter (· != 8) } } ∧
      t = { s with power := t.power, free := t.free, flt := t.flt, irq := { s.irq with pend := t.irq.pend } }) ∧
  (∀ (s : State) (e : SleepEntry) (agent : Nat), s.power.entry = some e → e.queried = true → agent ∈ e.delays →
    maxDelay e.target agent ≤ since s e.since →
    ∃ t, exec (.delayExpired agent) s = .next t ∧ EntryUndone (BitVec.ofNat 4 agent) 5 s t) ∧
  (∀ (s : State) (e : SleepEntry), s.power.entry = some e → e.queried = true → e.delays = [] →
    (e.target = 2 ∨ s.sense.idx = none) → (audioRuns s = true → commonBoundary s = true) →
    ∃ t, exec .sleepCommit s = .next t ∧
      t.power.st = (if e.target = 2 then .doze else if e.target = 3 then .nap else if e.target = 5 then .rest else .hibernate) ∧
      t.power.lastState = e.target ∧ t.power.padsHeld = true ∧ t.power.entry = none ∧ t.power.wakeMask = e.mask ∧
      t.power.timer = e.timer ∧ t.power.commitAt = now s ∧ t.mtx = {} ∧ t.outs.pumps = [] ∧ t.fe.chans = [] ∧
      t.sec.otp = s.sec.otp ∧ (s.mem.upsets = [] → t.flt = s.flt) ∧
      t.margin = { s.margin with running := false, again := s.margin.running, avsSeen := false } ∧
      t.deferred.job = s.deferred.job ∧
      (e.target = 2 ∨ e.target = 3 ∨ e.target = 5 → Twf {} s.outs.dacs → ∀ d < 34, (dac s d).phase ≠ .probing →
        (dac t d).clamp = true ∧ (dac t d).g = .zero ∧ (dac t d).phase = .clamped) ∧
      (e.target = 2 → t.sense = s.sense ∧ (s.clk.ref.toNat < 2 → t.clk = s.clk)) ∧
      (e.target ≠ 2 → t.clk.a.st = .off ∧ t.clk.b.st = .off) ∧
      (e.target = 2 ∨ e.target = 3 ∨ e.target = 5 → t.sets = s.sets) ∧
      (e.target = 5 → t.host = {} ∧ t.seals = {} ∧ t.sec.session = none) ∧
      t.power.xrefOk = (s.power.xrefOk && decide (e.target ≠ 5 ∧ e.target ≠ 6)) ∧
      (e.target = 6 → (s.mem.wf = true → ∀ k, t.mem.byte k = if aRet ≤ k then s.mem.byte k else 0) ∧ t.sets = {} ∧ t.cal.ch = s.cal.ch ∧ t.cal.pair = s.cal.pair ∧ t.power.boot = .romWait))

/-- Wake events (R373, R384, R388, Table 11.3): an enabled source starts the wake of a sleep state at its first step, or undoes an
entry; WAKE starts a new wake from WAKE-HOLD; and the sleep timer expires TIMER ms after the commit. PADS.RELEASE (R386, Table 8.10): with the pads held it answers 1, the pads are released, the outputs start and a jack whose
class a sleep left unknown waits for classification; with the pads released it answers 0; in WAKE-HOLD it is REFUSED. That the new
wake from WAKE-HOLD begins at the step that follows the rails present (log entry 44), and how the pads are released in a sleep
state (log entry 118), are the model's choices. -/
def Obligations.WakeEventsAndPads : Prop :=
  (∀ s : State, s.power.st ∈ [.doze, .nap, .rest, .hibernate] → s.power.wakeMask.getLsbD 0 = true → s.power.waking = none →
    ∃ t, exec .wakePin s = .next t ∧ WakeStarted 1 s t) ∧
  (∀ s : State, s.power.st ∈ [.doze, .nap, .rest, .hibernate] → s.power.wakeMask.getLsbD 0 = false →
    exec .wakePin s = .next s) ∧
  (∀ (s : State) (e : SleepEntry), s.power.st = .entering → s.power.entry = some e → e.mask.getLsbD 0 = true →
    ∃ t, exec .wakePin s = .next t ∧ EntryUndone 0 6 s t) ∧
  (∀ s : State, s.power.st ∈ [.wakeHold, .wakeHoldDark] →
    ∃ t, exec .wakePin s = .next t ∧ t.power.st = sleepSt s.power.lastState ∧
      t.power.boot = (if s.power.boot = .wakeHold then s.power.bootPrev else s.power.boot) ∧ t.power.wakeFail = 0 ∧
      t.power.retries = 0 ∧ (s.power.st = .wakeHold → s.power.lastState = 3 → t.clk.b.st = .acquiring ∧ t.clk.b.gated = true) ∧
      t.power.waking = (if s.power.st = .wakeHoldDark then some .dvdd
        else if s.power.lastState = 3 then some .pll else some .xref)) ∧
  (∀ s : State, s.power.st ∈ [.doze, .nap, .rest, .hibernate] → s.power.wakeMask.getLsbD 5 = true → s.power.waking = none →
    s.power.timer * 1000000 ≤ since s s.power.commitAt →
    ∃ t, exec .sleepTimer s = .next t ∧ WakeStarted 6 s t) ∧
  (∀ s : State, since s s.power.commitAt < s.power.timer * 1000000 → exec .sleepTimer s = .next s) ∧
  (∀ (a : CmdArgs) (s : State), Admitted rowPadsRelease a s → s.power.st ≠ .wakeHold → s.power.st ≠ .wakeHoldDark →
    (s.power.padsHeld = false → exec (.padsRelease a) s = .next (answered 0x81 .ok [0] s)) ∧
    (s.power.padsHeld = true → ∃ t, exec (.padsRelease a) s = .next (answered 0x81 .ok [1] t) ∧
      t.power = { s.power with padsHeld := false } ∧ (s.power.iovddA = false → t.ports = s.ports) ∧
      (∀ n < 4, (jackWord s n).en = true → (jackRun s n).present = true → (jackRun s n).step = .none →
        ((jackRun s n).cls = clsNone ∨ (jackRun s n).cls = clsUnknown) →
        jackRun t n = { jackRun s n with cls := clsRuns, step := .waiting }) ∧
      (running s = true → inSafe s = false → entryHeld s = false → s.panic.latch = false → s.outs.vcm = .on → gHeld s = false → ∀ d < 24,
        (active s).outEn d = true → (dac s d).phase = .clamped → (dac s d).lockout = false → (dac s d).pause = 0 →
        (dac t d).phase = .unmuting ∧ (dac t d).clamp = false ∧ (dac t d).g = .rising ∧ (dac t d).since = now s) ∧
      t = { s with power := t.power, ports := t.ports, outs := t.outs, jack := t.jack })) ∧
  (∀ (a : CmdArgs) (s : State), Admitted rowPadsRelease a s → s.power.st = .wakeHold →
    exec (.padsRelease a) s = .next (answered 0x81 .refused [] s))

/-- The wake sequence (R384, R385, R387, R388, Tables 11.8, 11.12): DVDD's power good goes on to the XREF step; a step that
exceeds its time, XREF's 5 ms counted from the wake event as DVDD's are (after a failed DVDD step from the retry, the model's choice, log entry
196), turns its resource off for 1 ms and is repeated; the third retry's failure is WAKE-HOLD with WAKE_FAULT and
an entry; and at the end SLEEP finishes OK, the frame grids restart, and audio restarts at the next common boundary. DOZE returns
with the PLLs locked. The point at which HIBERNATE returns is the model's choice (log entry 115). -/
def Obligations.WakeSequence : Prop :=
  (∀ s : State, s.power.waking = some .dvdd → s.power.stepOff = none → s.power.st ≠ .hibernate →
    exec .dvddPowerGood s = .next { s with power := { s.power with waking := some .xref } }) ∧
  (∀ s : State, s.power.waking = some .dvdd → s.power.stepOff = none → s.power.st = .hibernate →
    s.power.straps.bromOk = true → s.power.straps.otpOk = true → otpAnyLost s = false →
    exec .dvddPowerGood s = .next { s with power := { s.power with
      waking := some .xref, onRc := true, fwVersion := 0, safeCause := 0, bootPrev := .romWait
      boot := if s.power.straps.flash then .verify else .romWait } }) ∧
  (∀ s : State, s.power.stepOff = none → s.power.retries ≠ 3 →
    (s.power.waking = some .dvdd ∧ 2000000 ≤ since s s.power.stepSince) ∨
      (s.power.waking = some .xref ∧ 5000000 ≤ since s s.power.stepSince) →
    exec .wakeStepTimeout s = .next { s with power := { s.power with stepOff := some (now s) } }) ∧
  (∀ s : State, s.power.stepOff = none → s.power.retries ≠ 3 → s.power.waking = some .pll → s.power.st = .nap →
    pllbUnlocked s = true →
    5000000 ≤ since s s.power.stepSince →
    ∃ t, exec .wakeStepTimeout s = .next t ∧ t.power = { s.power with stepOff := some (now s), onRc := true } ∧
      t.clk.a = s.clk.a ∧ t.clk.b.st = .off ∧
      t = { s with clk := t.clk, power := t.power, irq := { s.irq with pend := t.irq.pend } }) ∧
  (∀ s : State, s.power.stepOff = none → s.power.retries = 3 → s.power.waking = some .dvdd →
    2000000 ≤ since s s.power.stepSince →
    ∃ t, exec .wakeStepTimeout s = .next t ∧
      t.power = { s.power with st := .wakeHoldDark, waking := none, stepOff := none, wakeFail := 1 } ∧
      bit t.irq.pend irqWakeFault = true ∧ bit t.irq.pend irqFault = true ∧ t.flt.written = s.flt.written + 1 ∧
      t.deferred = s.deferred ∧ t = { s with power := t.power, irq := t.irq, flt := t.flt }) ∧
  (∀ s : State, s.power.stepOff = none → s.power.retries = 3 → s.power.waking = some .xref →
    5000000 ≤ since s s.power.stepSince →
    ∃ t, exec .wakeStepTimeout s = .next t ∧
      t.power = { s.power with st := .wakeHold, waking := none, stepOff := none, wakeFail := 2, bootPrev := s.power.boot,
                               boot := .wakeHold, onRc := true } ∧
      (s.deferred.job = some .sleep →
        t.deferred = { s.deferred with opcode := 0x80, status := 14, job := none } ∧ bit t.irq.pend irqCmdDone = true) ∧
      (s.deferred.job ≠ some .sleep → t.deferred = s.deferred) ∧ bit t.irq.pend irqWakeFault = true ∧
      t.flt.written = s.flt.written + 1 ∧ t.clk.a.st = .off ∧ t.clk.b.st = .off ∧
      t = { s with power := t.power, clk := t.clk, irq := t.irq, flt := t.flt, deferred := t.deferred }) ∧
  (∀ (s : State) (at_ : Nat), s.power.stepOff = some at_ → 1000000 ≤ since s at_ → s.power.waking ≠ some .pll →
    exec .wakeRetry s = .next { s with power := { s.power with
      stepOff := none, stepSince := now s, retries := s.power.retries + 1 } }) ∧
  (∀ (s : State) (at_ : Nat), s.power.stepOff = some at_ → 1000000 ≤ since s at_ → s.power.waking = some .pll →
    ∃ t, exec .wakeRetry s = .next t ∧ t.clk.b.st = .acquiring ∧ t.clk.b.fromNap = (s.clk.b.word != 0) ∧ t.clk.b.gated = true ∧
      t.clk.a = s.clk.a ∧
      t.power = { s.power with stepOff := none, stepSince := now s, retries := s.power.retries + 1 } ∧
      bit t.irq.pend irqClock = true ∧ t = { s with power := t.power, clk := t.clk, irq := { s.irq with pend := t.irq.pend } }) ∧
  (∀ s : State, wakeDone s = true →
    ∃ t, exec .returnToRun s = .next t ∧ t.power.st = .run ∧ t.power.waking = none ∧ t.power.wakeSrc = s.power.wakeBy ∧
      t.power.audioWait = true ∧ t.power.padsHeld = s.power.padsHeld ∧ t.mtx = {} ∧
      (s.deferred.job = some .sleep →
        t.deferred = { s.deferred with opcode := 0x80, status := 0, job := none } ∧ bit t.irq.pend irqCmdDone = true) ∧
      (s.deferred.job ≠ some .sleep → t.deferred = s.deferred) ∧ (s.power.heldJack = true → bit t.irq.pend irqJack = true) ∧
      (s.power.st = .rest ∨ s.power.st = .hibernate → t.host.seqFree = true ∧ t.margin.running = true) ∧
      t.power.wdtAt = s.power.wdtAt + since s s.power.commitAt ∧ (s.margin.again = true → t.margin.running = true) ∧
      (s.power.st = .doze ∨ s.power.st = .nap → s.margin.again = false → t.margin.running = s.margin.running) ∧
      (s.power.padsHeld = true → t.outs.pumps = s.outs.pumps) ∧
      (s.power.padsHeld = false → inSafe s = false → s.power.entry = none → s.panic.latch = false → s.outs.vcm = .on → gHeld s = false → ∀ d < 24,
        (active s).outEn d = true → (dac s d).phase = .clamped → (dac s d).lockout = false → (dac s d).pause = 0 →
        (dac t d).phase = .unmuting ∧ (dac t d).clamp = false ∧ (dac t d).since = now s) ∧
      t = { s with power := t.power, host := t.host, tb := t.tb, margin := t.margin, mtx := {}, irq := t.irq,
                   deferred := t.deferred, outs := { s.outs with dacs := t.outs.dacs, pumps := t.outs.pumps }
                   jack := { s.jack with run := t.jack.run } }) ∧
  (∀ s : State, s.power.audioWait = true → running s = true → gridRuns s = true → pllbUnlocked s = false → inSafe s = false →
    ∃ t, exec .audioRestart s = .next t ∧ t.power = { s.power with audioWait := false } ∧ audioRuns t = true ∧
      (∀ f ∈ activeFlows s, (flowRun t f).running = true ∧ (flowRun t f).seq = (flowRun s f).seq ∧
        (flowRun t f).cutNext = true) ∧
      (∀ ol < 128, computed (active s) ol = true → tget {} t.mtx.weirs ol = weirFresh ((active s).weir ol) (stamp s tSET)) ∧
      t = { s with power := t.power, fe := t.fe, flows := t.flows, cores := t.cores, mem := t.mem, mtx := t.mtx
                   mr := { s.mr with taps := t.mr.taps }, irq := { s.irq with pend := t.irq.pend }, flt := t.flt })

/-- Resets (R390–R392, R397, R467, Tables 11.10, 11.11, 11.13): RESET.SOFT restarts the firmware in memory and keeps what its
column keeps; FIRMWARE_READY ends the restart; RESET.CORE clears the counters, the cores' state memories and
the delay regions, restarts the flows, and writes at most one abort record of what it interrupts (a free value, log entry 42); nRESET and a brown-out
leave the device waiting for its boot, the VCM node and the pumps at rest once no output mutes; and a power-on reset leaves OTP
alone as it was. The CP's registers after RESET.SOFT (log entry 86), its PADS_HELD (log entry 78) and PLLB's cold start there (log
entry 120) are the model's choices. -/
def Obligations.Resets : Prop :=
  (∀ (a : CmdArgs) (s : State), Admitted rowResetSoft a s →
    ∃ t, exec (.resetSoft a) s = .next t ∧ t.power.st = .run ∧ t.power.boot = .run ∧ t.power.restarting = true ∧
      t.power.cause = s.power.cause ||| 0b010000 ∧ t.power.fwVersion = s.power.fwVersion ∧
      t.power.padsHeld = s.power.padsHeld ∧ t.power.waking = none ∧ t.host = { accepted := s.host.accepted } ∧
      ((s.clk.b.st ≠ .off ∨ s.power.xrefOk = false) → t.irq = {}) ∧
      (s.clk.b.st = .off → s.power.xrefOk = true → t.clk.b.st = .acquiring ∧ bit t.irq.pend irqClock = true) ∧
      t.deferred = {} ∧ t.sets = {} ∧ t.flows = [] ∧ t.mtx = {} ∧ t.ports = {} ∧ t.sense = {} ∧ t.cp = {} ∧ t.seals = {} ∧
      t.cores = { slots := s.cores.slots } ∧ t.filt = { banks := s.filt.banks } ∧ t.panic = s.panic ∧
      t.cal = { ch := s.cal.ch, pair := s.cal.pair, exports := s.cal.exports } ∧ t.sec.otp = s.sec.otp ∧
      t.sec.session = none ∧ t.sec.debug = 0 ∧ t.sec.verified = (s.sec.verified && s.deferred.job != some .imageExec) ∧ t.flt.tests = [] ∧
      t.flt.written = s.flt.written ∧ t.flt.repaired = s.flt.repaired ∧ t.tb.count = s.tb.count ∧ t.mem.remap = s.mem.remap ∧
      (s.mem.wf = true → ∀ k < 0x100000, t.mem.byte k = s.mem.byte k) ∧
      (∀ k, 0x20000000 ≤ k → k < 0x20380000 → t.mem.byte k = 0)) ∧
  (∀ s : State, s.power.restarting = true →
    exec .firmwareReady s = .next (raiseIrq irqBootDone { s with power := { s.power with restarting := false } })) ∧
  (∀ (a : CmdArgs) (s : State), Admitted rowResetCore a s → (∀ k < 8, (tget {} s.seals.seals k).isOpen = false) →
    ∃ t, exec (.resetCore a) s = .next (answered 0x03 .ok [] t) ∧
      t.power = { s.power with cause := s.power.cause ||| 0b100000 } ∧ t.sets.swap = none ∧ active t = active s ∧
      shadow t = shadow s ∧ t.mtx.ramps = [] ∧
      (s.sets.swap.isSome = true → t.sets.swapStatus = 8 ∧ bit t.irq.pend irqSwapDone = true) ∧
      t.flt.written ≤ s.flt.written + 1 ∧
      (t.flt.written = s.flt.written → t.flt = s.flt ∧ (s.sets.swap = none → t.irq = s.irq)) ∧
      (∀ n < 4, (core t n).fallbacks = 0 ∧ (core t n).rollbacks = 0 ∧ (core t n).peakPct = 0) ∧
      (∀ p < 4, (tdm t p).crcErrs = 0 ∧ (tdm t p).frameErrs = 0) ∧ (∀ f < 256, (flowRun t f).slips = 0) ∧
      (∀ n < 4, ∀ i < 16384, t.mem.word (aPram n + 0x10000 + 4 * i) = 0 ∧ t.mem.tag (aPram n + 0x10000 + 4 * i) = 0) ∧
      (∀ k, aCore ≤ k → k < aDelayLines → t.mem.byte k = 0 ∧ t.mem.tag k = 0) ∧
      (s.mem.wf = true → ∀ k < 0x100000, t.mem.byte k = s.mem.byte k) ∧
      t = { s with power := t.power, sets := t.sets, irq := { s.irq with pend := t.irq.pend }, free := t.free, flt := t.flt, filt := t.filt, mtx := t.mtx, flows := t.flows,
                   cores := t.cores, ports := t.ports, outs := t.outs, mem := t.mem }) ∧
  (∀ s : State, s.power.st ≠ .off →
    (∃ t, exec .pinReset s = .next t ∧ AfterPin 0b000010 s t) ∧ (∃ t, exec .brownOut s = .next t ∧ AfterPin 0b000100 s t)) ∧
  (∀ s : State, Twf {} s.outs.dacs → s.power.st ≠ .off →
    ∃ t, exec .brownOut s = .next t ∧ ∀ d < 34, (dac t d).clamp = true ∧ (dac t d).g = .zero) ∧
  (∀ s : State, exec .powerOnReset s = .next { pending := s.pending, free := s.free, sec := { otp := s.sec.otp, otpBad := s.sec.otpBad } }) ∧
  (∀ s : State, ∃ t, exec .vaonLoss s = .next t ∧ t.power.st = .off ∧ t.power.cause = 0 ∧ t.sec = { otp := s.sec.otp, otpBad := s.sec.otpBad } ∧
    (∀ d < 34, (dac t d).clamp = false) ∧ t.mem = {} ∧ t.sets = {} ∧ t.cal = {} ∧ t.tb = {} ∧ t.flt = {} ∧ t.irq = {})

/-- Reset values the spec states: what a power-on reset leaves in ST_IRQ_MASK (Table 2.13), the PLL and AON words (Tables 9.7, 9.8),
ST_RESET_CAUSE (Table 11.11), ST_MARGIN (Table 13.9), the sense mask (R312), EXP_SEQ, SEQ_FREE and the epoch (Tables 2.15, 2.16,
R69), REMAP (Table 10.5) and the session, and in every node, weir, flow and output word of a set (Tables 6.3, 6.4, 7.1, 8.7). The invariants of the
statements below hold there. That OTP has nothing programmed, so that the lifecycle is BLANK, is no reset value: OTP is permanent
(R398), and the model's first state takes a device as made (the model's choice, log entry 211). -/
def Obligations.ResetValues : Prop :=
  State.reset.irq.mask = 0x00020400 ∧ State.reset.irq.pend = 0 ∧ State.reset.power.cause = 1 ∧
  State.reset.clk.a.cfg = 0x000C0504 ∧ State.reset.clk.b.cfg = 0x800C0506 ∧ State.reset.clk.aon = 0x80000032 ∧
  State.reset.clk.ref = 0 ∧ State.reset.clk.losses = 0 ∧ State.reset.sets.epoch = 0 ∧ State.reset.sets.swap = none ∧
  State.reset.margin.w0 = 0xFF000000 ∧ State.reset.margin.w1 = 0xFFFFFFFF ∧ State.reset.margin.w2 = 0xFF000000 ∧
  State.reset.sense.hostMask = 0 ∧ State.reset.mem.remap = false ∧ State.reset.sec.session = none ∧
  State.reset.sec.otp.lifecycle = .blank ∧ State.reset.host.expSeq = 0 ∧ State.reset.host.seqFree = true ∧
  State.reset.pending = [] ∧
  (∀ il ol, (active State.reset).node il ol = 0x00088000) ∧ (∀ ol, (active State.reset).weir ol = 0x00640000) ∧
  (∀ f, (active State.reset).flow f = ⟨0, 0, 0, 0⟩) ∧ (∀ d, (active State.reset).out d = 0x00300000) ∧
  OtpSound State.reset.sec.otp ∧ MemSound State.reset ∧ bit State.reset.irq.mask 10 = true ∧
  State.reset.flt.log.length ≤ 64

/-- The watchdog (R393): WDT.CFG sets it and restarts its count unless it is locked, when it is REFUSED; when the count has run
its time in RUN, the watchdog reset runs the boot ROM again with REMAP 0 and counts itself; a boot ROM that fails its check is SAFE
mode there too (R412). That the straps are kept is the model's choice (log entry 79). Supply events (Table 14.8): an HPVDD or SPKVDD lockout clamps its outputs and its recovery lets them start by their rules; a
loss of IOVDD_A stops the slave ports and receivers, not the masters, and its return lets them look for their clocks; and IOVDD_H gates the host port. -/
def Obligations.WatchdogAndSupplies : Prop :=
  (∀ (a : CmdArgs) (s : State), Admitted rowWdtCfg a s → resv (opnd a 0) 0xE000000F = false → 4 ≤ fld (opnd a 0) 3 0 →
    fld (opnd a 0) 3 0 ≤ 12 →
    (bit s.power.wdt 29 = false → exec (.wdtCfg a) s = .next (answered 0x05 .ok []
      { s with power := { s.power with wdt := opnd a 0, wdtAt := if running s then now s else s.power.commitAt } })) ∧
    (bit s.power.wdt 29 = true → exec (.wdtCfg a) s = .next (answered 0x05 .refused [] s))) ∧
  (∀ s : State, bit s.power.wdt 31 = true → running s = true → 2 ^ fld s.power.wdt 3 0 * 1000000 ≤ since s s.power.wdtAt →
    s.power.straps.bromOk = true → s.power.straps.otpOk = true → otpAnyLost s = false →
    ∃ t, exec .watchdogExpiry s = .next t ∧ t.power.st = .run ∧
      t.power.boot = (if s.power.straps.flash then .verify else .romWait) ∧ t.power.cause = s.power.cause ||| 0b001000 ∧
      t.power.wdrCount = min 255 (s.power.wdrCount + 1) ∧ t.power.wdt = 0 ∧ t.power.straps = s.power.straps ∧
      t.mem = s.mem.retOnly ∧ t.sets = {} ∧ t.host = {} ∧ (s.power.xrefOk = false → t.irq = {}) ∧ t.panic = s.panic ∧
      t.sec = { otp := s.sec.otp, otpBad := s.sec.otpBad } ∧
      t.cal.ch = s.cal.ch ∧ t.cal.pair = s.cal.pair ∧ t.flt.tests = [] ∧ t.flt.repaired = s.flt.repaired ∧
      t.tb.count = s.tb.count) ∧
  (∀ s : State, bit s.power.wdt 31 = true → running s = true → 2 ^ fld s.power.wdt 3 0 * 1000000 ≤ since s s.power.wdtAt →
    s.power.straps.bromOk = false →
    ∃ t, exec .watchdogExpiry s = .next t ∧ t.power.boot = .safe ∧ t.power.safeCause = 2 ∧ bit t.irq.pend irqBootDone = true) ∧
  (∀ s : State, since s s.power.wdtAt < 2 ^ fld s.power.wdt 3 0 * 1000000 → exec .watchdogExpiry s = .next s) ∧
    (∀ s : State, s.power.st ≠ .off →
    (∃ t, exec .hpvddLockout s = .next t ∧ t.power = { s.power with hpvdd := false } ∧ t.outs.pumps = [] ∧
      (∀ d, 24 ≤ d → d < 32 → (dac t d).clamp = true ∧ (dac t d).g = .zero ∧ (dac t d).phase = .clamped ∧
        (dac t d).lockout = ((dac s d).lockout || (active s).outEn d)) ∧
      (∀ d, (d < 24 ∨ 32 ≤ d) → dac t d = dac s d) ∧ t = { s with power := t.power, outs := t.outs }) ∧
    exec .hpvddRecover s = .next { s with power := { s.power with hpvdd := true } } ∧
    (∃ t, exec .spkvddLockout s = .next t ∧ t.power = { s.power with spkvdd := false } ∧
      (∀ d ∈ [32, 33], (dac t d).clamp = true ∧ (dac t d).g = .zero ∧ (dac t d).phase = .clamped ∧
        (dac t d).pause = (dac s d).pause ||| 0b100) ∧
      (∀ d, d ≠ 32 → d ≠ 33 → dac t d = dac s d) ∧ t = { s with power := t.power, outs := t.outs }) ∧
    (s.power.spkvdd = false → ∃ t, exec .spkvddRecover s = .next t ∧ t.power = { s.power with spkvdd := true } ∧
      (∀ d ∈ [32, 33], (dac t d).pause = (dac s d).pause &&& 0b011 ∧
        ((dac s d).phase = .clamped → (dac s d).pause = 0b100 → (dac s d).lockout = false → (active s).outEn d = true →
          s.panic.latch = false → s.power.padsHeld = false → running s = true → inSafe s = false → entryHeld s = false →
          (dac t d).phase = .spkStart ∧ (dac t d).clamp = false ∧ (dac t d).since = now s)) ∧
      (∀ d, d ≠ 32 → d ≠ 33 → dac t d = dac s d) ∧ t = { s with power := t.power, outs := t.outs }) ∧
    (s.power.iovddA = true → ∃ t, exec .iovddALoss s = .next t ∧ t.power.iovddA = false ∧
      (∀ p < 4, tdmEn (tdm s p).cfg = true → tdmMaster (tdm s p).cfg = false →
        (tdm t p).st = .stopped ∧ (tdm t p).cfg = (tdm s p).cfg) ∧
      (∀ p < 4, tdmMaster (tdm s p).cfg = true → tdm t p = tdm s p) ∧
      (∀ r < 2, (aesRx s r).st = .locked → (aesRx t r).st = .unlocked ∧
        (aesRx t r).lockLosses = min 15 ((aesRx s r).lockLosses + 1)) ∧
      t.ports.pdmRun = s.ports.pdmRun ∧ t.sets = s.sets ∧ t.outs = s.outs) ∧
    (s.power.iovddA = false → ∃ t, exec .iovddAReturn s = .next t ∧ t.power = { s.power with iovddA := true } ∧
      (s.power.padsHeld = true → t.ports = s.ports) ∧
      (s.power.padsHeld = false → ∀ p < 4, tdmEn (tdm s p).cfg = true → (tdm s p).st ≠ .running →
        tdm t p = { tdm s p with st := if tdmMaster (tdm s p).cfg then (tdm s p).st else .acquiring, good := 0 }) ∧
      t = { s with power := t.power, ports := t.ports }) ∧
    exec .iovddHLoss s = .next { s with power := { s.power with iovddH := false } } ∧
    exec .iovddHReturn s = .next { s with power := { s.power with iovddH := true } })

/-- AVS (R394, R447, Table 13.4): AVS.CFG with EN 0 turns the regulator's control off and answers 0; with EN 1 it answers the
reading, or FAULT with an entry where the regulator does not answer within limits (which of the two is free, log entry 2); the
planner's request is approached in steps of 5 mV, one each millisecond; a reading 5 ms or more after a step that is not within 10 mV
of the request turns AVS off, and so does a NACK at any time. That EN 0 answers 0 is the model's choice (log entry 73). -/
def Obligations.AdaptiveSupply : Prop :=
  (∀ (a : CmdArgs) (s : State), Admitted rowAvsCfg a s → resv (opnd a 0) 0x807F00FF = false →
    resv (opnd a 1) 0x03FF03FF = false → 750 ≤ fld (opnd a 1) 25 16 → fld (opnd a 1) 9 0 ≤ 900 →
    fld (opnd a 1) 25 16 ≤ fld (opnd a 1) 9 0 →
    (bit (opnd a 0) 31 = false → exec (.avsCfg a) s = .next (answered 0x82 .ok [0] { s with
      power := { s.power with avs0 := opnd a 0, avs1 := opnd a 1, request := 0, target := 0, avsSteps := [] }
      margin := { s.margin with w2 := setFld s.margin.w2 9 0 0 } })) ∧
    (bit (opnd a 0) 31 = true →
      (∃ (t : State) (mv : Nat), exec (.avsCfg a) s = .next (answered 0x82 .ok [toWord mv] t) ∧ fld (opnd a 1) 25 16 ≤ mv ∧
        mv ≤ fld (opnd a 1) 9 0 ∧
        t.power = { s.power with avs0 := opnd a 0, avs1 := opnd a 1, request := mv, target := mv, stepAt := 0, avsSteps := [] } ∧
        fld t.margin.w2 9 0 = mv ∧ t = { s with free := t.free, power := t.power, margin := { s.margin with w2 := t.margin.w2 } }) ∨
      (∃ t, exec (.avsCfg a) s = .next (answered 0x82 .fault [] t) ∧ bit t.power.avs0 31 = false ∧
        t.power.request = s.power.request ∧ t.flt.written = s.flt.written + 1 ∧ bit t.irq.pend irqFault = true ∧
        fld t.margin.w2 9 0 = 0))) ∧
  (∀ s : State, bit s.power.avs0 31 = true → running s = true → s.power.request ≠ s.power.target →
    (s.power.stepAt = 0 ∨ 1000000 ≤ since s s.power.stepAt) →
    exec .avsStep s = .next { s with power := { s.power with
      stepAt := now s, avsSteps := now s :: s.power.avsSteps
      request := if s.power.request < s.power.target then min s.power.target (s.power.request + 5)
        else max s.power.target (s.power.request - 5) } }) ∧
  (∀ (s : State) (mv : Nat), bit s.power.avs0 31 = true → running s = true →
    ((∀ x ∈ s.power.avsSteps, since s x < 5000000) → exec (.avsVerify (some mv)) s = .next s) ∧
    ((∃ x ∈ s.power.avsSteps, 5000000 ≤ since s x) → mv ≤ s.power.request + 10 → s.power.request ≤ mv + 10 →
      exec (.avsVerify (some mv)) s = .next { s with power := { s.power with
        avsSteps := s.power.avsSteps.filter (fun x => decide (since s x < 5000000)) } }) ∧
    ((∃ x ∈ s.power.avsSteps, 5000000 ≤ since s x) → s.power.request + 10 < mv ∨ mv + 10 < s.power.request →
      ∃ t, exec (.avsVerify (some mv)) s = .next t ∧ AvsGaveUp s t) ∧
    (∃ t, exec (.avsVerify none) s = .next t ∧ AvsGaveUp s t))

/-- The margin planner (R442, R444–R446, R448, Tables 13.7–13.9): a run that is due writes the gauge margin MG from the pair with the
lowest stressed ring (where TM_new is 6 % the formula states none, a free value, log entry 2), the other margins, MARGIN as the smallest of those
evaluated, TM and REQUEST at the request it settles on, counts itself, sets and clears the notices by their thresholds, sets THRESH's boost, keeps the run in the history, and raises SERVICE for a notice
that is new; MARGIN.READ returns the present words, or a stored run, and RANGE above 31. What THRESH adds (log entry 71), when a run
is due (log entry 75), when AVS_FAULT clears (log entry 72), the grid of the requests (log entry 32), MN over all records (log entry
82), REPAIR_EXHAUSTED (log entry 70) and RANGE in place of UNSUPPORTED for MARGIN.READ (log entry 165) are the model's choices. -/
def Obligations.MarginPlanner : Prop :=
  (∀ (s : State) (m : PlannerMeas) (p : Nat × Nat) (pre post : List (Nat × Nat)) (P : Nat → Int → Int) (D : Int), runDue s = true →
    m.pairs = pre ++ p :: post → (∀ q ∈ pre, p.1 < q.1) → (∀ q ∈ post, p.1 ≤ q.1) → s.margin.mn ≤ 255 → s.margin.mh ≤ 255 →
    fld s.power.avs1 9 0 ≤ 900 →
    (∀ c v, P c v = 1000 * c * (2560000 + 12 * (v - 75 * m.sn26)) * (12976 + m.sn27)) →
    D = (if derated s then 479232000 else 491520000) * 40960000000 →
    let top := if bit s.power.avs0 31 then 256 * (fld s.power.avs1 9 0 : Int) else 75 * (m.sn26 : Int)
    let at_ := if bit s.power.avs0 31 then 256 * (planRequest m s : Int) else 75 * (m.sn26 : Int)
    ∃ t, exec (.plannerRun m) s = .next t ∧
      (∀ x ∈ [fld t.margin.w1 31 24, fld t.margin.w1 23 16, fld t.margin.w1 15 8, fld t.margin.w1 7 0, fld t.margin.w2 31 24],
        x ≠ 255 → fld t.margin.w0 31 24 ≤ x) ∧
      fld t.margin.w0 31 24 ∈ [fld t.margin.w1 31 24, fld t.margin.w1 23 16, fld t.margin.w1 15 8, fld t.margin.w1 7 0,
        fld t.margin.w2 31 24] ∧
      (100 * P p.2 top ≠ 106 * D → fld t.margin.w1 31 24 =
        (clampInt 0 100 (Int.fdiv (100 * (100 * P p.1 top - 106 * D)) (100 * P p.2 top - 106 * D))).toNat) ∧
      fld t.margin.w1 31 24 ≤ 100 ∧ fld t.margin.w2 31 24 = s.margin.mh ∧
      fld t.margin.w2 23 16 = (clampInt 0 255 (roundDiv (1000 * (P p.1 at_ - D)) D.toNat)).toNat ∧
      fld t.margin.w2 9 0 = (if bit s.power.avs0 31 then planRequest m s else 0) ∧
      ∀ (v : Int) (n : Nat), tmAtLeast s m v n = decide (D * (100 + n) ≤ 100 * P p.1 v)) ∧
  (∀ (s : State) (m : PlannerMeas), 750 ≤ fld s.power.avs1 25 16 → fld s.power.avs1 9 0 ≤ 900 →
    fld s.power.avs1 25 16 ≤ s.power.request →
    let meets : Nat → Prop := fun w => fld s.power.avs1 25 16 ≤ w ∧ w ≤ fld s.power.avs1 9 0 ∧ w % 5 = s.power.request % 5 ∧
      tmAtLeast s m (256 * w) 10 = true
    (∀ v, meets v → (∀ u, meets u → v ≤ u) →
      planRequest m s = if v < s.power.request ∧ s.power.request < v + 10 then s.power.request else v) ∧
    ((∀ u, ¬meets u) → planRequest m s = (if fld s.power.avs1 9 0 < s.power.request ∧ s.power.request < fld s.power.avs1 9 0 + 10
      then s.power.request else fld s.power.avs1 9 0))) ∧
  (∀ (s : State) (m : PlannerMeas), runDue s = true → s.margin.mn ≤ 255 → s.margin.mh ≤ 255 →
    let top := if bit s.power.avs0 31 then 256 * (fld s.power.avs1 9 0 : Int) else 75 * (m.sn26 : Int)
    let mb := pctMargin (2000 - 25 * codeDist m.sn25 2048) 2000
    let md := pctMargin (100 * (950 - (max m.uA m.uB : Int))) 45000
    ∃ t, exec (.plannerRun m) s = .next t ∧
      fld t.margin.w1 23 16 = mb ∧ fld t.margin.w1 15 8 = md ∧ fld t.margin.w1 7 0 = s.margin.mn ∧
      fld t.margin.w0 23 16 = (fld s.margin.w0 23 16 + 1) % 256 ∧
      bit t.margin.w0 7 = (derated s && !tmAtLeast s m top 6) ∧ bit t.margin.w0 6 = !tmAtLeast s m (75 * (m.sn26 : Int)) 6 ∧
      bit t.margin.w0 5 = bit s.margin.w0 5 ∧ bit t.margin.w0 4 = (!derated s && !tmAtLeast s m top 10) ∧
      bit t.margin.w0 3 = (decide (mb < 50) || decide (s.margin.mn < 50)) ∧ bit t.margin.w0 2 = decide (s.margin.mh < 20) ∧
      bit t.margin.w0 1 = s.margin.avsSeen ∧ t.margin.avsSeen = false ∧ bit t.margin.w0 0 = !s.flt.exhausted.isEmpty ∧
      t.margin.hist = ((t.margin.w0, t.margin.w1, t.margin.w2) :: s.margin.hist).take 32 ∧ t.margin.running = false ∧
      t.clk.a.boost = (if md < 15 then 2 else if md < 30 then 1 else 0) ∧ t.clk.b.boost = t.clk.a.boost ∧
      ((∃ k ∈ [7, 6, 4, 3, 2, 1, 0], bit t.margin.w0 k = true ∧ bit s.margin.w0 k = false) →
        bit t.irq.pend irqService = true) ∧
      ((∀ k ∈ [7, 6, 4, 3, 2, 1, 0], bit t.margin.w0 k = true → bit s.margin.w0 k = true) → t.irq = s.irq) ∧
      t.power = { s.power with target := if bit s.power.avs0 31 then planRequest m s else s.power.target } ∧
      t = { s with free := t.free, margin := t.margin, clk := t.clk, power := t.power, irq := t.irq }) ∧
  (∀ (a : CmdArgs) (s : State), Admitted rowMarginRead a s → (opnd a 0).toNat ≤ 31 → s.mem.bad = [] →
    exec (.marginRead a) s = .next (answered 0xD2 .ok
      (if opnd a 0 = 0 then [s.margin.w0, s.margin.w1, s.margin.w2]
       else match s.margin.hist[(opnd a 0).toNat]? with
        | some (x, y, z) => [x, y, z]
        | none => [0, 0, 0]) s)) ∧
  (∀ (a : CmdArgs) (s : State), Admitted rowMarginRead a s → 31 < (opnd a 0).toNat →
    exec (.marginRead a) s = .next (answered 0xD2 .range [] s))

/-- The fault log (R429, R434, R436–R439, Tables 13.3, 13.4): an entry holds its source, class and details and raises FAULT, and the
log keeps 64; FAULT.READ returns words of entries newest first and FAULT.CLEAR empties it; a corrected word is logged with its
row; the end of a targeted self-test gives a lone entry its class, and a lasting memory row takes a spare; and errors that hop and
register checks find (R365, R366, Table 10.13) replace the sample, end the access, invert the CRC, give the CP a bus error or roll the core back, and are
logged; and the loss of both copies of an OTP word is SAFE mode. The patrol row brings those errors (the model's choice, log entries 16, 202).
That the CP's bundle then does not issue is the model's choice too (log entry 203). The number of a site (log entries 21 and 22), the
class of the entries of a test's site (log entry 66), a notice of no free spare (log entry 70), OVERWRITTEN at FAULT.CLEAR (log
entry 123), a checkpoint buffer's number (log entry 164) and the source of a send's error (log entry 144) are the model's choices. -/
def Obligations.FaultLog : Prop :=
  (∀ (s : State) (source index : Nat) (d0 d1 : Word), source < 256 → s.flt.log.length ≤ 64 →
    let t := logFault source index d0 d1 s
    t.flt.written = s.flt.written + 1 ∧ bit t.irq.pend irqFault = true ∧ t.flt.log.length = min 64 (s.flt.log.length + 1) ∧
    (∃ e r, t.flt.log = e :: r ∧ fld e.w0 31 24 = source ∧ fld e.w0 19 16 = testOf source ∧ e.w2 = d0 ∧ e.w3 = d1 ∧
      e.time = now s ∧ fld e.w0 13 0 = s.flt.written % 16384 ∧ r = s.flt.log.take 63) ∧
    t = { s with flt := t.flt, irq := { s.irq with pend := t.irq.pend } }) ∧
  (∀ (a : CmdArgs) (s : State), Admitted rowFaultRead a s → resv (opnd a 0) 0x7F3F = false → s.mem.bad = [] →
    let n := fld (opnd a 0) 14 8
    let i := fld (opnd a 0) 5 0
    1 ≤ n → i + n ≤ 64 →
    exec (.faultRead a) s = .next (answered 0xD0 .ok ((List.range n).flatMap (fun k => match s.flt.log[i + k]? with
      | some e => [e.w0, e.w1, e.w2, e.w3]
      | none => [0, 0, 0, 0])) s)) ∧
  (∀ (a : CmdArgs) (s : State), Admitted rowFaultClear a s →
    (testsBusy s = false → exec (.faultClear a) s = .next (answered 0xD3 .ok [] { s with
      flt := { s.flt with log := [], written := 0 } })) ∧
    (testsBusy s = true → exec (.faultClear a) s = .next (answered 0xD3 .busy [] s))) ∧
  (∀ (s : State) (n : Nat), logicOn s = true → pllbUnlocked s = false → n < 4 →
    ∃ t, exec (.eccWriteback (2 ^ 32 + n)) s = .next t ∧ t.flt.written = s.flt.written + 1 ∧
      (∃ e r, t.flt.log = e :: r ∧ fld e.w0 31 24 = 1 ∧ e.w2 = toWord ((2 + n) * 2 ^ 28 + 31 * 2 ^ 23) ∧ e.w3 = 0) ∧
      t = { s with flt := t.flt, irq := t.irq }) ∧
  (∀ (s : State) (addr t b r : Nat), logicOn s = true → pllbUnlocked s = false → addr < 2 ^ 32 → addr / 4 * 4 ∉ s.mem.bad →
    rowOf addr = some (t, b, r) →
    exec (.eccWriteback addr) s = .next (logFault 0x01 (b * 65536 + r) (toWord (t * 2 ^ 28 + b * 2 ^ 23 + r)) (toWord addr) s)) ∧
  (∀ (s : State) (q : FaultTest), (running s && !pllbUnlocked s) = true → s.flt.testing = false →
    s.flt.tests.find? (testMayRun s) = some q →
    exec .targetedSelftest s = .next { s with
      flt := { s.flt with tests := q :: s.flt.tests.filter (· ≠ q), testing := true } }) ∧
  (∀ (q : FaultTest) (l : List InjectLevels), testOf q.source = 5 → l.length = (if q.source = 8 then 8 else 1) →
    testVerdict q (.inject l) = some (decide (∀ x ∈ l, 100 * (x.plus - 2 ^ 29).natAbs ≤ 2 ^ 29 ∧
      100 * (x.minus + 2 ^ 29).natAbs ≤ 2 ^ 29 ∧ x.ovr = false))) ∧
  (∀ (q : FaultTest) (ok : Bool), testOf q.source ≠ 5 → testVerdict q (.pattern ok) = some ok) ∧
  (∀ (s : State) (q : FaultTest) (r : List FaultTest) (e : FaultEntry) (x : TestReading) (passed : Bool), running s = true →
    pllbUnlocked s = false → s.flt.tests = q :: r → s.flt.testing = true → testMayRun s q = true →
    testVerdict q x = some passed → beatUpset 8 s = none → s.cp.lock = none → s.flt.log = [e] → e.site = q.site →
    fld e.w0 23 20 = 1 → e.row = none →
    exec (.targetedSelftestComplete x) s = .next { s with
      flt := { s.flt with tests := r, testing := false
                          log := [{ e with w0 := setFld e.w0 23 20 (if passed then 2 else 3) }] } }) ∧
  (∀ (s : State) (q : FaultTest) (r : List FaultTest) (x : TestReading), s.flt.tests = q :: r → testMayRun s q = false →
    exec (.targetedSelftestComplete x) s = .next s) ∧
  (∀ (s : State) (q : FaultTest) (r : List FaultTest) (e : FaultEntry), running s = true → pllbUnlocked s = false →
    s.flt.tests = q :: r → s.flt.testing = true → testMayRun s q = true → testOf q.source ≠ 5 → beatUpset 8 s = none → s.cp.lock = none →
    s.flt.log = [e] → e.site = q.site → fld e.w0 23 20 = 1 →
    q.site / 2 ^ 40 = 1 ∨ q.site / 2 ^ 40 = 0x0B → fld e.w2 27 23 < 31 →
    (tget [] s.flt.repaired (fld e.w2 27 23)).length < 2 → fld e.w0 15 14 = 0 →
    ∃ t, exec (.targetedSelftestComplete (.pattern false)) s = .next t ∧
      t.flt.log = [{ e with w0 := setFld (setFld e.w0 23 20 3) 15 14 1 }] ∧
      t.flt.repaired = tmod [] s.flt.repaired (fld e.w2 27 23) (fun l => l ++ [fld e.w2 15 0]) ∧
      t.flt.tests = r ∧ t = { s with flt := t.flt }) ∧
  (∀ (s : State) (ups : List Upset), s.power.st = .run → pllbUnlocked s = false → s.cp.lock = none → beatUpset 8 s = none →
    ups.all (fun u => match u with | .otp _ => false | _ => true) = true →
    exec (.patrolPass [] [] ups) s = .next { s with mem := { s.mem with upsets := s.mem.upsets ++ ups } }) ∧
  (∀ (s s1 : State) (f : Nat) (q : Quad) (even odd : List Int) (x : Sample) (w : Word), f < 128 → q = (active s).flow f → q.bound = true →
    (flowRun s f).running = true → audioRuns s = true → s.cp.lock = none → ingressSample f q even odd s = (x, s1) →
    contextUpset s f = none → ingressUpset s1 f = some w → upset s1 (.request 6) = false → kept s1 f q = true →
    (flowRun s1 f).startLeft = 0 → (flowRun s1 f).delay = [] → (flowRun s1 f).cutNext = false → gHeld s1 = false →
    ∃ t, exec (.flowSample f even odd) s = .next t ∧ tget ⟨0, 0⟩ t.mtx.laneIn q.lane = ⟨0, stamp s1 tSET⟩ ∧
      bit t.irq.pend irqFault = true) ∧
  (∀ (s : State) (p : Pred) (rd ra : BitVec 5) (off : BitVec 10) (b : BusPath) (x : Nat), predOk s .cp p = true →
    x = busAddr s ra off → cpPath s x = some b → registerUpset s .cp = none → upset s (.request 4) = false →
    upset s (.data 4) = true → pllbUnlocked s = false →
    (b.rd = true → ∃ t, exec (.ldg p rd ra off) s = .next t ∧ regs t .cp = nextBundle (regs s .cp) ∧ t.cp.busError = true ∧
      (∃ e r, t.flt.log = e :: r ∧ fld e.w0 31 24 = 3 ∧ e.w3 = toWord x) ∧
      t.mem = { s.mem with upsets := s.mem.upsets.erase (.data 4) }) ∧
    (b.wr = true → ∃ t, exec (.stg p rd ra off) s = .next t ∧ regs t .cp = nextBundle (regs s .cp) ∧ t.cp.busError = true ∧
      (∃ e r, t.flt.log = e :: r ∧ fld e.w0 31 24 = 3 ∧ e.w3 = toWord x) ∧
      t.mem = { s.mem with upsets := s.mem.upsets.erase (.data 4) })) ∧
  (∀ (s : State) (w : Nat), s.power.st = .run → pllbUnlocked s = false → s.cp.lock = none → beatUpset 8 s = none →
    s.sec.otpBad = [] → w < 0x800 →
    (∃ t, exec (.patrolPass [] [] [.otp w, .otp (0x800 + w)]) s = .next t ∧ t.sec.otpBad = [w, 0x800 + w] ∧
      t.power.boot = .safe ∧ t.power.safeCause = 3 ∧ bit t.irq.pend irqBootDone = true) ∧
    exec (.patrolPass [] [] [.otp w]) s = .next { s with sec := { s.sec with otpBad := [w] } }) ∧
  (∀ (s : State) (p : Pred) (rd ra rb : BitVec 5) (r : Nat), predOk s .cp p = true → registerUpset s .cp = some r →
    ∃ t, exec (.add .cp p rd ra rb) s = .next t ∧ regs t .cp = regs s .cp ∧ t.cp.busError = true ∧
      (∃ e l, t.flt.log = e :: l ∧ fld e.w0 31 24 = 5 ∧ e.w3 = toWord r) ∧
      t.mem = { s.mem with upsets := s.mem.upsets.erase (.register .cp r) }) ∧
  (∀ (s : State) (x : Xfer) (offset n m : Nat), addressed x s = true → x.code = 0x5C → rangeRead offset n →
    readWhole n m s = false → upset s .status = true →
    let d := wordsBytes ((List.range n).map (fun k => winWord s (offset / 4 + k)))
    ∃ t, exec (.readSt offset n ⟨x, m⟩) s = .next t ∧ bit t.irq.pend irqFault = true ∧
      t.host = (sendBytes 5 m (d ++ natBytes 2 (0xFFFF - crc16 d)) s).host) ∧
  (∀ (s : State) (n : Fin 4) (r : Nat), (core s n.val).inputs ≠ [] → coreReady s n.val = true → (core s n.val).held = [] →
    (core s n.val).undo = [] → 0 < ((active s).bind n.val).depth → registerUpset s (.sc n) = some r →
    fetchLost s n.val ((active s).bind n.val).slot 0 = false →
    ∃ t, exec (.coreFrameCompute n) s = .next t ∧ (core t n.val).inputs = (core s n.val).inputs ∧
      (core t n.val).rollbacks = min 255 ((core s n.val).rollbacks + 1) ∧
      (∃ e l, t.flt.log = e :: l ∧ fld e.w0 31 24 = 5 ∧ e.w2 = toWord n.val ∧ e.w3 = toWord r) ∧
      t.mem = { s.mem with upsets := s.mem.upsets.erase (.register (.sc n) r) })

/-- SELFTEST and the patrol (R367, R440, R441): each kind of SELFTEST is accepted, those on channels or outputs where ACTIVE enables
none of them, and else REFUSED with the mask of those it enables, and BUSY while a targeted test waits; it ends once every named
site is measured, each output of OFFSET clamped (R441), and none is enabled, OK where every site passed its limits, and FAULT with a LASTING entry otherwise; and a patrol
logs each word it corrects and each it cannot, which it rewrites, so that its reader too finds value 0 with SET. The entries that
SELFTEST writes (log entry 68), what a lost word holds (log entry 69) and which word a delay line's sample has (log entry 168) are
the model's choices. -/
def Obligations.SelfTests : Prop :=
  (∀ (a : CmdArgs) (s : State), Admitted rowSelftest (withField a 3 0 1) s → resv (opnd (withField a 3 0 1) 0) 0xF = false →
    s.flt.tests.length ≤ b2n s.flt.testing → opnd a 1 = 0 →
    exec (.selftestPatrol a) s = .next (answered 0xD1 .ok [] { s with
      deferred := { opcode := 0xD1, job := some (.selftest 1 0), since := now s } })) ∧
  (∀ (a : CmdArgs) (s : State), Admitted rowSelftest (withField a 3 0 2) s → resv (opnd (withField a 3 0 2) 0) 0xF = false →
    s.flt.tests.length ≤ b2n s.flt.testing → (∀ c < 32, bit (opnd a 1) c = true → (active s).chEn c = false) →
    exec (.selftestInject a) s = .next (answered 0xD1 .ok [] { s with
      deferred := { opcode := 0xD1, job := some (.selftest 2 (opnd a 1)), since := now s } })) ∧
  (∀ (a : CmdArgs) (s : State), Admitted rowSelftest (withField a 3 0 3) s → resv (opnd (withField a 3 0 3) 0) 0xF = false →
    s.flt.tests.length ≤ b2n s.flt.testing → (∀ d < 32, bit (opnd a 1) d = true → (active s).outEn d = false) →
    exec (.selftestOffset a) s = .next (answered 0xD1 .ok [] { s with
      deferred := { opcode := 0xD1, job := some (.selftest 3 (opnd a 1)), since := now s } })) ∧
  (∀ (a : CmdArgs) (s : State), Admitted rowSelftest (withField a 3 0 4) s → resv (opnd (withField a 3 0 4) 0) 0xF = false →
    s.flt.tests.length ≤ b2n s.flt.testing → opnd a 1 = 0 →
    exec (.selftestPlanner a) s = .next (answered 0xD1 .ok [] { s with
      deferred := { opcode := 0xD1, job := some (.selftest 4 0), since := now s }, margin := { s.margin with running := true } })) ∧
  (∀ (a : CmdArgs) (s : State), Admitted rowSelftest (withField a 3 0 2) s → resv (opnd (withField a 3 0 2) 0) 0xF = false →
    s.flt.tests.length ≤ b2n s.flt.testing → enabledMask 2 (opnd a 1) s ≠ 0 →
    exec (.selftestInject a) s = .next (answered 0xD1 .refused [enabledMask 2 (opnd a 1) s] s)) ∧
  (∀ (a : CmdArgs) (s : State), Admitted rowSelftest (withField a 3 0 3) s → resv (opnd (withField a 3 0 3) 0) 0xF = false →
    s.flt.tests.length ≤ b2n s.flt.testing → enabledMask 3 (opnd a 1) s ≠ 0 →
    exec (.selftestOffset a) s = .next (answered 0xD1 .refused [enabledMask 3 (opnd a 1) s] s)) ∧
  (∀ (a : CmdArgs) (s : State), Admitted rowSelftest (withField a 3 0 1) s → resv (opnd (withField a 3 0 1) 0) 0xF = false →
    opnd a 1 = 0 → b2n s.flt.testing < s.flt.tests.length →
    exec (.selftestPatrol a) s = .next (answered 0xD1 .busy [] s)) ∧
  (∀ (s : State) (kind : Nat) (v : Word) (r : SelftestReadings), s.deferred.job = some (.selftest kind v) → running s = true →
    pllbUnlocked s = false → enabledMask kind v s = 0 → (kind = 4 → s.margin.running = false) →
    (kind = 1 → r.rows = [] ∧ s.cp.lock = none) →
    (kind = 2 → ∀ c < 32, bit v c = true → (∃ x ∈ r.inject, x.1 = c) ∧ ∀ x ∈ r.inject, x.1 = c →
      100 * (x.2.plus - 2 ^ 29).natAbs ≤ 2 ^ 29 ∧ 100 * (x.2.minus + 2 ^ 29).natAbs ≤ 2 ^ 29 ∧ x.2.ovr = false) →
    (kind = 3 → ∀ d < 32, bit v d = true → (dac s d).clamp = true ∧ (dac s d).phase = .clamped ∧ (∃ x ∈ r.offset, x.1 = d) ∧ ∀ x ∈ r.offset, x.1 = d →
      x.2.natAbs ≤ if d < 24 then 2000 else 200) →
    exec (.selftestComplete r) s = .next (raiseIrq irqCmdDone { s with
      deferred := { s.deferred with status := 0, job := none } })) ∧
  (∀ (s : State) (v : Word) (c : Nat) (x : InjectLevels), s.deferred.job = some (.selftest 2 v) → running s = true →
    pllbUnlocked s = false → c < 32 → (∀ d < 32, bit v d = decide (d = c)) → (active s).chEn c = false →
    (2 ^ 29 < 100 * (x.plus - 2 ^ 29).natAbs ∨ 2 ^ 29 < 100 * (x.minus + 2 ^ 29).natAbs ∨ x.ovr = true) →
    ∃ t, exec (.selftestComplete { inject := [(c, x)] }) s = .next t ∧
      t.deferred = { s.deferred with status := 14, job := none } ∧
      t.flt.written = s.flt.written + 1 ∧ bit t.irq.pend irqFault = true ∧ bit t.irq.pend irqCmdDone = true ∧
      (∃ e r, t.flt.log = e :: r ∧ fld e.w0 31 24 = 9 ∧ fld e.w0 23 20 = 3 ∧ e.w2 = toWord c) ∧
      t = { s with deferred := t.deferred, flt := t.flt, irq := t.irq }) ∧
  (∀ (s : State) (v : Word) (d : Nat) (uv : Int), s.deferred.job = some (.selftest 3 v) → running s = true →
    pllbUnlocked s = false → d < 32 → (∀ k < 32, bit v k = decide (k = d)) → (active s).outEn d = false →
    (dac s d).clamp = true → (dac s d).phase = .clamped → (if d < 24 then 2000 else 200) < uv.natAbs →
    ∃ t, exec (.selftestComplete { offset := [(d, uv)] }) s = .next t ∧
      t.deferred = { s.deferred with status := 14, job := none } ∧
      t.flt.written = s.flt.written + 1 ∧ bit t.irq.pend irqFault = true ∧ bit t.irq.pend irqCmdDone = true ∧
      (∃ e r, t.flt.log = e :: r ∧ fld e.w0 23 20 = 3) ∧
      t = { s with free := t.free, deferred := t.deferred, flt := t.flt, irq := t.irq }) ∧
  (∀ (s : State) (v : Word) (r : SelftestReadings) (kind : Nat), s.deferred.job = some (.selftest kind v) →
    (enabledMask kind v s ≠ 0 ∨ (kind = 3 ∧ ∃ d < 32, bit v d = true ∧ ((dac s d).clamp = false ∨ (dac s d).phase ≠ .clamped))) →
    exec (.selftestComplete r) s = .next s) ∧
  (∀ (s : State) (corrected : List Nat), s.power.st = .run → pllbUnlocked s = false → s.cp.lock = none → beatUpset 8 s = none →
    ∃ t, exec (.patrolPass corrected [] []) s = .next t ∧
      t.flt.written = s.flt.written + (corrected.filter (fun a => (rowOf a).isSome)).length ∧
      t = { s with flt := t.flt, irq := { s.irq with pend := t.irq.pend } }) ∧
  (∀ (s : State) (addr : Nat), s.power.st = .run → pllbUnlocked s = false → s.cp.lock = none → beatUpset 8 s = none → addr % 4 = 0 →
    (0x20200000 ≤ addr → addr < 0x20340000 → ∃ t, exec (.patrolPass [] [addr] []) s = .next t ∧ t.mem.word addr = 0 ∧
      t.mem.tag addr = tSET ∧ (∀ k, k < addr ∨ addr + 4 ≤ k → t.mem.byte k = s.mem.byte k) ∧
      (∀ lane < 128, aLanes ≤ addr → (addr - aLanes) / 1024 = lane →
        (addr - aLanes) % 1024 / 4 = (tget 0 s.mtx.lanePos lane + 255) % 256 → tget ⟨0, 0⟩ t.mtx.laneIn lane = ⟨0, tSET⟩) ∧
      (∀ f < 256, addr < aLanes → (addr - aDelayLines) / 4096 = f →
        (flowRun t f).delay = (flowRun s f).delay.set ((addr - aDelayLines) % 4096 / 4) ⟨0, tSET⟩) ∧
      t.flt.written = s.flt.written + 1 ∧
      t = { s with mem := t.mem, flt := t.flt, irq := t.irq, flows := t.flows
                   mtx := { s.mtx with laneIn := t.mtx.laneIn, laneOut := t.mtx.laneOut } }) ∧
    (0x80000 ≤ addr → addr < 0x100000 → ∃ t, exec (.patrolPass [] [addr] []) s = .next t ∧ t.mem.word addr = 0 ∧
      addr ∈ t.mem.bad ∧ (∀ k, k < addr ∨ addr + 4 ≤ k → t.mem.byte k = s.mem.byte k) ∧
      t.flt.written = s.flt.written + 1 ∧ t = { s with mem := t.mem, flt := t.flt, irq := t.irq }))

/-- Calibration measurements (R145–R148, Tables 4.8–4.11): CAL.Z and CAL.F are accepted on channels that run, and REFUSED with
the mask of the others; after its 500 ms, 250 ms or 1.5 s a good measurement writes the fields of its records in the channels' present ranges and
nothing else, those of a pair D_OFFSET, and in CAL.F G_RATIO and, of an INTERLEAVE pair, SKEW; a measurement with OVR, SET or CUT ends
REFUSED, one out of its limits ends RANGE with an entry per channel, and one with a memory error ends FAULT, with no record written. The time counts from the first frame boundaries of the named channels
(R158). A CAL.F whose rms is 0 (log entry 81), MN over all records (log entry 82), a report of what the FIR did not give (log
entry 159), the final status at the measurement's end (log entry 181) and the rounding of the rms before GAIN is formed (log entry 183)
are the model's choices. -/
def Obligations.CalibrationMeasurements : Prop :=
  (∀ (a : CmdArgs) (s : State), Admitted rowCalZ a s → maskBad s (opnd a 0) = false → calBusy s = false →
    (notRunning s (opnd a 0) = 0 → exec (.calZ a) s = .next (answered 0x25 .ok [] { s with
      deferred := { opcode := 0x25, job := some (.calZ (opnd a 0)), since := now s } })) ∧
    (notRunning s (opnd a 0) ≠ 0 → exec (.calZ a) s = .next (answered 0x25 .refused [notRunning s (opnd a 0)] s))) ∧
  (∀ (a : CmdArgs) (s : State), Admitted rowCalF a s → resv (opnd a 1) 0xFFFF = false → maskBad s (opnd a 0) = false →
    (∀ ch ∈ bitsOf (opnd a 0), fullLevel s ch - 2000 ≤ sfld (opnd a 1) 15 0 ∧ sfld (opnd a 1) 15 0 ≤ fullLevel s ch - 100) →
    calBusy s = false → notRunning s (opnd a 0) = 0 →
    exec (.calF a) s = .next (answered 0x26 .ok [] { s with
      deferred := { opcode := 0x26, job := some (.calF (opnd a 0) (sfld (opnd a 1) 15 0)), since := now s } })) ∧
  (∀ (a : CmdArgs) (s : State), Admitted rowCalF a s → resv (opnd a 1) 0xFFFF = false → maskBad s (opnd a 0) = false →
    (∀ ch ∈ bitsOf (opnd a 0), fullLevel s ch - 2000 ≤ sfld (opnd a 1) 15 0 ∧ sfld (opnd a 1) 15 0 ≤ fullLevel s ch - 100) →
    calBusy s = false → notRunning s (opnd a 0) ≠ 0 →
    exec (.calF a) s = .next (answered 0x26 .refused [notRunning s (opnd a 0)] s)) ∧
  (∀ (s : State) (m : Word) (meas l : List CalMeas), s.deferred.job = some (.calZ m) → measures s m meas = some l → m &&& ~~~s.deferred.meas = 0 →
    500000000 ≤ since s s.deferred.since → s.deferred.marked = false →
    (∀ x ∈ l, x.marked = false ∧ x.memErr = false ∧ zRange s x = false) →
    ∃ t, exec (.calZComplete meas) s = .next t ∧ CalDone s t ∧
      (∀ x ∈ l, tget dChRec t.cal.ch (8 * x.ch + rangeNow s x.ch) =
        ⟨intWord (satQ31 x.mean), (chRec s x.ch (rangeNow s x.ch)).w1,
          setFld (setFld (chRec s x.ch (rangeNow s x.ch)).w2 31 28 1) 15 0 (x.noise % 65536).toNat, toWord (s.tb.count / 2 ^ 30)⟩) ∧
      (∀ k, (∀ x ∈ l, k ≠ 8 * x.ch + rangeNow s x.ch) → tget dChRec t.cal.ch k = tget dChRec s.cal.ch k) ∧
      ((∀ x ∈ l, (active s).pairMode x.ch ≠ 0 → x.ch % 2 = 0) →
        (∀ x ∈ l, (active s).pairMode x.ch ≠ 0 → ∀ k, k = 8 * (x.ch / 2) + rangeNow s x.ch →
          tget dPairRec t.cal.pair k = { tget dPairRec s.cal.pair k with
            w0 := intWord (satQ31 x.dMean), w3 := setFld (tget dPairRec s.cal.pair k).w3 31 28 1 }) ∧
        ∀ k, (∀ x ∈ l, (active s).pairMode x.ch ≠ 0 → k ≠ 8 * (x.ch / 2) + rangeNow s x.ch) →
          tget dPairRec t.cal.pair k = tget dPairRec s.cal.pair k)) ∧
  (∀ (s : State) (m : Word) (level : Int) (meas l : List CalMeas), s.deferred.job = some (.calF m level) →
    measures s m meas = some l → m &&& ~~~s.deferred.meas = 0 →
    (if (bitsOf m).any (fun ch => (active s).pairMode ch == 1) then 1500000000 else 250000000) ≤ since s s.deferred.since →
    s.deferred.marked = false → (∀ x ∈ l, x.marked = false ∧ x.memErr = false ∧ fRange s level x = false) →
    ∃ t, exec (.calFComplete meas) s = .next t ∧ CalDone s t ∧ t.margin = s.margin ∧
      (∀ x ∈ l, tget dChRec t.cal.ch (8 * x.ch + rangeNow s x.ch) =
        ⟨(chRec s x.ch (rangeNow s x.ch)).w0, toWord (calGain s level x),
          setFld (chRec s x.ch (rangeNow s x.ch)).w2 27 24 1, toWord (s.tb.count / 2 ^ 30)⟩) ∧
      (∀ k, (∀ x ∈ l, k ≠ 8 * x.ch + rangeNow s x.ch) → tget dChRec t.cal.ch k = tget dChRec s.cal.ch k) ∧
      ((∀ x ∈ l, (active s).pairMode x.ch = 0) → t.cal.pair = s.cal.pair) ∧
      ((∀ x ∈ l, (active s).pairMode x.ch ≠ 0 → x.ch % 2 = 0) →
        (∀ x ∈ l, (active s).pairMode x.ch ≠ 0 → ∀ k, k = 8 * (x.ch / 2) + rangeNow s x.ch →
          tget dPairRec t.cal.pair k =
            ⟨intWord (satQ31 x.dMean), toWord (roundDiv ((x.rms : Int) * 2 ^ 30) x.rmsOdd).toNat,
             if (active s).pairMode x.ch = 1 then setFld (tget dPairRec s.cal.pair k).w2 23 0 (x.skewFs % 2 ^ 24).toNat
               else (tget dPairRec s.cal.pair k).w2,
             setFld (setFld (tget dPairRec s.cal.pair k).w3 31 28 1) 27 24 1⟩) ∧
        ∀ k, (∀ x ∈ l, (active s).pairMode x.ch ≠ 0 → k ≠ 8 * (x.ch / 2) + rangeNow s x.ch) →
          tget dPairRec t.cal.pair k = tget dPairRec s.cal.pair k)) ∧
  (∀ (s : State) (m : Word) (meas l : List CalMeas), s.deferred.job = some (.calZ m) → measures s m meas = some l → m &&& ~~~s.deferred.meas = 0 →
    500000000 ≤ since s s.deferred.since →
    ((s.deferred.marked = true ∨ ∃ x ∈ l, x.marked = true) → exec (.calZComplete meas) s = .next (raiseIrq irqCmdDone { s with
      deferred := { s.deferred with status := 8, job := none } })) ∧
    (s.deferred.marked = false → (∀ x ∈ l, x.marked = false) → (∃ x ∈ l, zRange s x = true) →
      ∃ t, exec (.calZComplete meas) s = .next t ∧ t.deferred = { s.deferred with status := 6, job := none } ∧
        t.cal = s.cal ∧ t.flt.written = s.flt.written + (l.filter (zRange s)).length ∧ bit t.irq.pend irqFault = true ∧
        t = { s with deferred := t.deferred, flt := t.flt, irq := t.irq }) ∧
    (s.deferred.marked = false → (∀ x ∈ l, x.marked = false ∧ zRange s x = false) → (∃ x ∈ l, x.memErr = true) →
      exec (.calZComplete meas) s = .next (raiseIrq irqCmdDone { s with
        deferred := { s.deferred with status := 14, job := none } }))) ∧
  (∀ (s : State) (m : Word) (level : Int) (meas l : List CalMeas), s.deferred.job = some (.calF m level) →
    measures s m meas = some l → m &&& ~~~s.deferred.meas = 0 →
    (if (bitsOf m).any (fun ch => (active s).pairMode ch == 1) then 1500000000 else 250000000) ≤ since s s.deferred.since →
    ((s.deferred.marked = true ∨ ∃ x ∈ l, x.marked = true) → exec (.calFComplete meas) s = .next (raiseIrq irqCmdDone { s with
      deferred := { s.deferred with status := 8, job := none } })) ∧
    (s.deferred.marked = false → (∀ x ∈ l, x.marked = false) → (∃ x ∈ l, fRange s level x = true) →
      ∃ t, exec (.calFComplete meas) s = .next t ∧ t.deferred = { s.deferred with status := 6, job := none } ∧
        t.cal = s.cal ∧ t.flt.written = s.flt.written + (l.filter (fRange s level)).length ∧ bit t.irq.pend irqFault = true ∧
        t = { s with deferred := t.deferred, flt := t.flt, irq := t.irq }) ∧
    (s.deferred.marked = false → (∀ x ∈ l, x.marked = false ∧ fRange s level x = false) → (∃ x ∈ l, x.memErr = true) →
      exec (.calFComplete meas) s = .next (raiseIrq irqCmdDone { s with
        deferred := { s.deferred with status := 14, job := none } }))) ∧
  (∀ (s : State) (level : Int) (x : CalMeas),
    zRange s x = (decide (0x0147AE14 < x.mean.natAbs) || ((active s).pairMode x.ch != 0 && decide (0x0147AE14 < x.dMean.natAbs)) ||
      decide (-9000 < x.noise)) ∧
    fRange s level x = (decide (x.freqMilliHz < 990000) || decide (1010000 < x.freqMilliHz) || x.rms == 0 ||
      decide (calGain s level x < gainOf 30 (-100)) || decide (gainOf 30 100 < calGain s level x) ||
      ((active s).pairMode x.ch != 0 && (x.rmsOdd == 0 || decide (calRatio x < gainOf 30 (-100)) ||
        decide (gainOf 30 100 < calRatio x))) ||
      ((active s).pairMode x.ch == 1 && decide (2000000 < x.skewFs.natAbs))))

/-- Calibration records (R159–R161, Table 4.12): part 0 of an export snapshots the records, counts itself and signs a header, and
the other parts return that snapshot; an import stages parts 0 to 8, one with a reserved bit or code being UNSUPPORTED, and takes them whole at part 9, or none; and CAL.FACTORY
restores the factory copy with SOURCE 2, programs it in MAKER, or marks every record unmeasured. That a part 9 whose own checks fail
clears the staging (log entry 81), and the CAL_TIME of imported and restored records (log entry 146), are the model's choices; the
signatures are those of the published standards (log entry 33). -/
def Obligations.CalibrationRecords : Prop :=
  (∀ (a : CmdArgs) (s : State), Admitted rowCalExport (withField a 3 0 0) s →
    resv (opnd (withField a 3 0 0) 0) 0xF = false → s.sec.otp.lifecycle ≠ .rma → s.sec.drbgFail = false → beatUpset 7 s = none →
    s.mem.bad = [] → ∃ t k, exec (.calExportPart0 a) s = .next (answered 0x27 .ok (partOf s.cal.ch s.cal.pair 0) t) ∧
      t.cal = { s.cal with exports := s.cal.exports + 1, snapshot := some k } ∧ k.ch = s.cal.ch ∧ k.pair = s.cal.pair ∧
      k.header.take 4 = [0x5043414C, 1, toWord (s.cal.exports + 1), 0x000000A1] ∧
      t = { s with free := t.free, cal := t.cal, sec := { s.sec with drbg := t.sec.drbg } }) ∧
  (∀ (a : CmdArgs) (s : State) (k : Snapshot), Admitted rowCalExport a s → opnd a 0 ≠ 0 → (opnd a 0).toNat ≤ 9 →
    s.cal.snapshot = some k → beatUpset 7 s = none →
    exec (.calExportPart a) s = .next (answered 0x27 .ok
      (if opnd a 0 = 9 then k.header else partOf k.ch k.pair (opnd a 0).toNat) s)) ∧
  (∀ (a : CmdArgs) (s : State), Admitted rowCalImport a s → (opnd a 0).toNat ≤ 8 → calMask s = 0 →
    partBad (opnd a 0).toNat (a.ops.drop 1) = false → beatUpset 7 s = none →
    exec (.calImportPart a) s = .next (answered 0x28 .ok [] { s with
      cal := { s.cal with staging := tput [] s.cal.staging (opnd a 0).toNat (a.ops.drop 1) } })) ∧
  (∀ (a : CmdArgs) (s : State), Admitted rowCalImport a s → (opnd a 0).toNat ≤ 8 →
    partBad (opnd a 0).toNat (a.ops.drop 1) = true → exec (.calImportPart a) s = .next (answered 0x28 .unsupported [] s)) ∧
  (∀ (a : CmdArgs) (s : State) (h : List Word), Admitted rowCalImport (withField a 3 0 9) s →
    resv (opnd (withField a 3 0 9) 0) 0xF = false → s.sec.otp.lifecycle ≠ .rma → calMask s = 0 → h = a.ops.drop 1 → beatUpset 7 s = none →
    (missingParts s ≠ 0 → exec (.calImportCommit a) s = .next (answered 0x28 .refused [missingParts s] { s with
      cal := { s.cal with staging := [] } })) ∧
    (missingParts s = 0 → h.getD 1 0 ≠ 1 → exec (.calImportCommit a) s = .next (answered 0x28 .unsupported [] { s with
      cal := { s.cal with staging := [] } })) ∧
    (missingParts s = 0 → h.getD 1 0 = 1 →
      if sha256Words (wordsBytes ((List.range 9).flatMap (tget [] s.cal.staging))) = (h.drop 4).take 8 ∧
        ecdsaOk (publicKey attestKey) (sha256 (wordsBytes (h.take 12))) ((h.drop 12).take 16) = true
      then ∃ t, exec (.calImportCommit a) s = .next (answered 0x28 .ok [] t) ∧
        t.cal = { s.cal with ch := stagedCh (calTime s) s.cal.staging, pair := stagedPair s.cal.staging, staging := [] } ∧
        t = { s with cal := t.cal, fe := t.fe }
      else exec (.calImportCommit a) s = .next (answered 0x28 .refused [0x80000000] { s with
        cal := { s.cal with staging := [] } }))) ∧
  (∀ (a : CmdArgs) (s : State), Admitted rowCalFactory (withField a 1 0 0) s →
    resv (opnd (withField a 1 0 0) 0) 3 = false → calMask s = 0 → s.sec.otp.factorySet = true → beatUpset 7 s = none →
    ∃ t, exec (.calFactoryRestore a) s = .next (answered 0x29 .ok [] t) ∧
      (∀ k < 256, tget dChRec t.cal.ch k = { setSourceCh 2 (tget dChRec s.sec.otp.facCh k) with w3 := calTime s }) ∧
      (∀ k < 128, tget dPairRec t.cal.pair k = setSourcePair 2 (tget dPairRec s.sec.otp.facPair k)) ∧
      t = { s with cal := { s.cal with ch := t.cal.ch, pair := t.cal.pair }, fe := t.fe }) ∧
  (∀ (a : CmdArgs) (s : State), Admitted rowCalFactory (withField a 1 0 1) s →
    resv (opnd (withField a 1 0 1) 0) 3 = false → s.sec.otp.lifecycle = .maker → calMask s = 0 →
    s.sec.otp.factorySet = false → beatUpset 7 s = none →
    OtpAttempt 0x29 (.calFactoryProgram a) [] { s.sec.otp with factorySet := true, facCh := s.cal.ch, facPair := s.cal.pair }
      (fun v => factoryUnknown v s.sec.otp) s) ∧
  (∀ (a : CmdArgs) (s : State), Admitted rowCalFactory (withField a 1 0 2) s →
    resv (opnd (withField a 1 0 2) 0) 3 = false → calMask s = 0 → beatUpset 7 s = none →
    ∃ t, exec (.calFactoryClear a) s = .next (answered 0x29 .ok [] t) ∧
      (∀ k, fld (tget dChRec t.cal.ch k).w2 31 28 = 0 ∧ fld (tget dChRec t.cal.ch k).w2 27 24 = 0) ∧
      (∀ k, fld (tget dPairRec t.cal.pair k).w3 31 28 = 0 ∧ fld (tget dPairRec t.cal.pair k).w3 27 24 = 0) ∧
      t = { s with cal := { s.cal with ch := t.cal.ch, pair := t.cal.pair }, fe := t.fe })

/-- One-time programming, lifecycle and certificates (R399–R402, R405, Tables 12.1–12.3), where no beat of SEC and no OTP word fails
its check: each OTP.WRITE item programs its words
where its lifecycle and its present contents allow it (whether the read-back verifies, and what an item that fails it
holds, is free, log entries 2 and 155), and a CERT with reserved bits is UNSUPPORTED (the model's choice, log entry 88); LIFECYCLE goes
forward alone; KEY.REVOKE revokes a programmed slot while another stays valid; and CERT.READ returns the device's keys or the
stored certificate. -/
def Obligations.OneTimeProgramming : Prop :=
  (∀ (a : CmdArgs) (s : State) (o : Otp) (ix : Nat) (ws : List Word), o = s.sec.otp → beatUpset 7 s = none → ws = a.ops.drop 1 →
    ix = fld (opnd a 0) 9 8 →
    (Admitted rowOtpWrite (withField a 7 0 1) s → resv (opnd (withField a 7 0 1) 0) 0x3FF = false →
      (o.lifecycle = .blank ∨ o.lifecycle = .maker) → o.keySet.getLsbD ix = false →
      OtpAttempt 0xB2 (.otpWriteRootkey a) []
        { o with rootkeys := tput [] o.rootkeys ix ws, keySet := o.keySet ||| (1#4 <<< ix) }
        (fun v => { o with rootkeys := tput [] o.rootkeys ix v, keySet := o.keySet ||| (1#4 <<< ix) }) s) ∧
    (Admitted rowOtpWrite (withField a 7 0 2) s → resv (opnd (withField a 7 0 2) 0) 0x3FF = false → o.lifecycle = .maker →
      OtpAttempt 0xB2 (.otpWritePolicy a) [] { o with policy := true } (fun _ => { o with policy := true }) s) ∧
    (Admitted rowOtpWrite (withField a 7 0 3) s → resv (opnd (withField a 7 0 3) 0) 0x3FF = false → o.lifecycle = .maker →
      8000000 ≤ (ws.getD 0 0).toNat → (ws.getD 0 0).toNat ≤ 52000000 → o.xrefFreq = 0 →
      OtpAttempt 0xB2 (.otpWriteXrefFreq a) [] { o with xrefFreq := (ws.getD 0 0).toNat }
        (fun v => { o with xrefFreq := (v.getD 0 0).toNat }) s) ∧
    (Admitted rowOtpWrite (withField a 7 0 4) s → resv (opnd (withField a 7 0 4) 0) 0x3FF = false → o.lifecycle = .maker →
      o.certSet = false → resv (ws.getD 1 0) 0xFF000007 = false →
      if certMine s ws then OtpAttempt 0xB2 (.otpWriteCert a) [] { o with cert := ws, certSet := true }
        (fun v => { o with cert := v, certSet := true }) s
      else exec (.otpWriteCert a) s = .next (answered 0xB2 .refused [] s)) ∧
    (Admitted rowOtpWrite (withField a 7 0 4) s → resv (ws.getD 1 0) 0xFF000007 = true →
      exec (.otpWriteCert a) s = .next (answered 0xB2 .unsupported [] s)) ∧
    (Admitted rowOtpWrite (withField a 7 0 5) s → resv (opnd (withField a 7 0 5) 0) 0x3FF = false →
      (o.lifecycle = .maker ∨ o.lifecycle = .field) → (ws.getD 0 0).toNat ≤ 64 →
      OtpAttempt 0xB2 (.otpWriteArb a) [toWord (max (tget 0 o.arb ix) (ws.getD 0 0).toNat)]
        { o with arb := tmod 0 o.arb ix (fun n => max n (ws.getD 0 0).toNat) }
        (fun v => { o with arb := tmod 0 o.arb ix (fun n => max n (min 64 (v.getD 0 0).toNat)) }) s)) ∧
  (∀ (a : CmdArgs) (s : State) (t : Lifecycle), Admitted rowLifecycle a s → resv (opnd a 0) 7 = false →
    lifecycleOf (opnd a 0).toNat = some t →
    (lifecycleForward s.sec.otp.lifecycle t = true → (t = .maker → s.sec.otp.keySet ≠ 0) →
      (t = .field → s.sec.otp.certSet = true) → (t = .rma → anySeal s = false) → beatUpset 7 s = none →
      exec (.lifecycle a) s = .next (answered 0xB3 .ok [] { s with
        sec := { s.sec with otp := { s.sec.otp with lifecycle := t } } })) ∧
    (lifecycleForward s.sec.otp.lifecycle t = false → exec (.lifecycle a) s = .next (answered 0xB3 .lifecycle [] s))) ∧
  (∀ (a : CmdArgs) (s : State), Admitted rowKeyRevoke a s → resv (opnd a 0) 3 = false →
    (s.sec.otp.lifecycle = .maker ∨ s.sec.otp.lifecycle = .field) →
    (s.sec.otp.keySet.getLsbD (opnd a 0).toNat = true → beatUpset 7 s = none → (∃ k < 4, k ≠ (opnd a 0).toNat ∧ slotValid s k = true) →
      exec (.keyRevoke a) s = .next (answered 0xB4 .ok [] { s with
        sec := { s.sec with otp := { s.sec.otp with keyRevoked := s.sec.otp.keyRevoked ||| (1#4 <<< (opnd a 0).toNat) } } })) ∧
    ((∀ k < 4, k ≠ (opnd a 0).toNat → slotValid s k = false) →
      exec (.keyRevoke a) s = .next (answered 0xB4 .refused [] s))) ∧
  (∀ (a : CmdArgs) (s : State), Admitted rowCertRead (withField a 0 0 0) s →
    resv (opnd (withField a 0 0 0) 0) 1 = false → beatUpset 7 s = none → s.sec.otp.lifecycle ≠ .rma →
    exec (.certReadKeys a) s = .next (answered 0xC3 .ok deviceKeys s)) ∧
  (∀ (a : CmdArgs) (s : State), Admitted rowCertRead (withField a 0 0 1) s →
    resv (opnd (withField a 0 0 1) 0) 1 = false → beatUpset 7 s = none → s.sec.otp.certSet = true →
    exec (.certRead a) s = .next (answered 0xC3 .ok s.sec.otp.cert s))

/-- Sealed capture (R406, R420–R425, Tables 12.8–12.10): SEAL.OPEN takes the lowest free seal; its hashing starts with an OPEN
record; a full block advances the chain and queues a BLOCK record; a SIGN record covers the blocks so far; a close queues a SIGN record that
is due and then the CLOSE record from the seal's reserve, and ends SEAL.CLOSE, which reports FAULT once the DRBG has stopped; SEAL.READ takes whole records; records that do not fit close their
seal with OVERFLOW; and a DRBG failure stops signing and closes every open seal. The seal's ID (log entry 156), what a block that
does not fit does (log entry 36), a SEAL_BLOCK_END before the block is full (log entry 85) and the seeds of the DRBG (log
entries 2, 190), and that SEC queues nothing while PLLB is unlocked (log entry 153), are the model's choices; hashes and signatures are those of the published standards (log entry 33). -/
def Obligations.SealedCapture : Prop :=
  (∀ (a : CmdArgs) (s : State) (f k : Nat), Admitted rowSealOpen a s → f = fld (opnd a 0) 7 0 →
    resv (opnd a 0) 0x33FF = false → sealRange s (opnd a 0) = false →
    (s.sec.otp.lifecycle = .maker ∨ s.sec.otp.lifecycle = .field) →
    (∀ r, sealRefusal s f = some r → exec (.sealOpen a) s = .next (answered 0xC0 .refused [r] s)) ∧
    (sealRefusal s f = none → beatUpset 7 s = none → s.sec.drbgFail = false → k < 8 → (sealOf s k).isOpen = false →
      (∀ j < k, (sealOf s j).isOpen = true) →
      exec (.sealOpen a) s = .next (answered 0xC0 .ok [toWord k] (onSealSt k (fun _ => {
        isOpen := true, dest := BitVec.ofNat 2 (fld (opnd a 0) 9 8), port := fld (opnd a 0) 13 12, flow := f }) s)))) ∧
  (∀ (s : State) (sid : Nat), sid < 8 → (sealOf s sid).isOpen = true → (sealOf s sid).started = false →
    (sealOf s sid).closeDue = none → audioRuns s = true → sealFrame s sid = true → s.cp.lock = none →
    (33 ≤ sealRoom s → ∃ t, exec (.sealStart sid) s = .next t ∧ SealQueued sid 1 s t ∧
      sealOf t sid = { sealOf s sid with started := true, recs := 1, head := (sealOf t sid).head }) ∧
    (sealRoom s < 33 → ∃ t, exec (.sealStart sid) s = .next t ∧ t.seals.queue = s.seals.queue ∧
      (sealOf t sid).closeDue = some 1 ∧ t.seals.overflows = min 255 (s.seals.overflows + 1))) ∧
  (∀ (s : State) (sid : Nat), sid < 8 → (sealOf s sid).isOpen = true → (sealOf s sid).started = true →
    (sealOf s sid).closeDue = none → (sealOf s sid).block.length = 4096 → 18 ≤ sealRoom s →
    pllbUnlocked s = false → s.cp.lock = none →
    ∃ t, exec (.sealBlockEnd sid) s = .next t ∧ SealQueued sid 2 s t ∧ t.free = s.free ∧ t.sec = s.sec ∧
      sealOf t sid = { sealOf s sid with
        head := blockHead sid (sealOf s sid) s.tb.valid, blocks := (sealOf s sid).blocks + 1
        recs := (sealOf s sid).recs + 1, block := []
        signDue := (sealOf s sid).signDue || ((sealOf s sid).blocks + 1) % 16 == 0 }) ∧
  (∀ (s : State) (sid : Nat), sid < 8 → (sealOf s sid).isOpen = true → (sealOf s sid).signDue = true →
    (sealOf s sid).closeDue = none → upset s (.sealState sid) = false →
    beatUpset 7 s = none → 27 ≤ sealRoom s → pllbUnlocked s = false → s.cp.lock = none →
    ∃ t, exec (.sealSignRecord sid) s = .next t ∧ SealQueued sid 3 s t ∧
      sealOf t sid = { sealOf s sid with signDue := false, recs := (sealOf s sid).recs + 1 } ∧
      ((sealOf s sid).dest = 0 → bit t.irq.pend irqSeal = true)) ∧
  (∀ (a : CmdArgs) (s : State), Admitted rowSealClose a s → resv (opnd a 0) 7 = false →
    ((sealOf s (opnd a 0).toNat).isOpen = true → s.sec.drbgFail = false → exec (.sealClose a) s = .next (answered 0xC1 .ok [] { s with
      deferred := { opcode := 0xC1, job := some (.sealClose (opnd a 0).toNat), since := now s } })) ∧
    ((sealOf s (opnd a 0).toNat).isOpen = true → s.sec.drbgFail = true → exec (.sealClose a) s = .next (answered 0xC1 .fault [] s)) ∧
    ((sealOf s (opnd a 0).toNat).isOpen = false → exec (.sealClose a) s = .next (answered 0xC1 .refused [] s))) ∧
  (∀ (s : State) (sid : Nat), sid < 8 → (sealOf s sid).isOpen = true → (sealOf s sid).started = true → (sealOf s sid).block = [] →
    s.deferred.job = some (.sealClose sid) → (sealOf s sid).closeDue ≠ some 2 → upset s (.sealState sid) = false →
    beatUpset 7 s = none → s.sec.drbgFail = false → pllbUnlocked s = false → s.cp.lock = none →
    ((sealOf s sid).closeDue.isSome = true ∨ (flowRun s (sealOf s sid).flow).running = false ∨ audioRuns s = false ∨
      sealFrame s sid = true) →
    ((sealOf s sid).signDue = true → 27 ≤ sealRoom s) →
    let n := if (sealOf s sid).signDue then 1 else 0
    ∃ t, exec (.sealCloseRecord sid) s = .next t ∧ (∃ l r, t.seals.queue = s.seals.queue ++ l ++ [r] ∧ l.length = n ∧
        (∀ x ∈ l, x.dest = (sealOf s sid).dest ∧ x.words.take 3 = [recordHead 3 sid 27, toWord (sealOf s sid).recs,
          toWord (sealOf s sid).blocks]) ∧
        r.dest = (sealOf s sid).dest ∧ r.port = (sealOf s sid).port ∧
        r.words.take 4 = [recordHead 4 sid 28, toWord ((sealOf s sid).recs + n), toWord (sealOf s sid).blocks,
          toWord ((sealOf s sid).closeDue.getD 0)]) ∧
      (sealOf t sid).isOpen = false ∧ t.deferred = { s.deferred with status := 0, job := none } ∧
      bit t.irq.pend irqCmdDone = true ∧
      t = { s with free := t.free, seals := t.seals, deferred := t.deferred, irq := { s.irq with pend := t.irq.pend }
                   sec := { s.sec with drbg := t.sec.drbg } }) ∧
  (∀ (s : State) (sid : Nat), pllbUnlocked s = true → exec (.sealBlockEnd sid) s = .next s ∧ exec (.sealSignRecord sid) s = .next s ∧
    exec (.sealCloseRecord sid) s = .next s) ∧
  (∀ (a : CmdArgs) (s : State), Admitted rowSealRead a s → resv (opnd a 0) 0x3FF = false → opnd a 0 ≠ 0 →
    exec (.sealRead a) s = .next (answered 0xC2 .ok (takeRecords (opnd a 0).toNat s.seals.queue).1 { s with
      seals := { s.seals with queue := (takeRecords (opnd a 0).toNat s.seals.queue).2 } })) ∧
  (∀ (n : Nat) (q : List SealRec), (takeRecords n q).1.length ≤ n ∧
    (takeRecords n q).2.filter (fun r => r.dest != 0) = q.filter (fun r => r.dest != 0)) ∧
  (∀ (s : State) (test : Nat), logicOn s = true → s.sec.drbgFail = false →
    ∃ t, exec (.drbgHealthFail test) s = .next t ∧ t.sec = { s.sec with drbgFail := true } ∧
      (∀ k, (sealOf t k).isOpen = (sealOf s k).isOpen ∧ ((sealOf s k).isOpen = true →
        (sealOf t k).closeDue = (match (sealOf s k).closeDue with | some r => some r | none => some 2))) ∧
      t.flt.written = s.flt.written + 1 ∧ bit t.irq.pend irqFault = true ∧
      t = { s with sec := t.sec, seals := t.seals, flt := t.flt, irq := t.irq })

/-- Sessions, debug unlock and the TAP (R413–R418): SESSION.OPEN with a good certificate and signature opens a session with the
certificate's rights and counters at 0, and else is REFUSED, where no beat of SEC fails its check; SESSION.CLOSE ends it; a challenge is held for 60 s and a good response to it unlocks
its scope once; and each TAP instruction selects its data register. That a bad response leaves the challenge (log entry 89) and the
lifecycles that DEBUG.CHAL serves (log entry 157) are the model's choices; what the boundary register captures is free (log entry
2), a challenge is eight words of the DRBG, whose seed is free (log entry 190), and hashes and signatures are those of the published standards (log entry 33). -/
def Obligations.SessionsAndDebug : Prop :=
  (∀ (a : CmdArgs) (s : State) (c : List Word), Admitted rowSessionOpen a s → c = a.ops.take 68 →
    resv (c.getD 1 0) 0xFF000007 = false → s.sec.drbgFail = false → beatUpset 7 s = none → (∀ w ∈ sessionWords, otpLost s w = false) →
    if hostCertBad s c = false ∧ ecdsaOk ((c.drop 4).take 16) (sha256 (wordsBytes ((a.ops.drop 68).take 16
      ++ (a.ops.drop 84).take 8 ++ [Config.deviceId.1, Config.deviceId.2]))) ((a.ops.drop 92).take 16) = true
    then ∃ t ws x, exec (.sessionOpen a) s = .next (answered 0xB0 .ok ws t) ∧ t.sec = { s.sec with session := some x, drbg := t.sec.drbg } ∧
      x.rights = BitVec.ofNat 3 (fld (c.getD 1 0) 2 0) ∧ x.cHd = 0 ∧ x.cDh = 0 ∧ t = { s with free := t.free, sec := t.sec }
    else exec (.sessionOpen a) s = .next (answered 0xB0 .refused [] s)) ∧
  (∀ (a : CmdArgs) (s : State), Admitted rowSessionClose a s →
    exec (.sessionClose a) s = .next (answered 0xB1 .ok [] { s with sec := { s.sec with session := none } })) ∧
  (∀ (a : CmdArgs) (s : State), Admitted rowDebugChal a s → s.sec.drbgFail = false → beatUpset 7 s = none →
    ∃ ws t, exec (.debugChal a) s = .next (answered 0xB5 .ok ws t) ∧ ws = (drbgWords 8 s).1 ∧ ws.length = 8 ∧
      t = { s with free := t.free, sec := { s.sec with chal := some (ws, now s), drbg := (drbgWords 8 s).2.sec.drbg } }) ∧
  (∀ (a : CmdArgs) (s : State) (c : List Word) (at_ : Nat), Admitted rowDebugResp a s → resv (opnd a 16) 7 = false →
    s.sec.otp.lifecycle ≠ .blank → beatUpset 7 s = none → s.sec.chal = some (c, at_) → since s at_ ≤ 60000000000 →
    exec (.debugResp a) s = .next (
      if keyTrusted s (a.ops.take 16) = true ∧ anySeal s = false ∧
        ecdsaOk (a.ops.take 16) (sha256 (wordsBytes (c ++ [Config.deviceId.1, Config.deviceId.2] ++ [opnd a 16]))) ((a.ops.drop 17).take 16) = true
      then answered 0xB6 .ok [] { s with sec := { s.sec with debug := (opnd a 16).setWidth 3, chal := none } }
      else answered 0xB6 .refused [] s)) ∧
  (∀ (s : State) (c : List Word) (at_ : Nat), s.sec.chal = some (c, at_) →
    (60000000000 ≤ since s at_ →
      exec .debugChallengeExpiry s = .next { s with sec := { s.sec with chal := none } }) ∧
    (since s at_ < 60000000000 → exec .debugChallengeExpiry s = .next s)) ∧
  (∀ s : State, logicOn s = true → s.power.iovddA = true →
    exec .jtagBypass s = .next { s with pins := { s.pins with jtag := .bypass, tdo := 0 } } ∧
    exec .jtagIdcode s = .next { s with pins := { s.pins with jtag := .idcode, tdo := 0xA3234F1B } } ∧
    (∀ w : Word, ∃ v, exec (.jtagSamplePreload w) s = .next { s with free := s.free + 1, pins := ⟨.sample, w, v⟩ }) ∧
    (∃ v, exec .jtagExtest s = .next { s with free := s.free + 1, pins := { s.pins with jtag := .extest, tdo := v } }))

/-- Images and boot (R318, R348, R407–R412, R459, R467, Tables 12.6, 12.7): IMAGE.LOAD stages its words and voids an earlier
verification; IMAGE.EXEC begins the admission; an admitted firmware runs with REMAP set, an admitted stream image is verified,
and a failed one reports its step's status and BOOT as it was; BOOT_START samples the straps and starts the boot ROM, which
reads the flash or waits for the host, and runs the newer slot that is admitted, or the other slot where that one fails. Reserved bits
and MAGIC (log entry 88), IMAGE.EXEC in WAKE-HOLD (log entry 87), which failures write an entry (log entry 122), a slot that holds no
firmware (log entry 37) and the VCM node's ramp at the boot start (log entry 60) are the model's choices. -/
def Obligations.ImagesAndBoot : Prop :=
  (∀ (a : CmdArgs) (s : State) (off : Nat), Admitted rowImageLoad a s → off = fld (opnd a 0) 18 0 →
    resv (opnd a 0) 0x7FFFF = false → off % 4 = 0 → off + 4 * (a.ops.length - 1) ≤ 524288 →
    s.deferred.job ≠ some .imageExec → s.cp.lock = none → beatUpset 5 s = none →
    ∃ t, exec (.imageLoad a) s = .next (answered 0xA0 .ok [] t) ∧ t.sec = { s.sec with verified := false } ∧
      (∀ i < a.ops.length - 1, t.mem.word (0x20380000 + off + 4 * i) = a.ops.getD (i + 1) 0) ∧
      (∀ k, k < 0x20380000 + off ∨ 0x20380000 + off + 4 * (a.ops.length - 1) ≤ k → t.mem.byte k = s.mem.byte k) ∧
      t = { s with mem := t.mem, sec := t.sec }) ∧
  (∀ (a : CmdArgs) (s : State), Admitted rowImageExec a s →
    (stagedFirmware s = true → s.power.boot = .run → exec (.imageExec a) s = .next (answered 0xA1 .unsupported [] s)) ∧
    ((stagedFirmware s = false ∨ s.power.boot = .wakeHold) → exec (.imageExec a) s = .next (answered 0xA1 .ok [] { s with
      deferred := { opcode := 0xA1, job := some .imageExec, since := now s } })) ∧
    (stagedFirmware s = true → (s.power.boot = .romWait ∨ s.power.boot = .safe) →
      exec (.imageExec a) s = .next (answered 0xA1 .ok [] { s with
        deferred := { opcode := 0xA1, job := some .imageExec, since := now s }
        power := { s.power with bootPrev := s.power.boot, boot := .verify } }))) ∧
  (∀ s : State, s.deferred.job = some .imageExec → logicOn s = true → stagedLost s = none →
    beatUpset 7 s = none → pllbUnlocked s = false → s.cp.lock = none → otpAnyLost s = false →
    let m := stagedImage s
    let r := (admitImage m 524288 s).1
    ∃ t, exec .imageExecComplete s = .next t ∧ t.deferred = { s.deferred with status := BitVec.ofNat 8 r.st.code, job := none } ∧
      bit t.irq.pend irqCmdDone = true ∧
      (r.st = .ok → m.firmware = true → t.power = { s.power with boot := .run, fwVersion := m.w 4, safeCause := 0 } ∧
        t.mem.remap = true ∧ t.margin.running = true ∧
        (∀ i < r.body.length, i < 131072 - 64 → m.enc = true → t.mem.word (0x20380100 + 4 * i) = r.body.getD i 0) ∧ bit t.irq.pend irqBootDone = true) ∧
      (r.st = .ok → m.firmware = false → t.sec = { s.sec with verified := true } ∧ t.power = s.power) ∧
      (r.st ≠ .ok → m.firmware = true → r.step = 6 → t.power = { s.power with boot := .safe, safeCause := 1 } ∧
        bit t.irq.pend irqBootDone = true ∧ t.flt.written = s.flt.written + 1) ∧
      (r.st ≠ .ok → r.step ≠ 6 → t.mem = s.mem ∧ t.sec = s.sec ∧
        t.power = { s.power with boot := if s.power.boot = .verify then s.power.bootPrev else s.power.boot })) ∧
  (∀ (s : State) (st : Straps), s.power.st = .reset → muting s = true → exec (.bootStart st) s = .next s) ∧
  (∀ (s : State) (st : Straps), s.power.st = .reset → s.power.straps.tmode = false → muting s = false →
    (st.tmode = true → exec (.bootStart st) s = .next { s with power := { s.power with straps := st } }) ∧
    (st.tmode = false → st.bromOk = true → st.otpOk = true → otpAnyLost s = false →
      exec (.bootStart st) s = .next { s with
        power := { s.power with
          st := .run, straps := st, boot := if st.flash then .verify else .romWait, bootPrev := .romWait
          onRc := true, fwVersion := 0, safeCause := 0 }
        outs := { s.outs with vcm := .rampUp, vcmAt := now s } }) ∧
    (st.tmode = false → (st.bromOk = false ∨ st.otpOk = false ∨ otpAnyLost s = true) →
      ∃ t, exec (.bootStart st) s = .next t ∧ t.power.st = .run ∧ t.power.boot = .safe ∧
        t.power.safeCause = (if st.bromOk then 3 else 2) ∧ bit t.irq.pend irqBootDone = true ∧
        t.flt.written = s.flt.written + 1)) ∧
  (∀ (s : State) (ws : List Word), s.power.boot = .verify → s.deferred.job ≠ some .imageExec → running s = true →
    pllbUnlocked s = false → beatUpset 7 s = none → s.cp.lock = none →
    let m := flashImage ws
    let r := (admitImage m 0x100000 s).1
    ∃ t, exec (.flashBoot (some ws) none) s = .next t ∧
      if r.st = .ok ∧ m.firmware = true then t.power = { s.power with boot := .run, fwVersion := m.w 4, safeCause := 0 } ∧
        t.mem.remap = true ∧ bit t.irq.pend irqBootDone = true ∧ t.flt = s.flt
      else if r.st ≠ .ok ∧ r.step = 6 then t.power.boot = .safe ∧ t.power.safeCause = 1 ∧ bit t.irq.pend irqBootDone = true
      else t.power = { s.power with boot := .romWait } ∧ bit t.irq.pend irqSecurity = true ∧
        t.flt.written = s.flt.written + 1) ∧
  (∀ (s : State) (wa wb : List Word), s.power.boot = .verify → s.deferred.job ≠ some .imageExec → running s = true →
    pllbUnlocked s = false → beatUpset 7 s = none → s.cp.lock = none →
    let a := flashImage wa
    let b := flashImage wb
    let p := if (a.w 4).toNat < (b.w 4).toNat then b else a
    let q := if (a.w 4).toNat < (b.w 4).toNat then a else b
    let x := admitImage p 0x100000 s
    let y := admitImage q 0x100000 x.2
    ∃ t, exec (.flashBoot (some wa) (some wb)) s = .next t ∧
      if x.1.st = .ok ∧ p.firmware = true then t.power = { s.power with boot := .run, fwVersion := p.w 4, safeCause := 0 } ∧
        t.mem.remap = true ∧ bit t.irq.pend irqBootDone = true ∧ t.flt = s.flt
      else if y.1.st = .ok ∧ q.firmware = true then
        t.power = { s.power with boot := .run, fwVersion := q.w 4, safeCause := 0 } ∧
        t.mem.remap = true ∧ bit t.irq.pend irqBootDone = true ∧ t.flt.written = s.flt.written + 1
      else if (x.1.st ≠ .ok ∧ x.1.step = 6) ∨ (y.1.st ≠ .ok ∧ y.1.step = 6) then
        t.power.boot = .safe ∧ t.power.safeCause = 1 ∧ bit t.irq.pend irqBootDone = true
      else t.power = { s.power with boot := .romWait } ∧ bit t.irq.pend irqSecurity = true ∧
        t.flt.written = s.flt.written + 2)

/-- The host port (R43–R51, R53, R55, R57, R64, Tables 2.1–2.3): a transaction to another I²C address is not the device's and one
with another code is ignored, 0x00 is sent where no byte is defined; a plain packet with the expected number is accepted and the number
advances, and so does a session packet, type 0x81, whose tag verifies (R415); one more than four unread is dropped and counted; and of the
others the first test of Table 2.3 that holds decides: RANGE, BAD_CRC, UNSUPPORTED, NOT_AUTHENTICATED, the stored response again, or
SEQ_ERROR; READ_PKT returns the oldest response and READ_ST the words of the
window, each with its CRC, where no beat of HDMA fails its check; executing a packet queues and stores its response, sealed in a session (what a transaction that ends early interrupts is free, log
entry 42); and NOP, DEV.INFO and IRQ.MASK answer as stated. -/
def Obligations.HostTransactions : Prop :=
  (∀ (s : State) (x : Xfer) (seq : BitVec 8) (ws : List Word) (p : List Byte), addressed x s = true → x.code = 0x5A →
    s.power.st = .run → p = plainPacket 0x01 seq (wordsBytes ws) → unread s < 4 → 4 * ws.length ≤ 4096 →
    (s.host.seqFree = true ∨ seq = s.host.expSeq) → bit s.power.wdt 30 = false → beatUpset 5 s = none → s.cp.lock = none →
    exec (.writePkt ⟨x, p⟩) s = .next (sendBytes (1 + p.length) 0 [] { s with host := { s.host with
      expSeq := seq + 1, seqFree := false, lastSeq := some seq, stored := none
      accepted := s.host.accepted ++ [⟨false, seq, ws⟩] } })) ∧
  (∀ (s : State) (x : Xfer) (bytes : List Byte), addressed x s = true → x.code = 0x5A → 4 ≤ unread s → 0xA5 ∈ bytes → beatUpset 5 s = none → s.cp.lock = none →
    exec (.writePkt ⟨x, bytes⟩) s = .next (sendBytes (1 + bytes.length) 0 [] { s with
      host := { s.host with drops := min 255 (s.host.drops + 1) } })) ∧
  (∀ (s : State) (x : Xfer) (p : List Byte) (n : Nat) (seq : BitVec 8), addressed x s = true → x.code = 0x5A → unread s < 4 →
    beatUpset 5 s = none → s.cp.lock = none → p.head? = some 0xA5 → n = bytesNat ((p.drop 3).take 2) →
    seq = (if p.length < 3 then s.host.expSeq else p.getD 2 0) →
    let t := sendBytes (1 + p.length) 0 [] s
    let whole := 7 + n + (if (p.getD 1 0).getLsbD 7 then 16 else 0)
    (5 ≤ p.length → (4096 < n ∨ n % 4 ≠ 0) → exec (.writePkt ⟨x, p⟩) s = .next (packetLevel seq .range t)) ∧
    ((p.length < 5 ∨ (n ≤ 4096 ∧ n % 4 = 0 ∧ p.length < whole)) → ∃ u, exec (.writePkt ⟨x, p⟩) s = .next u ∧
      u.host = (packetLevel seq .badCrc t).host ∧ u.sec = (packetLevel seq .badCrc t).sec ∧ u.flt.written ≤ s.flt.written + 1) ∧
    (5 ≤ p.length → n ≤ 4096 → n % 4 = 0 → whole ≤ p.length →
      crc16 ((p.drop 1).take (4 + n)) ≠ bytesNat ((p.drop (5 + n)).take 2) →
      exec (.writePkt ⟨x, p⟩) s = .next (packetLevel seq .badCrc t))) ∧
  (∀ (s : State) (x : Xfer) (p : List Byte) (n : Nat) (type seq : BitVec 8), addressed x s = true → x.code = 0x5A → unread s < 4 →
    s.power.st = .run → beatUpset 5 s = none → s.cp.lock = none → p.head? = some 0xA5 → n = bytesNat ((p.drop 3).take 2) →
    type = p.getD 1 0 → seq = p.getD 2 0 → n ≤ 4096 → n % 4 = 0 → 7 + n + (if type.getLsbD 7 then 16 else 0) ≤ p.length →
    crc16 ((p.drop 1).take (4 + n)) = bytesNat ((p.drop (5 + n)).take 2) →
    let t := sendBytes (1 + p.length) 0 [] s
    let again := match s.host.stored with
      | some r => { t with host := { t.host with responses := t.host.responses ++ [r] } }
      | none => t
    let refuse := raiseIrq irqSecurity { t with
      host := { t.host with responses := t.host.responses ++ [plainPacket 0x02 seq (wordsBytes [statusWord 0xFF .notAuthenticated 0])] }
      sec := { s.sec with tagFails := min 255 (s.sec.tagFails + 1) } }
    (type ≠ 0x01 → type ≠ 0x81 → exec (.writePkt ⟨x, p⟩) s = .next (packetLevel seq .unsupported t)) ∧
    (type = 0x81 → s.sec.session = none → exec (.writePkt ⟨x, p⟩) s = .next refuse) ∧
    (∀ y, type = 0x81 → s.sec.session = some y → tagOk y y.cHd p n = false →
      (s.host.lastSeq = some seq → 0 < y.cHd → tagOk y (y.cHd - 1) p n = true → exec (.writePkt ⟨x, p⟩) s = .next again) ∧
      ((s.host.lastSeq ≠ some seq ∨ y.cHd = 0 ∨ tagOk y (y.cHd - 1) p n = false) → exec (.writePkt ⟨x, p⟩) s = .next refuse)) ∧
    (∀ y, type = 0x81 → s.sec.session = some y → tagOk y y.cHd p n = true → (s.host.seqFree = true ∨ seq = s.host.expSeq) →
      bit s.power.wdt 30 = false → exec (.writePkt ⟨x, p⟩) s = .next { t with
        host := { t.host with
          expSeq := seq + 1, seqFree := false, lastSeq := some seq, stored := none
          accepted := s.host.accepted ++ [⟨true, seq, bytesWords (gcmText y.kHd (packetIv 1 y.cHd) ((p.drop 5).take n))⟩] }
        sec := { s.sec with session := some { y with cHd := y.cHd + 1 } } }) ∧
    ((type = 0x01 ∨ ∃ y, type = 0x81 ∧ s.sec.session = some y ∧ tagOk y y.cHd p n = true) → s.host.seqFree = false →
      seq ≠ s.host.expSeq →
      (s.host.lastSeq = some seq → exec (.writePkt ⟨x, p⟩) s = .next again) ∧
      (s.host.lastSeq ≠ some seq → exec (.writePkt ⟨x, p⟩) s = .next (packetLevel seq .seqError t)))) ∧
  (∀ (s : State) (seq : BitVec 8) (c : Status),
    (s.sec.session = none → packetLevel seq c s = { s with host := { s.host with
      responses := s.host.responses ++ [plainPacket 0x02 seq (wordsBytes [toWord (0xFF000000 + c.code * 65536)])] } }) ∧
    (∀ y, s.sec.session = some y → packetLevel seq c s = { s with
      host := { s.host with
        responses := s.host.responses ++ [sealedPacket y seq (wordsBytes [toWord (0xFF000000 + c.code * 65536)])] }
      sec := { s.sec with session := some { y with cDh := y.cDh + 1 } } })) ∧
  (∀ (s : State) (x : Xfer) (n : Nat), addressed x s = true → x.code = 0x5B →
    (s.host.responses = [] → exec (.readPkt ⟨x, n⟩) s = .next (sendBytes 2 n [] s)) ∧
    (∀ r rs, s.host.responses = r :: rs → beatUpset 5 s = none → s.cp.lock = none →
      (r.length ≤ n → exec (.readPkt ⟨x, n⟩) s = .next (sendBytes 2 n r { s with host := { s.host with responses := rs } })) ∧
      (n < r.length → ∃ t, exec (.readPkt ⟨x, n⟩) s = .next t ∧ t.host = (sendBytes 2 n r s).host ∧
        t.flt.written ≤ s.flt.written + 1 ∧ t = { s with host := t.host, free := t.free, flt := t.flt, irq := t.irq }))) ∧
  (∀ (s : State) (x : Xfer) (offset n m : Nat), addressed x s = true → x.code = 0x5C → s.mem.upsets = [] →
    let d := wordsBytes ((List.range n).map (fun k => winWord s (offset / 4 + k)))
    let z : List Byte := List.replicate (4 * (n % 256)) 0
    (rangeRead offset n → readWhole n m s = false →
      ∃ t, exec (.readSt offset n ⟨x, m⟩) s = .next t ∧ t.host = (sendBytes 5 m (d ++ natBytes 2 (crc16 d)) s).host ∧
        (4 * n + 2 ≤ m → t = { s with host := t.host }) ∧ t.flt.written ≤ s.flt.written + 1 ∧
        t = { s with host := t.host, free := t.free, flt := t.flt, irq := t.irq }) ∧
    (rangeRead offset n → readWhole n m s = true → ∃ t, exec (.readSt offset n ⟨x, m⟩) s = .next t ∧
      t.host.bytesOut = (sendBytes 5 m (d ++ natBytes 2 (crc16 d)) s).host.bytesOut ∧
      (offset = 16 → n = 1 → t = { s with host := t.host, irq := { s.irq with pend := 0 } })) ∧
    (¬ rangeRead offset n → exec (.readSt offset n ⟨x, m⟩) s = .next (sendBytes 5 m (z ++ natBytes 2 (crc16 z)) s))) ∧
  (∀ (s : State) (x : Xfer) (bytes : List Byte) (offset n m : Nat),
    (addressed x s = false → exec (.writePkt ⟨x, bytes⟩) s = .next s ∧ exec (.readPkt ⟨x, n⟩) s = .next s ∧
      exec (.readSt offset n ⟨x, m⟩) s = .next s) ∧
    (addressed x s = true → x.code ∉ [0x5A, 0x5B, 0x5C] →
      exec (.writePkt ⟨x, bytes⟩) s = .next (sendBytes (1 + bytes.length) 0 [] s) ∧
      exec (.readPkt ⟨x, n⟩) s = .next (sendBytes 2 n [] s) ∧ exec (.readSt offset n ⟨x, m⟩) s = .next (sendBytes 5 m [] s))) ∧
  (∀ (s : State) (p : Packet) (ps : List Packet) (w : Word) (ops : List Word) (r : CmdRow), cpServes s = true →
    packetHeld s = false → s.host.accepted = p :: ps → p.words = w :: ops → ops.length = fld w 15 0 →
    rowAt (fld w 31 24) = some r → fld w 31 24 ≠ 0x02 → fld w 31 24 ≠ 0xB0 →
    let s0 := { s with host := { s.host with accepted := ps, building := [] } }
    let x := runRow r (cmdArgs p.sess w ops) s0
    s.sec.session = none → x.s.sec.session = none →
    let m := plainPacket 0x02 p.seq (wordsBytes (statusWord (fld w 31 24) x.st x.res.length :: x.res))
    r.op = fld w 31 24 ∧ exec .packetExecute s = .next { x.s with
      pending := s.pending
      host := { x.s.host with responses := x.s.host.responses ++ [m], stored := some m, building := [] } }) ∧
  (∀ (s : State) (p : Packet) (ps : List Packet) (w : Word) (ops : List Word) (r : CmdRow) (y : Session), cpServes s = true →
    packetHeld s = false → s.host.accepted = p :: ps → p.words = w :: ops → ops.length = fld w 15 0 →
    rowAt (fld w 31 24) = some r → fld w 31 24 ≠ 0x02 → fld w 31 24 ≠ 0xB0 →
    let s0 := { s with host := { s.host with accepted := ps, building := [] } }
    let x := runRow r (cmdArgs p.sess w ops) s0
    x.s.sec.session = some y →
    let m := sealedPacket y p.seq (wordsBytes (statusWord (fld w 31 24) x.st x.res.length :: x.res))
    exec .packetExecute s = .next { x.s with
      pending := s.pending
      sec := { x.s.sec with session := some { y with cDh := y.cDh + 1 } }
      host := { x.s.host with responses := x.s.host.responses ++ [m], stored := some m, building := [] } }) ∧
  (∀ s : State, s.host.accepted = [] → exec .packetExecute s = .next s) ∧
  (∀ (a : CmdArgs) (s : State), Admitted rowNop a s → exec (.nop a) s = .next (answered 0x00 .ok [] s)) ∧
  (∀ (a : CmdArgs) (s : State), Admitted rowDevInfo a s →
    exec (.devInfo a) s = .next (answered 0x01 .ok [0x00003234, 0x000000A1, s.power.fwVersion, 0x00010000] s)) ∧
  (∀ (a : CmdArgs) (s : State), Admitted rowIrqMask a s → resv (opnd a 0) 0x3FFFF = false →
    exec (.irqMask a) s = .next (answered 0x04 .ok [] { s with irq := { s.irq with mask := setBit (opnd a 0) 10 true } }))

/-- A step runs the command at the front of the queue with the queue's rest; on an empty queue the block idles (the model's choice,
log entry 1). -/
def Obligations.StepRunsFrontCommand : Prop :=
  (∀ (c : Instr) (rest : List Instr) (s : State), step { s with pending := c :: rest } = exec c { s with pending := rest }) ∧
  (∀ s : State, s.pending = [] → step s = .next s)

/-- No command touches the queue: when a command answers a next state, the waiting commands are those that waited. -/
def Obligations.QueueUntouched : Prop :=
  ∀ (c : Instr) (s t : State), exec c s = .next t → t.pending = s.pending

/-- nIRQ (R80): while VAON is present it is driven low exactly while ST_IRQ_PENDING AND ST_IRQ_MASK is not zero. -/
def Obligations.InterruptRequest : Prop :=
  ∀ s : State, s.power.st ≠ .off → (nIrqLow s = true ↔ ∃ i < 32, bit (stIrq s) i = true ∧ bit s.irq.mask i = true)

/-- The epoch (R74): ST_SET.EPOCH shows it; a swap that takes effect increments it modulo 65,536; and whatever else a command does,
it changes it only by a reset of R69, to 0: a reset command or event, the commit of HIBERNATE, or a packet that holds RESET.SOFT.
That HIBERNATE's loss of both sets takes the epoch with them is read from Table 11.13. -/
def Obligations.EpochRule : Prop :=
  (∀ s : State, fld (stSet s) 15 0 = s.sets.epoch % 65536) ∧
  (∀ (s : State) (r : SwapReq), s.sets.swap = some r → r.armed = false → audioRuns s = true → commonBoundary s = true →
    oldEpochLeft s = false → ∃ t, exec .swapTakeEffect s = .next t ∧ t.sets.epoch = (s.sets.epoch + 1) % 65536) ∧
  (∀ (c : Instr) (s t : State), exec c s = .next t →
    t.sets.epoch = s.sets.epoch ∨
    (c = .swapTakeEffect ∧ t.sets.epoch = (s.sets.epoch + 1) % 65536 ∧ (∃ r, s.sets.swap = some r ∧ r.armed = false) ∧
      audioRuns s = true ∧ commonBoundary s = true ∧ oldEpochLeft s = false) ∨
    (t.sets.epoch = 0 ∧ ((∃ a, c = .resetSoft a) ∨
      c ∈ [.watchdogExpiry, .pinReset, .brownOut, .powerOnReset, .vaonLoss] ∨
      (c = .sleepCommit ∧ ∃ e, s.power.entry = some e ∧ e.target = 6) ∨
      (c = .packetExecute ∧ ∃ p ps w, s.host.accepted = p :: ps ∧ w ∈ p.words ∧ fld w 31 24 = 0x02))))

/-- The policy (R63): in a packet of type 0x01, a command marked K under OPEN, and every command but NOP, DEV.INFO and SESSION.OPEN
under CLOSED, reports NOT_AUTHENTICATED with no effect (once the checks before this one pass, R487); no other command is held
by it; and ST_STATE.POLICY shows the policy. -/
def Obligations.PolicyRule : Prop :=
  (∀ s : State, bit (stState s) 5 = s.sec.otp.policy) ∧
  ∀ (w : Word) (rest : List Word) (s : State) (r : CmdRow), rowAt (fld w 31 24) = some r → fld w 15 0 ≤ rest.length →
    let a := cmdArgs false w (rest.take (fld w 15 0))
    wordBad r a = false →
    (s.sec.otp.policy = false → fld w 31 24 ∈ [0xB1, 0xB2, 0xB3, 0xB4, 0xB5, 0xB6] →
      runCommand false w rest s = ⟨.notAuthenticated, s, []⟩) ∧
    (s.sec.otp.policy = true → fld w 31 24 ∉ [0x00, 0x01, 0xB0] →
      runCommand false w rest s = ⟨.notAuthenticated, s, []⟩) ∧
    (s.sec.otp.policy = false → fld w 31 24 ∉ [0xB1, 0xB2, 0xB3, 0xB4, 0xB5, 0xB6] → authOk r a s = true) ∧
    (s.sec.otp.policy = true → fld w 31 24 ∈ [0x00, 0x01, 0xB0] → authOk r a s = true)

/-- PLLB unlocked (R60): while PLLB_STATE is OFF or ACQUIRING, or PLLB relocks, every command not marked C reports BUSY and has no
effect (once the checks before this one pass, R487), and one marked C is served; HOLDOVER limits nothing. -/
def Obligations.UnlockedRule : Prop :=
  (∀ s : State, s.clk.b.gated = false → (s.clk.b.st = .locked ∨ s.clk.b.st = .holdover ∨ s.clk.b.st = .holdoverMuted) →
    pllbUnlocked s = false) ∧
  (∀ s : State, (s.clk.b.st = .off ∨ s.clk.b.st = .acquiring ∨ s.clk.b.gated = true) → pllbUnlocked s = true) ∧
  ∀ (sess : Bool) (w : Word) (rest : List Word) (s : State) (r : CmdRow), pllbUnlocked s = true →
    rowAt (fld w 31 24) = some r → fld w 15 0 ≤ rest.length →
    let a := cmdArgs sess w (rest.take (fld w 15 0))
    wordBad r a = false → authOk r a s = true → (inSafe s = false ∨ safeServes r.op s = true) →
    (fld w 31 24 ∉ [0x00, 0x01, 0x02, 0x04, 0x70, 0x71, 0x72, 0x81, 0xA0, 0xA1, 0xD0, 0xD2] →
      runCommand sess w rest s = ⟨.busy, s, []⟩) ∧
    (fld w 31 24 ∈ [0x00, 0x01, 0x02, 0x04, 0x70, 0x71, 0x72, 0x81, 0xA0, 0xA1, 0xD0, 0xD2] → notServed r a s = false)

/-- OTP (R399–R402): every step keeps OTP consistent (a revoked slot is programmed, no anti-rollback counter exceeds its 64 fuses,
MAKER and later have a programmed slot, FIELD has its certificate), and moves it only forward: no bit that is programmed or revoked
clears, and root keys, certificate, XREF_FREQ and factory copy keep their words once programmed. -/
def Obligations.OtpKept : Prop :=
  ∀ s t : State, step s = .next t → OtpForward s.sec.otp t.sec.otp ∧ (OtpSound s.sec.otp → OtpSound t.sec.otp)

/-- Memory and status: every step keeps the canonical form of the memories (addresses strictly rising, no entry that reads as an
unlisted one does), EN_WAKE_FAULT of ST_IRQ_MASK at 1, and the fault log within its 64 entries (Table 2.13, R436). -/
def Obligations.MemoryAndStatusKept : Prop :=
  ∀ s t : State, step s = .next t →
    (MemSound s → MemSound t) ∧ (bit s.irq.mask 10 = true → bit t.irq.mask 10 = true) ∧
    (s.flt.log.length ≤ 64 → t.flt.log.length ≤ 64)
end

