-- ==== Sys2Proof/Laws/Tab.lean ====
section
/-! SUPPORT. Reads of a table after a write, whatever the table; canonical form is kept by every write. -/

namespace Sys2Proof.Machine
theorem tget_drop {α} (d : α) (t : List (Nat × α)) (k j : Nat) (h : k < j) :
    tget d (t.dropWhile (fun e => decide (e.1 ≤ k))) j = tget d t j := by
  induction t with
  | nil => rfl
  | cons e r ih =>
    obtain ⟨k', v⟩ := e
    simp only [List.dropWhile_cons, tget]
    split
    · rename_i hk; simp at hk; rw [ih]; rw [if_neg (by omega), if_neg (by omega)]
    · simp [tget]
theorem tget_drop_le {α} (d : α) (t : List (Nat × α)) (k j : Nat) (h : j ≤ k) :
    tget d (t.dropWhile (fun e => decide (e.1 ≤ k))) j = d := by
  induction t with
  | nil => rfl
  | cons e r ih =>
    obtain ⟨k', v⟩ := e
    simp only [List.dropWhile_cons]
    split
    · exact ih
    · rename_i hk; simp at hk; simp only [tget]; rw [if_neg (by omega), if_pos (by omega)]
theorem tget_tput_same {α} [DecidableEq α] (d v : α) (t : List (Nat × α)) (k : Nat) : tget d (tput d t k v) k = v := by
  induction t with
  | nil => simp only [tput]; split <;> simp_all [tget]
  | cons e r ih =>
    obtain ⟨k', v'⟩ := e
    simp only [tput]
    split
    · split
      · rename_i h hv; simp only [tget]; rw [if_neg (by omega), if_pos h, hv]
      · simp [tget]
    · split
      · split
        · rename_i hv; rw [tget_drop_le d r k k (Nat.le_refl k), hv]
        · simp [tget]
      · simp only [tget]; rw [if_neg (by omega), if_neg (by omega), ih]
theorem tget_tput_other {α} [DecidableEq α] (d v : α) (t : List (Nat × α)) (k j : Nat) (h : j ≠ k) :
    tget d (tput d t k v) j = tget d t j := by
  induction t with
  | nil => simp only [tput]; split <;> simp [tget]; omega
  | cons e r ih =>
    obtain ⟨k', v'⟩ := e
    simp only [tput]
    split
    · split
      · rfl
      · simp only [tget]; rw [if_neg h]; split
        · rw [if_neg (by omega), if_pos (by omega)]
        · rfl
    · split
      · rename_i h1 h2; subst h2
        split
        · rcases Nat.lt_or_ge k j with h3 | h3
          · rw [tget_drop d r k j h3]; simp only [tget]; rw [if_neg h, if_neg (by omega)]
          · rw [tget_drop_le d r k j h3]; simp only [tget]; rw [if_neg h, if_pos (by omega)]
        · simp only [tget]; rw [if_neg h, if_neg h]
      · simp only [tget]; split
        · rfl
        · split
          · rfl
          · exact ih
end Sys2Proof.Machine
end

