-- ==== Sys2Proof/Laws/State.lean ====
section
/-! SUPPORT. What each named update of State leaves alone, field by field, and what its accessor reads afterwards. -/

namespace Sys2Proof.Machine

/-- The entry a detected error writes (Tables 13.3, 13.4). -/
def faultEntry (c i : Nat) (d0 d1 : Word) (s : State) : FaultEntry :=
  ⟨toWord (c * 2 ^ 24 + (enqueueTest (8 + b2n s.flt.testing) c (siteOf c i) s.flt.tests).1 * 2 ^ 20 + testOf c * 2 ^ 16 + s.flt.written % 16384),
    toWord (s.tb.count / 2 ^ 30), d0, d1, siteOf c i, s.tb.count⟩

/-- All that logging an error does. -/
theorem logFault_eq (c i : Nat) (d0 d1 : Word) (s : State) : logFault c i d0 d1 s = raiseIrq irqFault { s with
    flt := { pushEntry (faultEntry c i d0 d1 s) s.flt with tests := (enqueueTest (8 + b2n s.flt.testing) c (siteOf c i) s.flt.tests).2 } } := by
  rcases h : enqueueTest (8 + b2n s.flt.testing) c (siteOf c i) s.flt.tests with ⟨cl, q⟩
  simp only [logFault, faultEntry, h]

@[simp] theorem raiseIrq_pending (i : Nat) (s : State) : (raiseIrq i s).pending = s.pending := rfl
@[simp] theorem raiseIrq_free (i : Nat) (s : State) : (raiseIrq i s).free = s.free := rfl
@[simp] theorem raiseIrq_tb (i : Nat) (s : State) : (raiseIrq i s).tb = s.tb := rfl
@[simp] theorem raiseIrq_host (i : Nat) (s : State) : (raiseIrq i s).host = s.host := rfl
@[simp] theorem raiseIrq_deferred (i : Nat) (s : State) : (raiseIrq i s).deferred = s.deferred := rfl
@[simp] theorem raiseIrq_sets (i : Nat) (s : State) : (raiseIrq i s).sets = s.sets := rfl
@[simp] theorem raiseIrq_fe (i : Nat) (s : State) : (raiseIrq i s).fe = s.fe := rfl
@[simp] theorem raiseIrq_cal (i : Nat) (s : State) : (raiseIrq i s).cal = s.cal := rfl
@[simp] theorem raiseIrq_filt (i : Nat) (s : State) : (raiseIrq i s).filt = s.filt := rfl
@[simp] theorem raiseIrq_mtx (i : Nat) (s : State) : (raiseIrq i s).mtx = s.mtx := rfl
@[simp] theorem raiseIrq_mr (i : Nat) (s : State) : (raiseIrq i s).mr = s.mr := rfl
@[simp] theorem raiseIrq_panic (i : Nat) (s : State) : (raiseIrq i s).panic = s.panic := rfl
@[simp] theorem raiseIrq_flows (i : Nat) (s : State) : (raiseIrq i s).flows = s.flows := rfl
@[simp] theorem raiseIrq_ports (i : Nat) (s : State) : (raiseIrq i s).ports = s.ports := rfl
@[simp] theorem raiseIrq_outs (i : Nat) (s : State) : (raiseIrq i s).outs = s.outs := rfl
@[simp] theorem raiseIrq_jack (i : Nat) (s : State) : (raiseIrq i s).jack = s.jack := rfl
@[simp] theorem raiseIrq_sense (i : Nat) (s : State) : (raiseIrq i s).sense = s.sense := rfl
@[simp] theorem raiseIrq_clk (i : Nat) (s : State) : (raiseIrq i s).clk = s.clk := rfl
@[simp] theorem raiseIrq_power (i : Nat) (s : State) : (raiseIrq i s).power = s.power := rfl
@[simp] theorem raiseIrq_cores (i : Nat) (s : State) : (raiseIrq i s).cores = s.cores := rfl
@[simp] theorem raiseIrq_cp (i : Nat) (s : State) : (raiseIrq i s).cp = s.cp := rfl
@[simp] theorem raiseIrq_mem (i : Nat) (s : State) : (raiseIrq i s).mem = s.mem := rfl
@[simp] theorem raiseIrq_sec (i : Nat) (s : State) : (raiseIrq i s).sec = s.sec := rfl
@[simp] theorem raiseIrq_seals (i : Nat) (s : State) : (raiseIrq i s).seals = s.seals := rfl
@[simp] theorem raiseIrq_flt (i : Nat) (s : State) : (raiseIrq i s).flt = s.flt := rfl
@[simp] theorem raiseIrq_margin (i : Nat) (s : State) : (raiseIrq i s).margin = s.margin := rfl
@[simp] theorem raiseIrq_pins (i : Nat) (s : State) : (raiseIrq i s).pins = s.pins := rfl

@[simp] theorem raiseIf_pending (b : Bool) (i : Nat) (s : State) : (raiseIf b i s).pending = s.pending := by cases b <;> rfl
@[simp] theorem raiseIf_free (b : Bool) (i : Nat) (s : State) : (raiseIf b i s).free = s.free := by cases b <;> rfl
@[simp] theorem raiseIf_tb (b : Bool) (i : Nat) (s : State) : (raiseIf b i s).tb = s.tb := by cases b <;> rfl
@[simp] theorem raiseIf_host (b : Bool) (i : Nat) (s : State) : (raiseIf b i s).host = s.host := by cases b <;> rfl
@[simp] theorem raiseIf_deferred (b : Bool) (i : Nat) (s : State) : (raiseIf b i s).deferred = s.deferred := by cases b <;> rfl
@[simp] theorem raiseIf_sets (b : Bool) (i : Nat) (s : State) : (raiseIf b i s).sets = s.sets := by cases b <;> rfl
@[simp] theorem raiseIf_fe (b : Bool) (i : Nat) (s : State) : (raiseIf b i s).fe = s.fe := by cases b <;> rfl
@[simp] theorem raiseIf_cal (b : Bool) (i : Nat) (s : State) : (raiseIf b i s).cal = s.cal := by cases b <;> rfl
@[simp] theorem raiseIf_filt (b : Bool) (i : Nat) (s : State) : (raiseIf b i s).filt = s.filt := by cases b <;> rfl
@[simp] theorem raiseIf_mtx (b : Bool) (i : Nat) (s : State) : (raiseIf b i s).mtx = s.mtx := by cases b <;> rfl
@[simp] theorem raiseIf_mr (b : Bool) (i : Nat) (s : State) : (raiseIf b i s).mr = s.mr := by cases b <;> rfl
@[simp] theorem raiseIf_panic (b : Bool) (i : Nat) (s : State) : (raiseIf b i s).panic = s.panic := by cases b <;> rfl
@[simp] theorem raiseIf_flows (b : Bool) (i : Nat) (s : State) : (raiseIf b i s).flows = s.flows := by cases b <;> rfl
@[simp] theorem raiseIf_ports (b : Bool) (i : Nat) (s : State) : (raiseIf b i s).ports = s.ports := by cases b <;> rfl
@[simp] theorem raiseIf_outs (b : Bool) (i : Nat) (s : State) : (raiseIf b i s).outs = s.outs := by cases b <;> rfl
@[simp] theorem raiseIf_jack (b : Bool) (i : Nat) (s : State) : (raiseIf b i s).jack = s.jack := by cases b <;> rfl
@[simp] theorem raiseIf_sense (b : Bool) (i : Nat) (s : State) : (raiseIf b i s).sense = s.sense := by cases b <;> rfl
@[simp] theorem raiseIf_clk (b : Bool) (i : Nat) (s : State) : (raiseIf b i s).clk = s.clk := by cases b <;> rfl
@[simp] theorem raiseIf_power (b : Bool) (i : Nat) (s : State) : (raiseIf b i s).power = s.power := by cases b <;> rfl
@[simp] theorem raiseIf_cores (b : Bool) (i : Nat) (s : State) : (raiseIf b i s).cores = s.cores := by cases b <;> rfl
@[simp] theorem raiseIf_cp (b : Bool) (i : Nat) (s : State) : (raiseIf b i s).cp = s.cp := by cases b <;> rfl
@[simp] theorem raiseIf_mem (b : Bool) (i : Nat) (s : State) : (raiseIf b i s).mem = s.mem := by cases b <;> rfl
@[simp] theorem raiseIf_sec (b : Bool) (i : Nat) (s : State) : (raiseIf b i s).sec = s.sec := by cases b <;> rfl
@[simp] theorem raiseIf_seals (b : Bool) (i : Nat) (s : State) : (raiseIf b i s).seals = s.seals := by cases b <;> rfl
@[simp] theorem raiseIf_flt (b : Bool) (i : Nat) (s : State) : (raiseIf b i s).flt = s.flt := by cases b <;> rfl
@[simp] theorem raiseIf_margin (b : Bool) (i : Nat) (s : State) : (raiseIf b i s).margin = s.margin := by cases b <;> rfl
@[simp] theorem raiseIf_pins (b : Bool) (i : Nat) (s : State) : (raiseIf b i s).pins = s.pins := by cases b <;> rfl

@[simp] theorem logFault_pending (c i : Nat) (d0 d1 : Word) (s : State) : (logFault c i d0 d1 s).pending = s.pending := by simp only [logFault_eq, raiseIrq]
@[simp] theorem logFault_free (c i : Nat) (d0 d1 : Word) (s : State) : (logFault c i d0 d1 s).free = s.free := by simp only [logFault_eq, raiseIrq]
@[simp] theorem logFault_tb (c i : Nat) (d0 d1 : Word) (s : State) : (logFault c i d0 d1 s).tb = s.tb := by simp only [logFault_eq, raiseIrq]
@[simp] theorem logFault_host (c i : Nat) (d0 d1 : Word) (s : State) : (logFault c i d0 d1 s).host = s.host := by simp only [logFault_eq, raiseIrq]
@[simp] theorem logFault_deferred (c i : Nat) (d0 d1 : Word) (s : State) : (logFault c i d0 d1 s).deferred = s.deferred := by simp only [logFault_eq, raiseIrq]
@[simp] theorem logFault_sets (c i : Nat) (d0 d1 : Word) (s : State) : (logFault c i d0 d1 s).sets = s.sets := by simp only [logFault_eq, raiseIrq]
@[simp] theorem logFault_fe (c i : Nat) (d0 d1 : Word) (s : State) : (logFault c i d0 d1 s).fe = s.fe := by simp only [logFault_eq, raiseIrq]
@[simp] theorem logFault_cal (c i : Nat) (d0 d1 : Word) (s : State) : (logFault c i d0 d1 s).cal = s.cal := by simp only [logFault_eq, raiseIrq]
@[simp] theorem logFault_filt (c i : Nat) (d0 d1 : Word) (s : State) : (logFault c i d0 d1 s).filt = s.filt := by simp only [logFault_eq, raiseIrq]
@[simp] theorem logFault_mtx (c i : Nat) (d0 d1 : Word) (s : State) : (logFault c i d0 d1 s).mtx = s.mtx := by simp only [logFault_eq, raiseIrq]
@[simp] theorem logFault_mr (c i : Nat) (d0 d1 : Word) (s : State) : (logFault c i d0 d1 s).mr = s.mr := by simp only [logFault_eq, raiseIrq]
@[simp] theorem logFault_panic (c i : Nat) (d0 d1 : Word) (s : State) : (logFault c i d0 d1 s).panic = s.panic := by simp only [logFault_eq, raiseIrq]
@[simp] theorem logFault_flows (c i : Nat) (d0 d1 : Word) (s : State) : (logFault c i d0 d1 s).flows = s.flows := by simp only [logFault_eq, raiseIrq]
@[simp] theorem logFault_ports (c i : Nat) (d0 d1 : Word) (s : State) : (logFault c i d0 d1 s).ports = s.ports := by simp only [logFault_eq, raiseIrq]
@[simp] theorem logFault_outs (c i : Nat) (d0 d1 : Word) (s : State) : (logFault c i d0 d1 s).outs = s.outs := by simp only [logFault_eq, raiseIrq]
@[simp] theorem logFault_jack (c i : Nat) (d0 d1 : Word) (s : State) : (logFault c i d0 d1 s).jack = s.jack := by simp only [logFault_eq, raiseIrq]
@[simp] theorem logFault_sense (c i : Nat) (d0 d1 : Word) (s : State) : (logFault c i d0 d1 s).sense = s.sense := by simp only [logFault_eq, raiseIrq]
@[simp] theorem logFault_clk (c i : Nat) (d0 d1 : Word) (s : State) : (logFault c i d0 d1 s).clk = s.clk := by simp only [logFault_eq, raiseIrq]
@[simp] theorem logFault_power (c i : Nat) (d0 d1 : Word) (s : State) : (logFault c i d0 d1 s).power = s.power := by simp only [logFault_eq, raiseIrq]
@[simp] theorem logFault_cores (c i : Nat) (d0 d1 : Word) (s : State) : (logFault c i d0 d1 s).cores = s.cores := by simp only [logFault_eq, raiseIrq]
@[simp] theorem logFault_cp (c i : Nat) (d0 d1 : Word) (s : State) : (logFault c i d0 d1 s).cp = s.cp := by simp only [logFault_eq, raiseIrq]
@[simp] theorem logFault_mem (c i : Nat) (d0 d1 : Word) (s : State) : (logFault c i d0 d1 s).mem = s.mem := by simp only [logFault_eq, raiseIrq]
@[simp] theorem logFault_sec (c i : Nat) (d0 d1 : Word) (s : State) : (logFault c i d0 d1 s).sec = s.sec := by simp only [logFault_eq, raiseIrq]
@[simp] theorem logFault_seals (c i : Nat) (d0 d1 : Word) (s : State) : (logFault c i d0 d1 s).seals = s.seals := by simp only [logFault_eq, raiseIrq]
@[simp] theorem logFault_margin (c i : Nat) (d0 d1 : Word) (s : State) : (logFault c i d0 d1 s).margin = s.margin := by simp only [logFault_eq, raiseIrq]
@[simp] theorem logFault_pins (c i : Nat) (d0 d1 : Word) (s : State) : (logFault c i d0 d1 s).pins = s.pins := by simp only [logFault_eq, raiseIrq]

@[simp] theorem logLasting_pending (c i t : Nat) (d0 d1 : Word) (s : State) : (logLasting c i t d0 d1 s).pending = s.pending := by simp only [logLasting, raiseIrq]
@[simp] theorem logLasting_free (c i t : Nat) (d0 d1 : Word) (s : State) : (logLasting c i t d0 d1 s).free = s.free := by simp only [logLasting, raiseIrq]
@[simp] theorem logLasting_tb (c i t : Nat) (d0 d1 : Word) (s : State) : (logLasting c i t d0 d1 s).tb = s.tb := by simp only [logLasting, raiseIrq]
@[simp] theorem logLasting_host (c i t : Nat) (d0 d1 : Word) (s : State) : (logLasting c i t d0 d1 s).host = s.host := by simp only [logLasting, raiseIrq]
@[simp] theorem logLasting_deferred (c i t : Nat) (d0 d1 : Word) (s : State) : (logLasting c i t d0 d1 s).deferred = s.deferred := by simp only [logLasting, raiseIrq]
@[simp] theorem logLasting_sets (c i t : Nat) (d0 d1 : Word) (s : State) : (logLasting c i t d0 d1 s).sets = s.sets := by simp only [logLasting, raiseIrq]
@[simp] theorem logLasting_fe (c i t : Nat) (d0 d1 : Word) (s : State) : (logLasting c i t d0 d1 s).fe = s.fe := by simp only [logLasting, raiseIrq]
@[simp] theorem logLasting_cal (c i t : Nat) (d0 d1 : Word) (s : State) : (logLasting c i t d0 d1 s).cal = s.cal := by simp only [logLasting, raiseIrq]
@[simp] theorem logLasting_filt (c i t : Nat) (d0 d1 : Word) (s : State) : (logLasting c i t d0 d1 s).filt = s.filt := by simp only [logLasting, raiseIrq]
@[simp] theorem logLasting_mtx (c i t : Nat) (d0 d1 : Word) (s : State) : (logLasting c i t d0 d1 s).mtx = s.mtx := by simp only [logLasting, raiseIrq]
@[simp] theorem logLasting_mr (c i t : Nat) (d0 d1 : Word) (s : State) : (logLasting c i t d0 d1 s).mr = s.mr := by simp only [logLasting, raiseIrq]
@[simp] theorem logLasting_panic (c i t : Nat) (d0 d1 : Word) (s : State) : (logLasting c i t d0 d1 s).panic = s.panic := by simp only [logLasting, raiseIrq]
@[simp] theorem logLasting_flows (c i t : Nat) (d0 d1 : Word) (s : State) : (logLasting c i t d0 d1 s).flows = s.flows := by simp only [logLasting, raiseIrq]
@[simp] theorem logLasting_ports (c i t : Nat) (d0 d1 : Word) (s : State) : (logLasting c i t d0 d1 s).ports = s.ports := by simp only [logLasting, raiseIrq]
@[simp] theorem logLasting_outs (c i t : Nat) (d0 d1 : Word) (s : State) : (logLasting c i t d0 d1 s).outs = s.outs := by simp only [logLasting, raiseIrq]
@[simp] theorem logLasting_jack (c i t : Nat) (d0 d1 : Word) (s : State) : (logLasting c i t d0 d1 s).jack = s.jack := by simp only [logLasting, raiseIrq]
@[simp] theorem logLasting_sense (c i t : Nat) (d0 d1 : Word) (s : State) : (logLasting c i t d0 d1 s).sense = s.sense := by simp only [logLasting, raiseIrq]
@[simp] theorem logLasting_clk (c i t : Nat) (d0 d1 : Word) (s : State) : (logLasting c i t d0 d1 s).clk = s.clk := by simp only [logLasting, raiseIrq]
@[simp] theorem logLasting_power (c i t : Nat) (d0 d1 : Word) (s : State) : (logLasting c i t d0 d1 s).power = s.power := by simp only [logLasting, raiseIrq]
@[simp] theorem logLasting_cores (c i t : Nat) (d0 d1 : Word) (s : State) : (logLasting c i t d0 d1 s).cores = s.cores := by simp only [logLasting, raiseIrq]
@[simp] theorem logLasting_cp (c i t : Nat) (d0 d1 : Word) (s : State) : (logLasting c i t d0 d1 s).cp = s.cp := by simp only [logLasting, raiseIrq]
@[simp] theorem logLasting_mem (c i t : Nat) (d0 d1 : Word) (s : State) : (logLasting c i t d0 d1 s).mem = s.mem := by simp only [logLasting, raiseIrq]
@[simp] theorem logLasting_sec (c i t : Nat) (d0 d1 : Word) (s : State) : (logLasting c i t d0 d1 s).sec = s.sec := by simp only [logLasting, raiseIrq]
@[simp] theorem logLasting_seals (c i t : Nat) (d0 d1 : Word) (s : State) : (logLasting c i t d0 d1 s).seals = s.seals := by simp only [logLasting, raiseIrq]
@[simp] theorem logLasting_margin (c i t : Nat) (d0 d1 : Word) (s : State) : (logLasting c i t d0 d1 s).margin = s.margin := by simp only [logLasting, raiseIrq]
@[simp] theorem logLasting_pins (c i t : Nat) (d0 d1 : Word) (s : State) : (logLasting c i t d0 d1 s).pins = s.pins := by simp only [logLasting, raiseIrq]

@[simp] theorem logRow_pending (c a : Nat) (s : State) : (logRow c a s).pending = s.pending := by unfold logRow; split <;> simp only [logFault_pending]
@[simp] theorem logRow_free (c a : Nat) (s : State) : (logRow c a s).free = s.free := by unfold logRow; split <;> simp only [logFault_free]
@[simp] theorem logRow_tb (c a : Nat) (s : State) : (logRow c a s).tb = s.tb := by unfold logRow; split <;> simp only [logFault_tb]
@[simp] theorem logRow_host (c a : Nat) (s : State) : (logRow c a s).host = s.host := by unfold logRow; split <;> simp only [logFault_host]
@[simp] theorem logRow_deferred (c a : Nat) (s : State) : (logRow c a s).deferred = s.deferred := by unfold logRow; split <;> simp only [logFault_deferred]
@[simp] theorem logRow_sets (c a : Nat) (s : State) : (logRow c a s).sets = s.sets := by unfold logRow; split <;> simp only [logFault_sets]
@[simp] theorem logRow_fe (c a : Nat) (s : State) : (logRow c a s).fe = s.fe := by unfold logRow; split <;> simp only [logFault_fe]
@[simp] theorem logRow_cal (c a : Nat) (s : State) : (logRow c a s).cal = s.cal := by unfold logRow; split <;> simp only [logFault_cal]
@[simp] theorem logRow_filt (c a : Nat) (s : State) : (logRow c a s).filt = s.filt := by unfold logRow; split <;> simp only [logFault_filt]
@[simp] theorem logRow_mtx (c a : Nat) (s : State) : (logRow c a s).mtx = s.mtx := by unfold logRow; split <;> simp only [logFault_mtx]
@[simp] theorem logRow_mr (c a : Nat) (s : State) : (logRow c a s).mr = s.mr := by unfold logRow; split <;> simp only [logFault_mr]
@[simp] theorem logRow_panic (c a : Nat) (s : State) : (logRow c a s).panic = s.panic := by unfold logRow; split <;> simp only [logFault_panic]
@[simp] theorem logRow_flows (c a : Nat) (s : State) : (logRow c a s).flows = s.flows := by unfold logRow; split <;> simp only [logFault_flows]
@[simp] theorem logRow_ports (c a : Nat) (s : State) : (logRow c a s).ports = s.ports := by unfold logRow; split <;> simp only [logFault_ports]
@[simp] theorem logRow_outs (c a : Nat) (s : State) : (logRow c a s).outs = s.outs := by unfold logRow; split <;> simp only [logFault_outs]
@[simp] theorem logRow_jack (c a : Nat) (s : State) : (logRow c a s).jack = s.jack := by unfold logRow; split <;> simp only [logFault_jack]
@[simp] theorem logRow_sense (c a : Nat) (s : State) : (logRow c a s).sense = s.sense := by unfold logRow; split <;> simp only [logFault_sense]
@[simp] theorem logRow_clk (c a : Nat) (s : State) : (logRow c a s).clk = s.clk := by unfold logRow; split <;> simp only [logFault_clk]
@[simp] theorem logRow_power (c a : Nat) (s : State) : (logRow c a s).power = s.power := by unfold logRow; split <;> simp only [logFault_power]
@[simp] theorem logRow_cores (c a : Nat) (s : State) : (logRow c a s).cores = s.cores := by unfold logRow; split <;> simp only [logFault_cores]
@[simp] theorem logRow_cp (c a : Nat) (s : State) : (logRow c a s).cp = s.cp := by unfold logRow; split <;> simp only [logFault_cp]
@[simp] theorem logRow_mem (c a : Nat) (s : State) : (logRow c a s).mem = s.mem := by unfold logRow; split <;> simp only [logFault_mem]
@[simp] theorem logRow_sec (c a : Nat) (s : State) : (logRow c a s).sec = s.sec := by unfold logRow; split <;> simp only [logFault_sec]
@[simp] theorem logRow_seals (c a : Nat) (s : State) : (logRow c a s).seals = s.seals := by unfold logRow; split <;> simp only [logFault_seals]
@[simp] theorem logRow_margin (c a : Nat) (s : State) : (logRow c a s).margin = s.margin := by unfold logRow; split <;> simp only [logFault_margin]
@[simp] theorem logRow_pins (c a : Nat) (s : State) : (logRow c a s).pins = s.pins := by unfold logRow; split <;> simp only [logFault_pins]

@[simp] theorem logAbort_pending (m t c : Nat) (w : Bool) (l a : Nat) (s : State) : (logAbort m t c w l a s).pending = s.pending := by simp only [logAbort, logFault_pending]
@[simp] theorem logAbort_free (m t c : Nat) (w : Bool) (l a : Nat) (s : State) : (logAbort m t c w l a s).free = s.free := by simp only [logAbort, logFault_free]
@[simp] theorem logAbort_tb (m t c : Nat) (w : Bool) (l a : Nat) (s : State) : (logAbort m t c w l a s).tb = s.tb := by simp only [logAbort, logFault_tb]
@[simp] theorem logAbort_host (m t c : Nat) (w : Bool) (l a : Nat) (s : State) : (logAbort m t c w l a s).host = s.host := by simp only [logAbort, logFault_host]
@[simp] theorem logAbort_deferred (m t c : Nat) (w : Bool) (l a : Nat) (s : State) : (logAbort m t c w l a s).deferred = s.deferred := by simp only [logAbort, logFault_deferred]
@[simp] theorem logAbort_sets (m t c : Nat) (w : Bool) (l a : Nat) (s : State) : (logAbort m t c w l a s).sets = s.sets := by simp only [logAbort, logFault_sets]
@[simp] theorem logAbort_fe (m t c : Nat) (w : Bool) (l a : Nat) (s : State) : (logAbort m t c w l a s).fe = s.fe := by simp only [logAbort, logFault_fe]
@[simp] theorem logAbort_cal (m t c : Nat) (w : Bool) (l a : Nat) (s : State) : (logAbort m t c w l a s).cal = s.cal := by simp only [logAbort, logFault_cal]
@[simp] theorem logAbort_filt (m t c : Nat) (w : Bool) (l a : Nat) (s : State) : (logAbort m t c w l a s).filt = s.filt := by simp only [logAbort, logFault_filt]
@[simp] theorem logAbort_mtx (m t c : Nat) (w : Bool) (l a : Nat) (s : State) : (logAbort m t c w l a s).mtx = s.mtx := by simp only [logAbort, logFault_mtx]
@[simp] theorem logAbort_mr (m t c : Nat) (w : Bool) (l a : Nat) (s : State) : (logAbort m t c w l a s).mr = s.mr := by simp only [logAbort, logFault_mr]
@[simp] theorem logAbort_panic (m t c : Nat) (w : Bool) (l a : Nat) (s : State) : (logAbort m t c w l a s).panic = s.panic := by simp only [logAbort, logFault_panic]
@[simp] theorem logAbort_flows (m t c : Nat) (w : Bool) (l a : Nat) (s : State) : (logAbort m t c w l a s).flows = s.flows := by simp only [logAbort, logFault_flows]
@[simp] theorem logAbort_ports (m t c : Nat) (w : Bool) (l a : Nat) (s : State) : (logAbort m t c w l a s).ports = s.ports := by simp only [logAbort, logFault_ports]
@[simp] theorem logAbort_outs (m t c : Nat) (w : Bool) (l a : Nat) (s : State) : (logAbort m t c w l a s).outs = s.outs := by simp only [logAbort, logFault_outs]
@[simp] theorem logAbort_jack (m t c : Nat) (w : Bool) (l a : Nat) (s : State) : (logAbort m t c w l a s).jack = s.jack := by simp only [logAbort, logFault_jack]
@[simp] theorem logAbort_sense (m t c : Nat) (w : Bool) (l a : Nat) (s : State) : (logAbort m t c w l a s).sense = s.sense := by simp only [logAbort, logFault_sense]
@[simp] theorem logAbort_clk (m t c : Nat) (w : Bool) (l a : Nat) (s : State) : (logAbort m t c w l a s).clk = s.clk := by simp only [logAbort, logFault_clk]
@[simp] theorem logAbort_power (m t c : Nat) (w : Bool) (l a : Nat) (s : State) : (logAbort m t c w l a s).power = s.power := by simp only [logAbort, logFault_power]
@[simp] theorem logAbort_cores (m t c : Nat) (w : Bool) (l a : Nat) (s : State) : (logAbort m t c w l a s).cores = s.cores := by simp only [logAbort, logFault_cores]
@[simp] theorem logAbort_cp (m t c : Nat) (w : Bool) (l a : Nat) (s : State) : (logAbort m t c w l a s).cp = s.cp := by simp only [logAbort, logFault_cp]
@[simp] theorem logAbort_mem (m t c : Nat) (w : Bool) (l a : Nat) (s : State) : (logAbort m t c w l a s).mem = s.mem := by simp only [logAbort, logFault_mem]
@[simp] theorem logAbort_sec (m t c : Nat) (w : Bool) (l a : Nat) (s : State) : (logAbort m t c w l a s).sec = s.sec := by simp only [logAbort, logFault_sec]
@[simp] theorem logAbort_seals (m t c : Nat) (w : Bool) (l a : Nat) (s : State) : (logAbort m t c w l a s).seals = s.seals := by simp only [logAbort, logFault_seals]
@[simp] theorem logAbort_margin (m t c : Nat) (w : Bool) (l a : Nat) (s : State) : (logAbort m t c w l a s).margin = s.margin := by simp only [logAbort, logFault_margin]
@[simp] theorem logAbort_pins (m t c : Nat) (w : Bool) (l a : Nat) (s : State) : (logAbort m t c w l a s).pins = s.pins := by simp only [logAbort, logFault_pins]

@[simp] theorem dropUpset_pending (u : Upset) (s : State) : (dropUpset u s).pending = s.pending := rfl
@[simp] theorem dropUpset_free (u : Upset) (s : State) : (dropUpset u s).free = s.free := rfl
@[simp] theorem dropUpset_tb (u : Upset) (s : State) : (dropUpset u s).tb = s.tb := rfl
@[simp] theorem dropUpset_host (u : Upset) (s : State) : (dropUpset u s).host = s.host := rfl
@[simp] theorem dropUpset_deferred (u : Upset) (s : State) : (dropUpset u s).deferred = s.deferred := rfl
@[simp] theorem dropUpset_irq (u : Upset) (s : State) : (dropUpset u s).irq = s.irq := rfl
@[simp] theorem dropUpset_sets (u : Upset) (s : State) : (dropUpset u s).sets = s.sets := rfl
@[simp] theorem dropUpset_fe (u : Upset) (s : State) : (dropUpset u s).fe = s.fe := rfl
@[simp] theorem dropUpset_cal (u : Upset) (s : State) : (dropUpset u s).cal = s.cal := rfl
@[simp] theorem dropUpset_filt (u : Upset) (s : State) : (dropUpset u s).filt = s.filt := rfl
@[simp] theorem dropUpset_mtx (u : Upset) (s : State) : (dropUpset u s).mtx = s.mtx := rfl
@[simp] theorem dropUpset_mr (u : Upset) (s : State) : (dropUpset u s).mr = s.mr := rfl
@[simp] theorem dropUpset_panic (u : Upset) (s : State) : (dropUpset u s).panic = s.panic := rfl
@[simp] theorem dropUpset_flows (u : Upset) (s : State) : (dropUpset u s).flows = s.flows := rfl
@[simp] theorem dropUpset_ports (u : Upset) (s : State) : (dropUpset u s).ports = s.ports := rfl
@[simp] theorem dropUpset_outs (u : Upset) (s : State) : (dropUpset u s).outs = s.outs := rfl
@[simp] theorem dropUpset_jack (u : Upset) (s : State) : (dropUpset u s).jack = s.jack := rfl
@[simp] theorem dropUpset_sense (u : Upset) (s : State) : (dropUpset u s).sense = s.sense := rfl
@[simp] theorem dropUpset_clk (u : Upset) (s : State) : (dropUpset u s).clk = s.clk := rfl
@[simp] theorem dropUpset_power (u : Upset) (s : State) : (dropUpset u s).power = s.power := rfl
@[simp] theorem dropUpset_cores (u : Upset) (s : State) : (dropUpset u s).cores = s.cores := rfl
@[simp] theorem dropUpset_cp (u : Upset) (s : State) : (dropUpset u s).cp = s.cp := rfl
@[simp] theorem dropUpset_sec (u : Upset) (s : State) : (dropUpset u s).sec = s.sec := rfl
@[simp] theorem dropUpset_seals (u : Upset) (s : State) : (dropUpset u s).seals = s.seals := rfl
@[simp] theorem dropUpset_flt (u : Upset) (s : State) : (dropUpset u s).flt = s.flt := rfl
@[simp] theorem dropUpset_margin (u : Upset) (s : State) : (dropUpset u s).margin = s.margin := rfl
@[simp] theorem dropUpset_pins (u : Upset) (s : State) : (dropUpset u s).pins = s.pins := rfl

@[simp] theorem logRegister_pending (u : Site) (r : Nat) (s : State) : (logRegister u r s).pending = s.pending := by simp only [logRegister, logFault_pending, dropUpset_pending]
@[simp] theorem logRegister_free (u : Site) (r : Nat) (s : State) : (logRegister u r s).free = s.free := by simp only [logRegister, logFault_free, dropUpset_free]
@[simp] theorem logRegister_tb (u : Site) (r : Nat) (s : State) : (logRegister u r s).tb = s.tb := by simp only [logRegister, logFault_tb, dropUpset_tb]
@[simp] theorem logRegister_host (u : Site) (r : Nat) (s : State) : (logRegister u r s).host = s.host := by simp only [logRegister, logFault_host, dropUpset_host]
@[simp] theorem logRegister_deferred (u : Site) (r : Nat) (s : State) : (logRegister u r s).deferred = s.deferred := by simp only [logRegister, logFault_deferred, dropUpset_deferred]
@[simp] theorem logRegister_sets (u : Site) (r : Nat) (s : State) : (logRegister u r s).sets = s.sets := by simp only [logRegister, logFault_sets, dropUpset_sets]
@[simp] theorem logRegister_fe (u : Site) (r : Nat) (s : State) : (logRegister u r s).fe = s.fe := by simp only [logRegister, logFault_fe, dropUpset_fe]
@[simp] theorem logRegister_cal (u : Site) (r : Nat) (s : State) : (logRegister u r s).cal = s.cal := by simp only [logRegister, logFault_cal, dropUpset_cal]
@[simp] theorem logRegister_filt (u : Site) (r : Nat) (s : State) : (logRegister u r s).filt = s.filt := by simp only [logRegister, logFault_filt, dropUpset_filt]
@[simp] theorem logRegister_mtx (u : Site) (r : Nat) (s : State) : (logRegister u r s).mtx = s.mtx := by simp only [logRegister, logFault_mtx, dropUpset_mtx]
@[simp] theorem logRegister_mr (u : Site) (r : Nat) (s : State) : (logRegister u r s).mr = s.mr := by simp only [logRegister, logFault_mr, dropUpset_mr]
@[simp] theorem logRegister_panic (u : Site) (r : Nat) (s : State) : (logRegister u r s).panic = s.panic := by simp only [logRegister, logFault_panic, dropUpset_panic]
@[simp] theorem logRegister_flows (u : Site) (r : Nat) (s : State) : (logRegister u r s).flows = s.flows := by simp only [logRegister, logFault_flows, dropUpset_flows]
@[simp] theorem logRegister_ports (u : Site) (r : Nat) (s : State) : (logRegister u r s).ports = s.ports := by simp only [logRegister, logFault_ports, dropUpset_ports]
@[simp] theorem logRegister_outs (u : Site) (r : Nat) (s : State) : (logRegister u r s).outs = s.outs := by simp only [logRegister, logFault_outs, dropUpset_outs]
@[simp] theorem logRegister_jack (u : Site) (r : Nat) (s : State) : (logRegister u r s).jack = s.jack := by simp only [logRegister, logFault_jack, dropUpset_jack]
@[simp] theorem logRegister_sense (u : Site) (r : Nat) (s : State) : (logRegister u r s).sense = s.sense := by simp only [logRegister, logFault_sense, dropUpset_sense]
@[simp] theorem logRegister_clk (u : Site) (r : Nat) (s : State) : (logRegister u r s).clk = s.clk := by simp only [logRegister, logFault_clk, dropUpset_clk]
@[simp] theorem logRegister_power (u : Site) (r : Nat) (s : State) : (logRegister u r s).power = s.power := by simp only [logRegister, logFault_power, dropUpset_power]
@[simp] theorem logRegister_cores (u : Site) (r : Nat) (s : State) : (logRegister u r s).cores = s.cores := by simp only [logRegister, logFault_cores, dropUpset_cores]
@[simp] theorem logRegister_cp (u : Site) (r : Nat) (s : State) : (logRegister u r s).cp = s.cp := by simp only [logRegister, logFault_cp, dropUpset_cp]
@[simp] theorem logRegister_sec (u : Site) (r : Nat) (s : State) : (logRegister u r s).sec = s.sec := by simp only [logRegister, logFault_sec, dropUpset_sec]
@[simp] theorem logRegister_seals (u : Site) (r : Nat) (s : State) : (logRegister u r s).seals = s.seals := by simp only [logRegister, logFault_seals, dropUpset_seals]
@[simp] theorem logRegister_margin (u : Site) (r : Nat) (s : State) : (logRegister u r s).margin = s.margin := by simp only [logRegister, logFault_margin, dropUpset_margin]
@[simp] theorem logRegister_pins (u : Site) (r : Nat) (s : State) : (logRegister u r s).pins = s.pins := by simp only [logRegister, logFault_pins, dropUpset_pins]

@[simp] theorem logLane_pending (o : Bool) (n : Nat) (w : Word) (s : State) : (logLane o n w s).pending = s.pending := by simp only [logLane, logFault_pending]
@[simp] theorem logLane_free (o : Bool) (n : Nat) (w : Word) (s : State) : (logLane o n w s).free = s.free := by simp only [logLane, logFault_free]
@[simp] theorem logLane_tb (o : Bool) (n : Nat) (w : Word) (s : State) : (logLane o n w s).tb = s.tb := by simp only [logLane, logFault_tb]
@[simp] theorem logLane_host (o : Bool) (n : Nat) (w : Word) (s : State) : (logLane o n w s).host = s.host := by simp only [logLane, logFault_host]
@[simp] theorem logLane_deferred (o : Bool) (n : Nat) (w : Word) (s : State) : (logLane o n w s).deferred = s.deferred := by simp only [logLane, logFault_deferred]
@[simp] theorem logLane_sets (o : Bool) (n : Nat) (w : Word) (s : State) : (logLane o n w s).sets = s.sets := by simp only [logLane, logFault_sets]
@[simp] theorem logLane_fe (o : Bool) (n : Nat) (w : Word) (s : State) : (logLane o n w s).fe = s.fe := by simp only [logLane, logFault_fe]
@[simp] theorem logLane_cal (o : Bool) (n : Nat) (w : Word) (s : State) : (logLane o n w s).cal = s.cal := by simp only [logLane, logFault_cal]
@[simp] theorem logLane_filt (o : Bool) (n : Nat) (w : Word) (s : State) : (logLane o n w s).filt = s.filt := by simp only [logLane, logFault_filt]
@[simp] theorem logLane_mtx (o : Bool) (n : Nat) (w : Word) (s : State) : (logLane o n w s).mtx = s.mtx := by simp only [logLane, logFault_mtx]
@[simp] theorem logLane_mr (o : Bool) (n : Nat) (w : Word) (s : State) : (logLane o n w s).mr = s.mr := by simp only [logLane, logFault_mr]
@[simp] theorem logLane_panic (o : Bool) (n : Nat) (w : Word) (s : State) : (logLane o n w s).panic = s.panic := by simp only [logLane, logFault_panic]
@[simp] theorem logLane_flows (o : Bool) (n : Nat) (w : Word) (s : State) : (logLane o n w s).flows = s.flows := by simp only [logLane, logFault_flows]
@[simp] theorem logLane_ports (o : Bool) (n : Nat) (w : Word) (s : State) : (logLane o n w s).ports = s.ports := by simp only [logLane, logFault_ports]
@[simp] theorem logLane_outs (o : Bool) (n : Nat) (w : Word) (s : State) : (logLane o n w s).outs = s.outs := by simp only [logLane, logFault_outs]
@[simp] theorem logLane_jack (o : Bool) (n : Nat) (w : Word) (s : State) : (logLane o n w s).jack = s.jack := by simp only [logLane, logFault_jack]
@[simp] theorem logLane_sense (o : Bool) (n : Nat) (w : Word) (s : State) : (logLane o n w s).sense = s.sense := by simp only [logLane, logFault_sense]
@[simp] theorem logLane_clk (o : Bool) (n : Nat) (w : Word) (s : State) : (logLane o n w s).clk = s.clk := by simp only [logLane, logFault_clk]
@[simp] theorem logLane_power (o : Bool) (n : Nat) (w : Word) (s : State) : (logLane o n w s).power = s.power := by simp only [logLane, logFault_power]
@[simp] theorem logLane_cores (o : Bool) (n : Nat) (w : Word) (s : State) : (logLane o n w s).cores = s.cores := by simp only [logLane, logFault_cores]
@[simp] theorem logLane_cp (o : Bool) (n : Nat) (w : Word) (s : State) : (logLane o n w s).cp = s.cp := by simp only [logLane, logFault_cp]
@[simp] theorem logLane_mem (o : Bool) (n : Nat) (w : Word) (s : State) : (logLane o n w s).mem = s.mem := by simp only [logLane, logFault_mem]
@[simp] theorem logLane_sec (o : Bool) (n : Nat) (w : Word) (s : State) : (logLane o n w s).sec = s.sec := by simp only [logLane, logFault_sec]
@[simp] theorem logLane_seals (o : Bool) (n : Nat) (w : Word) (s : State) : (logLane o n w s).seals = s.seals := by simp only [logLane, logFault_seals]
@[simp] theorem logLane_margin (o : Bool) (n : Nat) (w : Word) (s : State) : (logLane o n w s).margin = s.margin := by simp only [logLane, logFault_margin]
@[simp] theorem logLane_pins (o : Bool) (n : Nat) (w : Word) (s : State) : (logLane o n w s).pins = s.pins := by simp only [logLane, logFault_pins]

@[simp] theorem startJob_pending (op : Nat) (j : Job) (s : State) : (startJob op j s).pending = s.pending := rfl
@[simp] theorem startJob_free (op : Nat) (j : Job) (s : State) : (startJob op j s).free = s.free := rfl
@[simp] theorem startJob_tb (op : Nat) (j : Job) (s : State) : (startJob op j s).tb = s.tb := rfl
@[simp] theorem startJob_host (op : Nat) (j : Job) (s : State) : (startJob op j s).host = s.host := rfl
@[simp] theorem startJob_irq (op : Nat) (j : Job) (s : State) : (startJob op j s).irq = s.irq := rfl
@[simp] theorem startJob_sets (op : Nat) (j : Job) (s : State) : (startJob op j s).sets = s.sets := rfl
@[simp] theorem startJob_fe (op : Nat) (j : Job) (s : State) : (startJob op j s).fe = s.fe := rfl
@[simp] theorem startJob_cal (op : Nat) (j : Job) (s : State) : (startJob op j s).cal = s.cal := rfl
@[simp] theorem startJob_filt (op : Nat) (j : Job) (s : State) : (startJob op j s).filt = s.filt := rfl
@[simp] theorem startJob_mtx (op : Nat) (j : Job) (s : State) : (startJob op j s).mtx = s.mtx := rfl
@[simp] theorem startJob_mr (op : Nat) (j : Job) (s : State) : (startJob op j s).mr = s.mr := rfl
@[simp] theorem startJob_panic (op : Nat) (j : Job) (s : State) : (startJob op j s).panic = s.panic := rfl
@[simp] theorem startJob_flows (op : Nat) (j : Job) (s : State) : (startJob op j s).flows = s.flows := rfl
@[simp] theorem startJob_ports (op : Nat) (j : Job) (s : State) : (startJob op j s).ports = s.ports := rfl
@[simp] theorem startJob_outs (op : Nat) (j : Job) (s : State) : (startJob op j s).outs = s.outs := rfl
@[simp] theorem startJob_jack (op : Nat) (j : Job) (s : State) : (startJob op j s).jack = s.jack := rfl
@[simp] theorem startJob_sense (op : Nat) (j : Job) (s : State) : (startJob op j s).sense = s.sense := rfl
@[simp] theorem startJob_clk (op : Nat) (j : Job) (s : State) : (startJob op j s).clk = s.clk := rfl
@[simp] theorem startJob_power (op : Nat) (j : Job) (s : State) : (startJob op j s).power = s.power := rfl
@[simp] theorem startJob_cores (op : Nat) (j : Job) (s : State) : (startJob op j s).cores = s.cores := rfl
@[simp] theorem startJob_cp (op : Nat) (j : Job) (s : State) : (startJob op j s).cp = s.cp := rfl
@[simp] theorem startJob_mem (op : Nat) (j : Job) (s : State) : (startJob op j s).mem = s.mem := rfl
@[simp] theorem startJob_sec (op : Nat) (j : Job) (s : State) : (startJob op j s).sec = s.sec := rfl
@[simp] theorem startJob_seals (op : Nat) (j : Job) (s : State) : (startJob op j s).seals = s.seals := rfl
@[simp] theorem startJob_flt (op : Nat) (j : Job) (s : State) : (startJob op j s).flt = s.flt := rfl
@[simp] theorem startJob_margin (op : Nat) (j : Job) (s : State) : (startJob op j s).margin = s.margin := rfl
@[simp] theorem startJob_pins (op : Nat) (j : Job) (s : State) : (startJob op j s).pins = s.pins := rfl

@[simp] theorem finishJob_pending (c : Status) (s : State) : (finishJob c s).pending = s.pending := rfl
@[simp] theorem finishJob_free (c : Status) (s : State) : (finishJob c s).free = s.free := rfl
@[simp] theorem finishJob_tb (c : Status) (s : State) : (finishJob c s).tb = s.tb := rfl
@[simp] theorem finishJob_host (c : Status) (s : State) : (finishJob c s).host = s.host := rfl
@[simp] theorem finishJob_sets (c : Status) (s : State) : (finishJob c s).sets = s.sets := rfl
@[simp] theorem finishJob_fe (c : Status) (s : State) : (finishJob c s).fe = s.fe := rfl
@[simp] theorem finishJob_cal (c : Status) (s : State) : (finishJob c s).cal = s.cal := rfl
@[simp] theorem finishJob_filt (c : Status) (s : State) : (finishJob c s).filt = s.filt := rfl
@[simp] theorem finishJob_mtx (c : Status) (s : State) : (finishJob c s).mtx = s.mtx := rfl
@[simp] theorem finishJob_mr (c : Status) (s : State) : (finishJob c s).mr = s.mr := rfl
@[simp] theorem finishJob_panic (c : Status) (s : State) : (finishJob c s).panic = s.panic := rfl
@[simp] theorem finishJob_flows (c : Status) (s : State) : (finishJob c s).flows = s.flows := rfl
@[simp] theorem finishJob_ports (c : Status) (s : State) : (finishJob c s).ports = s.ports := rfl
@[simp] theorem finishJob_outs (c : Status) (s : State) : (finishJob c s).outs = s.outs := rfl
@[simp] theorem finishJob_jack (c : Status) (s : State) : (finishJob c s).jack = s.jack := rfl
@[simp] theorem finishJob_sense (c : Status) (s : State) : (finishJob c s).sense = s.sense := rfl
@[simp] theorem finishJob_clk (c : Status) (s : State) : (finishJob c s).clk = s.clk := rfl
@[simp] theorem finishJob_power (c : Status) (s : State) : (finishJob c s).power = s.power := rfl
@[simp] theorem finishJob_cores (c : Status) (s : State) : (finishJob c s).cores = s.cores := rfl
@[simp] theorem finishJob_cp (c : Status) (s : State) : (finishJob c s).cp = s.cp := rfl
@[simp] theorem finishJob_mem (c : Status) (s : State) : (finishJob c s).mem = s.mem := rfl
@[simp] theorem finishJob_sec (c : Status) (s : State) : (finishJob c s).sec = s.sec := rfl
@[simp] theorem finishJob_seals (c : Status) (s : State) : (finishJob c s).seals = s.seals := rfl
@[simp] theorem finishJob_flt (c : Status) (s : State) : (finishJob c s).flt = s.flt := rfl
@[simp] theorem finishJob_margin (c : Status) (s : State) : (finishJob c s).margin = s.margin := rfl
@[simp] theorem finishJob_pins (c : Status) (s : State) : (finishJob c s).pins = s.pins := rfl

@[simp] theorem onActive_pending (f : ConfigSet → ConfigSet) (s : State) : (onActive f s).pending = s.pending := by unfold onActive; split <;> rfl
@[simp] theorem onActive_free (f : ConfigSet → ConfigSet) (s : State) : (onActive f s).free = s.free := by unfold onActive; split <;> rfl
@[simp] theorem onActive_tb (f : ConfigSet → ConfigSet) (s : State) : (onActive f s).tb = s.tb := by unfold onActive; split <;> rfl
@[simp] theorem onActive_host (f : ConfigSet → ConfigSet) (s : State) : (onActive f s).host = s.host := by unfold onActive; split <;> rfl
@[simp] theorem onActive_deferred (f : ConfigSet → ConfigSet) (s : State) : (onActive f s).deferred = s.deferred := by unfold onActive; split <;> rfl
@[simp] theorem onActive_irq (f : ConfigSet → ConfigSet) (s : State) : (onActive f s).irq = s.irq := by unfold onActive; split <;> rfl
@[simp] theorem onActive_fe (f : ConfigSet → ConfigSet) (s : State) : (onActive f s).fe = s.fe := by unfold onActive; split <;> rfl
@[simp] theorem onActive_cal (f : ConfigSet → ConfigSet) (s : State) : (onActive f s).cal = s.cal := by unfold onActive; split <;> rfl
@[simp] theorem onActive_filt (f : ConfigSet → ConfigSet) (s : State) : (onActive f s).filt = s.filt := by unfold onActive; split <;> rfl
@[simp] theorem onActive_mtx (f : ConfigSet → ConfigSet) (s : State) : (onActive f s).mtx = s.mtx := by unfold onActive; split <;> rfl
@[simp] theorem onActive_mr (f : ConfigSet → ConfigSet) (s : State) : (onActive f s).mr = s.mr := by unfold onActive; split <;> rfl
@[simp] theorem onActive_panic (f : ConfigSet → ConfigSet) (s : State) : (onActive f s).panic = s.panic := by unfold onActive; split <;> rfl
@[simp] theorem onActive_flows (f : ConfigSet → ConfigSet) (s : State) : (onActive f s).flows = s.flows := by unfold onActive; split <;> rfl
@[simp] theorem onActive_ports (f : ConfigSet → ConfigSet) (s : State) : (onActive f s).ports = s.ports := by unfold onActive; split <;> rfl
@[simp] theorem onActive_outs (f : ConfigSet → ConfigSet) (s : State) : (onActive f s).outs = s.outs := by unfold onActive; split <;> rfl
@[simp] theorem onActive_jack (f : ConfigSet → ConfigSet) (s : State) : (onActive f s).jack = s.jack := by unfold onActive; split <;> rfl
@[simp] theorem onActive_sense (f : ConfigSet → ConfigSet) (s : State) : (onActive f s).sense = s.sense := by unfold onActive; split <;> rfl
@[simp] theorem onActive_clk (f : ConfigSet → ConfigSet) (s : State) : (onActive f s).clk = s.clk := by unfold onActive; split <;> rfl
@[simp] theorem onActive_power (f : ConfigSet → ConfigSet) (s : State) : (onActive f s).power = s.power := by unfold onActive; split <;> rfl
@[simp] theorem onActive_cores (f : ConfigSet → ConfigSet) (s : State) : (onActive f s).cores = s.cores := by unfold onActive; split <;> rfl
@[simp] theorem onActive_cp (f : ConfigSet → ConfigSet) (s : State) : (onActive f s).cp = s.cp := by unfold onActive; split <;> rfl
@[simp] theorem onActive_mem (f : ConfigSet → ConfigSet) (s : State) : (onActive f s).mem = s.mem := by unfold onActive; split <;> rfl
@[simp] theorem onActive_sec (f : ConfigSet → ConfigSet) (s : State) : (onActive f s).sec = s.sec := by unfold onActive; split <;> rfl
@[simp] theorem onActive_seals (f : ConfigSet → ConfigSet) (s : State) : (onActive f s).seals = s.seals := by unfold onActive; split <;> rfl
@[simp] theorem onActive_flt (f : ConfigSet → ConfigSet) (s : State) : (onActive f s).flt = s.flt := by unfold onActive; split <;> rfl
@[simp] theorem onActive_margin (f : ConfigSet → ConfigSet) (s : State) : (onActive f s).margin = s.margin := by unfold onActive; split <;> rfl
@[simp] theorem onActive_pins (f : ConfigSet → ConfigSet) (s : State) : (onActive f s).pins = s.pins := by unfold onActive; split <;> rfl

@[simp] theorem onShadow_pending (f : ConfigSet → ConfigSet) (s : State) : (onShadow f s).pending = s.pending := by unfold onShadow; split <;> rfl
@[simp] theorem onShadow_free (f : ConfigSet → ConfigSet) (s : State) : (onShadow f s).free = s.free := by unfold onShadow; split <;> rfl
@[simp] theorem onShadow_tb (f : ConfigSet → ConfigSet) (s : State) : (onShadow f s).tb = s.tb := by unfold onShadow; split <;> rfl
@[simp] theorem onShadow_host (f : ConfigSet → ConfigSet) (s : State) : (onShadow f s).host = s.host := by unfold onShadow; split <;> rfl
@[simp] theorem onShadow_deferred (f : ConfigSet → ConfigSet) (s : State) : (onShadow f s).deferred = s.deferred := by unfold onShadow; split <;> rfl
@[simp] theorem onShadow_irq (f : ConfigSet → ConfigSet) (s : State) : (onShadow f s).irq = s.irq := by unfold onShadow; split <;> rfl
@[simp] theorem onShadow_fe (f : ConfigSet → ConfigSet) (s : State) : (onShadow f s).fe = s.fe := by unfold onShadow; split <;> rfl
@[simp] theorem onShadow_cal (f : ConfigSet → ConfigSet) (s : State) : (onShadow f s).cal = s.cal := by unfold onShadow; split <;> rfl
@[simp] theorem onShadow_filt (f : ConfigSet → ConfigSet) (s : State) : (onShadow f s).filt = s.filt := by unfold onShadow; split <;> rfl
@[simp] theorem onShadow_mtx (f : ConfigSet → ConfigSet) (s : State) : (onShadow f s).mtx = s.mtx := by unfold onShadow; split <;> rfl
@[simp] theorem onShadow_mr (f : ConfigSet → ConfigSet) (s : State) : (onShadow f s).mr = s.mr := by unfold onShadow; split <;> rfl
@[simp] theorem onShadow_panic (f : ConfigSet → ConfigSet) (s : State) : (onShadow f s).panic = s.panic := by unfold onShadow; split <;> rfl
@[simp] theorem onShadow_flows (f : ConfigSet → ConfigSet) (s : State) : (onShadow f s).flows = s.flows := by unfold onShadow; split <;> rfl
@[simp] theorem onShadow_ports (f : ConfigSet → ConfigSet) (s : State) : (onShadow f s).ports = s.ports := by unfold onShadow; split <;> rfl
@[simp] theorem onShadow_outs (f : ConfigSet → ConfigSet) (s : State) : (onShadow f s).outs = s.outs := by unfold onShadow; split <;> rfl
@[simp] theorem onShadow_jack (f : ConfigSet → ConfigSet) (s : State) : (onShadow f s).jack = s.jack := by unfold onShadow; split <;> rfl
@[simp] theorem onShadow_sense (f : ConfigSet → ConfigSet) (s : State) : (onShadow f s).sense = s.sense := by unfold onShadow; split <;> rfl
@[simp] theorem onShadow_clk (f : ConfigSet → ConfigSet) (s : State) : (onShadow f s).clk = s.clk := by unfold onShadow; split <;> rfl
@[simp] theorem onShadow_power (f : ConfigSet → ConfigSet) (s : State) : (onShadow f s).power = s.power := by unfold onShadow; split <;> rfl
@[simp] theorem onShadow_cores (f : ConfigSet → ConfigSet) (s : State) : (onShadow f s).cores = s.cores := by unfold onShadow; split <;> rfl
@[simp] theorem onShadow_cp (f : ConfigSet → ConfigSet) (s : State) : (onShadow f s).cp = s.cp := by unfold onShadow; split <;> rfl
@[simp] theorem onShadow_mem (f : ConfigSet → ConfigSet) (s : State) : (onShadow f s).mem = s.mem := by unfold onShadow; split <;> rfl
@[simp] theorem onShadow_sec (f : ConfigSet → ConfigSet) (s : State) : (onShadow f s).sec = s.sec := by unfold onShadow; split <;> rfl
@[simp] theorem onShadow_seals (f : ConfigSet → ConfigSet) (s : State) : (onShadow f s).seals = s.seals := by unfold onShadow; split <;> rfl
@[simp] theorem onShadow_flt (f : ConfigSet → ConfigSet) (s : State) : (onShadow f s).flt = s.flt := by unfold onShadow; split <;> rfl
@[simp] theorem onShadow_margin (f : ConfigSet → ConfigSet) (s : State) : (onShadow f s).margin = s.margin := by unfold onShadow; split <;> rfl
@[simp] theorem onShadow_pins (f : ConfigSet → ConfigSet) (s : State) : (onShadow f s).pins = s.pins := by unfold onShadow; split <;> rfl

@[simp] theorem onChan_pending (n : Nat) (f : Chan → Chan) (s : State) : (onChan n f s).pending = s.pending := rfl
@[simp] theorem onChan_free (n : Nat) (f : Chan → Chan) (s : State) : (onChan n f s).free = s.free := rfl
@[simp] theorem onChan_tb (n : Nat) (f : Chan → Chan) (s : State) : (onChan n f s).tb = s.tb := rfl
@[simp] theorem onChan_host (n : Nat) (f : Chan → Chan) (s : State) : (onChan n f s).host = s.host := rfl
@[simp] theorem onChan_deferred (n : Nat) (f : Chan → Chan) (s : State) : (onChan n f s).deferred = s.deferred := rfl
@[simp] theorem onChan_irq (n : Nat) (f : Chan → Chan) (s : State) : (onChan n f s).irq = s.irq := rfl
@[simp] theorem onChan_sets (n : Nat) (f : Chan → Chan) (s : State) : (onChan n f s).sets = s.sets := rfl
@[simp] theorem onChan_cal (n : Nat) (f : Chan → Chan) (s : State) : (onChan n f s).cal = s.cal := rfl
@[simp] theorem onChan_filt (n : Nat) (f : Chan → Chan) (s : State) : (onChan n f s).filt = s.filt := rfl
@[simp] theorem onChan_mtx (n : Nat) (f : Chan → Chan) (s : State) : (onChan n f s).mtx = s.mtx := rfl
@[simp] theorem onChan_mr (n : Nat) (f : Chan → Chan) (s : State) : (onChan n f s).mr = s.mr := rfl
@[simp] theorem onChan_panic (n : Nat) (f : Chan → Chan) (s : State) : (onChan n f s).panic = s.panic := rfl
@[simp] theorem onChan_flows (n : Nat) (f : Chan → Chan) (s : State) : (onChan n f s).flows = s.flows := rfl
@[simp] theorem onChan_ports (n : Nat) (f : Chan → Chan) (s : State) : (onChan n f s).ports = s.ports := rfl
@[simp] theorem onChan_outs (n : Nat) (f : Chan → Chan) (s : State) : (onChan n f s).outs = s.outs := rfl
@[simp] theorem onChan_jack (n : Nat) (f : Chan → Chan) (s : State) : (onChan n f s).jack = s.jack := rfl
@[simp] theorem onChan_sense (n : Nat) (f : Chan → Chan) (s : State) : (onChan n f s).sense = s.sense := rfl
@[simp] theorem onChan_clk (n : Nat) (f : Chan → Chan) (s : State) : (onChan n f s).clk = s.clk := rfl
@[simp] theorem onChan_power (n : Nat) (f : Chan → Chan) (s : State) : (onChan n f s).power = s.power := rfl
@[simp] theorem onChan_cores (n : Nat) (f : Chan → Chan) (s : State) : (onChan n f s).cores = s.cores := rfl
@[simp] theorem onChan_cp (n : Nat) (f : Chan → Chan) (s : State) : (onChan n f s).cp = s.cp := rfl
@[simp] theorem onChan_mem (n : Nat) (f : Chan → Chan) (s : State) : (onChan n f s).mem = s.mem := rfl
@[simp] theorem onChan_sec (n : Nat) (f : Chan → Chan) (s : State) : (onChan n f s).sec = s.sec := rfl
@[simp] theorem onChan_seals (n : Nat) (f : Chan → Chan) (s : State) : (onChan n f s).seals = s.seals := rfl
@[simp] theorem onChan_flt (n : Nat) (f : Chan → Chan) (s : State) : (onChan n f s).flt = s.flt := rfl
@[simp] theorem onChan_margin (n : Nat) (f : Chan → Chan) (s : State) : (onChan n f s).margin = s.margin := rfl
@[simp] theorem onChan_pins (n : Nat) (f : Chan → Chan) (s : State) : (onChan n f s).pins = s.pins := rfl

@[simp] theorem onRef_pending (n : Nat) (f : RefBuf → RefBuf) (s : State) : (onRef n f s).pending = s.pending := rfl
@[simp] theorem onRef_free (n : Nat) (f : RefBuf → RefBuf) (s : State) : (onRef n f s).free = s.free := rfl
@[simp] theorem onRef_tb (n : Nat) (f : RefBuf → RefBuf) (s : State) : (onRef n f s).tb = s.tb := rfl
@[simp] theorem onRef_host (n : Nat) (f : RefBuf → RefBuf) (s : State) : (onRef n f s).host = s.host := rfl
@[simp] theorem onRef_deferred (n : Nat) (f : RefBuf → RefBuf) (s : State) : (onRef n f s).deferred = s.deferred := rfl
@[simp] theorem onRef_irq (n : Nat) (f : RefBuf → RefBuf) (s : State) : (onRef n f s).irq = s.irq := rfl
@[simp] theorem onRef_sets (n : Nat) (f : RefBuf → RefBuf) (s : State) : (onRef n f s).sets = s.sets := rfl
@[simp] theorem onRef_cal (n : Nat) (f : RefBuf → RefBuf) (s : State) : (onRef n f s).cal = s.cal := rfl
@[simp] theorem onRef_filt (n : Nat) (f : RefBuf → RefBuf) (s : State) : (onRef n f s).filt = s.filt := rfl
@[simp] theorem onRef_mtx (n : Nat) (f : RefBuf → RefBuf) (s : State) : (onRef n f s).mtx = s.mtx := rfl
@[simp] theorem onRef_mr (n : Nat) (f : RefBuf → RefBuf) (s : State) : (onRef n f s).mr = s.mr := rfl
@[simp] theorem onRef_panic (n : Nat) (f : RefBuf → RefBuf) (s : State) : (onRef n f s).panic = s.panic := rfl
@[simp] theorem onRef_flows (n : Nat) (f : RefBuf → RefBuf) (s : State) : (onRef n f s).flows = s.flows := rfl
@[simp] theorem onRef_ports (n : Nat) (f : RefBuf → RefBuf) (s : State) : (onRef n f s).ports = s.ports := rfl
@[simp] theorem onRef_outs (n : Nat) (f : RefBuf → RefBuf) (s : State) : (onRef n f s).outs = s.outs := rfl
@[simp] theorem onRef_jack (n : Nat) (f : RefBuf → RefBuf) (s : State) : (onRef n f s).jack = s.jack := rfl
@[simp] theorem onRef_sense (n : Nat) (f : RefBuf → RefBuf) (s : State) : (onRef n f s).sense = s.sense := rfl
@[simp] theorem onRef_clk (n : Nat) (f : RefBuf → RefBuf) (s : State) : (onRef n f s).clk = s.clk := rfl
@[simp] theorem onRef_power (n : Nat) (f : RefBuf → RefBuf) (s : State) : (onRef n f s).power = s.power := rfl
@[simp] theorem onRef_cores (n : Nat) (f : RefBuf → RefBuf) (s : State) : (onRef n f s).cores = s.cores := rfl
@[simp] theorem onRef_cp (n : Nat) (f : RefBuf → RefBuf) (s : State) : (onRef n f s).cp = s.cp := rfl
@[simp] theorem onRef_mem (n : Nat) (f : RefBuf → RefBuf) (s : State) : (onRef n f s).mem = s.mem := rfl
@[simp] theorem onRef_sec (n : Nat) (f : RefBuf → RefBuf) (s : State) : (onRef n f s).sec = s.sec := rfl
@[simp] theorem onRef_seals (n : Nat) (f : RefBuf → RefBuf) (s : State) : (onRef n f s).seals = s.seals := rfl
@[simp] theorem onRef_flt (n : Nat) (f : RefBuf → RefBuf) (s : State) : (onRef n f s).flt = s.flt := rfl
@[simp] theorem onRef_margin (n : Nat) (f : RefBuf → RefBuf) (s : State) : (onRef n f s).margin = s.margin := rfl
@[simp] theorem onRef_pins (n : Nat) (f : RefBuf → RefBuf) (s : State) : (onRef n f s).pins = s.pins := rfl

@[simp] theorem onDac_pending (n : Nat) (f : Dac → Dac) (s : State) : (onDac n f s).pending = s.pending := rfl
@[simp] theorem onDac_free (n : Nat) (f : Dac → Dac) (s : State) : (onDac n f s).free = s.free := rfl
@[simp] theorem onDac_tb (n : Nat) (f : Dac → Dac) (s : State) : (onDac n f s).tb = s.tb := rfl
@[simp] theorem onDac_host (n : Nat) (f : Dac → Dac) (s : State) : (onDac n f s).host = s.host := rfl
@[simp] theorem onDac_deferred (n : Nat) (f : Dac → Dac) (s : State) : (onDac n f s).deferred = s.deferred := rfl
@[simp] theorem onDac_irq (n : Nat) (f : Dac → Dac) (s : State) : (onDac n f s).irq = s.irq := rfl
@[simp] theorem onDac_sets (n : Nat) (f : Dac → Dac) (s : State) : (onDac n f s).sets = s.sets := rfl
@[simp] theorem onDac_fe (n : Nat) (f : Dac → Dac) (s : State) : (onDac n f s).fe = s.fe := rfl
@[simp] theorem onDac_cal (n : Nat) (f : Dac → Dac) (s : State) : (onDac n f s).cal = s.cal := rfl
@[simp] theorem onDac_filt (n : Nat) (f : Dac → Dac) (s : State) : (onDac n f s).filt = s.filt := rfl
@[simp] theorem onDac_mtx (n : Nat) (f : Dac → Dac) (s : State) : (onDac n f s).mtx = s.mtx := rfl
@[simp] theorem onDac_mr (n : Nat) (f : Dac → Dac) (s : State) : (onDac n f s).mr = s.mr := rfl
@[simp] theorem onDac_panic (n : Nat) (f : Dac → Dac) (s : State) : (onDac n f s).panic = s.panic := rfl
@[simp] theorem onDac_flows (n : Nat) (f : Dac → Dac) (s : State) : (onDac n f s).flows = s.flows := rfl
@[simp] theorem onDac_ports (n : Nat) (f : Dac → Dac) (s : State) : (onDac n f s).ports = s.ports := rfl
@[simp] theorem onDac_jack (n : Nat) (f : Dac → Dac) (s : State) : (onDac n f s).jack = s.jack := rfl
@[simp] theorem onDac_sense (n : Nat) (f : Dac → Dac) (s : State) : (onDac n f s).sense = s.sense := rfl
@[simp] theorem onDac_clk (n : Nat) (f : Dac → Dac) (s : State) : (onDac n f s).clk = s.clk := rfl
@[simp] theorem onDac_power (n : Nat) (f : Dac → Dac) (s : State) : (onDac n f s).power = s.power := rfl
@[simp] theorem onDac_cores (n : Nat) (f : Dac → Dac) (s : State) : (onDac n f s).cores = s.cores := rfl
@[simp] theorem onDac_cp (n : Nat) (f : Dac → Dac) (s : State) : (onDac n f s).cp = s.cp := rfl
@[simp] theorem onDac_mem (n : Nat) (f : Dac → Dac) (s : State) : (onDac n f s).mem = s.mem := rfl
@[simp] theorem onDac_sec (n : Nat) (f : Dac → Dac) (s : State) : (onDac n f s).sec = s.sec := rfl
@[simp] theorem onDac_seals (n : Nat) (f : Dac → Dac) (s : State) : (onDac n f s).seals = s.seals := rfl
@[simp] theorem onDac_flt (n : Nat) (f : Dac → Dac) (s : State) : (onDac n f s).flt = s.flt := rfl
@[simp] theorem onDac_margin (n : Nat) (f : Dac → Dac) (s : State) : (onDac n f s).margin = s.margin := rfl
@[simp] theorem onDac_pins (n : Nat) (f : Dac → Dac) (s : State) : (onDac n f s).pins = s.pins := rfl

@[simp] theorem onPump_pending (n : Nat) (f : Pump → Pump) (s : State) : (onPump n f s).pending = s.pending := rfl
@[simp] theorem onPump_free (n : Nat) (f : Pump → Pump) (s : State) : (onPump n f s).free = s.free := rfl
@[simp] theorem onPump_tb (n : Nat) (f : Pump → Pump) (s : State) : (onPump n f s).tb = s.tb := rfl
@[simp] theorem onPump_host (n : Nat) (f : Pump → Pump) (s : State) : (onPump n f s).host = s.host := rfl
@[simp] theorem onPump_deferred (n : Nat) (f : Pump → Pump) (s : State) : (onPump n f s).deferred = s.deferred := rfl
@[simp] theorem onPump_irq (n : Nat) (f : Pump → Pump) (s : State) : (onPump n f s).irq = s.irq := rfl
@[simp] theorem onPump_sets (n : Nat) (f : Pump → Pump) (s : State) : (onPump n f s).sets = s.sets := rfl
@[simp] theorem onPump_fe (n : Nat) (f : Pump → Pump) (s : State) : (onPump n f s).fe = s.fe := rfl
@[simp] theorem onPump_cal (n : Nat) (f : Pump → Pump) (s : State) : (onPump n f s).cal = s.cal := rfl
@[simp] theorem onPump_filt (n : Nat) (f : Pump → Pump) (s : State) : (onPump n f s).filt = s.filt := rfl
@[simp] theorem onPump_mtx (n : Nat) (f : Pump → Pump) (s : State) : (onPump n f s).mtx = s.mtx := rfl
@[simp] theorem onPump_mr (n : Nat) (f : Pump → Pump) (s : State) : (onPump n f s).mr = s.mr := rfl
@[simp] theorem onPump_panic (n : Nat) (f : Pump → Pump) (s : State) : (onPump n f s).panic = s.panic := rfl
@[simp] theorem onPump_flows (n : Nat) (f : Pump → Pump) (s : State) : (onPump n f s).flows = s.flows := rfl
@[simp] theorem onPump_ports (n : Nat) (f : Pump → Pump) (s : State) : (onPump n f s).ports = s.ports := rfl
@[simp] theorem onPump_jack (n : Nat) (f : Pump → Pump) (s : State) : (onPump n f s).jack = s.jack := rfl
@[simp] theorem onPump_sense (n : Nat) (f : Pump → Pump) (s : State) : (onPump n f s).sense = s.sense := rfl
@[simp] theorem onPump_clk (n : Nat) (f : Pump → Pump) (s : State) : (onPump n f s).clk = s.clk := rfl
@[simp] theorem onPump_power (n : Nat) (f : Pump → Pump) (s : State) : (onPump n f s).power = s.power := rfl
@[simp] theorem onPump_cores (n : Nat) (f : Pump → Pump) (s : State) : (onPump n f s).cores = s.cores := rfl
@[simp] theorem onPump_cp (n : Nat) (f : Pump → Pump) (s : State) : (onPump n f s).cp = s.cp := rfl
@[simp] theorem onPump_mem (n : Nat) (f : Pump → Pump) (s : State) : (onPump n f s).mem = s.mem := rfl
@[simp] theorem onPump_sec (n : Nat) (f : Pump → Pump) (s : State) : (onPump n f s).sec = s.sec := rfl
@[simp] theorem onPump_seals (n : Nat) (f : Pump → Pump) (s : State) : (onPump n f s).seals = s.seals := rfl
@[simp] theorem onPump_flt (n : Nat) (f : Pump → Pump) (s : State) : (onPump n f s).flt = s.flt := rfl
@[simp] theorem onPump_margin (n : Nat) (f : Pump → Pump) (s : State) : (onPump n f s).margin = s.margin := rfl
@[simp] theorem onPump_pins (n : Nat) (f : Pump → Pump) (s : State) : (onPump n f s).pins = s.pins := rfl

@[simp] theorem onFlow_pending (n : Nat) (f : FlowRun → FlowRun) (s : State) : (onFlow n f s).pending = s.pending := rfl
@[simp] theorem onFlow_free (n : Nat) (f : FlowRun → FlowRun) (s : State) : (onFlow n f s).free = s.free := rfl
@[simp] theorem onFlow_tb (n : Nat) (f : FlowRun → FlowRun) (s : State) : (onFlow n f s).tb = s.tb := rfl
@[simp] theorem onFlow_host (n : Nat) (f : FlowRun → FlowRun) (s : State) : (onFlow n f s).host = s.host := rfl
@[simp] theorem onFlow_deferred (n : Nat) (f : FlowRun → FlowRun) (s : State) : (onFlow n f s).deferred = s.deferred := rfl
@[simp] theorem onFlow_irq (n : Nat) (f : FlowRun → FlowRun) (s : State) : (onFlow n f s).irq = s.irq := rfl
@[simp] theorem onFlow_sets (n : Nat) (f : FlowRun → FlowRun) (s : State) : (onFlow n f s).sets = s.sets := rfl
@[simp] theorem onFlow_fe (n : Nat) (f : FlowRun → FlowRun) (s : State) : (onFlow n f s).fe = s.fe := rfl
@[simp] theorem onFlow_cal (n : Nat) (f : FlowRun → FlowRun) (s : State) : (onFlow n f s).cal = s.cal := rfl
@[simp] theorem onFlow_filt (n : Nat) (f : FlowRun → FlowRun) (s : State) : (onFlow n f s).filt = s.filt := rfl
@[simp] theorem onFlow_mtx (n : Nat) (f : FlowRun → FlowRun) (s : State) : (onFlow n f s).mtx = s.mtx := rfl
@[simp] theorem onFlow_mr (n : Nat) (f : FlowRun → FlowRun) (s : State) : (onFlow n f s).mr = s.mr := rfl
@[simp] theorem onFlow_panic (n : Nat) (f : FlowRun → FlowRun) (s : State) : (onFlow n f s).panic = s.panic := rfl
@[simp] theorem onFlow_ports (n : Nat) (f : FlowRun → FlowRun) (s : State) : (onFlow n f s).ports = s.ports := rfl
@[simp] theorem onFlow_outs (n : Nat) (f : FlowRun → FlowRun) (s : State) : (onFlow n f s).outs = s.outs := rfl
@[simp] theorem onFlow_jack (n : Nat) (f : FlowRun → FlowRun) (s : State) : (onFlow n f s).jack = s.jack := rfl
@[simp] theorem onFlow_sense (n : Nat) (f : FlowRun → FlowRun) (s : State) : (onFlow n f s).sense = s.sense := rfl
@[simp] theorem onFlow_clk (n : Nat) (f : FlowRun → FlowRun) (s : State) : (onFlow n f s).clk = s.clk := rfl
@[simp] theorem onFlow_power (n : Nat) (f : FlowRun → FlowRun) (s : State) : (onFlow n f s).power = s.power := rfl
@[simp] theorem onFlow_cores (n : Nat) (f : FlowRun → FlowRun) (s : State) : (onFlow n f s).cores = s.cores := rfl
@[simp] theorem onFlow_cp (n : Nat) (f : FlowRun → FlowRun) (s : State) : (onFlow n f s).cp = s.cp := rfl
@[simp] theorem onFlow_mem (n : Nat) (f : FlowRun → FlowRun) (s : State) : (onFlow n f s).mem = s.mem := rfl
@[simp] theorem onFlow_sec (n : Nat) (f : FlowRun → FlowRun) (s : State) : (onFlow n f s).sec = s.sec := rfl
@[simp] theorem onFlow_seals (n : Nat) (f : FlowRun → FlowRun) (s : State) : (onFlow n f s).seals = s.seals := rfl
@[simp] theorem onFlow_flt (n : Nat) (f : FlowRun → FlowRun) (s : State) : (onFlow n f s).flt = s.flt := rfl
@[simp] theorem onFlow_margin (n : Nat) (f : FlowRun → FlowRun) (s : State) : (onFlow n f s).margin = s.margin := rfl
@[simp] theorem onFlow_pins (n : Nat) (f : FlowRun → FlowRun) (s : State) : (onFlow n f s).pins = s.pins := rfl

@[simp] theorem stopFlow_pending (n : Nat) (s : State) : (stopFlow n s).pending = s.pending := rfl
@[simp] theorem stopFlow_free (n : Nat) (s : State) : (stopFlow n s).free = s.free := rfl
@[simp] theorem stopFlow_tb (n : Nat) (s : State) : (stopFlow n s).tb = s.tb := rfl
@[simp] theorem stopFlow_host (n : Nat) (s : State) : (stopFlow n s).host = s.host := rfl
@[simp] theorem stopFlow_deferred (n : Nat) (s : State) : (stopFlow n s).deferred = s.deferred := rfl
@[simp] theorem stopFlow_irq (n : Nat) (s : State) : (stopFlow n s).irq = s.irq := rfl
@[simp] theorem stopFlow_sets (n : Nat) (s : State) : (stopFlow n s).sets = s.sets := rfl
@[simp] theorem stopFlow_fe (n : Nat) (s : State) : (stopFlow n s).fe = s.fe := rfl
@[simp] theorem stopFlow_cal (n : Nat) (s : State) : (stopFlow n s).cal = s.cal := rfl
@[simp] theorem stopFlow_filt (n : Nat) (s : State) : (stopFlow n s).filt = s.filt := rfl
@[simp] theorem stopFlow_mtx (n : Nat) (s : State) : (stopFlow n s).mtx = s.mtx := rfl
@[simp] theorem stopFlow_mr (n : Nat) (s : State) : (stopFlow n s).mr = s.mr := rfl
@[simp] theorem stopFlow_panic (n : Nat) (s : State) : (stopFlow n s).panic = s.panic := rfl
@[simp] theorem stopFlow_ports (n : Nat) (s : State) : (stopFlow n s).ports = s.ports := rfl
@[simp] theorem stopFlow_outs (n : Nat) (s : State) : (stopFlow n s).outs = s.outs := rfl
@[simp] theorem stopFlow_jack (n : Nat) (s : State) : (stopFlow n s).jack = s.jack := rfl
@[simp] theorem stopFlow_sense (n : Nat) (s : State) : (stopFlow n s).sense = s.sense := rfl
@[simp] theorem stopFlow_clk (n : Nat) (s : State) : (stopFlow n s).clk = s.clk := rfl
@[simp] theorem stopFlow_power (n : Nat) (s : State) : (stopFlow n s).power = s.power := rfl
@[simp] theorem stopFlow_cores (n : Nat) (s : State) : (stopFlow n s).cores = s.cores := rfl
@[simp] theorem stopFlow_cp (n : Nat) (s : State) : (stopFlow n s).cp = s.cp := rfl
@[simp] theorem stopFlow_mem (n : Nat) (s : State) : (stopFlow n s).mem = s.mem := rfl
@[simp] theorem stopFlow_sec (n : Nat) (s : State) : (stopFlow n s).sec = s.sec := rfl
@[simp] theorem stopFlow_seals (n : Nat) (s : State) : (stopFlow n s).seals = s.seals := rfl
@[simp] theorem stopFlow_flt (n : Nat) (s : State) : (stopFlow n s).flt = s.flt := rfl
@[simp] theorem stopFlow_margin (n : Nat) (s : State) : (stopFlow n s).margin = s.margin := rfl
@[simp] theorem stopFlow_pins (n : Nat) (s : State) : (stopFlow n s).pins = s.pins := rfl

@[simp] theorem onCore_pending (n : Nat) (f : Core → Core) (s : State) : (onCore n f s).pending = s.pending := rfl
@[simp] theorem onCore_free (n : Nat) (f : Core → Core) (s : State) : (onCore n f s).free = s.free := rfl
@[simp] theorem onCore_tb (n : Nat) (f : Core → Core) (s : State) : (onCore n f s).tb = s.tb := rfl
@[simp] theorem onCore_host (n : Nat) (f : Core → Core) (s : State) : (onCore n f s).host = s.host := rfl
@[simp] theorem onCore_deferred (n : Nat) (f : Core → Core) (s : State) : (onCore n f s).deferred = s.deferred := rfl
@[simp] theorem onCore_irq (n : Nat) (f : Core → Core) (s : State) : (onCore n f s).irq = s.irq := rfl
@[simp] theorem onCore_sets (n : Nat) (f : Core → Core) (s : State) : (onCore n f s).sets = s.sets := rfl
@[simp] theorem onCore_fe (n : Nat) (f : Core → Core) (s : State) : (onCore n f s).fe = s.fe := rfl
@[simp] theorem onCore_cal (n : Nat) (f : Core → Core) (s : State) : (onCore n f s).cal = s.cal := rfl
@[simp] theorem onCore_filt (n : Nat) (f : Core → Core) (s : State) : (onCore n f s).filt = s.filt := rfl
@[simp] theorem onCore_mtx (n : Nat) (f : Core → Core) (s : State) : (onCore n f s).mtx = s.mtx := rfl
@[simp] theorem onCore_mr (n : Nat) (f : Core → Core) (s : State) : (onCore n f s).mr = s.mr := rfl
@[simp] theorem onCore_panic (n : Nat) (f : Core → Core) (s : State) : (onCore n f s).panic = s.panic := rfl
@[simp] theorem onCore_flows (n : Nat) (f : Core → Core) (s : State) : (onCore n f s).flows = s.flows := rfl
@[simp] theorem onCore_ports (n : Nat) (f : Core → Core) (s : State) : (onCore n f s).ports = s.ports := rfl
@[simp] theorem onCore_outs (n : Nat) (f : Core → Core) (s : State) : (onCore n f s).outs = s.outs := rfl
@[simp] theorem onCore_jack (n : Nat) (f : Core → Core) (s : State) : (onCore n f s).jack = s.jack := rfl
@[simp] theorem onCore_sense (n : Nat) (f : Core → Core) (s : State) : (onCore n f s).sense = s.sense := rfl
@[simp] theorem onCore_clk (n : Nat) (f : Core → Core) (s : State) : (onCore n f s).clk = s.clk := rfl
@[simp] theorem onCore_power (n : Nat) (f : Core → Core) (s : State) : (onCore n f s).power = s.power := rfl
@[simp] theorem onCore_cp (n : Nat) (f : Core → Core) (s : State) : (onCore n f s).cp = s.cp := rfl
@[simp] theorem onCore_mem (n : Nat) (f : Core → Core) (s : State) : (onCore n f s).mem = s.mem := rfl
@[simp] theorem onCore_sec (n : Nat) (f : Core → Core) (s : State) : (onCore n f s).sec = s.sec := rfl
@[simp] theorem onCore_seals (n : Nat) (f : Core → Core) (s : State) : (onCore n f s).seals = s.seals := rfl
@[simp] theorem onCore_flt (n : Nat) (f : Core → Core) (s : State) : (onCore n f s).flt = s.flt := rfl
@[simp] theorem onCore_margin (n : Nat) (f : Core → Core) (s : State) : (onCore n f s).margin = s.margin := rfl
@[simp] theorem onCore_pins (n : Nat) (f : Core → Core) (s : State) : (onCore n f s).pins = s.pins := rfl

@[simp] theorem onRegs_pending (u : Site) (f : Regs → Regs) (s : State) : (onRegs u f s).pending = s.pending := by cases u <;> rfl
@[simp] theorem onRegs_free (u : Site) (f : Regs → Regs) (s : State) : (onRegs u f s).free = s.free := by cases u <;> rfl
@[simp] theorem onRegs_tb (u : Site) (f : Regs → Regs) (s : State) : (onRegs u f s).tb = s.tb := by cases u <;> rfl
@[simp] theorem onRegs_host (u : Site) (f : Regs → Regs) (s : State) : (onRegs u f s).host = s.host := by cases u <;> rfl
@[simp] theorem onRegs_deferred (u : Site) (f : Regs → Regs) (s : State) : (onRegs u f s).deferred = s.deferred := by cases u <;> rfl
@[simp] theorem onRegs_irq (u : Site) (f : Regs → Regs) (s : State) : (onRegs u f s).irq = s.irq := by cases u <;> rfl
@[simp] theorem onRegs_sets (u : Site) (f : Regs → Regs) (s : State) : (onRegs u f s).sets = s.sets := by cases u <;> rfl
@[simp] theorem onRegs_fe (u : Site) (f : Regs → Regs) (s : State) : (onRegs u f s).fe = s.fe := by cases u <;> rfl
@[simp] theorem onRegs_cal (u : Site) (f : Regs → Regs) (s : State) : (onRegs u f s).cal = s.cal := by cases u <;> rfl
@[simp] theorem onRegs_filt (u : Site) (f : Regs → Regs) (s : State) : (onRegs u f s).filt = s.filt := by cases u <;> rfl
@[simp] theorem onRegs_mtx (u : Site) (f : Regs → Regs) (s : State) : (onRegs u f s).mtx = s.mtx := by cases u <;> rfl
@[simp] theorem onRegs_mr (u : Site) (f : Regs → Regs) (s : State) : (onRegs u f s).mr = s.mr := by cases u <;> rfl
@[simp] theorem onRegs_panic (u : Site) (f : Regs → Regs) (s : State) : (onRegs u f s).panic = s.panic := by cases u <;> rfl
@[simp] theorem onRegs_flows (u : Site) (f : Regs → Regs) (s : State) : (onRegs u f s).flows = s.flows := by cases u <;> rfl
@[simp] theorem onRegs_ports (u : Site) (f : Regs → Regs) (s : State) : (onRegs u f s).ports = s.ports := by cases u <;> rfl
@[simp] theorem onRegs_outs (u : Site) (f : Regs → Regs) (s : State) : (onRegs u f s).outs = s.outs := by cases u <;> rfl
@[simp] theorem onRegs_jack (u : Site) (f : Regs → Regs) (s : State) : (onRegs u f s).jack = s.jack := by cases u <;> rfl
@[simp] theorem onRegs_sense (u : Site) (f : Regs → Regs) (s : State) : (onRegs u f s).sense = s.sense := by cases u <;> rfl
@[simp] theorem onRegs_clk (u : Site) (f : Regs → Regs) (s : State) : (onRegs u f s).clk = s.clk := by cases u <;> rfl
@[simp] theorem onRegs_power (u : Site) (f : Regs → Regs) (s : State) : (onRegs u f s).power = s.power := by cases u <;> rfl
@[simp] theorem onRegs_mem (u : Site) (f : Regs → Regs) (s : State) : (onRegs u f s).mem = s.mem := by cases u <;> rfl
@[simp] theorem onRegs_sec (u : Site) (f : Regs → Regs) (s : State) : (onRegs u f s).sec = s.sec := by cases u <;> rfl
@[simp] theorem onRegs_seals (u : Site) (f : Regs → Regs) (s : State) : (onRegs u f s).seals = s.seals := by cases u <;> rfl
@[simp] theorem onRegs_flt (u : Site) (f : Regs → Regs) (s : State) : (onRegs u f s).flt = s.flt := by cases u <;> rfl
@[simp] theorem onRegs_margin (u : Site) (f : Regs → Regs) (s : State) : (onRegs u f s).margin = s.margin := by cases u <;> rfl
@[simp] theorem onRegs_pins (u : Site) (f : Regs → Regs) (s : State) : (onRegs u f s).pins = s.pins := by cases u <;> rfl

@[simp] theorem onPll_pending (n : Nat) (f : Pll → Pll) (s : State) : (onPll n f s).pending = s.pending := by unfold onPll; split <;> rfl
@[simp] theorem onPll_free (n : Nat) (f : Pll → Pll) (s : State) : (onPll n f s).free = s.free := by unfold onPll; split <;> rfl
@[simp] theorem onPll_tb (n : Nat) (f : Pll → Pll) (s : State) : (onPll n f s).tb = s.tb := by unfold onPll; split <;> rfl
@[simp] theorem onPll_host (n : Nat) (f : Pll → Pll) (s : State) : (onPll n f s).host = s.host := by unfold onPll; split <;> rfl
@[simp] theorem onPll_deferred (n : Nat) (f : Pll → Pll) (s : State) : (onPll n f s).deferred = s.deferred := by unfold onPll; split <;> rfl
@[simp] theorem onPll_irq (n : Nat) (f : Pll → Pll) (s : State) : (onPll n f s).irq = s.irq := by unfold onPll; split <;> rfl
@[simp] theorem onPll_sets (n : Nat) (f : Pll → Pll) (s : State) : (onPll n f s).sets = s.sets := by unfold onPll; split <;> rfl
@[simp] theorem onPll_fe (n : Nat) (f : Pll → Pll) (s : State) : (onPll n f s).fe = s.fe := by unfold onPll; split <;> rfl
@[simp] theorem onPll_cal (n : Nat) (f : Pll → Pll) (s : State) : (onPll n f s).cal = s.cal := by unfold onPll; split <;> rfl
@[simp] theorem onPll_filt (n : Nat) (f : Pll → Pll) (s : State) : (onPll n f s).filt = s.filt := by unfold onPll; split <;> rfl
@[simp] theorem onPll_mtx (n : Nat) (f : Pll → Pll) (s : State) : (onPll n f s).mtx = s.mtx := by unfold onPll; split <;> rfl
@[simp] theorem onPll_mr (n : Nat) (f : Pll → Pll) (s : State) : (onPll n f s).mr = s.mr := by unfold onPll; split <;> rfl
@[simp] theorem onPll_panic (n : Nat) (f : Pll → Pll) (s : State) : (onPll n f s).panic = s.panic := by unfold onPll; split <;> rfl
@[simp] theorem onPll_flows (n : Nat) (f : Pll → Pll) (s : State) : (onPll n f s).flows = s.flows := by unfold onPll; split <;> rfl
@[simp] theorem onPll_ports (n : Nat) (f : Pll → Pll) (s : State) : (onPll n f s).ports = s.ports := by unfold onPll; split <;> rfl
@[simp] theorem onPll_outs (n : Nat) (f : Pll → Pll) (s : State) : (onPll n f s).outs = s.outs := by unfold onPll; split <;> rfl
@[simp] theorem onPll_jack (n : Nat) (f : Pll → Pll) (s : State) : (onPll n f s).jack = s.jack := by unfold onPll; split <;> rfl
@[simp] theorem onPll_sense (n : Nat) (f : Pll → Pll) (s : State) : (onPll n f s).sense = s.sense := by unfold onPll; split <;> rfl
@[simp] theorem onPll_power (n : Nat) (f : Pll → Pll) (s : State) : (onPll n f s).power = s.power := by unfold onPll; split <;> rfl
@[simp] theorem onPll_cores (n : Nat) (f : Pll → Pll) (s : State) : (onPll n f s).cores = s.cores := by unfold onPll; split <;> rfl
@[simp] theorem onPll_cp (n : Nat) (f : Pll → Pll) (s : State) : (onPll n f s).cp = s.cp := by unfold onPll; split <;> rfl
@[simp] theorem onPll_mem (n : Nat) (f : Pll → Pll) (s : State) : (onPll n f s).mem = s.mem := by unfold onPll; split <;> rfl
@[simp] theorem onPll_sec (n : Nat) (f : Pll → Pll) (s : State) : (onPll n f s).sec = s.sec := by unfold onPll; split <;> rfl
@[simp] theorem onPll_seals (n : Nat) (f : Pll → Pll) (s : State) : (onPll n f s).seals = s.seals := by unfold onPll; split <;> rfl
@[simp] theorem onPll_flt (n : Nat) (f : Pll → Pll) (s : State) : (onPll n f s).flt = s.flt := by unfold onPll; split <;> rfl
@[simp] theorem onPll_margin (n : Nat) (f : Pll → Pll) (s : State) : (onPll n f s).margin = s.margin := by unfold onPll; split <;> rfl
@[simp] theorem onPll_pins (n : Nat) (f : Pll → Pll) (s : State) : (onPll n f s).pins = s.pins := by unfold onPll; split <;> rfl

@[simp] theorem onTdm_pending (n : Nat) (f : TdmPort → TdmPort) (s : State) : (onTdm n f s).pending = s.pending := rfl
@[simp] theorem onTdm_free (n : Nat) (f : TdmPort → TdmPort) (s : State) : (onTdm n f s).free = s.free := rfl
@[simp] theorem onTdm_tb (n : Nat) (f : TdmPort → TdmPort) (s : State) : (onTdm n f s).tb = s.tb := rfl
@[simp] theorem onTdm_host (n : Nat) (f : TdmPort → TdmPort) (s : State) : (onTdm n f s).host = s.host := rfl
@[simp] theorem onTdm_deferred (n : Nat) (f : TdmPort → TdmPort) (s : State) : (onTdm n f s).deferred = s.deferred := rfl
@[simp] theorem onTdm_irq (n : Nat) (f : TdmPort → TdmPort) (s : State) : (onTdm n f s).irq = s.irq := rfl
@[simp] theorem onTdm_sets (n : Nat) (f : TdmPort → TdmPort) (s : State) : (onTdm n f s).sets = s.sets := rfl
@[simp] theorem onTdm_fe (n : Nat) (f : TdmPort → TdmPort) (s : State) : (onTdm n f s).fe = s.fe := rfl
@[simp] theorem onTdm_cal (n : Nat) (f : TdmPort → TdmPort) (s : State) : (onTdm n f s).cal = s.cal := rfl
@[simp] theorem onTdm_filt (n : Nat) (f : TdmPort → TdmPort) (s : State) : (onTdm n f s).filt = s.filt := rfl
@[simp] theorem onTdm_mtx (n : Nat) (f : TdmPort → TdmPort) (s : State) : (onTdm n f s).mtx = s.mtx := rfl
@[simp] theorem onTdm_mr (n : Nat) (f : TdmPort → TdmPort) (s : State) : (onTdm n f s).mr = s.mr := rfl
@[simp] theorem onTdm_panic (n : Nat) (f : TdmPort → TdmPort) (s : State) : (onTdm n f s).panic = s.panic := rfl
@[simp] theorem onTdm_flows (n : Nat) (f : TdmPort → TdmPort) (s : State) : (onTdm n f s).flows = s.flows := rfl
@[simp] theorem onTdm_outs (n : Nat) (f : TdmPort → TdmPort) (s : State) : (onTdm n f s).outs = s.outs := rfl
@[simp] theorem onTdm_jack (n : Nat) (f : TdmPort → TdmPort) (s : State) : (onTdm n f s).jack = s.jack := rfl
@[simp] theorem onTdm_sense (n : Nat) (f : TdmPort → TdmPort) (s : State) : (onTdm n f s).sense = s.sense := rfl
@[simp] theorem onTdm_clk (n : Nat) (f : TdmPort → TdmPort) (s : State) : (onTdm n f s).clk = s.clk := rfl
@[simp] theorem onTdm_power (n : Nat) (f : TdmPort → TdmPort) (s : State) : (onTdm n f s).power = s.power := rfl
@[simp] theorem onTdm_cores (n : Nat) (f : TdmPort → TdmPort) (s : State) : (onTdm n f s).cores = s.cores := rfl
@[simp] theorem onTdm_cp (n : Nat) (f : TdmPort → TdmPort) (s : State) : (onTdm n f s).cp = s.cp := rfl
@[simp] theorem onTdm_mem (n : Nat) (f : TdmPort → TdmPort) (s : State) : (onTdm n f s).mem = s.mem := rfl
@[simp] theorem onTdm_sec (n : Nat) (f : TdmPort → TdmPort) (s : State) : (onTdm n f s).sec = s.sec := rfl
@[simp] theorem onTdm_seals (n : Nat) (f : TdmPort → TdmPort) (s : State) : (onTdm n f s).seals = s.seals := rfl
@[simp] theorem onTdm_flt (n : Nat) (f : TdmPort → TdmPort) (s : State) : (onTdm n f s).flt = s.flt := rfl
@[simp] theorem onTdm_margin (n : Nat) (f : TdmPort → TdmPort) (s : State) : (onTdm n f s).margin = s.margin := rfl
@[simp] theorem onTdm_pins (n : Nat) (f : TdmPort → TdmPort) (s : State) : (onTdm n f s).pins = s.pins := rfl

@[simp] theorem onAes_pending (n : Nat) (f : AesRx → AesRx) (s : State) : (onAes n f s).pending = s.pending := rfl
@[simp] theorem onAes_free (n : Nat) (f : AesRx → AesRx) (s : State) : (onAes n f s).free = s.free := rfl
@[simp] theorem onAes_tb (n : Nat) (f : AesRx → AesRx) (s : State) : (onAes n f s).tb = s.tb := rfl
@[simp] theorem onAes_host (n : Nat) (f : AesRx → AesRx) (s : State) : (onAes n f s).host = s.host := rfl
@[simp] theorem onAes_deferred (n : Nat) (f : AesRx → AesRx) (s : State) : (onAes n f s).deferred = s.deferred := rfl
@[simp] theorem onAes_irq (n : Nat) (f : AesRx → AesRx) (s : State) : (onAes n f s).irq = s.irq := rfl
@[simp] theorem onAes_sets (n : Nat) (f : AesRx → AesRx) (s : State) : (onAes n f s).sets = s.sets := rfl
@[simp] theorem onAes_fe (n : Nat) (f : AesRx → AesRx) (s : State) : (onAes n f s).fe = s.fe := rfl
@[simp] theorem onAes_cal (n : Nat) (f : AesRx → AesRx) (s : State) : (onAes n f s).cal = s.cal := rfl
@[simp] theorem onAes_filt (n : Nat) (f : AesRx → AesRx) (s : State) : (onAes n f s).filt = s.filt := rfl
@[simp] theorem onAes_mtx (n : Nat) (f : AesRx → AesRx) (s : State) : (onAes n f s).mtx = s.mtx := rfl
@[simp] theorem onAes_mr (n : Nat) (f : AesRx → AesRx) (s : State) : (onAes n f s).mr = s.mr := rfl
@[simp] theorem onAes_panic (n : Nat) (f : AesRx → AesRx) (s : State) : (onAes n f s).panic = s.panic := rfl
@[simp] theorem onAes_flows (n : Nat) (f : AesRx → AesRx) (s : State) : (onAes n f s).flows = s.flows := rfl
@[simp] theorem onAes_outs (n : Nat) (f : AesRx → AesRx) (s : State) : (onAes n f s).outs = s.outs := rfl
@[simp] theorem onAes_jack (n : Nat) (f : AesRx → AesRx) (s : State) : (onAes n f s).jack = s.jack := rfl
@[simp] theorem onAes_sense (n : Nat) (f : AesRx → AesRx) (s : State) : (onAes n f s).sense = s.sense := rfl
@[simp] theorem onAes_clk (n : Nat) (f : AesRx → AesRx) (s : State) : (onAes n f s).clk = s.clk := rfl
@[simp] theorem onAes_power (n : Nat) (f : AesRx → AesRx) (s : State) : (onAes n f s).power = s.power := rfl
@[simp] theorem onAes_cores (n : Nat) (f : AesRx → AesRx) (s : State) : (onAes n f s).cores = s.cores := rfl
@[simp] theorem onAes_cp (n : Nat) (f : AesRx → AesRx) (s : State) : (onAes n f s).cp = s.cp := rfl
@[simp] theorem onAes_mem (n : Nat) (f : AesRx → AesRx) (s : State) : (onAes n f s).mem = s.mem := rfl
@[simp] theorem onAes_sec (n : Nat) (f : AesRx → AesRx) (s : State) : (onAes n f s).sec = s.sec := rfl
@[simp] theorem onAes_seals (n : Nat) (f : AesRx → AesRx) (s : State) : (onAes n f s).seals = s.seals := rfl
@[simp] theorem onAes_flt (n : Nat) (f : AesRx → AesRx) (s : State) : (onAes n f s).flt = s.flt := rfl
@[simp] theorem onAes_margin (n : Nat) (f : AesRx → AesRx) (s : State) : (onAes n f s).margin = s.margin := rfl
@[simp] theorem onAes_pins (n : Nat) (f : AesRx → AesRx) (s : State) : (onAes n f s).pins = s.pins := rfl

@[simp] theorem onTracker_pending (n : Nat) (f : Tracker → Tracker) (s : State) : (onTracker n f s).pending = s.pending := rfl
@[simp] theorem onTracker_free (n : Nat) (f : Tracker → Tracker) (s : State) : (onTracker n f s).free = s.free := rfl
@[simp] theorem onTracker_tb (n : Nat) (f : Tracker → Tracker) (s : State) : (onTracker n f s).tb = s.tb := rfl
@[simp] theorem onTracker_host (n : Nat) (f : Tracker → Tracker) (s : State) : (onTracker n f s).host = s.host := rfl
@[simp] theorem onTracker_deferred (n : Nat) (f : Tracker → Tracker) (s : State) : (onTracker n f s).deferred = s.deferred := rfl
@[simp] theorem onTracker_irq (n : Nat) (f : Tracker → Tracker) (s : State) : (onTracker n f s).irq = s.irq := rfl
@[simp] theorem onTracker_sets (n : Nat) (f : Tracker → Tracker) (s : State) : (onTracker n f s).sets = s.sets := rfl
@[simp] theorem onTracker_fe (n : Nat) (f : Tracker → Tracker) (s : State) : (onTracker n f s).fe = s.fe := rfl
@[simp] theorem onTracker_cal (n : Nat) (f : Tracker → Tracker) (s : State) : (onTracker n f s).cal = s.cal := rfl
@[simp] theorem onTracker_filt (n : Nat) (f : Tracker → Tracker) (s : State) : (onTracker n f s).filt = s.filt := rfl
@[simp] theorem onTracker_mtx (n : Nat) (f : Tracker → Tracker) (s : State) : (onTracker n f s).mtx = s.mtx := rfl
@[simp] theorem onTracker_mr (n : Nat) (f : Tracker → Tracker) (s : State) : (onTracker n f s).mr = s.mr := rfl
@[simp] theorem onTracker_panic (n : Nat) (f : Tracker → Tracker) (s : State) : (onTracker n f s).panic = s.panic := rfl
@[simp] theorem onTracker_flows (n : Nat) (f : Tracker → Tracker) (s : State) : (onTracker n f s).flows = s.flows := rfl
@[simp] theorem onTracker_outs (n : Nat) (f : Tracker → Tracker) (s : State) : (onTracker n f s).outs = s.outs := rfl
@[simp] theorem onTracker_jack (n : Nat) (f : Tracker → Tracker) (s : State) : (onTracker n f s).jack = s.jack := rfl
@[simp] theorem onTracker_sense (n : Nat) (f : Tracker → Tracker) (s : State) : (onTracker n f s).sense = s.sense := rfl
@[simp] theorem onTracker_clk (n : Nat) (f : Tracker → Tracker) (s : State) : (onTracker n f s).clk = s.clk := rfl
@[simp] theorem onTracker_power (n : Nat) (f : Tracker → Tracker) (s : State) : (onTracker n f s).power = s.power := rfl
@[simp] theorem onTracker_cores (n : Nat) (f : Tracker → Tracker) (s : State) : (onTracker n f s).cores = s.cores := rfl
@[simp] theorem onTracker_cp (n : Nat) (f : Tracker → Tracker) (s : State) : (onTracker n f s).cp = s.cp := rfl
@[simp] theorem onTracker_mem (n : Nat) (f : Tracker → Tracker) (s : State) : (onTracker n f s).mem = s.mem := rfl
@[simp] theorem onTracker_sec (n : Nat) (f : Tracker → Tracker) (s : State) : (onTracker n f s).sec = s.sec := rfl
@[simp] theorem onTracker_seals (n : Nat) (f : Tracker → Tracker) (s : State) : (onTracker n f s).seals = s.seals := rfl
@[simp] theorem onTracker_flt (n : Nat) (f : Tracker → Tracker) (s : State) : (onTracker n f s).flt = s.flt := rfl
@[simp] theorem onTracker_margin (n : Nat) (f : Tracker → Tracker) (s : State) : (onTracker n f s).margin = s.margin := rfl
@[simp] theorem onTracker_pins (n : Nat) (f : Tracker → Tracker) (s : State) : (onTracker n f s).pins = s.pins := rfl

@[simp] theorem onJack_pending (n : Nat) (f : JackRun → JackRun) (s : State) : (onJack n f s).pending = s.pending := rfl
@[simp] theorem onJack_free (n : Nat) (f : JackRun → JackRun) (s : State) : (onJack n f s).free = s.free := rfl
@[simp] theorem onJack_tb (n : Nat) (f : JackRun → JackRun) (s : State) : (onJack n f s).tb = s.tb := rfl
@[simp] theorem onJack_host (n : Nat) (f : JackRun → JackRun) (s : State) : (onJack n f s).host = s.host := rfl
@[simp] theorem onJack_deferred (n : Nat) (f : JackRun → JackRun) (s : State) : (onJack n f s).deferred = s.deferred := rfl
@[simp] theorem onJack_irq (n : Nat) (f : JackRun → JackRun) (s : State) : (onJack n f s).irq = s.irq := rfl
@[simp] theorem onJack_sets (n : Nat) (f : JackRun → JackRun) (s : State) : (onJack n f s).sets = s.sets := rfl
@[simp] theorem onJack_fe (n : Nat) (f : JackRun → JackRun) (s : State) : (onJack n f s).fe = s.fe := rfl
@[simp] theorem onJack_cal (n : Nat) (f : JackRun → JackRun) (s : State) : (onJack n f s).cal = s.cal := rfl
@[simp] theorem onJack_filt (n : Nat) (f : JackRun → JackRun) (s : State) : (onJack n f s).filt = s.filt := rfl
@[simp] theorem onJack_mtx (n : Nat) (f : JackRun → JackRun) (s : State) : (onJack n f s).mtx = s.mtx := rfl
@[simp] theorem onJack_mr (n : Nat) (f : JackRun → JackRun) (s : State) : (onJack n f s).mr = s.mr := rfl
@[simp] theorem onJack_panic (n : Nat) (f : JackRun → JackRun) (s : State) : (onJack n f s).panic = s.panic := rfl
@[simp] theorem onJack_flows (n : Nat) (f : JackRun → JackRun) (s : State) : (onJack n f s).flows = s.flows := rfl
@[simp] theorem onJack_ports (n : Nat) (f : JackRun → JackRun) (s : State) : (onJack n f s).ports = s.ports := rfl
@[simp] theorem onJack_outs (n : Nat) (f : JackRun → JackRun) (s : State) : (onJack n f s).outs = s.outs := rfl
@[simp] theorem onJack_sense (n : Nat) (f : JackRun → JackRun) (s : State) : (onJack n f s).sense = s.sense := rfl
@[simp] theorem onJack_clk (n : Nat) (f : JackRun → JackRun) (s : State) : (onJack n f s).clk = s.clk := rfl
@[simp] theorem onJack_power (n : Nat) (f : JackRun → JackRun) (s : State) : (onJack n f s).power = s.power := rfl
@[simp] theorem onJack_cores (n : Nat) (f : JackRun → JackRun) (s : State) : (onJack n f s).cores = s.cores := rfl
@[simp] theorem onJack_cp (n : Nat) (f : JackRun → JackRun) (s : State) : (onJack n f s).cp = s.cp := rfl
@[simp] theorem onJack_mem (n : Nat) (f : JackRun → JackRun) (s : State) : (onJack n f s).mem = s.mem := rfl
@[simp] theorem onJack_sec (n : Nat) (f : JackRun → JackRun) (s : State) : (onJack n f s).sec = s.sec := rfl
@[simp] theorem onJack_seals (n : Nat) (f : JackRun → JackRun) (s : State) : (onJack n f s).seals = s.seals := rfl
@[simp] theorem onJack_flt (n : Nat) (f : JackRun → JackRun) (s : State) : (onJack n f s).flt = s.flt := rfl
@[simp] theorem onJack_margin (n : Nat) (f : JackRun → JackRun) (s : State) : (onJack n f s).margin = s.margin := rfl
@[simp] theorem onJack_pins (n : Nat) (f : JackRun → JackRun) (s : State) : (onJack n f s).pins = s.pins := rfl

@[simp] theorem onTap_pending (n : Nat) (f : TapRun → TapRun) (s : State) : (onTap n f s).pending = s.pending := rfl
@[simp] theorem onTap_free (n : Nat) (f : TapRun → TapRun) (s : State) : (onTap n f s).free = s.free := rfl
@[simp] theorem onTap_tb (n : Nat) (f : TapRun → TapRun) (s : State) : (onTap n f s).tb = s.tb := rfl
@[simp] theorem onTap_host (n : Nat) (f : TapRun → TapRun) (s : State) : (onTap n f s).host = s.host := rfl
@[simp] theorem onTap_deferred (n : Nat) (f : TapRun → TapRun) (s : State) : (onTap n f s).deferred = s.deferred := rfl
@[simp] theorem onTap_irq (n : Nat) (f : TapRun → TapRun) (s : State) : (onTap n f s).irq = s.irq := rfl
@[simp] theorem onTap_sets (n : Nat) (f : TapRun → TapRun) (s : State) : (onTap n f s).sets = s.sets := rfl
@[simp] theorem onTap_fe (n : Nat) (f : TapRun → TapRun) (s : State) : (onTap n f s).fe = s.fe := rfl
@[simp] theorem onTap_cal (n : Nat) (f : TapRun → TapRun) (s : State) : (onTap n f s).cal = s.cal := rfl
@[simp] theorem onTap_filt (n : Nat) (f : TapRun → TapRun) (s : State) : (onTap n f s).filt = s.filt := rfl
@[simp] theorem onTap_mtx (n : Nat) (f : TapRun → TapRun) (s : State) : (onTap n f s).mtx = s.mtx := rfl
@[simp] theorem onTap_panic (n : Nat) (f : TapRun → TapRun) (s : State) : (onTap n f s).panic = s.panic := rfl
@[simp] theorem onTap_flows (n : Nat) (f : TapRun → TapRun) (s : State) : (onTap n f s).flows = s.flows := rfl
@[simp] theorem onTap_ports (n : Nat) (f : TapRun → TapRun) (s : State) : (onTap n f s).ports = s.ports := rfl
@[simp] theorem onTap_outs (n : Nat) (f : TapRun → TapRun) (s : State) : (onTap n f s).outs = s.outs := rfl
@[simp] theorem onTap_jack (n : Nat) (f : TapRun → TapRun) (s : State) : (onTap n f s).jack = s.jack := rfl
@[simp] theorem onTap_sense (n : Nat) (f : TapRun → TapRun) (s : State) : (onTap n f s).sense = s.sense := rfl
@[simp] theorem onTap_clk (n : Nat) (f : TapRun → TapRun) (s : State) : (onTap n f s).clk = s.clk := rfl
@[simp] theorem onTap_power (n : Nat) (f : TapRun → TapRun) (s : State) : (onTap n f s).power = s.power := rfl
@[simp] theorem onTap_cores (n : Nat) (f : TapRun → TapRun) (s : State) : (onTap n f s).cores = s.cores := rfl
@[simp] theorem onTap_cp (n : Nat) (f : TapRun → TapRun) (s : State) : (onTap n f s).cp = s.cp := rfl
@[simp] theorem onTap_mem (n : Nat) (f : TapRun → TapRun) (s : State) : (onTap n f s).mem = s.mem := rfl
@[simp] theorem onTap_sec (n : Nat) (f : TapRun → TapRun) (s : State) : (onTap n f s).sec = s.sec := rfl
@[simp] theorem onTap_seals (n : Nat) (f : TapRun → TapRun) (s : State) : (onTap n f s).seals = s.seals := rfl
@[simp] theorem onTap_flt (n : Nat) (f : TapRun → TapRun) (s : State) : (onTap n f s).flt = s.flt := rfl
@[simp] theorem onTap_margin (n : Nat) (f : TapRun → TapRun) (s : State) : (onTap n f s).margin = s.margin := rfl
@[simp] theorem onTap_pins (n : Nat) (f : TapRun → TapRun) (s : State) : (onTap n f s).pins = s.pins := rfl

@[simp] theorem onSealSt_pending (n : Nat) (f : SealSt → SealSt) (s : State) : (onSealSt n f s).pending = s.pending := rfl
@[simp] theorem onSealSt_free (n : Nat) (f : SealSt → SealSt) (s : State) : (onSealSt n f s).free = s.free := rfl
@[simp] theorem onSealSt_tb (n : Nat) (f : SealSt → SealSt) (s : State) : (onSealSt n f s).tb = s.tb := rfl
@[simp] theorem onSealSt_host (n : Nat) (f : SealSt → SealSt) (s : State) : (onSealSt n f s).host = s.host := rfl
@[simp] theorem onSealSt_deferred (n : Nat) (f : SealSt → SealSt) (s : State) : (onSealSt n f s).deferred = s.deferred := rfl
@[simp] theorem onSealSt_irq (n : Nat) (f : SealSt → SealSt) (s : State) : (onSealSt n f s).irq = s.irq := rfl
@[simp] theorem onSealSt_sets (n : Nat) (f : SealSt → SealSt) (s : State) : (onSealSt n f s).sets = s.sets := rfl
@[simp] theorem onSealSt_fe (n : Nat) (f : SealSt → SealSt) (s : State) : (onSealSt n f s).fe = s.fe := rfl
@[simp] theorem onSealSt_cal (n : Nat) (f : SealSt → SealSt) (s : State) : (onSealSt n f s).cal = s.cal := rfl
@[simp] theorem onSealSt_filt (n : Nat) (f : SealSt → SealSt) (s : State) : (onSealSt n f s).filt = s.filt := rfl
@[simp] theorem onSealSt_mtx (n : Nat) (f : SealSt → SealSt) (s : State) : (onSealSt n f s).mtx = s.mtx := rfl
@[simp] theorem onSealSt_mr (n : Nat) (f : SealSt → SealSt) (s : State) : (onSealSt n f s).mr = s.mr := rfl
@[simp] theorem onSealSt_panic (n : Nat) (f : SealSt → SealSt) (s : State) : (onSealSt n f s).panic = s.panic := rfl
@[simp] theorem onSealSt_flows (n : Nat) (f : SealSt → SealSt) (s : State) : (onSealSt n f s).flows = s.flows := rfl
@[simp] theorem onSealSt_ports (n : Nat) (f : SealSt → SealSt) (s : State) : (onSealSt n f s).ports = s.ports := rfl
@[simp] theorem onSealSt_outs (n : Nat) (f : SealSt → SealSt) (s : State) : (onSealSt n f s).outs = s.outs := rfl
@[simp] theorem onSealSt_jack (n : Nat) (f : SealSt → SealSt) (s : State) : (onSealSt n f s).jack = s.jack := rfl
@[simp] theorem onSealSt_sense (n : Nat) (f : SealSt → SealSt) (s : State) : (onSealSt n f s).sense = s.sense := rfl
@[simp] theorem onSealSt_clk (n : Nat) (f : SealSt → SealSt) (s : State) : (onSealSt n f s).clk = s.clk := rfl
@[simp] theorem onSealSt_power (n : Nat) (f : SealSt → SealSt) (s : State) : (onSealSt n f s).power = s.power := rfl
@[simp] theorem onSealSt_cores (n : Nat) (f : SealSt → SealSt) (s : State) : (onSealSt n f s).cores = s.cores := rfl
@[simp] theorem onSealSt_cp (n : Nat) (f : SealSt → SealSt) (s : State) : (onSealSt n f s).cp = s.cp := rfl
@[simp] theorem onSealSt_mem (n : Nat) (f : SealSt → SealSt) (s : State) : (onSealSt n f s).mem = s.mem := rfl
@[simp] theorem onSealSt_sec (n : Nat) (f : SealSt → SealSt) (s : State) : (onSealSt n f s).sec = s.sec := rfl
@[simp] theorem onSealSt_flt (n : Nat) (f : SealSt → SealSt) (s : State) : (onSealSt n f s).flt = s.flt := rfl
@[simp] theorem onSealSt_margin (n : Nat) (f : SealSt → SealSt) (s : State) : (onSealSt n f s).margin = s.margin := rfl
@[simp] theorem onSealSt_pins (n : Nat) (f : SealSt → SealSt) (s : State) : (onSealSt n f s).pins = s.pins := rfl

@[simp] theorem onChRec_pending (n : Nat) (f : Quad → Quad) (s : State) : (onChRec n f s).pending = s.pending := rfl
@[simp] theorem onChRec_free (n : Nat) (f : Quad → Quad) (s : State) : (onChRec n f s).free = s.free := rfl
@[simp] theorem onChRec_tb (n : Nat) (f : Quad → Quad) (s : State) : (onChRec n f s).tb = s.tb := rfl
@[simp] theorem onChRec_host (n : Nat) (f : Quad → Quad) (s : State) : (onChRec n f s).host = s.host := rfl
@[simp] theorem onChRec_deferred (n : Nat) (f : Quad → Quad) (s : State) : (onChRec n f s).deferred = s.deferred := rfl
@[simp] theorem onChRec_irq (n : Nat) (f : Quad → Quad) (s : State) : (onChRec n f s).irq = s.irq := rfl
@[simp] theorem onChRec_sets (n : Nat) (f : Quad → Quad) (s : State) : (onChRec n f s).sets = s.sets := rfl
@[simp] theorem onChRec_fe (n : Nat) (f : Quad → Quad) (s : State) : (onChRec n f s).fe = s.fe := rfl
@[simp] theorem onChRec_filt (n : Nat) (f : Quad → Quad) (s : State) : (onChRec n f s).filt = s.filt := rfl
@[simp] theorem onChRec_mtx (n : Nat) (f : Quad → Quad) (s : State) : (onChRec n f s).mtx = s.mtx := rfl
@[simp] theorem onChRec_mr (n : Nat) (f : Quad → Quad) (s : State) : (onChRec n f s).mr = s.mr := rfl
@[simp] theorem onChRec_panic (n : Nat) (f : Quad → Quad) (s : State) : (onChRec n f s).panic = s.panic := rfl
@[simp] theorem onChRec_flows (n : Nat) (f : Quad → Quad) (s : State) : (onChRec n f s).flows = s.flows := rfl
@[simp] theorem onChRec_ports (n : Nat) (f : Quad → Quad) (s : State) : (onChRec n f s).ports = s.ports := rfl
@[simp] theorem onChRec_outs (n : Nat) (f : Quad → Quad) (s : State) : (onChRec n f s).outs = s.outs := rfl
@[simp] theorem onChRec_jack (n : Nat) (f : Quad → Quad) (s : State) : (onChRec n f s).jack = s.jack := rfl
@[simp] theorem onChRec_sense (n : Nat) (f : Quad → Quad) (s : State) : (onChRec n f s).sense = s.sense := rfl
@[simp] theorem onChRec_clk (n : Nat) (f : Quad → Quad) (s : State) : (onChRec n f s).clk = s.clk := rfl
@[simp] theorem onChRec_power (n : Nat) (f : Quad → Quad) (s : State) : (onChRec n f s).power = s.power := rfl
@[simp] theorem onChRec_cores (n : Nat) (f : Quad → Quad) (s : State) : (onChRec n f s).cores = s.cores := rfl
@[simp] theorem onChRec_cp (n : Nat) (f : Quad → Quad) (s : State) : (onChRec n f s).cp = s.cp := rfl
@[simp] theorem onChRec_mem (n : Nat) (f : Quad → Quad) (s : State) : (onChRec n f s).mem = s.mem := rfl
@[simp] theorem onChRec_sec (n : Nat) (f : Quad → Quad) (s : State) : (onChRec n f s).sec = s.sec := rfl
@[simp] theorem onChRec_seals (n : Nat) (f : Quad → Quad) (s : State) : (onChRec n f s).seals = s.seals := rfl
@[simp] theorem onChRec_flt (n : Nat) (f : Quad → Quad) (s : State) : (onChRec n f s).flt = s.flt := rfl
@[simp] theorem onChRec_margin (n : Nat) (f : Quad → Quad) (s : State) : (onChRec n f s).margin = s.margin := rfl
@[simp] theorem onChRec_pins (n : Nat) (f : Quad → Quad) (s : State) : (onChRec n f s).pins = s.pins := rfl

@[simp] theorem onPairRec_pending (n : Nat) (f : Quad → Quad) (s : State) : (onPairRec n f s).pending = s.pending := rfl
@[simp] theorem onPairRec_free (n : Nat) (f : Quad → Quad) (s : State) : (onPairRec n f s).free = s.free := rfl
@[simp] theorem onPairRec_tb (n : Nat) (f : Quad → Quad) (s : State) : (onPairRec n f s).tb = s.tb := rfl
@[simp] theorem onPairRec_host (n : Nat) (f : Quad → Quad) (s : State) : (onPairRec n f s).host = s.host := rfl
@[simp] theorem onPairRec_deferred (n : Nat) (f : Quad → Quad) (s : State) : (onPairRec n f s).deferred = s.deferred := rfl
@[simp] theorem onPairRec_irq (n : Nat) (f : Quad → Quad) (s : State) : (onPairRec n f s).irq = s.irq := rfl
@[simp] theorem onPairRec_sets (n : Nat) (f : Quad → Quad) (s : State) : (onPairRec n f s).sets = s.sets := rfl
@[simp] theorem onPairRec_fe (n : Nat) (f : Quad → Quad) (s : State) : (onPairRec n f s).fe = s.fe := rfl
@[simp] theorem onPairRec_filt (n : Nat) (f : Quad → Quad) (s : State) : (onPairRec n f s).filt = s.filt := rfl
@[simp] theorem onPairRec_mtx (n : Nat) (f : Quad → Quad) (s : State) : (onPairRec n f s).mtx = s.mtx := rfl
@[simp] theorem onPairRec_mr (n : Nat) (f : Quad → Quad) (s : State) : (onPairRec n f s).mr = s.mr := rfl
@[simp] theorem onPairRec_panic (n : Nat) (f : Quad → Quad) (s : State) : (onPairRec n f s).panic = s.panic := rfl
@[simp] theorem onPairRec_flows (n : Nat) (f : Quad → Quad) (s : State) : (onPairRec n f s).flows = s.flows := rfl
@[simp] theorem onPairRec_ports (n : Nat) (f : Quad → Quad) (s : State) : (onPairRec n f s).ports = s.ports := rfl
@[simp] theorem onPairRec_outs (n : Nat) (f : Quad → Quad) (s : State) : (onPairRec n f s).outs = s.outs := rfl
@[simp] theorem onPairRec_jack (n : Nat) (f : Quad → Quad) (s : State) : (onPairRec n f s).jack = s.jack := rfl
@[simp] theorem onPairRec_sense (n : Nat) (f : Quad → Quad) (s : State) : (onPairRec n f s).sense = s.sense := rfl
@[simp] theorem onPairRec_clk (n : Nat) (f : Quad → Quad) (s : State) : (onPairRec n f s).clk = s.clk := rfl
@[simp] theorem onPairRec_power (n : Nat) (f : Quad → Quad) (s : State) : (onPairRec n f s).power = s.power := rfl
@[simp] theorem onPairRec_cores (n : Nat) (f : Quad → Quad) (s : State) : (onPairRec n f s).cores = s.cores := rfl
@[simp] theorem onPairRec_cp (n : Nat) (f : Quad → Quad) (s : State) : (onPairRec n f s).cp = s.cp := rfl
@[simp] theorem onPairRec_mem (n : Nat) (f : Quad → Quad) (s : State) : (onPairRec n f s).mem = s.mem := rfl
@[simp] theorem onPairRec_sec (n : Nat) (f : Quad → Quad) (s : State) : (onPairRec n f s).sec = s.sec := rfl
@[simp] theorem onPairRec_seals (n : Nat) (f : Quad → Quad) (s : State) : (onPairRec n f s).seals = s.seals := rfl
@[simp] theorem onPairRec_flt (n : Nat) (f : Quad → Quad) (s : State) : (onPairRec n f s).flt = s.flt := rfl
@[simp] theorem onPairRec_margin (n : Nat) (f : Quad → Quad) (s : State) : (onPairRec n f s).margin = s.margin := rfl
@[simp] theorem onPairRec_pins (n : Nat) (f : Quad → Quad) (s : State) : (onPairRec n f s).pins = s.pins := rfl

@[simp] theorem putTagged_pending (a : Nat) (w : Word) (t : BitVec 4) (s : State) : (putTagged a w t s).pending = s.pending := rfl
@[simp] theorem putTagged_free (a : Nat) (w : Word) (t : BitVec 4) (s : State) : (putTagged a w t s).free = s.free := rfl
@[simp] theorem putTagged_tb (a : Nat) (w : Word) (t : BitVec 4) (s : State) : (putTagged a w t s).tb = s.tb := rfl
@[simp] theorem putTagged_host (a : Nat) (w : Word) (t : BitVec 4) (s : State) : (putTagged a w t s).host = s.host := rfl
@[simp] theorem putTagged_deferred (a : Nat) (w : Word) (t : BitVec 4) (s : State) : (putTagged a w t s).deferred = s.deferred := rfl
@[simp] theorem putTagged_irq (a : Nat) (w : Word) (t : BitVec 4) (s : State) : (putTagged a w t s).irq = s.irq := rfl
@[simp] theorem putTagged_sets (a : Nat) (w : Word) (t : BitVec 4) (s : State) : (putTagged a w t s).sets = s.sets := rfl
@[simp] theorem putTagged_fe (a : Nat) (w : Word) (t : BitVec 4) (s : State) : (putTagged a w t s).fe = s.fe := rfl
@[simp] theorem putTagged_cal (a : Nat) (w : Word) (t : BitVec 4) (s : State) : (putTagged a w t s).cal = s.cal := rfl
@[simp] theorem putTagged_filt (a : Nat) (w : Word) (t : BitVec 4) (s : State) : (putTagged a w t s).filt = s.filt := rfl
@[simp] theorem putTagged_mtx (a : Nat) (w : Word) (t : BitVec 4) (s : State) : (putTagged a w t s).mtx = s.mtx := rfl
@[simp] theorem putTagged_mr (a : Nat) (w : Word) (t : BitVec 4) (s : State) : (putTagged a w t s).mr = s.mr := rfl
@[simp] theorem putTagged_panic (a : Nat) (w : Word) (t : BitVec 4) (s : State) : (putTagged a w t s).panic = s.panic := rfl
@[simp] theorem putTagged_flows (a : Nat) (w : Word) (t : BitVec 4) (s : State) : (putTagged a w t s).flows = s.flows := rfl
@[simp] theorem putTagged_ports (a : Nat) (w : Word) (t : BitVec 4) (s : State) : (putTagged a w t s).ports = s.ports := rfl
@[simp] theorem putTagged_outs (a : Nat) (w : Word) (t : BitVec 4) (s : State) : (putTagged a w t s).outs = s.outs := rfl
@[simp] theorem putTagged_jack (a : Nat) (w : Word) (t : BitVec 4) (s : State) : (putTagged a w t s).jack = s.jack := rfl
@[simp] theorem putTagged_sense (a : Nat) (w : Word) (t : BitVec 4) (s : State) : (putTagged a w t s).sense = s.sense := rfl
@[simp] theorem putTagged_clk (a : Nat) (w : Word) (t : BitVec 4) (s : State) : (putTagged a w t s).clk = s.clk := rfl
@[simp] theorem putTagged_power (a : Nat) (w : Word) (t : BitVec 4) (s : State) : (putTagged a w t s).power = s.power := rfl
@[simp] theorem putTagged_cores (a : Nat) (w : Word) (t : BitVec 4) (s : State) : (putTagged a w t s).cores = s.cores := rfl
@[simp] theorem putTagged_cp (a : Nat) (w : Word) (t : BitVec 4) (s : State) : (putTagged a w t s).cp = s.cp := rfl
@[simp] theorem putTagged_sec (a : Nat) (w : Word) (t : BitVec 4) (s : State) : (putTagged a w t s).sec = s.sec := rfl
@[simp] theorem putTagged_seals (a : Nat) (w : Word) (t : BitVec 4) (s : State) : (putTagged a w t s).seals = s.seals := rfl
@[simp] theorem putTagged_flt (a : Nat) (w : Word) (t : BitVec 4) (s : State) : (putTagged a w t s).flt = s.flt := rfl
@[simp] theorem putTagged_margin (a : Nat) (w : Word) (t : BitVec 4) (s : State) : (putTagged a w t s).margin = s.margin := rfl
@[simp] theorem putTagged_pins (a : Nat) (w : Word) (t : BitVec 4) (s : State) : (putTagged a w t s).pins = s.pins := rfl

@[simp] theorem busErr_pending (b : Bool) (s : State) : (busErr b s).pending = s.pending := rfl
@[simp] theorem busErr_free (b : Bool) (s : State) : (busErr b s).free = s.free := rfl
@[simp] theorem busErr_tb (b : Bool) (s : State) : (busErr b s).tb = s.tb := rfl
@[simp] theorem busErr_host (b : Bool) (s : State) : (busErr b s).host = s.host := rfl
@[simp] theorem busErr_deferred (b : Bool) (s : State) : (busErr b s).deferred = s.deferred := rfl
@[simp] theorem busErr_irq (b : Bool) (s : State) : (busErr b s).irq = s.irq := rfl
@[simp] theorem busErr_sets (b : Bool) (s : State) : (busErr b s).sets = s.sets := rfl
@[simp] theorem busErr_fe (b : Bool) (s : State) : (busErr b s).fe = s.fe := rfl
@[simp] theorem busErr_cal (b : Bool) (s : State) : (busErr b s).cal = s.cal := rfl
@[simp] theorem busErr_filt (b : Bool) (s : State) : (busErr b s).filt = s.filt := rfl
@[simp] theorem busErr_mtx (b : Bool) (s : State) : (busErr b s).mtx = s.mtx := rfl
@[simp] theorem busErr_mr (b : Bool) (s : State) : (busErr b s).mr = s.mr := rfl
@[simp] theorem busErr_panic (b : Bool) (s : State) : (busErr b s).panic = s.panic := rfl
@[simp] theorem busErr_flows (b : Bool) (s : State) : (busErr b s).flows = s.flows := rfl
@[simp] theorem busErr_ports (b : Bool) (s : State) : (busErr b s).ports = s.ports := rfl
@[simp] theorem busErr_outs (b : Bool) (s : State) : (busErr b s).outs = s.outs := rfl
@[simp] theorem busErr_jack (b : Bool) (s : State) : (busErr b s).jack = s.jack := rfl
@[simp] theorem busErr_sense (b : Bool) (s : State) : (busErr b s).sense = s.sense := rfl
@[simp] theorem busErr_clk (b : Bool) (s : State) : (busErr b s).clk = s.clk := rfl
@[simp] theorem busErr_power (b : Bool) (s : State) : (busErr b s).power = s.power := rfl
@[simp] theorem busErr_cores (b : Bool) (s : State) : (busErr b s).cores = s.cores := rfl
@[simp] theorem busErr_mem (b : Bool) (s : State) : (busErr b s).mem = s.mem := rfl
@[simp] theorem busErr_sec (b : Bool) (s : State) : (busErr b s).sec = s.sec := rfl
@[simp] theorem busErr_seals (b : Bool) (s : State) : (busErr b s).seals = s.seals := rfl
@[simp] theorem busErr_flt (b : Bool) (s : State) : (busErr b s).flt = s.flt := rfl
@[simp] theorem busErr_margin (b : Bool) (s : State) : (busErr b s).margin = s.margin := rfl
@[simp] theorem busErr_pins (b : Bool) (s : State) : (busErr b s).pins = s.pins := rfl

@[simp] theorem unlock_pending (b : Bool) (s : State) : (unlock b s).pending = s.pending := rfl
@[simp] theorem unlock_free (b : Bool) (s : State) : (unlock b s).free = s.free := rfl
@[simp] theorem unlock_tb (b : Bool) (s : State) : (unlock b s).tb = s.tb := rfl
@[simp] theorem unlock_host (b : Bool) (s : State) : (unlock b s).host = s.host := rfl
@[simp] theorem unlock_deferred (b : Bool) (s : State) : (unlock b s).deferred = s.deferred := rfl
@[simp] theorem unlock_irq (b : Bool) (s : State) : (unlock b s).irq = s.irq := rfl
@[simp] theorem unlock_sets (b : Bool) (s : State) : (unlock b s).sets = s.sets := rfl
@[simp] theorem unlock_fe (b : Bool) (s : State) : (unlock b s).fe = s.fe := rfl
@[simp] theorem unlock_cal (b : Bool) (s : State) : (unlock b s).cal = s.cal := rfl
@[simp] theorem unlock_filt (b : Bool) (s : State) : (unlock b s).filt = s.filt := rfl
@[simp] theorem unlock_mtx (b : Bool) (s : State) : (unlock b s).mtx = s.mtx := rfl
@[simp] theorem unlock_mr (b : Bool) (s : State) : (unlock b s).mr = s.mr := rfl
@[simp] theorem unlock_panic (b : Bool) (s : State) : (unlock b s).panic = s.panic := rfl
@[simp] theorem unlock_flows (b : Bool) (s : State) : (unlock b s).flows = s.flows := rfl
@[simp] theorem unlock_ports (b : Bool) (s : State) : (unlock b s).ports = s.ports := rfl
@[simp] theorem unlock_outs (b : Bool) (s : State) : (unlock b s).outs = s.outs := rfl
@[simp] theorem unlock_jack (b : Bool) (s : State) : (unlock b s).jack = s.jack := rfl
@[simp] theorem unlock_sense (b : Bool) (s : State) : (unlock b s).sense = s.sense := rfl
@[simp] theorem unlock_clk (b : Bool) (s : State) : (unlock b s).clk = s.clk := rfl
@[simp] theorem unlock_power (b : Bool) (s : State) : (unlock b s).power = s.power := rfl
@[simp] theorem unlock_cores (b : Bool) (s : State) : (unlock b s).cores = s.cores := rfl
@[simp] theorem unlock_mem (b : Bool) (s : State) : (unlock b s).mem = s.mem := rfl
@[simp] theorem unlock_sec (b : Bool) (s : State) : (unlock b s).sec = s.sec := rfl
@[simp] theorem unlock_seals (b : Bool) (s : State) : (unlock b s).seals = s.seals := rfl
@[simp] theorem unlock_flt (b : Bool) (s : State) : (unlock b s).flt = s.flt := rfl
@[simp] theorem unlock_margin (b : Bool) (s : State) : (unlock b s).margin = s.margin := rfl
@[simp] theorem unlock_pins (b : Bool) (s : State) : (unlock b s).pins = s.pins := rfl

@[simp] theorem vcmRamp_pending (v : Vcm) (s : State) : (vcmRamp v s).pending = s.pending := rfl
@[simp] theorem vcmRamp_free (v : Vcm) (s : State) : (vcmRamp v s).free = s.free := rfl
@[simp] theorem vcmRamp_tb (v : Vcm) (s : State) : (vcmRamp v s).tb = s.tb := rfl
@[simp] theorem vcmRamp_host (v : Vcm) (s : State) : (vcmRamp v s).host = s.host := rfl
@[simp] theorem vcmRamp_deferred (v : Vcm) (s : State) : (vcmRamp v s).deferred = s.deferred := rfl
@[simp] theorem vcmRamp_irq (v : Vcm) (s : State) : (vcmRamp v s).irq = s.irq := rfl
@[simp] theorem vcmRamp_sets (v : Vcm) (s : State) : (vcmRamp v s).sets = s.sets := rfl
@[simp] theorem vcmRamp_fe (v : Vcm) (s : State) : (vcmRamp v s).fe = s.fe := rfl
@[simp] theorem vcmRamp_cal (v : Vcm) (s : State) : (vcmRamp v s).cal = s.cal := rfl
@[simp] theorem vcmRamp_filt (v : Vcm) (s : State) : (vcmRamp v s).filt = s.filt := rfl
@[simp] theorem vcmRamp_mtx (v : Vcm) (s : State) : (vcmRamp v s).mtx = s.mtx := rfl
@[simp] theorem vcmRamp_mr (v : Vcm) (s : State) : (vcmRamp v s).mr = s.mr := rfl
@[simp] theorem vcmRamp_panic (v : Vcm) (s : State) : (vcmRamp v s).panic = s.panic := rfl
@[simp] theorem vcmRamp_flows (v : Vcm) (s : State) : (vcmRamp v s).flows = s.flows := rfl
@[simp] theorem vcmRamp_ports (v : Vcm) (s : State) : (vcmRamp v s).ports = s.ports := rfl
@[simp] theorem vcmRamp_jack (v : Vcm) (s : State) : (vcmRamp v s).jack = s.jack := rfl
@[simp] theorem vcmRamp_sense (v : Vcm) (s : State) : (vcmRamp v s).sense = s.sense := rfl
@[simp] theorem vcmRamp_clk (v : Vcm) (s : State) : (vcmRamp v s).clk = s.clk := rfl
@[simp] theorem vcmRamp_power (v : Vcm) (s : State) : (vcmRamp v s).power = s.power := rfl
@[simp] theorem vcmRamp_cores (v : Vcm) (s : State) : (vcmRamp v s).cores = s.cores := rfl
@[simp] theorem vcmRamp_cp (v : Vcm) (s : State) : (vcmRamp v s).cp = s.cp := rfl
@[simp] theorem vcmRamp_mem (v : Vcm) (s : State) : (vcmRamp v s).mem = s.mem := rfl
@[simp] theorem vcmRamp_sec (v : Vcm) (s : State) : (vcmRamp v s).sec = s.sec := rfl
@[simp] theorem vcmRamp_seals (v : Vcm) (s : State) : (vcmRamp v s).seals = s.seals := rfl
@[simp] theorem vcmRamp_flt (v : Vcm) (s : State) : (vcmRamp v s).flt = s.flt := rfl
@[simp] theorem vcmRamp_margin (v : Vcm) (s : State) : (vcmRamp v s).margin = s.margin := rfl
@[simp] theorem vcmRamp_pins (v : Vcm) (s : State) : (vcmRamp v s).pins = s.pins := rfl

@[simp] theorem fresh_pending (s : State) : (fresh s).pending = s.pending := rfl
@[simp] theorem fresh_free (s : State) : (fresh s).free = s.free := rfl
@[simp] theorem fresh_tb (s : State) : (fresh s).tb = s.tb := rfl
@[simp] theorem fresh_deferred (s : State) : (fresh s).deferred = s.deferred := rfl
@[simp] theorem fresh_irq (s : State) : (fresh s).irq = s.irq := rfl
@[simp] theorem fresh_sets (s : State) : (fresh s).sets = s.sets := rfl
@[simp] theorem fresh_fe (s : State) : (fresh s).fe = s.fe := rfl
@[simp] theorem fresh_cal (s : State) : (fresh s).cal = s.cal := rfl
@[simp] theorem fresh_filt (s : State) : (fresh s).filt = s.filt := rfl
@[simp] theorem fresh_mtx (s : State) : (fresh s).mtx = s.mtx := rfl
@[simp] theorem fresh_mr (s : State) : (fresh s).mr = s.mr := rfl
@[simp] theorem fresh_panic (s : State) : (fresh s).panic = s.panic := rfl
@[simp] theorem fresh_flows (s : State) : (fresh s).flows = s.flows := rfl
@[simp] theorem fresh_ports (s : State) : (fresh s).ports = s.ports := rfl
@[simp] theorem fresh_outs (s : State) : (fresh s).outs = s.outs := rfl
@[simp] theorem fresh_jack (s : State) : (fresh s).jack = s.jack := rfl
@[simp] theorem fresh_sense (s : State) : (fresh s).sense = s.sense := rfl
@[simp] theorem fresh_clk (s : State) : (fresh s).clk = s.clk := rfl
@[simp] theorem fresh_power (s : State) : (fresh s).power = s.power := rfl
@[simp] theorem fresh_cores (s : State) : (fresh s).cores = s.cores := rfl
@[simp] theorem fresh_cp (s : State) : (fresh s).cp = s.cp := rfl
@[simp] theorem fresh_mem (s : State) : (fresh s).mem = s.mem := rfl
@[simp] theorem fresh_sec (s : State) : (fresh s).sec = s.sec := rfl
@[simp] theorem fresh_seals (s : State) : (fresh s).seals = s.seals := rfl
@[simp] theorem fresh_flt (s : State) : (fresh s).flt = s.flt := rfl
@[simp] theorem fresh_margin (s : State) : (fresh s).margin = s.margin := rfl
@[simp] theorem fresh_pins (s : State) : (fresh s).pins = s.pins := rfl

@[simp] theorem answered_pending (op : Nat) (c : Status) (r : List Word) (s : State) : (answered op c r s).pending = s.pending := rfl
@[simp] theorem answered_free (op : Nat) (c : Status) (r : List Word) (s : State) : (answered op c r s).free = s.free := rfl
@[simp] theorem answered_tb (op : Nat) (c : Status) (r : List Word) (s : State) : (answered op c r s).tb = s.tb := rfl
@[simp] theorem answered_deferred (op : Nat) (c : Status) (r : List Word) (s : State) : (answered op c r s).deferred = s.deferred := rfl
@[simp] theorem answered_irq (op : Nat) (c : Status) (r : List Word) (s : State) : (answered op c r s).irq = s.irq := rfl
@[simp] theorem answered_sets (op : Nat) (c : Status) (r : List Word) (s : State) : (answered op c r s).sets = s.sets := rfl
@[simp] theorem answered_fe (op : Nat) (c : Status) (r : List Word) (s : State) : (answered op c r s).fe = s.fe := rfl
@[simp] theorem answered_cal (op : Nat) (c : Status) (r : List Word) (s : State) : (answered op c r s).cal = s.cal := rfl
@[simp] theorem answered_filt (op : Nat) (c : Status) (r : List Word) (s : State) : (answered op c r s).filt = s.filt := rfl
@[simp] theorem answered_mtx (op : Nat) (c : Status) (r : List Word) (s : State) : (answered op c r s).mtx = s.mtx := rfl
@[simp] theorem answered_mr (op : Nat) (c : Status) (r : List Word) (s : State) : (answered op c r s).mr = s.mr := rfl
@[simp] theorem answered_panic (op : Nat) (c : Status) (r : List Word) (s : State) : (answered op c r s).panic = s.panic := rfl
@[simp] theorem answered_flows (op : Nat) (c : Status) (r : List Word) (s : State) : (answered op c r s).flows = s.flows := rfl
@[simp] theorem answered_ports (op : Nat) (c : Status) (r : List Word) (s : State) : (answered op c r s).ports = s.ports := rfl
@[simp] theorem answered_outs (op : Nat) (c : Status) (r : List Word) (s : State) : (answered op c r s).outs = s.outs := rfl
@[simp] theorem answered_jack (op : Nat) (c : Status) (r : List Word) (s : State) : (answered op c r s).jack = s.jack := rfl
@[simp] theorem answered_sense (op : Nat) (c : Status) (r : List Word) (s : State) : (answered op c r s).sense = s.sense := rfl
@[simp] theorem answered_clk (op : Nat) (c : Status) (r : List Word) (s : State) : (answered op c r s).clk = s.clk := rfl
@[simp] theorem answered_power (op : Nat) (c : Status) (r : List Word) (s : State) : (answered op c r s).power = s.power := rfl
@[simp] theorem answered_cores (op : Nat) (c : Status) (r : List Word) (s : State) : (answered op c r s).cores = s.cores := rfl
@[simp] theorem answered_cp (op : Nat) (c : Status) (r : List Word) (s : State) : (answered op c r s).cp = s.cp := rfl
@[simp] theorem answered_mem (op : Nat) (c : Status) (r : List Word) (s : State) : (answered op c r s).mem = s.mem := rfl
@[simp] theorem answered_sec (op : Nat) (c : Status) (r : List Word) (s : State) : (answered op c r s).sec = s.sec := rfl
@[simp] theorem answered_seals (op : Nat) (c : Status) (r : List Word) (s : State) : (answered op c r s).seals = s.seals := rfl
@[simp] theorem answered_flt (op : Nat) (c : Status) (r : List Word) (s : State) : (answered op c r s).flt = s.flt := rfl
@[simp] theorem answered_margin (op : Nat) (c : Status) (r : List Word) (s : State) : (answered op c r s).margin = s.margin := rfl
@[simp] theorem answered_pins (op : Nat) (c : Status) (r : List Word) (s : State) : (answered op c r s).pins = s.pins := rfl

/-! ## Sub-fields that stay -/

@[simp] theorem raiseIrq_mask (i : Nat) (s : State) : (raiseIrq i s).irq.mask = s.irq.mask := rfl
@[simp] theorem raiseIf_mask (b : Bool) (i : Nat) (s : State) : (raiseIf b i s).irq.mask = s.irq.mask := by cases b <;> rfl
@[simp] theorem logFault_mask (c i : Nat) (d0 d1 : Word) (s : State) : (logFault c i d0 d1 s).irq.mask = s.irq.mask := by
  simp only [logFault_eq, raiseIrq]
@[simp] theorem logLasting_mask (c i t : Nat) (d0 d1 : Word) (s : State) : (logLasting c i t d0 d1 s).irq.mask = s.irq.mask := by
  simp only [logLasting, raiseIrq]
@[simp] theorem logRow_mask (c a : Nat) (s : State) : (logRow c a s).irq.mask = s.irq.mask := by
  unfold logRow; split <;> simp only [logFault_mask]
@[simp] theorem finishJob_mask (c : Status) (s : State) : (finishJob c s).irq.mask = s.irq.mask := rfl
@[simp] theorem settle_pending (s t : State) : (settle s t).pending = s.pending := rfl
@[simp] theorem settle_otp (s t : State) : (settle s t).sec.otp = s.sec.otp := rfl
@[simp] theorem settle_mem (s t : State) : (settle s t).mem = t.mem := rfl
@[simp] theorem settle_irq (s t : State) : (settle s t).irq = t.irq := rfl
@[simp] theorem settle_flt (s t : State) : (settle s t).flt = t.flt := rfl
@[simp] theorem settle_sets (s t : State) : (settle s t).sets = t.sets := rfl
@[simp] theorem settle_host (s t : State) : (settle s t).host = t.host := rfl
@[simp] theorem settle_free (s t : State) : (settle s t).free = t.free := rfl

/-! ## The fault log -/

theorem pushEntry_log_le (e : FaultEntry) (f : Faults) (h : f.log.length ≤ 64) : (pushEntry e f).log.length ≤ 64 := by
  unfold pushEntry; split
  · simp only [List.length_cons]; omega
  · simp only [List.length_cons, List.length_dropLast]; omega
@[simp] theorem pushEntry_written (e : FaultEntry) (f : Faults) : (pushEntry e f).written = f.written + 1 := by
  unfold pushEntry; split <;> rfl
@[simp] theorem logFault_written (c i : Nat) (d0 d1 : Word) (s : State) :
    (logFault c i d0 d1 s).flt.written = s.flt.written + 1 := by simp only [logFault_eq, raiseIrq]; exact pushEntry_written _ _
theorem logFault_log_le (c i : Nat) (d0 d1 : Word) (s : State) (h : s.flt.log.length ≤ 64) :
    (logFault c i d0 d1 s).flt.log.length ≤ 64 := by simp only [logFault_eq, raiseIrq]; exact pushEntry_log_le _ _ h
theorem logLasting_log_le (c i t : Nat) (d0 d1 : Word) (s : State) (h : s.flt.log.length ≤ 64) :
    (logLasting c i t d0 d1 s).flt.log.length ≤ 64 := by simp only [logLasting, raiseIrq]; exact pushEntry_log_le _ _ h
theorem logRow_log_le (c a : Nat) (s : State) (h : s.flt.log.length ≤ 64) : (logRow c a s).flt.log.length ≤ 64 := by
  unfold logRow; split
  · exact logFault_log_le _ _ _ _ _ h
  · exact h

/-! ## Tables: an entry after an update of one entry -/

theorem tget_tmod_same {α} [DecidableEq α] (d : α) (t : List (Nat × α)) (k : Nat) (f : α → α) :
    tget d (tmod d t k f) k = f (tget d t k) := tget_tput_same d _ t k
theorem tget_tmod_other {α} [DecidableEq α] (d : α) (t : List (Nat × α)) (k j : Nat) (f : α → α) (h : j ≠ k) :
    tget d (tmod d t k f) j = tget d t j := tget_tput_other d _ t k j h

@[simp] theorem chan_onChan_same (n : Nat) (f : Chan → Chan) (s : State) : chan (onChan n f s) n = f (chan s n) := tget_tput_same _ _ _ _
theorem chan_onChan_other (n k : Nat) (f : Chan → Chan) (s : State) (h : k ≠ n) : chan (onChan n f s) k = chan s k :=
  tget_tput_other _ _ _ _ _ h
@[simp] theorem refBuf_onRef_same (n : Nat) (f : RefBuf → RefBuf) (s : State) : refBuf (onRef n f s) n = f (refBuf s n) := tget_tput_same _ _ _ _
theorem refBuf_onRef_other (n k : Nat) (f : RefBuf → RefBuf) (s : State) (h : k ≠ n) : refBuf (onRef n f s) k = refBuf s k :=
  tget_tput_other _ _ _ _ _ h
@[simp] theorem flowRun_onFlow_same (n : Nat) (f : FlowRun → FlowRun) (s : State) : flowRun (onFlow n f s) n = f (flowRun s n) := tget_tput_same _ _ _ _
theorem flowRun_onFlow_other (n k : Nat) (f : FlowRun → FlowRun) (s : State) (h : k ≠ n) : flowRun (onFlow n f s) k = flowRun s k :=
  tget_tput_other _ _ _ _ _ h
@[simp] theorem core_onCore_same (n : Nat) (f : Core → Core) (s : State) : core (onCore n f s) n = f (core s n) := tget_tput_same _ _ _ _
theorem core_onCore_other (n k : Nat) (f : Core → Core) (s : State) (h : k ≠ n) : core (onCore n f s) k = core s k :=
  tget_tput_other _ _ _ _ _ h
@[simp] theorem jackRun_onJack_same (n : Nat) (f : JackRun → JackRun) (s : State) : jackRun (onJack n f s) n = f (jackRun s n) := tget_tput_same _ _ _ _
theorem jackRun_onJack_other (n k : Nat) (f : JackRun → JackRun) (s : State) (h : k ≠ n) : jackRun (onJack n f s) k = jackRun s k :=
  tget_tput_other _ _ _ _ _ h
@[simp] theorem tapRun_onTap_same (n : Nat) (f : TapRun → TapRun) (s : State) : tapRun (onTap n f s) n = f (tapRun s n) := tget_tput_same _ _ _ _
theorem tapRun_onTap_other (n k : Nat) (f : TapRun → TapRun) (s : State) (h : k ≠ n) : tapRun (onTap n f s) k = tapRun s k :=
  tget_tput_other _ _ _ _ _ h
@[simp] theorem sealOf_onSealSt_same (n : Nat) (f : SealSt → SealSt) (s : State) : sealOf (onSealSt n f s) n = f (sealOf s n) := tget_tput_same _ _ _ _
theorem sealOf_onSealSt_other (n k : Nat) (f : SealSt → SealSt) (s : State) (h : k ≠ n) : sealOf (onSealSt n f s) k = sealOf s k :=
  tget_tput_other _ _ _ _ _ h
@[simp] theorem dac_onDac_same (n : Nat) (f : Dac → Dac) (s : State) : dac (onDac n f s) n = f (dac s n) := tget_tput_same _ _ _ _
theorem dac_onDac_other (n k : Nat) (f : Dac → Dac) (s : State) (h : k ≠ n) : dac (onDac n f s) k = dac s k :=
  tget_tput_other _ _ _ _ _ h
@[simp] theorem pump_onPump_same (n : Nat) (f : Pump → Pump) (s : State) : pump (onPump n f s) n = f (pump s n) := tget_tput_same _ _ _ _
theorem pump_onPump_other (n k : Nat) (f : Pump → Pump) (s : State) (h : k ≠ n) : pump (onPump n f s) k = pump s k :=
  tget_tput_other _ _ _ _ _ h
@[simp] theorem tdm_onTdm_same (n : Nat) (f : TdmPort → TdmPort) (s : State) : tdm (onTdm n f s) n = f (tdm s n) := tget_tput_same _ _ _ _
theorem tdm_onTdm_other (n k : Nat) (f : TdmPort → TdmPort) (s : State) (h : k ≠ n) : tdm (onTdm n f s) k = tdm s k :=
  tget_tput_other _ _ _ _ _ h
@[simp] theorem aesRx_onAes_same (n : Nat) (f : AesRx → AesRx) (s : State) : aesRx (onAes n f s) n = f (aesRx s n) := tget_tput_same _ _ _ _
theorem aesRx_onAes_other (n k : Nat) (f : AesRx → AesRx) (s : State) (h : k ≠ n) : aesRx (onAes n f s) k = aesRx s k :=
  tget_tput_other _ _ _ _ _ h
@[simp] theorem tracker_onTracker_same (n : Nat) (f : Tracker → Tracker) (s : State) : tracker (onTracker n f s) n = f (tracker s n) := tget_tput_same _ _ _ _
theorem tracker_onTracker_other (n k : Nat) (f : Tracker → Tracker) (s : State) (h : k ≠ n) : tracker (onTracker n f s) k = tracker s k :=
  tget_tput_other _ _ _ _ _ h

/-! ## The configuration sets -/

@[simp] theorem shadow_onActive (f : ConfigSet → ConfigSet) (s : State) : shadow (onActive f s) = shadow s := by
  cases h : s.sets.selB <;> simp [onActive, shadow, h]
@[simp] theorem active_onActive (f : ConfigSet → ConfigSet) (s : State) : active (onActive f s) = f (active s) := by
  cases h : s.sets.selB <;> simp [onActive, active, h]
@[simp] theorem active_onShadow (f : ConfigSet → ConfigSet) (s : State) : active (onShadow f s) = active s := by
  cases h : s.sets.selB <;> simp [onShadow, active, h]
@[simp] theorem shadow_onShadow (f : ConfigSet → ConfigSet) (s : State) : shadow (onShadow f s) = f (shadow s) := by
  cases h : s.sets.selB <;> simp [onShadow, shadow, h]

end Sys2Proof.Machine
end

