-- ==== Sys2Proof/Laws/Cmd.lean ====
section
/-! SUPPORT. What running a command row does, said once: the checks of R487 in order, an admitted row's own part, the response it
leaves, and what no event or plain row touches. -/

namespace Sys2Proof.Machine

/-! ## Checks -/

/-- Where no check fails, the command's own part answers. -/
theorem checks_pass {s : State} {l : List (Bool × Status)} {k : Ans} (h : ∀ c ∈ l, c.1 = false) : checks s l k = k := by
  induction l with
  | nil => rfl
  | cons c r ih =>
    obtain ⟨b, st⟩ := c
    have hb : b = false := h (b, st) (List.mem_cons_self ..)
    subst hb
    exact ih (fun c hc => h c (List.mem_cons_of_mem _ hc))

/-- A check that holds leaves the machine as it was, with its status. -/
theorem checks_fail {s : State} {l : List (Bool × Status)} {k : Ans} (h : ∃ c ∈ l, c.1 = true) :
    ∃ st, checks s l k = no st s := by
  induction l with
  | nil => simp at h
  | cons c r ih =>
    obtain ⟨b, st⟩ := c
    cases b with
    | true => exact ⟨st, rfl⟩
    | false =>
      obtain ⟨c, hc, h1⟩ := h
      simp only [List.mem_cons] at hc
      rcases hc with rfl | hc
      · simp at h1
      · exact ih ⟨c, hc, h1⟩

/-- The checks either stop the command with no effect, or pass. -/
theorem checks_cases (s : State) (l : List (Bool × Status)) (k : Ans) : checks s l k = k ∨ ∃ st, checks s l k = no st s := by
  by_cases h : ∃ c ∈ l, c.1 = true
  · exact .inr (checks_fail h)
  · exact .inl (checks_pass (fun c hc => by simpa using fun h1 => h ⟨c, hc, h1⟩))

@[simp] theorem checks_nil (s : State) (k : Ans) : checks s [] k = k := rfl
@[simp] theorem checks_true (s : State) (c : Status) (l : List (Bool × Status)) (k : Ans) :
    checks s ((true, c) :: l) k = no c s := rfl
@[simp] theorem checks_false (s : State) (c : Status) (l : List (Bool × Status)) (k : Ans) :
    checks s ((false, c) :: l) k = checks s l k := rfl

/-! ## The response built so far -/

@[simp] theorem fresh_building (s : State) : (fresh s).host.building = [] := rfl
@[simp] theorem fresh_fresh (s : State) : fresh (fresh s) = fresh s := rfl
@[simp] theorem answered_fresh (op : Nat) (c : Status) (r : List Word) (t : State) :
    answered op c r (fresh t) = answered op c r t := rfl
@[simp] theorem answered_building (op : Nat) (c : Status) (r : List Word) (t : State) :
    (answered op c r t).host.building = statusWord op c r.length :: r := rfl

/-- The checks before a command's own do not read the response built so far. -/
theorem commonChecks_fresh (r : CmdRow) (a : CmdArgs) (s : State) : commonChecks r a (fresh s) = commonChecks r a s := rfl

@[simp] theorem cpServes_fresh (s : State) : cpServes (fresh s) = cpServes s := rfl

theorem admitted_fresh {r : CmdRow} {a : CmdArgs} {s : State} (h : Admitted r a s) : Admitted r a (fresh s) := h

/-! ## Rows -/

/-- An admitted row answers its own part, when the response fits; its queue and, unless it programs OTP, OTP are as before. -/
theorem runRow_admitted {r : CmdRow} {a : CmdArgs} {s : State} (h : ∀ c ∈ commonChecks r a s, c.1 = false)
    (hf : fits r a s (r.body a s) = true) :
    runRow r a s = { r.body a s with
      s := if r.fuse then { (r.body a s).s with pending := s.pending } else settle s (r.body a s).s } := by
  unfold runRow
  rw [checks_pass h, if_pos hf]

/-- A row whose response does not fit reports RANGE with no effect (R56). -/
theorem runRow_unfit {r : CmdRow} {a : CmdArgs} {s : State} (h : ∀ c ∈ commonChecks r a s, c.1 = false)
    (hf : fits r a s (r.body a s) = false) : runRow r a s = no .range s := by
  unfold runRow
  rw [checks_pass h, if_neg (by simp [hf])]

/-- Everything a row can do: nothing, with a status; or its own part. -/
theorem runRow_cases (r : CmdRow) (a : CmdArgs) (s : State) :
    (∃ st, runRow r a s = no st s) ∨ runRow r a s = { r.body a s with
      s := if r.fuse then { (r.body a s).s with pending := s.pending } else settle s (r.body a s).s } := by
  unfold runRow
  rcases checks_cases s (commonChecks r a s)
    (if fits r a s (r.body a s) then { r.body a s with
      s := if r.fuse then { (r.body a s).s with pending := s.pending } else settle s (r.body a s).s } else no .range s) with h | ⟨st, h⟩
  · rw [h]
    split
    · exact .inr rfl
    · exact .inl ⟨_, rfl⟩
  · exact .inl ⟨st, h⟩

/-- A row keeps the queue. -/
theorem runRow_pending (r : CmdRow) (a : CmdArgs) (s : State) : (runRow r a s).s.pending = s.pending := by
  rcases runRow_cases r a s with ⟨st, h⟩ | h
  · rw [h]; rfl
  · rw [h]; dsimp only; split <;> rfl

/-- A row that programs no OTP leaves it as it was. -/
theorem runRow_otp {r : CmdRow} (hf : r.fuse = false) (a : CmdArgs) (s : State) : (runRow r a s).s.sec.otp = s.sec.otp := by
  rcases runRow_cases r a s with ⟨st, h⟩ | h
  · rw [h]; rfl
  · rw [h, hf]; rfl

/-- A response of at most 1,023 result words fits where none is built yet. -/
theorem fits_fresh (r : CmdRow) (a : CmdArgs) (s : State) (x : Ans) (h : x.st = .ok → r.maxRes a (fresh s) ≤ 1023)
    (hr : x.res.length ≤ 1023) : fits r a (fresh s) x = true := by
  unfold fits
  refine decide_eq_true ?_
  simp only [fresh_building, List.length_nil]
  split
  · have := h ‹_›; omega
  · omega

/-- A direct row where the CP does not serve leaves the machine as it was. -/
theorem execRow_unserved {r : CmdRow} {a : CmdArgs} {s : State} (h : cpServes s = false) : execRow r a s = .next s := by
  simp [execRow, h]

/-- A direct row that is admitted and programs no OTP: its own part, and its response. -/
theorem execRow_admitted {r : CmdRow} {a : CmdArgs} {s : State} (h : Admitted r a s) (hf : r.fuse = false)
    (hfit : fits r a (fresh s) (r.body a (fresh s)) = true) :
    execRow r a s = .next (answered r.op (r.body a (fresh s)).st (r.body a (fresh s)).res
      (settle s (r.body a (fresh s)).s)) := by
  have h1 : runRow r a (fresh s) = _ := runRow_admitted (r := r) (a := a) (s := fresh s) h.2 hfit
  unfold execRow
  rw [if_pos h.1]
  change Host.Outcome.next _ = _
  rw [show ({ s with host := { s.host with building := [] } } : State) = fresh s from rfl, h1, hf]
  rfl

/-- A direct row that is admitted and programs OTP. -/
theorem execRow_admitted_fuse {r : CmdRow} {a : CmdArgs} {s : State} (h : Admitted r a s) (hf : r.fuse = true)
    (hfit : fits r a (fresh s) (r.body a (fresh s)) = true) :
    execRow r a s = .next (answered r.op (r.body a (fresh s)).st (r.body a (fresh s)).res
      { (r.body a (fresh s)).s with pending := s.pending }) := by
  have h1 : runRow r a (fresh s) = _ := runRow_admitted (r := r) (a := a) (s := fresh s) h.2 hfit
  unfold execRow
  rw [if_pos h.1]
  change Host.Outcome.next _ = _
  rw [show ({ s with host := { s.host with building := [] } } : State) = fresh s from rfl, h1, hf]
  rfl

/-- A direct row always answers a next state, with the queue as it was. -/
theorem execRow_next (r : CmdRow) (a : CmdArgs) (s : State) : ∃ t, execRow r a s = .next t ∧ t.pending = s.pending := by
  unfold execRow
  split
  · exact ⟨_, rfl, runRow_pending r a (fresh s)⟩
  · exact ⟨s, rfl, rfl⟩

/-- An event answers a next state with the queue and OTP as they were. -/
theorem ev_next (s t : State) : ∃ u, ev s t = .next u ∧ u.pending = s.pending ∧ u.sec.otp = s.sec.otp := ⟨_, rfl, rfl, rfl⟩

/-- What an event leaves is its new state, with the queue and OTP as they were. -/
theorem ev_eq {s t u : State} (h : ev s t = .next u) : u = settle s t := by simpa [ev] using h.symm

/-- An event that changes neither answers its new state. -/
theorem ev_of_kept {s t : State} (hp : t.pending = s.pending) (ho : t.sec.otp = s.sec.otp) : ev s t = .next t := by
  have : settle s t = t := by
    unfold settle
    rw [← hp, ← ho]
  rw [ev, this]

end Sys2Proof.Machine
end

