-- ==== Sys2Proof/Laws/Frames.lean ====
section
/-! SUPPORT. Frames of the operations the commands share: output events change the outputs alone, flow starts the flows alone, and
writing an item of a set the sets alone, and a request to the DRBG the DRBG and the free values alone. -/

namespace Sys2Proof.Machine

/-! ## The outputs (R278–R280) -/

/-- Only the outputs differ. -/
def OutsOnly (s t : State) : Prop := t = { s with outs := t.outs }

theorem OutsOnly.refl (s : State) : OutsOnly s s := rfl
theorem OutsOnly.trans {s t u : State} (h : OutsOnly s t) (h' : OutsOnly t u) : OutsOnly s u := by
  unfold OutsOnly at *; rw [h', h]
theorem OutsOnly.onDac (d : Nat) (f : Dac → Dac) (s : State) : OutsOnly s (onDac d f s) := rfl
theorem OutsOnly.onPump (d : Nat) (f : Pump → Pump) (s : State) : OutsOnly s (onPump d f s) := rfl
theorem OutsOnly.vcmRamp (v : Vcm) (s : State) : OutsOnly s (vcmRamp v s) := rfl
theorem OutsOnly.foldl {α : Type} {f : State → α → State} (hf : ∀ s x, OutsOnly s (f s x)) (l : List α) (s : State) :
    OutsOnly s (l.foldl f s) := by
  induction l generalizing s with
  | nil => exact .refl s
  | cons x l ih => exact (hf s x).trans (ih (f s x))

theorem unmute_outsOnly (d : Nat) (s : State) : OutsOnly s (unmute d s) := rfl
theorem sequenceStart_outsOnly (d : Nat) (s : State) : OutsOnly s (sequenceStart d s) := by
  unfold sequenceStart
  split
  · dsimp only; split <;> rfl
  · split
    · rfl
    · split <;> rfl
theorem startEvent_outsOnly (d : Nat) (s : State) : OutsOnly s (startEvent d s) := by
  unfold startEvent
  split
  · split <;> rfl
  · split
    · split
      · rfl
      · exact sequenceStart_outsOnly d s
    all_goals rfl
theorem stopEvent_outsOnly (d : Nat) (s : State) : OutsOnly s (stopEvent d s) := by
  unfold stopEvent
  split <;> rfl
theorem clampNow_outsOnly (d : Nat) (s : State) : OutsOnly s (clampNow d s) := rfl
theorem clampAll_outsOnly (s : State) : OutsOnly s (clampAll s) := .foldl (fun s d => clampNow_outsOnly d s) _ s
theorem startAll_outsOnly (s : State) : OutsOnly s (startAll s) := .foldl (fun s d => startEvent_outsOnly d s) _ s
theorem stopAll_outsOnly (s : State) : OutsOnly s (stopAll s) := .foldl (fun s d => stopEvent_outsOnly d s) _ s
theorem startJack_outsOnly (n : Nat) (s : State) : OutsOnly s (startJack n s) :=
  (startEvent_outsOnly _ s).trans (startEvent_outsOnly _ _)
theorem stopJack_outsOnly (n : Nat) (s : State) : OutsOnly s (stopJack n s) :=
  (stopEvent_outsOnly _ s).trans (stopEvent_outsOnly _ _)
theorem clampJack_outsOnly (n : Nat) (s : State) : OutsOnly s (clampJack n s) :=
  (clampNow_outsOnly _ s).trans (clampNow_outsOnly _ _)
theorem outDiffOne_outsOnly (o : ConfigSet) (s : State) (d : Nat) : OutsOnly s (outDiffOne o s d) := by
  unfold outDiffOne
  extract_lets a s1
  have h1 : OutsOnly s s1 := by unfold s1; split <;> rfl
  split
  · exact h1.trans ((OutsOnly.onDac ..).trans (stopEvent_outsOnly ..))
  · split
    · exact h1.trans (startEvent_outsOnly ..)
    · split
      · exact h1.trans (.onDac ..)
      · exact h1
theorem outDiff_outsOnly (o : ConfigSet) (s : State) : OutsOnly s (outDiff o s) := .foldl (outDiffOne_outsOnly o) _ s

/-! ## The flows (R232, R328) -/

/-- Only the flows differ. -/
def FlowsOnly (s t : State) : Prop := t = { s with flows := t.flows }

theorem FlowsOnly.refl (s : State) : FlowsOnly s s := rfl
theorem FlowsOnly.trans {s t u : State} (h : FlowsOnly s t) (h' : FlowsOnly t u) : FlowsOnly s u := by
  unfold FlowsOnly at *; rw [h', h]
theorem FlowsOnly.foldl {α : Type} {f : State → α → State} (hf : ∀ s x, FlowsOnly s (f s x)) (l : List α) (s : State) :
    FlowsOnly s (l.foldl f s) := by
  induction l generalizing s with
  | nil => exact .refl s
  | cons x l ih => exact (hf s x).trans (ih (f s x))

theorem startFlow_flowsOnly (f : Nat) (s : State) : FlowsOnly s (startFlow f s) := rfl
theorem stopFlow_flowsOnly (f : Nat) (s : State) : FlowsOnly s (stopFlow f s) := rfl
theorem flowDiffOne_flowsOnly (o : ConfigSet) (s : State) (f : Nat) : FlowsOnly s (flowDiffOne o s f) := by
  unfold flowDiffOne
  dsimp only
  split
  · rfl
  · split
    · rfl
    · split <;> rfl
theorem flowDiff_flowsOnly (o : ConfigSet) (s : State) : FlowsOnly s (flowDiff o s) := .foldl (flowDiffOne_flowsOnly o) _ s
theorem restartFlows_flowsOnly (s : State) : FlowsOnly s (restartFlows s) := .foldl (fun s f => startFlow_flowsOnly f s) _ s

/-! ## Writing an item of a set (R67, R68) -/

/-- Without IMMEDIATE the item is written in SHADOW. -/
theorem writeItem_shadow {op : Nat} {rate : Option Nat} {f : ConfigSet → ConfigSet} {a : CmdArgs} {s : State}
    (h : a.imm = false) : writeItem op rate f a s = writeShadow op a.ops f s := by simp [writeItem, h]

/-- With IMMEDIATE it waits for the frame boundary of its rate, ACTIVE stands, and SHADOW stands too without MIRROR. -/
theorem writeItem_immediate {op : Nat} {rate : Option Nat} {f : ConfigSet → ConfigSet} {a : CmdArgs} {s : State}
    (h : a.imm = true) : PlacedAs op a rate s (writeItem op rate f a s) := by
  cases hb : s.sets.selB <;> cases hm : a.mirror <;>
    simp [PlacedAs, writeItem, writeShadow, Memory.unmark, h, hm, onShadow, active, shadow, hb]

/-- A write of SHADOW changes the sets, and the marks of lost words. -/
theorem writeShadow_frame (op : Nat) (ops : List Word) (f : ConfigSet → ConfigSet) (s : State) : writeShadow op ops f s =
    { s with sets := (onShadow f s).sets, mem := s.mem.unmark (holdsItem (!s.sets.selB) op ops) } := by
  cases hb : s.sets.selB <;> simp [writeShadow, onShadow, hb]

/-- Whatever the flags, only the sets and the marks of lost words differ. -/
theorem writeItem_setsOnly (op : Nat) (rate : Option Nat) (f : ConfigSet → ConfigSet) (a : CmdArgs) (s : State) :
    writeItem op rate f a s = { s with
      sets := (writeItem op rate f a s).sets, mem := { s.mem with bad := (writeItem op rate f a s).mem.bad } } := by
  cases hb : s.sets.selB <;> cases hm : a.mirror <;> cases hi : a.imm <;>
    simp [writeItem, writeShadow, Memory.unmark, hi, hm, onShadow, hb]

/-! ## Free values and the DRBG (R406) -/

/-- A word that is drawn is one free value more. -/
theorem drawWords_free (n : Nat) (s : State) : (drawWords n s).2 = { s with free := (drawWords n s).2.free } := by
  induction n generalizing s with
  | zero => rfl
  | succ n ih =>
    have h := ih (drawWord s).2
    simp only [drawWords]
    rw [h]
    rfl

/-- As many words are drawn as were asked for. -/
@[simp] theorem drawWords_length (n : Nat) (s : State) : (drawWords n s).1.length = n := by
  induction n generalizing s with
  | zero => rfl
  | succ n ih => simp [drawWords, ih]

/-- A request answers the words it was asked for. -/
@[simp] theorem drbgWords_length (n : Nat) (s : State) : (drbgWords n s).1.length = n := by
  unfold drbgWords
  split <;> simp

/-- A request changes the DRBG and, where it is seeded or stands still, the free values. -/
theorem drbgWords_frame (n : Nat) (s : State) : (drbgWords n s).2 = { s with
    free := (drbgWords n s).2.free, sec := { s.sec with drbg := (drbgWords n s).2.sec.drbg } } := by
  have h := drawWords_free (if s.sec.drbg.seeded then 8 else 12) s
  simp only [drbgWords, drbgSeed]
  split
  · rw [drawWords_free n s]
  · split
    · rw [h]
    · rfl

/-! ## Beats, locks and the clock of the matrix (R358, R360, R363) -/

/-- Without a lock nothing waits. -/
@[simp] theorem waitLock_unlocked {s : State} (h : s.cp.lock = none) (p : Nat → Bool) : waitLock p s = s := by
  simp [waitLock, h]

/-- With no error waiting, every beat passes its check. -/
@[simp] theorem beatUpset_none {s : State} (h : s.mem.upsets = []) (m : Nat) : beatUpset m s = none := by
  simp [beatUpset, upset, h]

/-- A beat that passes its check is not lost. -/
@[simp] theorem beatLost_none {s : State} {m : Nat} (h : beatUpset m s = none) (t a : Nat) (w : Bool) : beatLost m t w a s = none := by
  simp [beatLost, h]

/-- A command of SEC that meets no error answers for itself. -/
@[simp] theorem secAns_clean {s : State} (h : beatUpset 7 s = none) (x : Ans) : secAns x s = x := by
  simp only [secAns, beatLost_none h]
  split <;> rfl

/-- A command that SEC turns away answers for itself, whatever waits. -/
@[simp] theorem secAns_notOk {x : Ans} (h : x.st ≠ .ok) (s : State) : secAns x s = x := by simp [secAns, h]

/-- Nor does an access at a point that is not locked. -/
@[simp] theorem waitPoint_unlocked {s : State} (h : s.cp.lock = none) (p : Nat) : waitPoint p s = s := waitLock_unlocked h _

/-- A packet whose beats pass their check is stored. -/
@[simp] theorem packetStored_clean {s : State} (h : beatUpset 5 s = none) (hl : s.cp.lock = none) : packetStored s = (true, s) := by
  simp [packetStored, h, hl]

end Sys2Proof.Machine
end

