-- ==== Sys2Proof/Laws/Isa.lean ====
section
/-! SUPPORT. What issuing a bundle does, said once: a syllable that does not execute, one that writes registers, and everything an
issue leaves alone. -/

namespace Sys2Proof.Machine

/-! ## Registers of a unit -/

@[simp] theorem regs_onRegs (u : Site) (f : Regs → Regs) (s : State) : regs (onRegs u f s) u = f (regs s u) := by
  cases u with
  | sc n => simp [regs, onRegs]
  | cp => rfl

/-- Waking the CP changes no register. -/
@[simp] theorem regs_wake (u : Site) (s : State) : regs (wake u s) u = regs s u := by cases u <;> rfl

/-- Only a unit's registers differ. -/
def RegsOnly (u : Site) (s t : State) : Prop :=
  t = { s with cores := { s.cores with core := t.cores.core }, cp := t.cp } ∧
  match u with
  | .sc n => t.cp = s.cp ∧ core t n.val = { core s n.val with regs := regs t u } ∧ ∀ k ≠ n.val, core t k = core s k
  | .cp => t.cp = { s.cp with regs := regs t u } ∧ ∀ k, core t k = core s k

theorem RegsOnly.refl (u : Site) (s : State) : RegsOnly u s s := by
  cases u with
  | sc n => exact ⟨rfl, rfl, rfl, fun _ _ => rfl⟩
  | cp => exact ⟨rfl, rfl, fun _ => rfl⟩

theorem RegsOnly.onRegs (u : Site) (f : Regs → Regs) (s : State) : RegsOnly u s (onRegs u f s) := by
  cases u with
  | sc n =>
    refine ⟨rfl, rfl, ?_, fun k hk => core_onCore_other _ _ _ _ hk⟩
    rw [regs_onRegs]
    exact core_onCore_same _ _ _
  | cp => exact ⟨rfl, rfl, fun _ => rfl⟩

theorem RegsOnly.trans {u : Site} {s t v : State} (h : RegsOnly u s t) (h' : RegsOnly u t v) : RegsOnly u s v := by
  obtain ⟨h1, h2⟩ := h
  obtain ⟨h1', h2'⟩ := h'
  cases u with
  | sc n =>
    refine ⟨by rw [h1', h1], h2'.1.trans h2.1, ?_, fun k hk => (h2'.2.2 k hk).trans (h2.2.2 k hk)⟩
    rw [h2'.2.1, h2.2.1]
  | cp =>
    refine ⟨by rw [h1', h1], ?_, fun k => (h2'.2 k).trans (h2.2 k)⟩
    rw [h2'.1, h2.1]

/-- A bundle that changed the unit's registers alone is done as the statements say it. -/
theorem RegsOnly.done {u : Site} {s t : State} (h : RegsOnly u (wake u s) t) : RegsDone u s t := by
  obtain ⟨h1, h2⟩ := h
  cases u with
  | sc n => exact ⟨h1, h2⟩
  | cp => exact ⟨h1, h2⟩

/-- The queue and OTP stand. -/
theorem RegsDone.kept {u : Site} {s t : State} (h : RegsDone u s t) : t.pending = s.pending ∧ t.sec.otp = s.sec.otp := by
  obtain ⟨h1, -⟩ := h
  rw [h1]
  exact ⟨rfl, rfl⟩

/-! ## Issue -/

/-- Registers alone change: effects of the forms setG, setA and setP. -/
def isRegEff : Eff → Bool
  | .setG _ _ | .setA _ _ | .setP _ _ => true
  | _ => false

/-- What a register effect does to the registers. -/
def regEff (x : Regs) : Eff → Regs
  | .setG i r => if i = 0 then x else { x with g := tput dReg x.g i r }
  | .setA i a => { x with a := tput dAcc x.a i a }
  | .setP i b => if i = 0 then x else { x with p := tput false x.p i b }
  | _ => x

/-- A register effect changes the unit's registers alone, as `regEff` says. -/
theorem applyEff_reg {u : Site} {e : Eff} (h : isRegEff e = true) (s : State) :
    RegsOnly u s (applyEff u e s) ∧ regs (applyEff u e s) u = regEff (regs s u) e := by
  cases e with
  | setG i r =>
    simp only [applyEff, regEff]
    split
    · exact ⟨.refl u s, rfl⟩
    · exact ⟨.onRegs u _ s, regs_onRegs u _ s⟩
  | setA i a =>
    simp only [applyEff, regEff]
    exact ⟨.onRegs u _ s, regs_onRegs u _ s⟩
  | setP i b =>
    simp only [applyEff, regEff]
    split
    · exact ⟨.refl u s, rfl⟩
    · exact ⟨.onRegs u _ s, regs_onRegs u _ s⟩
  | _ => simp [isRegEff] at h

/-- Register effects in order. -/
theorem applyEffs_reg {u : Site} {l : List Eff} (h : ∀ e ∈ l, isRegEff e = true) (s : State) :
    RegsOnly u s (l.foldl (fun s e => applyEff u e s) s) ∧
      regs (l.foldl (fun s e => applyEff u e s) s) u = l.foldl regEff (regs s u) := by
  induction l generalizing s with
  | nil => exact ⟨.refl u s, rfl⟩
  | cons e r ih =>
    have h1 := applyEff_reg (u := u) (h e (List.mem_cons_self ..)) s
    have h2 := ih (fun e he => h e (List.mem_cons_of_mem _ he)) (applyEff u e s)
    simp only [List.foldl_cons]
    rw [h1.2] at h2
    exact ⟨h1.1.trans h2.1, h2.2⟩

/-- With register effects alone the next bundle is due. -/
theorem nextPc_reg {u : Site} {l : List Eff} (h : ∀ e ∈ l, isRegEff e = true) (r : Regs) : nextPc u l r = .ok (nextBundle r) := by
  unfold nextPc
  cases hl : l.getLast? with
  | none => rfl
  | some e =>
    have := h e (List.mem_of_getLast? hl)
    cases e <;> first | rfl | simp [isRegEff] at this

/-- A bundle of register effects: all it does. -/
theorem issue_reg {u : Site} {l : List Eff} (h : ∀ e ∈ l, isRegEff e = true) (s : State) :
    ∃ t, issue u l s = .ok t ∧ RegsOnly u s t ∧ regs t u = nextBundle (l.foldl regEff (regs s u)) := by
  have h1 := applyEffs_reg (u := u) h s
  simp only [issue, nextPc_reg (u := u) h]
  refine ⟨_, rfl, h1.1.trans (.onRegs u _ _), ?_⟩
  rw [regs_onRegs, h1.2]

theorem badRead_reg {l : List Eff} (h : ∀ e ∈ l, isRegEff e = true) : badRead l = none := by
  induction l with
  | nil => rfl
  | cons e r ih =>
    have h1 := h e (List.mem_cons_self ..)
    cases e <;> first | exact ih (fun e he => h e (List.mem_cons_of_mem _ he)) | simp [isRegEff] at h1

/-- A bundle of register effects issues, unless the unit's register file fails its parity. -/
theorem bundleLost_reg {u : Site} {l : List Eff} {s : State} (h : ∀ e ∈ l, isRegEff e = true) (hp : registerUpset s u = none) :
    bundleLost u l s = none := by
  simp [bundleLost, badRead_reg h, hp]

/-- A syllable whose effects are register effects completes, and this is all it does; where its predicate does not let it
execute, the effects are none. -/
theorem runSyl_reg {u : Site} {l : List Eff} (h : ∀ e ∈ l, isRegEff e = true) (on : Bool) (s : State)
    (hp : registerUpset s u = none ∨ (if on then l else []) = []) :
    ∃ t, runSyl u on l s = .next t ∧ RegsDone u s t ∧
      regs t u = nextBundle ((if on then l else []).foldl regEff (regs s u)) := by
  have he : ∀ e ∈ (if on then l else []), isRegEff e = true := by
    cases on
    · intro e he; simp at he
    · exact h
  obtain ⟨t, ht, hr, hg⟩ := issue_reg (u := u) he (wake u s)
  have hd : RegsDone u s t := hr.done
  refine ⟨t, ?_, hd, by rw [hg, regs_wake]⟩
  have hb : bundleLost u (if on then l else []) s = none := by
    rcases hp with hp | hp
    · exact bundleLost_reg he hp
    · rw [hp]; rfl
  unfold runSyl
  simp only [hb, ht]
  exact ev_of_kept hd.kept.1 hd.kept.2

/-- A skipped syllable has no effect, and the next bundle is due (R92), whatever its effects would be. -/
theorem runSyl_skipped (u : Site) (l : List Eff) (s : State) :
    ∃ t, runSyl u false l s = .next t ∧ RegsDone u s t ∧ regs t u = nextBundle (regs s u) := by
  obtain ⟨t, h1, h2, h3⟩ := runSyl_reg (u := u) (l := []) (by simp) true s (.inr rfl)
  refine ⟨t, ?_, h2, h3⟩
  rw [← h1]
  rfl

end Sys2Proof.Machine
end

