-- ==== Sys2Proof/Laws/Memory.lean ====
section
/-! SUPPORT. The canonical form of tables and memories: every operation on memory keeps it, and reset's memory has it. -/

namespace Sys2Proof.Machine

/-! ## Tables -/

section
variable {α : Type} [DecidableEq α] {d : α}

/-- A table whose indexes lie above `b` is canonical above any lower bound too. -/
theorem tcanon_weaken {a b : Option Nat} {t : List (Nat × α)} (h : tcanon d b t = true)
    (hab : ∀ x, a = some x → ∃ y, b = some y ∧ x ≤ y) : tcanon d a t = true := by
  cases t with
  | nil => rfl
  | cons e r =>
    obtain ⟨k, v⟩ := e
    simp only [tcanon, Bool.and_eq_true] at h ⊢
    refine ⟨⟨?_, h.1.2⟩, h.2⟩
    cases ha : a with
    | none => rfl
    | some x =>
      obtain ⟨y, hb, hxy⟩ := hab x ha
      have := h.1.1
      simp only [hb, decide_eq_true_eq] at this ⊢
      omega

theorem tcanon_none {b : Option Nat} {t : List (Nat × α)} (h : tcanon d b t = true) : tcanon d none t = true :=
  tcanon_weaken h (fun _ hx => nomatch hx)

theorem tcanon_some_le {x y : Nat} {t : List (Nat × α)} (h : tcanon d (some y) t = true) (hxy : x ≤ y) :
    tcanon d (some x) t = true :=
  tcanon_weaken h (fun z hz => ⟨y, rfl, by simp only [Option.some.injEq] at hz; omega⟩)

/-- Dropping low indexes keeps the form and its bound. -/
theorem tcanon_dropWhile (p : Nat × α → Bool) {a : Option Nat} {t : List (Nat × α)} (h : tcanon d a t = true) :
    tcanon d a (t.dropWhile p) = true := by
  induction t generalizing a with
  | nil => exact h
  | cons e r ih =>
    simp only [List.dropWhile_cons]
    split
    · obtain ⟨k, v⟩ := e
      simp only [tcanon, Bool.and_eq_true] at h
      refine ih (tcanon_weaken h.2 (fun x hx => ⟨k, rfl, ?_⟩))
      have := h.1.1
      simp only [hx, decide_eq_true_eq] at this
      omega
    · exact h

/-- Leaving entries out keeps the form and its bound. -/
theorem tcanon_filter (p : Nat × α → Bool) {a : Option Nat} {t : List (Nat × α)} (h : tcanon d a t = true) :
    tcanon d a (t.filter p) = true := by
  induction t generalizing a with
  | nil => exact h
  | cons e r ih =>
    obtain ⟨k, v⟩ := e
    simp only [tcanon, Bool.and_eq_true] at h
    simp only [List.filter_cons]
    split
    · simp only [tcanon, Bool.and_eq_true]
      exact ⟨h.1, ih h.2⟩
    · refine ih (tcanon_weaken h.2 (fun x hx => ⟨k, rfl, ?_⟩))
      have := h.1.1
      simp only [hx, decide_eq_true_eq] at this
      omega

theorem tcanon_cons {a : Option Nat} {k : Nat} {v : α} {r : List (Nat × α)} (ha : ∀ x, a = some x → x < k) (hv : ¬v = d)
    (hr : tcanon d (some k) r = true) : tcanon d a ((k, v) :: r) = true := by
  cases a with
  | none => simpa [tcanon, hv] using hr
  | some x => simpa [tcanon, hv, ha x rfl] using hr

/-- A write above the bound keeps the form and its bound. -/
theorem tcanon_tput (k : Nat) (v : α) {a : Option Nat} {t : List (Nat × α)} (h : tcanon d a t = true)
    (ha : ∀ x, a = some x → x < k) : tcanon d a (tput d t k v) = true := by
  induction t generalizing a with
  | nil =>
    simp only [tput]
    split
    · rfl
    · rename_i hv; exact tcanon_cons ha hv rfl
  | cons e r ih =>
    obtain ⟨k', v'⟩ := e
    have h0 := h
    simp only [tcanon, Bool.and_eq_true] at h
    simp only [tput]
    split
    · rename_i hk
      split
      · exact h0
      · rename_i hv
        exact tcanon_cons ha hv (tcanon_cons (fun x hx => by simp only [Option.some.injEq] at hx; omega)
          (by simpa using h.1.2) h.2)
    · split
      · rename_i hk heq; subst heq
        split
        · exact tcanon_dropWhile _ (tcanon_weaken h.2 (fun x hx => ⟨k, rfl, Nat.le_of_lt (ha x hx)⟩))
        · rename_i hv
          exact tcanon_cons ha hv h.2
      · rename_i h1 h2
        simp only [tcanon, Bool.and_eq_true]
        have hk : k' < k := by omega
        exact ⟨h.1, ih h.2 (fun x hx => by simp only [Option.some.injEq] at hx; omega)⟩

theorem Twf_tput {t : List (Nat × α)} (h : Twf d t) (k : Nat) (v : α) : Twf d (tput d t k v) :=
  tcanon_tput k v h (fun _ hx => nomatch hx)

theorem Twf_tmod {t : List (Nat × α)} (h : Twf d t) (k : Nat) (f : α → α) : Twf d (tmod d t k f) := Twf_tput h k _

theorem Twf_tputs {t : List (Nat × α)} (h : Twf d t) (k : Nat) (vs : List α) : Twf d (tputs d t k vs) := by
  induction vs generalizing t k with
  | nil => exact h
  | cons v vs ih => exact ih (Twf_tput h k v) (k + 1)

theorem Twf_filter {t : List (Nat × α)} (h : Twf d t) (p : Nat × α → Bool) : Twf d (t.filter p) := tcanon_filter p h

end

/-! ## The memories -/

/-- The three tables of a memory are canonical. -/
theorem Memory.wf_iff (m : Memory) : m.wf = true ↔ Twf 0 m.cells ∧ Twf 0 m.tags ∧ Twf 0 m.peri := by
  simp only [Memory.wf, Bool.and_eq_true, and_assoc]

theorem Memory.wf_setByte {m : Memory} (h : m.wf = true) (a : Nat) (v : Byte) : (m.setByte a v).wf = true := by
  rw [wf_iff] at h ⊢; exact ⟨Twf_tput h.1 a v, h.2⟩

theorem Memory.wf_setBytes {m : Memory} (h : m.wf = true) (a : Nat) (vs : List Byte) : (m.setBytes a vs).wf = true := by
  rw [wf_iff] at h ⊢; exact ⟨Twf_tputs h.1 a vs, h.2⟩

theorem Memory.wf_setPlain {m : Memory} (h : m.wf = true) (a : Nat) (w : Word) : (m.setPlain a w).wf = true :=
  wf_setBytes h (a / 4 * 4) (leBytes w)

theorem Memory.wf_setWord {m : Memory} (h : m.wf = true) (a : Nat) (w : Word) (t : BitVec 4) : (m.setWord a w t).wf = true := by
  have h1 := wf_setPlain h a w
  rw [wf_iff] at h h1 ⊢; exact ⟨h1.1, Twf_tput h.2.1 _ t, h1.2.2⟩

theorem Memory.wf_setWords {m : Memory} (h : m.wf = true) (a : Nat) (t : BitVec 4) (ws : List Word) :
    (m.setWords a t ws).wf = true := by
  induction ws generalizing m a with
  | nil => exact h
  | cons w ws ih => exact ih (wf_setWord h a w t) (a + 4)

theorem Memory.wf_clearRange {m : Memory} (h : m.wf = true) (a n : Nat) : (m.clearRange a n).wf = true := by
  rw [wf_iff] at h ⊢; exact ⟨Twf_filter h.1 _, Twf_filter h.2.1 _, h.2.2⟩

/-- Which words no longer decode is no part of the form. -/
theorem Memory.wf_bad (m : Memory) (l : List Nat) : ({ m with bad := l } : Memory).wf = m.wf := rfl

theorem Memory.wf_remap (m : Memory) (b : Bool) : ({ m with remap := b } : Memory).wf = m.wf := rfl

theorem Memory.wf_peri {m : Memory} (h : m.wf = true) (k : Nat) (w : Word) :
    ({ m with peri := tput 0 m.peri k w } : Memory).wf = true := by
  rw [wf_iff] at h ⊢; exact ⟨h.1, h.2.1, Twf_tput h.2.2 k w⟩

theorem Memory.wf_foldl_setByte (l : List (Nat × Byte)) (g : Nat → Nat) {m : Memory} (h : m.wf = true) :
    (l.foldl (fun m p => m.setByte (g p.1) p.2) m).wf = true := by
  induction l generalizing m with
  | nil => exact h
  | cons p l ih => exact ih (wf_setByte h _ _)

theorem Memory.wf_copyRange {m : Memory} (h : m.wf = true) (a b n : Nat) : (m.copyRange a b n).wf = true :=
  wf_foldl_setByte _ (fun x => x - a + b) (wf_clearRange h b n)

theorem softMem_wf {m : Memory} (h : m.wf = true) : (softMem m).wf = true := by
  rw [Memory.wf_iff] at h; rw [Memory.wf_iff]; exact ⟨Twf_filter h.1 _, Twf_filter h.2.1 _, rfl⟩

theorem Memory.wf_retOnly {m : Memory} (h : m.wf = true) : m.retOnly.wf = true := by
  rw [Memory.wf_iff] at h; rw [Memory.wf_iff]; exact ⟨Twf_filter h.1 _, rfl, rfl⟩

/-- Reset's memory has the form. -/
theorem reset_mem_wf : State.reset.mem.wf = true := rfl

/-! ## Reads after writes -/

/-- A byte reads as written. -/
@[simp] theorem Memory.byte_setByte_same (m : Memory) (a : Nat) (v : Byte) : (m.setByte a v).byte a = v :=
  tget_tput_same 0 v m.cells a

/-- A write leaves every other byte. -/
theorem Memory.byte_setByte_other (m : Memory) (a b : Nat) (v : Byte) (h : b ≠ a) : (m.setByte a v).byte b = m.byte b :=
  tget_tput_other 0 v m.cells a b h

/-- Writing consecutive entries leaves every entry outside them. -/
theorem tget_tputs_outside {α : Type} [DecidableEq α] (d : α) (t : List (Nat × α)) (a b : Nat) (vs : List α)
    (h : b < a ∨ a + vs.length ≤ b) : tget d (tputs d t a vs) b = tget d t b := by
  induction vs generalizing t a with
  | nil => rfl
  | cons v vs ih =>
    simp only [List.length_cons] at h
    simp only [tputs]
    rw [ih (tput d t a v) (a + 1) (by omega), tget_tput_other d v t a b (by omega)]

/-- Consecutive entries read as written. -/
theorem tget_tputs_inside {α : Type} [DecidableEq α] (d : α) (t : List (Nat × α)) (a i : Nat) (vs : List α)
    (h : i < vs.length) : tget d (tputs d t a vs) (a + i) = vs[i] := by
  induction vs generalizing t a i with
  | nil => simp at h
  | cons v vs ih =>
    simp only [tputs]
    cases i with
    | zero => rw [tget_tputs_outside d _ (a + 1) (a + 0) vs (by omega)]; exact tget_tput_same d v t a
    | succ j =>
      simp only [List.length_cons] at h
      have := ih (tput d t a v) (a + 1) j (by omega)
      rw [show a + (j + 1) = a + 1 + j by omega, this]; rfl

/-- Writing bytes leaves every byte outside them. -/
theorem Memory.byte_setBytes_outside (m : Memory) (a b : Nat) (vs : List Byte) (h : b < a ∨ a + vs.length ≤ b) :
    (m.setBytes a vs).byte b = m.byte b := tget_tputs_outside 0 m.cells a b vs h

/-- Writing a word leaves every byte outside it. -/
theorem Memory.byte_setWord_outside (m : Memory) (a b : Nat) (w : Word) (t : BitVec 4)
    (h : b < a / 4 * 4 ∨ a / 4 * 4 + 4 ≤ b) : (m.setWord a w t).byte b = m.byte b :=
  tget_tputs_outside 0 m.cells (a / 4 * 4) b (leBytes w) h

/-- The tag of a written word, and of every other. -/
@[simp] theorem Memory.tag_setWord_same (m : Memory) (a : Nat) (w : Word) (t : BitVec 4) : (m.setWord a w t).tag a = t :=
  tget_tput_same 0 t m.tags (a / 4)
theorem Memory.tag_setWord_other (m : Memory) (a b : Nat) (w : Word) (t : BitVec 4) (h : b / 4 ≠ a / 4) :
    (m.setWord a w t).tag b = m.tag b := tget_tput_other 0 t m.tags (a / 4) (b / 4) h

end Sys2Proof.Machine
end

