-- ==== Sys2Proof/Laws/Keeps.lean ====
section
/-! SUPPORT. What a run keeps, operation by operation: the memories' canonical form, EN_WAKE_FAULT of the mask, and the fault log's
64 entries. A relation between two machines, closed under the ways the model composes its operations. -/

namespace Sys2Proof.Machine

/-- From `s` to `t` the memories keep their form, EN_WAKE_FAULT stays set, and the log stays within 64 entries. -/
structure Keeps (s t : State) : Prop where
  mem : s.mem.wf = true → t.mem.wf = true
  mask : bit s.irq.mask 10 = true → bit t.irq.mask 10 = true
  log : s.flt.log.length ≤ 64 → t.flt.log.length ≤ 64

/-- Where none of the three differs. -/
theorem Keeps.same {s t : State} (hm : t.mem = s.mem) (hi : t.irq.mask = s.irq.mask) (hf : t.flt.log = s.flt.log) : Keeps s t :=
  ⟨fun h => hm ▸ h, fun h => hi ▸ h, fun h => hf ▸ h⟩

theorem Keeps.refl (s : State) : Keeps s s := .same rfl rfl rfl

theorem Keeps.trans {s t u : State} (h : Keeps s t) (h' : Keeps t u) : Keeps s u :=
  ⟨fun x => h'.mem (h.mem x), fun x => h'.mask (h.mask x), fun x => h'.log (h.log x)⟩

theorem Keeps.ite {s t u : State} {p : Prop} [Decidable p] (h : p → Keeps s t) (h' : ¬p → Keeps s u) :
    Keeps s (if p then t else u) := by split <;> simp_all

/-- A fold of steps that keep. -/
theorem Keeps.foldl {α : Type} {f : State → α → State} (hf : ∀ s x, Keeps s (f s x)) (l : List α) (s : State) :
    Keeps s (l.foldl f s) := by
  induction l generalizing s with
  | nil => exact .refl s
  | cons x l ih => exact (hf s x).trans (ih (f s x))

/-! ## The named updates -/

theorem Keeps.raiseIrq (i : Nat) (s : State) : Keeps s (raiseIrq i s) := .same (by simp) (by simp) (by simp)
theorem Keeps.raiseIf (b : Bool) (i : Nat) (s : State) : Keeps s (raiseIf b i s) := .same (by simp) (by simp) (by simp)
theorem Keeps.logFault (c i : Nat) (d0 d1 : Word) (s : State) : Keeps s (logFault c i d0 d1 s) :=
  ⟨by simp, by simp, logFault_log_le c i d0 d1 s⟩
theorem Keeps.logLasting (c i t : Nat) (d0 d1 : Word) (s : State) : Keeps s (logLasting c i t d0 d1 s) :=
  ⟨by simp, by simp, logLasting_log_le c i t d0 d1 s⟩
theorem Keeps.logRow (c a : Nat) (s : State) : Keeps s (logRow c a s) := ⟨by simp, by simp, logRow_log_le c a s⟩
theorem Keeps.logAbort (m t c : Nat) (w : Bool) (l a : Nat) (s : State) : Keeps s (logAbort m t c w l a s) := Keeps.logFault ..
theorem Keeps.dropUpset (u : Upset) (s : State) : Keeps s (dropUpset u s) := ⟨fun h => h, fun h => h, fun h => h⟩
theorem Keeps.logRegister (u : Site) (r : Nat) (s : State) : Keeps s (logRegister u r s) :=
  (Keeps.dropUpset _ s).trans (Keeps.logFault ..)
theorem Keeps.logLane (o : Bool) (n : Nat) (w : Word) (s : State) : Keeps s (logLane o n w s) := Keeps.logFault ..
theorem Keeps.startJob (op : Nat) (j : Job) (s : State) : Keeps s (startJob op j s) := .same (by simp) (by simp) (by simp)
theorem Keeps.finishJob (c : Status) (s : State) : Keeps s (finishJob c s) := .same (by simp) (by simp) (by simp)
theorem Keeps.onActive (f : ConfigSet → ConfigSet) (s : State) : Keeps s (onActive f s) := .same (by simp) (by simp) (by simp)
theorem Keeps.onShadow (f : ConfigSet → ConfigSet) (s : State) : Keeps s (onShadow f s) := .same (by simp) (by simp) (by simp)
theorem Keeps.onChan (n : Nat) (f : Chan → Chan) (s : State) : Keeps s (onChan n f s) := .same rfl rfl rfl
theorem Keeps.onRef (n : Nat) (f : RefBuf → RefBuf) (s : State) : Keeps s (onRef n f s) := .same rfl rfl rfl
theorem Keeps.onDac (n : Nat) (f : Dac → Dac) (s : State) : Keeps s (onDac n f s) := .same rfl rfl rfl
theorem Keeps.onPump (n : Nat) (f : Pump → Pump) (s : State) : Keeps s (onPump n f s) := .same rfl rfl rfl
theorem Keeps.onFlow (n : Nat) (f : FlowRun → FlowRun) (s : State) : Keeps s (onFlow n f s) := .same rfl rfl rfl
theorem Keeps.onCore (n : Nat) (f : Core → Core) (s : State) : Keeps s (onCore n f s) := .same rfl rfl rfl
theorem Keeps.onRegs (u : Site) (f : Regs → Regs) (s : State) : Keeps s (onRegs u f s) := .same (by simp) (by simp) (by simp)
theorem Keeps.onPll (n : Nat) (f : Pll → Pll) (s : State) : Keeps s (onPll n f s) := .same (by simp) (by simp) (by simp)
theorem Keeps.onTdm (n : Nat) (f : TdmPort → TdmPort) (s : State) : Keeps s (onTdm n f s) := .same rfl rfl rfl
theorem Keeps.onAes (n : Nat) (f : AesRx → AesRx) (s : State) : Keeps s (onAes n f s) := .same rfl rfl rfl
theorem Keeps.onTracker (n : Nat) (f : Tracker → Tracker) (s : State) : Keeps s (onTracker n f s) := .same rfl rfl rfl
theorem Keeps.onJack (n : Nat) (f : JackRun → JackRun) (s : State) : Keeps s (onJack n f s) := .same rfl rfl rfl
theorem Keeps.onTap (n : Nat) (f : TapRun → TapRun) (s : State) : Keeps s (onTap n f s) := .same rfl rfl rfl
theorem Keeps.onSealSt (n : Nat) (f : SealSt → SealSt) (s : State) : Keeps s (onSealSt n f s) := .same rfl rfl rfl
theorem Keeps.putTagged (a : Nat) (w : Word) (t : BitVec 4) (s : State) : Keeps s (putTagged a w t s) :=
  ⟨fun h => Memory.wf_setWord h a w t, id, id⟩

/-- Writing the memories by an operation that keeps their form. -/
theorem Keeps.ofMem {s : State} {m : Memory} (h : s.mem.wf = true → m.wf = true) : Keeps s { s with mem := m } := ⟨h, id, id⟩

/-! ## Commands and events -/

theorem Keeps.settle {s t : State} (h : Keeps s t) : Keeps s (settle s t) := ⟨h.mem, h.mask, h.log⟩

/-- An event keeps what its new state keeps. -/
theorem Keeps.ev {s t u : State} (h : Keeps s t) (he : Machine.ev s t = .next u) : Keeps s u := ev_eq he ▸ h.settle

/-- A row keeps what its own part keeps. -/
theorem Keeps.runRow {r : CmdRow} {a : CmdArgs} {s : State} (h : Keeps s (r.body a s).s) : Keeps s (runRow r a s).s := by
  rcases runRow_cases r a s with ⟨st, h1⟩ | h1
  · rw [h1]; exact .refl s
  · rw [h1]; dsimp only; split
    · exact ⟨h.mem, h.mask, h.log⟩
    · exact h.settle

/-- A direct row keeps what its own part keeps. -/
theorem Keeps.execRow {r : CmdRow} {a : CmdArgs} {s t : State} (h : Keeps (fresh s) (r.body a (fresh s)).s)
    (he : Machine.execRow r a s = .next t) : Keeps s t := by
  unfold Machine.execRow at he
  split at he
  · have h1 := Keeps.runRow (r := r) (a := a) (s := fresh s) h
    simp only [Host.Outcome.next.injEq] at he
    subst he
    exact ⟨h1.mem, h1.mask, h1.log⟩
  · simp only [Host.Outcome.next.injEq] at he
    subst he
    exact .refl s

/-- A command that only checks before its part keeps what the part keeps. -/
theorem Keeps.checks {s : State} {l : List (Bool × Status)} {k : Ans} (h : Keeps s k.s) : Keeps s (checks s l k).s := by
  rcases checks_cases s l k with h1 | ⟨st, h1⟩
  · rw [h1]; exact h
  · rw [h1]; exact .refl s

end Sys2Proof.Machine
end

