-- ==== Sys2Proof/Machine/Pads.lean ====
section
/-! DEFINITION. What each pad shows outside: unpowered, held in reset, asleep and in use (R381, R461, Tables 11.7, 14.4). It
is a view of the state, as the status window is; no command reads it. -/

namespace Sys2Proof.Machine

/-- The pads of Tables 11.7 and 14.4. `pulled` is nRESET (up), or WAKE, HOST_SEL, BOOT_SEL or TMODE (down); `tdmIn` a DIN, and
BCLK and FS of a slave; `tapIn` is TCK, TMS, TDI or nTRST; `xref` and `xt32` the pins of an oscillator. -/
inductive Pad where
  | ain (ch : Nat)
  | out (d : Nat)
  | pump (j : Nat)
  | orientation (n : Nat)
  | micbias (n : Nat)
  | hpDet (n : Nat)
  | hostOut
  | tdmClock (p : Nat)
  | tdmOut (p : Nat)
  | aesTx (t : Nat)
  | pdmClk (k : Nat)
  | syncOut
  | nIrq
  | tdo
  | avs
  | aux (n : Nat)
  | hostIn
  | pulled (up : Bool)
  | gpio (n : Nat)
  | tdmIn (p : Nat)
  | aesRx (r : Nat)
  | pdmIn (k : Nat)
  | senseTrig
  | mclkIn
  | syncIn
  | tapIn
  | xref
  | xt32
  deriving DecidableEq, Repr

/-- What a pad shows: nothing, an input whose buffer is disabled too; a bias or a clamp; a level; the level it had at the commit of a sleep; what EXTEST's boundary register
drives; the TAP in reset; or the signal of its function, an input whose buffer is enabled too. -/
inductive PadState where
  | highZ | released | network | clamped | bothLow | pumpOff | idle | pulledDown | pulledUp | low | high | latched | boundary | tapReset | active
  deriving DecidableEq, Repr

/-- A digital pad's level. -/
def PinLevel.pad : PinLevel → PadState
  | .highZ => .highZ | .low => .low | .active => .active

/-- A clamped output (Table 14.4): line and headphone outputs to their reference, speakers with both legs low. -/
def outHeld (d : Nat) : PadState := if 32 ≤ d then .bothLow else .clamped

/-- A pad while the device is held in reset with VAON present (Table 14.4). -/
def padInReset : Pad → PadState
  | .ain _ => .network
  | .out d => outHeld d
  | .pump _ => .pumpOff
  | .orientation _ => .idle
  | .micbias _ => .pulledDown
  | .hpDet _ => .pulledUp
  | .nIrq | .avs => .released
  | .pulled up => if up then .pulledUp else .pulledDown
  | .xt32 => .active
  | .tapIn => .tapReset
  | .hostOut | .tdmClock _ | .tdmOut _ | .aesTx _ | .pdmClk _ | .syncOut | .tdo | .aux _ | .hostIn | .gpio _ | .tdmIn _
  | .aesRx _ | .pdmIn _ | .senseTrig | .mclkIn | .syncIn | .xref => .highZ

/-- GPIO8 to GPIO11 serve the boot flash while the boot ROM reads it (R480): FL_nCS, FL_SCK and the data to it are driven. -/
def flashPads (s : State) : Bool := s.power.straps.flash && s.power.boot == .verify

/-- A digital input on IOVDD_A: its buffer stays disabled until its function is enabled (R457), and behind held pads it is ignored. -/
def inputPad (s : State) (enabled : Bool) : PadState :=
  if enabled && logicOn s && s.power.iovddA && !s.power.padsHeld then .active else .highZ

/-- A swap waits for its edge of SYNC_IN. -/
def edgeArmed (s : State) : Bool := match s.sets.swap with | some r => r.armed | none => false

/-- A pad from boot start on, awake or asleep (Tables 11.7, 14.4). -/
def padInUse (s : State) : Pad → PadState
  | .ain ch => if (chan s ch).live then .active else .network
  | .out d => if (dac s d).clamp then outHeld d else .active
  | .pump j => if (tget {} s.outs.pumps j).on then .active else .pumpOff
  | .orientation n => if (jackRun s n).orient = .idle then .idle else .active
  | .micbias n => if micOn s n then .active else .pulledDown
  | .hpDet _ => .pulledUp
  | .hostOut => if logicOn s && s.power.iovddH then .active else .highZ
  | .tdmClock p => (tdmClockPins s p).pad
  | .tdmOut p => (tdmDoutPin s p).pad
  | .aesTx t => (aesTxPins s t).pad
  | .pdmClk k => (pdmClkPin s k).pad
  | .syncOut => if s.power.iovddA = false then .highZ else if syncOutHigh s then .high else .low
  | .nIrq => if nIrqLow s then .low else .released
  | .tdo => if logicOn s && s.power.iovddA then .active else .highZ
  | .avs => if s.power.iovddA = false then .highZ else if avsOn s then .active else .released
  | .aux _ => .highZ
  | .hostIn => if logicOn s && s.power.iovddH then .active else .highZ
  | .pulled up => if up then .pulledUp else .pulledDown
  | .gpio n =>
    if s.power.iovddA = false then .highZ
    else if flashPads s ∧ 8 ≤ n ∧ n < 12 then .active
    else if panicEn s ∧ n = fld s.panic.cfg 3 0 then .active
    else if s.power.padsHeld then .latched
    else .highZ
  | .tdmIn p => inputPad s (tdmEn (tdm s p).cfg)
  | .aesRx r => inputPad s (bit (aesCfg s r) 31)
  | .pdmIn k => inputPad s (bit (pdmCfg s (k / 2)) 31)
  | .senseTrig => inputPad s (s.sense.edge != 0)
  | .mclkIn => inputPad s (s.clk.a.en && s.clk.ref == 1)
  | .syncIn => inputPad s (s.clk.inmode != 0 || edgeArmed s)
  | .tapIn => if s.power.iovddA = false then .highZ else if logicOn s then .active else .tapReset
  | .xref => if xrefOn s then .active else .highZ
  | .xt32 => if bit s.clk.aon 31 then .active else .highZ

/-- The rail of a digital pad is present (Tables 14.1, 14.8). -/
def padRail (s : State) : Pad → Bool
  | .hostOut | .hostIn => s.power.iovddH
  | .tdmClock _ | .tdmOut _ | .aesTx _ | .pdmClk _ | .syncOut | .tdo | .avs | .gpio _ | .tdmIn _ | .aesRx _ | .pdmIn _ | .senseTrig
  | .mclkIn | .syncIn | .tapIn => s.power.iovddA
  | .ain _ | .out _ | .pump _ | .orientation _ | .micbias _ | .hpDet _ | .nIrq | .aux _ | .pulled _ | .xref | .xt32 => true

/-- EXTEST has taken the pads, the control of the output clamps among them (R417). The supplies' oscillators and the TAP's own pins
are not in the boundary register. -/
def extested (s : State) : Pad → Bool
  | .tdo | .tapIn | .pulled _ | .xref | .xt32 => false
  | p => logicOn s && padRail s p && s.pins.jtag == .extest

/-- A pad (R461): with VAON absent every pad is high impedance. A GPIO that no rule gives a function is an input until firmware drives
it; behind held pads it is latched (Table 11.7). -/
def pad (s : State) (p : Pad) : PadState :=
  match s.power.st with
  | .off => .highZ
  | .reset => padInReset p
  | _ => if extested s p then .boundary else padInUse s p

end Sys2Proof.Machine
end

