-- ==== Sys2Proof/WellFormed.lean ====
section
/-! DEFINITION. Well-formed commands: the operands lie in the ranges of the things the spec names (R19, Table 1.2, R35,
Table 1.8). A command word's COUNT field has 16 bits (Table 2.4). -/

namespace Sys2Proof

/-- The operand count fits the COUNT field of the command word (Table 2.4). -/
def CmdArgs.wf (a : CmdArgs) : Bool := decide (a.ops.length < 65536)

/-- Event and row operands lie within the device: 32 inputs, 34 DAC channels, 4 TDM ports, and so on. -/
def Instr.wf : Instr → Bool
  | .readSt offset n _ => decide (offset < 65536) && decide (n < 256)
  | .refReady r => decide (r.bank < 4)
  | .refSettleLate b | .refOutOfTolerance b | .bufferOff b => decide (b < 4)
  | .channelStart c | .gainSwitch c _ | .overloadTrip c | .overloadRelease c | .modulatorInstability c
  | .modulatorRecovery c | .neighbourSetEnd c | .coefficientMoveEnd c | .fadeEnd c | .queuedFadeStart c =>
    decide (c < 32)
  | .detectorCaptureRead d => decide (d < 160)
  | .nodeRampEnd i o => decide (i < 128) && decide (o < 128)
  | .flowSample f _ _ => decide (f < 256)
  | .tdmMasterClockStart p | .tdmFrameReceive p _ _ _ | .tdmFrameSend p | .tdmClockStop p => decide (p < 4)
  | .aes3SubframeReceive r k _ _ _ => decide (r < 2) && decide (k < 2)
  | .aes3BlockReceive r k b => decide (r < 2) && decide (k < 2) && decide (b.length = 6)
  | .aes3Lock r _ _ | .aes3LossOfLock r | .aes3ZPreamble r => decide (r < 2)
  | .pdmClockStart c => decide (c < 2)
  | .asrcTrackerLock t | .asrcReacquire t | .asrcOutOfRange t => decide (t < 6)
  | .pumpSoftStartDone p | .pumpStop p | .classgSwitchHigh p | .classgSwitchLow p => decide (p < 4)
  | .servoDone d _ | .speakerUnmuteStart d | .unmuteRampEnd d | .muteRampEnd d | .starvationFadeEnd d =>
    decide (d < 34)
  | .speakerOvercurrent k | .speakerTripRestart k => decide (k < 2)
  | .hpdetChange j _ | .jackMuteAutoRelease j | .insertionConfirmed j | .removalConfirmed j | .classificationStart j
  | .tipRead j _ | .micReadA j _ | .micReadB j _ | .classificationTimeout j | .detectionReadReissue j _
  | .buttonSample j _ => decide (j < 4)
  | .pllWindow u _ _ _ | .referenceLost u | .pllUngate u | .frequencyGuardTrip u _ | .relockTestHold u =>
    decide (u < 2)
  | .sealStart k | .sealBlockEnd k | .sealSignRecord k | .sealCloseRecord k => decide (k < 8)
  | .loopi _ c _ => decide (c ≠ 0)
  | .accrd _ _ _ _ sh => decide (sh.toNat ≤ 8)
  | .nop a | .devInfo a | .irqMask a | .resetSoft a | .resetCore a | .wdtCfg a | .swap a | .swapCancel a | .setCopy a
  | .setRead a | .syncCfg a | .syncEmit a | .syncNow a | .refOn a | .refOff a | .feMode a | .feGain a | .fePair a
  | .calZ a | .calF a | .calExportPart0 a | .calExportPart a | .calImportPart a | .calImportCommit a
  | .calFactoryRestore a | .calFactoryProgram a | .calFactoryClear a | .fltPreset a | .firWriteHdr a | .firWrite a
  | .firSel a | .firFade a | .detCfg a | .detRead a | .route a | .gain a | .ramp a | .weir a | .mrTap a | .mrOut a
  | .panicCfg a | .panicRelease a | .flowBind a | .flowUnbind a | .tdmCfg a | .aesCfg a | .aesCsRead a
  | .aesCsWrite a | .pdmCfg a | .outCfg a | .jackCfg a | .jackUnmute a | .micbias a | .senseSeq a | .senseStart a
  | .senseNow a | .senseWatch a | .pllCfg a | .pllRef a | .timeRead a | .sleep a | .sleepCancel a | .padsRelease a
  | .avsCfg a | .coreLoad a | .coreBind a | .coreParam a | .coreRead a | .imageLoad a | .imageExec a | .sessionOpen a
  | .sessionClose a | .otpWriteRootkey a | .otpWritePolicy a | .otpWriteXrefFreq a | .otpWriteCert a | .otpWriteArb a
  | .lifecycle a | .keyRevoke a | .certReadKeys a | .certRead a | .debugChal a | .debugResp a | .sealOpen a
  | .sealClose a | .sealRead a | .faultRead a | .faultClear a | .marginRead a | .selftestPatrol a | .selftestInject a
  | .selftestOffset a | .selftestPlanner a => a.wf
  | .writePkt _ | .readPkt _ | .packetExecute | .firmwareReady | .watchdogExpiry | .swapTakeEffect | .swapTimeout
  | .copyComplete | .immediateWriteApply _ | .syncInEdge _ | .synchronisingReset _ | .calZComplete _
  | .calFComplete _ | .meterUpdate | .tapRampEnd _ | .panicAssert | .vcmRampEnd | .speakerOvertemp _
  | .speakerTempRecover _ | .senseTrigEdge _ | .sequenceEntryComplete _ | .watchConversion _
  | .urgentConversionComplete | .holdoverMute | .holdoverRestart | .xrefReady | .timebaseTick _
  | .aonCalibration _ _ | .aonTempSample _ | .sleepQuery | .agentAccept _ | .delayExpired _ | .sleepCommit
  | .wakePin | .sleepTimer | .dvddPowerGood | .wakeStepTimeout | .wakeRetry | .returnToRun | .audioRestart
  | .pinReset | .brownOut | .powerOnReset | .vaonLoss | .bootStart _ | .flashBoot _ _ | .hpvddLockout | .spkvddLockout
  | .spkvddRecover | .iovddALoss | .iovddHLoss | .coreFrameCompute _ | .framePresentation _
  | .coreMemoryClearDone _ | .codeFetchError _ | .bundleNop _ | .add _ _ _ _ _ | .adds _ _ _ _ _ | .sub _ _ _ _ _
  | .subs _ _ _ _ _ | .and _ _ _ _ _ | .or _ _ _ _ _ | .xor _ _ _ _ _ | .shl _ _ _ _ _ | .shr _ _ _ _ _
  | .sar _ _ _ _ _ | .shls _ _ _ _ _ | .mulq _ _ _ _ _ | .min _ _ _ _ _ | .max _ _ _ _ _ | .abs _ _ _ _
  | .sel _ _ _ _ _ _ | .addi _ _ _ _ _ | .movl _ _ _ _ | .movh _ _ _ _ | .cmplt _ _ _ _ _ | .cmple _ _ _ _ _
  | .cmpeq _ _ _ _ _ | .tstt _ _ _ _ _ | .pand _ _ _ _ _ | .por _ _ _ _ _ | .pnot _ _ _ _ | .tags _ _ _ _ _
  | .tagc _ _ _ _ _ | .tagr _ _ _ _ | .tagw _ _ _ _ _ | .macz _ _ _ _ _ | .mac _ _ _ _ _ | .msu _ _ _ _ _
  | .accadd _ _ _ _ | .accmv _ _ _ _ | .ldw _ _ _ _ _ | .ldw2 _ _ _ _ _ | .stw _ _ _ _ _ | .stw2 _ _ _ _ _
  | .ldp _ _ _ _ _ | .ldc _ _ _ _ _ | .ldc2 _ _ _ _ _ | .ldd _ _ _ _ _ | .std _ _ _ _ _ | .lds _ _ _ _ _ _
  | .str _ _ _ _ _ _ | .br _ _ _ | .call _ _ _ | .ret _ _ | .loop _ _ _ _ | .fend _ | .ldg _ _ _ _ | .stg _ _ _ _
  | .ldgh _ _ _ _ | .stgh _ _ _ _ | .ldgb _ _ _ _ | .stgb _ _ _ _ | .ldgl _ _ _ _ | .stgu _ _ _ _ | .wfe _
  | .lockTimeout | .registerWrite _ _ _ | .eccWriteback _ | .patrolPass _ _ _ | .imageExecComplete
  | .debugChallengeExpiry | .drbgHealthFail _ | .selftestComplete _ | .targetedSelftest
  | .targetedSelftestComplete _ | .plannerRun _ | .avsStep | .avsVerify _ | .jtagBypass | .jtagIdcode
  | .jtagSamplePreload _ | .jtagExtest | .hpvddRecover | .iovddAReturn | .iovddHReturn | .xt32Oscillates _ => true

end Sys2Proof
end

