-- ==== Sys2Proof/Tests/Slice0.lean ====
section
/-! SUPPORT. Tests of the model: published check values and the spec's worked examples, well-formedness, and for every
obligation with hypotheses a concrete state and operands that meet them together, clause by clause. -/

open Sys2Proof Sys2Proof.Machine

set_option maxRecDepth 20000

namespace Sys2Proof.Tests

set_option Elab.async false

/-! ## Check values -/

/-- R48: the check value over "123456789" is 0x29B1. -/
theorem test_crc16_check_value : crc16 (ascii "123456789") = 0x29B1 := by decide +kernel

/-- The published check value of CRC-32 over "123456789". -/
theorem test_crc32_check_value : crc32 (ascii "123456789") = 0xCBF43926 := by decide +kernel

/-- R241, the worked example: 0x4000_0000 with tag 0b0100 is sent as 0x4000_004D. -/
theorem test_crc4_slot_word : crc4 0x40000040 = 0xD := by decide +kernel

/-- FIPS 180-4, the message "abc". -/
theorem test_sha256_abc : sha256Words (ascii "abc") =
    [0xba7816bf, 0x8f01cfea, 0x414140de, 0x5dae2223, 0xb00361a3, 0x96177a9c, 0xb410ff61, 0xf20015ad] := by decide +kernel

/-- FIPS 197, appendix C.3: AES-256 of 0x00112233…FF under the key 0x0001…1F. -/
theorem test_aes256 : bytesNat (aesBlock (roundKeys ((List.range 32).map (BitVec.ofNat 8)))
    ((List.range 16).map (fun i => BitVec.ofNat 8 (17 * i)))) = 0x8ea2b7ca516745bfeafc49904b496089 := by decide +kernel

/-- RFC 4231, test case 2. -/
theorem test_hmac_sha256 : bytesNat (hmac (ascii "Jefe") (ascii "what do ya want for nothing?")) =
    0x5bdcc146bf60754e6a042426089575c75a003f089d2739839dec58b964ec3843 := by decide +kernel


/-! ## Worked examples of the spec -/

/-- 04, calibrating an interleaved pair: the factors 1.0139114 of +0.12 dB and 1.0034598 of +0.03 dB, in Q2.30. -/
theorem test_gain_of_decibels : gainOf 30 12 * 10000000 / 2 ^ 30 = 10139113 ∧ gainOf 30 3 * 10000000 / 2 ^ 30 = 10034598 := by
  decide +kernel

/-- 06, a ramp overtaken: at j = 511 of 1,024 from −20 dB to −4 dB the gain lies between 0.2509 and 0.2510 (−12.008 dB). -/
theorem test_ramp_overtaken : rampGain ⟨codeGain (-2000), some (-2000), -400, 1024, false, 0⟩ 511 * 10000 / 2 ^ 20 = 2509 ∧
    (newRamp { State.reset with mtx := { ({} : Matrix) with ramps := [(0, some ⟨codeGain (-2000), some (-2000), -400, 1024, false, 512⟩)] } }
      (-400) 0x000A8000 0).map (fun r => (r.len, r.rcos)) = some (1024, true) := by decide +kernel

/-- Table 3.4: Q1.31 operations saturate. -/
theorem test_q31_saturates : opAbs 0x80000000 = 0x7FFFFFFF ∧ opAdds 0x7FFFFFFF 1 = 0x7FFFFFFF ∧ opMulq 0x80000000 0x80000000 = 0x7FFFFFFF := by
  decide +kernel

/-- 13, a planner run on an aged part: the margins, the request of 765 mV and the three words, with SN26 at the code next to 800 mV. -/
def aged : State := { State.reset with
  power := { ({} : Power) with st := .run, boot := .run, avs0 := 0x80000000, avs1 := 0x02EE0384, request := 800, target := 800 }
  clk := { a := { cfg := 0x800C0504, st := .locked }, b := { cfg := 0x800C0506, st := .locked } }
  margin := { ({} : Margin) with running := true, mh := 88, w1 := 0x000000FF, mn := 255 } }
theorem test_planner_gauge : (gaugeMargin ⟨[(607600, 620000)], 2048, 2731, 1904, 0, 0⟩ aged).1 = 89 ∧
    planRequest ⟨[(607600, 620000)], 2048, 2731, 1904, 0, 0⟩ aged = 765 ∧
    tmCode aged ⟨[(607600, 620000)], 2048, 2731, 1904, 0, 0⟩ (256 * 765) = 101 := by decide +kernel
theorem test_planner_later : (gaugeMargin ⟨[(560000, 620000)], 2048, 2731, 1904, 0, 0⟩ aged).1 = 49 ∧
    planRequest ⟨[(560000, 620000)], 2048, 2731, 1904, 0, 0⟩ aged = 835 := by decide +kernel

/-! ## Well-formedness and decoding -/

/-! One ill-formed command for each check, at the first value past its range: each is refused. -/

theorem test_ill_formed_refused_1 : ([.readSt 65536 1 ⟨⟨0x38, 0x5C⟩, 9⟩, .readSt 0 256 ⟨⟨0x38, 0x5C⟩, 9⟩, .refReady ⟨4, 0⟩, .refSettleLate 4, .refOutOfTolerance 4, .bufferOff 4, .channelStart 32,
   .gainSwitch 32 true, .overloadTrip 32, .overloadRelease 32, .modulatorInstability 32, .modulatorRecovery 32,
   .neighbourSetEnd 32, .coefficientMoveEnd 32, .fadeEnd 32, .queuedFadeStart 32, .detectorCaptureRead 160] : List Instr).all (fun c => !c.wf) = true := by decide +kernel
theorem test_ill_formed_refused_2 : ([.nodeRampEnd 128 0, .nodeRampEnd 0 128, .flowSample 256 [] [], .tdmMasterClockStart 4, .tdmFrameReceive 4 0 0 [],
   .tdmFrameSend 4, .tdmClockStop 4, .aes3SubframeReceive 2 0 0 false false, .aes3SubframeReceive 0 2 0 false false,
   .aes3BlockReceive 2 0 [0, 0, 0, 0, 0, 0], .aes3BlockReceive 0 2 [0, 0, 0, 0, 0, 0], .aes3BlockReceive 0 0 [],
   .aes3Lock 2 0 false, .aes3LossOfLock 2, .aes3ZPreamble 2, .pdmClockStart 2, .asrcTrackerLock 6, .asrcReacquire 6,
   .asrcOutOfRange 6] : List Instr).all (fun c => !c.wf) = true := by decide +kernel
theorem test_ill_formed_refused_3 : ([.pumpSoftStartDone 4, .pumpStop 4, .classgSwitchHigh 4, .classgSwitchLow 4, .servoDone 34 0, .speakerUnmuteStart 34,
   .unmuteRampEnd 34, .muteRampEnd 34, .starvationFadeEnd 34, .speakerOvercurrent 2, .speakerTripRestart 2, .hpdetChange 4 true,
   .jackMuteAutoRelease 4, .insertionConfirmed 4, .removalConfirmed 4, .classificationStart 4, .tipRead 4 0, .micReadA 4 0,
   .micReadB 4 0, .classificationTimeout 4, .detectionReadReissue 4 0, .buttonSample 4 0] : List Instr).all (fun c => !c.wf) = true := by decide +kernel
theorem test_ill_formed_refused_4 : ([.pllWindow 2 0 true 0, .referenceLost 2, .pllUngate 2, .frequencyGuardTrip 2 ⟨0, 0⟩, .relockTestHold 2, .sealStart 8, .sealBlockEnd 8,
   .sealSignRecord 8, .sealCloseRecord 8, .loopi .cp 0 5, .accrd (.sc 0) ⟨false, 0⟩ 1 0 9] : List Instr).all (fun c => !c.wf) = true := by decide +kernel

/-- A command word's COUNT has 16 bits: 65,536 operands are too many. -/
theorem test_ill_formed_count : (Instr.firWrite ⟨false, 0, 0, false, false, List.replicate 65536 0⟩).wf = false := by
  show decide ((List.replicate 65536 (0 : Word)).length < 65536) = false
  rw [List.length_replicate]; decide

/-- The last value of a range is accepted. -/
theorem test_well_formed_accepted : ([.readSt 65535 255 ⟨⟨0x38, 0x5C⟩, 1025⟩, .refReady ⟨3, 0⟩, .fadeEnd 31, .detectorCaptureRead 159, .nodeRampEnd 127 127,
    .flowSample 255 [] [], .servoDone 33 0, .asrcOutOfRange 5, .sealStart 7, .loopi .cp 511 5,
    .accrd (.sc 0) ⟨false, 0⟩ 1 0 8, .nop ⟨false, 0, 0, false, false, []⟩] : List Instr).all Instr.wf = true := by decide +kernel

/-- No row of the opcode table has bits, so no word spells a command. -/
theorem test_no_word_decodes (nbits w : Nat) : decodeTableWord nbits w = none := rfl

/-! ## The hypotheses of the obligations are met -/

/-- A command of a plain packet. -/
def cmd (ops : List Word) (flags : BitVec 4 := 0) (imm : Bool := false) (mirror : Bool := false) : CmdArgs :=
  ⟨false, flags, 0, mirror, imm, ops⟩

/-- The device in RUN: firmware serves, both PLLs are locked, the VCM node is up, and 10 s have passed. -/
def rn : State := { ({} : State) with
  power := { ({} : Power) with st := .run, boot := .run, onRc := false, xrefOk := true }
  clk := { a := { cfg := 0x800C0504, st := .locked }, b := { cfg := 0x800C0506, st := .locked } }
  outs := { vcm := .on }
  tb := { ({} : Timebase) with count := 10000000000, lockedOnce := true, src := .periLocked } }

/-! ## Single steps of worked examples -/

/-- The response words an outcome has built. -/
def built : Host.Outcome State Fault Refusal → List Word
  | .next t => t.host.building
  | _ => []

/-- 11, SLEEP with at most 50 ms by the WAKE pin or jack insertion: status word 0x8000_0001, result 0x0000_0005 (REST). -/
theorem test_sleep_chooses_rest : built (step { rn with
    jack := { rn.jack with words := [(1, { ({} : JackWord) with w0 := 0x80000000 })] }
    pending := [.sleep (cmd [0xC350, 3, 0])] }) = [0x80000001, 5] := by decide +kernel

/-- 05, FIR.WRITE to a bank that a fade uses: 0x3103_0000 (BANK_BUSY). -/
theorem test_fir_write_of_a_fading_bank : built (step { rn with
    fe := { rn.fe with chans := [(6, { ({} : Chan) with run := .running, fade := some ⟨2, 5, 1024, 64⟩ })] }
    pending := [.firWrite (cmd [0x20000, 1])] }) = [0x31030000] := by decide +kernel

/-- 06, an in-ear monitor mix: MR.TAP of bus 0, tap 0 to AIN0 at code 12 is written to SHADOW. -/
theorem test_mr_tap_writes_shadow : (match step { rn with pending := [.mrTap (cmd [0, 0x8000000C])] } with
    | .next t => (t.host.building, (shadow t).tap 0 0) | _ => (([] : List Word), (0 : Word))) = ([0x44000000], 0x8000000C) := by decide +kernel

/-- Table 3.4: ADDS saturates, its tag is the OR of its sources' tags, and g0 stays 0. -/
def adder : State := { rn with
  cores := { rn.cores with core := [(0, { ({} : Core) with regs := { ({} : Regs) with g := [(1, ⟨0x7FFFFFFF, 8⟩), (2, ⟨1, 5⟩)] } })] } }
theorem test_adds_saturates : (match exec (.adds (.sc 0) ⟨false, 0⟩ 3 1 2) adder with
    | .next t => gReg t (.sc 0) 3 | _ => ⟨0, 0⟩) = ⟨0x7FFFFFFF, 0xC⟩ := by decide +kernel
theorem test_g0_reads_zero : (match exec (.adds (.sc 0) ⟨false, 0⟩ 0 1 2) adder with
    | .next t => gReg t (.sc 0) 0 | _ => ⟨1, 1⟩) = ⟨0, 0⟩ := by decide +kernel

/-- A small state for the witnesses below. -/
def st0 : State := { rn with fe := { rn.fe with refs := [(1, { ({} : RefBuf) with on := true, powered := true, onAt := 7 })] } }

/-- A small state for the witnesses below. -/
def st1 : State := { rn with fe := { rn.fe with refs := [(1, { ({} : RefBuf) with on := true, powered := true, ready := true })], chans := [(9, { ({} : Chan) with run := .running })] } }

/-- A small state for the witnesses below. -/
def st2 : State := { rn with sets := { rn.sets with bankA := { ({} : ConfigSet) with feMode := [(9, 0x80000000)] } } }

/-- A small state for the witnesses below. -/
def st3 : State := { rn with fe := { rn.fe with refs := [(1, { ({} : RefBuf) with on := true, powered := true, ready := true })] } }

/-- A small state for the witnesses below. -/
def st4 : State := { rn with fe := { rn.fe with refs := [(1, { ({} : RefBuf) with on := true, powered := true })] } }

/-- A small state for the witnesses below. -/
def st5 : State := { rn with fe := { rn.fe with refs := [(1, { ({} : RefBuf) with on := true, powered := true, fromOn := true })] } }

/-- A small state for the witnesses below. -/
def st6 : State := { rn with fe := { rn.fe with refs := [(1, { ({} : RefBuf) with powered := true, offAfterRamp := true })], chans := [(9, { ({} : Chan) with run := .ramping, rampJ := 64 })] } }

/-- A small state for the witnesses below. -/
def st7 : State := { rn with sets := { rn.sets with bankA := { ({} : ConfigSet) with feMode := [(9, 0x80000000)], feGain := [(9, 12)] } }, fe := { rn.fe with refs := [(1, { ({} : RefBuf) with on := true, powered := true, ready := true })], chans := [(9, { ({} : Chan) with run := .stopped })] } }

/-- A small state for the witnesses below. -/
def st8 : State := { rn with fe := { rn.fe with chans := [(9, { ({} : Chan) with run := .running, gainPend := some ⟨6, 3, true⟩ })] } }

/-- A small state for the witnesses below. -/
def st9 : State := { rn with sets := { rn.sets with bankA := { ({} : ConfigSet) with feMode := [(8, 0x80000000), (9, 0x80100000)] } }, fe := { rn.fe with refs := [(1, { ({} : RefBuf) with on := true, powered := true, ready := true })], chans := [(8, { ({} : Chan) with run := .running }), (9, { ({} : Chan) with run := .running })] } }

/-- A small state for the witnesses below. -/
def st10 : State := { rn with fe := { rn.fe with chans := [(8, { ({} : Chan) with run := .running, ovr := true })] } }

/-- A small state for the witnesses below. -/
def st11 : State := { rn with sets := { rn.sets with bankA := { ({} : ConfigSet) with feMode := [(8, 0x80000000)] } }, fe := { rn.fe with refs := [(1, { ({} : RefBuf) with on := true, powered := true, ready := true })], chans := [(8, { ({} : Chan) with run := .running })] } }

/-- A small state for the witnesses below. -/
def st12 : State := { rn with fe := { rn.fe with chans := [(8, { ({} : Chan) with run := .running, unstable := true })] } }

/-- A small state for the witnesses below. -/
def st13 : State := { rn with fe := { rn.fe with chans := [(8, { ({} : Chan) with run := .running, nbr := true })] } }

/-- A small state for the witnesses below. -/
def st14 : State := { rn with fe := { rn.fe with chans := [(8, { ({} : Chan) with run := .running, move := some ⟨⟨0, 0, 0, 0, 0, 1⟩, 64, false⟩ })] } }

/-- A small state for the witnesses below. -/
def st15 : State := { rn with fe := { rn.fe with chans := [(8, { ({} : Chan) with run := .running })] } }

/-- A small state for the witnesses below. -/
def st16 : State := { rn with fe := { rn.fe with chans := [(8, { ({} : Chan) with run := .running, fade := some ⟨8, 2, 64, 3⟩ })] } }

/-- A small state for the witnesses below. -/
def st17 : State := { rn with sets := { rn.sets with bankA := { ({} : ConfigSet) with fePair := [(4, 2)] } }, fe := { rn.fe with chans := [(8, { ({} : Chan) with run := .running })] } }

/-- A small state for the witnesses below. -/
def st18 : State := { rn with sets := { rn.sets with bankA := { ({} : ConfigSet) with fePair := [(4, 1)] } }, fe := { rn.fe with chans := [(8, { ({} : Chan) with run := .running })] } }

/-- A small state for the witnesses below. -/
def st19 : State := { rn with sets := { rn.sets with bankA := { ({} : ConfigSet) with fePair := [(4, 1)] } }, fe := { rn.fe with chans := [(8, { ({} : Chan) with run := .running, oddNext := true })] } }

/-- A small state for the witnesses below. -/
def st20 : State := { rn with fe := { rn.fe with chans := [(8, { ({} : Chan) with run := .running, fade := some ⟨8, 2, 64, 64⟩ })] } }

/-- A small state for the witnesses below. -/
def st21 : State := { rn with fe := { rn.fe with chans := [(8, { ({} : Chan) with run := .running, queued := some 3 })] } }

/-- A small state for the witnesses below. -/
def st22 : State := { rn with fe := { rn.fe with chans := [(8, { ({} : Chan) with run := .running, queued := some 3, fade := some ⟨8, 2, 64, 64⟩ })] } }

/-- A small state for the witnesses below. -/
def st23 : State := { rn with filt := { rn.filt with dets := [(10, { ({} : Det) with p0 := 5, ovr := true })] } }

/-- A small state for the witnesses below. -/
def st24 : State := { rn with sets := { rn.sets with taken := [646] } }

/-- A small state for the witnesses below. -/
def st25 : State := { rn with sets := { rn.sets with taken := [16390] } }

/-- A small state for the witnesses below. -/
def st26 : State := { rn with sets := { rn.sets with bankA := { ({} : ConfigSet) with nodes := [(6, 0x0008C000), (134, 0x0008C000)], weirs := [(6, 0x00640000)] } }, mtx := { rn.mtx with laneIn := [(0, ⟨0x7FFFFFFF, 2⟩), (1, ⟨0x7FFFFFFF, 0⟩)] } }

/-- A small state for the witnesses below. -/
def st27 : State := { rn with mem := { rn.mem with upsets := [.data 6] } }

/-- A small state for the witnesses below. -/
def st28 : State := { rn with sets := { rn.sets with bankA := { ({} : ConfigSet) with nodes := [(6, 0x0008C000), (134, 0x0008C000)], weirs := [(6, 0x87D00000)] } }, mtx := { rn.mtx with laneIn := [(0, ⟨0x7FFFFFFF, 2⟩), (1, ⟨0x7FFFFFFF, 0⟩)] } }

/-- A small state for the witnesses below. -/
def st29 : State := { rn with sets := { rn.sets with bankA := { ({} : ConfigSet) with nodes := [(6, 0x0008C000), (134, 0x0008C000)], weirs := [(6, 0xC7D00000)] } }, mtx := { rn.mtx with laneIn := [(0, ⟨0x7FFFFFFF, 2⟩), (1, ⟨0x7FFFFFFF, 0⟩)], weirs := [(6, { ({} : WeirRun) with line := List.replicate 16 ⟨5, 0, 0⟩ })] } }

/-- A small state for the witnesses below. -/
def st30 : State := { rn with mtx := { rn.mtx with ramps := [(646, some ⟨0, none, 0, 4, false, 4⟩)] } }

/-- A small state for the witnesses below. -/
def st31 : State := { rn with mr := { rn.mr with taps := [(31, { ({} : TapRun) with chan := 5, code := 0, ramp := true })] } }

/-- A small state for the witnesses below. -/
def st32 : State := { rn with mr := { rn.mr with taps := [(31, { ({} : TapRun) with chan := 5, code := 0, ramp := true, next := some 9 })] } }

/-- A small state for the witnesses below. -/
def st33 : State := { rn with mr := { rn.mr with assignRamp := [(223, some ⟨0, 0⟩)] } }

/-- A small state for the witnesses below. -/
def st34 : State := { rn with mr := { rn.mr with blockRamp := [(31, some ⟨0, 0⟩)] } }

/-- A small state for the witnesses below. -/
def st35 : State := { rn with outs := { rn.outs with pumps := [(3, { ({} : Pump) with on := true })], dacs := [(30, { ({} : Dac) with phase := .pumpStart })] } }

/-- A small state for the witnesses below. -/
def st36 : State := { rn with outs := { rn.outs with dacs := [(24, { ({} : Dac) with phase := .servo })] } }

/-- A small state for the witnesses below. -/
def st37 : State := { rn with outs := { rn.outs with dacs := [(32, { ({} : Dac) with phase := .spkStart })] } }

/-- A small state for the witnesses below. -/
def st38 : State := { rn with outs := { rn.outs with dacs := [(32, { ({} : Dac) with phase := .unmuting, g := .rising, clamp := false })] } }

/-- A small state for the witnesses below. -/
def st39 : State := { rn with outs := { rn.outs with dacs := [(32, { ({} : Dac) with phase := .muting, g := .falling, clamp := false })] } }

/-- A small state for the witnesses below. -/
def st40 : State := { rn with outs := { rn.outs with dacs := [(0, { ({} : Dac) with phase := .muting, g := .falling, clamp := false })] } }

/-- A small state for the witnesses below. -/
def st41 : State := { rn with power := { rn.power with entry := some ⟨stRest, 5, 5, true, [], 7⟩ } }

/-- A small state for the witnesses below. -/
def st42 : State := { rn with outs := { rn.outs with pumps := [(3, { ({} : Pump) with on := true, up := true })] } }

/-- A small state for the witnesses below. -/
def st43 : State := { rn with outs := { rn.outs with vcm := .rampDown } }

/-- A small state for the witnesses below. -/
def st44 : State := { rn with outs := { rn.outs with vcm := .rampUp, dacs := [(1, { ({} : Dac) with phase := .waitVcm })] } }

/-- A small state for the witnesses below. -/
def st45 : State := { rn with outs := { rn.outs with pumps := [(1, { ({} : Pump) with on := true, up := true })], dacs := [(26, { ({} : Dac) with phase := .playing, level := -539423504 })] }, sets := { rn.sets with bankA := { ({} : ConfigSet) with outCfg := [(26, 0x80000000)] } } }

/-- A small state for the witnesses below. -/
def st46 : State := { rn with outs := { rn.outs with pumps := [(1, { ({} : Pump) with on := true, up := true, high := true, loudAt := 9900000000 })], dacs := [(26, { ({} : Dac) with phase := .playing, level := -381882595 })] }, sets := { rn.sets with bankA := { ({} : ConfigSet) with outCfg := [(26, 0x80000000)] } } }

/-- A small state for the witnesses below. -/
def st47 : State := { rn with outs := { rn.outs with dacs := [(3, { ({} : Dac) with starve := .fadeOut, sAt := 9000000000 })] } }

/-- A small state for the witnesses below. -/
def st48 : State := { rn with outs := { rn.outs with dacs := [(3, { ({} : Dac) with starve := .fadeIn, sAt := 9000000000 })] } }

/-- A small state for the witnesses below. -/
def st49 : State := { rn with outs := { rn.outs with dacs := [(32, { ({} : Dac) with phase := .playing, g := .one, clamp := false, trips := [9500000000, 9400000000, 1] })] } }

/-- A small state for the witnesses below. -/
def st50 : State := { rn with outs := { rn.outs with dacs := [(33, { ({} : Dac) with phase := .playing, g := .one, clamp := false, trips := [] })] } }

/-- A small state for the witnesses below. -/
def st51 : State := { rn with outs := { rn.outs with dacs := [(32, { ({} : Dac) with phase := .playing, g := .one, clamp := false })] } }

/-- A small state for the witnesses below. -/
def st52 : State := { rn with outs := { rn.outs with dacs := [(33, { ({} : Dac) with pause := 1 })] }, sets := { rn.sets with bankA := { ({} : ConfigSet) with outCfg := [(33, 0x80010000)] } } }

/-- A small state for the witnesses below. -/
def st53 : State := { rn with outs := { rn.outs with dacs := [(32, { ({} : Dac) with pause := 2 }), (33, { ({} : Dac) with pause := 2 })] }, sets := { rn.sets with bankA := { ({} : ConfigSet) with outCfg := [(33, 0x80010000)] } } }

/-- A small state for the witnesses below. -/
def st54 : State := { rn with jack := { rn.jack with run := [(2, { ({} : JackRun) with step := .micA, present := true, orient := .omtp })], words := [(2, { ({} : JackWord) with w0 := 0x80000000 })] } }

/-- A small state for the witnesses below. -/
def st55 : State := { rn with jack := { rn.jack with run := [(2, { ({} : JackRun) with step := .none, present := true, muted := true, cls := 2 })], words := [(2, { ({} : JackWord) with w0 := 0x80000000 })] } }

/-- A small state for the witnesses below. -/
def st56 : State := { rn with jack := { rn.jack with run := [(2, { ({} : JackRun) with muted := true })] } }

/-- A small state for the witnesses below. -/
def st57 : State := { rn with jack := { rn.jack with run := [(3, { ({} : JackRun) with pin := false, present := true })], words := [(3, { ({} : JackWord) with w0 := 0xA0000000 })] }, outs := { rn.outs with dacs := [(30, { ({} : Dac) with phase := .playing, g := .one, clamp := false })] } }

/-- A small state for the witnesses below. -/
def st58 : State := { rn with jack := { rn.jack with run := [(3, { ({} : JackRun) with muted := true, removing := true, pin := false, present := true })] } }

/-- A small state for the witnesses below. -/
def st59 : State := { rn with jack := { rn.jack with run := [(3, { ({} : JackRun) with pin := false })], words := [(3, { ({} : JackWord) with w0 := 0x80000000 })] } }

/-- A small state for the witnesses below. -/
def st60 : State := { rn with jack := { rn.jack with run := [(3, { ({} : JackRun) with pin := true, present := true, step := .tip })], words := [(3, { ({} : JackWord) with w0 := 0x80000000 })] } }

/-- A small state for the witnesses below. -/
def st61 : State := { rn with jack := { rn.jack with run := [(3, { ({} : JackRun) with step := .waiting, present := true })] } }

/-- A small state for the witnesses below. -/
def st62 : State := { rn with jack := { rn.jack with run := [(3, { ({} : JackRun) with step := .tip, present := true })] }, clk := { rn.clk with b := { rn.clk.b with gated := true } } }

/-- A small state for the witnesses below. -/
def st63 : State := { rn with jack := { rn.jack with run := [(3, { ({} : JackRun) with step := .tip, present := true })] }, sense := { rn.sense with urgent := true } }

/-- A small state for the witnesses below. -/
def st64 : State := { rn with jack := { rn.jack with run := [(3, { ({} : JackRun) with step := .micA, present := true })] }, clk := { rn.clk with b := { rn.clk.b with gated := true } } }

/-- A small state for the witnesses below. -/
def st65 : State := { rn with jack := { rn.jack with run := [(3, { ({} : JackRun) with step := .micA, present := true })] }, sense := { rn.sense with urgent := true } }

/-- A small state for the witnesses below. -/
def st66 : State := { rn with jack := { rn.jack with run := [(3, { ({} : JackRun) with step := .micB, present := true })] }, clk := { rn.clk with b := { rn.clk.b with gated := true } } }

/-- A small state for the witnesses below. -/
def st67 : State := { rn with jack := { rn.jack with run := [(3, { ({} : JackRun) with step := .micB, micA := 3414, present := true })] }, clk := { rn.clk with b := { rn.clk.b with gated := true } } }

/-- A small state for the witnesses below. -/
def st68 : State := { rn with jack := { rn.jack with run := [(3, { ({} : JackRun) with step := .micB, present := true })] } }

/-- A small state for the witnesses below. -/
def st69 : State := { rn with jack := { rn.jack with run := [(3, { ({} : JackRun) with step := .micB, present := true, dropped := true })] } }

/-- A small state for the witnesses below. -/
def st70 : State := { rn with jack := { rn.jack with run := [(3, { ({} : JackRun) with step := .micA, present := true, dropped := true })] }, clk := { rn.clk with b := { rn.clk.b with gated := true } } }

/-- A small state for the witnesses below. -/
def st71 : State := { rn with jack := { rn.jack with run := [(3, { ({} : JackRun) with step := .micA, present := true, dropped := true })] }, sense := { rn.sense with urgent := true } }

/-- A small state for the witnesses below. -/
def st72 : State := { rn with jack := { rn.jack with run := [(3, { ({} : JackRun) with step := .tip, present := true, dropped := true })] }, clk := { rn.clk with b := { rn.clk.b with gated := true } } }

/-- A small state for the witnesses below. -/
def st73 : State := { rn with jack := { rn.jack with run := [(3, { ({} : JackRun) with step := .tip, present := true, dropped := true })] }, sense := { rn.sense with urgent := true } }

/-- A small state for the witnesses below. -/
def st74 : State := { rn with jack := { rn.jack with run := [(3, { ({} : JackRun) with step := .micB, micA := 3414, present := true, dropped := true })] }, clk := { rn.clk with b := { rn.clk.b with gated := true } } }

/-- A small state for the witnesses below. -/
def st75 : State := { rn with jack := { rn.jack with run := [(3, { ({} : JackRun) with step := .micB, present := true, dropped := true })] }, sense := { rn.sense with urgent := true } }

/-- A small state for the witnesses below. -/
def st76 : State := { rn with jack := { rn.jack with run := [(3, { ({} : JackRun) with present := true, cls := 2, win := 0, cnt := 7 })], words := [(3, { ({} : JackWord) with w0 := 0x88000000 })] }, clk := { rn.clk with b := { rn.clk.b with gated := true } } }

/-- A small state for the witnesses below. -/
def st77 : State := { rn with jack := { rn.jack with run := [(3, { ({} : JackRun) with present := true, cls := 2, win := 0, cnt := 7 })], words := [(3, { ({} : JackWord) with w0 := 0x88000000 })] }, sense := { rn.sense with urgent := true } }

/-- A small state for the witnesses below. -/
def st78 : State := { rn with jack := { rn.jack with run := [(3, { ({} : JackRun) with present := true, cls := 3, pressed := true, win := 4, cnt := 7 })], words := [(3, { ({} : JackWord) with w0 := 0x88000000 })] }, clk := { rn.clk with b := { rn.clk.b with gated := true } } }

/-- A small state for the witnesses below. -/
def st79 : State := { rn with jack := { rn.jack with run := [(3, { ({} : JackRun) with present := true, cls := 3, win := 0, cnt := 7 })], words := [(3, { ({} : JackWord) with w0 := 0x88000000 })] }, clk := { rn.clk with b := { rn.clk.b with gated := true } } }

/-- A small state for the witnesses below. -/
def st80 : State := { rn with jack := { rn.jack with run := [(3, { ({} : JackRun) with present := true, cls := 3, win := 0, cnt := 8 })], words := [(3, { ({} : JackWord) with w0 := 0x88000000 })] }, clk := { rn.clk with b := { rn.clk.b with gated := true } } }

/-- A small state for the witnesses below. -/
def st81 : State := { rn with panic := { rn.panic with cfg := 0x80000000 }, outs := { rn.outs with dacs := [(3, { ({} : Dac) with phase := .playing, g := .one, clamp := false })] } }

/-- A small state for the witnesses below. -/
def st82 : State := { rn with panic := { rn.panic with cfg := 0x80000000 }, jack := { rn.jack with run := [(1, { ({} : JackRun) with step := .tip })] }, power := { rn.power with entry := some ⟨stRest, 5, 5, true, [], 7⟩ }, outs := { rn.outs with dacs := [(3, { ({} : Dac) with phase := .playing, g := .one, clamp := false })] } }

/-- A small state for the witnesses below. -/
def st83 : State := { rn with panic := { rn.panic with cfg := 0x80000000 }, power := { rn.power with iovddA := false } }

/-- A small state for the witnesses below. -/
def st84 : State := { rn with jack := { rn.jack with run := [(1, { ({} : JackRun) with step := .tip })] } }

/-- A small state for the witnesses below. -/
def st85 : State := { rn with outs := { rn.outs with dacs := [(3, { ({} : Dac) with phase := .playing, g := .one, clamp := false })] } }

/-- A small state for the witnesses below. -/
def st86 : State := { rn with panic := { rn.panic with latch := true } }

/-- A small state for the witnesses below. -/
def st87 : State := { rn with panic := { rn.panic with latch := true, level := true } }

/-- A small state for the witnesses below. -/
def st88 : State := { rn with sense := { rn.sense with seq := [5] } }

/-- A small state for the witnesses below. -/
def st89 : State := { rn with sense := { rn.sense with urgent := true } }

/-- A small state for the witnesses below. -/
def st90 : State := { rn with sense := { rn.sense with seq := [5], edge := 1 } }

/-- A small state for the witnesses below. -/
def st91 : State := { rn with sense := { rn.sense with seq := [5], edge := 2, idx := some 0 } }

/-- A small state for the witnesses below. -/
def st92 : State := { rn with sense := { rn.sense with seq := [0x2005], edge := 2, idx := some 0 } }

/-- A small state for the witnesses below. -/
def st93 : State := { rn with sense := { rn.sense with seq := [0x2005, 0x1006], edge := 2, idx := some 0 } }

/-- A small state for the witnesses below. -/
def st94 : State := { rn with sense := { rn.sense with results := [(5, 0xFFFF0000)] } }

/-- A small state for the witnesses below. -/
def st95 : State := { rn with sense := { rn.sense with scanCh := some 22 } }

/-- A small state for the witnesses below. -/
def st96 : State := { rn with sense := { rn.sense with scanMask := 0x400000, scanCh := some 22 } }

/-- A small state for the witnesses below. -/
def st97 : State := { rn with sets := { rn.sets with bankB := { ({} : ConfigSet) with flows := [(200, ⟨0x20000006, 0x00330000, 0, 0⟩)] } } }

/-- A small state for the witnesses below. -/
def st98 : State := { rn with sets := { rn.sets with bankA := { ({} : ConfigSet) with flows := [(3, ⟨0x30000007, 0x00330000, 0, 0⟩)] } }, flows := [(3, { ({} : FlowRun) with running := true, fifo := [⟨7, 2⟩], seq := 2 ^ 64 - 1 })] }

/-- A small state for the witnesses below. -/
def st99 : State := { rn with sets := { rn.sets with bankA := { ({} : ConfigSet) with flows := [(3, ⟨0x10000007, 0x00330000, 0, 0⟩)] } }, flows := [(3, { ({} : FlowRun) with running := true })] }

/-- A small state for the witnesses below. -/
def st100 : State := { rn with sets := { rn.sets with bankA := { ({} : ConfigSet) with flows := [(203, ⟨0x60000007, 0x00330000, 0, 0⟩)] } }, flows := [(203, { ({} : FlowRun) with running := true })] }

/-- A small state for the witnesses below. -/
def st101 : State := { rn with sets := { rn.sets with bankA := { ({} : ConfigSet) with flows := [(3, ⟨0x30000007, 0x00330000, 0, 0⟩)] } }, flows := [(3, { ({} : FlowRun) with running := true, fifo := [⟨7, 2⟩] })], mem := { rn.mem with upsets := [.context 3 .data] } }

/-- A small state for the witnesses below. -/
def st102 : State := { rn with sets := { rn.sets with bankA := { ({} : ConfigSet) with flows := [(3, ⟨0x30000007, 0x00330000, 0, 0⟩)] } }, flows := [(3, { ({} : FlowRun) with running := true, fifo := [⟨7, 2⟩], startLeft := 2 })] }

/-- A small state for the witnesses below. -/
def st103 : State := { rn with sets := { rn.sets with bankA := { ({} : ConfigSet) with flows := [(3, ⟨0x10050007, 0x00330000, 0, 0⟩)] } }, flows := [(3, { ({} : FlowRun) with running := true, startLeft := 2 })] }

/-- A small state for the witnesses below. -/
def st104 : State := { rn with sets := { rn.sets with bankA := { ({} : ConfigSet) with flows := [(3, ⟨0x30000007, 0x00330000, 0, 0⟩)] } }, flows := [(3, { ({} : FlowRun) with running := true, fifo := [⟨7, 2⟩], fifoCut := true })] }

/-- A small state for the witnesses below. -/
def st105 : State := { rn with sets := { rn.sets with bankA := { ({} : ConfigSet) with flows := [(3, ⟨0x40000007, 0x00330000, 0, 0⟩)] } }, flows := [(3, { ({} : FlowRun) with running := true, fifo := [⟨7, 2⟩, ⟨8, 0⟩] })] }

/-- A small state for the witnesses below. -/
def st106 : State := { rn with sets := { rn.sets with bankA := { ({} : ConfigSet) with flows := [(3, ⟨0x30000007, 0x00330000, 0, 0⟩)] } }, flows := [(3, { ({} : FlowRun) with running := true, fifo := [⟨7, 2⟩], delay := [⟨4, 2⟩] })] }

/-- A small state for the witnesses below. -/
def st107 : State := { rn with sets := { rn.sets with bankA := { ({} : ConfigSet) with flows := [(3, ⟨0x30000007, 0x00330000, 0, 0⟩)] } }, flows := [(3, { ({} : FlowRun) with running := true, last := some ⟨9, 2⟩, slips := 15 })] }

/-- A small state for the witnesses below. -/
def st108 : State := { rn with sets := { rn.sets with bankA := { ({} : ConfigSet) with flows := [(3, ⟨0x40000007, 0x02330000, 0, 0⟩)] } }, flows := [(3, { ({} : FlowRun) with running := true, last := some ⟨9, 2⟩, stopped := true })] }

/-- A small state for the witnesses below. -/
def st109 : State := { rn with sets := { rn.sets with bankA := { ({} : ConfigSet) with flows := [(3, ⟨0x10050007, 0x00330000, 0, 0⟩)] } }, flows := [(3, { ({} : FlowRun) with running := true })], fe := { rn.fe with chans := [(5, { ({} : Chan) with run := .running })] } }

/-- A small state for the witnesses below. -/
def st110 : State := { rn with sets := { rn.sets with bankA := { ({} : ConfigSet) with flows := [(3, ⟨0x50030007, 0x00330000, 0, 0⟩)] } }, flows := [(3, { ({} : FlowRun) with running := true })], ports := { rn.ports with mics := [(3, { ({} : PdmMic) with out := ⟨77, 2⟩ })] } }

/-- A small state for the witnesses below. -/
def st111 : State := { rn with sets := { rn.sets with bankA := { ({} : ConfigSet) with flows := [(3, ⟨0x50030007, 0x00330000, 0, 0⟩)] } }, flows := [(3, { ({} : FlowRun) with running := true })], ports := { rn.ports with pdmRun := [(0, ⟨true, 0⟩)], mics := [(3, { ({} : PdmMic) with out := ⟨77, 2⟩ })] } }

/-- A small state for the witnesses below. -/
def st112 : State := { rn with sets := { rn.sets with bankA := { ({} : ConfigSet) with flows := [(3, ⟨0x60200007, 0x00330000, 0, 0⟩)] } }, flows := [(3, { ({} : FlowRun) with running := true, pos := 3 })], cores := { rn.cores with core := [(1, { ({} : Core) with st := .running, shown := some ⟨1, [(3, ⟨6, 2⟩)]⟩ })] } }

/-- A small state for the witnesses below. -/
def st113 : State := { rn with sets := { rn.sets with bankA := { ({} : ConfigSet) with flows := [(3, ⟨0x60200007, 0x00330000, 0, 0⟩)] } }, flows := [(3, { ({} : FlowRun) with running := true, pos := 3 })], cores := { rn.cores with core := [(1, { ({} : Core) with st := .halted })] } }

/-- A small state for the witnesses below. -/
def st114 : State := { rn with sets := { rn.sets with bankA := { ({} : ConfigSet) with flows := [(3, ⟨0x30000007, 0x02330000, 0, 0⟩)] } }, flows := [(3, { ({} : FlowRun) with running := true, hist := [⟨5, 4⟩, ⟨6, 0⟩] })] }

/-- A small state for the witnesses below. -/
def st115 : State := { rn with sets := { rn.sets with bankA := { ({} : ConfigSet) with flows := [(3, ⟨0x30000007, 0x02330000, 0, 0⟩)] } }, flows := [(3, { ({} : FlowRun) with running := true, hist := [⟨5, 4⟩, ⟨6, 0⟩] })], ports := { rn.ports with trackers := [(0, { ({} : Tracker) with outOfRange := true })] } }

/-- A small state for the witnesses below. -/
def st116 : State := { rn with sets := { rn.sets with bankA := { ({} : ConfigSet) with flows := [(3, ⟨0x30000007, 0x01330000, 0, 0⟩)] } }, flows := [(3, { ({} : FlowRun) with running := true, hist := [⟨5, 4⟩, ⟨6, 0⟩] })] }

/-- A small state for the witnesses below. -/
def st117 : State := { rn with sets := { rn.sets with bankA := { ({} : ConfigSet) with flows := [(130, ⟨0x30000107, 0x00330000, 0, 0⟩)] } }, flows := [(130, { ({} : FlowRun) with running := true })], mtx := { rn.mtx with laneIn := [(7, ⟨9, 1⟩)], lanePos := [(7, 3)] } }

/-- A small state for the witnesses below. -/
def st118 : State := { rn with sets := { rn.sets with bankA := { ({} : ConfigSet) with flows := [(130, ⟨0x40000007, 0x00330000, 0, 0⟩)] } }, flows := [(130, { ({} : FlowRun) with running := true })], mtx := { rn.mtx with laneIn := [(7, ⟨9, 1⟩)], lanePos := [(7, 3)] } }

/-- A small state for the witnesses below. -/
def st119 : State := { rn with sets := { rn.sets with bankA := { ({} : ConfigSet) with flows := [(130, ⟨0x20030107, 0x00330000, 0, 0⟩)] } }, flows := [(130, { ({} : FlowRun) with running := true })], mtx := { rn.mtx with laneIn := [(7, ⟨9, 1⟩)], lanePos := [(7, 3)] }, outs := { rn.outs with dacs := [(3, { ({} : Dac) with stopped := false })] } }

/-- A small state for the witnesses below. -/
def st120 : State := { rn with sets := { rn.sets with bankA := { ({} : ConfigSet) with flows := [(130, ⟨0x30000107, 0x00330000, 0, 0⟩)] } }, flows := [(130, { ({} : FlowRun) with running := true })], panic := { rn.panic with latch := true, cfg := 0x80000100 }, mtx := { rn.mtx with laneIn := [(7, ⟨9, 1⟩)], lanePos := [(7, 17)] } }

/-- A small state for the witnesses below. -/
def st121 : State := { rn with sets := { rn.sets with bankA := { ({} : ConfigSet) with flows := [(130, ⟨0x30000007, 0x00330000, 0, 0⟩)] } }, flows := [(130, { ({} : FlowRun) with running := true })], panic := { rn.panic with latch := true, cfg := 0x80000100 }, mtx := { rn.mtx with laneIn := [(7, ⟨9, 1⟩)], lanePos := [(135, 16)] } }

/-- A small state for the witnesses below. -/
def st122 : State := { rn with sets := { rn.sets with bankA := { ({} : ConfigSet) with flows := [(130, ⟨0x20030107, 0x00330000, 0, 0⟩)] } }, flows := [(130, { ({} : FlowRun) with running := true, fifo := [⟨1, 0⟩] })] }

/-- A small state for the witnesses below. -/
def st123 : State := { rn with sets := { rn.sets with bankA := { ({} : ConfigSet) with flows := [(130, ⟨0x30000107, 0x02330000, 0, 0⟩)] } }, flows := [(130, { ({} : FlowRun) with running := true, hist := [⟨1, 2⟩], ahead := [⟨3, 2⟩], asrcPhase := 47000, asrcReads := 1, begun := true })], mtx := { rn.mtx with laneIn := [(7, ⟨9, 1⟩)], lanePos := [(7, 3)] } }

/-- A small state for the witnesses below. -/
def st124 : State := { rn with sets := { rn.sets with bankA := { ({} : ConfigSet) with flows := [(130, ⟨0x30000107, 0x02330000, 0, 0⟩)] } }, flows := [(130, { ({} : FlowRun) with running := true })], mtx := { rn.mtx with laneIn := [(7, ⟨9, 1⟩)], lanePos := [(7, 3)] }, ports := { rn.ports with trackers := [(0, { ({} : Tracker) with outOfRange := true })] } }

/-- A small state for the witnesses below. -/
def st125 : State := { rn with sets := { rn.sets with bankA := { ({} : ConfigSet) with flows := [(130, ⟨0x30000107, 0x02330000, 0, 0⟩)] } }, flows := [(130, { ({} : FlowRun) with running := true, asrcReads := 3 })], mtx := { rn.mtx with laneIn := [(7, ⟨9, 1⟩)], lanePos := [(7, 3)] }, ports := { rn.ports with tdm := [(0, { ({} : TdmPort) with cfg := 0x8033D000, st := .running })], trackers := [(0, { ({} : Tracker) with locked := true })] } }

/-- A small state for the witnesses below. -/
def st126 : State := { rn with sets := { rn.sets with bankA := { ({} : ConfigSet) with flows := [(130, ⟨0x20030107, 0x01340000, 0, 0⟩)] } }, flows := [(130, { ({} : FlowRun) with running := true, asrcPhase := 40000, hist := [⟨1, 2⟩] })], mtx := { rn.mtx with laneIn := [(7, ⟨9, 1⟩)], lanePos := [(7, 3)] }, outs := { rn.outs with dacs := [(3, { ({} : Dac) with stopped := false })] } }

/-- A small state for the witnesses below. -/
def st127 : State := { rn with sets := { rn.sets with bankA := { ({} : ConfigSet) with flows := [(130, ⟨0x30000107, 0x00330000, 0, 0⟩)] } }, flows := [(130, { ({} : FlowRun) with running := true, fifo := [⟨3, 2⟩, ⟨4, 0⟩], fifoCut := true })] }

/-- A small state for the witnesses below. -/
def st128 : State := { rn with sets := { rn.sets with bankA := { ({} : ConfigSet) with flows := [(130, ⟨0x30000107, 0x01330000, 0, 0⟩)] } }, flows := [(130, { ({} : FlowRun) with running := true, ahead := [⟨3, 2⟩, ⟨4, 0⟩], fifoCut := true })] }

/-- A small state for the witnesses below. -/
def st129 : State := { rn with sets := { rn.sets with bankA := { ({} : ConfigSet) with flows := [(130, ⟨0x30000107, 0x01330000, 0, 0⟩)] } }, flows := [(130, { ({} : FlowRun) with running := true, last := some ⟨3, 2⟩, slips := 15 })] }

/-- A small state for the witnesses below. -/
def st130 : State := { rn with sets := { rn.sets with bankA := { ({} : ConfigSet) with flows := [(130, ⟨0x30000107, 0x01330000, 0, 0⟩)] } }, flows := [(130, { ({} : FlowRun) with running := true, last := some ⟨3, 2⟩, slips := 3, fifoCut := true })] }

/-- A small state for the witnesses below. -/
def st131 : State := { rn with sets := { rn.sets with bankA := { ({} : ConfigSet) with flows := [(130, ⟨0x30000107, 0x01330000, 0, 0⟩)] } }, flows := [(130, { ({} : FlowRun) with running := true })] }

/-- A small state for the witnesses below. -/
def st132 : State := { rn with sets := { rn.sets with bankA := { ({} : ConfigSet) with flows := [(130, ⟨0x30000107, 0x01330000, 0, 0⟩)] } }, flows := [(130, { ({} : FlowRun) with running := true, fifoCut := true })] }

/-- A small state for the witnesses below. -/
def st133 : State := { rn with sets := { rn.sets with bankA := { ({} : ConfigSet) with flows := [(130, ⟨0x60210107, 0x00330000, 0, 0⟩)] } }, flows := [(130, { ({} : FlowRun) with running := true, pos := 14 })], mtx := { rn.mtx with laneIn := [(7, ⟨9, 1⟩)], lanePos := [(7, 3)] } }

/-- A small state for the witnesses below. -/
def st134 : State := { rn with ports := { rn.ports with tdm := [(3, { ({} : TdmPort) with cfg := 0xC033D000, st := .acquiring })] } }

/-- A small state for the witnesses below. -/
def st135 : State := { rn with ports := { rn.ports with tdm := [(3, { ({} : TdmPort) with cfg := 0x8033D000, st := .running, frameErrs := 255 })] } }

/-- A small state for the witnesses below. -/
def st136 : State := { rn with ports := { rn.ports with tdm := [(3, { ({} : TdmPort) with cfg := 0x8033D000, st := .acquiring, good := 1 })] } }

/-- A small state for the witnesses below. -/
def st137 : State := { rn with ports := { rn.ports with tdm := [(3, { ({} : TdmPort) with cfg := 0x8033D000, st := .stopped })] } }

/-- A small state for the witnesses below. -/
def st138 : State := { rn with ports := { rn.ports with tdm := [(3, { ({} : TdmPort) with cfg := 0x8033D000, st := .running, good := 2 })] } }

/-- A small state for the witnesses below. -/
def st139 : State := { rn with ports := { rn.ports with tdm := [(3, { ({} : TdmPort) with cfg := 0xC033D000, st := .running })] } }

/-- A small state for the witnesses below. -/
def st140 : State := { rn with sets := { rn.sets with bankA := { ({} : ConfigSet) with flows := [(1, ⟨0x30610007, 0x00330000, 0, 0⟩)] } }, flows := [(1, { ({} : FlowRun) with running := true })], ports := { rn.ports with tdm := [(3, { ({} : TdmPort) with cfg := 0x8033D000, st := .running })] } }

/-- A small state for the witnesses below. -/
def st141 : State := { rn with sets := { rn.sets with bankA := { ({} : ConfigSet) with flows := [(129, ⟨0x30610007, 0x00330000, 0, 0⟩)] } }, flows := [(129, { ({} : FlowRun) with running := true, fifo := [⟨0x12345678, 0⟩] })], ports := { rn.ports with tdm := [(3, { ({} : TdmPort) with cfg := 0x8033D000, st := .running })] } }

/-- A small state for the witnesses below. -/
def st142 : State := { rn with ports := { rn.ports with tdm := [(3, { ({} : TdmPort) with cfg := 0x8133D000, st := .running })] } }

/-- A small state for the witnesses below. -/
def st143 : State := { rn with ports := { rn.ports with aesRx := [(1, { ({} : AesRx) with st := .acquiring })] } }

/-- A small state for the witnesses below. -/
def st144 : State := { rn with sets := { rn.sets with bankA := { ({} : ConfigSet) with flows := [(1, ⟨0x40030007, 0x00330000, 0, 0⟩)] } }, flows := [(1, { ({} : FlowRun) with running := true })], ports := { rn.ports with aesRx := [(1, { ({} : AesRx) with st := .locked, rate := 3, lockLosses := 15 })] } }

/-- A small state for the witnesses below. -/
def st145 : State := { rn with sets := { rn.sets with bankA := { ({} : ConfigSet) with flows := [(1, ⟨0x40030007, 0x00330000, 0, 0⟩)] } }, flows := [(1, { ({} : FlowRun) with running := true })], ports := { rn.ports with aesCfg := [(1, 0x80000100)], aesRx := [(1, { ({} : AesRx) with st := .locked, rate := 3 })] } }

/-- A small state for the witnesses below. -/
def st146 : State := { rn with ports := { rn.ports with aesRx := [(1, { ({} : AesRx) with st := .locked })] } }

/-- A small state for the witnesses below. -/
def st147 : State := { rn with ports := { rn.ports with aesRx := [(1, { ({} : AesRx) with st := .locked, blkA := some [1, 2, 3, 4, 5, 6] })] } }

/-- A small state for the witnesses below. -/
def st148 : State := { rn with ports := { rn.ports with aesCfg := [(3, 0x80200000)], aesTx := [(1, { ({} : AesTx) with newA := [1, 2, 3, 4, 5, 6] })] } }

/-- A small state for the witnesses below. -/
def st149 : State := { rn with ports := { rn.ports with pdmRun := [(1, ⟨true, 0⟩)] } }

/-- A small state for the witnesses below. -/
def st150 : State := { rn with ports := { rn.ports with pdmCfg := [(1, 0x80202000)] } }

/-- A small state for the witnesses below. -/
def st151 : State := { rn with sets := { rn.sets with bankA := { ({} : ConfigSet) with flows := [(1, ⟨0x30610007, 0x02330000, 0, 0⟩)] } }, flows := [(1, { ({} : FlowRun) with running := true })], ports := { rn.ports with tdm := [(3, { ({} : TdmPort) with cfg := 0x8033D000, st := .running })] } }

/-- A small state for the witnesses below. -/
def st152 : State := { rn with ports := { rn.ports with trackers := [(3, { ({} : Tracker) with locked := true })] } }

/-- A small state for the witnesses below. -/
def st153 : State := { rn with cores := { core := [(1, { ({} : Core) with st := .running, regs := { ({} : Regs) with g := [(1, ⟨0x7FFFFFFF, 4⟩), (2, ⟨0x80000000, 3⟩), (3, ⟨5, 10⟩)], a := [(1, ⟨0xFFFFFFFFFFFFFFFFFB, 5⟩), (2, ⟨0x100000000000000000, 2⟩)], p := [(1, true)], pc := 7, loops := [⟨6, 7, 3, 1⟩], calls := [40] }, input := [(32, ⟨9, 3⟩)] })], slots := [(2, { ({} : Slot) with loaded := true, pages := [5, 9] })] }, sets := { rn.sets with bankA := { ({} : ConfigSet) with coreBind := [(1, ⟨0x80000000, 2, 2⟩)] } } }

/-- A small state for the witnesses below. -/
def st154 : State := { rn with cp := { rn.cp with regs := { ({} : Regs) with g := [(1, ⟨0x7FFFFFFF, 4⟩), (2, ⟨0x80000000, 3⟩), (3, ⟨5, 10⟩)], a := [(1, ⟨0xFFFFFFFFFFFFFFFFFB, 5⟩), (2, ⟨0x100000000000000000, 2⟩)], p := [(1, true)], pc := 7, loops := [⟨6, 7, 3, 1⟩], calls := [40] } } }

/-- A small state for the witnesses below. -/
def st155 : State := { rn with cores := { core := [(1, { ({} : Core) with st := .running, regs := { ({} : Regs) with g := [(1, ⟨0x7FFFFFFF, 4⟩), (2, ⟨0x80000000, 3⟩), (3, ⟨5, 10⟩)], a := [(1, ⟨0xFFFFFFFFFFFFFFFFFB, 5⟩), (2, ⟨0x100000000000000000, 2⟩)], p := [(1, true)], pc := 7, loops := [⟨6, 7, 3, 1⟩], calls := [40] } })], slots := [] } }

/-- A small state for the witnesses below. -/
def st156 : State := { rn with cores := { core := [(1, { ({} : Core) with st := .running, regs := { ({} : Regs) with g := [(1, ⟨0x7FFFFFFF, 4⟩), (2, ⟨0x80000000, 3⟩), (3, ⟨5, 10⟩)], a := [(1, ⟨0xFFFFFFFFFFFFFFFFFB, 5⟩), (2, ⟨0x100000000000000000, 2⟩)], p := [(1, true)], pc := 7, loops := [⟨6, 7, 3, 1⟩], calls := [40] }, input := [(32, ⟨9, 3⟩)] })], slots := [(2, { ({} : Slot) with loaded := true, pages := [5, 9] })] }, sets := { rn.sets with bankA := { ({} : ConfigSet) with coreBind := [(1, ⟨0x80000000, 2, 2⟩)] } } , clk := { rn.clk with b := { rn.clk.b with st := .acquiring } } }

/-- A small state for the witnesses below. -/
def st157 : State := { rn with cores := { core := [(1, { ({} : Core) with st := .running, regs := { ({} : Regs) with g := [(1, ⟨0x7FFFFFFF, 4⟩), (2, ⟨0x80000000, 3⟩), (3, ⟨5, 10⟩)], a := [(1, ⟨0xFFFFFFFFFFFFFFFFFB, 5⟩), (2, ⟨0x100000000000000000, 2⟩)], p := [(1, true)], pc := 7, loops := [⟨6, 7, 3, 1⟩], calls := [40] }, input := [(32, ⟨9, 3⟩)] })], slots := [(2, { ({} : Slot) with loaded := true, pages := [5, 9] })] }, sets := { rn.sets with bankA := { ({} : ConfigSet) with coreBind := [(1, ⟨0x80000000, 32, 2⟩)] } } }

/-- A small state for the witnesses below. -/
def st158 : State := { rn with cores := { core := [(1, { ({} : Core) with st := .running, regs := { ({} : Regs) with g := [(1, ⟨0x7FFFFFFF, 4⟩), (2, ⟨0x80000000, 3⟩), (3, ⟨5, 10⟩)], a := [(1, ⟨0xFFFFFFFFFFFFFFFFFB, 5⟩), (2, ⟨0x100000000000000000, 2⟩)], p := [(1, true)], pc := 7, loops := [⟨6, 7, 3, 1⟩], calls := [40] }, input := [(32, ⟨9, 3⟩)] })], slots := [(2, { ({} : Slot) with loaded := true, pages := [5, 9] })] }, sets := { rn.sets with bankA := { ({} : ConfigSet) with coreBind := [(1, ⟨0x80000000, 2, 32⟩)] } } }

/-- A small state for the witnesses below. -/
def st159 : State := { rn with cores := { core := [(1, { ({} : Core) with st := .running, regs := { ({} : Regs) with g := [(1, ⟨0x7FFFFFFF, 4⟩), (2, ⟨0x80000000, 3⟩), (3, ⟨5, 10⟩)], a := [(1, ⟨0xFFFFFFFFFFFFFFFFFB, 5⟩), (2, ⟨0x100000000000000000, 2⟩)], p := [(1, true)], pc := 7, loops := [⟨1, 2, 3, 4⟩, ⟨6, 7, 3, 1⟩], calls := [1, 2, 3, 4, 5, 40] }, input := [(32, ⟨9, 3⟩)] })], slots := [(2, { ({} : Slot) with loaded := true, pages := [5, 9] })] }, sets := { rn.sets with bankA := { ({} : ConfigSet) with coreBind := [(1, ⟨0x80000000, 2, 2⟩)] } } }

/-- A small state for the witnesses below. -/
def st160 : State := { rn with cp := { rn.cp with regs := { ({} : Regs) with g := [(1, ⟨0x7FFFFFFF, 4⟩), (2, ⟨0x80000000, 3⟩), (3, ⟨5, 10⟩)], a := [(1, ⟨0xFFFFFFFFFFFFFFFFFB, 5⟩), (2, ⟨0x100000000000000000, 2⟩)], p := [(1, true)], pc := 7, loops := [⟨1, 2, 3, 4⟩, ⟨6, 7, 3, 1⟩], calls := [1, 2, 3, 4, 5, 6, 7, 8, 9, 10, 11, 12, 13, 14, 15, 40] } } }

/-- A small state for the witnesses below. -/
def st161 : State := { rn with mem := ((({} : Memory).setWords (aStaging + 32) 0 [1]).setWords (aStaging + 40) 0 [48, 4, 0, 0xA1]).setWords (aStaging + 256) 0 [2, 1, 70, 0, 0, 0, 0, 0, 0, 0, 0, 0x88000000, 0x1234], sec := { rn.sec with verified := true } }

/-- A small state for the witnesses below. -/
def st162 : State := { rn with mem := ({} : Memory).setWord (aPram 3 + 0x10000) 9 2 }

/-- A small state for the witnesses below. -/
def st163 : State := { rn with cores := { core := [(1, { ({} : Core) with st := .running, held := [⟨5, 0, true, false, [], [(16, ⟨1, 1⟩)], []⟩], cutNext := true })], slots := [(2, { ({} : Slot) with loaded := true, pages := [3] })] }, sets := { rn.sets with bankA := { ({} : ConfigSet) with coreBind := [(1, ⟨0x84300000, 2, 2⟩)] } } }

/-- A small state for the witnesses below. -/
def st164 : State := { rn with cores := { core := [(1, { ({} : Core) with st := .running, fallbacks := 255, stale := [⟨0, [(16, ⟨4, 0⟩)]⟩] })], slots := [(2, { ({} : Slot) with loaded := true, pages := [3] })] }, sets := { rn.sets with bankA := { ({} : ConfigSet) with coreBind := [(1, ⟨0x84300000, 2, 2⟩)] } } }

/-- A small state for the witnesses below. -/
def st165 : State := { rn with cores := { core := [(1, { ({} : Core) with st := .running, clearing := true })], slots := [(2, { ({} : Slot) with loaded := true, pages := [3] })] }, sets := { rn.sets with bankA := { ({} : ConfigSet) with coreBind := [(1, ⟨0x84300000, 2, 2⟩)] } }, mem := (({} : Memory).setWord (aPram 1 + 0x10000) 9 2).setWord (aCore + 3 * 4096) 9 2 }

/-- A small state for the witnesses below. -/
def st166 : State := { rn with cores := { core := [(1, { ({} : Core) with st := .running, held := [⟨5, 0, true, false, [], [(16, ⟨1, 1⟩)], []⟩] })], slots := [(2, { ({} : Slot) with loaded := true, pages := [3] })] }, sets := { rn.sets with bankA := { ({} : ConfigSet) with coreBind := [(1, ⟨0x84300000, 2, 2⟩)] } } }

/-- A small state for the witnesses below. -/
def st167 : State := { rn with sets := { rn.sets with bankA := { ({} : ConfigSet) with coreBind := [(1, ⟨0x84300000, 2, 2⟩)] } }, mem := ({} : Memory).setWords (aPram 1) 0 [2, 1, 70, 0, 0, 0, 0, 0, 0, 0, 0, 0x88000000], cores := { core := [(1, { ({} : Core) with st := .running, inputs := [[(16, ⟨7, 2⟩)]], frameNo := 4 })], slots := [(2, { ({} : Slot) with loaded := true, cycles := 65, bundles := 3 })] } }

/-- A small state for the witnesses below. -/
def st168 : State := (runBundles 1 0 65 [] 64 (onCore 1 (fun c => { c with regs := entryRegs c.frameNo 0 c.first (c.cutIn || cutOn ⟨0x84300000, 2, 2⟩ [(16, ⟨7, 2⟩)]) 2, input := [(16, ⟨7, 2⟩)], out := [], undo := [], lastErr := [] }) ({ rn with sets := { rn.sets with bankA := { ({} : ConfigSet) with coreBind := [(1, ⟨0x84300000, 2, 2⟩)] } }, mem := ({} : Memory).setWords (aPram 1) 0 [2, 1, 70, 0, 0, 0, 0, 0, 0, 0, 0, 0x88000000], cores := { core := [(1, { ({} : Core) with st := .running, inputs := [[(16, ⟨7, 2⟩)]], frameNo := 4 })], slots := [(2, { ({} : Slot) with loaded := true, cycles := 65, bundles := 3 })] } }))).1

/-- A small state for the witnesses below. -/
def st169 : State := { rn with cp := { ({} : CpState) with regs := { ({} : Regs) with g := [(1, ⟨0x10000002, 4⟩), (2, ⟨0x00080003, 3⟩), (3, ⟨0x80000000, 6⟩), (4, ⟨0x20200000, 3⟩)], pc := 7 } }, mem := ({} : Memory).setWord 0x10000004 0x89ABCDEF 3 }

/-- A small state for the witnesses below. -/
def st170 : State := { rn with cp := { ({} : CpState) with regs := { ({} : Regs) with g := [(1, ⟨0x10000002, 4⟩), (2, ⟨0x00080003, 3⟩), (3, ⟨0x80000000, 6⟩), (4, ⟨0x20200000, 3⟩)], pc := 7 } }, mem := ({} : Memory).setWord 0x00080004 0x89ABCDEF 0 }

/-- A small state for the witnesses below. -/
def st171 : State := { rn with cp := { ({} : CpState) with regs := { ({} : Regs) with g := [(1, ⟨0x10000002, 4⟩), (2, ⟨0x00080003, 3⟩), (3, ⟨0x80000000, 6⟩), (4, ⟨0x20200000, 3⟩)], pc := 7 } } }

/-- A small state for the witnesses below. -/
def st172 : State := { rn with cp := { ({} : CpState) with regs := { ({} : Regs) with g := [(1, ⟨0x10000002, 4⟩), (2, ⟨0x00080003, 3⟩), (3, ⟨0x80000000, 6⟩), (4, ⟨0x20200000, 3⟩)], pc := 7 }, lockLost := true } }

/-- A small state for the witnesses below. -/
def st173 : State := { rn with cp := { ({} : CpState) with regs := { ({} : Regs) with g := [(1, ⟨0x00000010, 4⟩), (3, ⟨0x80000000, 6⟩)], pc := 7 } } }

/-- A small state for the witnesses below. -/
def st174 : State := { rn with cp := { ({} : CpState) with regs := { ({} : Regs) with g := [(1, ⟨0x34030004, 4⟩), (3, ⟨0x80000000, 6⟩)], pc := 7 } } }

/-- A small state for the witnesses below. -/
def st175 : State := { rn with cp := { ({} : CpState) with regs := { ({} : Regs) with g := [(1, ⟨0x38004014, 4⟩), (3, ⟨0x80000000, 6⟩)], pc := 7 } }, sets := { rn.sets with bankB := { ({} : ConfigSet) with flows := [(1, ⟨1, 2, 3, 4⟩)] } } }

/-- A small state for the witnesses below. -/
def st176 : State := { rn with cp := { ({} : CpState) with regs := { ({} : Regs) with g := [(1, ⟨0x38002004, 4⟩), (3, ⟨0x80000000, 6⟩)], pc := 7 } } }

/-- A small state for the witnesses below. -/
def st177 : State := { rn with cp := { ({} : CpState) with regs := { ({} : Regs) with g := [(1, ⟨0x60000000, 4⟩), (3, ⟨0x80000000, 6⟩)], pc := 7 } } }

/-- A small state for the witnesses below. -/
def st178 : State := { rn with cp := { ({} : CpState) with regs := { ({} : Regs) with g := [(1, ⟨0x40000000, 4⟩), (3, ⟨0x80000000, 6⟩)], pc := 7 } }, mem := { rn.mem with remap := true } }

/-- A small state for the witnesses below. -/
def st179 : State := { rn with cp := { ({} : CpState) with regs := { ({} : Regs) with g := [(1, ⟨0x40001008, 4⟩), (3, ⟨0x80000000, 6⟩)], pc := 7 } } }

/-- A small state for the witnesses below. -/
def st180 : State := { rn with cp := { ({} : CpState) with regs := { ({} : Regs) with g := [(1, ⟨0x40002090, 4⟩), (3, ⟨0x80000000, 6⟩)], pc := 7 } } }

/-- A small state for the witnesses below. -/
def st181 : State := { rn with cp := { ({} : CpState) with regs := { ({} : Regs) with g := [(1, ⟨0x40002098, 4⟩), (3, ⟨0x80000000, 6⟩)], pc := 7 } }, filt := { rn.filt with capture := [(9, some ⟨1, 2, 3, 4⟩)] } }

/-- A small state for the witnesses below. -/
def st182 : State := { rn with cp := { ({} : CpState) with regs := { ({} : Regs) with g := [(1, ⟨0x40003008, 4⟩), (3, ⟨0x80000000, 6⟩)], pc := 7 } }, mem := { rn.mem with peri := [(0x10000C02, 5)] } }

/-- A small state for the witnesses below. -/
def st183 : State := { rn with cp := { ({} : CpState) with regs := { ({} : Regs) with g := [(1, ⟨0x40003008, 4⟩), (3, ⟨0x80000000, 6⟩)], pc := 7 } } }

/-- A small state for the witnesses below. -/
def st184 : State := { rn with cp := { ({} : CpState) with regs := { ({} : Regs) with g := [(1, ⟨0x40001108, 4⟩), (3, ⟨0x80000000, 6⟩)], pc := 7 } } }

/-- A small state for the witnesses below. -/
def st185 : State := { rn with cp := { ({} : CpState) with regs := { ({} : Regs) with g := [(1, ⟨0x10000002, 4⟩), (2, ⟨0x00080003, 3⟩), (3, ⟨0x80000000, 6⟩), (4, ⟨0x20200000, 3⟩)], pc := 65543 } }, mem := (({} : Memory).setWord 0x10000004 0x89ABCDEF 3).setWords 0x00080038 0 [0x50028401, 0x01030860] }

/-- A small state for the witnesses below. -/
def st186 : State := { rn with cp := { ({} : CpState) with regs := { ({} : Regs) with g := [(1, ⟨0x10000002, 4⟩), (2, ⟨0x00080003, 3⟩), (3, ⟨0x80000000, 6⟩), (4, ⟨0x20200000, 3⟩)], pc := 7 } }, clk := { rn.clk with b := { rn.clk.b with st := .acquiring } } }

/-- A small state for the witnesses below. -/
def st187 : State := { rn with cp := { ({} : CpState) with regs := { ({} : Regs) with g := [(1, ⟨0x10000002, 4⟩), (2, ⟨0x00080003, 3⟩), (3, ⟨0x80000000, 6⟩), (4, ⟨0x20200000, 3⟩)], pc := 7 }, lock := some ⟨1, 0x80004, 5, none⟩ } }

/-- A small state for the witnesses below. -/
def st188 : State := { rn with power := { rn.power with wdt := 0xC0000008 } }

/-- A small state for the witnesses below. -/
def st189 : State := { rn with sets := { rn.sets with bankA := { ({} : ConfigSet) with nodes := [(5, 7)] }, bankB := { ({} : ConfigSet) with nodes := [(6, 9)] }, epoch := 65535 } }

/-- A small state for the witnesses below. -/
def st190 : State := { rn with sets := { rn.sets with swap := some ⟨false, false, true, 5⟩ } }

/-- A small state for the witnesses below. -/
def st191 : State := { rn with sets := { rn.sets with bankA := { ({} : ConfigSet) with nodes := [(5, 7)] }, bankB := { ({} : ConfigSet) with nodes := [(6, 9)] }, epoch := 65535, swap := some ⟨false, true, false, 5⟩ } }

/-- A small state for the witnesses below. -/
def st192 : State := { rn with sets := { rn.sets with bankA := { ({} : ConfigSet) with nodes := [(5, 7)] }, bankB := { ({} : ConfigSet) with nodes := [(6, 9)] }, copying := true } }

/-- A small state for the witnesses below. -/
def st193 : State := { rn with sets := { rn.sets with bankA := { ({} : ConfigSet) with nodes := [(5, 7)] }, bankB := { ({} : ConfigSet) with nodes := [(6, 9)] } } }

/-- A small state for the witnesses below. -/
def st194 : State := { rn with sets := { rn.sets with bankA := { ({} : ConfigSet) with nodes := [(5, 7)] }, bankB := { ({} : ConfigSet) with nodes := [(6, 9)] } }, mem := { rn.mem with bad := [0x34000004] } }

/-- A small state for the witnesses below. -/
def st195 : State := { rn with sets := { rn.sets with bankA := { ({} : ConfigSet) with nodes := [(5, 7)] }, bankB := { ({} : ConfigSet) with nodes := [(6, 9)] } }, mem := { rn.mem with bad := [0x38000050, 0x38000064] } }

/-- A small state for the witnesses below. -/
def st196 : State := { rn with sets := { rn.sets with bankA := { ({} : ConfigSet) with nodes := [(5, 7)] }, bankB := { ({} : ConfigSet) with nodes := [(6, 9)] }, placed := [⟨0x40, [0x6, 0x8000], some 3⟩, ⟨0x40, [5, 0], some 10⟩, ⟨0x43, [0, 0x000A0000], none⟩] } }

/-- A small state for the witnesses below. -/
def st197 : State := { rn with clk := { rn.clk with outmode := 1 } }

/-- A small state for the witnesses below. -/
def st198 : State := { rn with clk := { rn.clk with outmode := 1 }, power := { rn.power with padsHeld := true } }

/-- A small state for the witnesses below. -/
def st199 : State := { rn with clk := { rn.clk with outmode := 2, a := { rn.clk.a with gated := true } } }

/-- A small state for the witnesses below. -/
def st200 : State := { rn with sets := { rn.sets with swap := some ⟨true, false, true, 5⟩ } }

/-- A small state for the witnesses below. -/
def st201 : State := { rn with clk := { rn.clk with inmode := 2 }, mtx := { rn.mtx with lanePos := [(3, 7)] } }

/-- A small state for the witnesses below. -/
def st202 : State := { rn with clk := { rn.clk with syncReq := true, outmode := 1 }, fe := { rn.fe with chans := [(9, { ({} : Chan) with run := .running, hist := [⟨5, 0⟩] })] }, mtx := { rn.mtx with lanePos := [(3, 7)] } }

/-- A small state for the witnesses below. -/
def st203 : State := { rn with clk := { rn.clk with a := { ({ cfg := 0x800C0504 } : Pll) with st := .acquiring, good := 1 } } }

/-- A small state for the witnesses below. -/
def st204 : State := (noteWindow 0 122892 true true { rn with clk := { rn.clk with a := { ({ cfg := 0x800C0504 } : Pll) with st := .acquiring, good := 1 } } })

/-- A small state for the witnesses below. -/
def st205 : State := { rn with clk := { rn.clk with b := { ({ cfg := 0x800C0506 } : Pll) with st := .acquiring, good := 2 } } }

/-- A small state for the witnesses below. -/
def st206 : State := (noteWindow 1 122868 true true { rn with clk := { rn.clk with b := { ({ cfg := 0x800C0506 } : Pll) with st := .acquiring, good := 2 } } })

/-- A small state for the witnesses below. -/
def st207 : State := { rn with clk := { rn.clk with a := { ({ cfg := 0x800C0504 } : Pll) with st := .acquiring, good := 2 } } }

/-- A small state for the witnesses below. -/
def st208 : State := (noteWindow 0 122880 true true { rn with clk := { rn.clk with a := { ({ cfg := 0x800C0504 } : Pll) with st := .acquiring, good := 2 } } })

/-- A small state for the witnesses below. -/
def st209 : State := (noteWindow 0 122893 true false { rn with clk := { rn.clk with a := { ({ cfg := 0x800C0504 } : Pll) with st := .acquiring, good := 2 } } })

/-- A small state for the witnesses below. -/
def st210 : State := (noteWindow 0 122880 false false { rn with clk := { rn.clk with a := { ({ cfg := 0x800C0504 } : Pll) with st := .acquiring, good := 2 } } })

/-- A small state for the witnesses below. -/
def st211 : State := { rn with clk := { rn.clk with b := { ({ cfg := 0x800C0506 } : Pll) with st := .locked, bad := 1 } } }

/-- A small state for the witnesses below. -/
def st212 : State := (noteWindow 1 122892 true true { rn with clk := { rn.clk with b := { ({ cfg := 0x800C0506 } : Pll) with st := .locked, bad := 1 } } })

/-- A small state for the witnesses below. -/
def st213 : State := { rn with clk := { rn.clk with a := { ({ cfg := 0x800C0504 } : Pll) with st := .locked } } }

/-- A small state for the witnesses below. -/
def st214 : State := (noteWindow 0 122929 true false { rn with clk := { rn.clk with a := { ({ cfg := 0x800C0504 } : Pll) with st := .locked } } })

/-- A small state for the witnesses below. -/
def st215 : State := { rn with clk := { rn.clk with a := { ({ cfg := 0x800C0504 } : Pll) with st := .locked, bad := 1 } } }

/-- A small state for the witnesses below. -/
def st216 : State := (noteWindow 0 122929 true false { rn with clk := { rn.clk with a := { ({ cfg := 0x800C0504 } : Pll) with st := .locked, bad := 1 } } })

/-- A small state for the witnesses below. -/
def st217 : State := { rn with clk := { rn.clk with b := { ({ cfg := 0x800C0506 } : Pll) with st := .locked, mean := 2949120000 } } }

/-- A small state for the witnesses below. -/
def st218 : State := (noteWindow 1 122930 true false { rn with clk := { rn.clk with b := { ({ cfg := 0x800C0506 } : Pll) with st := .locked, mean := 2949120000 } } })

/-- A small state for the witnesses below. -/
def st219 : State := { rn with clk := { rn.clk with b := { ({ cfg := 0x800C0506 } : Pll) with st := .acquiring, good := 2, gated := true } } }

/-- A small state for the witnesses below. -/
def st220 : State := { rn with ports := { rn.ports with tdm := [(3, { ({} : TdmPort) with cfg := 0x8033D000, st := .running })] }, clk := { rn.clk with ref := 5 } }

/-- A small state for the witnesses below. -/
def st221 : State := { rn with ports := { rn.ports with tdm := [(3, { ({} : TdmPort) with cfg := 0x8033D000, st := .stopped })] }, clk := { rn.clk with ref := 5 } }

/-- A small state for the witnesses below. -/
def st222 : State := { rn with power := { rn.power with st := .nap } }

/-- A small state for the witnesses below. -/
def st223 : State := { rn with clk := { rn.clk with b := { ({ cfg := 0x800C0506 } : Pll) with st := .locked, gated := true, guardBad := true } } }

/-- A small state for the witnesses below. -/
def st224 : State := { rn with clk := { rn.clk with b := { ({ cfg := 0x800C0506 } : Pll) with st := .locked, gated := true } } }

/-- A small state for the witnesses below. -/
def st225 : State := { rn with clk := { rn.clk with a := { ({ cfg := 0x800C0504 } : Pll) with st := .locked, gated := true } } }

/-- A small state for the witnesses below. -/
def st226 : State := { rn with clk := { rn.clk with a := { ({ cfg := 0x800C0504 } : Pll) with st := .locked, testing := true } }, tb := { rn.tb with count := 60000000000 } }

/-- A small state for the witnesses below. -/
def st227 : State := { rn with clk := { rn.clk with b := { ({ cfg := 0x800C0506 } : Pll) with st := .locked, testing := true } }, tb := { rn.tb with count := 60000000000 } }

/-- A small state for the witnesses below. -/
def st228 : State := { rn with clk := { rn.clk with a := { ({ cfg := 0x800C0504 } : Pll) with st := .holdover } }, sets := { rn.sets with bankA := { ({} : ConfigSet) with flows := [(129, ⟨0x30610007, 0x00330000, 0, 0⟩)], outCfg := [(3, 0x80300000)], nodes := [(128 * 7 + 1, 0)] } }, flows := [(129, { ({} : FlowRun) with running := true, seq := 9, muteJ := some 3 })], outs := { rn.outs with dacs := [(3, { ({} : Dac) with phase := .playing, g := .one, clamp := false })] } }

/-- A small state for the witnesses below. -/
def st229 : State := { rn with clk := { rn.clk with restart := true }, sets := { rn.sets with bankA := { ({} : ConfigSet) with flows := [(129, ⟨0x30610007, 0x00330000, 0, 0⟩)], outCfg := [(3, 0x80300000)], nodes := [(128 * 7 + 1, 0)] } }, flows := [(129, { ({} : FlowRun) with running := true, seq := 9, muteJ := some 3 })], outs := { rn.outs with dacs := [(3, { ({} : Dac) with phase := .playing, g := .one, clamp := false })] } }

/-- A small state for the witnesses below. -/
def st230 : State := { rn with tb := { rn.tb with count := 2 ^ 64 - 1, frac := 2 ^ 32 - 1 } }

/-- A small state for the witnesses below. -/
def st231 : State := { rn with sets := { rn.sets with bankA := { ({} : ConfigSet) with flows := [(3, ⟨0x10050007, 0x01330000, 0, 0⟩)] } }, flows := [(3, { ({} : FlowRun) with running := true })], fe := { rn.fe with chans := [(5, { ({} : Chan) with run := .running })] } }

/-- A small state for the witnesses below. -/
def st232 : State := { rn with clk := { rn.clk with b := { cfg := 0x800C0506, st := .acquiring } }, fe := { rn.fe with chans := [(5, { ({} : Chan) with run := .running, dec := { ({} : Decim) with fifo := [1, 2, 3, 4, 5, 6], codes := [9] } })] } }

/-- A small state for the witnesses below. -/
def st233 : State := { rn with ports := { rn.ports with pdmCfg := [(0, 0x80202000)], pdmRun := [(0, ⟨true, 0⟩)] } }

/-- A small state for the witnesses below. -/
def st234 : State := { rn with fe := { rn.fe with chans := [(5, { ({} : Chan) with run := .running })] } }

/-- A small state for the witnesses below. -/
def st235 : State := { rn with sets := { rn.sets with bankA := { ({} : ConfigSet) with flows := [(130, ⟨0x20030107, 0x00330000, 0, 0⟩)], outCfg := [(3, 0x80300000)] } }, flows := [(130, { ({} : FlowRun) with running := true, fifo := [⟨9, 0⟩, ⟨8, 0⟩] })], outs := { rn.outs with dacs := [(3, { ({} : Dac) with stopped := false })] } }

/-- A small state for the witnesses below. -/
def st236 : State := { rn with sets := { rn.sets with bankA := { ({} : ConfigSet) with flows := [(130, ⟨0x20030107, 0x00330000, 0, 0⟩)], outCfg := [(3, 0x80300000)] } }, flows := [(130, { ({} : FlowRun) with running := true, fifo := [⟨9, 0⟩, ⟨8, 0⟩] })], outs := { rn.outs with dacs := [(3, { ({} : Dac) with stopped := false, starve := .silent })] } }

/-- A small state for the witnesses below. -/
def st237 : State := { rn with sets := { rn.sets with bankA := { ({} : ConfigSet) with flows := [(130, ⟨0x20030107, 0x00330000, 0, 0⟩)], outCfg := [(3, 0x80300000)] } }, flows := [(130, { ({} : FlowRun) with running := true, fifo := [], last := some ⟨5, 0⟩ })], outs := { rn.outs with dacs := [(3, { ({} : Dac) with stopped := false })] } }

/-- A small state for the witnesses below. -/
def st238 : State := { rn with outs := { rn.outs with dacs := [(3, { ({} : Dac) with stopped := false, g := .one })] } }

/-- A small state for the witnesses below. -/
def st239 : State := { rn with outs := { rn.outs with dacs := [(3, { ({} : Dac) with stopped := false, g := .zero })] } }

/-- A small state for the witnesses below. -/
def st240 : State := { rn with sets := { rn.sets with bankA := { ({} : ConfigSet) with flows := [(130, ⟨0x40020107, 0x00330000, 0, 0⟩)] } }, flows := [(130, { ({} : FlowRun) with running := true, fifo := [⟨9, 0⟩] })], ports := { rn.ports with aesCfg := [(3, 0x80200000)], aesTx := [(1, { ({} : AesTx) with frame := 191 })] } }

/-- A small state for the witnesses below. -/
def st241 : State := { rn with power := { rn.power with st := .rest } }

/-- A small state for the witnesses below. -/
def st242 : State := { rn with tb := { rn.tb with xt32 := true, src := .xt32 } }

/-- A small state for the witnesses below. -/
def st243 : State := { rn with power := { rn.power with xrefOk := false, onRc := true }, clk := { rn.clk with b := { cfg := 0x800C0506 } } }

/-- A small state for the witnesses below. -/
def st244 : State := { rn with power := { rn.power with st := .entering, entry := some ⟨6, 0x21, 5, true, [], 7⟩ }, outs := { rn.outs with vcm := .rampDown }, deferred := { opcode := 0x80, job := some .sleep } }

/-- A small state for the witnesses below. -/
def st245 : State := { rn with power := { rn.power with st := .entering, entry := some ⟨3, 0x21, 5, true, [], 7⟩ }, deferred := { opcode := 0x80, job := some .sleep } }

/-- A small state for the witnesses below. -/
def st246 : State := { rn with power := { rn.power with st := .entering, entry := some ⟨3, 0x21, 5, false, [], 7⟩ }, clk := { rn.clk with a := { ({ cfg := 0x800C0504 } : Pll) with st := .acquiring } }, deferred := { opcode := 0x80, job := some .sleep } }

/-- A small state for the witnesses below. -/
def st247 : State := { rn with power := { rn.power with st := .entering, entry := some ⟨5, 0x21, 5, false, [], 7⟩ }, outs := { rn.outs with dacs := [(3, { ({} : Dac) with phase := .playing, g := .one, clamp := false })] } }

/-- A small state for the witnesses below. -/
def st248 : State := { rn with power := { rn.power with st := .entering, entry := some ⟨3, 0x21, 5, false, [], 7⟩ } }

/-- A small state for the witnesses below. -/
def st249 : State := { rn with power := { rn.power with st := .entering, entry := some ⟨3, 0x21, 5, true, [1, 5], 7⟩ } }

/-- A small state for the witnesses below. -/
def st250 : State := { rn with power := { rn.power with st := .entering, entry := some ⟨3, 0x21, 5, true, [8], 7⟩ }, flt := { rn.flt with testing := true } }

/-- A small state for the witnesses below. -/
def st251 : State := { rn with power := { rn.power with st := .entering, entry := some ⟨5, 0x21, 5, true, [4], 7⟩ } }

/-- A small state for the witnesses below. -/
def st252 : State := { rn with deferred := {}, jack := { rn.jack with words := [(3, { ({} : JackWord) with w0 := 0x80000000 })] } }

/-- A small state for the witnesses below. -/
def st253 : State := { rn with deferred := {} }

/-- A small state for the witnesses below. -/
def st254 : State := { rn with power := { rn.power with st := .entering, entry := some ⟨2, 0x21, 5, true, [], 7⟩ }, sense := { rn.sense with scanCh := some 22 }, deferred := { opcode := 0x80, job := some .sleep } }

/-- A small state for the witnesses below. -/
def st255 : State := { rn with power := { rn.power with st := .entering, entry := some ⟨3, 0x21, 5, true, [], 7⟩ }, sense := { rn.sense with scanCh := some 22 }, deferred := { opcode := 0x80, job := some .sleep } }

/-- A small state for the witnesses below. -/
def st256 : State := { rn with power := { rn.power with st := .entering, entry := some ⟨5, 0x21, 5, true, [], 7⟩ }, sense := { rn.sense with scanCh := some 22 }, deferred := { opcode := 0x80, job := some .sleep } }

/-- A small state for the witnesses below. -/
def st257 : State := { rn with power := { rn.power with st := .entering, entry := some ⟨6, 0x21, 5, true, [], 7⟩ }, sense := { rn.sense with scanCh := some 22 }, deferred := { opcode := 0x80, job := some .sleep } }

/-- A small state for the witnesses below. -/
def st258 : State := { rn with power := { rn.power with st := .doze, wakeMask := 0x21, padsHeld := true, timer := 5 } }

/-- A small state for the witnesses below. -/
def st259 : State := { rn with power := { rn.power with st := .nap, wakeMask := 0x21, padsHeld := true, timer := 5 } }

/-- A small state for the witnesses below. -/
def st260 : State := { rn with power := { rn.power with st := .rest, wakeMask := 0x21, padsHeld := true, timer := 5 } }

/-- A small state for the witnesses below. -/
def st261 : State := { rn with power := { rn.power with st := .hibernate, wakeMask := 0x21, padsHeld := true, timer := 5 } }

/-- A small state for the witnesses below. -/
def st262 : State := { rn with power := { rn.power with st := .nap, wakeMask := 0x20 } }

/-- A small state for the witnesses below. -/
def st263 : State := { rn with power := { rn.power with st := .entering, entry := some ⟨5, 0x21, 5, true, [], 7⟩ } }

/-- A small state for the witnesses below. -/
def st264 : State := { rn with power := { rn.power with st := .wakeHold, boot := .wakeHold, bootPrev := .run, lastState := 3, wakeFail := 3 } }

/-- A small state for the witnesses below. -/
def st265 : State := { rn with power := { rn.power with st := .wakeHold, boot := .wakeHold, bootPrev := .run, lastState := 5, wakeFail := 2 } }

/-- A small state for the witnesses below. -/
def st266 : State := { rn with power := { rn.power with st := .wakeHoldDark, lastState := 6, wakeFail := 1 } }

/-- A small state for the witnesses below. -/
def st267 : State := { rn with power := { rn.power with st := .nap, wakeMask := 0x21, padsHeld := true, timer := 20000 } }

/-- A small state for the witnesses below. -/
def st268 : State := { rn with power := { rn.power with padsHeld := true }, sets := { rn.sets with bankA := { ({} : ConfigSet) with outCfg := [(3, 0x80300000)] } }, jack := { rn.jack with words := [(3, { ({} : JackWord) with w0 := 0x80000000 })], run := [(3, { ({} : JackRun) with present := true })] } }

/-- A small state for the witnesses below. -/
def st269 : State := { rn with power := { rn.power with st := .wakeHold, boot := .wakeHold } }

/-- A small state for the witnesses below. -/
def st270 : State := { rn with power := { rn.power with st := .rest, waking := some .dvdd } }

/-- A small state for the witnesses below. -/
def st271 : State := { rn with power := { rn.power with st := .hibernate, waking := some .dvdd } }

/-- A small state for the witnesses below. -/
def st272 : State := { rn with power := { rn.power with st := .rest, waking := some .xref, retries := 2 } }

/-- A small state for the witnesses below. -/
def st273 : State := { rn with power := { rn.power with st := .nap, waking := some .pll }, clk := { rn.clk with b := { rn.clk.b with st := .acquiring, gated := true } } }

/-- A small state for the witnesses below. -/
def st274 : State := { rn with power := { rn.power with st := .rest, waking := some .dvdd, retries := 3 } }

/-- A small state for the witnesses below. -/
def st275 : State := { rn with power := { rn.power with st := .rest, waking := some .xref, retries := 3 } }

/-- A small state for the witnesses below. -/
def st276 : State := { rn with power := { rn.power with st := .rest, waking := some .xref, stepOff := some 7, retries := 1 } }

/-- A small state for the witnesses below. -/
def st277 : State := { rn with power := { rn.power with st := .nap, waking := some .pll, stepOff := some 7 } }

/-- A small state for the witnesses below. -/
def st278 : State := { rn with power := { rn.power with st := .doze, waking := some .done, padsHeld := true, wakeBy := 6, heldJack := true }, mtx := { rn.mtx with lanePos := [(3, 7)] } }

/-- A small state for the witnesses below. -/
def st279 : State := { rn with power := { rn.power with st := .nap, waking := some .pll, padsHeld := true, wakeBy := 6 } }

/-- A small state for the witnesses below. -/
def st280 : State := { rn with power := { rn.power with st := .rest, waking := some .pll, padsHeld := true, wakeBy := 6 } }

/-- A small state for the witnesses below. -/
def st281 : State := { rn with power := { rn.power with st := .hibernate, waking := some .pll, padsHeld := true, wakeBy := 6 } }

/-- A small state for the witnesses below. -/
def st282 : State := { rn with power := { rn.power with audioWait := true }, sets := { rn.sets with bankA := { ({} : ConfigSet) with flows := [(129, ⟨0x30610007, 0x00330000, 0, 0⟩)], outCfg := [(3, 0x80300000)], nodes := [(128 * 7 + 1, 0)] } }, flows := [(129, { ({} : FlowRun) with running := true, seq := 9, muteJ := some 3 })] }

/-- A small state for the witnesses below. -/
def st283 : State := { rn with power := { rn.power with restarting := true } }

/-- A small state for the witnesses below. -/
def st284 : State := { rn with sets := { rn.sets with swap := some ⟨false, true, false, 5⟩ }, flows := [(129, { ({} : FlowRun) with slips := 3 })], ports := { rn.ports with tdm := [(1, { ({} : TdmPort) with cfg := 0xC033D000, st := .running }), (3, { ({} : TdmPort) with cfg := 0x8033D000, st := .running, frameErrs := 3 })], aesRx := [(1, { ({} : AesRx) with st := .locked, rate := 3 })], pdmRun := [(1, ⟨true, 0⟩)] } }

/-- A small state for the witnesses below. -/
def st285 : State := { rn with cores := { core := [(1, { ({} : Core) with st := .running, fallbacks := 3 })] } }

/-- A small state for the witnesses below. -/
def st286 : State := { rn with power := { rn.power with wdrCount := 3 }, outs := { rn.outs with dacs := [(3, { ({} : Dac) with phase := .playing, g := .one, clamp := false }), (25, { ({} : Dac) with phase := .playing, g := .one, clamp := false }), (32, { ({} : Dac) with phase := .playing, g := .one, clamp := false, pause := 1 })], pumps := [(0, { ({} : Pump) with on := true, up := true })] } }

/-- A small state for the witnesses below. -/
def st287 : State := { rn with power := { rn.power with wdt := 0xA0000004 } }

/-- A small state for the witnesses below. -/
def st288 : State := { rn with power := { rn.power with wdt := 0x8000000C, wdrCount := 255 } }

/-- A small state for the witnesses below. -/
def st289 : State := { rn with power := { rn.power with wdt := 0x80000004, straps := ⟨false, true, false, false, false, true, true, 24576000⟩ } }

/-- A small state for the witnesses below. -/
def st290 : State := { rn with power := { rn.power with wdt := 0x80000004, straps := ⟨false, true, false, false, false, false, true, 24576000⟩ } }

/-- A small state for the witnesses below. -/
def st291 : State := { rn with power := { rn.power with wdt := 0x8000000C, wdtAt := 9000000000 } }

/-- A small state for the witnesses below. -/
def st292 : State := { rn with sets := { rn.sets with bankA := { ({} : ConfigSet) with outCfg := [(3, 0x80300000), (25, 0x80300000), (32, 0x80300000), (33, 0x80300000)] } }, outs := { rn.outs with dacs := [(3, { ({} : Dac) with phase := .playing, g := .one, clamp := false }), (25, { ({} : Dac) with phase := .playing, g := .one, clamp := false }), (32, { ({} : Dac) with phase := .playing, g := .one, clamp := false, pause := 1 })], pumps := [(0, { ({} : Pump) with on := true, up := true })] }, ports := { rn.ports with tdm := [(1, { ({} : TdmPort) with cfg := 0xC033D000, st := .running }), (3, { ({} : TdmPort) with cfg := 0x8033D000, st := .running, frameErrs := 3 })], aesRx := [(1, { ({} : AesRx) with st := .locked, rate := 3 })], pdmRun := [(1, ⟨true, 0⟩)] }, power := { rn.power with padsHeld := false } }

/-- A small state for the witnesses below. -/
def st293 : State := { rn with sets := { rn.sets with bankA := { ({} : ConfigSet) with outCfg := [(3, 0x80300000), (25, 0x80300000), (32, 0x80300000), (33, 0x80300000)] } }, outs := { rn.outs with dacs := [(33, { ({} : Dac) with pause := 4 })] }, power := { rn.power with spkvdd := false } }

/-- A small state for the witnesses below. -/
def st294 : State := { rn with power := { rn.power with iovddA := false }, ports := { rn.ports with tdm := [(1, { ({} : TdmPort) with cfg := 0xC033D000, st := .stopped }), (3, { ({} : TdmPort) with cfg := 0x8033D000, st := .stopped })] } }

/-- A small state for the witnesses below. -/
def st295 : State := { rn with power := { rn.power with request := 800 } }

/-- A small state for the witnesses below. -/
def st296 : State := { rn with power := { rn.power with avs0 := 0x80000000, request := 800, target := 803 } }

/-- A small state for the witnesses below. -/
def st297 : State := { rn with power := { rn.power with avs0 := 0x80000000, request := 800, target := 700, stepAt := 5 } }

/-- A small state for the witnesses below. -/
def st298 : State := { rn with power := { rn.power with avs0 := 0x80000000, request := 800, target := 800, stepAt := 9999000000, avsSteps := [9999000000] } }

/-- A small state for the witnesses below. -/
def st299 : State := { rn with power := { rn.power with avs0 := 0x80000000, request := 800, target := 805, stepAt := 9999000000, avsSteps := [9999000000, 9995000000] } }

/-- A small state for the witnesses below. -/
def st300 : State := { rn with power := { rn.power with avs0 := 0x80000000, request := 800, target := 800, stepAt := 5, avsSteps := [9999000000, 5] } }

/-- A small state for the witnesses below. -/
def st301 : State := { rn with power := { rn.power with avs0 := 0x80000000, request := 800, target := 800, stepAt := 5, avsSteps := [5] }, margin := { rn.margin with w0 := 2 } }

/-- A small state for the witnesses below. -/
def st302 : State := { rn with power := { rn.power with avs0 := 0x80000000, request := 800, target := 800, stepAt := 5 } }

/-- A small state for the witnesses below. -/
def st303 : State := { rn with margin := { rn.margin with running := true, mn := 90, mh := 80 } }

/-- A small state for the witnesses below. -/
def st304 : State := { rn with margin := { rn.margin with running := true }, power := { rn.power with avs0 := 0x80000000, avs1 := 0x02EE0384, request := 800 } }

/-- A small state for the witnesses below. -/
def st305 : State := { rn with power := { rn.power with avs0 := 0x80000000, avs1 := 0x02EE0384, request := 800 } }

/-- A small state for the witnesses below. -/
def st306 : State := { rn with power := { rn.power with avs0 := 0x80000000, avs1 := 0x03840320, request := 900 } }

/-- A small state for the witnesses below. -/
def st307 : State := { rn with margin := { rn.margin with running := true } }

/-- A small state for the witnesses below. -/
def st308 : State := { rn with margin := { rn.margin with hist := [(1, 2, 3), (4, 5, 6)] } }

/-- A small state for the witnesses below. -/
def st309 : State := { rn with flt := { rn.flt with log := [⟨0x01110000, 0, 0, 0, 7, 5⟩], written := 20000 } }

/-- A small state for the witnesses below. -/
def st310 : State := { rn with flt := { rn.flt with log := [⟨0x01110000, 0, 0, 0, 7, 5⟩] } }

/-- A small state for the witnesses below. -/
def st311 : State := { rn with flt := { rn.flt with log := [⟨0x01220000, 0, 0, 0, 7, 5⟩], written := 4 } }

/-- A small state for the witnesses below. -/
def st312 : State := { rn with flt := { rn.flt with tests := [⟨9, 4⟩] } }

/-- A small state for the witnesses below. -/
def st313 : State := { rn with flt := { rn.flt with tests := [⟨9, 4⟩], testing := true, log := [⟨0x09110000, 0, 0, 0, 4, 5⟩] } }

/-- A small state for the witnesses below. -/
def st314 : State := { rn with flt := { rn.flt with tests := [⟨9, 4⟩], testing := true }, sets := { rn.sets with bankA := { ({} : ConfigSet) with feMode := [(4, 0x80000000)] } } }

/-- A small state for the witnesses below. -/
def st315 : State := { rn with flt := { rn.flt with tests := [⟨1, 2 ^ 40 + 5 * 65536 + 9⟩], testing := true, log := [⟨0x01110000, 0, BitVec.ofNat 32 (5 * 2 ^ 23 + 9), 0, 2 ^ 40 + 5 * 65536 + 9, 5⟩], repaired := [(5, [1])] } }

/-- A small state for the witnesses below. -/
def st316 : State := { rn with mem := { rn.mem with upsets := [.status] } }

/-- A small state for the witnesses below. -/
def st317 : State := { rn with sets := { rn.sets with bankA := { ({} : ConfigSet) with flows := [(3, ⟨0x10000007, 0x00330000, 0, 0⟩)] } }, flows := [(3, { ({} : FlowRun) with running := true })], mem := { rn.mem with upsets := [.ingress 3 9] } }

/-- A small state for the witnesses below. -/
def st318 : State := { rn with sets := { rn.sets with bankA := { ({} : ConfigSet) with flows := [(3, ⟨0x30000007, 0x00330000, 0, 0⟩)] } }, flows := [(3, { ({} : FlowRun) with running := true, fifo := [⟨7, 2⟩] })], mem := { rn.mem with upsets := [.ingress 3 9] } }

/-- A small state for the witnesses below. -/
def st319 : State := { rn with cp := { ({} : CpState) with regs := { ({} : Regs) with g := [(2, ⟨0x00080003, 3⟩)], pc := 7 } }, mem := { rn.mem with upsets := [.data 4] } }

/-- A small state for the witnesses below. -/
def st320 : State := { rn with power := { rn.power with boot := .safe, safeCause := 1 } }

/-- A small state for the witnesses below. -/
def st321 : State := { rn with mem := { rn.mem with upsets := [.register .cp 7] } }

/-- A small state for the witnesses below. -/
def st322 : State := { rn with sets := { rn.sets with bankA := { ({} : ConfigSet) with coreBind := [(1, ⟨0x84300000, 2, 2⟩)] } }, cores := { core := [(1, { ({} : Core) with st := .running, inputs := [[(16, ⟨7, 2⟩)]] })], slots := [(2, { ({} : Slot) with loaded := true, cycles := 65, bundles := 3 })] }, mem := { rn.mem with upsets := [.register (.sc 1) 7] } }

/-- A small state for the witnesses below. -/
def st323 : State := { rn with sets := { rn.sets with bankA := { ({} : ConfigSet) with outCfg := [(3, 0x80300000)] } } }

/-- A small state for the witnesses below. -/
def st324 : State := { rn with flt := { rn.flt with tests := [⟨9, 4⟩, ⟨9, 5⟩], testing := true } }

/-- A small state for the witnesses below. -/
def st325 : State := { rn with deferred := { opcode := 0xD1, job := some (.selftest 2 513) } }

/-- A small state for the witnesses below. -/
def st326 : State := { rn with deferred := { opcode := 0xD1, job := some (.selftest 1 0) } }

/-- A small state for the witnesses below. -/
def st327 : State := { rn with deferred := { opcode := 0xD1, job := some (.selftest 4 0) } }

/-- A small state for the witnesses below. -/
def st328 : State := { rn with deferred := { opcode := 0xD1, job := some (.selftest 3 2147483649) } }

/-- A small state for the witnesses below. -/
def st329 : State := { rn with deferred := { opcode := 0xD1, job := some (.selftest 2 512) } }

/-- A small state for the witnesses below. -/
def st330 : State := { rn with deferred := { opcode := 0xD1, job := some (.selftest 3 2147483648) } }

/-- A small state for the witnesses below. -/
def st331 : State := { rn with deferred := { opcode := 0xD1, job := some (.selftest 2 512) }, sets := { rn.sets with bankA := { ({} : ConfigSet) with feMode := [(9, 0x80000000)] } } }

/-- A small state for the witnesses below. -/
def st332 : State := { rn with sets := { rn.sets with bankA := { ({} : ConfigSet) with feMode := [(9, 0x80000000)] } }, fe := { rn.fe with chans := [(9, { ({} : Chan) with run := .stopped })] } }

/-- A small state for the witnesses below. -/
def st333 : State := { rn with sets := { rn.sets with bankA := { ({} : ConfigSet) with feMode := [(8, 0x80000000), (9, 0x80000000)], fePair := [(4, 1)] } }, fe := { rn.fe with chans := [(8, { ({} : Chan) with run := .running })] }, deferred := { opcode := 0x25, since := 0, job := some (.calZ 0x100), meas := 0x100 }, cal := { rn.cal with pair := [(32, ⟨7, 8, 0x12000000, 0x01000003⟩)] } }

/-- A small state for the witnesses below. -/
def st334 : State := { rn with sets := { rn.sets with bankA := { ({} : ConfigSet) with feMode := [(8, 0x80000000), (9, 0x80000000)], fePair := [(4, 1)] } }, fe := { rn.fe with chans := [(8, { ({} : Chan) with run := .running })] }, deferred := { opcode := 0x26, since := 0, job := some (.calF 0x100 320), meas := 0x100 }, cal := { rn.cal with pair := [(32, ⟨7, 8, 0x12000000, 0x01000003⟩)] } }

/-- A small state for the witnesses below. -/
def st335 : State := { rn with sets := { rn.sets with bankA := { ({} : ConfigSet) with feMode := [(9, 0x80000000)] } }, fe := { rn.fe with chans := [(9, { ({} : Chan) with run := .running })] }, deferred := { opcode := 0x26, since := 0, job := some (.calF 0x200 320), meas := 0x200 } }

/-- A small state for the witnesses below. -/
def st336 : State := { rn with sets := { rn.sets with bankA := { ({} : ConfigSet) with feMode := [(9, 0x80000000)] } }, fe := { rn.fe with chans := [(9, { ({} : Chan) with run := .running })] } }

/-- A small state for the witnesses below. -/
def st337 : State := { rn with sets := { rn.sets with bankA := { ({} : ConfigSet) with feMode := [(8, 0x80000000), (9, 0x80000000)], fePair := [(4, 1)] } }, fe := { rn.fe with chans := [(8, { ({} : Chan) with run := .running })] } }

/-- A small state for the witnesses below. -/
def st338 : State := { rn with sets := { rn.sets with bankA := { ({} : ConfigSet) with feMode := [(9, 0x80000000)] } }, fe := { rn.fe with chans := [(9, { ({} : Chan) with run := .running })] }, deferred := { opcode := 0x25, since := 0, job := some (.calZ 0x200), meas := 0x200 }, cal := { rn.cal with ch := [(72, ⟨7, 8, 0x12000000, 3⟩)] } }

/-- A small state for the witnesses below. -/
def st339 : State := { rn with sets := { rn.sets with bankA := { ({} : ConfigSet) with feMode := [(9, 0x80000000)] } }, fe := { rn.fe with chans := [(9, { ({} : Chan) with run := .running })] }, deferred := { opcode := 0x26, since := 0, job := some (.calF 0x200 320), meas := 0x200 }, cal := { rn.cal with ch := [(72, ⟨7, 8, 0x12000000, 3⟩)] } }

/-- A small state for the witnesses below. -/
def st340 : State := { rn with sets := { rn.sets with bankA := { ({} : ConfigSet) with feMode := [(9, 0x80000000)] } }, fe := { rn.fe with chans := [(9, { ({} : Chan) with run := .running })] }, deferred := { opcode := 0x25, since := 0, job := some (.calZ 0x200), meas := 0x200 } }

/-- A small state for the witnesses below. -/
def st341 : State := { rn with cal := { rn.cal with exports := 4 } }

/-- A small state for the witnesses below. -/
def st342 : State := { rn with cal := { rn.cal with snapshot := some ⟨[], [], [1, 2, 3]⟩ } }

/-- A small state for the witnesses below. -/
def st343 : State := { rn with cal := { rn.cal with staging := (List.range 9).map (fun k => (k, [5])) } }

/-- A small state for the witnesses below. -/
def st344 : State := { rn with sec := { rn.sec with otp := { rn.sec.otp with factorySet := true, facCh := [(72, ⟨7, 8, 0x12000000, 3⟩)] } } }

/-- A small state for the witnesses below. -/
def st345 : State := { rn with sec := { rn.sec with otp := { rn.sec.otp with lifecycle := .maker } } }

/-- A small state for the witnesses below. -/
def st346 : State := { rn with cal := { rn.cal with ch := [(72, ⟨7, 8, 0x12000000, 3⟩)] } }

/-- A small state for the witnesses below. -/
def st347 : State := { rn with sec := { rn.sec with otp := { rn.sec.otp with lifecycle := .maker }, session := some ⟨7, [], [], 0, 0⟩ } }

/-- A small state for the witnesses below. -/
def st348 : State := { rn with sec := { rn.sec with otp := { rn.sec.otp with lifecycle := .field, arb := [(3, 7)] }, session := some ⟨7, [], [], 0, 0⟩ } }

/-- A small state for the witnesses below. -/
def st349 : State := { rn with sec := { rn.sec with otp := { rn.sec.otp with lifecycle := .field }, session := some ⟨7, [], [], 0, 0⟩ } }

/-- A small state for the witnesses below. -/
def st350 : State := { rn with sec := { rn.sec with otp := { rn.sec.otp with lifecycle := .maker, certSet := true }, session := some ⟨7, [], [], 0, 0⟩ } }

/-- A small state for the witnesses below. -/
def st351 : State := { rn with sec := { rn.sec with otp := { rn.sec.otp with keySet := 1 }, session := some ⟨7, [], [], 0, 0⟩ } }

/-- A small state for the witnesses below. -/
def st352 : State := { rn with sec := { rn.sec with otp := { rn.sec.otp with lifecycle := .field, keySet := 0b1100 }, session := some ⟨7, [], [], 0, 0⟩ } }

/-- A small state for the witnesses below. -/
def st353 : State := { rn with sec := { rn.sec with otp := { rn.sec.otp with lifecycle := .maker, keySet := 0b1100, keyRevoked := 0b1000 }, session := some ⟨7, [], [], 0, 0⟩ } }

/-- A small state for the witnesses below. -/
def st354 : State := { rn with sec := { rn.sec with otp := { rn.sec.otp with certSet := true, cert := [1, 2, 3] } } }

/-- A small state for the witnesses below. -/
def st355 : State := { rn with sec := { rn.sec with otp := { rn.sec.otp with lifecycle := .field } } }

/-- A small state for the witnesses below. -/
def st356 : State := { rn with sec := { rn.sec with otp := { rn.sec.otp with lifecycle := .maker } }, sets := { rn.sets with bankA := { ({} : ConfigSet) with flows := [(3, ⟨0x10000007, 0x00330100, 0, 0⟩)] } }, seals := { rn.seals with seals := [(0, { ({} : SealSt) with isOpen := true, flow := 4 })] } }

/-- A small state for the witnesses below. -/
def st357 : State := { rn with seals := { rn.seals with seals := [(2, { ({} : SealSt) with isOpen := true, flow := 3, recs := 0 })] } }

/-- A small state for the witnesses below. -/
def st358 : State := { rn with seals := { rn.seals with seals := [(2, { ({} : SealSt) with isOpen := true, flow := 3, recs := 0 })], overflows := 255, queue := [⟨0, 0, List.replicate 8132 1⟩] } }

/-- A small state for the witnesses below. -/
def st359 : State := { rn with seals := { rn.seals with seals := [(2, { ({} : SealSt) with isOpen := true, flow := 3, started := true, blocks := 15, block := List.replicate 4096 ⟨5, 0⟩ })] } }

/-- A small state for the witnesses below. -/
def st360 : State := { rn with seals := { rn.seals with seals := [(2, { ({} : SealSt) with isOpen := true, flow := 3, started := true, blocks := 16, signDue := true })] } }

/-- A small state for the witnesses below. -/
def st361 : State := { rn with seals := { rn.seals with seals := [(2, { ({} : SealSt) with isOpen := true, flow := 3, started := true })] } }

/-- A small state for the witnesses below. -/
def st362 : State := { ({ rn with seals := { rn.seals with seals := [(2, { ({} : SealSt) with isOpen := true, flow := 3, started := true, blocks := 3 })] } }) with deferred := { opcode := 0xC1, job := some (.sealClose 2) } }

/-- A small state for the witnesses below. -/
def st363 : State := { ({ rn with seals := { rn.seals with seals := [(2, { ({} : SealSt) with isOpen := true, flow := 3, started := true, blocks := 16, signDue := true, closeDue := some 1 })] } }) with deferred := { opcode := 0xC1, job := some (.sealClose 2) } }

/-- A small state for the witnesses below. -/
def st364 : State := { ({ rn with seals := { rn.seals with seals := [(2, { ({} : SealSt) with isOpen := true, flow := 3, started := true, blocks := 16, signDue := true, closeDue := some 1 })] } }) with clk := { rn.clk with b := { rn.clk.b with st := .acquiring } } }

/-- A small state for the witnesses below. -/
def st365 : State := { ({ rn with seals := { rn.seals with seals := [(2, { ({} : SealSt) with isOpen := true, flow := 3, started := true })] } }) with sec := { rn.sec with drbgFail := true } }

/-- A small state for the witnesses below. -/
def st366 : State := { rn with seals := { rn.seals with seals := [(2, { ({} : SealSt) with isOpen := true, flow := 3, started := true })], queue := [⟨1, 0, [7, 8]⟩, ⟨0, 0, List.replicate 1020 1⟩, ⟨0, 0, [9, 10, 11, 12]⟩] } }

/-- A small state for the witnesses below. -/
def st367 : State := { rn with sec := { rn.sec with otp := { rn.sec.otp with lifecycle := .maker }, session := some ⟨7, [], [], 0, 0⟩, chal := some ([1, 2, 3, 4, 5, 6, 7, 8], 5) } }

/-- A small state for the witnesses below. -/
def st368 : State := { rn with sec := { rn.sec with chal := some ([1, 2], 5) }, tb := { rn.tb with count := 60000000005 } }

/-- A small state for the witnesses below. -/
def st369 : State := { rn with sec := { rn.sec with chal := some ([1, 2], 5) } }

/-- A small state for the witnesses below. -/
def st370 : State := { rn with sec := { rn.sec with verified := true } }

/-- A small state for the witnesses below. -/
def st371 : State := { rn with mem := ({} : Memory).setWord (aStaging + 8) 0x01000000 0 }

/-- A small state for the witnesses below. -/
def st372 : State := { rn with power := { rn.power with boot := .safe, safeCause := 1 }, mem := ({} : Memory).setWord (aStaging + 8) 0x01000000 0 }

/-- A small state for the witnesses below. -/
def st373 : State := { rn with deferred := { opcode := 0xA1, job := some .imageExec } }

/-- A small state for the witnesses below. -/
def st374 : State := { rn with power := { rn.power with st := .reset }, outs := { rn.outs with dacs := [(3, { ({} : Dac) with phase := .muting, clamp := false, g := .falling })] } }

/-- A small state for the witnesses below. -/
def st375 : State := { rn with power := { rn.power with st := .reset } }

/-- A small state for the witnesses below. -/
def st376 : State := { rn with power := { rn.power with st := .reset }, sec := { rn.sec with otpBad := [5, 5 + 0x800] } }

/-- A small state for the witnesses below. -/
def st377 : State := { rn with power := { rn.power with boot := .verify } }

/-- A small state for the witnesses below. -/
def st378 : State := { rn with host := { rn.host with accepted := List.replicate 4 ⟨false, 0, [0]⟩ } }

/-- A small state for the witnesses below. -/
def st379 : State := { rn with host := { rn.host with expSeq := 9 } }

/-- A small state for the witnesses below. -/
def st380 : State := { rn with sec := { rn.sec with tagFails := 255 } }

/-- A small state for the witnesses below. -/
def st381 : State := { rn with host := { rn.host with lastSeq := some 7, stored := some [1, 2] }, sec := { rn.sec with session := some ⟨7, List.replicate 32 0, List.replicate 32 0, 3, 3⟩ } }

/-- A small state for the witnesses below. -/
def st382 : State := { rn with host := { rn.host with lastSeq := some 7, stored := some [1, 2] }, sec := { rn.sec with session := some ⟨7, List.replicate 32 0, List.replicate 32 0, 0, 3⟩ } }

/-- A small state for the witnesses below. -/
def st383 : State := { rn with host := { rn.host with seqFree := true, stored := some [1, 2] }, sec := { rn.sec with session := some ⟨7, List.replicate 32 0, List.replicate 32 0, 2, 3⟩ } }

/-- A small state for the witnesses below. -/
def st384 : State := { rn with host := { rn.host with seqFree := false, expSeq := 8, lastSeq := some 7, stored := some [1, 2] } }

/-- A small state for the witnesses below. -/
def st385 : State := { rn with host := { rn.host with seqFree := false, expSeq := 9, lastSeq := some 8, stored := some [1, 2] } }

/-- A small state for the witnesses below. -/
def st386 : State := { rn with sec := { rn.sec with session := some ⟨7, List.replicate 32 0, List.replicate 32 0, 2, 3⟩ } }

/-- A small state for the witnesses below. -/
def st387 : State := { rn with host := { rn.host with accepted := [⟨true, 9, [0x01000000]⟩] }, sec := { rn.sec with session := some ⟨7, List.replicate 32 0, List.replicate 32 0, 2, 3⟩ } }

/-- A small state for the witnesses below. -/
def st388 : State := { rn with host := { rn.host with responses := [[1, 2], [3]] } }

/-- A small state for the witnesses below. -/
def st389 : State := { rn with irq := { rn.irq with pend := 0x40 } }

/-- A small state for the witnesses below. -/
def st390 : State := { rn with power := { rn.power with straps := { rn.power.straps with i2c := true, gpio14 := true } } }

/-- A small state for the witnesses below. -/
def st391 : State := { rn with host := { rn.host with accepted := [⟨false, 9, [0x01000000]⟩] } }

/-- A small state for the witnesses below. -/
def st392 : State := { rn with irq := { rn.irq with pend := 0x40, mask := 0x40 } }

/-- A small state for the witnesses below. -/
def st393 : State := { rn with sets := { rn.sets with epoch := 65535 } }

/-- A small state for the witnesses below. -/
def st394 : State := { rn with sets := { rn.sets with epoch := 65535, swap := some ⟨false, false, false, 0⟩ } }

/-- A small state for the witnesses below. -/
def st395 : State := { rn with sec := { rn.sec with otp := { rn.sec.otp with policy := true } } }

/-- A small state for the witnesses below. -/
def st396 : State := { rn with clk := { rn.clk with b := { rn.clk.b with gated := true } } }

/-- The hypotheses of ReferenceBuffers are met. -/
theorem wit_ReferenceBuffers :
    (Admitted rowRefOn (cmd [0x3]) st0) ∧
    (resv (opnd (cmd [0x3]) 0) 0xF = false) ∧
    (Admitted rowRefOff (cmd [0x2] (flags := 1)) st1) ∧
    (resv (opnd (cmd [0x2] (flags := 1)) 0) 0xF = false) ∧
    ((flag (cmd [0x2] (flags := 1)) 0 = true ∨ enabledIn st1 (opnd (cmd [0x2] (flags := 1)) 0).toNat = 0)) ∧
    (Admitted rowRefOff (cmd [0x2]) st2) ∧
    (resv (opnd (cmd [0x2]) 0) 0xF = false) ∧
    (flag (cmd [0x2]) 0 = false) ∧
    (enabledIn st2 (opnd (cmd [0x2]) 0).toNat ≠ 0) ∧
    ((refBuf st3 1).powered = true) ∧
    ((∀ ch ∈ bankChans 1, (chan st3 ch).live = false)) ∧
    ((refBuf st1 1).powered = true) ∧
    ((∃ ch ∈ bankChans 1, (chan st1 ch).live = true)) ∧
    ((refBuf st4 1).powered = true) ∧
    ((refBuf st4 1).offAfterRamp = false) ∧
    ((refBuf st4 1).ready = false) ∧
    ((refBuf st4 1).need ≤ since st4 (refBuf st4 1).onAt) ∧
    ((∀ l, (refBuf st4 1).lost = some l → 40000000 ≤ 0 ∧ 40000000 ≤ since st4 l)) ∧
    ((refBuf st5 1).powered = true) ∧
    ((refBuf st5 1).fromOn = true) ∧
    ((refBuf st5 1).late = false) ∧
    (100000000 ≤ since st5 (refBuf st5 1).onAt) ∧
    ((refBuf st1 1).ready = true) ∧
    (((refBuf st6 1).offAfterRamp = true ∨ ∃ ch ∈ bankChans 1, (chan st6 ch).run = .ramping)) ∧
    ((∀ ch ∈ bankChans 1, rampDone st6 ch = true)) :=
  by decide +kernel

/-- The hypotheses of InputChannels are met. -/
theorem wit_InputChannels :
    ((active st7).chEn 9 = true) ∧
    ((chan st7 9).run = .stopped) ∧
    ((refBuf st7 (9 / 8)).ready = true) ∧
    (audioRuns st7 = true) ∧
    (chanBoundary st7 9 = true) ∧
    ((chan st8 9).gainPend = some (⟨6, 3, true⟩ : GainPend)) ∧
    ((chan st8 9).live = true) ∧
    (((true = true ∧ (chan st8 9).crossHold = 0) ∨ 2000000 ≤ since st8 (⟨6, 3, true⟩ : GainPend).since)) ∧
    (8 = (active st9).gov 8) ∧
    (modRuns st9 8 = true) ∧
    ((chan st9 8).ovr = false) ∧
    (8 = (active st10).gov 8) ∧
    ((chan st10 8).ovr = true) ∧
    (8 = (active st11).gov 8) ∧
    (modRuns st11 8 = true) ∧
    ((chan st11 8).unstable = false) ∧
    (8 = (active st12).gov 8) ∧
    ((chan st12 8).unstable = true) ∧
    ((chan st13 8).nbr = true) ∧
    ((∀ n ∈ bankChans (8 / 8), n = 8 ∨ ((chan st13 n).ovr = false ∧ 20000 ≤ since st13 (tget 0 st13.fe.release n)))) ∧
    ((chan st14 8).move = some (⟨⟨0, 0, 0, 0, 0, 1⟩, 64, false⟩ : Move)) ∧
    ((⟨⟨0, 0, 0, 0, 0, 1⟩, 64, false⟩ : Move).j = 64) :=
  by decide +kernel

/-- The hypotheses of CrossFades are met. -/
theorem wit_CrossFades :
    (({} : Decim).fifo = []) ∧
    (([1, 2, 3, 4] : List Int).length = 4 * 1) ∧
    ((∀ k, (fun k => ((([1, 2, 3, 4] : List Int).take (k * 1)).reverse ++ ({} : Decim).codes).take (cicLen * 1)) k = ((([1, 2, 3, 4] : List Int).take (k * 1)).reverse ++ ({} : Decim).codes).take (cicLen * 1))) ∧
    ((∀ k, (fun k => Config.cic 1 ((fun k => ((([1, 2, 3, 4] : List Int).take (k * 1)).reverse ++ ({} : Decim).codes).take (cicLen * 1)) k)) k = Config.cic 1 ((fun k => ((([1, 2, 3, 4] : List Int).take (k * 1)).reverse ++ ({} : Decim).codes).take (cicLen * 1)) k))) ∧
    ((((Config.cic 1 (((([1, 2, 3, 4] : List Int).take (2 * 1)).reverse ++ ({} : Decim).codes).take (cicLen * 1))) :: (Config.cic 1 (((([1, 2, 3, 4] : List Int).take (1 * 1)).reverse ++ ({} : Decim).codes).take (cicLen * 1))) :: ({} : Decim).h1).take hbLen) = ((fun k => Config.cic 1 ((fun k => ((([1, 2, 3, 4] : List Int).take (k * 1)).reverse ++ ({} : Decim).codes).take (cicLen * 1)) k)) 2 :: (fun k => Config.cic 1 ((fun k => ((([1, 2, 3, 4] : List Int).take (k * 1)).reverse ++ ({} : Decim).codes).take (cicLen * 1)) k)) 1 :: ({} : Decim).h1).take hbLen) ∧
    ((((Config.cic 1 (((([1, 2, 3, 4] : List Int).take (4 * 1)).reverse ++ ({} : Decim).codes).take (cicLen * 1))) :: (Config.cic 1 (((([1, 2, 3, 4] : List Int).take (3 * 1)).reverse ++ ({} : Decim).codes).take (cicLen * 1))) :: (((Config.cic 1 (((([1, 2, 3, 4] : List Int).take (2 * 1)).reverse ++ ({} : Decim).codes).take (cicLen * 1))) :: (Config.cic 1 (((([1, 2, 3, 4] : List Int).take (1 * 1)).reverse ++ ({} : Decim).codes).take (cicLen * 1))) :: ({} : Decim).h1).take hbLen)).take hbLen) = ((fun k => Config.cic 1 ((fun k => ((([1, 2, 3, 4] : List Int).take (k * 1)).reverse ++ ({} : Decim).codes).take (cicLen * 1)) k)) 4 :: (fun k => Config.cic 1 ((fun k => ((([1, 2, 3, 4] : List Int).take (k * 1)).reverse ++ ({} : Decim).codes).take (cicLen * 1)) k)) 3 :: (((Config.cic 1 (((([1, 2, 3, 4] : List Int).take (2 * 1)).reverse ++ ({} : Decim).codes).take (cicLen * 1))) :: (Config.cic 1 (((([1, 2, 3, 4] : List Int).take (1 * 1)).reverse ++ ({} : Decim).codes).take (cicLen * 1))) :: ({} : Decim).h1).take hbLen)).take hbLen) ∧
    (((halfBand 1 1 (((Config.cic 1 (((([1, 2, 3, 4] : List Int).take (4 * 1)).reverse ++ ({} : Decim).codes).take (cicLen * 1))) :: (Config.cic 1 (((([1, 2, 3, 4] : List Int).take (3 * 1)).reverse ++ ({} : Decim).codes).take (cicLen * 1))) :: (((Config.cic 1 (((([1, 2, 3, 4] : List Int).take (2 * 1)).reverse ++ ({} : Decim).codes).take (cicLen * 1))) :: (Config.cic 1 (((([1, 2, 3, 4] : List Int).take (1 * 1)).reverse ++ ({} : Decim).codes).take (cicLen * 1))) :: ({} : Decim).h1).take hbLen)).take hbLen) :: halfBand 1 1 (((Config.cic 1 (((([1, 2, 3, 4] : List Int).take (2 * 1)).reverse ++ ({} : Decim).codes).take (cicLen * 1))) :: (Config.cic 1 (((([1, 2, 3, 4] : List Int).take (1 * 1)).reverse ++ ({} : Decim).codes).take (cicLen * 1))) :: ({} : Decim).h1).take hbLen) :: ({} : Decim).h2).take hbLen) = (halfBand 1 1 (((Config.cic 1 (((([1, 2, 3, 4] : List Int).take (4 * 1)).reverse ++ ({} : Decim).codes).take (cicLen * 1))) :: (Config.cic 1 (((([1, 2, 3, 4] : List Int).take (3 * 1)).reverse ++ ({} : Decim).codes).take (cicLen * 1))) :: (((Config.cic 1 (((([1, 2, 3, 4] : List Int).take (2 * 1)).reverse ++ ({} : Decim).codes).take (cicLen * 1))) :: (Config.cic 1 (((([1, 2, 3, 4] : List Int).take (1 * 1)).reverse ++ ({} : Decim).codes).take (cicLen * 1))) :: ({} : Decim).h1).take hbLen)).take hbLen) :: halfBand 1 1 (((Config.cic 1 (((([1, 2, 3, 4] : List Int).take (2 * 1)).reverse ++ ({} : Decim).codes).take (cicLen * 1))) :: (Config.cic 1 (((([1, 2, 3, 4] : List Int).take (1 * 1)).reverse ++ ({} : Decim).codes).take (cicLen * 1))) :: ({} : Decim).h1).take hbLen) :: ({} : Decim).h2).take hbLen) ∧
    ((chan st15 8) = chan st15 8) ∧
    ((chan st15 8).run = .running) ∧
    ((active st15).pairMode 8 = 0) ∧
    ((chan st15 8).fade = none) ∧
    ((chan st15 8).oldBank = none) ∧
    ((chan st15 8).move = none) ∧
    ((corrOf st15 8) = corrOf st15 8) ∧
    (((⟨intWord (decimate (presetOf (active st15) 8) (cicRatio st15 (active st15) 8) ([7, -5] : List Int) (chan st15 8).dec).1, inputTag (chan st15 8)⟩ :: (chan st15 8).hist).take 384) = (⟨intWord (decimate (presetOf (active st15) 8) (cicRatio st15 (active st15) 8) ([7, -5] : List Int) (chan st15 8).dec).1, inputTag (chan st15 8)⟩ :: (chan st15 8).hist).take 384) ∧
    ((chan st16 8) = chan st16 8) ∧
    ((chan st16 8).run = .running) ∧
    ((active st16).pairMode 8 = 0) ∧
    ((chan st16 8).fade = some (⟨8, 2, 64, 3⟩ : Fade)) ∧
    ((⟨8, 2, 64, 3⟩ : Fade).j < (⟨8, 2, 64, 3⟩ : Fade).len) ∧
    ((chan st16 8).move = none) ∧
    ((corrOf st16 8) = corrOf st16 8) ∧
    (((⟨intWord (decimate (presetOf (active st16) 8) (cicRatio st16 (active st16) 8) ([7, -5] : List Int) (chan st16 8).dec).1, inputTag (chan st16 8)⟩ :: (chan st16 8).hist).take 384) = (⟨intWord (decimate (presetOf (active st16) 8) (cicRatio st16 (active st16) 8) ([7, -5] : List Int) (chan st16 8).dec).1, inputTag (chan st16 8)⟩ :: (chan st16 8).hist).take 384) ∧
    ((chan st17 8) = chan st17 8) ∧
    ((chan st17 8).run = .running) ∧
    ((active st17).pairMode 8 ≠ 0) ∧
    ((chan st17 8).fade = none) ∧
    ((chan st17 8).oldBank = none) ∧
    ((chan st17 8).move = none) ∧
    ((corrOf st17 8) = corrOf st17 8) ∧
    (((⟨intWord (decimate (presetOf (active st17) 8) (cicRatio st17 (active st17) 8) ([7, -5] : List Int) (chan st17 8).dec).1, inputTag (chan st17 8)⟩ :: (chan st17 8).hist).take 384) = (⟨intWord (decimate (presetOf (active st17) 8) (cicRatio st17 (active st17) 8) ([7, -5] : List Int) (chan st17 8).dec).1, inputTag (chan st17 8)⟩ :: (chan st17 8).hist).take 384) ∧
    (((⟨intWord (decimate (presetOf (active st17) 8) (cicRatio st17 (active st17) 8) ([3] : List Int) (chan st17 8).decOdd).1, inputTag (chan st17 8)⟩ :: (chan st17 8).histOdd).take 384) = (⟨intWord (decimate (presetOf (active st17) 8) (cicRatio st17 (active st17) 8) ([3] : List Int) (chan st17 8).decOdd).1, inputTag (chan st17 8)⟩ :: (chan st17 8).histOdd).take 384) ∧
    ((active st17).pairMode 8 = 2) ∧
    ((chan st18 8) = chan st18 8) ∧
    ((chan st18 8).run = .running) ∧
    ((active st18).pairMode 8 ≠ 0) ∧
    ((chan st18 8).fade = none) ∧
    ((chan st18 8).oldBank = none) ∧
    ((chan st18 8).move = none) ∧
    ((corrOf st18 8) = corrOf st18 8) ∧
    (((⟨intWord (decimate (presetOf (active st18) 8) (cicRatio st18 (active st18) 8) ([7, -5] : List Int) (chan st18 8).dec).1, inputTag (chan st18 8)⟩ :: (chan st18 8).hist).take 384) = (⟨intWord (decimate (presetOf (active st18) 8) (cicRatio st18 (active st18) 8) ([7, -5] : List Int) (chan st18 8).dec).1, inputTag (chan st18 8)⟩ :: (chan st18 8).hist).take 384) ∧
    (((⟨intWord (decimate (presetOf (active st18) 8) (cicRatio st18 (active st18) 8) ([3] : List Int) (chan st18 8).decOdd).1, inputTag (chan st18 8)⟩ :: (chan st18 8).histOdd).take 384) = (⟨intWord (decimate (presetOf (active st18) 8) (cicRatio st18 (active st18) 8) ([3] : List Int) (chan st18 8).decOdd).1, inputTag (chan st18 8)⟩ :: (chan st18 8).histOdd).take 384) ∧
    ((active st18).pairMode 8 = 1) ∧
    ((chan st18 8).oddNext = false) ∧
    ((chan st19 8) = chan st19 8) ∧
    ((chan st19 8).run = .running) ∧
    ((active st19).pairMode 8 ≠ 0) ∧
    ((chan st19 8).fade = none) ∧
    ((chan st19 8).oldBank = none) ∧
    ((chan st19 8).move = none) ∧
    ((corrOf st19 8) = corrOf st19 8) ∧
    (((⟨intWord (decimate (presetOf (active st19) 8) (cicRatio st19 (active st19) 8) ([7, -5] : List Int) (chan st19 8).dec).1, inputTag (chan st19 8)⟩ :: (chan st19 8).hist).take 384) = (⟨intWord (decimate (presetOf (active st19) 8) (cicRatio st19 (active st19) 8) ([7, -5] : List Int) (chan st19 8).dec).1, inputTag (chan st19 8)⟩ :: (chan st19 8).hist).take 384) ∧
    (((⟨intWord (decimate (presetOf (active st19) 8) (cicRatio st19 (active st19) 8) ([3] : List Int) (chan st19 8).decOdd).1, inputTag (chan st19 8)⟩ :: (chan st19 8).histOdd).take 384) = (⟨intWord (decimate (presetOf (active st19) 8) (cicRatio st19 (active st19) 8) ([3] : List Int) (chan st19 8).decOdd).1, inputTag (chan st19 8)⟩ :: (chan st19 8).histOdd).take 384) ∧
    ((active st19).pairMode 8 = 1) ∧
    ((chan st19 8).oddNext = true) ∧
    ((chan st20 8).fade = some (⟨8, 2, 64, 64⟩ : Fade)) ∧
    ((⟨8, 2, 64, 64⟩ : Fade).j = (⟨8, 2, 64, 64⟩ : Fade).len) ∧
    ((chan st21 8).queued = some 3) ∧
    ((chan st21 8).fade = none) ∧
    ((chan st21 8).live = true) ∧
    ((chan st21 8).pos = 0) ∧
    ((chan st22 8).queued = some 3) ∧
    ((chan st22 8).fade = some (⟨8, 2, 64, 64⟩ : Fade)) ∧
    ((chan st22 8).live = true) ∧
    ((chan st22 8).pos = 0) :=
  by and_intros <;> first | rfl | exact fun _ => rfl | decide +kernel

/-- The hypotheses of FrontEndItems are met. -/
theorem wit_FrontEndItems :
    (Admitted rowFeMode (cmd [31, 0x82110000]) rn) ∧
    ((cmd [31, 0x82110000]).imm = false) ∧
    (resv (opnd (cmd [31, 0x82110000]) 0) 0x1F = false) ∧
    (resv (opnd (cmd [31, 0x82110000]) 1) 0x83110000 = false) ∧
    (fld (opnd (cmd [31, 0x82110000]) 1) 25 24 ≠ 3) ∧
    (Admitted rowFeGain (cmd [31, 60]) rn) ∧
    ((cmd [31, 60]).imm = false) ∧
    (resv (opnd (cmd [31, 60]) 0) 0x1F = false) ∧
    (resv (opnd (cmd [31, 60]) 1) 0x3F = false) ∧
    ((opnd (cmd [31, 60]) 1).toNat ≤ 60) ∧
    (Admitted rowFeGain (cmd [31, 14] (imm := true) (mirror := true)) rn) ∧
    ((cmd [31, 14] (imm := true) (mirror := true)).imm = true) ∧
    (resv (opnd (cmd [31, 14] (imm := true) (mirror := true)) 0) 0x1F = false) ∧
    (resv (opnd (cmd [31, 14] (imm := true) (mirror := true)) 1) 0x3F = false) ∧
    ((opnd (cmd [31, 14] (imm := true) (mirror := true)) 1).toNat ≤ modeMax ((active rn).chMode (opnd (cmd [31, 14] (imm := true) (mirror := true)) 0).toNat)) ∧
    (bit (calMask rn) (opnd (cmd [31, 14] (imm := true) (mirror := true)) 0).toNat = false) ∧
    (Admitted rowFePair (cmd [15, 2]) rn) ∧
    ((cmd [15, 2]).imm = false) ∧
    (resv (opnd (cmd [15, 2]) 0) 0xF = false) ∧
    (resv (opnd (cmd [15, 2]) 1) 3 = false) ∧
    (opnd (cmd [15, 2]) 1 ≠ 3) ∧
    (Admitted rowFltPreset (cmd [31, 0x30700000]) rn) ∧
    ((cmd [31, 0x30700000]).imm = false) ∧
    (resv (opnd (cmd [31, 0x30700000]) 0) 0x1F = false) ∧
    (resv (opnd (cmd [31, 0x30700000]) 1) 0x30F00000 = false) ∧
    (fld (opnd (cmd [31, 0x30700000]) 1) 23 20 ≠ 15) ∧
    ((if rateTop (fld (opnd (cmd [31, 0x30700000]) 1) 23 20) then fld (opnd (cmd [31, 0x30700000]) 1) 29 28 = 3 else rateHz (fld (opnd (cmd [31, 0x30700000]) 1) 23 20) ≤ presetMax (fld (opnd (cmd [31, 0x30700000]) 1) 29 28) (rate44 (fld (opnd (cmd [31, 0x30700000]) 1) 23 20)))) ∧
    (Admitted rowFirSel (cmd [31, 8]) rn) ∧
    ((cmd [31, 8]).imm = false) ∧
    (resv (opnd (cmd [31, 8]) 0) 0x1F = false) ∧
    (resv (opnd (cmd [31, 8]) 1) 0xF = false) ∧
    ((opnd (cmd [31, 8]) 1).toNat ≤ 8) ∧
    (Admitted rowFirFade (cmd [31, 6]) rn) ∧
    ((cmd [31, 6]).imm = false) ∧
    (resv (opnd (cmd [31, 6]) 0) 0x1F = false) ∧
    (resv (opnd (cmd [31, 6]) 1) 7 = false) ∧
    (opnd (cmd [31, 6]) 1 ≠ 7) :=
  by decide +kernel

/-- The hypotheses of BanksAndDetectors are met. -/
theorem wit_BanksAndDetectors :
    (Admitted rowFirWrite (withFlag (cmd [0x20000, 0x00060005]) 0 true) rn) ∧
    (opnd (cmd [0x20000, 0x00060005]) 1 = (0x00060005 : Word)) ∧
    (opnd (cmd [0x20000, 0x00060005]) 0 = toWord (2 * 65536)) ∧
    (2 < 8) ∧
    (resv (0x00060005 : Word) 0x33FF01FF = false) ∧
    (fld (0x00060005 : Word) 8 0 ≤ 384) ∧
    (fld (0x00060005 : Word) 25 16 ≤ 2 * (fld (0x00060005 : Word) 8 0 - 1)) ∧
    (bankFading rn 2 = false) ∧
    ((∀ ch < 32, (active rn).chBank ch = 2 → (active rn).chEn ch = true → fld (0x00060005 : Word) 8 0 * chanHz (active rn) ch ≤ 18432000)) ∧
    ((fld (0x00060005 : Word) 8 0 = 0 → ∀ ch < 32, (active rn).chBank ch ≠ 2)) ∧
    (Admitted rowFirWrite (withFlag (cmd [0x20003, 0x123456, 0xFFFFFF]) 0 false) rn) ∧
    ((cmd [0x20003, 0x123456, 0xFFFFFF]).ops = toWord (2 * 65536 + 3) :: ([0x123456, 0xFFFFFF] : List (BitVec 24)).map (fun c => c.setWidth 32)) ∧
    (3 < 512) ∧
    (3 + ([0x123456, 0xFFFFFF] : List (BitVec 24)).length ≤ 384) ∧
    (1 ≠ 2) ∧
    (Admitted rowDetCfg (cmd [0x000A0002, 0x80000000]) rn) ∧
    (resv (opnd (cmd [0x000A0002, 0x80000000]) 0) 0x017F00FF = false) ∧
    (resv (opnd (cmd [0x000A0002, 0x80000000]) 1) 0xBFFFFF00 = false) ∧
    (detSpan (opnd (cmd [0x000A0002, 0x80000000]) 0) = some (10, 2)) ∧
    (fld (opnd (cmd [0x000A0002, 0x80000000]) 1) 29 26 ≤ 13) ∧
    (Admitted rowDetRead (cmd [0x000A0002] (flags := 1)) st23) ∧
    (resv (opnd (cmd [0x000A0002] (flags := 1)) 0) 0x017F00FF = false) ∧
    (detSpan (opnd (cmd [0x000A0002] (flags := 1)) 0) = some (10, 2)) :=
  by decide +kernel

/-- The hypotheses of MatrixItems are met. -/
theorem wit_MatrixItems :
    ((0xD120 : BitVec 16) ≠ 0x8000) ∧
    ((0x0708 : BitVec 16) ≠ 0x8000) ∧
    ((0x0001 : BitVec 16) ≠ 0x8000) ∧
    (nodeRamp rn 646 = none) ∧
    ((nodeCode 0x0018FC00) = nodeCode (0x0018FC00 : Word)) ∧
    ((if fld (0x0018FC00 : Word) 19 16 = 15 then 0 else 2 ^ fld (0x0018FC00 : Word) 19 16) = (if fld (0x0018FC00 : Word) 19 16 = 15 then 0 else 2 ^ fld (0x0018FC00 : Word) 19 16)) ∧
    ((nodeCode 0x000F8000) = nodeCode (0x000F8000 : Word)) ∧
    ((if fld (0x000F8000 : Word) 19 16 = 15 then 0 else 2 ^ fld (0x000F8000 : Word) 19 16) = (if fld (0x000F8000 : Word) 19 16 = 15 then 0 else 2 ^ fld (0x000F8000 : Word) 19 16)) ∧
    ((nodeCode 0x000F0000) = nodeCode (0x000F0000 : Word)) ∧
    ((if fld (0x000F0000 : Word) 19 16 = 15 then 0 else 2 ^ fld (0x000F0000 : Word) 19 16) = (if fld (0x000F0000 : Word) 19 16 = 15 then 0 else 2 ^ fld (0x000F0000 : Word) 19 16)) ∧
    ((⟨0, none, 0, 4, false, 4⟩ : NodeRamp).len ≤ 4) ∧
    (15 < (⟨0x100000, some 0, 0x8000, 16, true, 0⟩ : NodeRamp).len) ∧
    ((⟨0x100000, some 0, 0x8000, 16, true, 0⟩ : NodeRamp).rcos = true) ∧
    (7 < (⟨0x100000, some 0, 0xFC18, 16, false, 0⟩ : NodeRamp).len) ∧
    ((⟨0x100000, some 0, 0xFC18, 16, false, 0⟩ : NodeRamp).rcos = false) ∧
    ((⟨0x100000, some 0, 0xFC18, 16, false, 0⟩ : NodeRamp).d0 = some 0) ∧
    (rn.sets.taken = []) ∧
    (rn.sets.takenFlows = []) ∧
    (st24.sets.taken = [646]) ∧
    (5 < 128) ∧
    (6 < 128) ∧
    (128 * 5 + 6 = 646) ∧
    (st25.sets.taken = [16390]) ∧
    (16384 + 6 = 16390) ∧
    (bit ((heard st26).weir 6) 31 = false) ∧
    ((tget ({} : WeirRun) st26.mtx.weirs 6).releasing = none) ∧
    (upset st26 (.request 6) = false) ∧
    (upset st26 (.data 6) = false) ∧
    (upset st27 (.request 6) = false) ∧
    (upset st27 (.data 6) = true) ∧
    (upset st28 (.request 6) = false) ∧
    (upset st28 (.data 6) = false) ∧
    ((0x87D00000 : Word) = (heard st28).weir 6) ∧
    (bit (0x87D00000 : Word) 31 = true) ∧
    (bit (0x87D00000 : Word) 30 = false) ∧
    ((clampInt (-(2 ^ 39)) (2 ^ 39 - 1) (laneSum st28 (heard st28) 6 (List.range 128)).1) = clampInt (-(2 ^ 39)) (2 ^ 39 - 1) (laneSum st28 (heard st28) 6 (List.range 128)).1) ∧
    ((min (weirNeed 0x87D00000 (clampInt (-(2 ^ 39)) (2 ^ 39 - 1) (laneSum st28 (heard st28) 6 (List.range 128)).1)) (min 0 (0 + weirStep (fld (0x87D00000 : Word) 26 16) 48000))) = min (weirNeed (0x87D00000 : Word) (clampInt (-(2 ^ 39)) (2 ^ 39 - 1) (laneSum st28 (heard st28) 6 (List.range 128)).1)) (min 0 ((tget ({} : WeirRun) st28.mtx.weirs 6).gain + weirStep (fld (0x87D00000 : Word) 26 16) 48000))) ∧
    (upset st29 (.request 6) = false) ∧
    (upset st29 (.data 6) = false) ∧
    ((0xC7D00000 : Word) = (heard st29).weir 6) ∧
    (bit (0xC7D00000 : Word) 31 = true) ∧
    (bit (0xC7D00000 : Word) 30 = true) ∧
    ((tget {} (st29).mtx.weirs 6) = tget {} st29.mtx.weirs 6) ∧
    ((clampInt (-(2 ^ 39)) (2 ^ 39 - 1) (laneSum st29 (heard st29) 6 (List.range 128)).1) = clampInt (-(2 ^ 39)) (2 ^ 39 - 1) (laneSum st29 (heard st29) 6 (List.range 128)).1) ∧
    (planTap (0xC7D00000 : Word) (weirStep (fld (0xC7D00000 : Word) 26 16) 48000) (tget {} (st29).mtx.weirs 6).gain (tget {} (st29).mtx.weirs 6).line (clampInt (-(2 ^ 39)) (2 ^ 39 - 1) (laneSum st29 (heard st29) 6 (List.range 128)).1) (stamp st29 (laneSum st29 (heard st29) 6 (List.range 128)).2) = ((planTap 0xC7D00000 (weirStep (fld (0xC7D00000 : Word) 26 16) 48000) 0 (List.replicate 16 ⟨5, 0, 0⟩) (clampInt (-(2 ^ 39)) (2 ^ 39 - 1) (laneSum st29 (heard st29) 6 (List.range 128)).1) (stamp st29 (laneSum st29 (heard st29) 6 (List.range 128)).2)).headD ⟨0, 0, 0⟩) :: ((planTap 0xC7D00000 (weirStep (fld (0xC7D00000 : Word) 26 16) 48000) 0 (List.replicate 16 ⟨5, 0, 0⟩) (clampInt (-(2 ^ 39)) (2 ^ 39 - 1) (laneSum st29 (heard st29) 6 (List.range 128)).1) (stamp st29 (laneSum st29 (heard st29) 6 (List.range 128)).2)).tail)) ∧
    ((planTap (0xC7D00000 : Word) 5 0 ([⟨5, 0, 0⟩, ⟨6, 0, 0⟩] : List WeirTap) 5000000000 (0 : BitVec 4)).getLast? = some ((planTap 0xC7D00000 5 0 [⟨5, 0, 0⟩, ⟨6, 0, 0⟩] 5000000000 0).getLastD ⟨0, 0, 0⟩)) ∧
    (1 < ([⟨5, 0, 0⟩, ⟨6, 0, 0⟩] : List WeirTap).length) ∧
    (Admitted rowRoute (cmd [0x00050006, 0x8000]) rn) ∧
    ((cmd [0x00050006, 0x8000]).imm = false) ∧
    (resv (opnd (cmd [0x00050006, 0x8000]) 0) 0x7F007F = false) ∧
    (resv (opnd (cmd [0x00050006, 0x8000]) 1) 0xFFFF = false) ∧
    (codeOk ((opnd (cmd [0x00050006, 0x8000]) 1).setWidth 16) = true) ∧
    (Admitted rowGain (cmd [0x00050306, 0x80000708, 0x80000000]) rn) ∧
    ((cmd [0x00050306, 0x80000708, 0x80000000]).imm = false) ∧
    (resv (opnd (cmd [0x00050306, 0x80000708, 0x80000000]) 0) 0x7FFF7F = false) ∧
    ((fld (opnd (cmd [0x00050306, 0x80000708, 0x80000000]) 0) 15 8 % 2 = 1 → fld (opnd (cmd [0x00050306, 0x80000708, 0x80000000]) (1 + fld (opnd (cmd [0x00050306, 0x80000708, 0x80000000]) 0) 15 8 / 2)) 15 0 = 0)) ∧
    (spanBad (opnd (cmd [0x00050306, 0x80000708, 0x80000000]) 0) = false) ∧
    ((∀ x ∈ routeTargets 0x41 (cmd [0x00050306, 0x80000708, 0x80000000]), codeOk x.2 = true)) ∧
    (Admitted rowRamp (cmd [0x007D0306, 0x1F]) rn) ∧
    ((cmd [0x007D0306, 0x1F]).imm = false) ∧
    (resv (opnd (cmd [0x007D0306, 0x1F]) 0) 0x7FFF7F = false) ∧
    (resv (opnd (cmd [0x007D0306, 0x1F]) 1) 0x1F = false) ∧
    (spanBad (opnd (cmd [0x007D0306, 0x1F]) 0) = false) ∧
    (Admitted rowWeir (cmd [0x7F, 0xC7D00078]) rn) ∧
    ((cmd [0x7F, 0xC7D00078]).imm = false) ∧
    (resv (opnd (cmd [0x7F, 0xC7D00078]) 0) 0x7F = false) ∧
    (resv (opnd (cmd [0x7F, 0xC7D00078]) 1) 0xC7FF00FF = false) ∧
    (10 ≤ fld (opnd (cmd [0x7F, 0xC7D00078]) 1) 26 16) ∧
    (fld (opnd (cmd [0x7F, 0xC7D00078]) 1) 26 16 ≤ 2000) ∧
    (fld (opnd (cmd [0x7F, 0xC7D00078]) 1) 7 0 ≤ 120) ∧
    ((bit (opnd (cmd [0x7F, 0xC7D00078]) 1) 30 = true → bit (opnd (cmd [0x7F, 0xC7D00078]) 1) 31 = true)) ∧
    (tget none st30.mtx.ramps (128 * 5 + 6) = some (⟨0, none, 0, 4, false, 4⟩ : NodeRamp)) ∧
    ((⟨0, none, 0, 4, false, 4⟩ : NodeRamp).len ≤ (⟨0, none, 0, 4, false, 4⟩ : NodeRamp).j) :=
  by and_intros <;> decide +kernel

/-- The hypotheses of MillraceItems are met. -/
theorem wit_MillraceItems :
    (Admitted rowMrTap (cmd [0x307, 0x801F0080]) rn) ∧
    ((cmd [0x307, 0x801F0080]).imm = false) ∧
    (resv (opnd (cmd [0x307, 0x801F0080]) 0) 0x707 = false) ∧
    (resv (opnd (cmd [0x307, 0x801F0080]) 1) 0x801F00FF = false) ∧
    (tapCodeOk ((opnd (cmd [0x307, 0x801F0080]) 1).setWidth 8) = true) ∧
    (Admitted rowMrOut (cmd [7, 0xFFFFFF, 0x800000FF]) rn) ∧
    ((cmd [7, 0xFFFFFF, 0x800000FF]).imm = false) ∧
    (resv (opnd (cmd [7, 0xFFFFFF, 0x800000FF]) 0) 7 = false) ∧
    (resv (opnd (cmd [7, 0xFFFFFF, 0x800000FF]) 1) 0x00FFFFFF = false) ∧
    (resv (opnd (cmd [7, 0xFFFFFF, 0x800000FF]) 2) 0x800000FF = false) ∧
    (7 < 8) ∧
    ((tapRun st31 (8 * 3 + 7)).ramp = true) ∧
    ((tapRun st31 (8 * 3 + 7)).next = none) ∧
    (4096 ≤ mrSamples st31 (tapRun st31 (8 * 3 + 7)).since) ∧
    ((tapRun st32 (8 * 3 + 7)).ramp = true) ∧
    ((tapRun st32 (8 * 3 + 7)).next = some 9) ∧
    (4096 ≤ mrSamples st32 (tapRun st32 (8 * 3 + 7)).since) ∧
    (31 < 32) ∧
    (tget none st33.mr.assignRamp (64 * 3 + 31) = some (⟨0, 0⟩ : LevelRamp)) ∧
    (4096 ≤ mrSamples st33 (⟨0, 0⟩ : LevelRamp).since) ∧
    (tget none st34.mr.blockRamp 31 = some (⟨0, 0⟩ : LevelRamp)) ∧
    (4096 ≤ mrSamples st34 (⟨0, 0⟩ : LevelRamp).since) :=
  by decide +kernel

/-- The hypotheses of OutputSequences are met. -/
theorem wit_OutputSequences :
    (Admitted rowOutCfg (cmd [33, 0x80000000]) rn) ∧
    ((cmd [33, 0x80000000]).imm = false) ∧
    (resv (opnd (cmd [33, 0x80000000]) 0) 0x3F = false) ∧
    (resv (opnd (cmd [33, 0x80000000]) 1) 0x80F11000 = false) ∧
    (outBad (opnd (cmd [33, 0x80000000]) 0).toNat (opnd (cmd [33, 0x80000000]) 1) = false) ∧
    (3 < 4) ∧
    ((pump st35 3).on = true) ∧
    ((pump st35 3).up = false) ∧
    (seqTime st35 500000 ≤ since st35 (pump st35 3).since) ∧
    ((dac st36 24).phase = .servo) ∧
    (seqTime st36 2000000 ≤ since st36 (dac st36 24).since) ∧
    (gHeld st36 = false) ∧
    ((dac st37 32).phase = .spkStart) ∧
    (seqTime st37 1000000 ≤ since st37 (dac st37 32).since) ∧
    (gHeld st37 = false) ∧
    ((dac st38 32).phase = .unmuting) ∧
    ((dac st38 32).g = .rising) ∧
    (seqTime st38 4000000 ≤ since st38 (dac st38 32).since) ∧
    ((dac st39 32).phase = .muting) ∧
    (seqTime st39 4000000 ≤ since st39 (dac st39 32).since) ∧
    ((dac st40 0).phase = .muting) ∧
    (seqTime st40 4000000 ≤ since st40 (dac st40 0).since) ∧
    ((∀ e, rn.power.entry = some e → e.queried = true → deep e.target = true → allClamped rn = true → rn.outs.vcm = .zero ∨ rn.outs.vcm = .rampDown)) ∧
    (st41.power.entry = some (⟨stRest, 5, 5, true, [], 7⟩ : SleepEntry)) ∧
    ((⟨stRest, 5, 5, true, [], 7⟩ : SleepEntry).queried = true) ∧
    (deep (⟨stRest, 5, 5, true, [], 7⟩ : SleepEntry).target = true) ∧
    (allClamped st41 = true) ∧
    (st41.outs.vcm = .on ∨ st41.outs.vcm = .rampUp) ∧
    ((pump st42 3).on = true) ∧
    ((∀ d ∈ [24 + 2 * 3, 25 + 2 * 3], (dac st42 d).phase = .clamped ∧ seqTime st42 10000000 ≤ since st42 (dac st42 d).since)) ∧
    (st43.outs.vcm = .rampDown) ∧
    (40000000 ≤ since st43 st43.outs.vcmAt) ∧
    (st44.outs.vcm = .rampUp) ∧
    (40000000 ≤ since st44 st44.outs.vcmAt) ∧
    (gHeld st44 = false) ∧
    ((pump st45 1).up = true) ∧
    (classHigh st45 1 = false) ∧
    ((∃ d ∈ [24 + 2 * 1, 25 + 2 * 1], 539423503 < (dac st45 d).level.natAbs)) ∧
    ((pump st46 1).up = true) ∧
    (classHigh st46 1 = false) ∧
    ((∀ d ∈ [24 + 2 * 1, 25 + 2 * 1], (dac st46 d).level.natAbs ≤ 381882595)) ∧
    (100000000 ≤ since st46 (pump st46 1).loudAt) ∧
    ((dac st47 3).starve = .fadeOut) ∧
    (3072 ≤ finalSteps st47 (dac st47 3).sAt) ∧
    ((dac st48 3).starve = .fadeIn) ∧
    (3072 ≤ finalSteps st48 (dac st48 3).sAt) :=
  by and_intros <;> decide +kernel

/-- The hypotheses of SpeakerProtection are met. -/
theorem wit_SpeakerProtection :
    (0 < 2) ∧
    ((dac st49 (32 + 0)).clamp = false) ∧
    (1 < 2) ∧
    ((dac st50 (32 + 1)).clamp = false) ∧
    (31 ≠ 32) ∧
    ((dac st52 (32 + 1)).pause = 1) ∧
    ((dac st52 (32 + 1)).lockout = false) ∧
    ((dac st52 (32 + 1)).phase = .clamped) ∧
    (100000000 ≤ since st52 (dac st52 (32 + 1)).since) ∧
    ((active st52).outEn (32 + 1) = true) ∧
    (st52.panic.latch = false) ∧
    (st52.power.padsHeld = false) ∧
    (running st52 = true) ∧
    (inSafe st52 = false) ∧
    (entryHeld st52 = false) ∧
    (st52.power.spkvdd = true) ∧
    (3264 ≤ 3264) ∧
    ((dac st51 32).pause.getLsbD 1 = false) ∧
    (2943 < 2944) ∧
    ((dac st53 32).pause.getLsbD 1 = true) :=
  by decide +kernel

/-- The hypotheses of JackDetection are met. -/
theorem wit_JackDetection :
    (Admitted rowJackCfg (withFlag (cmd [2, 0x80000000, 0x01EC0089, 0x0555034F]) 0 false) rn) ∧
    (resv (opnd (cmd [2, 0x80000000, 0x01EC0089, 0x0555034F]) 0) 3 = false) ∧
    (2 = (opnd (cmd [2, 0x80000000, 0x01EC0089, 0x0555034F]) 0).toNat) ∧
    ((⟨0x80000000, 0x01EC0089, 0x0555034F⟩ : JackWord) = ⟨opnd (cmd [2, 0x80000000, 0x01EC0089, 0x0555034F]) 1, opnd (cmd [2, 0x80000000, 0x01EC0089, 0x0555034F]) 2, opnd (cmd [2, 0x80000000, 0x01EC0089, 0x0555034F]) 3⟩) ∧
    (resv (⟨0x80000000, 0x01EC0089, 0x0555034F⟩ : JackWord).w0 0xF8000000 = false) ∧
    (resv (⟨0x80000000, 0x01EC0089, 0x0555034F⟩ : JackWord).w1 0x0FFF0FFF = false) ∧
    (resv (⟨0x80000000, 0x01EC0089, 0x0555034F⟩ : JackWord).w2 0x0FFF0FFF = false) ∧
    (fld (⟨0x80000000, 0x01EC0089, 0x0555034F⟩ : JackWord).w1 11 0 < fld (⟨0x80000000, 0x01EC0089, 0x0555034F⟩ : JackWord).w1 27 16) ∧
    (fld (⟨0x80000000, 0x01EC0089, 0x0555034F⟩ : JackWord).w1 27 16 < fld (⟨0x80000000, 0x01EC0089, 0x0555034F⟩ : JackWord).w2 11 0) ∧
    (fld (⟨0x80000000, 0x01EC0089, 0x0555034F⟩ : JackWord).w2 11 0 < fld (⟨0x80000000, 0x01EC0089, 0x0555034F⟩ : JackWord).w2 27 16) ∧
    (fld (⟨0x80000000, 0x01EC0089, 0x0555034F⟩ : JackWord).w2 27 16 < 1502) ∧
    (Admitted rowJackCfg (withFlag (cmd [2, 0x80000000, 0x01EC0089, 0x0555034F]) 0 false) st54) ∧
    (Admitted rowJackCfg (withFlag (cmd [2, 0, 0x01EC0089, 0x0555034F]) 0 false) st55) ∧
    (resv (opnd (cmd [2, 0, 0x01EC0089, 0x0555034F]) 0) 3 = false) ∧
    (2 = (opnd (cmd [2, 0, 0x01EC0089, 0x0555034F]) 0).toNat) ∧
    ((⟨0, 0x01EC0089, 0x0555034F⟩ : JackWord) = ⟨opnd (cmd [2, 0, 0x01EC0089, 0x0555034F]) 1, opnd (cmd [2, 0, 0x01EC0089, 0x0555034F]) 2, opnd (cmd [2, 0, 0x01EC0089, 0x0555034F]) 3⟩) ∧
    (resv (⟨0, 0x01EC0089, 0x0555034F⟩ : JackWord).w0 0xF8000000 = false) ∧
    (resv (⟨0, 0x01EC0089, 0x0555034F⟩ : JackWord).w1 0x0FFF0FFF = false) ∧
    (resv (⟨0, 0x01EC0089, 0x0555034F⟩ : JackWord).w2 0x0FFF0FFF = false) ∧
    (fld (⟨0, 0x01EC0089, 0x0555034F⟩ : JackWord).w1 11 0 < fld (⟨0, 0x01EC0089, 0x0555034F⟩ : JackWord).w1 27 16) ∧
    (fld (⟨0, 0x01EC0089, 0x0555034F⟩ : JackWord).w1 27 16 < fld (⟨0, 0x01EC0089, 0x0555034F⟩ : JackWord).w2 11 0) ∧
    (fld (⟨0, 0x01EC0089, 0x0555034F⟩ : JackWord).w2 11 0 < fld (⟨0, 0x01EC0089, 0x0555034F⟩ : JackWord).w2 27 16) ∧
    (fld (⟨0, 0x01EC0089, 0x0555034F⟩ : JackWord).w2 27 16 < 1502) ∧
    (Admitted rowJackCfg (withFlag (cmd [2] (flags := 1)) 0 true) st56) ∧
    (resv (opnd (cmd [2] (flags := 1)) 0) 3 = false) ∧
    (2 = (opnd (cmd [2] (flags := 1)) 0).toNat) ∧
    ((jackRun st56 2).muted = true) ∧
    (Admitted rowMicbias (cmd [0x80]) rn) ∧
    (resv (opnd (cmd [0x80]) 0) 0xFF = false) ∧
    ((∀ n < 4, micMode ((opnd (cmd [0x80]) 0).setWidth 8) n ≠ 3)) ∧
    (3 < 4) ∧
    ((jackRun rn 3).pin ≠ false) ∧
    ((jackWord rn 3).amute = false) ∧
    ((jackRun st57 3).pin = (jackWord st57 3).inv) ∧
    ((jackWord st57 3).en = true) ∧
    ((jackWord st57 3).amute = true) ∧
    ((jackRun st57 3).present = true) ∧
    ((jackRun st57 3).muted = false) ∧
    ((jackRun st58 3).muted = true) ∧
    ((jackRun st58 3).removing = true) ∧
    ((plugSeen st58 3 = true ∨ (8000000 ≤ since st58 (jackRun st58 3).muteAt ∧ since st58 (jackRun st58 3).since < 8000000))) ∧
    (st59.power.st = .run) ∧
    ((jackWord st59 3).en = true) ∧
    (plugSeen st59 3 = true) ∧
    ((jackRun st59 3).present = false) ∧
    (50000000 ≤ since st59 (jackRun st59 3).since) ∧
    (st60.power.st = .run) ∧
    ((jackWord st60 3).en = true) ∧
    (plugSeen st60 3 = false) ∧
    ((jackRun st60 3).present = true) ∧
    (8000000 ≤ since st60 (jackRun st60 3).since) :=
  by and_intros <;> decide +kernel

/-- The hypotheses of JackClassification are met. -/
theorem wit_JackClassification :
    ((jackRun st61 3).step = .waiting) ∧
    (classifyFree st61 = true) ∧
    ((dac st61 (24 + 2 * 3)).phase = .clamped) ∧
    ((dac st61 (25 + 2 * 3)).phase = .clamped) ∧
    (readDue 3 .tip 1000000 st62 = true) ∧
    (2730 < 4096) ∧
    (2731 < 4096) ∧
    (readDue 3 .tip 1000000 st63 = true) ∧
    (545 < 4096) ∧
    (readDue 3 .micA 6000000 st64 = true) ∧
    (readDue 3 .micA 6000000 st65 = true) ∧
    (readDue 3 .micB 6000000 st66 = true) ∧
    (136 < 4096) ∧
    (readDue 3 .micB 6000000 st67 = true) ∧
    (1502 < 4096) ∧
    (st68.power.st = .run) ∧
    ((jackRun st68 3).muted = false) ∧
    ((jackRun st69 3).step ∈ [.tip, .micA, .micB]) ∧
    ((jackRun st69 3).dropped = true) ∧
    (classifyFree st69 = true) ∧
    (10000000 ≤ since st69 (jackRun st69 3).stepAt) ∧
    ((jackRun st70 3).dropped = true) ∧
    (100000 ≤ since st70 (jackRun st70 3).tryAt) ∧
    ((jackRun st70 3).step = .micA) ∧
    (classifyFree st70 = true) ∧
    (5 < 4096) ∧
    ((jackRun st71 3).dropped = true) ∧
    (100000 ≤ since st71 (jackRun st71 3).tryAt) ∧
    ((jackRun st71 3).step = .micA) ∧
    (classifyFree st71 = true) ∧
    ((jackRun st72 3).dropped = true) ∧
    (100000 ≤ since st72 (jackRun st72 3).tryAt) ∧
    ((jackRun st72 3).step = .tip) ∧
    (classifyFree st72 = true) ∧
    ((jackRun st73 3).dropped = true) ∧
    (100000 ≤ since st73 (jackRun st73 3).tryAt) ∧
    ((jackRun st73 3).step = .tip) ∧
    (classifyFree st73 = true) ∧
    ((jackRun st74 3).dropped = true) ∧
    (100000 ≤ since st74 (jackRun st74 3).tryAt) ∧
    ((jackRun st74 3).step = .micB) ∧
    (classifyFree st74 = true) ∧
    ((jackRun st75 3).dropped = true) ∧
    (100000 ≤ since st75 (jackRun st75 3).tryAt) ∧
    ((jackRun st75 3).step = .micB) ∧
    (classifyFree st75 = true) :=
  by and_intros <;> decide +kernel

/-- The hypotheses of JackButtons are met. -/
theorem wit_JackButtons :
    (buttonsOn st76 3 = true) ∧
    (137 < 4096) ∧
    (138 < 4096) ∧
    (buttonsOn st77 3 = true) ∧
    (buttonsOn st78 3 = true) ∧
    (4095 < 4096) ∧
    (st78.power.st = .run) ∧
    ((jackRun st78 3).cnt = 7) ∧
    ((jackRun st78 3).win = buttonWindow (jackWord st78 3) 4095) ∧
    ((jackRun st78 3).pressed = decide (4 ≤ (jackRun st78 3).win)) ∧
    (st79.power.st = .run) ∧
    (buttonsOn st79 3 = true) ∧
    (7 < 4096) ∧
    ((jackRun st79 3).cnt = 7) ∧
    ((jackRun st79 3).win = buttonWindow (jackWord st79 3) 7) ∧
    ((jackRun st79 3).pressed = decide (4 ≤ (jackRun st79 3).win)) ∧
    (buttonsOn st80 3 = true) ∧
    ((jackRun st80 3).cnt ≠ 7) :=
  by decide +kernel

/-- The hypotheses of EmergencyMute are met. -/
theorem wit_EmergencyMute :
    (st81.power.st ≠ .off) ∧
    (st81.power.st ≠ .reset) ∧
    (st81.power.iovddA = true) ∧
    (bit st81.panic.cfg 31 = true) ∧
    (st82.power.st ≠ .off) ∧
    (st82.power.st ≠ .reset) ∧
    (st82.power.iovddA = true) ∧
    (bit st82.panic.cfg 31 = true) ∧
    ((bit rn.panic.cfg 31 = false ∨ rn.power.iovddA = false ∨ rn.power.st = .reset ∨ rn.power.st = .off)) ∧
    ((bit st83.panic.cfg 31 = false ∨ st83.power.iovddA = false ∨ st83.power.st = .reset ∨ st83.power.st = .off)) ∧
    ((∀ n < 4, (jackRun rn n).step = .none ∨ (jackRun rn n).step = .waiting)) ∧
    (1 < 4) ∧
    ((jackRun st84 1).step ∈ [.tip, .micA, .micB]) ∧
    (3 < 34) ∧
    (Admitted rowPanicCfg (withFlag (cmd [0xC0000008]) 0 false) st86) ∧
    (resv (opnd (cmd [0xC0000008]) 0) 0xC000010F = false) ∧
    (st86.panic.latch = true) ∧
    ((st86.power.straps.flash = true → fld (opnd (cmd [0xC0000008]) 0) 3 0 < 8 ∨ 11 < fld (opnd (cmd [0xC0000008]) 0) 3 0)) ∧
    (Admitted rowPanicCfg (withFlag (cmd [0] (flags := 1)) 0 true) rn) ∧
    (opnd (cmd [0] (flags := 1)) 0 = 0) ∧
    (rn.panic.latch = false) ∧
    (Admitted rowPanicCfg (withFlag (cmd [0xC0000008]) 0 false) rn) ∧
    ((rn.power.straps.flash = true → fld (opnd (cmd [0xC0000008]) 0) 3 0 < 8 ∨ 11 < fld (opnd (cmd [0xC0000008]) 0) 3 0)) ∧
    (Admitted rowPanicCfg (withFlag (cmd [0] (flags := 1)) 0 true) st86) ∧
    (st86.panic.level = false) ∧
    (Admitted rowPanicCfg (withFlag (cmd [0] (flags := 1)) 0 true) st87) ∧
    (st87.panic.latch = true) ∧
    (st87.panic.level = true) :=
  by decide +kernel

/-- The hypotheses of SenseConverter are met. -/
theorem wit_SenseConverter :
    (Admitted rowSenseSeq (cmd [3, 0x2005, 0x200F]) rn) ∧
    ((cmd [3, 0x2005, 0x200F]).ops = (3 : Word) :: ([0x2005, 0x200F] : List Word)) ∧
    (resv (3 : Word) 3 = false) ∧
    (([0x2005, 0x200F] : List Word).all (fun e => !entryResv e && !bit e 4) = true) ∧
    (rn.sense.idx = none) ∧
    (Admitted rowSenseStart (cmd []) st88) ∧
    (st88.sense.idx = none) ∧
    (st88.sense.seq ≠ []) ∧
    (Admitted rowSenseNow (cmd [0x2005]) rn) ∧
    (entryResv (opnd (cmd [0x2005]) 0) = false) ∧
    (bit (opnd (cmd [0x2005]) 0) 4 = false) ∧
    (Admitted rowSenseNow (cmd [0x2005]) st89) ∧
    (Admitted rowSenseWatch (cmd [0x0FFF0000]) rn) ∧
    (resv (opnd (cmd [0x0FFF0000]) 0) 0x0FFF0000 = false) ∧
    (senseOn st90 = true) ∧
    (st90.power.padsHeld = false) ∧
    (st90.power.iovddA = true) ∧
    (st90.sense.edge.getLsbD (if true then 0 else 1) = true) ∧
    (st90.sense.idx = none) ∧
    (st90.sense.seq ≠ []) ∧
    (senseOn st91 = true) ∧
    (st91.power.padsHeld = false) ∧
    (st91.power.iovddA = true) ∧
    (st91.sense.edge.getLsbD (if false then 0 else 1) = true) ∧
    (st91.sense.idx = some 0) ∧
    ((st91.power.padsHeld = true ∨ st91.power.iovddA = false ∨ st91.sense.edge.getLsbD (if true then 0 else 1) = false)) ∧
    (st92.sense.idx = some 0) ∧
    (senseOn st92 = true) ∧
    (st92.sense.urgent = false) ∧
    (st92.sense.watchTail = false) ∧
    (st93.sense.idx = some 0) ∧
    (senseOn st93 = true) ∧
    (st93.sense.urgent = false) ∧
    (st93.sense.watchTail = false) ∧
    (3 < 4) ∧
    (4 ≠ 5) ∧
    (senseOn st95 = true) ∧
    (st95.sense.urgent = false) ∧
    (st95.sense.idx = none) ∧
    (st95.sense.scanCh = some 22) ∧
    ((bitsOf st95.sense.scanMask).find? (fun k => decide (22 < k)) = some 23) ∧
    (senseOn st96 = true) ∧
    (st96.sense.urgent = false) ∧
    (st96.sense.idx = none) ∧
    (st96.sense.scanCh = some 22) ∧
    ((bitsOf st96.sense.scanMask).find? (fun k => decide (22 < k)) = none) :=
  by and_intros <;> decide +kernel

/-- The hypotheses of FlowContexts are met. -/
theorem wit_FlowContexts :
    (Admitted rowFlowBind (cmd [0xFF, 0x20000005, 0x00330000, 0, 0]) rn) ∧
    (resv (opnd (cmd [0xFF, 0x20000005, 0x00330000, 0, 0]) 0) 0xFF = false) ∧
    (bindResv (bindQuad (cmd [0xFF, 0x20000005, 0x00330000, 0, 0])) = false) ∧
    (bindRange (opnd (cmd [0xFF, 0x20000005, 0x00330000, 0, 0]) 0).toNat (bindQuad (cmd [0xFF, 0x20000005, 0x00330000, 0, 0])) = false) ∧
    (clashing rn (opnd (cmd [0xFF, 0x20000005, 0x00330000, 0, 0]) 0).toNat (bindQuad (cmd [0xFF, 0x20000005, 0x00330000, 0, 0])) = none) ∧
    (Admitted rowFlowBind (cmd [0xFF, 0x20000005, 0x00330000, 0, 0]) st97) ∧
    (clashing st97 (opnd (cmd [0xFF, 0x20000005, 0x00330000, 0, 0]) 0).toNat (bindQuad (cmd [0xFF, 0x20000005, 0x00330000, 0, 0])) = some 200) ∧
    (Admitted rowFlowUnbind (cmd [200]) st97) ∧
    (resv (opnd (cmd [200]) 0) 0xFF = false) :=
  by decide +kernel

/-- The hypotheses of FlowSamples are met. -/
theorem wit_FlowSamples :
    (((active st98).flow 3).bound = true) ∧
    ((flowRun st98 3).running = true) ∧
    (audioRuns st98 = true) ∧
    (st98.mem.upsets.all (fun u => match u with | .context _ _ | .gain _ _ => false | _ => true) = true) ∧
    (((active st99).flow 3).bound = true) ∧
    ((flowRun st99 3).running = true) ∧
    (audioRuns st99 = true) ∧
    (st99.mem.upsets.all (fun u => match u with | .context _ _ | .gain _ _ => false | _ => true) = true) ∧
    (((active st100).flow 203).bound = true) ∧
    ((flowRun st100 203).running = true) ∧
    (audioRuns st100 = true) ∧
    (st100.mem.upsets.all (fun u => match u with | .context _ _ | .gain _ _ => false | _ => true) = true) ∧
    (((active st101).flow 3).bound = true) ∧
    ((flowRun st101 3).running = true) ∧
    (audioRuns st101 = true) ∧
    (st101.cp.lock = none) ∧
    (contextUpset st101 3 = some (.data : BeatErr)) ∧
    (3 < 128) ∧
    (((active st102).flow 3).bound = true) ∧
    ((flowRun st102 3).running = true) ∧
    (audioRuns st102 = true) ∧
    (0 < (flowRun st102 3).startLeft) ∧
    ((flowRun st102 3).cutNext = false) ∧
    (gHeld st102 = false) ∧
    (st102.mem.upsets = []) ∧
    (st102.cp.lock = none) ∧
    (((active st103).flow 3).bound = true) ∧
    ((flowRun st103 3).running = true) ∧
    (audioRuns st103 = true) ∧
    (0 < (flowRun st103 3).startLeft) ∧
    ((flowRun st103 3).cutNext = false) ∧
    (gHeld st103 = false) ∧
    (st103.mem.upsets = []) ∧
    (st103.cp.lock = none) ∧
    (((active st104).flow 3).kind ∈ [3, 4]) ∧
    (((active st104).flow 3).rel = 0) ∧
    (FlowPlain st104 3) ∧
    ((flowRun st104 3).fifo = (⟨7, 2⟩ : Sample) :: ([] : List Sample)) ∧
    ((flowRun st104 3).delay = []) ∧
    (((active st105).flow 3).kind ∈ [3, 4]) ∧
    (((active st105).flow 3).rel = 0) ∧
    (FlowPlain st105 3) ∧
    ((flowRun st105 3).fifo = (⟨7, 2⟩ : Sample) :: ([⟨8, 0⟩] : List Sample)) ∧
    ((flowRun st105 3).delay = []) ∧
    (((active st106).flow 3).kind ∈ [3, 4]) ∧
    (((active st106).flow 3).rel = 0) ∧
    (FlowPlain st106 3) ∧
    ((flowRun st106 3).fifo = (⟨7, 2⟩ : Sample) :: ([] : List Sample)) ∧
    ((flowRun st106 3).delay = (⟨4, 2⟩ : Sample) :: ([] : List Sample)) ∧
    ((flowRun st106 3).fifoCut = false) ∧
    (((active st107).flow 3).kind ∈ [3, 4]) ∧
    ((((active st107).flow 3).rel = 0 ∨ (flowRun st107 3).stopped = true)) ∧
    (FlowPlain st107 3) ∧
    ((flowRun st107 3).fifo = []) ∧
    ((flowRun st107 3).delay = []) ∧
    ((flowRun st107 3).last = some (⟨9, 2⟩ : Sample)) ∧
    (((active st108).flow 3).kind ∈ [3, 4]) ∧
    ((((active st108).flow 3).rel = 0 ∨ (flowRun st108 3).stopped = true)) ∧
    (FlowPlain st108 3) ∧
    ((flowRun st108 3).fifo = []) ∧
    ((flowRun st108 3).delay = []) ∧
    ((flowRun st108 3).last = some (⟨9, 2⟩ : Sample)) ∧
    (((active st109).flow 3).kind = 1) ∧
    (((active st109).flow 3).rel = 0) ∧
    (FlowPlain st109 3) ∧
    ((flowRun st109 3).delay = []) ∧
    (((active st110).flow 3).kind = 5) ∧
    (((active st110).flow 3).rel = 0) ∧
    (FlowPlain st110 3) ∧
    ((flowRun st110 3).delay = []) ∧
    ((flowRun st110 3).stopped = false) ∧
    (((active st111).flow 3).kind = 5) ∧
    (((active st111).flow 3).rel = 0) ∧
    (FlowPlain st111 3) ∧
    ((flowRun st111 3).delay = []) ∧
    ((flowRun st111 3).stopped = false) ∧
    (((active st112).flow 3).kind = 6) ∧
    (((active st112).flow 3).rel = 0) ∧
    (FlowPlain st112 3) ∧
    ((flowRun st112 3).delay = []) ∧
    ((Machine.core st112 (((active st112).flow 3).ep / 32)).st = .running) ∧
    ((Machine.core st112 (((active st112).flow 3).ep / 32)).shown = some (⟨1, [(3, ⟨6, 2⟩)]⟩ : Version)) ∧
    ((Machine.core st112 (((active st112).flow 3).ep / 32)).shownCut = false) ∧
    ((Machine.core st112 (((active st112).flow 3).ep / 32)).cutFirst = false) ∧
    (((active st113).flow 3).kind = 6) ∧
    (((active st113).flow 3).rel = 0) ∧
    (FlowPlain st113 3) ∧
    ((flowRun st113 3).delay = []) ∧
    ((Machine.core st113 (((active st113).flow 3).ep / 32)).st = .halted) ∧
    (((active st114).flow 3).bound = true) ∧
    (((active st114).flow 3).rel ≠ 0) ∧
    (FlowPlain st114 3) ∧
    ((flowRun st114 3).delay = []) ∧
    ((flowRun st114 3).fifo = []) ∧
    ((flowRun st114 3).stopped = false) ∧
    ((flowRun st114 3).hist ≠ []) ∧
    (((active st114).flow 3).kind ≠ 6) ∧
    (((active st115).flow 3).bound = true) ∧
    (((active st115).flow 3).rel ≠ 0) ∧
    (FlowPlain st115 3) ∧
    ((flowRun st115 3).delay = []) ∧
    ((flowRun st115 3).fifo = []) ∧
    ((flowRun st115 3).stopped = false) ∧
    ((flowRun st115 3).hist ≠ []) ∧
    (((active st115).flow 3).kind ≠ 6) ∧
    (((active st116).flow 3).bound = true) ∧
    (((active st116).flow 3).rel ≠ 0) ∧
    (FlowPlain st116 3) ∧
    ((flowRun st116 3).delay = []) ∧
    ((flowRun st116 3).fifo = []) ∧
    ((flowRun st116 3).stopped = false) ∧
    ((flowRun st116 3).hist ≠ []) ∧
    (((active st116).flow 3).kind ≠ 6) ∧
    (128 ≤ 130) ∧
    (((active st117).flow 130).kind ∈ [2, 3, 4]) ∧
    (((active st117).flow 130).rel = 0) ∧
    ((((active st117).flow 130).kind = 2 → dacTakes st117 ((active st117).flow 130).ep = true)) ∧
    (FlowPlain st117 130) ∧
    ((st117.panic.latch && bit st117.panic.cfg 8) = false) ∧
    ((flowRun st117 130).stopped = false) ∧
    ((flowRun st117 130).delay = []) ∧
    ((flowRun st117 130).muteJ = none) ∧
    ((flowRun st117 130).dig = false) ∧
    (fifoFill st117 (fifoPeers st117 130 ((active st117).flow 130)) < fifoDepth ((active st117).flow 130)) ∧
    (((active st118).flow 130).kind ∈ [2, 3, 4]) ∧
    (((active st118).flow 130).rel = 0) ∧
    ((((active st118).flow 130).kind = 2 → dacTakes st118 ((active st118).flow 130).ep = true)) ∧
    (FlowPlain st118 130) ∧
    ((st118.panic.latch && bit st118.panic.cfg 8) = false) ∧
    ((flowRun st118 130).stopped = false) ∧
    ((flowRun st118 130).delay = []) ∧
    ((flowRun st118 130).muteJ = none) ∧
    ((flowRun st118 130).dig = false) ∧
    (fifoFill st118 (fifoPeers st118 130 ((active st118).flow 130)) < fifoDepth ((active st118).flow 130)) ∧
    (((active st119).flow 130).kind ∈ [2, 3, 4]) ∧
    (((active st119).flow 130).rel = 0) ∧
    ((((active st119).flow 130).kind = 2 → dacTakes st119 ((active st119).flow 130).ep = true)) ∧
    (FlowPlain st119 130) ∧
    ((st119.panic.latch && bit st119.panic.cfg 8) = false) ∧
    ((flowRun st119 130).stopped = false) ∧
    ((flowRun st119 130).delay = []) ∧
    ((flowRun st119 130).muteJ = none) ∧
    ((flowRun st119 130).dig = false) ∧
    (fifoFill st119 (fifoPeers st119 130 ((active st119).flow 130)) < fifoDepth ((active st119).flow 130)) ∧
    (((active st120).flow 130).kind ∈ [3, 4]) ∧
    (((active st120).flow 130).rel = 0) ∧
    (FlowPlain st120 130) ∧
    (st120.panic.latch = true) ∧
    (bit st120.panic.cfg 8 = true) ∧
    (frameRead st120 ((active st120).flow 130) = true) ∧
    ((flowRun st120 130).stopped = false) ∧
    ((flowRun st120 130).delay = []) ∧
    (fifoFill st120 (fifoPeers st120 130 ((active st120).flow 130)) < fifoDepth ((active st120).flow 130)) ∧
    (((active st121).flow 130).kind ∈ [3, 4]) ∧
    (((active st121).flow 130).rel = 0) ∧
    (FlowPlain st121 130) ∧
    (st121.panic.latch = true) ∧
    (bit st121.panic.cfg 8 = true) ∧
    (frameRead st121 ((active st121).flow 130) = true) ∧
    ((flowRun st121 130).stopped = false) ∧
    ((flowRun st121 130).delay = []) ∧
    (fifoFill st121 (fifoPeers st121 130 ((active st121).flow 130)) < fifoDepth ((active st121).flow 130)) ∧
    (((active st122).flow 130).kind = 2) ∧
    (dacTakes st122 ((active st122).flow 130).ep = false) ∧
    (FlowPlain st122 130) ∧
    (((active st123).flow 130).kind ∈ [2, 3, 4]) ∧
    (((active st123).flow 130).rel ≠ 0) ∧
    ((((active st123).flow 130).kind = 2 → dacTakes st123 ((active st123).flow 130).ep = true)) ∧
    (FlowPlain st123 130) ∧
    ((flowRun st123 130).delay = []) ∧
    ((st123.panic.latch && bit st123.panic.cfg 8) = false) ∧
    ((flowRun st123 130).dig = false) ∧
    ((flowRun st123 130).muteJ = none) ∧
    ((flowRun st123 130).stopped = false) ∧
    ((flowRun st123 130).asrcLeft ≤ 1) ∧
    (fifoFill st123 (fifoPeers st123 130 ((active st123).flow 130)) + (flowRun st123 130).ahead.length ≤ fifoDepth ((active st123).flow 130)) ∧
    (((active st124).flow 130).kind ∈ [2, 3, 4]) ∧
    (((active st124).flow 130).rel ≠ 0) ∧
    ((((active st124).flow 130).kind = 2 → dacTakes st124 ((active st124).flow 130).ep = true)) ∧
    (FlowPlain st124 130) ∧
    ((flowRun st124 130).delay = []) ∧
    ((st124.panic.latch && bit st124.panic.cfg 8) = false) ∧
    ((flowRun st124 130).dig = false) ∧
    ((flowRun st124 130).muteJ = none) ∧
    ((flowRun st124 130).stopped = false) ∧
    ((flowRun st124 130).asrcLeft ≤ 1) ∧
    (fifoFill st124 (fifoPeers st124 130 ((active st124).flow 130)) + (flowRun st124 130).ahead.length ≤ fifoDepth ((active st124).flow 130)) ∧
    (((active st125).flow 130).kind ∈ [2, 3, 4]) ∧
    (((active st125).flow 130).rel ≠ 0) ∧
    ((((active st125).flow 130).kind = 2 → dacTakes st125 ((active st125).flow 130).ep = true)) ∧
    (FlowPlain st125 130) ∧
    ((flowRun st125 130).delay = []) ∧
    ((st125.panic.latch && bit st125.panic.cfg 8) = false) ∧
    ((flowRun st125 130).dig = false) ∧
    ((flowRun st125 130).muteJ = none) ∧
    ((flowRun st125 130).stopped = false) ∧
    ((flowRun st125 130).asrcLeft ≤ 1) ∧
    (fifoFill st125 (fifoPeers st125 130 ((active st125).flow 130)) + (flowRun st125 130).ahead.length ≤ fifoDepth ((active st125).flow 130)) ∧
    (((active st126).flow 130).kind ∈ [2, 3, 4]) ∧
    (((active st126).flow 130).rel ≠ 0) ∧
    ((((active st126).flow 130).kind = 2 → dacTakes st126 ((active st126).flow 130).ep = true)) ∧
    (FlowPlain st126 130) ∧
    ((flowRun st126 130).delay = []) ∧
    ((st126.panic.latch && bit st126.panic.cfg 8) = false) ∧
    ((flowRun st126 130).dig = false) ∧
    ((flowRun st126 130).muteJ = none) ∧
    ((flowRun st126 130).stopped = false) ∧
    ((flowRun st126 130).asrcLeft ≤ 1) ∧
    (fifoFill st126 (fifoPeers st126 130 ((active st126).flow 130)) + (flowRun st126 130).ahead.length ≤ fifoDepth ((active st126).flow 130)) ∧
    ((flowRun st127 130).fifo = (⟨3, 2⟩ : Sample) :: ([⟨4, 0⟩] : List Sample)) ∧
    ((flowRun st128 130).fifo = []) ∧
    ((flowRun st128 130).ahead = (⟨3, 2⟩ : Sample) :: ([⟨4, 0⟩] : List Sample)) ∧
    ((flowRun st128 130).stopped = false) ∧
    (fifoFill st128 (fifoPeers st128 130 ((active st128).flow 130)) < fifoDepth ((active st128).flow 130)) ∧
    ((flowRun st129 130).fifo = []) ∧
    ((flowRun st129 130).ahead = []) ∧
    ((flowRun st129 130).last = some (⟨3, 2⟩ : Sample)) ∧
    ((flowRun st130 130).fifo = []) ∧
    ((flowRun st130 130).ahead = []) ∧
    ((flowRun st130 130).last = some (⟨3, 2⟩ : Sample)) ∧
    ((flowRun st131 130).fifo = []) ∧
    ((flowRun st131 130).ahead = []) ∧
    ((flowRun st131 130).last = none) ∧
    ((flowRun st131 130).begun = false) ∧
    ((flowRun st132 130).fifo = []) ∧
    ((flowRun st132 130).ahead = []) ∧
    ((flowRun st132 130).last = none) ∧
    ((flowRun st132 130).begun = false) ∧
    (((active st133).flow 130).kind = 6) ∧
    (((active st133).flow 130).rel = 0) ∧
    (1 = ((active st133).flow 130).ep / 32) ∧
    (FlowPlain st133 130) ∧
    ((flowRun st133 130).delay = []) ∧
    ((flowRun st133 130).muteJ = none) ∧
    ((flowRun st133 130).dig = false) ∧
    ((flowRun st133 130).pos + 1 < 16) :=
  by and_intros <;> decide +kernel

/-- The hypotheses of TdmPorts are met. -/
theorem wit_TdmPorts :
    (Admitted rowTdmCfg (cmd [2, 0xC033D000]) rn) ∧
    (resv (opnd (cmd [2, 0xC033D000]) 0) 3 = false) ∧
    (resv (opnd (cmd [2, 0xC033D000]) 1) 0xFFFFFFE0 = false) ∧
    (fld (opnd (cmd [2, 0xC033D000]) 1) 29 28 ≠ 3) ∧
    (fld (opnd (cmd [2, 0xC033D000]) 1) 14 13 ≠ 3) ∧
    (fld (opnd (cmd [2, 0xC033D000]) 1) 12 11 ≠ 3) ∧
    (tdmRate (opnd (cmd [2, 0xC033D000]) 1) ≠ 15) ∧
    (tdmRange rn (opnd (cmd [2, 0xC033D000]) 1) = false) ∧
    (tdmInUse rn (opnd (cmd [2, 0xC033D000]) 0).toNat (opnd (cmd [2, 0xC033D000]) 1) = none) ∧
    (tdmEn (tdm st134 3).cfg = true) ∧
    (tdmMaster (tdm st134 3).cfg = true) ∧
    ((tdm st134 3).st ≠ .running) ∧
    (masterFree st134 = true) ∧
    (gridRuns st134 = true) ∧
    (3 < 4) ∧
    (tdmEn (tdm st135 3).cfg = true) ∧
    (tdmMaster (tdm st135 3).cfg = false) ∧
    (st135.power.iovddA = true) ∧
    (st135.power.padsHeld = false) ∧
    (inSafe st135 = false) ∧
    (5 ≠ tdmSlots (tdm st135 3).cfg * tdmWidth (tdm st135 3).cfg) ∧
    (tdmEn (tdm st136 3).cfg = true) ∧
    (tdmMaster (tdm st136 3).cfg = false) ∧
    (st136.power.iovddA = true) ∧
    (st136.power.padsHeld = false) ∧
    (inSafe st136 = false) ∧
    ((tdm st136 3).st ≠ .running) ∧
    (3 ≤ 15) ∧
    (st136.clk.ref.toNat < 2) ∧
    (tdmEn (tdm st137 3).cfg = true) ∧
    (tdmMaster (tdm st137 3).cfg = false) ∧
    (st137.power.iovddA = true) ∧
    (st137.power.padsHeld = false) ∧
    (inSafe st137 = false) ∧
    ((tdm st137 3).st ≠ .running) ∧
    (15 ≤ 15) ∧
    (st137.clk.ref.toNat < 2) ∧
    (tdmEn (tdm st138 3).cfg = true) ∧
    (tdmMaster (tdm st138 3).cfg = false) ∧
    (st138.power.iovddA = true) ∧
    (st138.power.padsHeld = false) ∧
    (inSafe st138 = false) ∧
    ((tdm st138 3).st = .running) ∧
    (tdmEn (tdm st139 3).cfg = true) ∧
    (tdmMaster (tdm st139 3).cfg = true) ∧
    ((tdm st139 3).st = .running) ∧
    (masterFree st139 = true) ∧
    (st139.power.iovddA = true) ∧
    (runningFlows st140 (fun g q => decide (g < 128) && tdmFlow 3 q) = [1]) ∧
    (((active st140).flow 1).fmt = 0) ∧
    (fifoFill st140 (fifoPeers st140 1 ((active st140).flow 1)) < fifoDepth ((active st140).flow 1)) ∧
    (tdmEn (tdm st141 3).cfg = true) ∧
    ((tdm st141 3).st = .running) ∧
    (running st141 = true) ∧
    (st141.power.padsHeld = false) ∧
    ((tdmMaster (tdm st141 3).cfg = true → masterFree st141 = true)) ∧
    ((runningFlows st141 (fun g q => decide (128 ≤ g) && tdmFlow 3 q && q.ep % 32 == 1)).head? = some 129) ∧
    (runningFlows st142 (fun g q => decide (128 ≤ g) && tdmFlow 3 q && q.ep % 32 == 2) = []) ∧
    ((bit (tdm st142 3).cfg 10 = false ∨ 2 ≠ fld (tdm st142 3).cfg 9 5)) ∧
    (tdmEn (tdm st140 3).cfg = true) ∧
    (tdmMaster (tdm st140 3).cfg = false) ∧
    ((tdm st140 3).st ≠ .off) ∧
    (st140.clk.ref.toNat < 2) :=
  by and_intros <;> decide +kernel

/-- The hypotheses of Aes3PdmAndTrackers are met. -/
theorem wit_Aes3PdmAndTrackers :
    (Admitted rowAesCfg (cmd [1, 0x80000100]) rn) ∧
    (resv (opnd (cmd [1, 0x80000100]) 0) 3 = false) ∧
    (resv (opnd (cmd [1, 0x80000100]) 1) 0x80F00300 = false) ∧
    ((opnd (cmd [1, 0x80000100]) 0).toNat < 2) ∧
    (fld (opnd (cmd [1, 0x80000100]) 1) 23 20 = 0) ∧
    (bit (opnd (cmd [1, 0x80000100]) 1) 9 = false) ∧
    (lowestFlow (active rn) (fun f_ q => q.kind == 4 && aesUnit f_ q == (opnd (cmd [1, 0x80000100]) 0).toNat) = none) ∧
    (Admitted rowAesCfg (cmd [1, 0]) rn) ∧
    (resv (opnd (cmd [1, 0]) 0) 3 = false) ∧
    (resv (opnd (cmd [1, 0]) 1) 0x80F00300 = false) ∧
    ((opnd (cmd [1, 0]) 0).toNat < 2) ∧
    (fld (opnd (cmd [1, 0]) 1) 23 20 = 0) ∧
    (bit (opnd (cmd [1, 0]) 1) 9 = false) ∧
    (lowestFlow (active rn) (fun f_ q => q.kind == 4 && aesUnit f_ q == (opnd (cmd [1, 0]) 0).toNat) = none) ∧
    (Admitted rowAesCfg (cmd [3, 0x80200100]) rn) ∧
    (resv (opnd (cmd [3, 0x80200100]) 0) 3 = false) ∧
    (resv (opnd (cmd [3, 0x80200100]) 1) 0x80F00300 = false) ∧
    (2 ≤ (opnd (cmd [3, 0x80200100]) 0).toNat) ∧
    (fld (opnd (cmd [3, 0x80200100]) 1) 23 20 ∈ [2, 3, 4, 5, 10, 11, 12]) ∧
    (rateInUse rn (fld (opnd (cmd [3, 0x80200100]) 1) 23 20) = true) ∧
    (lowestFlow (active rn) (fun f_ q => q.kind == 4 && aesUnit f_ q == (opnd (cmd [3, 0x80200100]) 0).toNat) = none) ∧
    ((aesRx st143 1).st = .acquiring) ∧
    (st143.power.padsHeld = false) ∧
    (st143.power.iovddA = true) ∧
    (inSafe st143 = false) ∧
    ((true = true → 32000 ≤ rateHz 3 ∧ rateHz 3 ≤ 192000)) ∧
    ((∀ f ∈ runningFlows st143 (fun f_ q => decide (f_ < 128) && aesIn 1 q && q.rel != 2), ((active st143).flow f).epRate = if true then min 3 15 else 15)) ∧
    (st143.clk.ref.toNat < 2) ∧
    (((aesRx st144 1).st = .locked ∨ (aesRx st144 1).st = .mismatch)) ∧
    (st144.clk.ref.toNat < 2) ∧
    ((aesRx st145 1).st = .locked) ∧
    (runningFlows st145 (fun k q => decide (k < 128) && q.kind == 4 && q.ep == 2 * 1 + 1 % 2 && !aesOff st145 1 q) = [1]) ∧
    (bit (aesCfg st145 1) 8 = true) ∧
    (fifoFill st145 (fifoPeers st145 1 ((active st145).flow 1)) < fifoDepth ((active st145).flow 1)) ∧
    ((aesRx st146 1).st = .locked) ∧
    (([0, 0, 0, 0, 0, 0]).length = 6) ∧
    (((blockByte ([0, 0, 0, 0, 0, 0]) 0).getLsbD 0 = true → blockCrcc ([0, 0, 0, 0, 0, 0]) = (blockByte ([0, 0, 0, 0, 0, 0]) 23).toNat)) ∧
    (([0x01000000, 0, 0, 0, 0, 0]).length = 6) ∧
    ((blockByte ([0x01000000, 0, 0, 0, 0, 0]) 0).getLsbD 0 = true) ∧
    (blockCrcc ([0x01000000, 0, 0, 0, 0, 0]) ≠ (blockByte ([0x01000000, 0, 0, 0, 0, 0]) 23).toNat) ∧
    (Admitted rowAesCs (withField (cmd [1]) 31 31 0) st147) ∧
    ((1 : Word) = opnd (withField (cmd [1]) 31 31 0) 0) ∧
    (resv (1 : Word) 0x80000013 = false) ∧
    (bit (1 : Word) 31 = false) ∧
    (fld (1 : Word) 1 0 < 2) ∧
    ((if bit (1 : Word) 4 then (aesRx st147 (fld (1 : Word) 1 0)).blkB else (aesRx st147 (fld (1 : Word) 1 0)).blkA) = some ([1, 2, 3, 4, 5, 6] : List Word)) ∧
    (Admitted rowAesCs (withField (cmd [0x13]) 31 31 0) rn) ∧
    ((0x13 : Word) = opnd (withField (cmd [0x13]) 31 31 0) 0) ∧
    (resv (0x13 : Word) 0x80000013 = false) ∧
    (bit (0x13 : Word) 31 = false) ∧
    (2 ≤ fld (0x13 : Word) 1 0) ∧
    (Admitted rowAesCs (withField (cmd [0x13, 1, 2, 3, 4, 5, 6]) 31 31 1) rn) ∧
    ((0x80000013 : Word) = opnd (withField (cmd [0x13, 1, 2, 3, 4, 5, 6]) 31 31 1) 0) ∧
    (resv (0x80000013 : Word) 0x80000013 = false) ∧
    (bit (0x80000013 : Word) 31 = true) ∧
    (2 ≤ fld (0x80000013 : Word) 1 0) ∧
    (bit (aesCfg st148 (2 + 1)) 31 = true) ∧
    (1 < 2) ∧
    (masterFree st148 = true) ∧
    (gridRuns st148 = true) ∧
    (Admitted rowPdmCfg (cmd [1, 0x80202000]) rn) ∧
    (resv (opnd (cmd [1, 0x80202000]) 0) 1 = false) ∧
    (resv (opnd (cmd [1, 0x80202000]) 1) 0x80F03100 = false) ∧
    (fld (opnd (cmd [1, 0x80202000]) 1) 13 12 ≠ 3) ∧
    (rateInUse rn (fld (opnd (cmd [1, 0x80202000]) 1) 23 20) = true) ∧
    (rateHz (fld (opnd (cmd [1, 0x80202000]) 1) 23 20) ≤ pdmLimit rn (opnd (cmd [1, 0x80202000]) 1)) ∧
    (lowestFlow (active rn) (fun _ q => q.kind == 5 && q.ep / 4 == (opnd (cmd [1, 0x80202000]) 0).toNat) = none) ∧
    (Admitted rowPdmCfg (cmd [1, 0x00202000]) st149) ∧
    (resv (opnd (cmd [1, 0x00202000]) 0) 1 = false) ∧
    (resv (opnd (cmd [1, 0x00202000]) 1) 0x80F03100 = false) ∧
    (fld (opnd (cmd [1, 0x00202000]) 1) 13 12 ≠ 3) ∧
    (rateInUse st149 (fld (opnd (cmd [1, 0x00202000]) 1) 23 20) = true) ∧
    (rateHz (fld (opnd (cmd [1, 0x00202000]) 1) 23 20) ≤ pdmLimit st149 (opnd (cmd [1, 0x00202000]) 1)) ∧
    (lowestFlow (active st149) (fun _ q => q.kind == 5 && q.ep / 4 == (opnd (cmd [1, 0x00202000]) 0).toNat) = none) ∧
    (bit (pdmCfg st150 1) 31 = true) ∧
    ((tget ({} : PdmRun) st150.ports.pdmRun 1).running = false) ∧
    (masterFree st150 = true) ∧
    (gridRuns st150 = true) ∧
    (3 < 6) ∧
    (trackerUsed st151 3 = true) ∧
    (sourceOn st151 3 = true) ∧
    ((tracker st152 3).locked = true) :=
  by and_intros <;> decide +kernel

/-- The hypotheses of WordSyllables are met. -/
theorem wit_WordSyllables :
    (predOk st153 (.sc 1 : Site) (⟨false, 1⟩ : Pred) = true) ∧
    (registerUpset st153 (.sc 1 : Site) = none) ∧
    (predOk st154 (.cp : Site) (⟨false, 1⟩ : Pred) = true) ∧
    (registerUpset st154 (.cp : Site) = none) ∧
    (predOk st153 (.sc (1 : Fin 4)) (⟨false, 1⟩ : Pred) = true) ∧
    (registerUpset st153 (.sc (1 : Fin 4)) = none) ∧
    (pReg st153 (.sc 1 : Site) (1 : BitVec 3).toNat = true) ∧
    (pReg st154 (.cp : Site) (1 : BitVec 3).toNat = true) :=
  by decide +kernel

/-- The hypotheses of PredicateAndTagSyllables are met. -/
theorem wit_PredicateAndTagSyllables :
    (predOk st153 (.sc 1 : Site) (⟨false, 1⟩ : Pred) = true) ∧
    (registerUpset st153 (.sc 1 : Site) = none) ∧
    (predOk st154 (.cp : Site) (⟨false, 1⟩ : Pred) = true) ∧
    (registerUpset st154 (.cp : Site) = none) :=
  by decide +kernel

/-- The hypotheses of AccumulatorSyllables are met. -/
theorem wit_AccumulatorSyllables :
    (predOk st153 (.sc (1 : Fin 4)) (⟨false, 1⟩ : Pred) = true) ∧
    (registerUpset st153 (.sc (1 : Fin 4)) = none) ∧
    ((8 : BitVec 5).toNat ≤ 8) ∧
    ((0 : BitVec 5).toNat ≤ 8) :=
  by decide +kernel

/-- The hypotheses of LoadSyllables are met. -/
theorem wit_LoadSyllables :
    (predOk st153 (.sc 1 : Site) (⟨false, 1⟩ : Pred) = true) ∧
    (registerUpset st153 (.sc 1 : Site) = none) ∧
    ((aPram 1 + 0x10000 + 28) = stateAddr (.sc 1 : Site) ((gReg st153 (.sc 1 : Site) (3 : BitVec 5).toNat).val.toNat + (2 : BitVec 10).toNat)) ∧
    ((aPram 1 + 0x10000 + 28) ∉ st153.mem.bad) ∧
    (predOk st154 (.cp : Site) (⟨false, 1⟩ : Pred) = true) ∧
    (registerUpset st154 (.cp : Site) = none) ∧
    ((aCpram + 28) = stateAddr (.cp : Site) ((gReg st154 (.cp : Site) (3 : BitVec 5).toNat).val.toNat + (2 : BitVec 10).toNat)) ∧
    ((aCpram + 28) ∉ st154.mem.bad) ∧
    ((aPram 1 + 0x10000 + 32) = stateAddr (.sc 1 : Site) ((gReg st153 (.sc 1 : Site) (3 : BitVec 5).toNat).val.toNat + (2 : BitVec 10).toNat + 1)) ∧
    ((aPram 1 + 0x10000 + 32) ∉ st153.mem.bad) ∧
    ((aCpram + 32) = stateAddr (.cp : Site) ((gReg st154 (.cp : Site) (3 : BitVec 5).toNat).val.toNat + (2 : BitVec 10).toNat + 1)) ∧
    ((aCpram + 32) ∉ st154.mem.bad) ∧
    (predOk st153 (.sc (1 : Fin 4)) (⟨false, 1⟩ : Pred) = true) ∧
    (registerUpset st153 (.sc (1 : Fin 4)) = none) ∧
    (7 = (gReg st153 (.sc (1 : Fin 4)) (3 : BitVec 5).toNat).val.toNat + (2 : BitVec 10).toNat) ∧
    (beatUpset (1 : Fin 4).val st153 = none) ∧
    (aPage (1 : Fin 4).val st153.sets.selB + 4 * (7 % 4096) ∉ st153.mem.bad) ∧
    (coefAddr st153 (.sc (1 : Fin 4)) 7 ∉ st153.mem.bad) ∧
    (coefAddr st153 (.sc (1 : Fin 4)) (7 + 1) ∉ st153.mem.bad) ∧
    (1028 = (gReg st153 (.sc (1 : Fin 4)) (3 : BitVec 5).toNat).val.toNat + (1023 : BitVec 10).toNat) ∧
    (delayAddr (delaySlot st153 (.sc (1 : Fin 4))) 1028 = some (aCore + 9 * 4096 + 16)) ∧
    ((aCore + 9 * 4096 + 16) ∉ st153.mem.bad) ∧
    (pllbUnlocked st153 = false) ∧
    (predOk st155 (.sc (1 : Fin 4)) (⟨false, 1⟩ : Pred) = true) ∧
    (registerUpset st155 (.sc (1 : Fin 4)) = none) ∧
    (1028 = (gReg st155 (.sc (1 : Fin 4)) (3 : BitVec 5).toNat).val.toNat + (1023 : BitVec 10).toNat) ∧
    (beatUpset (1 : Fin 4).val st155 = none) ∧
    (delayAddr (delaySlot st155 (.sc (1 : Fin 4))) 1028 = none) ∧
    (pllbUnlocked st155 = false) ∧
    (predOk st156 (.sc (1 : Fin 4)) (⟨false, 1⟩ : Pred) = true) ∧
    (pllbUnlocked st156 = true) ∧
    (predOk st157 (.sc (1 : Fin 4)) (⟨false, 1⟩ : Pred) = true) ∧
    (registerUpset st157 (.sc (1 : Fin 4)) = none) ∧
    (5 = (gReg st157 (.sc (1 : Fin 4)) (3 : BitVec 5).toNat).val.toNat % 32) ∧
    (0 = ((gReg st157 (.sc (1 : Fin 4)) (2 : BitVec 5).toNat).val.toNat + (0 : BitVec 5).toNat) % 16) ∧
    (sendLost st157 (.sc (1 : Fin 4)) (16 * 5 + 0) = false) ∧
    (bit ((active st157).bind (1 : Fin 4).val).sends 5 = true) ∧
    (5 = (gReg st153 (.sc (1 : Fin 4)) (3 : BitVec 5).toNat).val.toNat % 32) ∧
    (0 = ((gReg st153 (.sc (1 : Fin 4)) (2 : BitVec 5).toNat).val.toNat + (0 : BitVec 5).toNat) % 16) ∧
    (sendLost st153 (.sc (1 : Fin 4)) (16 * 5 + 0) = false) ∧
    (bit ((active st153).bind (1 : Fin 4).val).sends 5 = false) :=
  by and_intros <;> decide +kernel

/-- The hypotheses of StoreSyllables are met. -/
theorem wit_StoreSyllables :
    (predOk st153 (.sc (1 : Fin 4)) (⟨false, 1⟩ : Pred) = true) ∧
    (registerUpset st153 (.sc (1 : Fin 4)) = none) ∧
    (7 = (gReg st153 (.sc (1 : Fin 4)) (3 : BitVec 5).toNat).val.toNat + (2 : BitVec 10).toNat) ∧
    ((aPram 1 + 0x10000 + 28) = stateAddr (.sc (1 : Fin 4)) 7) ∧
    ((⟨0x80000000, 3⟩ : Reg) = gReg st153 (.sc (1 : Fin 4)) (2 : BitVec 5).toNat) ∧
    ((aPram 1 + 0x10000 + 32) = stateAddr (.sc (1 : Fin 4)) (7 + 1)) ∧
    ((⟨5, 10⟩ : Reg) = gReg st153 (.sc (1 : Fin 4)) ((2 : BitVec 5) + 1).toNat) ∧
    ((rn.mem.setWord (aPram 1 + 0x10000 + 28) 0x80000000 2) = st153.mem.setWord (aPram 1 + 0x10000 + 28) (⟨0x80000000, 3⟩ : Reg).val ((⟨0x80000000, 3⟩ : Reg).tag &&& 0b1110#4)) ∧
    (predOk st154 .cp (⟨false, 1⟩ : Pred) = true) ∧
    (registerUpset st154 .cp = none) ∧
    ((aCpram + 28) = stateAddr .cp ((gReg st154 .cp (3 : BitVec 5).toNat).val.toNat + (2 : BitVec 10).toNat)) ∧
    ((aCpram + 32) = stateAddr .cp ((gReg st154 .cp (3 : BitVec 5).toNat).val.toNat + (2 : BitVec 10).toNat + 1)) ∧
    (1028 = (gReg st153 (.sc (1 : Fin 4)) (3 : BitVec 5).toNat).val.toNat + (1023 : BitVec 10).toNat) ∧
    (delayAddr (delaySlot st153 (.sc (1 : Fin 4))) 1028 = some (aCore + 9 * 4096 + 16)) ∧
    (beatUpset (1 : Fin 4).val st153 = none) ∧
    (pllbUnlocked st153 = false) ∧
    (predOk st155 (.sc (1 : Fin 4)) (⟨false, 1⟩ : Pred) = true) ∧
    ((delaySlot st155 (.sc (1 : Fin 4))).pages = []) ∧
    (pllbUnlocked st155 = false) ∧
    (5 = (gReg st153 (.sc (1 : Fin 4)) (3 : BitVec 5).toNat).val.toNat % 32) ∧
    (0 = ((gReg st153 (.sc (1 : Fin 4)) (2 : BitVec 5).toNat).val.toNat + (0 : BitVec 5).toNat) % 16) ∧
    (predOk st158 (.sc (1 : Fin 4)) (⟨false, 1⟩ : Pred) = true) ∧
    (registerUpset st158 (.sc (1 : Fin 4)) = none) ∧
    (5 = (gReg st158 (.sc (1 : Fin 4)) (3 : BitVec 5).toNat).val.toNat % 32) ∧
    (0 = ((gReg st158 (.sc (1 : Fin 4)) (2 : BitVec 5).toNat).val.toNat + (0 : BitVec 5).toNat) % 16) ∧
    ((⟨0x80000000, 3⟩ : Reg) = gReg st158 (.sc (1 : Fin 4)) (2 : BitVec 5).toNat) :=
  by decide +kernel

/-- The hypotheses of ControlSyllables are met. -/
theorem wit_ControlSyllables :
    (predOk st153 (.sc 1 : Site) (⟨false, 1⟩ : Pred) = true) ∧
    (registerUpset st153 (.sc 1 : Site) = none) ∧
    ((regs st153 (.sc 1 : Site)).calls.length < callDepth (.sc 1 : Site)) ∧
    (predOk st154 (.cp : Site) (⟨false, 1⟩ : Pred) = true) ∧
    (registerUpset st154 (.cp : Site) = none) ∧
    ((regs st154 (.cp : Site)).calls.length < callDepth (.cp : Site)) ∧
    ((regs st153 (.sc 1 : Site)).calls = 40 :: ([] : List Nat)) ∧
    ((regs st154 (.cp : Site)).calls = 40 :: ([] : List Nat)) ∧
    (4 = min (gReg st153 (.sc 1 : Site) (3 : BitVec 5).toNat).val.toInt.toNat (2 ^ (2 : BitVec 4).toNat)) ∧
    (4 ≠ 0) ∧
    ((regs st153 (.sc 1 : Site)).loops.length < 2) ∧
    (4 = min (gReg st154 (.cp : Site) (3 : BitVec 5).toNat).val.toInt.toNat (2 ^ (2 : BitVec 4).toNat)) ∧
    ((regs st154 (.cp : Site)).loops.length < 2) ∧
    ((gReg st153 (.sc 1 : Site) (2 : BitVec 5).toNat).val.toInt ≤ 0) ∧
    ((gReg st154 (.cp : Site) (2 : BitVec 5).toNat).val.toInt ≤ 0) ∧
    ((gReg st153 (.sc 1 : Site) (0 : BitVec 5).toNat).val.toInt ≤ 0) ∧
    ((gReg st154 (.cp : Site) (0 : BitVec 5).toNat).val.toInt ≤ 0) ∧
    ((1 : BitVec 9) ≠ 0) ∧
    (registerUpset st153 (.sc (1 : Fin 4)) = none) :=
  by decide +kernel

/-- The hypotheses of SkippedSyllables are met. -/
theorem wit_SkippedSyllables :
    (predOk st153 (.sc 1 : Site) (⟨true, 1⟩ : Pred) = false) ∧
    ((Instr.ret (.sc 1) ⟨true, 1⟩) ∈ [Instr.add (.sc 1 : Site) (⟨true, 1⟩ : Pred) (5 : BitVec 5) (2 : BitVec 5) (3 : BitVec 5), .adds (.sc 1 : Site) (⟨true, 1⟩ : Pred) (5 : BitVec 5) (2 : BitVec 5) (3 : BitVec 5), .sub (.sc 1 : Site) (⟨true, 1⟩ : Pred) (5 : BitVec 5) (2 : BitVec 5) (3 : BitVec 5), .subs (.sc 1 : Site) (⟨true, 1⟩ : Pred) (5 : BitVec 5) (2 : BitVec 5) (3 : BitVec 5), .and (.sc 1 : Site) (⟨true, 1⟩ : Pred) (5 : BitVec 5) (2 : BitVec 5) (3 : BitVec 5), .or (.sc 1 : Site) (⟨true, 1⟩ : Pred) (5 : BitVec 5) (2 : BitVec 5) (3 : BitVec 5), .xor (.sc 1 : Site) (⟨true, 1⟩ : Pred) (5 : BitVec 5) (2 : BitVec 5) (3 : BitVec 5), .shl (.sc 1 : Site) (⟨true, 1⟩ : Pred) (5 : BitVec 5) (2 : BitVec 5) (1 : BitVec 5), .shr (.sc 1 : Site) (⟨true, 1⟩ : Pred) (5 : BitVec 5) (2 : BitVec 5) (1 : BitVec 5), .sar (.sc 1 : Site) (⟨true, 1⟩ : Pred) (5 : BitVec 5) (2 : BitVec 5) (1 : BitVec 5), .shls (.sc 1 : Site) (⟨true, 1⟩ : Pred) (5 : BitVec 5) (2 : BitVec 5) (1 : BitVec 5), .min (.sc 1 : Site) (⟨true, 1⟩ : Pred) (5 : BitVec 5) (2 : BitVec 5) (3 : BitVec 5), .max (.sc 1 : Site) (⟨true, 1⟩ : Pred) (5 : BitVec 5) (2 : BitVec 5) (3 : BitVec 5), .abs (.sc 1 : Site) (⟨true, 1⟩ : Pred) (5 : BitVec 5) (2 : BitVec 5), .sel (.sc 1 : Site) (⟨true, 1⟩ : Pred) (5 : BitVec 5) (2 : BitVec 5) (3 : BitVec 5) (1 : BitVec 3), .addi (.sc 1 : Site) (⟨true, 1⟩ : Pred) (5 : BitVec 5) (2 : BitVec 5) (1 : BitVec 10), .cmplt (.sc 1 : Site) (⟨true, 1⟩ : Pred) (1 : BitVec 3) (2 : BitVec 5) (3 : BitVec 5), .cmple (.sc 1 : Site) (⟨true, 1⟩ : Pred) (1 : BitVec 3) (2 : BitVec 5) (3 : BitVec 5), .cmpeq (.sc 1 : Site) (⟨true, 1⟩ : Pred) (1 : BitVec 3) (2 : BitVec 5) (3 : BitVec 5), .tstt (.sc 1 : Site) (⟨true, 1⟩ : Pred) (1 : BitVec 3) (2 : BitVec 5) (1 : BitVec 4), .pand (.sc 1 : Site) (⟨true, 1⟩ : Pred) (1 : BitVec 3) (2 : BitVec 3) (3 : BitVec 3), .por (.sc 1 : Site) (⟨true, 1⟩ : Pred) (1 : BitVec 3) (2 : BitVec 3) (3 : BitVec 3), .pnot (.sc 1 : Site) (⟨true, 1⟩ : Pred) (1 : BitVec 3) (2 : BitVec 3), .tags (.sc 1 : Site) (⟨true, 1⟩ : Pred) (5 : BitVec 5) (2 : BitVec 5) (2 : BitVec 3), .tagc (.sc 1 : Site) (⟨true, 1⟩ : Pred) (5 : BitVec 5) (2 : BitVec 5) (2 : BitVec 3), .tagr (.sc 1 : Site) (⟨true, 1⟩ : Pred) (5 : BitVec 5) (2 : BitVec 5), .tagw (.sc 1 : Site) (⟨true, 1⟩ : Pred) (5 : BitVec 5) (2 : BitVec 5) (3 : BitVec 5), .ldw (.sc 1 : Site) (⟨true, 1⟩ : Pred) (5 : BitVec 5) (2 : BitVec 5) (1 : BitVec 10), .ldw2 (.sc 1 : Site) (⟨true, 1⟩ : Pred) (5 : BitVec 5) (2 : BitVec 5) (1 : BitVec 10), .stw (.sc 1 : Site) (⟨true, 1⟩ : Pred) (5 : BitVec 5) (2 : BitVec 5) (1 : BitVec 10), .stw2 (.sc 1 : Site) (⟨true, 1⟩ : Pred) (5 : BitVec 5) (2 : BitVec 5) (1 : BitVec 10), .br (.sc 1 : Site) (⟨true, 1⟩ : Pred) (5 : BitVec 11), .call (.sc 1 : Site) (⟨true, 1⟩ : Pred) (5 : BitVec 11), .ret (.sc 1 : Site) (⟨true, 1⟩ : Pred)]) ∧
    (predOk st154 (.cp : Site) (⟨true, 1⟩ : Pred) = false) ∧
    ((Instr.ret (.cp) ⟨true, 1⟩) ∈ [Instr.add (.cp : Site) (⟨true, 1⟩ : Pred) (5 : BitVec 5) (2 : BitVec 5) (3 : BitVec 5), .adds (.cp : Site) (⟨true, 1⟩ : Pred) (5 : BitVec 5) (2 : BitVec 5) (3 : BitVec 5), .sub (.cp : Site) (⟨true, 1⟩ : Pred) (5 : BitVec 5) (2 : BitVec 5) (3 : BitVec 5), .subs (.cp : Site) (⟨true, 1⟩ : Pred) (5 : BitVec 5) (2 : BitVec 5) (3 : BitVec 5), .and (.cp : Site) (⟨true, 1⟩ : Pred) (5 : BitVec 5) (2 : BitVec 5) (3 : BitVec 5), .or (.cp : Site) (⟨true, 1⟩ : Pred) (5 : BitVec 5) (2 : BitVec 5) (3 : BitVec 5), .xor (.cp : Site) (⟨true, 1⟩ : Pred) (5 : BitVec 5) (2 : BitVec 5) (3 : BitVec 5), .shl (.cp : Site) (⟨true, 1⟩ : Pred) (5 : BitVec 5) (2 : BitVec 5) (1 : BitVec 5), .shr (.cp : Site) (⟨true, 1⟩ : Pred) (5 : BitVec 5) (2 : BitVec 5) (1 : BitVec 5), .sar (.cp : Site) (⟨true, 1⟩ : Pred) (5 : BitVec 5) (2 : BitVec 5) (1 : BitVec 5), .shls (.cp : Site) (⟨true, 1⟩ : Pred) (5 : BitVec 5) (2 : BitVec 5) (1 : BitVec 5), .min (.cp : Site) (⟨true, 1⟩ : Pred) (5 : BitVec 5) (2 : BitVec 5) (3 : BitVec 5), .max (.cp : Site) (⟨true, 1⟩ : Pred) (5 : BitVec 5) (2 : BitVec 5) (3 : BitVec 5), .abs (.cp : Site) (⟨true, 1⟩ : Pred) (5 : BitVec 5) (2 : BitVec 5), .sel (.cp : Site) (⟨true, 1⟩ : Pred) (5 : BitVec 5) (2 : BitVec 5) (3 : BitVec 5) (1 : BitVec 3), .addi (.cp : Site) (⟨true, 1⟩ : Pred) (5 : BitVec 5) (2 : BitVec 5) (1 : BitVec 10), .cmplt (.cp : Site) (⟨true, 1⟩ : Pred) (1 : BitVec 3) (2 : BitVec 5) (3 : BitVec 5), .cmple (.cp : Site) (⟨true, 1⟩ : Pred) (1 : BitVec 3) (2 : BitVec 5) (3 : BitVec 5), .cmpeq (.cp : Site) (⟨true, 1⟩ : Pred) (1 : BitVec 3) (2 : BitVec 5) (3 : BitVec 5), .tstt (.cp : Site) (⟨true, 1⟩ : Pred) (1 : BitVec 3) (2 : BitVec 5) (1 : BitVec 4), .pand (.cp : Site) (⟨true, 1⟩ : Pred) (1 : BitVec 3) (2 : BitVec 3) (3 : BitVec 3), .por (.cp : Site) (⟨true, 1⟩ : Pred) (1 : BitVec 3) (2 : BitVec 3) (3 : BitVec 3), .pnot (.cp : Site) (⟨true, 1⟩ : Pred) (1 : BitVec 3) (2 : BitVec 3), .tags (.cp : Site) (⟨true, 1⟩ : Pred) (5 : BitVec 5) (2 : BitVec 5) (2 : BitVec 3), .tagc (.cp : Site) (⟨true, 1⟩ : Pred) (5 : BitVec 5) (2 : BitVec 5) (2 : BitVec 3), .tagr (.cp : Site) (⟨true, 1⟩ : Pred) (5 : BitVec 5) (2 : BitVec 5), .tagw (.cp : Site) (⟨true, 1⟩ : Pred) (5 : BitVec 5) (2 : BitVec 5) (3 : BitVec 5), .ldw (.cp : Site) (⟨true, 1⟩ : Pred) (5 : BitVec 5) (2 : BitVec 5) (1 : BitVec 10), .ldw2 (.cp : Site) (⟨true, 1⟩ : Pred) (5 : BitVec 5) (2 : BitVec 5) (1 : BitVec 10), .stw (.cp : Site) (⟨true, 1⟩ : Pred) (5 : BitVec 5) (2 : BitVec 5) (1 : BitVec 10), .stw2 (.cp : Site) (⟨true, 1⟩ : Pred) (5 : BitVec 5) (2 : BitVec 5) (1 : BitVec 10), .br (.cp : Site) (⟨true, 1⟩ : Pred) (5 : BitVec 11), .call (.cp : Site) (⟨true, 1⟩ : Pred) (5 : BitVec 11), .ret (.cp : Site) (⟨true, 1⟩ : Pred)]) ∧
    (predOk st153 (.sc (1 : Fin 4)) (⟨true, 1⟩ : Pred) = false) ∧
    ((1 : BitVec 5).toNat ≤ 8) ∧
    ((Instr.str (.sc 1) ⟨true, 1⟩ 5 2 3 1) ∈ [Instr.mulq (.sc (1 : Fin 4)) (⟨true, 1⟩ : Pred) (5 : BitVec 5) (2 : BitVec 5) (3 : BitVec 5), .macz (.sc (1 : Fin 4)) (⟨true, 1⟩ : Pred) (1 : BitVec 3) (2 : BitVec 5) (3 : BitVec 5), .mac (.sc (1 : Fin 4)) (⟨true, 1⟩ : Pred) (1 : BitVec 3) (2 : BitVec 5) (3 : BitVec 5), .msu (.sc (1 : Fin 4)) (⟨true, 1⟩ : Pred) (1 : BitVec 3) (2 : BitVec 5) (3 : BitVec 5), .accadd (.sc (1 : Fin 4)) (⟨true, 1⟩ : Pred) (1 : BitVec 3) (2 : BitVec 3), .accmv (.sc (1 : Fin 4)) (⟨true, 1⟩ : Pred) (1 : BitVec 3) (2 : BitVec 5), .accrd (.sc (1 : Fin 4)) (⟨true, 1⟩ : Pred) (5 : BitVec 5) (2 : BitVec 3) (1 : BitVec 5), .ldp (.sc (1 : Fin 4)) (⟨true, 1⟩ : Pred) (5 : BitVec 5) (2 : BitVec 5) (1 : BitVec 10), .ldc (.sc (1 : Fin 4)) (⟨true, 1⟩ : Pred) (5 : BitVec 5) (2 : BitVec 5) (1 : BitVec 10), .ldc2 (.sc (1 : Fin 4)) (⟨true, 1⟩ : Pred) (5 : BitVec 5) (2 : BitVec 5) (1 : BitVec 10), .ldd (.sc (1 : Fin 4)) (⟨true, 1⟩ : Pred) (5 : BitVec 5) (2 : BitVec 5) (1 : BitVec 10), .std (.sc (1 : Fin 4)) (⟨true, 1⟩ : Pred) (5 : BitVec 5) (2 : BitVec 5) (1 : BitVec 10), .lds (.sc (1 : Fin 4)) (⟨true, 1⟩ : Pred) (5 : BitVec 5) (2 : BitVec 5) (3 : BitVec 5) (1 : BitVec 5), .str (.sc (1 : Fin 4)) (⟨true, 1⟩ : Pred) (5 : BitVec 5) (2 : BitVec 5) (3 : BitVec 5) (1 : BitVec 5)]) ∧
    (pReg st153 (.sc 1 : Site) (2 : BitVec 3).toNat = false) ∧
    (pReg st154 (.cp : Site) (2 : BitVec 3).toNat = false) ∧
    (predOk st154 .cp (⟨true, 1⟩ : Pred) = false) ∧
    ((Instr.wfe ⟨true, 1⟩) ∈ [Instr.ldg (⟨true, 1⟩ : Pred) (5 : BitVec 5) (2 : BitVec 5) (3 : BitVec 10), .stg (⟨true, 1⟩ : Pred) (5 : BitVec 5) (2 : BitVec 5) (3 : BitVec 10), .ldgh (⟨true, 1⟩ : Pred) (5 : BitVec 5) (2 : BitVec 5) (3 : BitVec 10), .stgh (⟨true, 1⟩ : Pred) (5 : BitVec 5) (2 : BitVec 5) (3 : BitVec 10), .ldgb (⟨true, 1⟩ : Pred) (5 : BitVec 5) (2 : BitVec 5) (3 : BitVec 10), .stgb (⟨true, 1⟩ : Pred) (5 : BitVec 5) (2 : BitVec 5) (3 : BitVec 10), .ldgl (⟨true, 1⟩ : Pred) (5 : BitVec 5) (2 : BitVec 5) (3 : BitVec 10), .stgu (⟨true, 1⟩ : Pred) (5 : BitVec 5) (2 : BitVec 5) (3 : BitVec 10), .wfe (⟨true, 1⟩ : Pred)]) :=
  by decide +kernel

/-- The hypotheses of SyllableStops are met. -/
theorem wit_SyllableStops :
    ((8 : BitVec 5).toNat ≤ 8) ∧
    (8 < (9 : BitVec 5).toNat) ∧
    (predOk st159 (.sc 1 : Site) (⟨false, 1⟩ : Pred) = true) ∧
    (registerUpset st159 (.sc 1 : Site) = none) ∧
    (callDepth (.sc 1 : Site) ≤ (regs st159 (.sc 1 : Site)).calls.length) ∧
    (0 < (gReg st159 (.sc 1 : Site) (3 : BitVec 5).toNat).val.toInt) ∧
    (2 ≤ (regs st159 (.sc 1 : Site)).loops.length) ∧
    ((5 : BitVec 9) ≠ 0) ∧
    (predOk st160 (.cp : Site) (⟨false, 1⟩ : Pred) = true) ∧
    (registerUpset st160 (.cp : Site) = none) ∧
    (callDepth (.cp : Site) ≤ (regs st160 (.cp : Site)).calls.length) ∧
    (0 < (gReg st160 (.cp : Site) (3 : BitVec 5).toNat).val.toInt) ∧
    (2 ≤ (regs st160 (.cp : Site)).loops.length) ∧
    (predOk rn (.cp : Site) (⟨false, 0⟩ : Pred) = true) ∧
    (registerUpset rn (.cp : Site) = none) ∧
    ((regs rn (.cp : Site)).calls = []) ∧
    (predOk rn (.sc 2 : Site) (⟨false, 0⟩ : Pred) = true) ∧
    (registerUpset rn (.sc 2 : Site) = none) ∧
    ((regs rn (.sc 2 : Site)).calls = []) ∧
    (exec (Instr.ret .cp ⟨false, 0⟩) rn = .fault Fault.callUnderflow) ∧
    (exec (Instr.mulq .cp ⟨false, 0⟩ 1 2 3) rn = .refused (Refusal.cpDoesNotImplement "MULQ")) ∧
    (exec (Instr.loopi .cp 0 3) rn = .refused (Refusal.reservedEncoding "LOOPI")) :=
  by and_intros <;> first | rfl | decide +kernel

/-- The hypotheses of StreamCores are met. -/
theorem wit_StreamCores :
    (Admitted rowCoreLoad (cmd [0x11]) st161) ∧
    (resv (opnd (cmd [0x11]) 0) 0x13 = false) ∧
    (1 = fld (opnd (cmd [0x11]) 0) 1 0) ∧
    (1 = fld (opnd (cmd [0x11]) 0) 4 4) ∧
    (st161.sec.verified = true) ∧
    (st161.mem.bad = []) ∧
    (st161.mem.upsets = []) ∧
    (([[2, 1, 70, 0], [0, 0, 0, 0], [0, 0, 0, 0x88000000]] : Prog) = toBundles (stagedWords st161 64 ((staged st161 10).toNat / 4))) ∧
    (reservedAt ([[2, 1, 70, 0], [0, 0, 0, 0], [0, 0, 0, 0x88000000]] : Prog) = none) ∧
    (([[2, 1, 70, 0], [0, 0, 0, 0], [0, 0, 0, 0x88000000]] : Prog).length ≤ 2048) ∧
    ((staged st161 11).toNat ≤ 32768) ∧
    (¬(((active st161).bind 1).en = true ∧ ((active st161).bind 1).slot = 1)) ∧
    (¬((Machine.core st161 1).st = .halted ∧ (Machine.core st161 1).haltSlot = 1)) ∧
    (st161.sets.swap = none) ∧
    ((heldPages st161 (2 * 1 + 1)).length + fld ((bundleAt ([[2, 1, 70, 0], [0, 0, 0, 0], [0, 0, 0, 0x88000000]] : Prog) 0).getD 1 0) 7 0 ≤ 512) ∧
    (judge ([[2, 1, 70, 0], [0, 0, 0, 0], [0, 0, 0, 0x88000000]] : Prog) = .ok (65, 0)) ∧
    (compatOk st161 st161.power.fwVersion = true) ∧
    (Admitted rowCoreBind (cmd [1, 0x84300000, 2, 2]) rn) ∧
    ((⟨0x84300000, 2, 2⟩ : CoreBinding) = ⟨opnd (cmd [1, 0x84300000, 2, 2]) 1, opnd (cmd [1, 0x84300000, 2, 2]) 2, opnd (cmd [1, 0x84300000, 2, 2]) 3⟩) ∧
    (resv (opnd (cmd [1, 0x84300000, 2, 2]) 0) 3 = false) ∧
    (resv (⟨0x84300000, 2, 2⟩ : CoreBinding).word 0x9CF00000 = false) ∧
    ((((⟨0x84300000, 2, 2⟩ : CoreBinding).en = true ∧ ((⟨0x84300000, 2, 2⟩ : CoreBinding).depth = 1 ∨ (⟨0x84300000, 2, 2⟩ : CoreBinding).depth = 2) ∧ (⟨0x84300000, 2, 2⟩ : CoreBinding).rate ≠ 15) ∨ (⟨0x84300000, 2, 2⟩ : CoreBinding) = ⟨0, 0, 0⟩)) ∧
    (Admitted rowCoreBind (cmd [1, 0, 0, 0]) rn) ∧
    ((⟨0, 0, 0⟩ : CoreBinding) = ⟨opnd (cmd [1, 0, 0, 0]) 1, opnd (cmd [1, 0, 0, 0]) 2, opnd (cmd [1, 0, 0, 0]) 3⟩) ∧
    (resv (opnd (cmd [1, 0, 0, 0]) 0) 3 = false) ∧
    (resv (⟨0, 0, 0⟩ : CoreBinding).word 0x9CF00000 = false) ∧
    ((((⟨0, 0, 0⟩ : CoreBinding).en = true ∧ ((⟨0, 0, 0⟩ : CoreBinding).depth = 1 ∨ (⟨0, 0, 0⟩ : CoreBinding).depth = 2) ∧ (⟨0, 0, 0⟩ : CoreBinding).rate ≠ 15) ∨ (⟨0, 0, 0⟩ : CoreBinding) = ⟨0, 0, 0⟩)) ∧
    (Admitted rowCoreParam (cmd [0x0FFF0003, 5]) rn) ∧
    ((cmd [0x0FFF0003, 5]).imm = false) ∧
    (resv (opnd (cmd [0x0FFF0003, 5]) 0) 0x0FFFFF03 = false) ∧
    (fld (opnd (cmd [0x0FFF0003, 5]) 0) 15 8 = 0) ∧
    (fld (opnd (cmd [0x0FFF0003, 5]) 0) 27 16 + ((cmd [0x0FFF0003, 5]).ops.length - 1) ≤ 4096) ∧
    (Admitted rowCoreRead (cmd [0x3FFF0203]) st162) ∧
    (resv (opnd (cmd [0x3FFF0203]) 0) 0x3FFFFF03 = false) ∧
    (fld (opnd (cmd [0x3FFF0203]) 0) 15 8 ≠ 0) ∧
    ((fun i => aPram 3 + 0x10000 + 4 * ((16383 + i) % 16384)) = (fun i => aPram (fld (opnd (cmd [0x3FFF0203]) 0) 1 0) + 0x10000 + 4 * ((fld (opnd (cmd [0x3FFF0203]) 0) 29 16 + i) % 16384))) ∧
    ((∀ i < fld (opnd (cmd [0x3FFF0203]) 0) 15 8, (fun i => aPram 3 + 0x10000 + 4 * ((16383 + i) % 16384)) i ∉ st162.mem.bad)) ∧
    (st162.mem.upsets = []) ∧
    ((Machine.core st163 (1 : Fin 4).val).st = .running) ∧
    (((active st163).bind (1 : Fin 4).val).en = true) ∧
    (audioRuns st163 = true) ∧
    ((Machine.core st163 (1 : Fin 4).val).dueIn ≤ 1) ∧
    ((Machine.core st163 (1 : Fin 4).val).held = (⟨5, 0, true, false, [], [(16, ⟨1, 1⟩)], []⟩ : Frame) :: ([] : List Frame)) ∧
    ((Machine.core st164 (1 : Fin 4).val).st = .running) ∧
    (((active st164).bind (1 : Fin 4).val).en = true) ∧
    (audioRuns st164 = true) ∧
    ((Machine.core st164 (1 : Fin 4).val).dueIn ≤ 1) ∧
    ((Machine.core st164 (1 : Fin 4).val).held = []) ∧
    ((Machine.core st165 (1 : Fin 4).val).clearing = true) ∧
    ((Machine.core st166 (1 : Fin 4).val).st = .running) ∧
    (0x10040000 = aPram (1 : Fin 4).val + slotNow st166 (1 : Fin 4).val * 0x8000 + 16 * ((Machine.core st166 (1 : Fin 4).val).regs.pc % 2048)) ∧
    ((⟨0x84300000, 2, 2⟩ : CoreBinding) = (active st167).bind (1 : Fin 4).val) ∧
    ((Machine.core st167 (1 : Fin 4).val).inputs = ([(16, ⟨7, 2⟩)] : Tab Sample) :: ([] : List (Tab Sample))) ∧
    (coreReady st167 (1 : Fin 4).val = true) ∧
    (st167.mem.upsets = []) ∧
    ((Machine.core st167 (1 : Fin 4).val).held.length < (⟨0x84300000, 2, 2⟩ : CoreBinding).depth) ∧
    (fetchLost st167 (1 : Fin 4).val (⟨0x84300000, 2, 2⟩ : CoreBinding).slot 0 = false) ∧
    (2 = fld ((fetch st167 (1 : Fin 4).val (⟨0x84300000, 2, 2⟩ : CoreBinding).slot 0).getD 0 0) 10 0) ∧
    (runBundles (1 : Fin 4) (⟨0x84300000, 2, 2⟩ : CoreBinding).slot (max (slotOf st167 (1 : Fin 4).val (⟨0x84300000, 2, 2⟩ : CoreBinding).slot).cycles 1) [] (64 + (Machine.core st167 (1 : Fin 4).val).undoCost) (onCore (1 : Fin 4).val (fun c => { c with regs := entryRegs c.frameNo st167.sets.epoch c.first (c.cutIn || cutOn (⟨0x84300000, 2, 2⟩ : CoreBinding) ([(16, ⟨7, 2⟩)] : Tab Sample)) 2, input := ([(16, ⟨7, 2⟩)] : Tab Sample), out := [], undo := [], lastErr := stillBad st167 c.lastErr }) st167) = (st168, 65, .complete)) ∧
    ((Machine.core st168 (1 : Fin 4).val).late = 0) :=
  by and_intros <;> first | rfl | decide +kernel

/-- The hypotheses of BusAccesses are met. -/
theorem wit_BusAccesses :
    (predOk st169 .cp (⟨false, 0⟩ : Pred) = true) ∧
    (0x10000006 = busAddr st169 (1 : BitVec 5) (1 : BitVec 10)) ∧
    (cpPath st169 0x10000006 = some (⟨2, 0x10000006, 2, true, true, false⟩ : BusPath)) ∧
    ((⟨2, 0x10000006, 2, true, true, false⟩ : BusPath).rd = true) ∧
    (st169.mem.upsets = []) ∧
    (pllbUnlocked st169 = false) ∧
    ((⟨2, 0x10000006, 2, true, true, false⟩ : BusPath).phys / 4 * 4 ∉ st169.mem.bad) ∧
    (1 ≤ (⟨2, 0x10000006, 2, true, true, false⟩ : BusPath).target) ∧
    ((⟨2, 0x10000006, 2, true, true, false⟩ : BusPath).target ≤ 7) ∧
    ((5 : BitVec 5) ≠ 0) ∧
    (predOk st170 .cp (⟨false, 0⟩ : Pred) = true) ∧
    (0x00080007 = busAddr st170 (2 : BitVec 5) (1 : BitVec 10)) ∧
    (cpPath st170 0x00080007 = some (⟨1, 0x00080007, 1, true, true, true⟩ : BusPath)) ∧
    ((⟨1, 0x00080007, 1, true, true, true⟩ : BusPath).rd = true) ∧
    (st170.mem.upsets = []) ∧
    (pllbUnlocked st170 = false) ∧
    ((⟨1, 0x00080007, 1, true, true, true⟩ : BusPath).phys / 4 * 4 ∉ st170.mem.bad) ∧
    (1 ≤ (⟨1, 0x00080007, 1, true, true, true⟩ : BusPath).target) ∧
    ((⟨1, 0x00080007, 1, true, true, true⟩ : BusPath).target ≤ 7) ∧
    ((⟨1, 0x00080007, 1, true, true, true⟩ : BusPath).lock = true) ∧
    (st170.cp.lock = none) ∧
    (predOk st171 .cp (⟨false, 0⟩ : Pred) = true) ∧
    (0x10000006 = busAddr st171 (1 : BitVec 5) (1 : BitVec 10)) ∧
    (cpPath st171 0x10000006 = some (⟨2, 0x10000006, 2, true, true, false⟩ : BusPath)) ∧
    ((⟨2, 0x10000006, 2, true, true, false⟩ : BusPath).wr = true) ∧
    (st171.mem.upsets = []) ∧
    (pllbUnlocked st171 = false) ∧
    ((rn.mem.setWord 0x10000004 0x80000000 6) = (if (⟨2, 0x10000006, 2, true, true, false⟩ : BusPath).target = 1 ∨ (⟨2, 0x10000006, 2, true, true, false⟩ : BusPath).target = 7 then st171.mem.setPlain ((⟨2, 0x10000006, 2, true, true, false⟩ : BusPath).phys / 4 * 4) (gReg st171 .cp (3 : BitVec 5).toNat).val else st171.mem.setWord ((⟨2, 0x10000006, 2, true, true, false⟩ : BusPath).phys / 4 * 4) (gReg st171 .cp (3 : BitVec 5).toNat).val ((gReg st171 .cp (3 : BitVec 5).toNat).tag &&& 0b1110#4))) ∧
    (st171.cp.lockLost = false) ∧
    (0x00080007 = busAddr st171 (2 : BitVec 5) (1 : BitVec 10)) ∧
    (cpPath st171 0x00080007 = some (⟨1, 0x00080007, 1, true, true, true⟩ : BusPath)) ∧
    ((⟨1, 0x00080007, 1, true, true, true⟩ : BusPath).wr = true) ∧
    ((rn.mem.setPlain 0x00080004 0x80000000) = (if (⟨1, 0x00080007, 1, true, true, true⟩ : BusPath).target = 1 ∨ (⟨1, 0x00080007, 1, true, true, true⟩ : BusPath).target = 7 then st171.mem.setPlain ((⟨1, 0x00080007, 1, true, true, true⟩ : BusPath).phys / 4 * 4) (gReg st171 .cp (3 : BitVec 5).toNat).val else st171.mem.setWord ((⟨1, 0x00080007, 1, true, true, true⟩ : BusPath).phys / 4 * 4) (gReg st171 .cp (3 : BitVec 5).toNat).val ((gReg st171 .cp (3 : BitVec 5).toNat).tag &&& 0b1110#4))) ∧
    (predOk st172 .cp (⟨false, 0⟩ : Pred) = true) ∧
    (st172.cp.lockLost = true) ∧
    (pllbUnlocked st172 = false) ∧
    (cpPath st171 (busAddr st171 (4 : BitVec 5) (0 : BitVec 10)) = none) ∧
    (cpPath st171 (busAddr st171 (3 : BitVec 5) (0 : BitVec 10)) = none) ∧
    (predOk st173 .cp (⟨false, 0⟩ : Pred) = true) ∧
    (cpPath st173 (busAddr st173 (1 : BitVec 5) (0 : BitVec 10)) = some (⟨0, 0x00000010, 0, true, true, false⟩ : BusPath)) ∧
    ((⟨0, 0x00000010, 0, true, true, false⟩ : BusPath).rd = true) ∧
    (st173.mem.upsets = []) ∧
    (pllbUnlocked st173 = false) ∧
    (0x00000010 = (⟨0, 0x00000010, 0, true, true, false⟩ : BusPath).phys / 4 * 4) ∧
    (0x00000010 ∉ st173.mem.bad) ∧
    ((⟨0, 0x00000010, 0, true, true, false⟩ : BusPath).target = 0) ∧
    (predOk st174 .cp (⟨false, 0⟩ : Pred) = true) ∧
    (cpPath st174 (busAddr st174 (1 : BitVec 5) (0 : BitVec 10)) = some (⟨8, 0x34030004, 8, true, true, true⟩ : BusPath)) ∧
    ((⟨8, 0x34030004, 8, true, true, true⟩ : BusPath).rd = true) ∧
    (st174.mem.upsets = []) ∧
    (pllbUnlocked st174 = false) ∧
    (0x34030004 = (⟨8, 0x34030004, 8, true, true, true⟩ : BusPath).phys / 4 * 4) ∧
    (0x34030004 ∉ st174.mem.bad) ∧
    ((⟨8, 0x34030004, 8, true, true, true⟩ : BusPath).target = 8) ∧
    (predOk st175 .cp (⟨false, 0⟩ : Pred) = true) ∧
    (cpPath st175 (busAddr st175 (1 : BitVec 5) (0 : BitVec 10)) = some (⟨9, 0x38004014, 9, true, true, true⟩ : BusPath)) ∧
    ((⟨9, 0x38004014, 9, true, true, true⟩ : BusPath).rd = true) ∧
    (st175.mem.upsets = []) ∧
    (pllbUnlocked st175 = false) ∧
    (0x38004014 = (⟨9, 0x38004014, 9, true, true, true⟩ : BusPath).phys / 4 * 4) ∧
    (0x38004014 ∉ st175.mem.bad) ∧
    ((⟨9, 0x38004014, 9, true, true, true⟩ : BusPath).target = 9) ∧
    (predOk st176 .cp (⟨false, 0⟩ : Pred) = true) ∧
    (cpPath st176 (busAddr st176 (1 : BitVec 5) (0 : BitVec 10)) = some (⟨9, 0x38002004, 9, true, true, true⟩ : BusPath)) ∧
    ((⟨9, 0x38002004, 9, true, true, true⟩ : BusPath).rd = true) ∧
    (st176.mem.upsets = []) ∧
    (pllbUnlocked st176 = false) ∧
    (0x38002004 = (⟨9, 0x38002004, 9, true, true, true⟩ : BusPath).phys / 4 * 4) ∧
    (0x38002004 ∉ st176.mem.bad) ∧
    ((⟨9, 0x38002004, 9, true, true, true⟩ : BusPath).target = 9) ∧
    (predOk st177 .cp (⟨false, 0⟩ : Pred) = true) ∧
    (cpPath st177 (busAddr st177 (1 : BitVec 5) (0 : BitVec 10)) = some (⟨12, 0x60000000, 12, true, true, true⟩ : BusPath)) ∧
    ((⟨12, 0x60000000, 12, true, true, true⟩ : BusPath).rd = true) ∧
    (st177.mem.upsets = []) ∧
    (pllbUnlocked st177 = false) ∧
    (0x60000000 = (⟨12, 0x60000000, 12, true, true, true⟩ : BusPath).phys / 4 * 4) ∧
    (0x60000000 ∉ st177.mem.bad) ∧
    ((⟨12, 0x60000000, 12, true, true, true⟩ : BusPath).target = 12) ∧
    (predOk st178 .cp (⟨false, 0⟩ : Pred) = true) ∧
    (cpPath st178 (busAddr st178 (1 : BitVec 5) (0 : BitVec 10)) = some (⟨10, 0x40000000, 10, true, true, false⟩ : BusPath)) ∧
    ((⟨10, 0x40000000, 10, true, true, false⟩ : BusPath).rd = true) ∧
    (st178.mem.upsets = []) ∧
    (pllbUnlocked st178 = false) ∧
    (0x40000000 = (⟨10, 0x40000000, 10, true, true, false⟩ : BusPath).phys / 4 * 4) ∧
    (0x40000000 ∉ st178.mem.bad) ∧
    ((⟨10, 0x40000000, 10, true, true, false⟩ : BusPath).target = 10) ∧
    (0x40000000 = aPeri) ∧
    (predOk st179 .cp (⟨false, 0⟩ : Pred) = true) ∧
    (cpPath st179 (busAddr st179 (1 : BitVec 5) (0 : BitVec 10)) = some (⟨10, 0x40001008, 10, true, true, false⟩ : BusPath)) ∧
    ((⟨10, 0x40001008, 10, true, true, false⟩ : BusPath).rd = true) ∧
    (st179.mem.upsets = []) ∧
    (pllbUnlocked st179 = false) ∧
    (0x40001008 = (⟨10, 0x40001008, 10, true, true, false⟩ : BusPath).phys / 4 * 4) ∧
    (0x40001008 ∉ st179.mem.bad) ∧
    ((⟨10, 0x40001008, 10, true, true, false⟩ : BusPath).target = 10) ∧
    (aPeri + 0x1000 ≤ 0x40001008) ∧
    (0x40001008 < aPeri + 0x2000) ∧
    (predOk st180 .cp (⟨false, 0⟩ : Pred) = true) ∧
    (cpPath st180 (busAddr st180 (1 : BitVec 5) (0 : BitVec 10)) = some (⟨10, 0x40002090, 10, true, true, false⟩ : BusPath)) ∧
    ((⟨10, 0x40002090, 10, true, true, false⟩ : BusPath).rd = true) ∧
    (st180.mem.upsets = []) ∧
    (pllbUnlocked st180 = false) ∧
    (0x40002090 = (⟨10, 0x40002090, 10, true, true, false⟩ : BusPath).phys / 4 * 4) ∧
    (0x40002090 ∉ st180.mem.bad) ∧
    ((⟨10, 0x40002090, 10, true, true, false⟩ : BusPath).target = 10) ∧
    (9 < 160) ∧
    (0x40002090 = aPeri + 0x2000 + 16 * 9) ∧
    (predOk st181 .cp (⟨false, 0⟩ : Pred) = true) ∧
    (cpPath st181 (busAddr st181 (1 : BitVec 5) (0 : BitVec 10)) = some (⟨10, 0x40002098, 10, true, true, false⟩ : BusPath)) ∧
    ((⟨10, 0x40002098, 10, true, true, false⟩ : BusPath).rd = true) ∧
    (st181.mem.upsets = []) ∧
    (pllbUnlocked st181 = false) ∧
    (0x40002098 = (⟨10, 0x40002098, 10, true, true, false⟩ : BusPath).phys / 4 * 4) ∧
    (0x40002098 ∉ st181.mem.bad) ∧
    ((⟨10, 0x40002098, 10, true, true, false⟩ : BusPath).target = 10) ∧
    (2 < 4) ∧
    (2 ≠ 0) ∧
    (0x40002098 = aPeri + 0x2000 + 16 * 9 + 4 * 2) ∧
    (tget none st181.filt.capture 9 = some (⟨1, 2, 3, 4⟩ : Quad)) ∧
    (predOk st182 .cp (⟨false, 0⟩ : Pred) = true) ∧
    (cpPath st182 (busAddr st182 (1 : BitVec 5) (0 : BitVec 10)) = some (⟨10, 0x40003008, 10, true, true, false⟩ : BusPath)) ∧
    ((⟨10, 0x40003008, 10, true, true, false⟩ : BusPath).rd = true) ∧
    (st182.mem.upsets = []) ∧
    (pllbUnlocked st182 = false) ∧
    (0x40003008 = (⟨10, 0x40003008, 10, true, true, false⟩ : BusPath).phys / 4 * 4) ∧
    (0x40003008 ∉ st182.mem.bad) ∧
    ((⟨10, 0x40003008, 10, true, true, false⟩ : BusPath).target = 10) ∧
    (aPeri + 0x2A00 ≤ 0x40003008) ∧
    ((⟨0, 0x00000010, 0, true, true, false⟩ : BusPath).wr = true) ∧
    ((0x80000000 : Word) = (gReg st173 .cp (3 : BitVec 5).toNat).val) ∧
    ((⟨8, 0x34030004, 8, true, true, true⟩ : BusPath).wr = true) ∧
    ((0x80000000 : Word) = (gReg st174 .cp (3 : BitVec 5).toNat).val) ∧
    ((⟨9, 0x38004014, 9, true, true, true⟩ : BusPath).wr = true) ∧
    ((0x80000000 : Word) = (gReg st175 .cp (3 : BitVec 5).toNat).val) ∧
    ((bankOff aFctx 0x4000 0x38004014).2 < 4096) ∧
    ((⟨9, 0x38002004, 9, true, true, true⟩ : BusPath).wr = true) ∧
    ((0x80000000 : Word) = (gReg st176 .cp (3 : BitVec 5).toNat).val) ∧
    (4096 ≤ (bankOff aFctx 0x4000 0x38002004).2) ∧
    ((⟨12, 0x60000000, 12, true, true, true⟩ : BusPath).wr = true) ∧
    ((0x80000000 : Word) = (gReg st177 .cp (3 : BitVec 5).toNat).val) ∧
    (predOk st183 .cp (⟨false, 0⟩ : Pred) = true) ∧
    (cpPath st183 (busAddr st183 (1 : BitVec 5) (0 : BitVec 10)) = some (⟨10, 0x40003008, 10, true, true, false⟩ : BusPath)) ∧
    ((⟨10, 0x40003008, 10, true, true, false⟩ : BusPath).wr = true) ∧
    (st183.mem.upsets = []) ∧
    (pllbUnlocked st183 = false) ∧
    ((0x80000000 : Word) = (gReg st183 .cp (3 : BitVec 5).toNat).val) ∧
    (0x40003008 < aPeri + 0x7000) ∧
    (predOk st184 .cp (⟨false, 0⟩ : Pred) = true) ∧
    (cpPath st184 (busAddr st184 (1 : BitVec 5) (0 : BitVec 10)) = some (⟨10, 0x40001108, 10, true, true, false⟩ : BusPath)) ∧
    ((⟨10, 0x40001108, 10, true, true, false⟩ : BusPath).wr = true) ∧
    (st184.mem.upsets = []) ∧
    (pllbUnlocked st184 = false) ∧
    (0x40001108 = (⟨10, 0x40001108, 10, true, true, false⟩ : BusPath).phys / 4 * 4) ∧
    ((0x80000000 : Word) = (gReg st184 .cp (3 : BitVec 5).toNat).val) ∧
    ((⟨10, 0x40001108, 10, true, true, false⟩ : BusPath).target = 10) ∧
    (2 < 160) ∧
    (0x40001108 = aPeri + 0x1100 + 4 * 2) ∧
    (16813 < 16814) ∧
    (16812 < 16814) ∧
    (16500 < 16814) ∧
    (16383 < 16384) ∧
    (16384 ≤ 16384) ∧
    (16384 < 16512) ∧
    (16384 ≤ 16511) ∧
    (16511 < 16512) ∧
    (16512 ≤ 16512) ∧
    (16512 < 16576) ∧
    (16768 ≤ 16768) ∧
    (16768 < 16802) ∧
    (16768 ≤ 16801) ∧
    (16801 < 16802) ∧
    (0 < 16384) ∧
    (logicOn st185 = true) ∧
    (st185.mem.upsets = []) ∧
    (pllbUnlocked st185 = false) ∧
    (cpFetch (8 * st185.cp.regs.pc % 2 ^ 32) st185 = (some (0x50028401 : Word), st185)) ∧
    (cpFetch ((8 * st185.cp.regs.pc + 4) % 2 ^ 32) st185 = (some (0x01030860 : Word), st185)) ∧
    (opc (0x50028401 : Word) = 0x50) ∧
    (opc (0x01030860 : Word) = 1) ∧
    (cpLow (0x01030860 : Word) = true) ∧
    (sylOn st185 .cp (0x50028401 : Word) = true) ∧
    (sylOn st185 .cp (0x01030860 : Word) = true) ∧
    (fRd (0x50028401 : Word) ≠ fRd (0x01030860 : Word)) ∧
    (cpPath st185 (busAddr st185 (fRa (0x50028401 : Word)) (fOff (0x50028401 : Word))) = some (⟨2, 0x10000006, 2, true, true, false⟩ : BusPath)) ∧
    ((⟨2, 0x10000006, 2, true, true, false⟩ : BusPath).phys / 4 * 4 ∉ st185.mem.bad) ∧
    (predOk st186 .cp (⟨false, 0⟩ : Pred) = true) ∧
    (pllbUnlocked st186 = true) ∧
    ((.ldg ⟨false, 0⟩ 5 1 0 : Instr) ∈ [Instr.ldg (⟨false, 0⟩ : Pred) (5 : BitVec 5) (1 : BitVec 5) (0 : BitVec 10), .stg (⟨false, 0⟩ : Pred) (5 : BitVec 5) (1 : BitVec 5) (0 : BitVec 10), .ldgh (⟨false, 0⟩ : Pred) (5 : BitVec 5) (1 : BitVec 5) (0 : BitVec 10), .stgh (⟨false, 0⟩ : Pred) (5 : BitVec 5) (1 : BitVec 5) (0 : BitVec 10), .ldgb (⟨false, 0⟩ : Pred) (5 : BitVec 5) (1 : BitVec 5) (0 : BitVec 10), .stgb (⟨false, 0⟩ : Pred) (5 : BitVec 5) (1 : BitVec 5) (0 : BitVec 10), .ldgl (⟨false, 0⟩ : Pred) (5 : BitVec 5) (1 : BitVec 5) (0 : BitVec 10), .stgu (⟨false, 0⟩ : Pred) (5 : BitVec 5) (1 : BitVec 5) (0 : BitVec 10)]) ∧
    (st187.cp.lock = some (⟨1, 0x80004, 5, none⟩ : Lock)) ∧
    (logicOn st187 = true) ∧
    (pllbUnlocked st187 = false) ∧
    (65 ≤ since st187 (⟨1, 0x80004, 5, none⟩ : Lock).since) ∧
    (logicOn rn = true) ∧
    (pllbUnlocked rn = false) ∧
    (rn.mem.upsets = []) ∧
    (aPeri + 0x2A00 ≤ (aPeri + 0x2A00)) ∧
    ((aPeri + 0x2A00) < aPeri + 0x8000) ∧
    ((4 = 4 ∨ 4 = 7)) ∧
    (((aPeri + 0x2A00) < aPeri + 0x7000 ∨ wdtHost rn = true)) ∧
    (logicOn st188 = true) ∧
    (pllbUnlocked st188 = false) ∧
    (st188.mem.upsets = []) ∧
    (aPeri + 0x2A00 ≤ (aPeri + 0x7FFF)) ∧
    ((aPeri + 0x7FFF) < aPeri + 0x8000) ∧
    ((7 = 4 ∨ 7 = 7)) ∧
    (((aPeri + 0x7FFF) < aPeri + 0x7000 ∨ wdtHost st188 = true)) ∧
    (aPeri ≤ aPeri) ∧
    (aPeri < aPeri + 0x8000) ∧
    (0 ≤ 8) ∧
    (0 ≠ 4) ∧
    (0 ≠ 7) ∧
    (aPeri + 0x7000 ≤ (aPeri + 0x7000)) ∧
    ((aPeri + 0x7000) < aPeri + 0x8000) ∧
    (wdtHost rn = false) ∧
    (running rn = true) ∧
    (aPeri + 0x8000 ≤ (aPeri + 0x8000)) ∧
    ((aPeri + 0x8000) < aKeys) ∧
    (7 ≤ 8) ∧
    (7 ≠ 4) :=
  by and_intros <;> decide +kernel

/-- The hypotheses of MemoryWords are met. -/
theorem wit_MemoryWords :
    (9 / 4 ≠ 6 / 4) ∧
    (8 % 4 = 0) ∧
    (1 < ([1, 0, 2] : List Word).length) ∧
    (8 ≤ 8) ∧
    (8 < 8 + 4 * 1) ∧
    (7 ≤ 8) ∧
    (8 < 7 + 4 * 1) :=
  by decide +kernel

/-- The hypotheses of ConfigurationSets are met. -/
theorem wit_ConfigurationSets :
    (Admitted rowSwap (withFlag (cmd [] (flags := 3)) 2 false) st189) ∧
    (setBusy st189 = false) ∧
    (measuring st189 = false) ∧
    (feSwapRef st189 = false) ∧
    (swapCapacity st189 = false) ∧
    (swapOwn st189 = none) ∧
    (Admitted rowSwap (withFlag (cmd [] (flags := 4)) 2 true) st190) ∧
    (flag (cmd [] (flags := 4)) 0 = false) ∧
    (flag (cmd [] (flags := 4)) 1 = false) ∧
    (st190.sets.swap.isSome = true) ∧
    (Admitted rowSwap (withFlag (cmd [] (flags := 4)) 2 true) rn) ∧
    (rn.sets.swap = none) ∧
    (st191.sets.swap = some (⟨false, true, false, 5⟩ : SwapReq)) ∧
    ((⟨false, true, false, 5⟩ : SwapReq).armed = false) ∧
    (audioRuns st191 = true) ∧
    (commonBoundary st191 = true) ∧
    (oldEpochLeft st191 = false) ∧
    (100000000 ≤ since st191 (⟨false, true, false, 5⟩ : SwapReq).since) ∧
    (st192.sets.copying = true) ∧
    (Admitted rowSetCopy (cmd []) st193) ∧
    (setBusy st193 = false) ∧
    ((∀ x ∈ st193.mem.bad, inBank st193.sets.selB x = false)) ∧
    (Admitted rowSetCopy (cmd []) st194) ∧
    (setBusy st194 = false) ∧
    (st194.mem.bad.find? (inBank st194.sets.selB) = some (aGram + 4)) ∧
    (Admitted rowSetRead (cmd [0x50000000, 0x00000006]) st195) ∧
    (resv (opnd (cmd [0x50000000, 0x00000006]) 0) 0xFF010000 = false) ∧
    (0x50 = fld (opnd (cmd [0x50000000, 0x00000006]) 0) 31 24) ∧
    (0x50 ≠ 0x92) ∧
    (addrMask 0x50 = some (0xFF : Word)) ∧
    (resv (opnd (cmd [0x50000000, 0x00000006]) 1) (0xFF : Word) = false) ∧
    (addrRange 0x50 (opnd (cmd [0x50000000, 0x00000006]) 1) = false) ∧
    (st195.mem.bad.find? (holdsItem (if bit (opnd (cmd [0x50000000, 0x00000006]) 0) 16 then !st195.sets.selB else st195.sets.selB) 0x50 [opnd (cmd [0x50000000, 0x00000006]) 1]) = some 0x38000064) ∧
    (st195.mem.upsets = []) ∧
    (Admitted rowSetRead (cmd [0x40010000, 0x00000006]) st193) ∧
    (resv (opnd (cmd [0x40010000, 0x00000006]) 0) 0xFF010000 = false) ∧
    (0x40 = fld (opnd (cmd [0x40010000, 0x00000006]) 0) 31 24) ∧
    (addrMask 0x40 = some (0x7F007F : Word)) ∧
    (resv (opnd (cmd [0x40010000, 0x00000006]) 1) (0x7F007F : Word) = false) ∧
    (addrRange 0x40 (opnd (cmd [0x40010000, 0x00000006]) 1) = false) ∧
    (st193.mem.bad = []) ∧
    (st193.mem.upsets = []) ∧
    (audioRuns st196 = true) ∧
    (frameStart st196 (fun q => q.laneRate == 3) = true) ∧
    (([⟨0x40, [0x6, 0x8000], some 3⟩, ⟨0x43, [0, 0x000A0000], none⟩]) = st196.sets.placed.filter (fun p => match p.rate with | some r => r == 3 | none => true)) :=
  by and_intros <;> decide +kernel

/-- The hypotheses of ImmediateWrites are met. -/
theorem wit_ImmediateWrites :
    ((cmd [31, 8] (imm := true) ).imm = true) ∧
    (Admitted rowFirSel (cmd [31, 8] (imm := true) ) rn) ∧
    ((bodyFirSel (cmd [31, 8] (imm := true) ) rn).st = .ok) ∧
    ((cmd [31, 8] (imm := true) (mirror := true)).imm = true) ∧
    (Admitted rowFirSel (cmd [31, 8] (imm := true) (mirror := true)) rn) ∧
    ((bodyFirSel (cmd [31, 8] (imm := true) (mirror := true)) rn).st = .ok) ∧
    ((cmd [31, 6] (imm := true) ).imm = true) ∧
    (Admitted rowFirFade (cmd [31, 6] (imm := true) ) rn) ∧
    ((bodyFirFade (cmd [31, 6] (imm := true) ) rn).st = .ok) ∧
    ((cmd [31, 6] (imm := true) (mirror := true)).imm = true) ∧
    (Admitted rowFirFade (cmd [31, 6] (imm := true) (mirror := true)) rn) ∧
    ((bodyFirFade (cmd [31, 6] (imm := true) (mirror := true)) rn).st = .ok) ∧
    ((cmd [0x00050006, 0x8000] (imm := true) ).imm = true) ∧
    (Admitted rowRoute (cmd [0x00050006, 0x8000] (imm := true) ) rn) ∧
    ((bodyRoute (cmd [0x00050006, 0x8000] (imm := true) ) rn).st = .ok) ∧
    ((cmd [0x00050006, 0x8000] (imm := true) (mirror := true)).imm = true) ∧
    (Admitted rowRoute (cmd [0x00050006, 0x8000] (imm := true) (mirror := true)) rn) ∧
    ((bodyRoute (cmd [0x00050006, 0x8000] (imm := true) (mirror := true)) rn).st = .ok) ∧
    ((cmd [0x00050306, 0x80000708, 0x80000000] (imm := true) ).imm = true) ∧
    (Admitted rowGain (cmd [0x00050306, 0x80000708, 0x80000000] (imm := true) ) rn) ∧
    ((bodyGain (cmd [0x00050306, 0x80000708, 0x80000000] (imm := true) ) rn).st = .ok) ∧
    ((cmd [0x00050306, 0x80000708, 0x80000000] (imm := true) (mirror := true)).imm = true) ∧
    (Admitted rowGain (cmd [0x00050306, 0x80000708, 0x80000000] (imm := true) (mirror := true)) rn) ∧
    ((bodyGain (cmd [0x00050306, 0x80000708, 0x80000000] (imm := true) (mirror := true)) rn).st = .ok) ∧
    ((cmd [0x007D0306, 0x1F] (imm := true) ).imm = true) ∧
    (Admitted rowRamp (cmd [0x007D0306, 0x1F] (imm := true) ) rn) ∧
    ((bodyRamp (cmd [0x007D0306, 0x1F] (imm := true) ) rn).st = .ok) ∧
    ((cmd [0x007D0306, 0x1F] (imm := true) (mirror := true)).imm = true) ∧
    (Admitted rowRamp (cmd [0x007D0306, 0x1F] (imm := true) (mirror := true)) rn) ∧
    ((bodyRamp (cmd [0x007D0306, 0x1F] (imm := true) (mirror := true)) rn).st = .ok) ∧
    ((cmd [0x7F, 0xC7D00078] (imm := true) ).imm = true) ∧
    (Admitted rowWeir (cmd [0x7F, 0xC7D00078] (imm := true) ) rn) ∧
    ((bodyWeir (cmd [0x7F, 0xC7D00078] (imm := true) ) rn).st = .ok) ∧
    ((cmd [0x7F, 0xC7D00078] (imm := true) (mirror := true)).imm = true) ∧
    (Admitted rowWeir (cmd [0x7F, 0xC7D00078] (imm := true) (mirror := true)) rn) ∧
    ((bodyWeir (cmd [0x7F, 0xC7D00078] (imm := true) (mirror := true)) rn).st = .ok) ∧
    ((cmd [0x307, 0x801F0080] (imm := true) ).imm = true) ∧
    (Admitted rowMrTap (cmd [0x307, 0x801F0080] (imm := true) ) rn) ∧
    ((bodyMrTap (cmd [0x307, 0x801F0080] (imm := true) ) rn).st = .ok) ∧
    ((cmd [0x307, 0x801F0080] (imm := true) (mirror := true)).imm = true) ∧
    (Admitted rowMrTap (cmd [0x307, 0x801F0080] (imm := true) (mirror := true)) rn) ∧
    ((bodyMrTap (cmd [0x307, 0x801F0080] (imm := true) (mirror := true)) rn).st = .ok) ∧
    ((cmd [33, 0x80000000] (imm := true) ).imm = true) ∧
    (Admitted rowOutCfg (cmd [33, 0x80000000] (imm := true) ) rn) ∧
    ((bodyOutCfg (cmd [33, 0x80000000] (imm := true) ) rn).st = .ok) ∧
    ((cmd [33, 0x80000000] (imm := true) (mirror := true)).imm = true) ∧
    (Admitted rowOutCfg (cmd [33, 0x80000000] (imm := true) (mirror := true)) rn) ∧
    ((bodyOutCfg (cmd [33, 0x80000000] (imm := true) (mirror := true)) rn).st = .ok) ∧
    ((cmd [0x0FFF0003, 5] (imm := true) ).imm = true) ∧
    (Admitted rowCoreParam (cmd [0x0FFF0003, 5] (imm := true) ) rn) ∧
    ((bodyCoreParam (cmd [0x0FFF0003, 5] (imm := true) ) rn).st = .ok) ∧
    ((cmd [0x0FFF0003, 5] (imm := true) (mirror := true)).imm = true) ∧
    (Admitted rowCoreParam (cmd [0x0FFF0003, 5] (imm := true) (mirror := true)) rn) ∧
    ((bodyCoreParam (cmd [0x0FFF0003, 5] (imm := true) (mirror := true)) rn).st = .ok) :=
  by and_intros <;> decide +kernel

/-- The hypotheses of Synchronisation are met. -/
theorem wit_Synchronisation :
    (Admitted rowSync (withFlag (cmd [0x12] (flags := 4)) 2 true) rn) ∧
    (flag (cmd [0x12] (flags := 4)) 0 = false) ∧
    (flag (cmd [0x12] (flags := 4)) 1 = false) ∧
    (resv (opnd (cmd [0x12] (flags := 4)) 0) 0x33 = false) ∧
    (fld (opnd (cmd [0x12] (flags := 4)) 0) 1 0 ≠ 3) ∧
    (fld (opnd (cmd [0x12] (flags := 4)) 0) 5 4 < 2) ∧
    (Admitted rowSync (withFlag (cmd [] (flags := 2)) 1 true) st197) ∧
    (flag (cmd [] (flags := 2)) 0 = false) ∧
    (flag (cmd [] (flags := 2)) 2 = false) ∧
    (st197.clk.outmode ≠ 0) ∧
    (running st197 = true) ∧
    (gridRuns st197 = true) ∧
    (st197.power.padsHeld = false) ∧
    (Admitted rowSync (withFlag (cmd [] (flags := 2)) 1 true) st198) ∧
    (st198.clk.outmode ≠ 0) ∧
    (running st198 = true) ∧
    (gridRuns st198 = true) ∧
    (st198.power.padsHeld = true) ∧
    (Admitted rowSync (withFlag (cmd [] (flags := 2)) 1 true) st199) ∧
    (st199.clk.outmode ≠ 0) ∧
    ((running st199 = false ∨ gridRuns st199 = false)) ∧
    (Admitted rowSync (withFlag (cmd [] (flags := 1)) 0 true) rn) ∧
    (flag (cmd [] (flags := 1)) 1 = false) ∧
    (flag (cmd [] (flags := 1)) 2 = false) ∧
    (rn.clk.a.st ∈ [.locked, .holdover, .holdoverMuted]) ∧
    (running st200 = true) ∧
    (st200.power.padsHeld = false) ∧
    (st200.power.iovddA = true) ∧
    (st200.sets.swap = some (⟨true, false, true, 5⟩ : SwapReq)) ∧
    ((⟨true, false, true, 5⟩ : SwapReq).armed = true) ∧
    (running st201 = true) ∧
    (st201.power.padsHeld = false) ∧
    (st201.power.iovddA = true) ∧
    (st201.sets.swap = none) ∧
    (st201.clk.inmode = 2) ∧
    (gridRuns st201 = true) ∧
    (st202.clk.syncReq = true) ∧
    (running st202 = true) ∧
    (gridRuns st202 = true) :=
  by decide +kernel

/-- The hypotheses of PhaseLockedLoops are met. -/
theorem wit_PhaseLockedLoops :
    (0 < 2) ∧
    (122892 = winCount st203 0 122892) ∧
    (8246337208320 = winExpected st203 0) ∧
    (true = (true && decide (0 < 8246337208320) && withinPpm 8246337208320 122892 (pll st203 0).limit)) ∧
    (st204 = noteWindow 0 122892 true true st203) ∧
    ((pll st203 0).st = .acquiring) ∧
    (true = true) ∧
    ((pll st203 0).good < 2) ∧
    (1 < 2) ∧
    (122868 = winCount st205 1 122868) ∧
    (8246337208320 = winExpected st205 1) ∧
    (true = (true && decide (0 < 8246337208320) && withinPpm 8246337208320 122868 (pll st205 1).limit)) ∧
    (st206 = noteWindow 1 122868 true true st205) ∧
    ((pll st205 1).st = .acquiring) ∧
    (2 ≤ (pll st205 1).good) ∧
    (122880 = winCount st207 0 122880) ∧
    (8246337208320 = winExpected st207 0) ∧
    (true = (true && decide (0 < 8246337208320) && withinPpm 8246337208320 122880 (pll st207 0).limit)) ∧
    (st208 = noteWindow 0 122880 true true st207) ∧
    ((pll st207 0).st = .acquiring) ∧
    (2 ≤ (pll st207 0).good) ∧
    (122893 = winCount st207 0 122893) ∧
    (false = (true && decide (0 < 8246337208320) && withinPpm 8246337208320 122893 (pll st207 0).limit)) ∧
    (st209 = noteWindow 0 122893 true false st207) ∧
    (false = false) ∧
    (false = (false && decide (0 < 8246337208320) && withinPpm 8246337208320 122880 (pll st207 0).limit)) ∧
    (st210 = noteWindow 0 122880 false false st207) ∧
    (122892 = winCount st211 1 122892) ∧
    (8246337208320 = winExpected st211 1) ∧
    (true = (true && decide (0 < 8246337208320) && withinPpm 8246337208320 122892 (pll st211 1).limit)) ∧
    (st212 = noteWindow 1 122892 true true st211) ∧
    ((pll st211 1).st = .locked) ∧
    (122929 = winCount st213 0 122929) ∧
    (8246337208320 = winExpected st213 0) ∧
    (false = (true && decide (0 < 8246337208320) && withinPpm 8246337208320 122929 (pll st213 0).limit)) ∧
    (st214 = noteWindow 0 122929 true false st213) ∧
    ((pll st213 0).st = .locked) ∧
    (withinPpm 8246337208320 122929 (4 * (pll st213 0).limit) = true) ∧
    ((pll st213 0).bad = 0) ∧
    (122929 = winCount st215 0 122929) ∧
    (8246337208320 = winExpected st215 0) ∧
    (false = (true && decide (0 < 8246337208320) && withinPpm 8246337208320 122929 (pll st215 0).limit)) ∧
    (st216 = noteWindow 0 122929 true false st215) ∧
    ((pll st215 0).st = .locked) ∧
    ((withinPpm 8246337208320 122929 (4 * (pll st215 0).limit) = false ∨ 1 ≤ (pll st215 0).bad)) ∧
    (122930 = winCount st217 1 122930) ∧
    (8246337208320 = winExpected st217 1) ∧
    (false = (true && decide (0 < 8246337208320) && withinPpm 8246337208320 122930 (pll st217 1).limit)) ∧
    (st218 = noteWindow 1 122930 true false st217) ∧
    ((pll st217 1).st = .locked) ∧
    ((withinPpm 8246337208320 122930 (4 * (pll st217 1).limit) = false ∨ 1 ≤ (pll st217 1).bad)) ∧
    ((pll rn 0).st = .locked) ∧
    ((pll rn 1).st = .locked) ∧
    ((pll st219 1).st = .acquiring) ∧
    (3 < 4) ∧
    (st220.clk.ref.toNat = 3 + 2) ∧
    (st221.clk.ref = st220.clk.ref) ∧
    ((tdm st220 3).st = .running) ∧
    (tdmMaster (tdm st220 3).cfg = false) ∧
    ((tdm st221 3).st ≠ .running) ∧
    (Admitted rowPllCfg (cmd [2, 0x80000014]) rn) ∧
    (opnd (cmd [2, 0x80000014]) 0 = 2) ∧
    (resv (opnd (cmd [2, 0x80000014]) 1) 0x800000FF = false) ∧
    (fld (opnd (cmd [2, 0x80000014]) 1) 7 0 ≠ 0) ∧
    (rn.sets.swap = none) ∧
    (Admitted rowPllCfg (cmd [0, 0xC00C0504]) rn) ∧
    (opnd (cmd [0, 0xC00C0504]) 0 = toWord 0) ∧
    ((0xC00C0504 : Word) = opnd (cmd [0, 0xC00C0504]) 1) ∧
    (resv (0xC00C0504 : Word) 0xC00F0707 = false) ∧
    (fld (0xC00C0504 : Word) 2 0 ≠ 7) ∧
    (10 ≤ fld (0xC00C0504 : Word) 19 16) ∧
    (threshFits rn 0 (0xC00C0504 : Word) = true) ∧
    ((0 = 0 → 50 * bwHz (fld (0xC00C0504 : Word) 2 0) ≤ refHz rn rn.clk.ref.toNat rn.clk.mclkHz)) ∧
    ((0 = 1 → bit (0xC00C0504 : Word) 31 = true ∧ bit (0xC00C0504 : Word) 30 = false ∧ fld (0xC00C0504 : Word) 2 0 = 6)) ∧
    ((0 = 0 → (bit (0xC00C0504 : Word) 31 ≠ bit rn.clk.a.cfg 31 ∨ bit (0xC00C0504 : Word) 30 ≠ bit rn.clk.a.cfg 30) → audioQuiet rn = true)) ∧
    ((0 = 0 → pllsHeld rn = false)) ∧
    (Admitted rowPllCfg (cmd [0, 0x800C0503]) rn) ∧
    (opnd (cmd [0, 0x800C0503]) 0 = toWord 0) ∧
    ((0x800C0503 : Word) = opnd (cmd [0, 0x800C0503]) 1) ∧
    (resv (0x800C0503 : Word) 0xC00F0707 = false) ∧
    (fld (0x800C0503 : Word) 2 0 ≠ 7) ∧
    (10 ≤ fld (0x800C0503 : Word) 19 16) ∧
    (threshFits rn 0 (0x800C0503 : Word) = true) ∧
    ((0 = 0 → 50 * bwHz (fld (0x800C0503 : Word) 2 0) ≤ refHz rn rn.clk.ref.toNat rn.clk.mclkHz)) ∧
    ((0 = 1 → bit (0x800C0503 : Word) 31 = true ∧ bit (0x800C0503 : Word) 30 = false ∧ fld (0x800C0503 : Word) 2 0 = 6)) ∧
    ((0 = 0 → (bit (0x800C0503 : Word) 31 ≠ bit rn.clk.a.cfg 31 ∨ bit (0x800C0503 : Word) 30 ≠ bit rn.clk.a.cfg 30) → audioQuiet rn = true)) ∧
    (Admitted rowPllCfg (cmd [0, 0x000C0503]) rn) ∧
    (opnd (cmd [0, 0x000C0503]) 0 = toWord 0) ∧
    ((0x000C0503 : Word) = opnd (cmd [0, 0x000C0503]) 1) ∧
    (resv (0x000C0503 : Word) 0xC00F0707 = false) ∧
    (fld (0x000C0503 : Word) 2 0 ≠ 7) ∧
    (10 ≤ fld (0x000C0503 : Word) 19 16) ∧
    (threshFits rn 0 (0x000C0503 : Word) = true) ∧
    ((0 = 0 → 50 * bwHz (fld (0x000C0503 : Word) 2 0) ≤ refHz rn rn.clk.ref.toNat rn.clk.mclkHz)) ∧
    ((0 = 1 → bit (0x000C0503 : Word) 31 = true ∧ bit (0x000C0503 : Word) 30 = false ∧ fld (0x000C0503 : Word) 2 0 = 6)) ∧
    ((0 = 0 → (bit (0x000C0503 : Word) 31 ≠ bit rn.clk.a.cfg 31 ∨ bit (0x000C0503 : Word) 30 ≠ bit rn.clk.a.cfg 30) → audioQuiet rn = true)) ∧
    (Admitted rowPllCfg (cmd [1, 0x800D0506]) rn) ∧
    (opnd (cmd [1, 0x800D0506]) 0 = toWord 1) ∧
    ((0x800D0506 : Word) = opnd (cmd [1, 0x800D0506]) 1) ∧
    (resv (0x800D0506 : Word) 0xC00F0707 = false) ∧
    (fld (0x800D0506 : Word) 2 0 ≠ 7) ∧
    (10 ≤ fld (0x800D0506 : Word) 19 16) ∧
    (threshFits rn 1 (0x800D0506 : Word) = true) ∧
    ((1 = 0 → 50 * bwHz (fld (0x800D0506 : Word) 2 0) ≤ refHz rn rn.clk.ref.toNat rn.clk.mclkHz)) ∧
    ((1 = 1 → bit (0x800D0506 : Word) 31 = true ∧ bit (0x800D0506 : Word) 30 = false ∧ fld (0x800D0506 : Word) 2 0 = 6)) ∧
    ((1 = 0 → (bit (0x800D0506 : Word) 31 ≠ bit rn.clk.a.cfg 31 ∨ bit (0x800D0506 : Word) 30 ≠ bit rn.clk.a.cfg 30) → audioQuiet rn = true)) ∧
    ((1 = 0 → pllsHeld rn = false)) ∧
    (Admitted rowPllCfg (cmd [0, 0xC00C0504]) st222) ∧
    (opnd (cmd [0, 0xC00C0504]) 0 = 0) ∧
    (threshFits st222 0 (0xC00C0504 : Word) = true) ∧
    (st222.sets.swap = none) ∧
    (50 * bwHz (fld (0xC00C0504 : Word) 2 0) ≤ refHz st222 st222.clk.ref.toNat st222.clk.mclkHz) ∧
    (audioQuiet st222 = true) ∧
    (pllsHeld st222 = true) ∧
    (Admitted rowPllCfg (cmd [0, 0x800C0503]) st222) ∧
    (opnd (cmd [0, 0x800C0503]) 0 = 0) ∧
    (threshFits st222 0 (0x800C0503 : Word) = true) ∧
    (50 * bwHz (fld (0x800C0503 : Word) 2 0) ≤ refHz st222 st222.clk.ref.toNat st222.clk.mclkHz) ∧
    (Admitted rowPllRef (cmd [1, 12288000]) rn) ∧
    (resv (opnd (cmd [1, 12288000]) 0) 7 = false) ∧
    (refBad rn (opnd (cmd [1, 12288000]) 0).toNat (opnd (cmd [1, 12288000]) 1) = false) ∧
    (lowestFlow (active rn) (fun f_ q => q.kind == 4 && decide (f_ < 128) && q.rel != 2 && 6 + q.ep / 2 == rn.clk.ref.toNat) = none) ∧
    (Admitted rowPllRef (cmd [1, 12288000]) st207) ∧
    (refBad st207 (opnd (cmd [1, 12288000]) 0).toNat (opnd (cmd [1, 12288000]) 1) = false) ∧
    (lowestFlow (active st207) (fun f_ q => q.kind == 4 && decide (f_ < 128) && q.rel != 2 && 6 + q.ep / 2 == st207.clk.ref.toNat) = none) ∧
    (guardRatio 0 120 = true) ∧
    (guardTrips rn 0 120 1050 = true) ∧
    (rn.clk.a.st ∈ [.locked, .holdover, .holdoverMuted]) ∧
    (guardRatio 1 48 = true) ∧
    (guardTrips rn 1 48 2625 = true) ∧
    (rn.clk.b.st ∈ [.locked, .holdover, .holdoverMuted]) ∧
    ((guardRatio 0 120 = false ∨ guardTrips rn 0 120 1044 = false)) ∧
    ((guardRatio 0 6 = false ∨ guardTrips rn 0 6 100000 = false)) ∧
    (guardTrips st207 0 120 1050 = true) ∧
    ((pll st223 1).guardBad = true) ∧
    (st224.clk.b.gated = true) ∧
    (st224.clk.b.guardBad = false) ∧
    (st224.clk.b.st = .locked) ∧
    (st225.clk.a.gated = true) ∧
    (st225.clk.a.guardBad = false) ∧
    (st225.clk.a.st = .locked) ∧
    (st225.clk.a.guardTrip = false) ∧
    ((pll st226 0).testing = true) ∧
    ((pll st226 0).st = .locked) ∧
    ((pll st226 0).gated = false) ∧
    (60000000000 ≤ since st226 (pll st226 0).lockAt) ∧
    ((pll st227 1).testing = true) ∧
    ((pll st227 1).st = .locked) ∧
    ((pll st227 1).gated = false) ∧
    (60000000000 ≤ since st227 (pll st227 1).lockAt) :=
  by and_intros <;> decide +kernel

/-- The hypotheses of Holdover are met. -/
theorem wit_Holdover :
    (st228.clk.a.st = .holdover) ∧
    ((1000000000 ≤ since st228 st228.clk.a.holdAt ∨ 20000 ≤ driftPpb st228)) ∧
    (st229.clk.restart = true) ∧
    (st229.clk.a.st = .locked) ∧
    (audioRuns st229 = true) ∧
    (commonBoundary st229 = true) :=
  by decide +kernel

/-- The hypotheses of TimebaseAndXref are met. -/
theorem wit_TimebaseAndXref :
    (Admitted rowTimeRead (cmd [] (flags := 1)) rn) ∧
    (Admitted rowTimeRead (cmd []) rn) ∧
    (st230.power.st ≠ .off) ∧
    (running st231 = true) ∧
    (gridRuns st231 = true) ∧
    ((active st231).gov 5 = 5) ∧
    (pllbUnlocked st231 = false) ∧
    (audioRuns st231 = true) ∧
    (lockedFlow st231 1 5 = false) ∧
    ((chan st231 5).run ≠ .off) ∧
    (([3] : List Nat) = runningFlows st231 (fun f_ q => decide (f_ < 128) && q.kind == 1 && q.ep == 5 && q.rel != 0)) ∧
    (([3] : List Nat).Nodup) ∧
    (3 ∈ ([3] : List Nat)) ∧
    (running st232 = true) ∧
    (gridRuns st232 = true) ∧
    ((active st232).gov 5 = 5) ∧
    (pllbUnlocked st232 = true) ∧
    ((chan st232 5).live = true) ∧
    ((active st232).pairMode 5 = 0) ∧
    (128 = cicRatio st232 (active st232) 5) ∧
    ((List.replicate 512 (3 : Int)).length = 4 * 128) ∧
    ((∀ k, (fun k => (((List.replicate 512 (3 : Int)).take (k * 128)).reverse ++ (chan st232 5).dec.codes).take (cicLen * 128)) k = (((List.replicate 512 (3 : Int)).take (k * 128)).reverse ++ (chan st232 5).dec.codes).take (cicLen * 128))) ∧
    ((∀ k, (fun k => Config.cic 128 ((fun k => (((List.replicate 512 (3 : Int)).take (k * 128)).reverse ++ (chan st232 5).dec.codes).take (cicLen * 128)) k)) k = Config.cic 128 ((fun k => (((List.replicate 512 (3 : Int)).take (k * 128)).reverse ++ (chan st232 5).dec.codes).take (cicLen * 128)) k))) ∧
    ((tget ({} : PdmRun) st233.ports.pdmRun (1 / 2)).running = true) ∧
    (masterFree st233 = true) ∧
    (audioRuns st233 = true) ∧
    (1 < 4) ∧
    (((2 = 2 * 1 ∧ ([true, false] : List Bool) = ([(true, false), (false, true)]).map (·.1)) ∨ (2 = 2 * 1 + 1 ∧ ([true, false] : List Bool) = ([(true, false), (false, true)]).map (·.2)))) ∧
    ((24 * pdmPer st233 (pdmCfg st233 0)) = 24 * pdmPer st233 (pdmCfg st233 (1 / 2))) ∧
    ((([true, false].reverse ++ (mic st233 2).bits).take (24 * pdmPer st233 (pdmCfg st233 0))) = (([true, false] : List Bool).reverse ++ (mic st233 2).bits).take (24 * pdmPer st233 (pdmCfg st233 0))) ∧
    (bit (pdmCfg st233 (1 / 2)) 8 = false) ∧
    (((3 = 2 * 1 ∧ ([false, true] : List Bool) = ([(true, false), (false, true)]).map (·.1)) ∨ (3 = 2 * 1 + 1 ∧ ([false, true] : List Bool) = ([(true, false), (false, true)]).map (·.2)))) ∧
    ((([false, true].reverse ++ (mic st233 3).bits).take (24 * pdmPer st233 (pdmCfg st233 0))) = (([false, true] : List Bool).reverse ++ (mic st233 3).bits).take (24 * pdmPer st233 (pdmCfg st233 0))) ∧
    (modRuns st234 5 = true) ∧
    (([8, 7, 6, 5, 4, 3, 2, 1] : List Int) = (([1, 2, 3, 4, 5, 6, 7, 8] : List Int).reverse ++ (chan st234 5).mods).take 15) ∧
    (dacTakes st235 3 = true) ∧
    ((runningFlows st235 (fun f_ q => decide (128 ≤ f_) && q.kind == 2 && q.ep == 3)).head? = some 130) ∧
    ((flowRun st235 130).fifo = (⟨9, 0⟩ : Sample) :: ([⟨8, 0⟩] : List Sample)) ∧
    ((flowRun st235 130).fifoCut = false) ∧
    ((dac st235 3).starve ∈ [.none, .fadeIn]) ∧
    (dacTakes st236 3 = true) ∧
    ((runningFlows st236 (fun f_ q => decide (128 ≤ f_) && q.kind == 2 && q.ep == 3)).head? = some 130) ∧
    ((flowRun st236 130).fifo = (⟨9, 0⟩ : Sample) :: ([⟨8, 0⟩] : List Sample)) ∧
    ((flowRun st236 130).fifoCut = false) ∧
    ((dac st236 3).starve ∈ [.fadeOut, .silent]) ∧
    (dacTakes st237 3 = true) ∧
    ((active st237).outEn 3 = true) ∧
    ((runningFlows st237 (fun f_ q => decide (128 ≤ f_) && q.kind == 2 && q.ep == 3)).head? = some 130) ∧
    ((flowRun st237 130).fifo = []) ∧
    ((flowRun st237 130).ahead = []) ∧
    ((flowRun st237 130).last ≠ none) ∧
    ((dac st237 3).starve = .none) ∧
    (running st238 = true) ∧
    (gridRuns st238 = true) ∧
    ((dac st238 3).g = .one) ∧
    (4 ≠ 3) ∧
    (running st239 = true) ∧
    (gridRuns st239 = true) ∧
    ((dac st239 3).g = .zero) ∧
    (aesSends st240 1 = true) ∧
    ((aesTx st240 1).frame ≠ 0) ∧
    ((runningFlows st240 (fun f_ q => decide (128 ≤ f_) && q.kind == 4 && q.ep == 2 * 1)).head? = some 130) ∧
    ((flowRun st240 130).fifo = (⟨9, 0⟩ : Sample) :: ([] : List Sample)) ∧
    ((flowRun st240 130).fifoCut = false) ∧
    (running rn = true) ∧
    (((rn.clk.a.st = .locked ∧ rn.clk.a.gated = false) ∨ pllbUnlocked rn = false)) ∧
    ((st241.power.st = .rest ∨ st241.power.st = .hibernate)) ∧
    (rn.power.st ≠ .off) ∧
    (st242.power.st ≠ .off) ∧
    (st243.power.st = .run) ∧
    (st243.power.xrefOk = false) ∧
    (st243.power.waking = none) ∧
    (st243.clk.b.st = .off) ∧
    ((st243.sec.otp.xrefFreq = 0 → 97 * 24576000 ≤ 100 * st243.power.straps.xrefHz ∧ 100 * st243.power.straps.xrefHz ≤ 103 * 24576000)) :=
  by and_intros <;> first | rfl | exact fun _ => rfl | decide +kernel

/-- The hypotheses of SleepEntries are met. -/
theorem wit_SleepEntries :
    (Admitted rowSleep (withFlag (cmd [] (flags := 1)) 0 true) rn) ∧
    (rn.power.entry = none) ∧
    (Admitted rowSleep (withFlag (cmd [] (flags := 1)) 0 true) st244) ∧
    (st244.power.entry.isSome = true) ∧
    (Admitted rowSleep (withFlag (cmd [] (flags := 1)) 0 true) st245) ∧
    (st245.power.entry.isSome = true) ∧
    (st246.power.entry = some (⟨3, 0x21, 5, false, [], 7⟩ : SleepEntry)) ∧
    ((⟨3, 0x21, 5, false, [], 7⟩ : SleepEntry).queried = false) ∧
    (refusals st246 = ((7 : BitVec 4), (4 : BitVec 4)) :: ([])) ∧
    (st247.power.entry = some (⟨5, 0x21, 5, false, [], 7⟩ : SleepEntry)) ∧
    ((⟨5, 0x21, 5, false, [], 7⟩ : SleepEntry).queried = false) ∧
    (refusals st247 = []) ∧
    (st248.power.entry = some (⟨3, 0x21, 5, false, [], 7⟩ : SleepEntry)) ∧
    (refusals st248 = []) ∧
    (st249.power.entry = some (⟨3, 0x21, 5, true, [1, 5], 7⟩ : SleepEntry)) ∧
    ((⟨3, 0x21, 5, true, [1, 5], 7⟩ : SleepEntry).queried = true) ∧
    (5 ≠ 8) ∧
    (agentReady st249 (⟨3, 0x21, 5, true, [1, 5], 7⟩ : SleepEntry).target 5 = true) ∧
    (st250.power.entry = some (⟨3, 0x21, 5, true, [8], 7⟩ : SleepEntry)) ∧
    ((⟨3, 0x21, 5, true, [8], 7⟩ : SleepEntry).queried = true) ∧
    (8 ∈ (⟨3, 0x21, 5, true, [8], 7⟩ : SleepEntry).delays) ∧
    (st251.power.entry = some (⟨5, 0x21, 5, true, [4], 7⟩ : SleepEntry)) ∧
    ((⟨5, 0x21, 5, true, [4], 7⟩ : SleepEntry).queried = true) ∧
    (4 ∈ (⟨5, 0x21, 5, true, [4], 7⟩ : SleepEntry).delays) ∧
    (maxDelay (⟨5, 0x21, 5, true, [4], 7⟩ : SleepEntry).target 4 ≤ since st251 (⟨5, 0x21, 5, true, [4], 7⟩ : SleepEntry).since) ∧
    (Admitted rowSleep (withFlag (cmd [150000, 0x23, 7]) 0 false) st252) ∧
    (150000 = (opnd (cmd [150000, 0x23, 7]) 0).toNat) ∧
    ((0x23 : Word) = opnd (cmd [150000, 0x23, 7]) 1) ∧
    (resv (0x23 : Word) 0x3F = false) ∧
    (st252.sets.swap = none) ∧
    (st252.power.onRc = false) ∧
    (5 ≤ 150000) ∧
    ((0x23 : Word) ≠ 0) ∧
    ((bit (0x23 : Word) 5 = true → opnd (cmd [150000, 0x23, 7]) 2 ≠ 0)) ∧
    (((0x23 : Word) &&& 0xE ≠ 0 → anyJack st252 = true)) ∧
    (Admitted rowSleep (withFlag (cmd [45000, 0x21, 7]) 0 false) st253) ∧
    (45000 = (opnd (cmd [45000, 0x21, 7]) 0).toNat) ∧
    ((0x21 : Word) = opnd (cmd [45000, 0x21, 7]) 1) ∧
    (resv (0x21 : Word) 0x3F = false) ∧
    (st253.sets.swap = none) ∧
    (st253.power.onRc = false) ∧
    (5 ≤ 45000) ∧
    ((0x21 : Word) ≠ 0) ∧
    ((bit (0x21 : Word) 5 = true → opnd (cmd [45000, 0x21, 7]) 2 ≠ 0)) ∧
    (((0x21 : Word) &&& 0xE ≠ 0 → anyJack st253 = true)) ∧
    (Admitted rowSleep (withFlag (cmd [197, 0x21, 7]) 0 false) st253) ∧
    (197 = (opnd (cmd [197, 0x21, 7]) 0).toNat) ∧
    ((0x21 : Word) = opnd (cmd [197, 0x21, 7]) 1) ∧
    (5 ≤ 197) ∧
    ((bit (0x21 : Word) 5 = true → opnd (cmd [197, 0x21, 7]) 2 ≠ 0)) ∧
    (Admitted rowSleep (withFlag (cmd [196, 0x1, 7]) 0 false) st253) ∧
    (196 = (opnd (cmd [196, 0x1, 7]) 0).toNat) ∧
    ((0x1 : Word) = opnd (cmd [196, 0x1, 7]) 1) ∧
    (resv (0x1 : Word) 0x3F = false) ∧
    (5 ≤ 196) ∧
    ((0x1 : Word) ≠ 0) ∧
    ((bit (0x1 : Word) 5 = true → opnd (cmd [196, 0x1, 7]) 2 ≠ 0)) ∧
    (((0x1 : Word) &&& 0xE ≠ 0 → anyJack st253 = true)) ∧
    (Admitted rowSleep (withFlag (cmd [5, 0x11, 7]) 0 false) st253) ∧
    (5 = (opnd (cmd [5, 0x11, 7]) 0).toNat) ∧
    ((0x11 : Word) = opnd (cmd [5, 0x11, 7]) 1) ∧
    (resv (0x11 : Word) 0x3F = false) ∧
    (5 ≤ 5) ∧
    ((0x11 : Word) ≠ 0) ∧
    ((bit (0x11 : Word) 5 = true → opnd (cmd [5, 0x11, 7]) 2 ≠ 0)) ∧
    (((0x11 : Word) &&& 0xE ≠ 0 → anyJack st253 = true)) ∧
    (st254.power.entry = some (⟨2, 0x21, 5, true, [], 7⟩ : SleepEntry)) ∧
    ((⟨2, 0x21, 5, true, [], 7⟩ : SleepEntry).queried = true) ∧
    ((⟨2, 0x21, 5, true, [], 7⟩ : SleepEntry).delays = []) ∧
    (((⟨2, 0x21, 5, true, [], 7⟩ : SleepEntry).target = 2 ∨ st254.sense.idx = none)) ∧
    ((audioRuns st254 = true → commonBoundary st254 = true)) ∧
    (st255.power.entry = some (⟨3, 0x21, 5, true, [], 7⟩ : SleepEntry)) ∧
    ((⟨3, 0x21, 5, true, [], 7⟩ : SleepEntry).queried = true) ∧
    ((⟨3, 0x21, 5, true, [], 7⟩ : SleepEntry).delays = []) ∧
    (((⟨3, 0x21, 5, true, [], 7⟩ : SleepEntry).target = 2 ∨ st255.sense.idx = none)) ∧
    ((audioRuns st255 = true → commonBoundary st255 = true)) ∧
    (st256.power.entry = some (⟨5, 0x21, 5, true, [], 7⟩ : SleepEntry)) ∧
    ((⟨5, 0x21, 5, true, [], 7⟩ : SleepEntry).queried = true) ∧
    ((⟨5, 0x21, 5, true, [], 7⟩ : SleepEntry).delays = []) ∧
    (((⟨5, 0x21, 5, true, [], 7⟩ : SleepEntry).target = 2 ∨ st256.sense.idx = none)) ∧
    ((audioRuns st256 = true → commonBoundary st256 = true)) ∧
    (st257.power.entry = some (⟨6, 0x21, 5, true, [], 7⟩ : SleepEntry)) ∧
    ((⟨6, 0x21, 5, true, [], 7⟩ : SleepEntry).queried = true) ∧
    ((⟨6, 0x21, 5, true, [], 7⟩ : SleepEntry).delays = []) ∧
    (((⟨6, 0x21, 5, true, [], 7⟩ : SleepEntry).target = 2 ∨ st257.sense.idx = none)) ∧
    ((audioRuns st257 = true → commonBoundary st257 = true)) :=
  by and_intros <;> decide +kernel

/-- The hypotheses of WakeEventsAndPads are met. -/
theorem wit_WakeEventsAndPads :
    (st258.power.st ∈ [.doze, .nap, .rest, .hibernate]) ∧
    (st258.power.wakeMask.getLsbD 0 = true) ∧
    (st258.power.waking = none) ∧
    (st259.power.st ∈ [.doze, .nap, .rest, .hibernate]) ∧
    (st259.power.wakeMask.getLsbD 0 = true) ∧
    (st259.power.waking = none) ∧
    (st260.power.st ∈ [.doze, .nap, .rest, .hibernate]) ∧
    (st260.power.wakeMask.getLsbD 0 = true) ∧
    (st260.power.waking = none) ∧
    (st261.power.st ∈ [.doze, .nap, .rest, .hibernate]) ∧
    (st261.power.wakeMask.getLsbD 0 = true) ∧
    (st261.power.waking = none) ∧
    (st262.power.st ∈ [.doze, .nap, .rest, .hibernate]) ∧
    (st262.power.wakeMask.getLsbD 0 = false) ∧
    (st263.power.st = .entering) ∧
    (st263.power.entry = some (⟨5, 0x21, 5, true, [], 7⟩ : SleepEntry)) ∧
    ((⟨5, 0x21, 5, true, [], 7⟩ : SleepEntry).mask.getLsbD 0 = true) ∧
    (st264.power.st ∈ [.wakeHold, .wakeHoldDark]) ∧
    (st265.power.st ∈ [.wakeHold, .wakeHoldDark]) ∧
    (st266.power.st ∈ [.wakeHold, .wakeHoldDark]) ∧
    (st259.power.wakeMask.getLsbD 5 = true) ∧
    (st259.power.timer * 1000000 ≤ since st259 st259.power.commitAt) ∧
    (st261.power.wakeMask.getLsbD 5 = true) ∧
    (st261.power.timer * 1000000 ≤ since st261 st261.power.commitAt) ∧
    (since st267 st267.power.commitAt < st267.power.timer * 1000000) ∧
    (Admitted rowPadsRelease (cmd []) rn) ∧
    (rn.power.st ≠ .wakeHold) ∧
    (rn.power.st ≠ .wakeHoldDark) ∧
    (rn.power.padsHeld = false) ∧
    (Admitted rowPadsRelease (cmd []) st268) ∧
    (st268.power.st ≠ .wakeHold) ∧
    (st268.power.st ≠ .wakeHoldDark) ∧
    (st268.power.padsHeld = true) ∧
    (Admitted rowPadsRelease (cmd []) st269) ∧
    (st269.power.st = .wakeHold) :=
  by decide +kernel

/-- The hypotheses of WakeSequence are met. -/
theorem wit_WakeSequence :
    (st270.power.waking = some .dvdd) ∧
    (st270.power.stepOff = none) ∧
    (st270.power.st ≠ .hibernate) ∧
    (st271.power.waking = some .dvdd) ∧
    (st271.power.stepOff = none) ∧
    (st271.power.st = .hibernate) ∧
    (st271.power.straps.bromOk = true) ∧
    (st271.power.straps.otpOk = true) ∧
    (otpAnyLost st271 = false) ∧
    (st270.power.retries ≠ 3) ∧
    ((st270.power.waking = some .dvdd ∧ 2000000 ≤ since st270 st270.power.stepSince) ∨ (st270.power.waking = some .xref ∧ 5000000 ≤ since st270 st270.power.stepSince)) ∧
    (st272.power.stepOff = none) ∧
    (st272.power.retries ≠ 3) ∧
    ((st272.power.waking = some .dvdd ∧ 2000000 ≤ since st272 st272.power.stepSince) ∨ (st272.power.waking = some .xref ∧ 5000000 ≤ since st272 st272.power.stepSince)) ∧
    (st273.power.stepOff = none) ∧
    (st273.power.retries ≠ 3) ∧
    (st273.power.waking = some .pll) ∧
    (st273.power.st = .nap) ∧
    (pllbUnlocked st273 = true) ∧
    (5000000 ≤ since st273 st273.power.stepSince) ∧
    (st274.power.stepOff = none) ∧
    (st274.power.retries = 3) ∧
    (st274.power.waking = some .dvdd) ∧
    (2000000 ≤ since st274 st274.power.stepSince) ∧
    (st275.power.stepOff = none) ∧
    (st275.power.retries = 3) ∧
    (st275.power.waking = some .xref) ∧
    (5000000 ≤ since st275 st275.power.stepSince) ∧
    (st276.power.stepOff = some 7) ∧
    (1000000 ≤ since st276 7) ∧
    (st276.power.waking ≠ some .pll) ∧
    (st277.power.stepOff = some 7) ∧
    (1000000 ≤ since st277 7) ∧
    (st277.power.waking = some .pll) ∧
    (wakeDone st278 = true) ∧
    (wakeDone st279 = true) ∧
    (wakeDone st280 = true) ∧
    (wakeDone st281 = true) ∧
    (st282.power.audioWait = true) ∧
    (running st282 = true) ∧
    (gridRuns st282 = true) ∧
    (pllbUnlocked st282 = false) ∧
    (inSafe st282 = false) :=
  by and_intros <;> decide +kernel

/-- The hypotheses of Resets are met. -/
theorem wit_Resets :
    (Admitted rowResetSoft (cmd []) rn) ∧
    (st283.power.restarting = true) ∧
    (Admitted rowResetCore (cmd []) st284) ∧
    ((∀ k < 8, (tget {} st284.seals.seals k).isOpen = false)) ∧
    (Admitted rowResetCore (cmd []) st285) ∧
    ((∀ k < 8, (tget {} st285.seals.seals k).isOpen = false)) ∧
    (st286.power.st ≠ .off) ∧
    (Twf {} st286.outs.dacs) :=
  by decide +kernel

/-- The hypotheses of WatchdogAndSupplies are met. -/
theorem wit_WatchdogAndSupplies :
    (Admitted rowWdtCfg (cmd [0xE000000C]) rn) ∧
    (resv (opnd (cmd [0xE000000C]) 0) 0xE000000F = false) ∧
    (4 ≤ fld (opnd (cmd [0xE000000C]) 0) 3 0) ∧
    (fld (opnd (cmd [0xE000000C]) 0) 3 0 ≤ 12) ∧
    (bit rn.power.wdt 29 = false) ∧
    (Admitted rowWdtCfg (cmd [0xE0000004]) st287) ∧
    (resv (opnd (cmd [0xE0000004]) 0) 0xE000000F = false) ∧
    (4 ≤ fld (opnd (cmd [0xE0000004]) 0) 3 0) ∧
    (fld (opnd (cmd [0xE0000004]) 0) 3 0 ≤ 12) ∧
    (bit st287.power.wdt 29 = true) ∧
    (bit st288.power.wdt 31 = true) ∧
    (running st288 = true) ∧
    (2 ^ fld st288.power.wdt 3 0 * 1000000 ≤ since st288 st288.power.wdtAt) ∧
    (st288.power.straps.bromOk = true) ∧
    (st288.power.straps.otpOk = true) ∧
    (otpAnyLost st288 = false) ∧
    (bit st289.power.wdt 31 = true) ∧
    (running st289 = true) ∧
    (2 ^ fld st289.power.wdt 3 0 * 1000000 ≤ since st289 st289.power.wdtAt) ∧
    (st289.power.straps.bromOk = true) ∧
    (st289.power.straps.otpOk = true) ∧
    (otpAnyLost st289 = false) ∧
    (bit st290.power.wdt 31 = true) ∧
    (running st290 = true) ∧
    (2 ^ fld st290.power.wdt 3 0 * 1000000 ≤ since st290 st290.power.wdtAt) ∧
    (st290.power.straps.bromOk = false) ∧
    (since st291 st291.power.wdtAt < 2 ^ fld st291.power.wdt 3 0 * 1000000) ∧
    (st292.power.st ≠ .off) ∧
    (st292.power.iovddA = true) ∧
    (st293.power.st ≠ .off) ∧
    (st293.power.spkvdd = false) ∧
    (st294.power.st ≠ .off) ∧
    (st294.power.iovddA = false) :=
  by decide +kernel

/-- The hypotheses of AdaptiveSupply are met. -/
theorem wit_AdaptiveSupply :
    (Admitted rowAvsCfg (cmd [0x007F00FF, 0x02EE0384]) st295) ∧
    (resv (opnd (cmd [0x007F00FF, 0x02EE0384]) 0) 0x807F00FF = false) ∧
    (resv (opnd (cmd [0x007F00FF, 0x02EE0384]) 1) 0x03FF03FF = false) ∧
    (750 ≤ fld (opnd (cmd [0x007F00FF, 0x02EE0384]) 1) 25 16) ∧
    (fld (opnd (cmd [0x007F00FF, 0x02EE0384]) 1) 9 0 ≤ 900) ∧
    (fld (opnd (cmd [0x007F00FF, 0x02EE0384]) 1) 25 16 ≤ fld (opnd (cmd [0x007F00FF, 0x02EE0384]) 1) 9 0) ∧
    (bit (opnd (cmd [0x007F00FF, 0x02EE0384]) 0) 31 = false) ∧
    (Admitted rowAvsCfg (cmd [0x807F00FF, 0x02EE0384]) st295) ∧
    (resv (opnd (cmd [0x807F00FF, 0x02EE0384]) 0) 0x807F00FF = false) ∧
    (resv (opnd (cmd [0x807F00FF, 0x02EE0384]) 1) 0x03FF03FF = false) ∧
    (750 ≤ fld (opnd (cmd [0x807F00FF, 0x02EE0384]) 1) 25 16) ∧
    (fld (opnd (cmd [0x807F00FF, 0x02EE0384]) 1) 9 0 ≤ 900) ∧
    (fld (opnd (cmd [0x807F00FF, 0x02EE0384]) 1) 25 16 ≤ fld (opnd (cmd [0x807F00FF, 0x02EE0384]) 1) 9 0) ∧
    (bit (opnd (cmd [0x807F00FF, 0x02EE0384]) 0) 31 = true) ∧
    (bit st296.power.avs0 31 = true) ∧
    (running st296 = true) ∧
    (st296.power.request ≠ st296.power.target) ∧
    ((st296.power.stepAt = 0 ∨ 1000000 ≤ since st296 st296.power.stepAt)) ∧
    (bit st297.power.avs0 31 = true) ∧
    (running st297 = true) ∧
    (st297.power.request ≠ st297.power.target) ∧
    ((st297.power.stepAt = 0 ∨ 1000000 ≤ since st297 st297.power.stepAt)) ∧
    (bit st298.power.avs0 31 = true) ∧
    (running st298 = true) ∧
    ((∀ x ∈ st298.power.avsSteps, since st298 x < 5000000)) ∧
    (bit st299.power.avs0 31 = true) ∧
    (running st299 = true) ∧
    ((∃ x ∈ st299.power.avsSteps, 5000000 ≤ since st299 x)) ∧
    (810 ≤ st299.power.request + 10) ∧
    (st299.power.request ≤ 810 + 10) ∧
    (bit st300.power.avs0 31 = true) ∧
    (running st300 = true) ∧
    ((∃ x ∈ st300.power.avsSteps, 5000000 ≤ since st300 x)) ∧
    (st300.power.request + 10 < 811 ∨ 811 + 10 < st300.power.request) ∧
    (bit st301.power.avs0 31 = true) ∧
    (running st301 = true) ∧
    ((∃ x ∈ st301.power.avsSteps, 5000000 ≤ since st301 x)) ∧
    (st301.power.request + 10 < 789 ∨ 789 + 10 < st301.power.request) ∧
    (bit st302.power.avs0 31 = true) ∧
    (running st302 = true) :=
  by decide +kernel

/-- The hypotheses of MarginPlanner are met. -/
theorem wit_MarginPlanner :
    (runDue st303 = true) ∧
    ((⟨[(640000, 620000), (641000, 640000)], 2050, 2730, 1400, 100, 200⟩ : PlannerMeas).pairs = ([] : List (Nat × Nat)) ++ ((640000, 620000) : Nat × Nat) :: ([(641000, 640000)] : List (Nat × Nat))) ∧
    ((∀ q ∈ ([] : List (Nat × Nat)), ((640000, 620000) : Nat × Nat).1 < q.1)) ∧
    ((∀ q ∈ ([(641000, 640000)] : List (Nat × Nat)), ((640000, 620000) : Nat × Nat).1 ≤ q.1)) ∧
    (st303.margin.mn ≤ 255) ∧
    (st303.margin.mh ≤ 255) ∧
    (fld st303.power.avs1 9 0 ≤ 900) ∧
    ((∀ c v, (fun c v => 1000 * c * (2560000 + 12 * (v - 75 * (⟨[(640000, 620000), (641000, 640000)], 2050, 2730, 1400, 100, 200⟩ : PlannerMeas).sn26)) * (12976 + (⟨[(640000, 620000), (641000, 640000)], 2050, 2730, 1400, 100, 200⟩ : PlannerMeas).sn27)) c v = 1000 * c * (2560000 + 12 * (v - 75 * (⟨[(640000, 620000), (641000, 640000)], 2050, 2730, 1400, 100, 200⟩ : PlannerMeas).sn26)) * (12976 + (⟨[(640000, 620000), (641000, 640000)], 2050, 2730, 1400, 100, 200⟩ : PlannerMeas).sn27))) ∧
    (((if derated st303 then 479232000 else 491520000) * 40960000000 : Int) = (if derated st303 then 479232000 else 491520000) * 40960000000) ∧
    (runDue st304 = true) ∧
    (st304.margin.mn ≤ 255) ∧
    (st304.margin.mh ≤ 255) ∧
    (fld st304.power.avs1 9 0 ≤ 900) ∧
    (((if derated st304 then 479232000 else 491520000) * 40960000000 : Int) = (if derated st304 then 479232000 else 491520000) * 40960000000) ∧
    ((⟨[(640000, 639000), (590000, 591000), (590000, 560000)], 2050, 2731, 1400, 700, 940⟩ : PlannerMeas).pairs = ([(640000, 639000)] : List (Nat × Nat)) ++ ((590000, 591000) : Nat × Nat) :: ([(590000, 560000)] : List (Nat × Nat))) ∧
    ((∀ q ∈ ([(640000, 639000)] : List (Nat × Nat)), ((590000, 591000) : Nat × Nat).1 < q.1)) ∧
    ((∀ q ∈ ([(590000, 560000)] : List (Nat × Nat)), ((590000, 591000) : Nat × Nat).1 ≤ q.1)) ∧
    ((∀ c v, (fun c v => 1000 * c * (2560000 + 12 * (v - 75 * (⟨[(640000, 639000), (590000, 591000), (590000, 560000)], 2050, 2731, 1400, 700, 940⟩ : PlannerMeas).sn26)) * (12976 + (⟨[(640000, 639000), (590000, 591000), (590000, 560000)], 2050, 2731, 1400, 700, 940⟩ : PlannerMeas).sn27)) c v = 1000 * c * (2560000 + 12 * (v - 75 * (⟨[(640000, 639000), (590000, 591000), (590000, 560000)], 2050, 2731, 1400, 700, 940⟩ : PlannerMeas).sn26)) * (12976 + (⟨[(640000, 639000), (590000, 591000), (590000, 560000)], 2050, 2731, 1400, 700, 940⟩ : PlannerMeas).sn27))) ∧
    (750 ≤ fld st305.power.avs1 25 16) ∧
    (fld st305.power.avs1 9 0 ≤ 900) ∧
    (fld st305.power.avs1 25 16 ≤ st305.power.request) ∧
    ((fun w => fld st305.power.avs1 25 16 ≤ w ∧ w ≤ fld st305.power.avs1 9 0 ∧ w % 5 = st305.power.request % 5 ∧ tmAtLeast st305 (⟨[(700000, 690000)], 2050, 2730, 1400, 100, 200⟩ : PlannerMeas) (256 * w) 10 = true : Nat → Prop) 750) ∧
    ((∀ u, (fun w => fld st305.power.avs1 25 16 ≤ w ∧ w ≤ fld st305.power.avs1 9 0 ∧ w % 5 = st305.power.request % 5 ∧ tmAtLeast st305 (⟨[(700000, 690000)], 2050, 2730, 1400, 100, 200⟩ : PlannerMeas) (256 * w) 10 = true : Nat → Prop) u → 750 ≤ u)) ∧
    (750 ≤ fld st306.power.avs1 25 16) ∧
    (fld st306.power.avs1 9 0 ≤ 900) ∧
    (fld st306.power.avs1 25 16 ≤ st306.power.request) ∧
    ((∀ u, ¬(fun w => fld st306.power.avs1 25 16 ≤ w ∧ w ≤ fld st306.power.avs1 9 0 ∧ w % 5 = st306.power.request % 5 ∧ tmAtLeast st306 (⟨[(700000, 690000)], 2050, 2730, 1400, 100, 200⟩ : PlannerMeas) (256 * w) 10 = true : Nat → Prop) u)) ∧
    (runDue st307 = true) ∧
    (st307.margin.mn ≤ 255) ∧
    (st307.margin.mh ≤ 255) ∧
    (Admitted rowMarginRead (cmd [1]) st308) ∧
    ((opnd (cmd [1]) 0).toNat ≤ 31) ∧
    (st308.mem.bad = []) ∧
    (Admitted rowMarginRead (cmd [32]) rn) ∧
    (31 < (opnd (cmd [32]) 0).toNat) :=
  by and_intros <;> first | rfl | exact fun _ _ => rfl | decide +kernel | exact fun u (h : _ ∧ _) => absurd (Nat.le_trans h.1 h.2.1) (by decide +kernel) | exact fun u h => Nat.le_trans (by decide +kernel) h.1

/-- The hypotheses of FaultLog are met. -/
theorem wit_FaultLog :
    (0x0A < 256) ∧
    (st309.flt.log.length ≤ 64) ∧
    (Admitted rowFaultRead (cmd [0x0200]) st310) ∧
    (resv (opnd (cmd [0x0200]) 0) 0x7F3F = false) ∧
    (st310.mem.bad = []) ∧
    (1 ≤ (fld (opnd (cmd [0x0200]) 0) 14 8)) ∧
    ((fld (opnd (cmd [0x0200]) 0) 5 0) + (fld (opnd (cmd [0x0200]) 0) 14 8) ≤ 64) ∧
    (Admitted rowFaultClear (cmd []) st311) ∧
    (testsBusy st311 = false) ∧
    (Admitted rowFaultClear (cmd []) st312) ∧
    (testsBusy st312 = true) ∧
    (logicOn rn = true) ∧
    (pllbUnlocked rn = false) ∧
    (3 < 4) ∧
    (0x20000006 < 2 ^ 32) ∧
    (0x20000006 / 4 * 4 ∉ rn.mem.bad) ∧
    (rowOf 0x20000006 = some ((rowOf 0x20000006 |>.getD (0, 0, 0)).1, (rowOf 0x20000006 |>.getD (0, 0, 0)).2.1, (rowOf 0x20000006 |>.getD (0, 0, 0)).2.2)) ∧
    ((running st312 && !pllbUnlocked st312) = true) ∧
    (st312.flt.testing = false) ∧
    (st312.flt.tests.find? (testMayRun st312) = some (⟨9, 4⟩ : FaultTest)) ∧
    (testOf (⟨9, 4⟩ : FaultTest).source = 5) ∧
    (([⟨2 ^ 29, 0 - 2 ^ 29, false⟩] : List InjectLevels).length = (if (⟨9, 4⟩ : FaultTest).source = 8 then 8 else 1)) ∧
    (([⟨2 ^ 29, 0, false⟩] : List InjectLevels).length = (if (⟨9, 4⟩ : FaultTest).source = 8 then 8 else 1)) ∧
    (testOf (⟨1, 4⟩ : FaultTest).source ≠ 5) ∧
    (running st313 = true) ∧
    (pllbUnlocked st313 = false) ∧
    (st313.flt.tests = (⟨9, 4⟩ : FaultTest) :: ([] : List FaultTest)) ∧
    (st313.flt.testing = true) ∧
    (testMayRun st313 (⟨9, 4⟩ : FaultTest) = true) ∧
    (testVerdict (⟨9, 4⟩ : FaultTest) (.inject [⟨2 ^ 29, 0 - 2 ^ 29, false⟩] : TestReading) = some true) ∧
    (beatUpset 8 st313 = none) ∧
    (st313.cp.lock = none) ∧
    (st313.flt.log = [(⟨0x09110000, 0, 0, 0, 4, 5⟩ : FaultEntry)]) ∧
    ((⟨0x09110000, 0, 0, 0, 4, 5⟩ : FaultEntry).site = (⟨9, 4⟩ : FaultTest).site) ∧
    (fld (⟨0x09110000, 0, 0, 0, 4, 5⟩ : FaultEntry).w0 23 20 = 1) ∧
    ((⟨0x09110000, 0, 0, 0, 4, 5⟩ : FaultEntry).row = none) ∧
    (st314.flt.tests = (⟨9, 4⟩ : FaultTest) :: ([] : List FaultTest)) ∧
    (testMayRun st314 (⟨9, 4⟩ : FaultTest) = false) ∧
    (running st315 = true) ∧
    (pllbUnlocked st315 = false) ∧
    (st315.flt.tests = (⟨1, 2 ^ 40 + 5 * 65536 + 9⟩ : FaultTest) :: ([] : List FaultTest)) ∧
    (st315.flt.testing = true) ∧
    (testMayRun st315 (⟨1, 2 ^ 40 + 5 * 65536 + 9⟩ : FaultTest) = true) ∧
    (testOf (⟨1, 2 ^ 40 + 5 * 65536 + 9⟩ : FaultTest).source ≠ 5) ∧
    (beatUpset 8 st315 = none) ∧
    (st315.cp.lock = none) ∧
    (st315.flt.log = [(⟨0x01110000, 0, BitVec.ofNat 32 (5 * 2 ^ 23 + 9), 0, 2 ^ 40 + 5 * 65536 + 9, 5⟩ : FaultEntry)]) ∧
    ((⟨0x01110000, 0, BitVec.ofNat 32 (5 * 2 ^ 23 + 9), 0, 2 ^ 40 + 5 * 65536 + 9, 5⟩ : FaultEntry).site = (⟨1, 2 ^ 40 + 5 * 65536 + 9⟩ : FaultTest).site) ∧
    (fld (⟨0x01110000, 0, BitVec.ofNat 32 (5 * 2 ^ 23 + 9), 0, 2 ^ 40 + 5 * 65536 + 9, 5⟩ : FaultEntry).w0 23 20 = 1) ∧
    ((⟨1, 2 ^ 40 + 5 * 65536 + 9⟩ : FaultTest).site / 2 ^ 40 = 1 ∨ (⟨1, 2 ^ 40 + 5 * 65536 + 9⟩ : FaultTest).site / 2 ^ 40 = 0x0B) ∧
    (fld (⟨0x01110000, 0, BitVec.ofNat 32 (5 * 2 ^ 23 + 9), 0, 2 ^ 40 + 5 * 65536 + 9, 5⟩ : FaultEntry).w2 27 23 < 31) ∧
    ((tget [] st315.flt.repaired (fld (⟨0x01110000, 0, BitVec.ofNat 32 (5 * 2 ^ 23 + 9), 0, 2 ^ 40 + 5 * 65536 + 9, 5⟩ : FaultEntry).w2 27 23)).length < 2) ∧
    (fld (⟨0x01110000, 0, BitVec.ofNat 32 (5 * 2 ^ 23 + 9), 0, 2 ^ 40 + 5 * 65536 + 9, 5⟩ : FaultEntry).w0 15 14 = 0) ∧
    (st316.power.st = .run) ∧
    (pllbUnlocked st316 = false) ∧
    (st316.cp.lock = none) ∧
    (beatUpset 8 st316 = none) ∧
    (([.lane 3 .data] : List Upset).all (fun u => match u with | .otp _ => false | _ => true) = true) ∧
    (3 < 128) ∧
    ((⟨0x10000007, 0x00330000, 0, 0⟩ : Quad) = (active st317).flow 3) ∧
    ((⟨0x10000007, 0x00330000, 0, 0⟩ : Quad).bound = true) ∧
    ((flowRun st317 3).running = true) ∧
    (audioRuns st317 = true) ∧
    (st317.cp.lock = none) ∧
    (ingressSample 3 (⟨0x10000007, 0x00330000, 0, 0⟩ : Quad) ([5] : List Int) ([] : List Int) st317 = ((ingressSample 3 (⟨0x10000007, 0x00330000, 0, 0⟩ : Quad) ([5] : List Int) ([] : List Int) st317).1, (ingressSample 3 (⟨0x10000007, 0x00330000, 0, 0⟩ : Quad) ([5] : List Int) ([] : List Int) st317).2)) ∧
    (contextUpset st317 3 = none) ∧
    (ingressUpset (ingressSample 3 (⟨0x10000007, 0x00330000, 0, 0⟩ : Quad) ([5] : List Int) ([] : List Int) st317).2 3 = some (9 : Word)) ∧
    (upset (ingressSample 3 (⟨0x10000007, 0x00330000, 0, 0⟩ : Quad) ([5] : List Int) ([] : List Int) st317).2 (.request 6) = false) ∧
    (kept (ingressSample 3 (⟨0x10000007, 0x00330000, 0, 0⟩ : Quad) ([5] : List Int) ([] : List Int) st317).2 3 (⟨0x10000007, 0x00330000, 0, 0⟩ : Quad) = true) ∧
    ((flowRun (ingressSample 3 (⟨0x10000007, 0x00330000, 0, 0⟩ : Quad) ([5] : List Int) ([] : List Int) st317).2 3).startLeft = 0) ∧
    ((flowRun (ingressSample 3 (⟨0x10000007, 0x00330000, 0, 0⟩ : Quad) ([5] : List Int) ([] : List Int) st317).2 3).delay = []) ∧
    ((flowRun (ingressSample 3 (⟨0x10000007, 0x00330000, 0, 0⟩ : Quad) ([5] : List Int) ([] : List Int) st317).2 3).cutNext = false) ∧
    (gHeld (ingressSample 3 (⟨0x10000007, 0x00330000, 0, 0⟩ : Quad) ([5] : List Int) ([] : List Int) st317).2 = false) ∧
    ((⟨0x30000007, 0x00330000, 0, 0⟩ : Quad) = (active st318).flow 3) ∧
    ((⟨0x30000007, 0x00330000, 0, 0⟩ : Quad).bound = true) ∧
    ((flowRun st318 3).running = true) ∧
    (audioRuns st318 = true) ∧
    (st318.cp.lock = none) ∧
    (ingressSample 3 (⟨0x30000007, 0x00330000, 0, 0⟩ : Quad) ([5] : List Int) ([] : List Int) st318 = ((ingressSample 3 (⟨0x30000007, 0x00330000, 0, 0⟩ : Quad) ([5] : List Int) ([] : List Int) st318).1, (ingressSample 3 (⟨0x30000007, 0x00330000, 0, 0⟩ : Quad) ([5] : List Int) ([] : List Int) st318).2)) ∧
    (contextUpset st318 3 = none) ∧
    (ingressUpset (ingressSample 3 (⟨0x30000007, 0x00330000, 0, 0⟩ : Quad) ([5] : List Int) ([] : List Int) st318).2 3 = some (9 : Word)) ∧
    (upset (ingressSample 3 (⟨0x30000007, 0x00330000, 0, 0⟩ : Quad) ([5] : List Int) ([] : List Int) st318).2 (.request 6) = false) ∧
    (kept (ingressSample 3 (⟨0x30000007, 0x00330000, 0, 0⟩ : Quad) ([5] : List Int) ([] : List Int) st318).2 3 (⟨0x30000007, 0x00330000, 0, 0⟩ : Quad) = true) ∧
    ((flowRun (ingressSample 3 (⟨0x30000007, 0x00330000, 0, 0⟩ : Quad) ([5] : List Int) ([] : List Int) st318).2 3).startLeft = 0) ∧
    ((flowRun (ingressSample 3 (⟨0x30000007, 0x00330000, 0, 0⟩ : Quad) ([5] : List Int) ([] : List Int) st318).2 3).delay = []) ∧
    ((flowRun (ingressSample 3 (⟨0x30000007, 0x00330000, 0, 0⟩ : Quad) ([5] : List Int) ([] : List Int) st318).2 3).cutNext = false) ∧
    (gHeld (ingressSample 3 (⟨0x30000007, 0x00330000, 0, 0⟩ : Quad) ([5] : List Int) ([] : List Int) st318).2 = false) ∧
    (predOk st319 .cp (⟨false, 0⟩ : Pred) = true) ∧
    (0x00080007 = busAddr st319 (2 : BitVec 5) (1 : BitVec 10)) ∧
    (cpPath st319 0x00080007 = some (⟨1, 0x00080007, 1, true, true, true⟩ : BusPath)) ∧
    (registerUpset st319 .cp = none) ∧
    (upset st319 (.request 4) = false) ∧
    (upset st319 (.data 4) = true) ∧
    (pllbUnlocked st319 = false) ∧
    ((⟨1, 0x00080007, 1, true, true, true⟩ : BusPath).rd = true) ∧
    ((⟨1, 0x00080007, 1, true, true, true⟩ : BusPath).wr = true) ∧
    (rn.power.st = .run) ∧
    (rn.cp.lock = none) ∧
    (beatUpset 8 rn = none) ∧
    (rn.sec.otpBad = []) ∧
    (5 < 0x800) ∧
    (st320.power.st = .run) ∧
    (pllbUnlocked st320 = false) ∧
    (st320.cp.lock = none) ∧
    (beatUpset 8 st320 = none) ∧
    (st320.sec.otpBad = []) ∧
    (0x7FF < 0x800) ∧
    (predOk st321 .cp (⟨false, 0⟩ : Pred) = true) ∧
    (registerUpset st321 .cp = some 7) ∧
    (addressed (⟨0x38, 0x5C⟩ : Xfer) st316 = true) ∧
    ((⟨0x38, 0x5C⟩ : Xfer).code = 0x5C) ∧
    (rangeRead 4092 1) ∧
    (readWhole 1 5 st316 = false) ∧
    (upset st316 .status = true) ∧
    ((Machine.core st322 (1 : Fin 4).val).inputs ≠ []) ∧
    (coreReady st322 (1 : Fin 4).val = true) ∧
    ((Machine.core st322 (1 : Fin 4).val).held = []) ∧
    ((Machine.core st322 (1 : Fin 4).val).undo = []) ∧
    (0 < ((active st322).bind (1 : Fin 4).val).depth) ∧
    (registerUpset st322 (.sc (1 : Fin 4)) = some 7) ∧
    (fetchLost st322 (1 : Fin 4).val ((active st322).bind (1 : Fin 4).val).slot 0 = false) :=
  by and_intros <;> decide +kernel

/-- The hypotheses of SelfTests are met. -/
theorem wit_SelfTests :
    (Admitted rowSelftest (withField (cmd [0, 0]) 3 0 1) rn) ∧
    (resv (opnd (withField (cmd [0, 0]) 3 0 1) 0) 0xF = false) ∧
    (rn.flt.tests.length ≤ b2n rn.flt.testing) ∧
    (opnd (cmd [0, 0]) 1 = 0) ∧
    (Admitted rowSelftest (withField (cmd [0, 513]) 3 0 2) rn) ∧
    (resv (opnd (withField (cmd [0, 513]) 3 0 2) 0) 0xF = false) ∧
    ((∀ c < 32, bit (opnd (cmd [0, 513]) 1) c = true → (active rn).chEn c = false)) ∧
    (Admitted rowSelftest (withField (cmd [0, 1]) 3 0 3) rn) ∧
    (resv (opnd (withField (cmd [0, 1]) 3 0 3) 0) 0xF = false) ∧
    ((∀ d < 32, bit (opnd (cmd [0, 1]) 1) d = true → (active rn).outEn d = false)) ∧
    (Admitted rowSelftest (withField (cmd [0, 0]) 3 0 4) rn) ∧
    (resv (opnd (withField (cmd [0, 0]) 3 0 4) 0) 0xF = false) ∧
    (Admitted rowSelftest (withField (cmd [0, 0x201]) 3 0 2) st2) ∧
    (resv (opnd (withField (cmd [0, 0x201]) 3 0 2) 0) 0xF = false) ∧
    (st2.flt.tests.length ≤ b2n st2.flt.testing) ∧
    (enabledMask 2 (opnd (cmd [0, 0x201]) 1) st2 ≠ 0) ∧
    (Admitted rowSelftest (withField (cmd [0, 8]) 3 0 3) st323) ∧
    (resv (opnd (withField (cmd [0, 8]) 3 0 3) 0) 0xF = false) ∧
    (st323.flt.tests.length ≤ b2n st323.flt.testing) ∧
    (enabledMask 3 (opnd (cmd [0, 8]) 1) st323 ≠ 0) ∧
    (Admitted rowSelftest (withField (cmd [0, 0]) 3 0 1) st324) ∧
    (b2n st324.flt.testing < st324.flt.tests.length) ∧
    (Admitted rowSelftest (withField (cmd [0, 0]) 3 0 1) st312) ∧
    (b2n st312.flt.testing < st312.flt.tests.length) ∧
    (st325.deferred.job = some (.selftest 2 (0x201 : Word))) ∧
    (running st325 = true) ∧
    (pllbUnlocked st325 = false) ∧
    (enabledMask 2 (0x201 : Word) st325 = 0) ∧
    ((2 = 4 → st325.margin.running = false)) ∧
    ((2 = 1 → ({ inject := [(0, ⟨2 ^ 29, 0 - 2 ^ 29, false⟩), (9, ⟨2 ^ 29 + 1, 0 - 2 ^ 29, false⟩)] } : SelftestReadings).rows = [] ∧ st325.cp.lock = none)) ∧
    ((2 = 2 → ∀ c < 32, bit (0x201 : Word) c = true → (∃ x ∈ ({ inject := [(0, ⟨2 ^ 29, 0 - 2 ^ 29, false⟩), (9, ⟨2 ^ 29 + 1, 0 - 2 ^ 29, false⟩)] } : SelftestReadings).inject, x.1 = c) ∧ ∀ x ∈ ({ inject := [(0, ⟨2 ^ 29, 0 - 2 ^ 29, false⟩), (9, ⟨2 ^ 29 + 1, 0 - 2 ^ 29, false⟩)] } : SelftestReadings).inject, x.1 = c → 100 * (x.2.plus - 2 ^ 29).natAbs ≤ 2 ^ 29 ∧ 100 * (x.2.minus + 2 ^ 29).natAbs ≤ 2 ^ 29 ∧ x.2.ovr = false)) ∧
    ((2 = 3 → ∀ d < 32, bit (0x201 : Word) d = true → (dac st325 d).clamp = true ∧ (dac st325 d).phase = .clamped ∧ (∃ x ∈ ({ inject := [(0, ⟨2 ^ 29, 0 - 2 ^ 29, false⟩), (9, ⟨2 ^ 29 + 1, 0 - 2 ^ 29, false⟩)] } : SelftestReadings).offset, x.1 = d) ∧ ∀ x ∈ ({ inject := [(0, ⟨2 ^ 29, 0 - 2 ^ 29, false⟩), (9, ⟨2 ^ 29 + 1, 0 - 2 ^ 29, false⟩)] } : SelftestReadings).offset, x.1 = d → x.2.natAbs ≤ if d < 24 then 2000 else 200)) ∧
    (st326.deferred.job = some (.selftest 1 (0 : Word))) ∧
    (running st326 = true) ∧
    (pllbUnlocked st326 = false) ∧
    (enabledMask 1 (0 : Word) st326 = 0) ∧
    ((1 = 4 → st326.margin.running = false)) ∧
    ((1 = 1 → ({} : SelftestReadings).rows = [] ∧ st326.cp.lock = none)) ∧
    ((1 = 2 → ∀ c < 32, bit (0 : Word) c = true → (∃ x ∈ ({} : SelftestReadings).inject, x.1 = c) ∧ ∀ x ∈ ({} : SelftestReadings).inject, x.1 = c → 100 * (x.2.plus - 2 ^ 29).natAbs ≤ 2 ^ 29 ∧ 100 * (x.2.minus + 2 ^ 29).natAbs ≤ 2 ^ 29 ∧ x.2.ovr = false)) ∧
    ((1 = 3 → ∀ d < 32, bit (0 : Word) d = true → (dac st326 d).clamp = true ∧ (dac st326 d).phase = .clamped ∧ (∃ x ∈ ({} : SelftestReadings).offset, x.1 = d) ∧ ∀ x ∈ ({} : SelftestReadings).offset, x.1 = d → x.2.natAbs ≤ if d < 24 then 2000 else 200)) ∧
    (st327.deferred.job = some (.selftest 4 (0 : Word))) ∧
    (running st327 = true) ∧
    (pllbUnlocked st327 = false) ∧
    (enabledMask 4 (0 : Word) st327 = 0) ∧
    ((4 = 4 → st327.margin.running = false)) ∧
    ((4 = 1 → ({} : SelftestReadings).rows = [] ∧ st327.cp.lock = none)) ∧
    ((4 = 2 → ∀ c < 32, bit (0 : Word) c = true → (∃ x ∈ ({} : SelftestReadings).inject, x.1 = c) ∧ ∀ x ∈ ({} : SelftestReadings).inject, x.1 = c → 100 * (x.2.plus - 2 ^ 29).natAbs ≤ 2 ^ 29 ∧ 100 * (x.2.minus + 2 ^ 29).natAbs ≤ 2 ^ 29 ∧ x.2.ovr = false)) ∧
    ((4 = 3 → ∀ d < 32, bit (0 : Word) d = true → (dac st327 d).clamp = true ∧ (dac st327 d).phase = .clamped ∧ (∃ x ∈ ({} : SelftestReadings).offset, x.1 = d) ∧ ∀ x ∈ ({} : SelftestReadings).offset, x.1 = d → x.2.natAbs ≤ if d < 24 then 2000 else 200)) ∧
    (st328.deferred.job = some (.selftest 3 (0x80000001 : Word))) ∧
    (running st328 = true) ∧
    (pllbUnlocked st328 = false) ∧
    (enabledMask 3 (0x80000001 : Word) st328 = 0) ∧
    ((3 = 4 → st328.margin.running = false)) ∧
    ((3 = 1 → ({ offset := [(0, 2000), (31, 0 - 200)] } : SelftestReadings).rows = [] ∧ st328.cp.lock = none)) ∧
    ((3 = 2 → ∀ c < 32, bit (0x80000001 : Word) c = true → (∃ x ∈ ({ offset := [(0, 2000), (31, 0 - 200)] } : SelftestReadings).inject, x.1 = c) ∧ ∀ x ∈ ({ offset := [(0, 2000), (31, 0 - 200)] } : SelftestReadings).inject, x.1 = c → 100 * (x.2.plus - 2 ^ 29).natAbs ≤ 2 ^ 29 ∧ 100 * (x.2.minus + 2 ^ 29).natAbs ≤ 2 ^ 29 ∧ x.2.ovr = false)) ∧
    ((3 = 3 → ∀ d < 32, bit (0x80000001 : Word) d = true → (dac st328 d).clamp = true ∧ (dac st328 d).phase = .clamped ∧ (∃ x ∈ ({ offset := [(0, 2000), (31, 0 - 200)] } : SelftestReadings).offset, x.1 = d) ∧ ∀ x ∈ ({ offset := [(0, 2000), (31, 0 - 200)] } : SelftestReadings).offset, x.1 = d → x.2.natAbs ≤ if d < 24 then 2000 else 200)) ∧
    (st329.deferred.job = some (.selftest 2 (0x200 : Word))) ∧
    (running st329 = true) ∧
    (pllbUnlocked st329 = false) ∧
    (9 < 32) ∧
    ((∀ d < 32, bit (0x200 : Word) d = decide (d = 9))) ∧
    ((active st329).chEn 9 = false) ∧
    ((2 ^ 29 < 100 * ((⟨2 ^ 29, 0 - 2 ^ 29, true⟩ : InjectLevels).plus - 2 ^ 29).natAbs ∨ 2 ^ 29 < 100 * ((⟨2 ^ 29, 0 - 2 ^ 29, true⟩ : InjectLevels).minus + 2 ^ 29).natAbs ∨ (⟨2 ^ 29, 0 - 2 ^ 29, true⟩ : InjectLevels).ovr = true)) ∧
    (st330.deferred.job = some (.selftest 3 (0x80000000 : Word))) ∧
    (running st330 = true) ∧
    (pllbUnlocked st330 = false) ∧
    (31 < 32) ∧
    ((∀ k < 32, bit (0x80000000 : Word) k = decide (k = 31))) ∧
    ((active st330).outEn 31 = false) ∧
    ((dac st330 31).clamp = true) ∧
    ((dac st330 31).phase = .clamped) ∧
    ((if 31 < 24 then 2000 else 200) < (201 : Int).natAbs) ∧
    (st331.deferred.job = some (.selftest 2 (0x200 : Word))) ∧
    ((enabledMask 2 (0x200 : Word) st331 ≠ 0 ∨ (2 = 3 ∧ ∃ d < 32, bit (0x200 : Word) d = true ∧ ((dac st331 d).clamp = false ∨ (dac st331 d).phase ≠ .clamped)))) ∧
    (rn.power.st = .run) ∧
    (pllbUnlocked rn = false) ∧
    (rn.cp.lock = none) ∧
    (beatUpset 8 rn = none) ∧
    (0x20200000 % 4 = 0) ∧
    (0x20200000 ≤ 0x20200000) ∧
    (0x20200000 < 0x20340000) ∧
    (0xFFFFC % 4 = 0) ∧
    (0x80000 ≤ 0xFFFFC) ∧
    (0xFFFFC < 0x100000) :=
  by and_intros <;> decide +kernel

/-- The hypotheses of CalibrationMeasurements are met. -/
theorem wit_CalibrationMeasurements :
    (Admitted rowCalF (cmd [0x200, 0x140]) st332) ∧
    (resv (opnd (cmd [0x200, 0x140]) 1) 0xFFFF = false) ∧
    (maskBad st332 (opnd (cmd [0x200, 0x140]) 0) = false) ∧
    ((∀ ch ∈ bitsOf (opnd (cmd [0x200, 0x140]) 0), fullLevel st332 ch - 2000 ≤ sfld (opnd (cmd [0x200, 0x140]) 1) 15 0 ∧ sfld (opnd (cmd [0x200, 0x140]) 1) 15 0 ≤ fullLevel st332 ch - 100)) ∧
    (calBusy st332 = false) ∧
    (notRunning st332 (opnd (cmd [0x200, 0x140]) 0) ≠ 0) ∧
    (st333.deferred.job = some (.calZ (0x100 : Word))) ∧
    (measures st333 (0x100 : Word) ([⟨8, 5, 6, -10000, 1000000, 853900000, 853800000, 0 - 1500000, false, false⟩] : List CalMeas) = some ([⟨8, 5, 6, -10000, 1000000, 853900000, 853800000, 0 - 1500000, false, false⟩] : List CalMeas)) ∧
    ((0x100 : Word) &&& ~~~st333.deferred.meas = 0) ∧
    (500000000 ≤ since st333 st333.deferred.since) ∧
    (st333.deferred.marked = false) ∧
    ((∀ x ∈ ([⟨8, 5, 6, -10000, 1000000, 853900000, 853800000, 0 - 1500000, false, false⟩] : List CalMeas), x.marked = false ∧ x.memErr = false ∧ zRange st333 x = false)) ∧
    (st334.deferred.job = some (.calF (0x100 : Word) 320)) ∧
    (measures st334 (0x100 : Word) ([⟨8, 5, 6, -10000, 1000000, 853900000, 853800000, 0 - 1500000, false, false⟩] : List CalMeas) = some ([⟨8, 5, 6, -10000, 1000000, 853900000, 853800000, 0 - 1500000, false, false⟩] : List CalMeas)) ∧
    ((0x100 : Word) &&& ~~~st334.deferred.meas = 0) ∧
    ((if (bitsOf (0x100 : Word)).any (fun ch => (active st334).pairMode ch == 1) then 1500000000 else 250000000) ≤ since st334 st334.deferred.since) ∧
    (st334.deferred.marked = false) ∧
    ((∀ x ∈ ([⟨8, 5, 6, -10000, 1000000, 853900000, 853800000, 0 - 1500000, false, false⟩] : List CalMeas), x.marked = false ∧ x.memErr = false ∧ fRange st334 320 x = false)) ∧
    (st335.deferred.job = some (.calF (0x200 : Word) 320)) ∧
    (measures st335 (0x200 : Word) ([⟨9, 5, 0, -10000, 1000000, 853900000, 0, 0, true, false⟩] : List CalMeas) = some ([⟨9, 5, 0, -10000, 1000000, 853900000, 0, 0, true, false⟩] : List CalMeas)) ∧
    ((0x200 : Word) &&& ~~~st335.deferred.meas = 0) ∧
    ((if (bitsOf (0x200 : Word)).any (fun ch => (active st335).pairMode ch == 1) then 1500000000 else 250000000) ≤ since st335 st335.deferred.since) ∧
    ((st335.deferred.marked = true ∨ ∃ x ∈ ([⟨9, 5, 0, -10000, 1000000, 853900000, 0, 0, true, false⟩] : List CalMeas), x.marked = true)) ∧
    (measures st335 (0x200 : Word) ([⟨9, 5, 0, -10000, 1010001, 853900000, 0, 0, false, false⟩] : List CalMeas) = some ([⟨9, 5, 0, -10000, 1010001, 853900000, 0, 0, false, false⟩] : List CalMeas)) ∧
    (st335.deferred.marked = false) ∧
    ((∀ x ∈ ([⟨9, 5, 0, -10000, 1010001, 853900000, 0, 0, false, false⟩] : List CalMeas), x.marked = false)) ∧
    ((∃ x ∈ ([⟨9, 5, 0, -10000, 1010001, 853900000, 0, 0, false, false⟩] : List CalMeas), fRange st335 320 x = true)) ∧
    (measures st335 (0x200 : Word) ([⟨9, 5, 0, -10000, 1000000, 853900000, 0, 0, false, true⟩] : List CalMeas) = some ([⟨9, 5, 0, -10000, 1000000, 853900000, 0, 0, false, true⟩] : List CalMeas)) ∧
    ((∀ x ∈ ([⟨9, 5, 0, -10000, 1000000, 853900000, 0, 0, false, true⟩] : List CalMeas), x.marked = false ∧ fRange st335 320 x = false)) ∧
    ((∃ x ∈ ([⟨9, 5, 0, -10000, 1000000, 853900000, 0, 0, false, true⟩] : List CalMeas), x.memErr = true)) ∧
    (Admitted rowCalZ (cmd [0x200]) st336) ∧
    (maskBad st336 (opnd (cmd [0x200]) 0) = false) ∧
    (calBusy st336 = false) ∧
    (notRunning st336 (opnd (cmd [0x200]) 0) = 0) ∧
    (Admitted rowCalZ (cmd [0x300]) st336) ∧
    (maskBad st336 (opnd (cmd [0x300]) 0) = false) ∧
    (notRunning st336 (opnd (cmd [0x300]) 0) ≠ 0) ∧
    (Admitted rowCalF (cmd [0x200, 0x140]) st336) ∧
    (maskBad st336 (opnd (cmd [0x200, 0x140]) 0) = false) ∧
    ((∀ ch ∈ bitsOf (opnd (cmd [0x200, 0x140]) 0), fullLevel st336 ch - 2000 ≤ sfld (opnd (cmd [0x200, 0x140]) 1) 15 0 ∧ sfld (opnd (cmd [0x200, 0x140]) 1) 15 0 ≤ fullLevel st336 ch - 100)) ∧
    (notRunning st336 (opnd (cmd [0x200, 0x140]) 0) = 0) ∧
    (st338.deferred.job = some (.calZ (0x200 : Word))) ∧
    (measures st338 (0x200 : Word) ([⟨9, 5, 0, -10000, 1000000, 853900000, 0, 0, false, false⟩] : List CalMeas) = some ([⟨9, 5, 0, -10000, 1000000, 853900000, 0, 0, false, false⟩] : List CalMeas)) ∧
    ((0x200 : Word) &&& ~~~st338.deferred.meas = 0) ∧
    (500000000 ≤ since st338 st338.deferred.since) ∧
    (st338.deferred.marked = false) ∧
    ((∀ x ∈ ([⟨9, 5, 0, -10000, 1000000, 853900000, 0, 0, false, false⟩] : List CalMeas), x.marked = false ∧ x.memErr = false ∧ zRange st338 x = false)) ∧
    (st339.deferred.job = some (.calF (0x200 : Word) 320)) ∧
    (measures st339 (0x200 : Word) ([⟨9, 5, 0, -10000, 1000000, 853900000, 0, 0, false, false⟩] : List CalMeas) = some ([⟨9, 5, 0, -10000, 1000000, 853900000, 0, 0, false, false⟩] : List CalMeas)) ∧
    ((0x200 : Word) &&& ~~~st339.deferred.meas = 0) ∧
    ((if (bitsOf (0x200 : Word)).any (fun ch => (active st339).pairMode ch == 1) then 1500000000 else 250000000) ≤ since st339 st339.deferred.since) ∧
    (st339.deferred.marked = false) ∧
    ((∀ x ∈ ([⟨9, 5, 0, -10000, 1000000, 853900000, 0, 0, false, false⟩] : List CalMeas), x.marked = false ∧ x.memErr = false ∧ fRange st339 320 x = false)) ∧
    (st340.deferred.job = some (.calZ (0x200 : Word))) ∧
    (measures st340 (0x200 : Word) ([⟨9, 5, 0, -10000, 1000000, 853900000, 0, 0, true, false⟩] : List CalMeas) = some ([⟨9, 5, 0, -10000, 1000000, 853900000, 0, 0, true, false⟩] : List CalMeas)) ∧
    ((0x200 : Word) &&& ~~~st340.deferred.meas = 0) ∧
    (500000000 ≤ since st340 st340.deferred.since) ∧
    ((st340.deferred.marked = true ∨ ∃ x ∈ ([⟨9, 5, 0, -10000, 1000000, 853900000, 0, 0, true, false⟩] : List CalMeas), x.marked = true)) ∧
    (measures st340 (0x200 : Word) ([⟨9, 5, 0, -8999, 1000000, 853900000, 0, 0, false, false⟩] : List CalMeas) = some ([⟨9, 5, 0, -8999, 1000000, 853900000, 0, 0, false, false⟩] : List CalMeas)) ∧
    (st340.deferred.marked = false) ∧
    ((∀ x ∈ ([⟨9, 5, 0, -8999, 1000000, 853900000, 0, 0, false, false⟩] : List CalMeas), x.marked = false)) ∧
    ((∃ x ∈ ([⟨9, 5, 0, -8999, 1000000, 853900000, 0, 0, false, false⟩] : List CalMeas), zRange st340 x = true)) ∧
    (measures st340 (0x200 : Word) ([⟨9, 5, 0, -10000, 1000000, 853900000, 0, 0, false, true⟩] : List CalMeas) = some ([⟨9, 5, 0, -10000, 1000000, 853900000, 0, 0, false, true⟩] : List CalMeas)) ∧
    ((∀ x ∈ ([⟨9, 5, 0, -10000, 1000000, 853900000, 0, 0, false, true⟩] : List CalMeas), x.marked = false ∧ zRange st340 x = false)) :=
  by and_intros <;> decide +kernel

/-- The hypotheses of CalibrationRecords are met. -/
theorem wit_CalibrationRecords :
    (Admitted rowCalExport (withField (cmd [0]) 3 0 0) st341) ∧
    (resv (opnd (withField (cmd [0]) 3 0 0) 0) 0xF = false) ∧
    (st341.sec.otp.lifecycle ≠ .rma) ∧
    (st341.sec.drbgFail = false) ∧
    (beatUpset 7 st341 = none) ∧
    (st341.mem.bad = []) ∧
    (Admitted rowCalExport (cmd [9]) st342) ∧
    (opnd (cmd [9]) 0 ≠ 0) ∧
    ((opnd (cmd [9]) 0).toNat ≤ 9) ∧
    (st342.cal.snapshot = some (⟨[], [], [1, 2, 3]⟩ : Snapshot)) ∧
    (beatUpset 7 st342 = none) ∧
    (Admitted rowCalExport (cmd [8]) st342) ∧
    (opnd (cmd [8]) 0 ≠ 0) ∧
    ((opnd (cmd [8]) 0).toNat ≤ 9) ∧
    (Admitted rowCalImport (cmd ((8 : Word) :: (List.replicate 128 [(7 : Word), 7, 7, 0]).flatten)) rn) ∧
    ((opnd (cmd ((8 : Word) :: (List.replicate 128 [(7 : Word), 7, 7, 0]).flatten)) 0).toNat ≤ 8) ∧
    (calMask rn = 0) ∧
    (partBad (opnd (cmd ((8 : Word) :: (List.replicate 128 [(7 : Word), 7, 7, 0]).flatten)) 0).toNat ((cmd ((8 : Word) :: (List.replicate 128 [(7 : Word), 7, 7, 0]).flatten)).ops.drop 1) = false) ∧
    (beatUpset 7 rn = none) ∧
    (Admitted rowCalImport (cmd ((8 : Word) :: List.replicate 512 7)) rn) ∧
    ((opnd (cmd ((8 : Word) :: List.replicate 512 7)) 0).toNat ≤ 8) ∧
    (partBad (opnd (cmd ((8 : Word) :: List.replicate 512 7)) 0).toNat ((cmd ((8 : Word) :: List.replicate 512 7)).ops.drop 1) = true) ∧
    (Admitted rowCalImport (withField (cmd ((9 : Word) :: List.replicate 32 1)) 3 0 9) rn) ∧
    (resv (opnd (withField (cmd ((9 : Word) :: List.replicate 32 1)) 3 0 9) 0) 0xF = false) ∧
    (rn.sec.otp.lifecycle ≠ .rma) ∧
    ((List.replicate 32 (1 : Word)) = (cmd ((9 : Word) :: List.replicate 32 1)).ops.drop 1) ∧
    (missingParts rn ≠ 0) ∧
    (Admitted rowCalImport (withField (cmd ((9 : Word) :: List.replicate 32 2)) 3 0 9) st343) ∧
    (resv (opnd (withField (cmd ((9 : Word) :: List.replicate 32 2)) 3 0 9) 0) 0xF = false) ∧
    (st343.sec.otp.lifecycle ≠ .rma) ∧
    (calMask st343 = 0) ∧
    ((List.replicate 32 (2 : Word)) = (cmd ((9 : Word) :: List.replicate 32 2)).ops.drop 1) ∧
    (beatUpset 7 st343 = none) ∧
    (missingParts st343 = 0) ∧
    ((List.replicate 32 (2 : Word)).getD 1 0 ≠ 1) ∧
    (Admitted rowCalImport (withField (cmd ((9 : Word) :: List.replicate 32 1)) 3 0 9) st343) ∧
    ((List.replicate 32 (1 : Word)).getD 1 0 = 1) ∧
    (Admitted rowCalFactory (withField (cmd [0]) 1 0 0) st344) ∧
    (resv (opnd (withField (cmd [0]) 1 0 0) 0) 3 = false) ∧
    (calMask st344 = 0) ∧
    (st344.sec.otp.factorySet = true) ∧
    (beatUpset 7 st344 = none) ∧
    (Admitted rowCalFactory (withField (cmd [1]) 1 0 1) st345) ∧
    (resv (opnd (withField (cmd [1]) 1 0 1) 0) 3 = false) ∧
    (st345.sec.otp.lifecycle = .maker) ∧
    (calMask st345 = 0) ∧
    (st345.sec.otp.factorySet = false) ∧
    (beatUpset 7 st345 = none) ∧
    (Admitted rowCalFactory (withField (cmd [2]) 1 0 2) st346) ∧
    (resv (opnd (withField (cmd [2]) 1 0 2) 0) 3 = false) ∧
    (calMask st346 = 0) ∧
    (beatUpset 7 st346 = none) :=
  by and_intros <;> decide +kernel

/-- The hypotheses of OneTimeProgramming are met. -/
theorem wit_OneTimeProgramming :
    (({ ({} : Otp) with lifecycle := .maker } : Otp) = st347.sec.otp) ∧
    (beatUpset 7 st347 = none) ∧
    (([1, 2, 3, 4, 5, 6, 7, 8] : List Word) = (⟨true, 0, 0, false, false, [0x201, 1, 2, 3, 4, 5, 6, 7, 8]⟩ : CmdArgs).ops.drop 1) ∧
    (2 = fld (opnd (⟨true, 0, 0, false, false, [0x201, 1, 2, 3, 4, 5, 6, 7, 8]⟩ : CmdArgs) 0) 9 8) ∧
    (Admitted rowOtpWrite (withField (⟨true, 0, 0, false, false, [0x201, 1, 2, 3, 4, 5, 6, 7, 8]⟩ : CmdArgs) 7 0 1) st347) ∧
    (resv (opnd (withField (⟨true, 0, 0, false, false, [0x201, 1, 2, 3, 4, 5, 6, 7, 8]⟩ : CmdArgs) 7 0 1) 0) 0x3FF = false) ∧
    ((({ ({} : Otp) with lifecycle := .maker } : Otp).lifecycle = .blank ∨ ({ ({} : Otp) with lifecycle := .maker } : Otp).lifecycle = .maker)) ∧
    (({ ({} : Otp) with lifecycle := .maker } : Otp).keySet.getLsbD 2 = false) ∧
    (([] : List Word) = (⟨true, 0, 0, false, false, [2]⟩ : CmdArgs).ops.drop 1) ∧
    (0 = fld (opnd (⟨true, 0, 0, false, false, [2]⟩ : CmdArgs) 0) 9 8) ∧
    (Admitted rowOtpWrite (withField (⟨true, 0, 0, false, false, [2]⟩ : CmdArgs) 7 0 2) st347) ∧
    (resv (opnd (withField (⟨true, 0, 0, false, false, [2]⟩ : CmdArgs) 7 0 2) 0) 0x3FF = false) ∧
    (({ ({} : Otp) with lifecycle := .maker } : Otp).lifecycle = .maker) ∧
    (([8000000] : List Word) = (⟨true, 0, 0, false, false, [3, 8000000]⟩ : CmdArgs).ops.drop 1) ∧
    (0 = fld (opnd (⟨true, 0, 0, false, false, [3, 8000000]⟩ : CmdArgs) 0) 9 8) ∧
    (Admitted rowOtpWrite (withField (⟨true, 0, 0, false, false, [3, 8000000]⟩ : CmdArgs) 7 0 3) st347) ∧
    (resv (opnd (withField (⟨true, 0, 0, false, false, [3, 8000000]⟩ : CmdArgs) 7 0 3) 0) 0x3FF = false) ∧
    (8000000 ≤ (([8000000] : List Word).getD 0 0).toNat) ∧
    ((([8000000] : List Word).getD 0 0).toNat ≤ 52000000) ∧
    (({ ({} : Otp) with lifecycle := .maker } : Otp).xrefFreq = 0) ∧
    (([52000000] : List Word) = (⟨true, 0, 0, false, false, [3, 52000000]⟩ : CmdArgs).ops.drop 1) ∧
    (0 = fld (opnd (⟨true, 0, 0, false, false, [3, 52000000]⟩ : CmdArgs) 0) 9 8) ∧
    (Admitted rowOtpWrite (withField (⟨true, 0, 0, false, false, [3, 52000000]⟩ : CmdArgs) 7 0 3) st347) ∧
    (resv (opnd (withField (⟨true, 0, 0, false, false, [3, 52000000]⟩ : CmdArgs) 7 0 3) 0) 0x3FF = false) ∧
    (8000000 ≤ (([52000000] : List Word).getD 0 0).toNat) ∧
    ((([52000000] : List Word).getD 0 0).toNat ≤ 52000000) ∧
    ((List.replicate 68 (1 : Word)) = (⟨true, 0, 0, false, false, ((4 : Word) :: List.replicate 68 1)⟩ : CmdArgs).ops.drop 1) ∧
    (0 = fld (opnd (⟨true, 0, 0, false, false, ((4 : Word) :: List.replicate 68 1)⟩ : CmdArgs) 0) 9 8) ∧
    (Admitted rowOtpWrite (withField (⟨true, 0, 0, false, false, ((4 : Word) :: List.replicate 68 1)⟩ : CmdArgs) 7 0 4) st347) ∧
    (resv (opnd (withField (⟨true, 0, 0, false, false, ((4 : Word) :: List.replicate 68 1)⟩ : CmdArgs) 7 0 4) 0) 0x3FF = false) ∧
    (({ ({} : Otp) with lifecycle := .maker } : Otp).certSet = false) ∧
    (resv ((List.replicate 68 (1 : Word)).getD 1 0) 0xFF000007 = false) ∧
    (((1 : Word) :: 8 :: List.replicate 66 1) = (⟨true, 0, 0, false, false, ((4 : Word) :: 1 :: 8 :: List.replicate 66 1)⟩ : CmdArgs).ops.drop 1) ∧
    (0 = fld (opnd (⟨true, 0, 0, false, false, ((4 : Word) :: 1 :: 8 :: List.replicate 66 1)⟩ : CmdArgs) 0) 9 8) ∧
    (Admitted rowOtpWrite (withField (⟨true, 0, 0, false, false, ((4 : Word) :: 1 :: 8 :: List.replicate 66 1)⟩ : CmdArgs) 7 0 4) st347) ∧
    (resv (((1 : Word) :: 8 :: List.replicate 66 1).getD 1 0) 0xFF000007 = true) ∧
    (({ ({} : Otp) with lifecycle := .field, arb := [(3, 7)] } : Otp) = st348.sec.otp) ∧
    (beatUpset 7 st348 = none) ∧
    (([64] : List Word) = (⟨true, 0, 0, false, false, [0x305, 64]⟩ : CmdArgs).ops.drop 1) ∧
    (3 = fld (opnd (⟨true, 0, 0, false, false, [0x305, 64]⟩ : CmdArgs) 0) 9 8) ∧
    (Admitted rowOtpWrite (withField (⟨true, 0, 0, false, false, [0x305, 64]⟩ : CmdArgs) 7 0 5) st348) ∧
    (resv (opnd (withField (⟨true, 0, 0, false, false, [0x305, 64]⟩ : CmdArgs) 7 0 5) 0) 0x3FF = false) ∧
    ((({ ({} : Otp) with lifecycle := .field, arb := [(3, 7)] } : Otp).lifecycle = .maker ∨ ({ ({} : Otp) with lifecycle := .field, arb := [(3, 7)] } : Otp).lifecycle = .field)) ∧
    ((([64] : List Word).getD 0 0).toNat ≤ 64) ∧
    (Admitted rowLifecycle (⟨true, 0, 0, false, false, [7]⟩ : CmdArgs) st349) ∧
    (resv (opnd (⟨true, 0, 0, false, false, [7]⟩ : CmdArgs) 0) 7 = false) ∧
    (lifecycleOf (opnd (⟨true, 0, 0, false, false, [7]⟩ : CmdArgs) 0).toNat = some Lifecycle.rma) ∧
    (lifecycleForward st349.sec.otp.lifecycle Lifecycle.rma = true) ∧
    ((Lifecycle.rma = .maker → st349.sec.otp.keySet ≠ 0)) ∧
    ((Lifecycle.rma = .field → st349.sec.otp.certSet = true)) ∧
    ((Lifecycle.rma = .rma → anySeal st349 = false)) ∧
    (beatUpset 7 st349 = none) ∧
    (Admitted rowLifecycle (⟨true, 0, 0, false, false, [3]⟩ : CmdArgs) st350) ∧
    (resv (opnd (⟨true, 0, 0, false, false, [3]⟩ : CmdArgs) 0) 7 = false) ∧
    (lifecycleOf (opnd (⟨true, 0, 0, false, false, [3]⟩ : CmdArgs) 0).toNat = some Lifecycle.field) ∧
    (lifecycleForward st350.sec.otp.lifecycle Lifecycle.field = true) ∧
    ((Lifecycle.field = .maker → st350.sec.otp.keySet ≠ 0)) ∧
    ((Lifecycle.field = .field → st350.sec.otp.certSet = true)) ∧
    ((Lifecycle.field = .rma → anySeal st350 = false)) ∧
    (beatUpset 7 st350 = none) ∧
    (Admitted rowLifecycle (⟨true, 0, 0, false, false, [1]⟩ : CmdArgs) st351) ∧
    (resv (opnd (⟨true, 0, 0, false, false, [1]⟩ : CmdArgs) 0) 7 = false) ∧
    (lifecycleOf (opnd (⟨true, 0, 0, false, false, [1]⟩ : CmdArgs) 0).toNat = some Lifecycle.maker) ∧
    (lifecycleForward st351.sec.otp.lifecycle Lifecycle.maker = true) ∧
    ((Lifecycle.maker = .maker → st351.sec.otp.keySet ≠ 0)) ∧
    ((Lifecycle.maker = .field → st351.sec.otp.certSet = true)) ∧
    ((Lifecycle.maker = .rma → anySeal st351 = false)) ∧
    (beatUpset 7 st351 = none) ∧
    (Admitted rowLifecycle (⟨true, 0, 0, false, false, [1]⟩ : CmdArgs) st349) ∧
    (lifecycleForward st349.sec.otp.lifecycle Lifecycle.maker = false) ∧
    (Admitted rowKeyRevoke (⟨true, 0, 0, false, false, [2]⟩ : CmdArgs) st352) ∧
    (resv (opnd (⟨true, 0, 0, false, false, [2]⟩ : CmdArgs) 0) 3 = false) ∧
    ((st352.sec.otp.lifecycle = .maker ∨ st352.sec.otp.lifecycle = .field)) ∧
    (st352.sec.otp.keySet.getLsbD (opnd (⟨true, 0, 0, false, false, [2]⟩ : CmdArgs) 0).toNat = true) ∧
    (beatUpset 7 st352 = none) ∧
    ((∃ k < 4, k ≠ (opnd (⟨true, 0, 0, false, false, [2]⟩ : CmdArgs) 0).toNat ∧ slotValid st352 k = true)) ∧
    (Admitted rowKeyRevoke (⟨true, 0, 0, false, false, [2]⟩ : CmdArgs) st353) ∧
    ((st353.sec.otp.lifecycle = .maker ∨ st353.sec.otp.lifecycle = .field)) ∧
    ((∀ k < 4, k ≠ (opnd (⟨true, 0, 0, false, false, [2]⟩ : CmdArgs) 0).toNat → slotValid st353 k = false)) ∧
    (Admitted rowCertRead (withField (cmd [0]) 0 0 0) rn) ∧
    (resv (opnd (withField (cmd [0]) 0 0 0) 0) 1 = false) ∧
    (beatUpset 7 rn = none) ∧
    (rn.sec.otp.lifecycle ≠ .rma) ∧
    (Admitted rowCertRead (withField (cmd [1]) 0 0 1) st354) ∧
    (resv (opnd (withField (cmd [1]) 0 0 1) 0) 1 = false) ∧
    (beatUpset 7 st354 = none) ∧
    (st354.sec.otp.certSet = true) :=
  by and_intros <;> decide +kernel

/-- The hypotheses of SealedCapture are met. -/
theorem wit_SealedCapture :
    (Admitted rowSealOpen (cmd [0x3]) st355) ∧
    (3 = fld (opnd (cmd [0x3]) 0) 7 0) ∧
    (resv (opnd (cmd [0x3]) 0) 0x33FF = false) ∧
    (sealRange st355 (opnd (cmd [0x3]) 0) = false) ∧
    ((st355.sec.otp.lifecycle = .maker ∨ st355.sec.otp.lifecycle = .field)) ∧
    (sealRefusal st355 3 = some 1) ∧
    (Admitted rowSealOpen (cmd [0x3]) st356) ∧
    (sealRange st356 (opnd (cmd [0x3]) 0) = false) ∧
    ((st356.sec.otp.lifecycle = .maker ∨ st356.sec.otp.lifecycle = .field)) ∧
    (sealRefusal st356 3 = none) ∧
    (beatUpset 7 st356 = none) ∧
    (st356.sec.drbgFail = false) ∧
    (1 < 8) ∧
    ((sealOf st356 1).isOpen = false) ∧
    ((∀ j < 1, (sealOf st356 j).isOpen = true)) ∧
    (2 < 8) ∧
    ((sealOf st357 2).isOpen = true) ∧
    ((sealOf st357 2).started = false) ∧
    ((sealOf st357 2).closeDue = none) ∧
    (audioRuns st357 = true) ∧
    (sealFrame st357 2 = true) ∧
    (st357.cp.lock = none) ∧
    (33 ≤ sealRoom st357) ∧
    ((sealOf st358 2).isOpen = true) ∧
    ((sealOf st358 2).started = false) ∧
    ((sealOf st358 2).closeDue = none) ∧
    (audioRuns st358 = true) ∧
    (sealFrame st358 2 = true) ∧
    (st358.cp.lock = none) ∧
    (sealRoom st358 < 33) ∧
    ((sealOf st359 2).isOpen = true) ∧
    ((sealOf st359 2).started = true) ∧
    ((sealOf st359 2).closeDue = none) ∧
    ((sealOf st359 2).block.length = 4096) ∧
    (18 ≤ sealRoom st359) ∧
    (pllbUnlocked st359 = false) ∧
    (st359.cp.lock = none) ∧
    ((sealOf st360 2).isOpen = true) ∧
    ((sealOf st360 2).signDue = true) ∧
    ((sealOf st360 2).closeDue = none) ∧
    (upset st360 (.sealState 2) = false) ∧
    (beatUpset 7 st360 = none) ∧
    (27 ≤ sealRoom st360) ∧
    (pllbUnlocked st360 = false) ∧
    (st360.cp.lock = none) ∧
    (Admitted rowSealClose (cmd [2]) st361) ∧
    (resv (opnd (cmd [2]) 0) 7 = false) ∧
    ((sealOf st361 (opnd (cmd [2]) 0).toNat).isOpen = true) ∧
    (st361.sec.drbgFail = false) ∧
    (Admitted rowSealClose (cmd [1]) st361) ∧
    (resv (opnd (cmd [1]) 0) 7 = false) ∧
    ((sealOf st361 (opnd (cmd [1]) 0).toNat).isOpen = false) ∧
    ((sealOf st362 2).isOpen = true) ∧
    ((sealOf st362 2).started = true) ∧
    ((sealOf st362 2).block = []) ∧
    (st362.deferred.job = some (.sealClose 2)) ∧
    ((sealOf st362 2).closeDue ≠ some 2) ∧
    (upset st362 (.sealState 2) = false) ∧
    (beatUpset 7 st362 = none) ∧
    (st362.sec.drbgFail = false) ∧
    (pllbUnlocked st362 = false) ∧
    (st362.cp.lock = none) ∧
    (((sealOf st362 2).closeDue.isSome = true ∨ (flowRun st362 (sealOf st362 2).flow).running = false ∨ audioRuns st362 = false ∨ sealFrame st362 2 = true)) ∧
    (((sealOf st362 2).signDue = true → 27 ≤ sealRoom st362)) ∧
    ((sealOf st363 2).isOpen = true) ∧
    ((sealOf st363 2).started = true) ∧
    ((sealOf st363 2).block = []) ∧
    (st363.deferred.job = some (.sealClose 2)) ∧
    ((sealOf st363 2).closeDue ≠ some 2) ∧
    (upset st363 (.sealState 2) = false) ∧
    (beatUpset 7 st363 = none) ∧
    (st363.sec.drbgFail = false) ∧
    (pllbUnlocked st363 = false) ∧
    (st363.cp.lock = none) ∧
    (((sealOf st363 2).closeDue.isSome = true ∨ (flowRun st363 (sealOf st363 2).flow).running = false ∨ audioRuns st363 = false ∨ sealFrame st363 2 = true)) ∧
    (((sealOf st363 2).signDue = true → 27 ≤ sealRoom st363)) ∧
    (pllbUnlocked st364 = true) ∧
    (Admitted rowSealClose (cmd [2]) st365) ∧
    ((sealOf st365 (opnd (cmd [2]) 0).toNat).isOpen = true) ∧
    (st365.sec.drbgFail = true) ∧
    (Admitted rowSealRead (cmd [0x3FF]) st366) ∧
    (resv (opnd (cmd [0x3FF]) 0) 0x3FF = false) ∧
    (opnd (cmd [0x3FF]) 0 ≠ 0) ∧
    (logicOn st361 = true) :=
  by and_intros <;> decide +kernel

/-- The hypotheses of SessionsAndDebug are met. -/
theorem wit_SessionsAndDebug :
    (Admitted rowSessionOpen (cmd (List.replicate 108 (1 : Word))) rn) ∧
    ((List.replicate 68 (1 : Word)) = (cmd (List.replicate 108 (1 : Word))).ops.take 68) ∧
    (resv ((List.replicate 68 (1 : Word)).getD 1 0) 0xFF000007 = false) ∧
    (rn.sec.drbgFail = false) ∧
    (beatUpset 7 rn = none) ∧
    ((∀ w ∈ sessionWords, otpLost rn w = false)) ∧
    (Admitted rowSessionClose (⟨true, 0, 0, false, false, []⟩ : CmdArgs) st347) ∧
    (Admitted rowDebugChal (⟨true, 0, 0, false, false, []⟩ : CmdArgs) st347) ∧
    (st347.sec.drbgFail = false) ∧
    (beatUpset 7 st347 = none) ∧
    (Admitted rowDebugResp (⟨true, 0, 0, false, false, (List.replicate 33 (1 : Word))⟩ : CmdArgs) st367) ∧
    (resv (opnd (⟨true, 0, 0, false, false, (List.replicate 33 (1 : Word))⟩ : CmdArgs) 16) 7 = false) ∧
    (st367.sec.otp.lifecycle ≠ .blank) ∧
    (beatUpset 7 st367 = none) ∧
    (st367.sec.chal = some (([1, 2, 3, 4, 5, 6, 7, 8] : List Word), 5)) ∧
    (since st367 5 ≤ 60000000000) ∧
    (st368.sec.chal = some (([1, 2] : List Word), 5)) ∧
    (60000000000 ≤ since st368 5) ∧
    (st369.sec.chal = some (([1, 2] : List Word), 5)) ∧
    (since st369 5 < 60000000000) ∧
    (logicOn rn = true) ∧
    (rn.power.iovddA = true) :=
  by decide +kernel

/-- The hypotheses of ImagesAndBoot are met. -/
theorem wit_ImagesAndBoot :
    (Admitted rowImageLoad (cmd [0x7FFF8, 1, 2]) st370) ∧
    (0x7FFF8 = fld (opnd (cmd [0x7FFF8, 1, 2]) 0) 18 0) ∧
    (resv (opnd (cmd [0x7FFF8, 1, 2]) 0) 0x7FFFF = false) ∧
    (0x7FFF8 % 4 = 0) ∧
    (0x7FFF8 + 4 * ((cmd [0x7FFF8, 1, 2]).ops.length - 1) ≤ 524288) ∧
    (st370.deferred.job ≠ some .imageExec) ∧
    (st370.cp.lock = none) ∧
    (beatUpset 5 st370 = none) ∧
    (Admitted rowImageExec (cmd []) st371) ∧
    (stagedFirmware st371 = true) ∧
    (st371.power.boot = .run) ∧
    (Admitted rowImageExec (cmd []) rn) ∧
    ((stagedFirmware rn = false ∨ rn.power.boot = .wakeHold)) ∧
    (Admitted rowImageExec (cmd []) st372) ∧
    (stagedFirmware st372 = true) ∧
    ((st372.power.boot = .romWait ∨ st372.power.boot = .safe)) ∧
    (st373.deferred.job = some .imageExec) ∧
    (logicOn st373 = true) ∧
    (stagedLost st373 = none) ∧
    (beatUpset 7 st373 = none) ∧
    (pllbUnlocked st373 = false) ∧
    (st373.cp.lock = none) ∧
    (otpAnyLost st373 = false) ∧
    (st374.power.st = .reset) ∧
    (muting st374 = true) ∧
    (st375.power.st = .reset) ∧
    (st375.power.straps.tmode = false) ∧
    (muting st375 = false) ∧
    ((⟨false, false, false, false, true, true, true, 24576000⟩ : Straps).tmode = true) ∧
    ((⟨false, true, false, false, false, true, true, 24576000⟩ : Straps).tmode = false) ∧
    ((⟨false, true, false, false, false, true, true, 24576000⟩ : Straps).bromOk = true) ∧
    ((⟨false, true, false, false, false, true, true, 24576000⟩ : Straps).otpOk = true) ∧
    (otpAnyLost st375 = false) ∧
    ((⟨false, false, false, false, false, false, true, 24576000⟩ : Straps).tmode = false) ∧
    (((⟨false, false, false, false, false, false, true, 24576000⟩ : Straps).bromOk = false ∨ (⟨false, false, false, false, false, false, true, 24576000⟩ : Straps).otpOk = false ∨ otpAnyLost st375 = true)) ∧
    (st376.power.st = .reset) ∧
    (st376.power.straps.tmode = false) ∧
    (muting st376 = false) ∧
    ((⟨false, false, false, false, false, true, true, 24576000⟩ : Straps).tmode = false) ∧
    (((⟨false, false, false, false, false, true, true, 24576000⟩ : Straps).bromOk = false ∨ (⟨false, false, false, false, false, true, true, 24576000⟩ : Straps).otpOk = false ∨ otpAnyLost st376 = true)) ∧
    ((⟨false, false, false, false, false, true, false, 24576000⟩ : Straps).tmode = false) ∧
    (((⟨false, false, false, false, false, true, false, 24576000⟩ : Straps).bromOk = false ∨ (⟨false, false, false, false, false, true, false, 24576000⟩ : Straps).otpOk = false ∨ otpAnyLost st375 = true)) ∧
    (st377.power.boot = .verify) ∧
    (st377.deferred.job ≠ some .imageExec) ∧
    (running st377 = true) ∧
    (pllbUnlocked st377 = false) ∧
    (beatUpset 7 st377 = none) ∧
    (st377.cp.lock = none) :=
  by and_intros <;> decide +kernel

/-- The hypotheses of HostTransactions are met. -/
theorem wit_HostTransactions :
    (addressed (⟨0x38, 0x5A⟩ : Xfer) rn = true) ∧
    ((⟨0x38, 0x5A⟩ : Xfer).code = 0x5A) ∧
    (rn.power.st = .run) ∧
    ((plainPacket 0x01 7 (wordsBytes [0x00000000])) = plainPacket 0x01 (7 : BitVec 8) (wordsBytes ([0x00000000] : List Word))) ∧
    (unread rn < 4) ∧
    (4 * ([0x00000000] : List Word).length ≤ 4096) ∧
    ((rn.host.seqFree = true ∨ (7 : BitVec 8) = rn.host.expSeq)) ∧
    (bit rn.power.wdt 30 = false) ∧
    (beatUpset 5 rn = none) ∧
    (rn.cp.lock = none) ∧
    (addressed (⟨0x38, 0x5A⟩ : Xfer) st378 = true) ∧
    (4 ≤ unread st378) ∧
    (0xA5 ∈ ([0xA5, 1, 2] : List Byte)) ∧
    (beatUpset 5 st378 = none) ∧
    (st378.cp.lock = none) ∧
    (([0xA5, 1, 7, 0, 5, 1, 2] : List Byte).head? = some 0xA5) ∧
    (5 = bytesNat ((([0xA5, 1, 7, 0, 5, 1, 2] : List Byte).drop 3).take 2)) ∧
    ((7 : BitVec 8) = (if ([0xA5, 1, 7, 0, 5, 1, 2] : List Byte).length < 3 then rn.host.expSeq else ([0xA5, 1, 7, 0, 5, 1, 2] : List Byte).getD 2 0)) ∧
    (5 ≤ ([0xA5, 1, 7, 0, 5, 1, 2] : List Byte).length) ∧
    ((4096 < 5 ∨ 5 % 4 ≠ 0)) ∧
    (([0xA5, 1, 7, 16, 4, 1, 2] : List Byte).head? = some 0xA5) ∧
    (4100 = bytesNat ((([0xA5, 1, 7, 16, 4, 1, 2] : List Byte).drop 3).take 2)) ∧
    ((7 : BitVec 8) = (if ([0xA5, 1, 7, 16, 4, 1, 2] : List Byte).length < 3 then rn.host.expSeq else ([0xA5, 1, 7, 16, 4, 1, 2] : List Byte).getD 2 0)) ∧
    (5 ≤ ([0xA5, 1, 7, 16, 4, 1, 2] : List Byte).length) ∧
    ((4096 < 4100 ∨ 4100 % 4 ≠ 0)) ∧
    (addressed (⟨0x38, 0x5A⟩ : Xfer) st379 = true) ∧
    (unread st379 < 4) ∧
    (beatUpset 5 st379 = none) ∧
    (st379.cp.lock = none) ∧
    (([0xA5, 1] : List Byte).head? = some 0xA5) ∧
    (0 = bytesNat ((([0xA5, 1] : List Byte).drop 3).take 2)) ∧
    ((9 : BitVec 8) = (if ([0xA5, 1] : List Byte).length < 3 then st379.host.expSeq else ([0xA5, 1] : List Byte).getD 2 0)) ∧
    ((([0xA5, 1] : List Byte).length < 5 ∨ (0 ≤ 4096 ∧ 0 % 4 = 0 ∧ ([0xA5, 1] : List Byte).length < (7 + 0 + (if (([0xA5, 1] : List Byte).getD 1 0).getLsbD 7 then 16 else 0))))) ∧
    (([0xA5, 0x81, 7, 0, 4, 1, 2, 3, 4, 5, 6] : List Byte).head? = some 0xA5) ∧
    (4 = bytesNat ((([0xA5, 0x81, 7, 0, 4, 1, 2, 3, 4, 5, 6] : List Byte).drop 3).take 2)) ∧
    ((7 : BitVec 8) = (if ([0xA5, 0x81, 7, 0, 4, 1, 2, 3, 4, 5, 6] : List Byte).length < 3 then st379.host.expSeq else ([0xA5, 0x81, 7, 0, 4, 1, 2, 3, 4, 5, 6] : List Byte).getD 2 0)) ∧
    ((([0xA5, 0x81, 7, 0, 4, 1, 2, 3, 4, 5, 6] : List Byte).length < 5 ∨ (4 ≤ 4096 ∧ 4 % 4 = 0 ∧ ([0xA5, 0x81, 7, 0, 4, 1, 2, 3, 4, 5, 6] : List Byte).length < (7 + 4 + (if (([0xA5, 0x81, 7, 0, 4, 1, 2, 3, 4, 5, 6] : List Byte).getD 1 0).getLsbD 7 then 16 else 0))))) ∧
    (([0xA5, 1, 7, 0, 4, 0, 0, 0, 0, 1, 2] : List Byte).head? = some 0xA5) ∧
    (4 = bytesNat ((([0xA5, 1, 7, 0, 4, 0, 0, 0, 0, 1, 2] : List Byte).drop 3).take 2)) ∧
    ((7 : BitVec 8) = (if ([0xA5, 1, 7, 0, 4, 0, 0, 0, 0, 1, 2] : List Byte).length < 3 then rn.host.expSeq else ([0xA5, 1, 7, 0, 4, 0, 0, 0, 0, 1, 2] : List Byte).getD 2 0)) ∧
    (5 ≤ ([0xA5, 1, 7, 0, 4, 0, 0, 0, 0, 1, 2] : List Byte).length) ∧
    (4 ≤ 4096) ∧
    (4 % 4 = 0) ∧
    ((7 + 4 + (if (([0xA5, 1, 7, 0, 4, 0, 0, 0, 0, 1, 2] : List Byte).getD 1 0).getLsbD 7 then 16 else 0)) ≤ ([0xA5, 1, 7, 0, 4, 0, 0, 0, 0, 1, 2] : List Byte).length) ∧
    (crc16 ((([0xA5, 1, 7, 0, 4, 0, 0, 0, 0, 1, 2] : List Byte).drop 1).take (4 + 4)) ≠ bytesNat ((([0xA5, 1, 7, 0, 4, 0, 0, 0, 0, 1, 2] : List Byte).drop (5 + 4)).take 2)) ∧
    ((plainPacket 0x02 7 (wordsBytes [0])).head? = some 0xA5) ∧
    (4 = bytesNat (((plainPacket 0x02 7 (wordsBytes [0])).drop 3).take 2)) ∧
    ((0x02 : BitVec 8) = (plainPacket 0x02 7 (wordsBytes [0])).getD 1 0) ∧
    ((7 : BitVec 8) = (plainPacket 0x02 7 (wordsBytes [0])).getD 2 0) ∧
    (7 + 4 + (if (0x02 : BitVec 8).getLsbD 7 then 16 else 0) ≤ (plainPacket 0x02 7 (wordsBytes [0])).length) ∧
    (crc16 (((plainPacket 0x02 7 (wordsBytes [0])).drop 1).take (4 + 4)) = bytesNat (((plainPacket 0x02 7 (wordsBytes [0])).drop (5 + 4)).take 2)) ∧
    ((0x02 : BitVec 8) ≠ 0x01) ∧
    ((0x02 : BitVec 8) ≠ 0x81) ∧
    (addressed (⟨0x38, 0x5A⟩ : Xfer) st380 = true) ∧
    (unread st380 < 4) ∧
    (st380.power.st = .run) ∧
    (beatUpset 5 st380 = none) ∧
    (st380.cp.lock = none) ∧
    ((plainPacket 0x81 7 (wordsBytes [0]) ++ List.replicate 16 0).head? = some 0xA5) ∧
    (4 = bytesNat (((plainPacket 0x81 7 (wordsBytes [0]) ++ List.replicate 16 0).drop 3).take 2)) ∧
    ((0x81 : BitVec 8) = (plainPacket 0x81 7 (wordsBytes [0]) ++ List.replicate 16 0).getD 1 0) ∧
    ((7 : BitVec 8) = (plainPacket 0x81 7 (wordsBytes [0]) ++ List.replicate 16 0).getD 2 0) ∧
    (7 + 4 + (if (0x81 : BitVec 8).getLsbD 7 then 16 else 0) ≤ (plainPacket 0x81 7 (wordsBytes [0]) ++ List.replicate 16 0).length) ∧
    (crc16 (((plainPacket 0x81 7 (wordsBytes [0]) ++ List.replicate 16 0).drop 1).take (4 + 4)) = bytesNat (((plainPacket 0x81 7 (wordsBytes [0]) ++ List.replicate 16 0).drop (5 + 4)).take 2)) ∧
    ((0x81 : BitVec 8) = 0x81) ∧
    (st380.sec.session = none) ∧
    (addressed (⟨0x38, 0x5A⟩ : Xfer) st381 = true) ∧
    (unread st381 < 4) ∧
    (st381.power.st = .run) ∧
    (beatUpset 5 st381 = none) ∧
    (st381.cp.lock = none) ∧
    ((plainPacket 0x81 7 (wordsBytes [0]) ++ gcmTag (List.replicate 32 0) (packetIv 1 2) [0x81, 7, 0, 4] (wordsBytes [0])).head? = some 0xA5) ∧
    (4 = bytesNat (((plainPacket 0x81 7 (wordsBytes [0]) ++ gcmTag (List.replicate 32 0) (packetIv 1 2) [0x81, 7, 0, 4] (wordsBytes [0])).drop 3).take 2)) ∧
    ((0x81 : BitVec 8) = (plainPacket 0x81 7 (wordsBytes [0]) ++ gcmTag (List.replicate 32 0) (packetIv 1 2) [0x81, 7, 0, 4] (wordsBytes [0])).getD 1 0) ∧
    ((7 : BitVec 8) = (plainPacket 0x81 7 (wordsBytes [0]) ++ gcmTag (List.replicate 32 0) (packetIv 1 2) [0x81, 7, 0, 4] (wordsBytes [0])).getD 2 0) ∧
    (7 + 4 + (if (0x81 : BitVec 8).getLsbD 7 then 16 else 0) ≤ (plainPacket 0x81 7 (wordsBytes [0]) ++ gcmTag (List.replicate 32 0) (packetIv 1 2) [0x81, 7, 0, 4] (wordsBytes [0])).length) ∧
    (crc16 (((plainPacket 0x81 7 (wordsBytes [0]) ++ gcmTag (List.replicate 32 0) (packetIv 1 2) [0x81, 7, 0, 4] (wordsBytes [0])).drop 1).take (4 + 4)) = bytesNat (((plainPacket 0x81 7 (wordsBytes [0]) ++ gcmTag (List.replicate 32 0) (packetIv 1 2) [0x81, 7, 0, 4] (wordsBytes [0])).drop (5 + 4)).take 2)) ∧
    (st381.sec.session = some (⟨7, List.replicate 32 0, List.replicate 32 0, 3, 3⟩ : Session)) ∧
    (tagOk (⟨7, List.replicate 32 0, List.replicate 32 0, 3, 3⟩ : Session) (⟨7, List.replicate 32 0, List.replicate 32 0, 3, 3⟩ : Session).cHd (plainPacket 0x81 7 (wordsBytes [0]) ++ gcmTag (List.replicate 32 0) (packetIv 1 2) [0x81, 7, 0, 4] (wordsBytes [0])) 4 = false) ∧
    (st381.host.lastSeq = some (7 : BitVec 8)) ∧
    (0 < (⟨7, List.replicate 32 0, List.replicate 32 0, 3, 3⟩ : Session).cHd) ∧
    (tagOk (⟨7, List.replicate 32 0, List.replicate 32 0, 3, 3⟩ : Session) ((⟨7, List.replicate 32 0, List.replicate 32 0, 3, 3⟩ : Session).cHd - 1) (plainPacket 0x81 7 (wordsBytes [0]) ++ gcmTag (List.replicate 32 0) (packetIv 1 2) [0x81, 7, 0, 4] (wordsBytes [0])) 4 = true) ∧
    (addressed (⟨0x38, 0x5A⟩ : Xfer) st382 = true) ∧
    (unread st382 < 4) ∧
    (st382.power.st = .run) ∧
    (beatUpset 5 st382 = none) ∧
    (st382.cp.lock = none) ∧
    (st382.sec.session = some (⟨7, List.replicate 32 0, List.replicate 32 0, 0, 3⟩ : Session)) ∧
    (tagOk (⟨7, List.replicate 32 0, List.replicate 32 0, 0, 3⟩ : Session) (⟨7, List.replicate 32 0, List.replicate 32 0, 0, 3⟩ : Session).cHd (plainPacket 0x81 7 (wordsBytes [0]) ++ gcmTag (List.replicate 32 0) (packetIv 1 2) [0x81, 7, 0, 4] (wordsBytes [0])) 4 = false) ∧
    ((st382.host.lastSeq ≠ some (7 : BitVec 8) ∨ (⟨7, List.replicate 32 0, List.replicate 32 0, 0, 3⟩ : Session).cHd = 0 ∨ tagOk (⟨7, List.replicate 32 0, List.replicate 32 0, 0, 3⟩ : Session) ((⟨7, List.replicate 32 0, List.replicate 32 0, 0, 3⟩ : Session).cHd - 1) (plainPacket 0x81 7 (wordsBytes [0]) ++ gcmTag (List.replicate 32 0) (packetIv 1 2) [0x81, 7, 0, 4] (wordsBytes [0])) 4 = false)) ∧
    (addressed (⟨0x38, 0x5A⟩ : Xfer) st383 = true) ∧
    (unread st383 < 4) ∧
    (st383.power.st = .run) ∧
    (beatUpset 5 st383 = none) ∧
    (st383.cp.lock = none) ∧
    (st383.sec.session = some (⟨7, List.replicate 32 0, List.replicate 32 0, 2, 3⟩ : Session)) ∧
    (tagOk (⟨7, List.replicate 32 0, List.replicate 32 0, 2, 3⟩ : Session) (⟨7, List.replicate 32 0, List.replicate 32 0, 2, 3⟩ : Session).cHd (plainPacket 0x81 7 (wordsBytes [0]) ++ gcmTag (List.replicate 32 0) (packetIv 1 2) [0x81, 7, 0, 4] (wordsBytes [0])) 4 = true) ∧
    ((st383.host.seqFree = true ∨ (7 : BitVec 8) = st383.host.expSeq)) ∧
    (bit st383.power.wdt 30 = false) ∧
    (addressed (⟨0x38, 0x5A⟩ : Xfer) st384 = true) ∧
    (unread st384 < 4) ∧
    (st384.power.st = .run) ∧
    (beatUpset 5 st384 = none) ∧
    (st384.cp.lock = none) ∧
    ((plainPacket 0x01 7 (wordsBytes [0])).head? = some 0xA5) ∧
    (4 = bytesNat (((plainPacket 0x01 7 (wordsBytes [0])).drop 3).take 2)) ∧
    ((0x01 : BitVec 8) = (plainPacket 0x01 7 (wordsBytes [0])).getD 1 0) ∧
    ((7 : BitVec 8) = (plainPacket 0x01 7 (wordsBytes [0])).getD 2 0) ∧
    (7 + 4 + (if (0x01 : BitVec 8).getLsbD 7 then 16 else 0) ≤ (plainPacket 0x01 7 (wordsBytes [0])).length) ∧
    (crc16 (((plainPacket 0x01 7 (wordsBytes [0])).drop 1).take (4 + 4)) = bytesNat (((plainPacket 0x01 7 (wordsBytes [0])).drop (5 + 4)).take 2)) ∧
    (((0x01 : BitVec 8) = 0x01 ∨ ∃ y, (0x01 : BitVec 8) = 0x81 ∧ st384.sec.session = some y ∧ tagOk y y.cHd (plainPacket 0x01 7 (wordsBytes [0])) 4 = true)) ∧
    (st384.host.seqFree = false) ∧
    ((7 : BitVec 8) ≠ st384.host.expSeq) ∧
    (st384.host.lastSeq = some (7 : BitVec 8)) ∧
    (addressed (⟨0x38, 0x5A⟩ : Xfer) st385 = true) ∧
    (unread st385 < 4) ∧
    (st385.power.st = .run) ∧
    (beatUpset 5 st385 = none) ∧
    (st385.cp.lock = none) ∧
    (((0x01 : BitVec 8) = 0x01 ∨ ∃ y, (0x01 : BitVec 8) = 0x81 ∧ st385.sec.session = some y ∧ tagOk y y.cHd (plainPacket 0x01 7 (wordsBytes [0])) 4 = true)) ∧
    (st385.host.seqFree = false) ∧
    ((7 : BitVec 8) ≠ st385.host.expSeq) ∧
    (st385.host.lastSeq ≠ some (7 : BitVec 8)) ∧
    (rn.sec.session = none) ∧
    (st386.sec.session = some (⟨7, List.replicate 32 0, List.replicate 32 0, 2, 3⟩ : Session)) ∧
    (cpServes st387 = true) ∧
    (packetHeld st387 = false) ∧
    (st387.host.accepted = (⟨true, 9, [0x01000000]⟩ : Packet) :: ([] : List Packet)) ∧
    ((⟨true, 9, [0x01000000]⟩ : Packet).words = (0x01000000 : Word) :: ([] : List Word)) ∧
    (([] : List Word).length = fld (0x01000000 : Word) 15 0) ∧
    (rowAt (fld (0x01000000 : Word) 31 24) = some rowDevInfo) ∧
    (fld (0x01000000 : Word) 31 24 ≠ 0x02) ∧
    (fld (0x01000000 : Word) 31 24 ≠ 0xB0) ∧
    ((runRow rowDevInfo (cmdArgs (⟨true, 9, [0x01000000]⟩ : Packet).sess (0x01000000 : Word) ([] : List Word)) ({ st387 with host := { st387.host with accepted := ([] : List Packet), building := [] } })).s.sec.session = some (⟨7, List.replicate 32 0, List.replicate 32 0, 2, 3⟩ : Session)) ∧
    (addressed (⟨0x38, 0x5B⟩ : Xfer) rn = true) ∧
    ((⟨0x38, 0x5B⟩ : Xfer).code = 0x5B) ∧
    (rn.host.responses = []) ∧
    (addressed (⟨0x38, 0x5B⟩ : Xfer) st388 = true) ∧
    (st388.host.responses = ([1, 2] : List Byte) :: ([[3]] : List (List Byte))) ∧
    (beatUpset 5 st388 = none) ∧
    (st388.cp.lock = none) ∧
    (([1, 2] : List Byte).length ≤ 2) ∧
    (1 < ([1, 2] : List Byte).length) ∧
    (addressed (⟨0x38, 0x5C⟩ : Xfer) rn = true) ∧
    ((⟨0x38, 0x5C⟩ : Xfer).code = 0x5C) ∧
    (rn.mem.upsets = []) ∧
    (rangeRead 4092 1) ∧
    (readWhole 1 5 rn = false) ∧
    (addressed (⟨0x38, 0x5C⟩ : Xfer) st389 = true) ∧
    (st389.mem.upsets = []) ∧
    (rangeRead 16 1) ∧
    (readWhole 1 6 st389 = true) ∧
    (¬ rangeRead 2 1) ∧
    (addressed (⟨0x38, 0x5C⟩ : Xfer) st390 = false) ∧
    (addressed (⟨0x38, 0x11⟩ : Xfer) rn = true) ∧
    ((⟨0x38, 0x11⟩ : Xfer).code ∉ [0x5A, 0x5B, 0x5C]) ∧
    (cpServes st391 = true) ∧
    (packetHeld st391 = false) ∧
    (st391.host.accepted = (⟨false, 9, [0x01000000]⟩ : Packet) :: ([] : List Packet)) ∧
    ((⟨false, 9, [0x01000000]⟩ : Packet).words = (0x01000000 : Word) :: ([] : List Word)) ∧
    (st391.sec.session = none) ∧
    ((runRow rowDevInfo (cmdArgs (⟨false, 9, [0x01000000]⟩ : Packet).sess (0x01000000 : Word) ([] : List Word)) ({ st391 with host := { st391.host with accepted := ([] : List Packet), building := [] } })).s.sec.session = none) ∧
    (rn.host.accepted = []) ∧
    (Admitted rowNop (cmd []) rn) ∧
    (Admitted rowDevInfo (cmd []) rn) ∧
    (Admitted rowIrqMask (cmd [0x3FFFF]) rn) ∧
    (resv (opnd (cmd [0x3FFFF]) 0) 0x3FFFF = false) :=
  by and_intros <;> first | decide +kernel | rfl | exact Or.inl (by decide +kernel)

/-- The hypotheses of StepRunsFrontCommand are met. -/
theorem wit_StepRunsFrontCommand :
    (rn.pending = []) :=
  by decide +kernel

/-- The hypotheses of QueueUntouched are met. -/
theorem wit_QueueUntouched :
    (exec Instr.packetExecute rn = .next rn) :=
  by rfl

/-- The hypotheses of InterruptRequest are met. -/
theorem wit_InterruptRequest :
    (st392.power.st ≠ .off) ∧
    (rn.power.st ≠ .off) :=
  by decide +kernel

/-- The hypotheses of EpochRule are met. -/
theorem wit_EpochRule :
    (st394.sets.swap = some (⟨false, false, false, 0⟩ : SwapReq)) ∧
    ((⟨false, false, false, 0⟩ : SwapReq).armed = false) ∧
    (audioRuns st394 = true) ∧
    (commonBoundary st394 = true) ∧
    (oldEpochLeft st394 = false) ∧
    (exec Instr.packetExecute rn = .next rn) :=
  by and_intros <;> first | rfl | decide +kernel

/-- The hypotheses of PolicyRule are met. -/
theorem wit_PolicyRule :
    (rowAt (fld (0xB2000009 : Word) 31 24) = some rowOtpWrite) ∧
    (fld (0xB2000009 : Word) 15 0 ≤ (List.replicate 9 (1 : Word)).length) ∧
    (wordBad rowOtpWrite (cmdArgs false (0xB2000009 : Word) ((List.replicate 9 (1 : Word)).take (fld (0xB2000009 : Word) 15 0))) = false) ∧
    (rn.sec.otp.policy = false) ∧
    (fld (0xB2000009 : Word) 31 24 ∈ [0xB1, 0xB2, 0xB3, 0xB4, 0xB5, 0xB6]) ∧
    (rowAt (fld (0x02000001 : Word) 31 24) = some rowResetSoft) ∧
    (fld (0x02000001 : Word) 15 0 ≤ ([0]).length) ∧
    (wordBad rowResetSoft (cmdArgs false (0x02000001 : Word) (([0]).take (fld (0x02000001 : Word) 15 0))) = false) ∧
    (st395.sec.otp.policy = true) ∧
    (fld (0x02000001 : Word) 31 24 ∉ [0x00, 0x01, 0xB0]) ∧
    (rowAt (fld (0xB0000000 : Word) 31 24) = some rowSessionOpen) ∧
    (fld (0xB0000000 : Word) 15 0 ≤ ([] : List Word).length) ∧
    (wordBad rowSessionOpen (cmdArgs false (0xB0000000 : Word) (([] : List Word).take (fld (0xB0000000 : Word) 15 0))) = false) ∧
    (fld (0xB0000000 : Word) 31 24 ∉ [0xB1, 0xB2, 0xB3, 0xB4, 0xB5, 0xB6]) ∧
    (rowAt (fld (0x01000000 : Word) 31 24) = some rowDevInfo) ∧
    (fld (0x01000000 : Word) 15 0 ≤ ([] : List Word).length) ∧
    (wordBad rowDevInfo (cmdArgs false (0x01000000 : Word) (([] : List Word).take (fld (0x01000000 : Word) 15 0))) = false) ∧
    (fld (0x01000000 : Word) 31 24 ∈ [0x00, 0x01, 0xB0]) :=
  by and_intros <;> first | rfl | decide +kernel

/-- The hypotheses of UnlockedRule are met. -/
theorem wit_UnlockedRule :
    (rn.clk.b.gated = false) ∧
    ((rn.clk.b.st = .locked ∨ rn.clk.b.st = .holdover ∨ rn.clk.b.st = .holdoverMuted)) ∧
    ((st396.clk.b.st = .off ∨ st396.clk.b.st = .acquiring ∨ st396.clk.b.gated = true)) ∧
    (pllbUnlocked st396 = true) ∧
    (rowAt (fld (0x05000000 : Word) 31 24) = some rowWdtCfg) ∧
    (fld (0x05000000 : Word) 15 0 ≤ ([] : List Word).length) ∧
    (wordBad rowWdtCfg (cmdArgs false (0x05000000 : Word) (([] : List Word).take (fld (0x05000000 : Word) 15 0))) = false) ∧
    (authOk rowWdtCfg (cmdArgs false (0x05000000 : Word) (([] : List Word).take (fld (0x05000000 : Word) 15 0))) st396 = true) ∧
    ((inSafe st396 = false ∨ safeServes rowWdtCfg.op st396 = true)) ∧
    (fld (0x05000000 : Word) 31 24 ∉ [0x00, 0x01, 0x02, 0x04, 0x70, 0x71, 0x72, 0x81, 0xA0, 0xA1, 0xD0, 0xD2]) ∧
    (rowAt (fld (0x70000000 : Word) 31 24) = some rowPllCfg) ∧
    (fld (0x70000000 : Word) 15 0 ≤ ([] : List Word).length) ∧
    (wordBad rowPllCfg (cmdArgs false (0x70000000 : Word) (([] : List Word).take (fld (0x70000000 : Word) 15 0))) = false) ∧
    (authOk rowPllCfg (cmdArgs false (0x70000000 : Word) (([] : List Word).take (fld (0x70000000 : Word) 15 0))) st396 = true) ∧
    ((inSafe st396 = false ∨ safeServes rowPllCfg.op st396 = true)) ∧
    (fld (0x70000000 : Word) 31 24 ∈ [0x00, 0x01, 0x02, 0x04, 0x70, 0x71, 0x72, 0x81, 0xA0, 0xA1, 0xD0, 0xD2]) :=
  by and_intros <;> first | rfl | decide +kernel

/-- The hypotheses of OtpKept are met. -/
theorem wit_OtpKept :
    (OtpSound rn.sec.otp) ∧
    (step rn = .next rn) :=
  ⟨⟨by decide +kernel, fun _ => Nat.zero_le _, by decide +kernel, by decide +kernel⟩, by and_intros <;> first | rfl | decide +kernel⟩

/-- The hypotheses of MemoryAndStatusKept are met. -/
theorem wit_MemoryAndStatusKept :
    (MemSound rn) ∧
    (step rn = .next rn) ∧
    (bit rn.irq.mask 10 = true) ∧
    (rn.flt.log.length ≤ 64) :=
  ⟨by unfold MemSound; decide +kernel, by and_intros <;> first | rfl | decide +kernel⟩

end Sys2Proof.Tests
end

section
/-! SUPPORT. Accesses of the CP on the bus matrix where no check fails (R120, R347, R350–R352): what a bundle that holds one access
leaves, the memories of plain words, accesses along no path, the words of PERI, and the banks. -/

namespace Sys2Proof.Machine

/-! ## A bundle of one access -/

/-- `s` after an access that has ended without a bus error: the CP has issued a bundle, and its registers took `g`. -/
def accessed (g : Regs → Regs) (s : State) : State :=
  { s with cp := { s.cp with regs := g s.cp.regs, wfe := false, busError := false } }

/-- An executing syllable of the CP: its effect, then the next bundle. -/
theorem runCp_on {s : State} {p : Pred} {f : State → State} (hp : predOk s .cp p = true)
    (hq : (f (wake .cp s)).pending = s.pending) (ho : (f (wake .cp s)).sec.otp = s.sec.otp) :
    runCp p f s = .next (onRegs .cp nextBundle (f (wake .cp s))) := by
  have hi : issue .cp [] (f (wake .cp s)) = .ok (onRegs .cp nextBundle (f (wake .cp s))) := rfl
  simp only [runCp, hp, if_true, hi]
  exact ev_of_kept hq ho

/-- With PLLB locked an executing syllable on the bus does not wait: its effect leaves `t`, and then the next bundle is due. -/
theorem runBus_leaves {s t : State} {p : Pred} {f : State → State} (hp : predOk s .cp p = true) (hl : pllbUnlocked s = false)
    (hf : f (wake .cp s) = t) (hq : t.pending = s.pending) (ho : t.sec.otp = s.sec.otp) :
    ∃ u, runBus p f s = .next u ∧ regs u .cp = nextBundle t.cp.regs ∧ u = { t with cp := { t.cp with regs := u.cp.regs } } := by
  subst hf
  refine ⟨onRegs .cp nextBundle (f (wake .cp s)), ?_, rfl, rfl⟩
  simp only [runBus, hl, Bool.and_false]
  exact runCp_on hp hq ho

/-- With PLLB unlocked it waits. -/
theorem runBus_waits {s : State} {p : Pred} (hp : predOk s .cp p = true) (hl : pllbUnlocked s = true) (f : State → State) :
    runBus p f s = .next s := by simp [runBus, hp, hl]

/-- A bundle whose access has ended without a bus error: the state `t` that the access leaves beside the CP, the registers, and the
next bundle. -/
theorem runBus_accessed {s t : State} {p : Pred} {f : State → State} {g : Regs → Regs} (hp : predOk s .cp p = true)
    (hl : pllbUnlocked s = false) (hf : f (wake .cp s) = accessed g t) (hc : t.cp = s.cp) (hq : t.pending = s.pending)
    (ho : t.sec.otp = s.sec.otp) :
    ∃ u, runBus p f s = .next u ∧ regs u .cp = nextBundle (g (regs s .cp)) ∧
      u = { t with cp := { s.cp with regs := u.cp.regs, wfe := false, busError := false } } := by
  obtain ⟨u, hu, hg, he⟩ := runBus_leaves hp hl hf hq ho
  have hr : regs s .cp = t.cp.regs := congrArg CpState.regs hc.symm
  exact ⟨u, hu, by rw [hr]; exact hg, by rw [← hc]; exact he⟩

theorem toNat_ne_zero {rd : BitVec 5} (h : rd ≠ 0) : rd.toNat ≠ 0 := fun h0 => h (BitVec.eq_of_toNat_eq h0)

theorem withG_pos {rd : BitVec 5} (h : rd ≠ 0) (w : Word) (t : BitVec 4) (r : Regs) :
    withG rd w t r = { r with g := tput dReg r.g rd.toNat ⟨w, t⟩ } := if_neg h

/-- A register of the CP takes a value; g0 discards it. -/
theorem cpSet_eq (rd : BitVec 5) (w : Word) (t : BitVec 4) (s : State) : cpSet rd w t s = onRegs .cp (withG rd w t) s := by
  by_cases h : rd = 0
  · subst h; rfl
  · simp only [cpSet, applyEff, if_neg (toNat_ne_zero h), onRegs, withG_pos h]

/-- A register other than g0 holds what it took. -/
theorem gReg_taken {t : State} {rd : BitVec 5} {w : Word} {g : BitVec 4} {r : Regs} (h : rd ≠ 0)
    (ht : regs t .cp = nextBundle (withG rd w g r)) : gReg t .cp rd.toNat = ⟨w, g⟩ := by
  simp only [gReg, if_neg (toNat_ne_zero h), ht, nextBundle, withG_pos h]
  exact tget_tput_same ..

/-! ## Accesses whose checks hold -/

/-- An access of the CP meets no check that fails: it executes, its address lies on path `b`, PLLB is locked, and no error waits. -/
structure CpAccess (s : State) (p : Pred) (a : Nat) (b : BusPath) : Prop where
  on : predOk s .cp p = true
  path : cpPath s a = some b
  quiet : s.mem.upsets = []
  locked : pllbUnlocked s = false

theorem cpBeatLost_none {s : State} (h : s.mem.upsets = []) (b : BusPath) (w : Bool) (a : Nat) : cpBeatLost b w a s = none := by
  simp [cpBeatLost, registerUpset, upset, h]

/-- A read along its path, of a word that decodes. -/
theorem cpRead_path {s : State} {a : Nat} {b : BusPath} (hb : cpPath s a = some b) (hr : b.rd = true) (hu : s.mem.upsets = [])
    (hd : b.phys / 4 * 4 ∉ s.mem.bad) : cpRead a s = (some (pathRead b s).1, busErr false (pathRead b s).2) := by
  simp [cpRead, hb, hr, cpBeatLost_none hu, upset, hu, hd]

/-- A write beat whose checks hold. -/
theorem cpBeat_quiet {s : State} (hu : s.mem.upsets = []) (b : BusPath) (a : Nat) (put : State → State) :
    cpBeat b a put s = busErr false (put s) := by
  simp [cpBeat, cpBeatLost_none hu, upset, hu]

theorem cpLoad_path {s : State} {a : Nat} {b : BusPath} (hb : cpPath s a = some b) (hr : b.rd = true) (hu : s.mem.upsets = [])
    (hd : b.phys / 4 * 4 ∉ s.mem.bad) (rd : BitVec 5) :
    cpLoad rd a s = onRegs .cp (withG rd (pathRead b s).1.1 (pathRead b s).1.2) (busErr false (pathRead b s).2) := by
  simp only [cpLoad, cpRead_path hb hr hu hd, cpSet_eq]

/-- A load takes the word of its path; beside the CP, a read changes at most the filter engine's captures. -/
theorem ldg_gives {s : State} {p : Pred} {rd ra : BitVec 5} {off : BitVec 10} {b : BusPath} {w : Word} {g : BitVec 4} (q : Filters)
    (h : CpAccess s p (busAddr s ra off) b) (hr : b.rd = true) (hd : b.phys / 4 * 4 ∉ s.mem.bad)
    (hw : pathRead b (wake .cp s) = ((w, g), { wake .cp s with filt := q })) :
    ∃ t, exec (.ldg p rd ra off) s = .next t ∧ regs t .cp = nextBundle (withG rd w g (regs s .cp)) ∧
      t = { s with filt := q, cp := { s.cp with regs := t.cp.regs, wfe := false, busError := false } } := by
  have hf : cpLoad rd (busAddr s ra off) (wake .cp s) = accessed (withG rd w g) { s with filt := q } := by
    rw [cpLoad_path (s := wake .cp s) h.path hr h.quiet hd, hw]; rfl
  exact runBus_accessed h.on h.locked hf rfl rfl rfl

/-- The low `n + 1` bits of a word whose field [n:0] is replaced. -/
theorem fld_setFld_low {n : Nat} (hn : n < 32) (u : Word) (v : Nat) : fld (setFld u n 0 v) n 0 = v % 2 ^ (n + 1) := by
  have h32 : 2 ^ (n + 1) ∣ 2 ^ 32 := Nat.pow_dvd_pow 2 (by omega)
  have hu : fld u n 0 * 2 ^ 0 = u.toNat % 2 ^ (n + 1) := by simp [fld]
  have hs : u.toNat - u.toNat % 2 ^ (n + 1) = 2 ^ (n + 1) * (u.toNat / 2 ^ (n + 1)) := by
    have := Nat.div_add_mod u.toNat (2 ^ (n + 1)); omega
  simp only [setFld, hu, hs]
  simp only [fld, toWord, BitVec.toNat_ofNat, Nat.shiftRight_zero, Nat.sub_zero, Nat.mod_mod_of_dvd _ h32, pow_zero, mul_one,
    Nat.mul_add_mod, Nat.mod_mod]

theorem fld_lt (w : Word) (hi lo : Nat) : fld w hi lo < 2 ^ (hi + 1 - lo) := Nat.mod_lt _ (Nat.two_pow_pos _)

/-- The byte of a word at which the part of `bits` bits that holds address `a` begins: addresses are aligned down to the part's size. -/
def partAt (bits a : Nat) : Nat := if bits = 16 then a % 4 / 2 * 2 else a % 4

theorem cpLoadPart_path {s : State} {a bits : Nat} {b : BusPath} (hb : cpPath s a = some b) (hr : b.rd = true)
    (hu : s.mem.upsets = []) (hd : b.phys / 4 * 4 ∉ s.mem.bad) (rd : BitVec 5) :
    cpLoadPart bits rd a s = onRegs .cp (withG rd (setFld (Config.freeWord (pathRead b s).2.free) (bits - 1) 0
        (fld (pathRead b s).1.1 (8 * partAt bits a + bits - 1) (8 * partAt bits a))) (pathRead b s).1.2)
      (drawWord (busErr false (pathRead b s).2)).2 := by
  simp only [cpLoadPart, cpRead_path hb hr hu hd, cpSet_eq, drawWord, partAt]
  rfl

/-! ## The memories of plain words -/

/-- CPRAM, PRAM, SRAM and CRAM give the word and its tag. -/
theorem pathRead_plain {b : BusPath} (h1 : 1 ≤ b.target) (h7 : b.target ≤ 7) (s : State) :
    pathRead b s = ((s.mem.word (b.phys / 4 * 4), s.mem.tag (b.phys / 4 * 4) &&& 0b1110#4), s) := by
  unfold pathRead
  split
  case h_6 => rfl
  all_goals omega

/-- LDGH and LDGB: the part's bits, the word's tag, and free upper bits. -/
theorem loadPart_gives {s : State} {p : Pred} {rd : BitVec 5} {x bits : Nat} {b : BusPath} (h : CpAccess s p x b)
    (hr : b.rd = true) (hd : b.phys / 4 * 4 ∉ s.mem.bad) (h1 : 1 ≤ b.target) (h7 : b.target ≤ 7) (h0 : rd ≠ 0)
    (hpos : 0 < bits) (hbits : bits ≤ 32) :
    ∃ t, runBus p (cpLoadPart bits rd x) s = .next t ∧
      fld (gReg t .cp rd.toNat).val (bits - 1) 0 =
        fld (s.mem.word (b.phys / 4 * 4)) (8 * partAt bits x + bits - 1) (8 * partAt bits x) ∧
      regs t .cp = nextBundle (withG rd (gReg t .cp rd.toNat).val (s.mem.tag (b.phys / 4 * 4) &&& 0b1110#4) (regs s .cp)) ∧
      t = { s with free := t.free, cp := { s.cp with regs := t.cp.regs, wfe := false, busError := false } } := by
  let v := fld (s.mem.word (b.phys / 4 * 4)) (8 * partAt bits x + bits - 1) (8 * partAt bits x)
  have hf : cpLoadPart bits rd x (wake .cp s) = accessed (withG rd (setFld (Config.freeWord s.free) (bits - 1) 0 v)
      (s.mem.tag (b.phys / 4 * 4) &&& 0b1110#4)) { s with free := s.free + 1 } := by
    rw [cpLoadPart_path (s := wake .cp s) h.path hr h.quiet hd, pathRead_plain h1 h7]; rfl
  obtain ⟨t, ht, hg, he⟩ := runBus_accessed h.on h.locked hf rfl rfl rfl
  have hv : v < 2 ^ (bits - 1 + 1) := by
    have := fld_lt (s.mem.word (b.phys / 4 * 4)) (8 * partAt bits x + bits - 1) (8 * partAt bits x)
    rwa [show 8 * partAt bits x + bits - 1 + 1 - 8 * partAt bits x = bits - 1 + 1 by omega] at this
  have hw := gReg_taken h0 hg
  refine ⟨t, ht, ?_, by rw [hw]; exact hg, by rw [he]⟩
  rw [hw, fld_setFld_low (by omega), Nat.mod_eq_of_lt hv]

/-- LDGL at a point that locks, while no lock is held: the word is loaded and the lock taken. -/
theorem ldgl_gives {s : State} {p : Pred} {rd ra : BitVec 5} {off : BitVec 10} {b : BusPath} (h : CpAccess s p (busAddr s ra off) b)
    (hr : b.rd = true) (hd : b.phys / 4 * 4 ∉ s.mem.bad) (h1 : 1 ≤ b.target) (h7 : b.target ≤ 7) (hb : b.lock = true)
    (hn : s.cp.lock = none) :
    ∃ t, exec (.ldgl p rd ra off) s = .next t ∧
      regs t .cp = nextBundle (withG rd (s.mem.word (b.phys / 4 * 4)) (s.mem.tag (b.phys / 4 * 4) &&& 0b1110#4) (regs s .cp)) ∧
      t = { s with cp := { regs := t.cp.regs, lockLost := false, wfe := false, busError := false
                           lock := some { point := b.point, addr := busAddr s ra off, since := now s, frozen := none } } } := by
  have hf : cpLoadLocked rd (busAddr s ra off) (wake .cp s) = { s with cp := {
      regs := withG rd (s.mem.word (b.phys / 4 * 4)) (s.mem.tag (b.phys / 4 * 4) &&& 0b1110#4) s.cp.regs
      lockLost := false, wfe := false, busError := false
      lock := some { point := b.point, addr := busAddr s ra off, since := now s, frozen := none } } } := by
    have hp : cpPath (wake .cp s) (busAddr s ra off) = some b := h.path
    have hn' : (wake .cp s).cp.lock = none := hn
    simp only [cpLoadLocked, hp, hb, hr, hn', Bool.true_eq_false, if_false,
      cpLoad_path (s := wake .cp s) h.path hr h.quiet hd, pathRead_plain h1 h7]
    simp only [onRegs, busErr, wake]
    rfl
  exact runBus_leaves h.on h.locked hf rfl rfl

/-! ## Writes -/

/-- A store along its path: beside the CP, `put` is all it does. -/
theorem cpWrite_path {s : State} {a : Nat} {b : BusPath} (hb : cpPath s a = some b) (hw : b.wr = true) (hu : s.mem.upsets = [])
    (w : Word) (t : BitVec 4) : cpWrite a w t s = busErr false (pathWrite b w t s) := by
  simp only [cpWrite, hb, hw, if_true, cpBeat_quiet hu]

theorem cpStorePart_path {s : State} {a bits : Nat} {b : BusPath} (hb : cpPath s a = some b) (hw : b.wr = true)
    (hu : s.mem.upsets = []) (rd : BitVec 5) :
    cpStorePart bits rd a s = busErr false (pathPart b bits (gReg s .cp rd.toNat).val s) := by
  simp only [cpStorePart, hb, hw, if_true, cpBeat_quiet hu]

/-- STG: what the write of the path leaves beside the CP, and the next bundle. -/
theorem stg_gives {s t : State} {p : Pred} {rd ra : BitVec 5} {off : BitVec 10} {b : BusPath}
    (h : CpAccess s p (busAddr s ra off) b) (hw : b.wr = true)
    (ht : pathWrite b (gReg s .cp rd.toNat).val ((gReg s .cp rd.toNat).tag &&& 0b1110#4) (wake .cp s) = wake .cp t)
    (hc : t.cp = s.cp) (hq : t.pending = s.pending) (ho : t.sec.otp = s.sec.otp) :
    ∃ u, exec (.stg p rd ra off) s = .next u ∧ regs u .cp = nextBundle (regs s .cp) ∧
      u = { t with cp := { s.cp with regs := u.cp.regs, wfe := false, busError := false } } := by
  have hf : cpStore rd (busAddr s ra off) (wake .cp s) = accessed id t := by
    have := cpWrite_path (s := wake .cp s) h.path hw h.quiet (gReg s .cp rd.toNat).val ((gReg s .cp rd.toNat).tag &&& 0b1110#4)
    exact this.trans (by rw [ht]; rfl)
  exact runBus_accessed h.on h.locked hf hc hq ho

/-- A memory of plain words after a write of the path: CPRAM and CRAM hold no tags. -/
def plainWrite (b : BusPath) (w : Word) (t : BitVec 4) (m : Memory) : Memory :=
  if b.target = 1 ∨ b.target = 7 then m.setPlain (b.phys / 4 * 4) w else m.setWord (b.phys / 4 * 4) w t

theorem pathWrite_plain {b : BusPath} (h1 : 1 ≤ b.target) (h7 : b.target ≤ 7) (w : Word) (t : BitVec 4) (s : State) :
    pathWrite b w t s = { s with mem := plainWrite b w t s.mem } := by
  unfold pathWrite plainWrite
  split
  case h_2 h => rw [if_pos (.inl h)]
  case h_3 h => rw [if_pos (.inr h)]
  case h_8 _ h1 h7 _ _ _ _ => rw [if_neg (fun h => h.elim h1 h7)]
  all_goals omega

/-- A part of a word of plain memory is written as bytes. -/
theorem pathPart_plain {b : BusPath} (h1 : 1 ≤ b.target) (h7 : b.target ≤ 7) (bits : Nat) (v : Word) (s : State) :
    pathPart b bits v s =
      { s with mem := s.mem.setBytes (b.phys / 4 * 4 + partAt bits b.phys) ((leBytes v).take (bits / 8)) } := by
  unfold pathPart
  rw [if_neg (by omega), if_pos h7]
  rfl

/-- STGH and STGB: the part's bytes are written, and nothing else. -/
theorem storePart_gives {s : State} {p : Pred} {rd : BitVec 5} {x bits : Nat} {b : BusPath} (h : CpAccess s p x b) (hw : b.wr = true)
    (h1 : 1 ≤ b.target) (h7 : b.target ≤ 7) :
    ∃ t, runBus p (cpStorePart bits rd x) s = .next t ∧ regs t .cp = nextBundle (regs s .cp) ∧
      t = { s with mem := s.mem.setBytes (b.phys / 4 * 4 + partAt bits b.phys) ((leBytes (gReg s .cp rd.toNat).val).take (bits / 8))
                   cp := { s.cp with regs := t.cp.regs, wfe := false, busError := false } } := by
  refine runBus_accessed (g := id) (t := { s with
    mem := s.mem.setBytes (b.phys / 4 * 4 + partAt bits b.phys) ((leBytes (gReg s .cp rd.toNat).val).take (bits / 8)) })
    h.on h.locked ?_ rfl rfl rfl
  rw [cpStorePart_path (s := wake .cp s) h.path hw h.quiet, pathPart_plain h1 h7]
  rfl

/-- STGU of a lock that still stands: the word is written and the lock released. -/
theorem stgu_gives {s : State} {p : Pred} {rd ra : BitVec 5} {off : BitVec 10} {b : BusPath} (h : CpAccess s p (busAddr s ra off) b)
    (hw : b.wr = true) (h1 : 1 ≤ b.target) (h7 : b.target ≤ 7) (hl : s.cp.lockLost = false) :
    ∃ t, exec (.stgu p rd ra off) s = .next t ∧ regs t .cp = nextBundle (regs s .cp) ∧
      t = { s with mem := plainWrite b (gReg s .cp rd.toNat).val ((gReg s .cp rd.toNat).tag &&& 0b1110#4) s.mem
                   cp := { regs := t.cp.regs, lock := none, lockLost := false, wfe := false, busError := false } } := by
  have hf : cpStoreUnlock rd (busAddr s ra off) (wake .cp s) = { s with
      mem := plainWrite b (gReg s .cp rd.toNat).val ((gReg s .cp rd.toNat).tag &&& 0b1110#4) s.mem
      cp := { regs := s.cp.regs, lock := none, lockLost := false, wfe := false, busError := false } } := by
    have hl' : (wake .cp s).cp.lockLost = false := hl
    simp only [cpStoreUnlock, hl', cpStore, cpWrite_path (s := wake .cp s) h.path hw h.quiet, pathWrite_plain h1 h7]
    rfl
  exact runBus_leaves h.on h.locked hf rfl rfl

/-- STGU after LOCK_TIMEOUT: nothing is written. -/
theorem stgu_lost {s : State} {p : Pred} (hp : predOk s .cp p = true) (hl : s.cp.lockLost = true) (hk : pllbUnlocked s = false)
    (rd ra : BitVec 5) (off : BitVec 10) :
    ∃ t, exec (.stgu p rd ra off) s = .next t ∧ t.mem = s.mem ∧ regs t .cp = nextBundle (regs s .cp) ∧
      t = { s with cp := { regs := t.cp.regs, lock := none, lockLost := false, wfe := false, busError := true } } := by
  have hl' : (wake .cp s).cp.lockLost = true := hl
  have hf : cpStoreUnlock rd (busAddr s ra off) (wake .cp s) =
      { s with cp := { regs := s.cp.regs, lock := none, lockLost := false, wfe := false, busError := true } } := by
    rw [cpStoreUnlock, if_pos hl']
    rfl
  obtain ⟨t, ht, hg, he⟩ := runBus_leaves hp hk hf rfl rfl
  exact ⟨t, ht, by rw [he], hg, he⟩

/-! ## Accesses along no path -/

theorem cpRefused_eq (t c : Nat) (w : Bool) (a : Nat) (s : State) :
    (cpRefused t c w a s).cp = { s.cp with busError := true } ∧ (cpRefused t c w a s).flt.written = s.flt.written + 1 ∧
      (cpRefused t c w a s).mem = s.mem ∧ (cpRefused t c w a s).pending = s.pending ∧
      (cpRefused t c w a s).sec = s.sec := by
  refine ⟨?_, ?_, ?_, ?_, ?_⟩
  · simp only [cpRefused, busErr, logAbort_cp]
  · simp only [cpRefused, busErr_flt, logAbort, logFault_written]
  all_goals simp [cpRefused]

/-- A bundle whose access is refused: the bus error, the abort record, and the next bundle; the memories stand. -/
theorem runBus_refused {s : State} {p : Pred} {f : State → State} {g : Regs → Regs} {t c a : Nat} {w : Bool}
    (hp : predOk s .cp p = true) (hl : pllbUnlocked s = false)
    (hf : f (wake .cp s) = onRegs .cp g (cpRefused t c w a (wake .cp s))) :
    ∃ u, runBus p f s = .next u ∧ regs u .cp = nextBundle (g (regs s .cp)) ∧
      u.cp.busError = true ∧ u.flt.written = s.flt.written + 1 ∧ u.mem = s.mem := by
  obtain ⟨hc, hw, hm, hq, ho⟩ := cpRefused_eq t c w a (wake .cp s)
  obtain ⟨u, hu, hg, he⟩ := runBus_leaves hp hl hf hq (congrArg Security.otp ho)
  refine ⟨u, hu, hg.trans ?_, ?_, ?_, ?_⟩
  · simp only [onRegs, hc]; rfl
  · rw [he]; simp only [onRegs, hc]
  · rw [he]; exact hw
  · rw [he]; exact hm

/-- A load along no path takes 0 with tag 0 (R352). -/
theorem ldg_refused {s : State} {p : Pred} {rd ra : BitVec 5} {off : BitVec 10} (hp : predOk s .cp p = true)
    (hb : cpPath s (busAddr s ra off) = none) (hl : pllbUnlocked s = false) :
    ∃ t, exec (.ldg p rd ra off) s = .next t ∧ regs t .cp = nextBundle (withG rd 0 0 (regs s .cp)) ∧
      t.cp.busError = true ∧ t.flt.written = s.flt.written + 1 ∧ t.mem = s.mem := by
  have hb' : cpPath (wake .cp s) (busAddr s ra off) = none := hb
  have hf : cpLoad rd (busAddr s ra off) (wake .cp s) =
      onRegs .cp (withG rd 0 0) (cpRefused 0xF 5 false (busAddr s ra off) (wake .cp s)) := by
    simp only [cpLoad, cpRead, hb', cpSet_eq]
  exact runBus_refused hp hl hf

/-- A store along no path is discarded (R352). -/
theorem stg_refused {s : State} {p : Pred} {rd ra : BitVec 5} {off : BitVec 10} (hp : predOk s .cp p = true)
    (hb : cpPath s (busAddr s ra off) = none) (hl : pllbUnlocked s = false) :
    ∃ t, exec (.stg p rd ra off) s = .next t ∧ regs t .cp = nextBundle (regs s .cp) ∧
      t.cp.busError = true ∧ t.flt.written = s.flt.written + 1 ∧ t.mem = s.mem := by
  have hb' : cpPath (wake .cp s) (busAddr s ra off) = none := hb
  have hf : cpStore rd (busAddr s ra off) (wake .cp s) =
      onRegs .cp id (cpRefused 0xF 5 true (busAddr s ra off) (wake .cp s)) := by
    simp only [cpStore, cpWrite, hb', onRegs, id]
  exact runBus_refused hp hl hf

/-! ## The words of PERI -/

section
variable {a : Nat} (s : State)

theorem periRead_remap : periRead aPeri s = (toWord (b2n s.mem.remap), s) := rfl

theorem periRead_window (h : aPeri + 0x1000 ≤ a) (h' : a < aPeri + 0x2000) :
    periRead a s = (winWord s ((a - aPeri - 0x1000) / 4), s) := by
  simp only [periRead]
  rw [if_neg (by omega), if_pos (by omega)]

/-- A read of a detector's first word captures its four words. -/
theorem periRead_capture {n : Nat} (hn : n < 160) :
    periRead (aPeri + 0x2000 + 16 * n) s = ((detWords s n).w0, detCapture n s) := by
  have ho : aPeri + 0x2000 + 16 * n - aPeri = 0x2000 + 16 * n := by omega
  have hdet : (0x2000 + 16 * n - 0x2000) / 16 = n := by omega
  simp only [periRead, ho, hdet]
  rw [if_neg (by omega), if_neg (by omega), if_pos (by omega), if_pos (by omega)]

/-- The other words of a detector come from its capture. -/
theorem periRead_captured {n i : Nat} {q : Quad} (hn : n < 160) (hi : i < 4) (hi0 : i ≠ 0)
    (hq : tget none s.filt.capture n = some q) : periRead (aPeri + 0x2000 + 16 * n + 4 * i) s = (q.word i, s) := by
  have ho : aPeri + 0x2000 + 16 * n + 4 * i - aPeri = 0x2000 + 16 * n + 4 * i := by omega
  have hdet : (0x2000 + 16 * n + 4 * i - 0x2000) / 16 = n := by omega
  have hword : (0x2000 + 16 * n + 4 * i) % 16 / 4 = i := by omega
  simp only [periRead, ho, hdet, hword, hq]
  rw [if_neg (by omega), if_neg (by omega), if_pos (by omega), if_neg hi0]

theorem periRead_register (h : aPeri + 0x2A00 ≤ a) : periRead a s = (tget 0 s.mem.peri (a / 4), s) := by
  simp only [periRead]
  rw [if_neg (by omega), if_neg (by omega), if_neg (by omega)]

/-- A register keeps what is written; one of the power controller's block restarts the watchdog's count where the firmware has to
(R393). -/
theorem periWrite_register (h : aPeri + 0x2A00 ≤ a) (w : Word) : periWrite a w s =
    if aPeri + 0x7000 ≤ a ∧ a < aPeri + 0x8000 ∧ wdtHost s = false then
      wdtKick { s with mem := { s.mem with peri := tput 0 s.mem.peri (a / 4) w } }
    else { s with mem := { s.mem with peri := tput 0 s.mem.peri (a / 4) w } } := by
  simp only [periWrite]
  rw [if_neg (by omega), if_neg (by omega)]
  have hr : (0x7000 ≤ a - aPeri ∧ a - aPeri < 0x8000) ↔ (aPeri + 0x7000 ≤ a ∧ a < aPeri + 0x8000) := by omega
  exact if_congr (by rw [← and_assoc, hr, and_assoc]) rfl rfl

theorem periWrite_meter {i : Nat} (hi : i < 160) (w : Word) : periWrite (aPeri + 0x1100 + 4 * i) w s =
    { s with filt := { s.filt with meters := tput 0x80008000 s.filt.meters i w } } := by
  have ho : aPeri + 0x1100 + 4 * i - aPeri = 0x1100 + 4 * i := by omega
  have hwin : (0x1100 + 4 * i - 0x1000) / 4 = 0x40 + i := by omega
  have hmeter : 0x40 + i - 0x40 = i := by omega
  simp only [periWrite, ho, hwin, winWrite, hmeter]
  rw [if_neg (by omega), if_pos (by omega), if_pos (by omega)]

end

/-! ## Memories with a layout of their own -/

section
variable (b : Bool) (f : ConfigSet → ConfigSet) (s : State)

theorem bankOf_onBank_same : bankOf (onBank b f s) b = f (bankOf s b) := by cases b <;> rfl

theorem bankOf_onBank_other : bankOf (onBank b f s) (!b) = bankOf s (!b) := by cases b <;> rfl

/-- Changing a bank changes the banks alone. -/
theorem onBank_frame : onBank b f s =
    { s with sets := { s.sets with bankA := (onBank b f s).sets.bankA, bankB := (onBank b f s).sets.bankB } } := by
  cases b <;> rfl

theorem onBank_wake : onBank b f (wake .cp s) = wake .cp (onBank b f s) := by cases b <;> rfl

end

/-- A word of RET stands beside the memories and the CP: its write leaves them, and does not look at them. -/
theorem retSet_frame (k : Nat) (w : Word) (m : Memory) (c : CpState) (s : State) :
    retSet k w { s with mem := m, cp := c } = { retSet k w s with mem := m, cp := c } := by
  unfold retSet
  split_ifs <;> rfl

/-- Nor does it touch the queue or the security block. -/
theorem retSet_kept (k : Nat) (w : Word) (s : State) :
    (retSet k w s).pending = s.pending ∧ (retSet k w s).sec = s.sec ∧ (retSet k w s).cp = s.cp := by
  unfold retSet
  split_ifs <;> exact ⟨rfl, rfl, rfl⟩

end Sys2Proof.Machine
end

section
/-! SUPPORT. A set's items as GRAM holds them (R349): the tables that hold them, and what an item reads after a write. -/

namespace Sys2Proof.Machine

theorem tget_tput {α : Type} [DecidableEq α] (d : α) (t : List (Nat × α)) (k j : Nat) (v : α) :
    tget d (tput d t k v) j = if j = k then v else tget d t j := by
  split
  next h => rw [h, tget_tput_same]
  next h => exact tget_tput_other _ _ _ _ _ h

/-- A table of a set that GRAM holds: its items are numbered from `lo` up to `hi`. -/
structure GramTable where
  lo : Nat
  hi : Nat
  d : Word
  table : ConfigSet → List (Nat × Word)

/-- The tables of a set, in the order of GRAM's items; the core bindings follow them. -/
def gramTables : List GramTable :=
  [⟨0, 16384, dNode, ConfigSet.nodes⟩, ⟨16384, 16512, dWeir, ConfigSet.weirs⟩, ⟨16512, 16576, dTap, ConfigSet.taps⟩,
    ⟨16576, 16592, 0, ConfigSet.outMaps⟩, ⟨16592, 16624, 0, ConfigSet.feMode⟩, ⟨16624, 16656, 0, ConfigSet.feGain⟩,
    ⟨16656, 16672, 0, ConfigSet.fePair⟩, ⟨16672, 16704, dPreset, ConfigSet.preset⟩, ⟨16704, 16736, dFirSel, ConfigSet.firSel⟩,
    ⟨16736, 16768, dFirFade, ConfigSet.firFade⟩, ⟨16768, 16802, dOut, ConfigSet.outCfg⟩]

/-- Every item before the core bindings stands in one of the tables. -/
theorem exists_gramTable {j : Nat} (h : j < 16802) : ∃ r ∈ gramTables, r.lo ≤ j ∧ j < r.hi := by
  simp only [gramTables, List.exists_mem_cons_iff, List.not_mem_nil, false_and, exists_false, or_false]
  omega

theorem gramGet_table {r : GramTable} (hr : r ∈ gramTables) (c : ConfigSet) {j : Nat} (h : r.lo ≤ j) (h' : j < r.hi) :
    gramGet c j = some (tget r.d (r.table c) (j - r.lo)) := by
  simp only [gramTables, List.mem_cons, List.not_mem_nil, or_false] at hr
  rcases hr with rfl | rfl | rfl | rfl | rfl | rfl | rfl | rfl | rfl | rfl | rfl
  all_goals
    simp only at h h' ⊢
    simp (disch := omega) only [gramGet, if_neg, if_pos, Nat.sub_zero] <;> rfl

theorem gramSet_table_in {r : GramTable} (hr : r ∈ gramTables) (c : ConfigSet) {k : Nat} (w : Word) (h : r.lo ≤ k) (h' : k < r.hi) :
    r.table (gramSet k w c) = tput r.d (r.table c) (k - r.lo) w := by
  simp only [gramTables, List.mem_cons, List.not_mem_nil, or_false] at hr
  rcases hr with rfl | rfl | rfl | rfl | rfl | rfl | rfl | rfl | rfl | rfl | rfl
  all_goals
    simp only at h h' ⊢
    simp (disch := omega) only [gramSet, if_neg, if_pos, Nat.sub_zero]

theorem gramSet_table_out {r : GramTable} (hr : r ∈ gramTables) (c : ConfigSet) {k : Nat} (w : Word) (h : k < r.lo ∨ r.hi ≤ k) :
    r.table (gramSet k w c) = r.table c := by
  simp only [gramTables, List.mem_cons, List.not_mem_nil, or_false] at hr
  rcases hr with rfl | rfl | rfl | rfl | rfl | rfl | rfl | rfl | rfl | rfl | rfl
  all_goals
    simp only [gramSet, apply_ite ConfigSet.nodes, apply_ite ConfigSet.weirs, apply_ite ConfigSet.taps, apply_ite ConfigSet.outMaps,
      apply_ite ConfigSet.feMode, apply_ite ConfigSet.feGain, apply_ite ConfigSet.fePair, apply_ite ConfigSet.preset,
      apply_ite ConfigSet.firSel, apply_ite ConfigSet.firFade, apply_ite ConfigSet.outCfg, ite_self] at h ⊢
    rcases h with h | h
  · exact absurd h (Nat.not_lt_zero k)
  all_goals simp (disch := omega) only [if_pos, if_neg, ite_self]

/-- Word `i` of a core's binding. -/
def bindWord (b : CoreBinding) (i : Nat) : Word := match i with | 0 => b.word | 1 => b.sends | _ => b.returns

theorem gramGet_bind (c : ConfigSet) {j : Nat} (h : 16802 ≤ j) (h' : j < 16814) :
    gramGet c j = some (bindWord (c.bind ((j - 16802) / 3)) ((j - 16802) % 3)) := by
  simp (disch := omega) only [gramGet, if_neg, if_pos]
  generalize (j - 16802) % 3 = i
  rcases i with _ | _ | _ <;> rfl

/-- A binding takes word `i`. -/
def setBindWord (i : Nat) (w : Word) (b : CoreBinding) : CoreBinding :=
  match i with | 0 => { b with word := w } | 1 => { b with sends := w } | _ => { b with returns := w }

theorem gramSet_bind_in (c : ConfigSet) {k : Nat} (h : 16802 ≤ k) (h' : k < 16814) (w : Word) (n : Nat) : (gramSet k w c).bind n =
    if n = (k - 16802) / 3 then setBindWord ((k - 16802) % 3) w (c.bind n) else c.bind n := by
  simp (disch := omega) only [gramSet, if_neg, if_pos, ConfigSet.bind, tmod, tget_tput]
  split
  next hn =>
    rw [hn]
    generalize (k - 16802) % 3 = i
    rcases i with _ | _ | _ <;> rfl
  next => rfl

theorem gramSet_bind_out (c : ConfigSet) {k : Nat} (h : k < 16802) (w : Word) (n : Nat) : (gramSet k w c).bind n = c.bind n := by
  simp only [gramSet, ConfigSet.bind, apply_ite ConfigSet.coreBind]
  simp (disch := omega) only [if_pos, ite_self]

theorem bindWord_setBindWord {i j : Nat} (hi : i < 3) (hj : j < 3) (w : Word) (b : CoreBinding) :
    bindWord (setBindWord i w b) j = if j = i then w else bindWord b j := by
  interval_cases i <;> interval_cases j <;> rfl

/-- An item of a set that GRAM holds reads as it was last written, and the other items stand. -/
theorem gramGet_gramSet (c : ConfigSet) {j k : Nat} (w : Word) (hj : j < 16814) (hk : k < 16814) :
    gramGet (gramSet k w c) j = if j = k then some w else gramGet c j := by
  rcases Nat.lt_or_ge j 16802 with h | h
  · obtain ⟨r, hr, h1, h2⟩ := exists_gramTable h
    rw [gramGet_table hr _ h1 h2, gramGet_table hr _ h1 h2]
    by_cases hin : r.lo ≤ k ∧ k < r.hi
    · rw [gramSet_table_in hr c w hin.1 hin.2, tget_tput, apply_ite some]
      exact if_congr (by omega) rfl rfl
    · rw [gramSet_table_out hr c w (by omega), if_neg (by rintro rfl; exact hin ⟨h1, h2⟩)]
  · rw [gramGet_bind _ h hj, gramGet_bind _ h hj]
    rcases Nat.lt_or_ge k 16802 with hk' | hk'
    · rw [gramSet_bind_out c hk', if_neg (by omega)]
    · rw [gramSet_bind_in c hk' hk]
      split
      next hn =>
        rw [bindWord_setBindWord (Nat.mod_lt _ (by decide)) (Nat.mod_lt _ (by decide)), apply_ite some]
        exact if_congr (by omega) rfl rfl
      next hn => rw [if_neg (by rintro rfl; exact hn rfl)]

end Sys2Proof.Machine
end

section
/-! SUPPORT. A load and an addition in one bundle of the CP (R94, R120), and register writes by a master (R350–R352). -/

namespace Sys2Proof.Machine

/-! ## A bundle of the CP: a load and an addition -/

/-- The effect of an addition: the sum and the tags of two registers. -/
def addEff (s : State) (lo : Word) : Eff :=
  .setG (fRd lo).toNat ⟨(gReg s .cp (fRa lo).toNat).val + (gReg s .cp (fRb lo).toNat).val,
    ((gReg s .cp (fRa lo).toNat).tag ||| (gReg s .cp (fRb lo).toNat).tag) &&& 0b1110#4⟩

theorem sylEff_load {w : Word} (h : opc w = 0x50) (s : State) (u : Site) : sylEff s u w = [] := by
  simp only [sylEff, h]

theorem sylEff_add {w : Word} (h : opc w = 1) (s : State) : sylEff s .cp w = [addEff s w] := by
  simp only [sylEff, h]
  rfl

/-- With the addition's effect a bundle leaves its sum, and the next bundle is due. -/
theorem issue_add (lo : Word) (s t : State) : issue .cp [addEff s lo] t = .ok (onRegs .cp (fun r => nextBundle (withG (fRd lo)
    ((gReg s .cp (fRa lo).toNat).val + (gReg s .cp (fRb lo).toNat).val)
    (((gReg s .cp (fRa lo).toNat).tag ||| (gReg s .cp (fRb lo).toNat).tag) &&& 0b1110#4) r)) t) := by
  have hs : applyEff .cp (addEff s lo) t = onRegs .cp (withG (fRd lo) _ _) t := cpSet_eq (fRd lo) _ _ t
  simp only [issue, List.foldl_cons, List.foldl_nil, hs]
  rfl

/-- A load in slot M and an addition beside it: each reads the registers as they stood. -/
theorem cpBundle_load_add {s : State} {hi lo : Word} {b : BusPath} (hu : s.mem.upsets = []) (hl : pllbUnlocked s = false)
    (hh : opc hi = 0x50) (ho : opc lo = 1) (hv : cpLow lo = true) (hhi : sylOn s .cp hi = true) (hlo : sylOn s .cp lo = true)
    (hb : cpPath s (busAddr s (fRa hi) (fOff hi)) = some b) (hr : b.rd = true) (h1 : 1 ≤ b.target) (h7 : b.target ≤ 7)
    (hd : b.phys / 4 * 4 ∉ s.mem.bad) :
    let x := gReg s .cp (fRa lo).toNat
    let y := gReg s .cp (fRb lo).toNat
    regs (cpBundle hi lo s) .cp = nextBundle (withG (fRd lo) (x.val + y.val) ((x.tag ||| y.tag) &&& 0b1110#4)
      (withG (fRd hi) (s.mem.word (b.phys / 4 * 4)) (s.mem.tag (b.phys / 4 * 4) &&& 0b1110#4) (regs s .cp))) := by
  have h0 : hi ≠ 0 := by rintro rfl; revert hh; decide
  have hlo0 : lo ≠ 0 := by rintro rfl; revert ho; decide
  have hwfe : opc lo ≠ 0x90 := by rw [ho]; decide
  have hbus : isBus hi = true := by simp [isBus, hh]
  have hhigh : cpHigh hi = true := by simp [cpHigh, hbus]
  have hlost : bundleLost .cp [addEff s lo] s = none := bundleLost_reg (by simp [addEff, isRegEff]) (by simp [registerUpset, hu])
  have hld : busSyl hi (wake .cp s) = onRegs .cp
      (withG (fRd hi) (s.mem.word (b.phys / 4 * 4)) (s.mem.tag (b.phys / 4 * 4) &&& 0b1110#4)) (busErr false (wake .cp s)) := by
    simp only [busSyl, hh]
    change cpLoad (fRd hi) (busAddr s (fRa hi) (fOff hi)) (wake .cp s) = _
    rw [cpLoad_path (s := wake .cp s) hb hr hu hd, pathRead_plain h1 h7]
    rfl
  intro x y
  simp only [cpBundle, h0, hlo0, hhi, hlo, hbus, hhigh, hv, hl, ne_eq, not_false_eq_true, true_and, and_false, if_true, if_false,
    Bool.true_eq_false, Bool.false_eq_true, or_self, sylEff_load hh, sylEff_add ho, List.nil_append, hlost, hld, issue_add, hwfe]
  rfl

theorem beat_cp {s t u : State} {hi lo : Word} (h : logicOn s = true) (hhi : cpFetch (8 * s.cp.regs.pc % 2 ^ 32) s = (some hi, t))
    (hlo : cpFetch ((8 * s.cp.regs.pc + 4) % 2 ^ 32) t = (some lo, u)) : beat s .cp = cpBundle hi lo u := by
  simp only [beat, cpIssue, h, if_true, hhi, hlo]

/-! ## Register writes -/

/-- A write of a register of target `t`: performed along a path, and discarded with an abort record along none. -/
theorem registerWrite_target {s : State} {master a t : Nat} (hs : logicOn s = true) (hm : master ≤ 8) (hl : pllbUnlocked s = false)
    (ht : regTarget a = some t) (w : Word) : registerWrite master a w s =
    if regPath master t then masterBeat master t a (periWrite a w) s else masterErr master (logAbort master 0xF 5 true 0 a s) := by
  simp only [registerWrite, hs, hm, hl, ht, and_self, if_true]

theorem regTarget_peri {a : Nat} (h : aPeri ≤ a) (h' : a < aPeri + 0x8000) : regTarget a = some 10 := if_pos ⟨h, h'⟩

/-- Without an error waiting, a master's write beat is performed. -/
theorem masterBeat_quiet {s : State} (hu : s.mem.upsets = []) (master t a : Nat) (put : State → State) :
    masterBeat master t a put s = put s := by
  simp [masterBeat, registerUpset, hu]

/-- The CP's and SEC's writes of PERI are performed. -/
theorem registerWrite_peri {s : State} {master a : Nat} (w : Word) (hs : logicOn s = true) (hl : pllbUnlocked s = false)
    (hu : s.mem.upsets = []) (h : aPeri ≤ a) (h' : a < aPeri + 0x8000) (hm : master = 4 ∨ master = 7) :
    registerWrite master a w s = periWrite a w s := by
  have hp : regPath master 10 = true := by rcases hm with rfl | rfl <;> rfl
  rw [registerWrite_target hs (by omega) hl (regTarget_peri h h'), if_pos hp, masterBeat_quiet hu]

/-- The other masters' are not. -/
theorem registerWrite_peri_other {s : State} {master a : Nat} (w : Word) (hs : logicOn s = true) (hl : pllbUnlocked s = false)
    (h : aPeri ≤ a) (h' : a < aPeri + 0x8000) (h8 : master ≤ 8) (h4 : master ≠ 4) (h7 : master ≠ 7) :
    registerWrite master a w s = logAbort master 0xF 5 true 0 a s := by
  have hp : regPath master 10 = false := by simp [regPath, h4, h7]
  rw [registerWrite_target hs h8 hl (regTarget_peri h h'), hp]
  exact if_neg h4

/-- Between PERI and KEYS stand no registers, and no memory. -/
theorem regTarget_gap {a : Nat} (h : aPeri + 0x8000 ≤ a) (h' : a < aKeys) : regTarget a = none := by
  simp (disch := omega) only [regTarget, if_neg]

theorem memTarget_gap {a : Nat} (h : aPeri + 0x8000 ≤ a) (h' : a < aKeys) (s : State) : memTarget s a = none := by
  simp only [aPeri, aKeys] at h h'
  have hr : rowOf a = none := by
    simp (disch := simp only [aCpram, aPram, aCore, aSramEnd, aCram, aGram, aFctx, aRet] <;> omega) only [rowOf, if_neg]
  have hb (c : Bool) (n : Nat) (hn : n ≤ 0x80000) :
      ¬ ((if c then aCpram else 0) ≤ a ∧ a < (if c then aCpram else 0) + n) ∧
        ¬ ((if c then 0 else aCpram) ≤ a ∧ a < (if c then 0 else aCpram) + n) := by
    simp only [aCpram]; split <;> omega
  simp only [memTarget]
  rw [if_neg (hb _ _ (by decide)).1, if_neg (hb _ _ (by decide)).2, if_neg (by omega), hr]
  rfl

theorem registerWrite_gap {s : State} {master a : Nat} (w : Word) (hs : logicOn s = true) (hl : pllbUnlocked s = false)
    (h : aPeri + 0x8000 ≤ a) (h' : a < aKeys) (h8 : master ≤ 8) (h4 : master ≠ 4) :
    registerWrite master a w s = logAbort master 0xF 5 true 0 a s := by
  simp only [registerWrite, hs, h8, hl, and_self, if_true, regTarget_gap h h', memTarget_gap h h', masterErr, h4, if_false]

/-- A register write that changes neither the queue nor OTP answers its new state. -/
theorem execRegisterWrite_eq {s t : State} {master a : Nat} {w : Word} (h : registerWrite master a w s = t)
    (hq : t.pending = s.pending) (ho : t.sec.otp = s.sec.otp) : exec (.registerWrite master a w) s = .next t := by
  subst h
  exact ev_of_kept hq ho

end Sys2Proof.Machine
end

section
/-! PROOF. The words of each target as the CP reads and writes them, and the statement on the CP's accesses. -/

namespace Sys2Proof.Machine

/-! ## Loads and stores by target -/

/-- The status window does not show whether the CP waits for an event. -/
theorem winWord_wake (s : State) (i : Nat) : winWord (wake .cp s) i = winWord s i := rfl

/-- Nor do the words of RET. -/
theorem retGet_wake (s : State) (k : Nat) : retGet (wake .cp s) k = retGet s k := by
  simp only [retGet, wake]

section
variable {s : State} {p : Pred} {rd ra : BitVec 5} {off : BitVec 10} {b : BusPath}

/-- A load that leaves all but the CP as it was. -/
theorem ldg_pure {w : Word} {g : BitVec 4} (h : CpAccess s p (busAddr s ra off) b) (hr : b.rd = true)
    (hd : b.phys / 4 * 4 ∉ s.mem.bad) (hw : pathRead b (wake .cp s) = ((w, g), wake .cp s)) :
    ∃ t, exec (.ldg p rd ra off) s = .next t ∧ regs t .cp = nextBundle (withG rd w g (regs s .cp)) ∧
      t = { s with cp := { s.cp with regs := t.cp.regs, wfe := false, busError := false } } :=
  ldg_gives s.filt h hr hd hw

theorem pathRead_peri {s t : State} {w : Word} (h : b.target = 10) (hp : periRead (b.phys / 4 * 4) s = (w, t)) :
    pathRead b s = ((w, 0), t) := by
  unfold pathRead
  split
  case h_4 =>
    extract_lets a
    rw [show periRead a s = (w, t) from hp]
  case h_6 _ _ _ h10 _ => exact absurd h h10
  all_goals omega

theorem pathRead_brom (h : b.target = 0) (s : State) : pathRead b s =
    ((toWord ((Config.bromByte (b.phys / 4 * 4)).toNat + (Config.bromByte (b.phys / 4 * 4 + 1)).toNat * 256 +
      (Config.bromByte (b.phys / 4 * 4 + 2)).toNat * 65536 + (Config.bromByte (b.phys / 4 * 4 + 3)).toNat * 16777216), 0), s) := by
  cases b; subst h; rfl

theorem pathRead_gram (h : b.target = 8) (s : State) : pathRead b s =
    (((gramGet (bankOf s (bankOff aGram 0x30000 (b.phys / 4 * 4)).1) (Config.gramItem (bankOff aGram 0x30000 (b.phys / 4 * 4)).2)).getD
      (s.mem.word (b.phys / 4 * 4)), 0), s) := by
  cases b; subst h; rfl

theorem pathRead_fctx (h : b.target = 9) (s : State) : pathRead b s =
    ((if (bankOff aFctx 0x4000 (b.phys / 4 * 4)).2 < 4096
      then ((bankOf s (bankOff aFctx 0x4000 (b.phys / 4 * 4)).1).flow ((bankOff aFctx 0x4000 (b.phys / 4 * 4)).2 / 16)).word
        ((bankOff aFctx 0x4000 (b.phys / 4 * 4)).2 % 16 / 4)
      else s.mem.word (b.phys / 4 * 4), 0), s) := by
  cases b; subst h; rfl

theorem pathRead_ret (h : b.target = 12) (s : State) : pathRead b s =
    (((retGet s (Config.retItem (b.phys / 4 * 4 - aRet))).getD (s.mem.word (b.phys / 4 * 4)), 0), s) := by
  cases b; subst h; rfl

theorem pathWrite_brom (h : b.target = 0) (w : Word) (t : BitVec 4) (s : State) : pathWrite b w t s = s := by
  cases b; subst h; rfl

theorem pathWrite_peri (h : b.target = 10) (w : Word) (t : BitVec 4) (s : State) :
    pathWrite b w t s = periWrite (b.phys / 4 * 4) w s := by
  unfold pathWrite
  split
  case h_6 => rfl
  case h_8 _ _ _ _ _ h10 _ => exact absurd h h10
  all_goals omega

/-- A word of a memory with a layout of its own is written: it decodes again. -/
def rewritten (a : Nat) (s : State) : State := { s with mem := { s.mem with bad := s.mem.bad.filter (· != a) } }

theorem pathWrite_gram (h : b.target = 8) (w : Word) (t : BitVec 4) (s : State) : pathWrite b w t s =
    if Config.gramItem (bankOff aGram 0x30000 (b.phys / 4 * 4)).2 < 16814 then
      onBank (bankOff aGram 0x30000 (b.phys / 4 * 4)).1 (gramSet (Config.gramItem (bankOff aGram 0x30000 (b.phys / 4 * 4)).2)
        (w &&& gramMask (Config.gramItem (bankOff aGram 0x30000 (b.phys / 4 * 4)).2))) (rewritten (b.phys / 4 * 4) s)
    else { s with mem := s.mem.setPlain (b.phys / 4 * 4) w } := by
  cases b; subst h; rfl

/-- A flow context of a set takes a word. -/
def setFlowWord (o : Nat) (w : Word) (c : ConfigSet) : ConfigSet :=
  { c with flows := tmod dFlow c.flows (o / 16) (fun q => setQuad q (o % 16 / 4) (w &&& fctxMask (o % 16 / 4))) }

theorem flow_setFlowWord (o : Nat) (w : Word) (c : ConfigSet) (f : Nat) : (setFlowWord o w c).flow f =
    if f = o / 16 then setQuad (c.flow f) (o % 16 / 4) (w &&& fctxMask (o % 16 / 4)) else c.flow f := by
  simp only [setFlowWord, ConfigSet.flow, tmod, tget_tput]
  split
  next h => rw [h]
  next => rfl

theorem pathWrite_fctx (h : b.target = 9) (w : Word) (t : BitVec 4) (s : State) : pathWrite b w t s =
    if (bankOff aFctx 0x4000 (b.phys / 4 * 4)).2 < 4096 then
      onBank (bankOff aFctx 0x4000 (b.phys / 4 * 4)).1 (setFlowWord (bankOff aFctx 0x4000 (b.phys / 4 * 4)).2 w)
        (rewritten (b.phys / 4 * 4) s)
    else { s with mem := s.mem.setPlain (b.phys / 4 * 4) w } := by
  cases b; subst h; rfl

theorem pathWrite_ret (h : b.target = 12) (w : Word) (t : BitVec 4) (s : State) : pathWrite b w t s =
    if Config.retItem (b.phys / 4 * 4 - aRet) < 1889 then
      retSet (Config.retItem (b.phys / 4 * 4 - aRet)) (w &&& retMask (Config.retItem (b.phys / 4 * 4 - aRet)))
        (rewritten (b.phys / 4 * 4) s)
    else { s with mem := s.mem.setPlain (b.phys / 4 * 4) w } := by
  cases b; subst h; rfl

/-- A store whose word is plain. -/
theorem stg_plain {v : Word} (h : CpAccess s p (busAddr s ra off) b) (hw : b.wr = true) (hv : v = (gReg s .cp rd.toNat).val)
    (ht : ∀ w t u, pathWrite b w t u = { u with mem := u.mem.setPlain (b.phys / 4 * 4) w }) :
    ∃ u, exec (.stg p rd ra off) s = .next u ∧ regs u .cp = nextBundle (regs s .cp) ∧
      u = { s with mem := s.mem.setPlain (b.phys / 4 * 4) v
                   cp := { s.cp with regs := u.cp.regs, wfe := false, busError := false } } := by
  subst hv
  exact stg_gives (t := { s with mem := s.mem.setPlain (b.phys / 4 * 4) (gReg s .cp rd.toNat).val }) h hw (ht ..) rfl rfl rfl

/-- A store of a word of RET. -/
theorem stg_ret (h : CpAccess s p (busAddr s ra off) b) (hw : b.wr = true) {k : Nat} {v : Word}
    (ht : pathWrite b (gReg s .cp rd.toNat).val ((gReg s .cp rd.toNat).tag &&& 0b1110#4) (wake .cp s) =
      retSet k v (rewritten (b.phys / 4 * 4) (wake .cp s))) :
    ∃ u, exec (.stg p rd ra off) s = .next u ∧ regs u .cp = nextBundle (regs s .cp) ∧
      u = { retSet k v s with mem := { s.mem with bad := s.mem.bad.filter (· != b.phys / 4 * 4) }
                              cp := { s.cp with regs := u.cp.regs, wfe := false, busError := false } } := by
  obtain ⟨hq, ho, hc⟩ := retSet_kept k v s
  have hk := ht.trans (retSet_frame k v (rewritten (b.phys / 4 * 4) s).mem (wake .cp s).cp s)
  refine stg_gives (t := { retSet k v s with mem := (rewritten (b.phys / 4 * 4) s).mem }) h hw (hk.trans ?_) hc hq
    (congrArg Security.otp ho)
  simp only [wake, hc]

/-- A store of a word of one of the sets' banks. -/
theorem stg_bank {bk : Bool} {f : ConfigSet → ConfigSet} (h : CpAccess s p (busAddr s ra off) b) (hw : b.wr = true)
    (ht : pathWrite b (gReg s .cp rd.toNat).val ((gReg s .cp rd.toNat).tag &&& 0b1110#4) (wake .cp s) =
      onBank bk f (rewritten (b.phys / 4 * 4) (wake .cp s))) :
    ∃ u, exec (.stg p rd ra off) s = .next u ∧ regs u .cp = nextBundle (regs s .cp) ∧
      bankOf u bk = f (bankOf s bk) ∧ bankOf u (!bk) = bankOf s (!bk) ∧
      u = { s with mem := { s.mem with bad := s.mem.bad.filter (· != b.phys / 4 * 4) }
                   sets := { s.sets with bankA := u.sets.bankA, bankB := u.sets.bankB }
                   cp := { s.cp with regs := u.cp.regs, wfe := false, busError := false } } := by
  have hk := ht.trans (onBank_wake bk f (rewritten (b.phys / 4 * 4) s))
  have hs := onBank_frame bk f (rewritten (b.phys / 4 * 4) s)
  obtain ⟨u, hu, hg, he⟩ := stg_gives h hw hk (by rw [hs]; rfl) (by rw [hs]; rfl) (by rw [hs]; rfl)
  refine ⟨u, hu, hg, ?_, ?_, ?_⟩
  · rw [he]; exact bankOf_onBank_same bk f (rewritten (b.phys / 4 * 4) s)
  · rw [he]; exact bankOf_onBank_other bk f (rewritten (b.phys / 4 * 4) s)
  · rw [he, hs]; rfl

/-- A load of a word of PERI. -/
theorem ldg_peri {w : Word} (q : Filters) (h : CpAccess s p (busAddr s ra off) b) (hr : b.rd = true)
    (hd : b.phys / 4 * 4 ∉ s.mem.bad) (ht : b.target = 10)
    (hw : periRead (b.phys / 4 * 4) (wake .cp s) = (w, { wake .cp s with filt := q })) :
    ∃ t, exec (.ldg p rd ra off) s = .next t ∧ regs t .cp = nextBundle (withG rd w 0 (regs s .cp)) ∧
      t = { s with filt := q, cp := { s.cp with regs := t.cp.regs, wfe := false, busError := false } } :=
  ldg_gives q h hr hd (pathRead_peri ht hw)

end

/-- LOCK_TIMEOUT, once 16 MTX cycles have passed (R359): the abort record, and the lock is lost. -/
theorem lockTimeout_eq {s : State} {l : Lock} (hk : s.cp.lock = some l) (hs : logicOn s = true) (hl : pllbUnlocked s = false)
    (ht : 65 ≤ since s l.since) : exec .lockTimeout s = .next (logAbort 4 (pointTarget l.point) 4 false 0 l.addr
      { s with cp := { s.cp with lock := none, lockLost := true } }) := by
  have hf : lockTimeout s = logAbort 4 (pointTarget l.point) 4 false 0 l.addr (unlock true s) := by
    simp only [lockTimeout, hk, hs, hl, lockNs, ht, and_self, if_true, waitLock]
  change ev s (lockTimeout s) = _
  rw [hf]
  exact ev_of_kept (logAbort_pending ..) (by rw [logAbort_sec]; rfl)

/-- WFE (R120). -/
theorem wfe_gives {s : State} {p : Pred} (hp : predOk s .cp p = true) :
    ∃ t, exec (.wfe p) s = .next t ∧ regs t .cp = nextBundle (regs s .cp) ∧
      t = { s with cp := { s.cp with regs := t.cp.regs, wfe := true } } :=
  ⟨onRegs .cp nextBundle { s with cp := { s.cp with wfe := true } },
    runCp_on (f := fun s => { s with cp := { s.cp with wfe := true } }) hp rfl rfl, rfl, rfl⟩

/-- A register of PERI keeps what the CP or SEC writes. -/
theorem registerWrite_keeps {s : State} {master a : Nat} (w : Word) (hs : logicOn s = true) (hl : pllbUnlocked s = false)
    (hu : s.mem.upsets = []) (ha : aPeri + 0x2A00 ≤ a) (ha' : a < aPeri + 0x8000) (hm : master = 4 ∨ master = 7)
    (hk : a < aPeri + 0x7000 ∨ wdtHost s = true) :
    registerWrite master a w s = { s with mem := { s.mem with peri := tput 0 s.mem.peri (a / 4) w } } := by
  have hno : ¬ (aPeri + 0x7000 ≤ a ∧ a < aPeri + 0x8000 ∧ wdtHost s = false) := by
    rintro ⟨h1, -, h3⟩
    rcases hk with hk | hk
    · omega
    · rw [hk] at h3; cases h3
  rw [registerWrite_peri w hs hl hu (by linarith) ha' hm, periWrite_register _ ha, if_neg hno]

/-- A write in the block of the power controller restarts a watchdog that the firmware has to restart (R393). -/
theorem registerWrite_kicks {s : State} {master a : Nat} (w : Word) (hs : logicOn s = true) (hl : pllbUnlocked s = false)
    (hu : s.mem.upsets = []) (ha : aPeri + 0x7000 ≤ a) (ha' : a < aPeri + 0x8000) (hm : master = 4 ∨ master = 7)
    (hk : wdtHost s = false) (hr : running s = true) :
    registerWrite master a w s = { s with
      mem := { s.mem with peri := tput 0 s.mem.peri (a / 4) w }, power := { s.power with wdtAt := now s } } := by
  have hr' (m : Memory) : running { s with mem := m } = true := hr
  have hlo : aPeri + 0x2A00 ≤ a := by linarith
  rw [registerWrite_peri w hs hl hu (by linarith) ha' hm, periWrite_register _ hlo, if_pos ⟨ha, ha', hk⟩]
  simp only [wdtKick, hr', if_true]
  rfl

/-- The bits of an item that GRAM holds, by its kind (Tables 6.3, 6.4, 6.10, 8.7). -/
theorem gramMask_values (k : Nat) : (k < 16384 → gramMask k = 0x001FFFFF) ∧
    (16384 ≤ k → k < 16512 → gramMask k = 0xC7FF00FF) ∧ (16512 ≤ k → k < 16576 → gramMask k = 0x801F00FF) ∧
    (16768 ≤ k → k < 16802 → gramMask k = 0x80F11000) := by
  refine ⟨fun h => ?_, fun h h' => ?_, fun h h' => ?_, fun h h' => ?_⟩
  all_goals simp (disch := omega) only [gramMask, if_neg, if_pos]

/-- Settles O28, clause by clause from the lemmas on paths, PERI, GRAM and RET. -/
theorem busAccesses : Obligations.BusAccesses := by
  unfold Obligations.BusAccesses
  refine ⟨?_, ?_, ?_, ?_, ?_, ?_, ?_, ?_, rfl, rfl, rfl, ?_, ?_, ?_, ?_, ?_, ?_, ?_, ?_⟩
  · intro s p rd ra off x b hp hx hb hr hu hl hd h1 h7
    subst hx
    have h : CpAccess s p (busAddr s ra off) b := ⟨hp, hb, hu, hl⟩
    refine ⟨ldg_pure h hr hd (pathRead_plain h1 h7 _), fun h0 => ?_, fun h0 => ?_, ldgl_gives h hr hd h1 h7⟩
    · have hi : 8 * partAt 16 (busAddr s ra off) = 16 * (busAddr s ra off % 4 / 2) := by simp only [partAt, if_true]; omega
      have := loadPart_gives h hr hd h1 h7 h0 (bits := 16) (by decide) (by decide)
      rwa [hi] at this
    · exact loadPart_gives h hr hd h1 h7 h0 (bits := 8) (by decide) (by decide)
  · intro s p rd ra off x b m hp hx hb hw hu hl h1 h7 hm
    subst hx hm
    have h : CpAccess s p (busAddr s ra off) b := ⟨hp, hb, hu, hl⟩
    exact ⟨stg_gives (t := { s with mem := plainWrite b _ _ s.mem }) h hw (pathWrite_plain h1 h7 _ _ _) rfl rfl rfl,
      storePart_gives h hw h1 h7, storePart_gives h hw h1 h7, stgu_gives h hw h1 h7⟩
  · exact fun s p rd ra off hp hl hk => stgu_lost hp hl hk rd ra off
  · exact fun s p rd ra off hp hb hl => ⟨ldg_refused hp hb hl, stg_refused hp hb hl⟩
  · intro s p rd ra off b a hp hb hr hu hl ha hd
    subst ha
    have h : CpAccess s p (busAddr s ra off) b := ⟨hp, hb, hu, hl⟩
    refine ⟨fun ht => ?_, fun ht => ?_, fun ht => ?_, fun ht => ?_, fun ht ha => ?_, fun ht hlo hhi => ?_, fun ht n hn ha => ?_,
      fun ht n hn i hi hi0 q ha hq => ?_, fun ht ha => ?_⟩
    · exact ldg_pure h hr hd (pathRead_brom ht _)
    · exact ldg_pure h hr hd (pathRead_gram ht _)
    · exact ldg_pure h hr hd (pathRead_fctx ht _)
    · exact ldg_pure h hr hd (by rw [pathRead_ret ht, retGet_wake]; rfl)
    · exact ldg_peri s.filt h hr hd ht (by rw [ha]; exact periRead_remap _)
    · exact ldg_peri s.filt h hr hd ht (by rw [periRead_window _ hlo hhi, winWord_wake]; rfl)
    · exact ldg_peri _ h hr hd ht (by rw [ha]; exact periRead_capture _ hn)
    · exact ldg_peri s.filt h hr hd ht (by rw [ha]; exact periRead_captured (wake .cp s) hn hi hi0 hq)
    · exact ldg_peri s.filt h hr hd ht (periRead_register _ ha)
  · intro s p rd ra off b a v hp hb hw hu hl ha hv
    subst ha
    have h : CpAccess s p (busAddr s ra off) b := ⟨hp, hb, hu, hl⟩
    refine ⟨fun ht => ?_, fun ht => ?_, fun ht ho => ?_, fun ht ho => ?_, fun ht => ?_, fun ht hlo hhi => ?_, fun ht i hi ha => ?_⟩
    · exact stg_gives (t := s) h hw (pathWrite_brom ht ..) rfl rfl rfl
    · subst hv
      by_cases hk : Config.gramItem (bankOff aGram 0x30000 (b.phys / 4 * 4)).2 < 16814
      · simp only [if_pos hk]
        exact stg_bank h hw ((pathWrite_gram ht ..).trans (if_pos hk))
      · simp only [if_neg hk]
        exact stg_plain h hw rfl (fun w t u => (pathWrite_gram ht ..).trans (if_neg hk))
    · subst hv
      obtain ⟨u, hu, hg, hbk, hother, he⟩ := stg_bank (rd := rd) h hw ((pathWrite_fctx ht ..).trans (if_pos ho))
      exact ⟨u, hu, hg, by rw [he], fun f => by rw [hbk]; exact flow_setFlowWord _ _ _ f, hother⟩
    · exact stg_plain h hw hv (fun w t u => (pathWrite_fctx ht ..).trans (if_neg (Nat.not_lt.mpr ho)))
    · subst hv
      by_cases hk : Config.retItem (b.phys / 4 * 4 - aRet) < 1889
      · simp only [if_pos hk]
        exact stg_ret h hw ((pathWrite_ret ht ..).trans (if_pos hk))
      · simp only [if_neg hk]
        exact stg_plain h hw rfl (fun w t u => (pathWrite_ret ht ..).trans (if_neg hk))
    · subst hv
      refine stg_gives (t := { s with mem := { s.mem with
        peri := tput 0 s.mem.peri (b.phys / 4 * 4 / 4) (gReg s .cp rd.toNat).val } }) h hw ?_ rfl rfl rfl
      rw [pathWrite_peri ht, periWrite_register _ hlo, if_neg (by omega)]
      rfl
    · subst hv
      obtain ⟨u, hu, -, he⟩ := stg_gives (rd := rd) (t := { s with filt := { s.filt with
        meters := tput 0x80008000 s.filt.meters i (gReg s .cp rd.toNat).val } }) h hw
        (by rw [pathWrite_peri ht, ha, periWrite_meter _ hi]; rfl) rfl rfl rfl
      exact ⟨u, hu, he⟩
  · exact fun c j k w hj hk => gramGet_gramSet c w hj hk
  · exact gramMask_values
  · intro s p rd ra off hp hl i hi
    simp only [List.mem_cons, List.not_mem_nil, or_false] at hi
    rcases hi with rfl | rfl | rfl | rfl | rfl | rfl | rfl | rfl <;> exact runBus_waits hp hl _
  · intro s hi lo b hs hu hl hfh hfl hh ho hv hhi hlo _ hb hr h1 h7 hd
    rw [beat_cp hs hfh hfl]
    exact cpBundle_load_add hu hl hh ho hv hhi hlo hb hr h1 h7 hd
  · exact fun s p hp => wfe_gives hp
  · exact fun s l hk hs hl ht => lockTimeout_eq hk hs hl ht
  · exact fun s master a w hs hl hu ha ha' hm hk => execRegisterWrite_eq (registerWrite_keeps w hs hl hu ha ha' hm hk) rfl rfl
  · exact fun s master a w hs hl ha ha' h8 h4 h7 => execRegisterWrite_eq (registerWrite_peri_other w hs hl ha ha' h8 h4 h7)
      (logAbort_pending ..) (by rw [logAbort_sec])
  · exact fun s master a w hs hl hu ha ha' hm hk hr => execRegisterWrite_eq (registerWrite_kicks w hs hl hu ha ha' hm hk hr) rfl rfl
  · exact fun s master a w hs hl ha ha' h8 h4 => execRegisterWrite_eq (registerWrite_gap w hs hl ha ha' h8 h4)
      (logAbort_pending ..) (by rw [logAbort_sec])

end Sys2Proof.Machine
end

section
/-! PROOF. Bytes, words and tags of the memories (R33, R34): what each reads after a write, and the statement on them. -/

namespace Sys2Proof.Machine

/-! ## Tables -/

/-- Every entry after consecutive entries are written. -/
theorem tget_tputs {α : Type} [DecidableEq α] (d : α) (t : List (Nat × α)) (a b : Nat) (vs : List α) :
    tget d (tputs d t a vs) b = if a ≤ b then vs.getD (b - a) (tget d t b) else tget d t b := by
  split
  next hab =>
    rcases Nat.lt_or_ge (b - a) vs.length with h | h
    · have hi := tget_tputs_inside d t a (b - a) vs h
      rw [Nat.add_sub_cancel' hab] at hi
      rw [hi, List.getD_eq_getElem _ _ h]
    · rw [tget_tputs_outside d t a b vs (by omega), List.getD_eq_default _ _ h]
  next hab => exact tget_tputs_outside d t a b vs (by omega)

/-- An index whose entries are all left out reads the default. -/
theorem tget_filter_dropped {α : Type} (d : α) (p : Nat × α → Bool) (t : List (Nat × α)) (k : Nat)
    (h : ∀ e ∈ t, e.1 = k → p e = false) : tget d (t.filter p) k = d := by
  induction t with
  | nil => rfl
  | cons e r ih =>
    have hr := ih fun x hx => h x (List.mem_cons_of_mem _ hx)
    rw [List.filter_cons]
    split
    next hp =>
      have hne : k ≠ e.1 := fun hk => by simp [h e (List.mem_cons_self ..) hk.symm] at hp
      simp only [tget, if_neg hne, hr, ite_self]
    next => exact hr

/-! ## Bytes -/

theorem Memory.byte_setBytes (m : Memory) (a b : Nat) (vs : List Byte) :
    (m.setBytes a vs).byte b = if a ≤ b then vs.getD (b - a) (m.byte b) else m.byte b :=
  tget_tputs 0 m.cells a b vs

/-- A write of a word reaches the bytes of that word alone. -/
theorem Memory.byte_setPlain (m : Memory) (a b : Nat) (w : Word) :
    (m.setPlain a w).byte b = if b / 4 = a / 4 then (leBytes w).getD (b % 4) 0 else m.byte b := by
  have hlen : (leBytes w).length = 4 := rfl
  change (m.setBytes (a / 4 * 4) (leBytes w)).byte b = _
  rw [byte_setBytes]
  by_cases hw : b / 4 = a / 4
  · have hlt : b % 4 < (leBytes w).length := by omega
    rw [if_pos hw, if_pos (by omega), show b - a / 4 * 4 = b % 4 by omega, List.getD_eq_getElem _ _ hlt,
      List.getD_eq_getElem _ _ hlt]
  · rw [if_neg hw]
    split
    · rw [List.getD_eq_default _ _ (by omega)]
    · rfl

/-- A byte in the range that is cleared reads 0. -/
theorem Memory.byte_clearRange (m : Memory) (a n b : Nat) (h : a ≤ b) (h' : b < a + 4 * n) : (m.clearRange a n).byte b = 0 :=
  tget_filter_dropped 0 _ m.cells b fun e _ he => by
    simp only [he, Bool.or_eq_false_iff, decide_eq_false_iff_not]
    omega

/-! ## Words and tags -/

/-- The four bytes of a word give the word. -/
theorem toWord_leBytes (w : Word) : toWord (((leBytes w).getD 0 0).toNat + ((leBytes w).getD 1 0).toNat * 256
    + ((leBytes w).getD 2 0).toNat * 65536 + ((leBytes w).getD 3 0).toNat * 16777216) = w := by
  apply BitVec.eq_of_toNat_eq
  have := w.isLt
  simp only [leBytes, List.getD_cons_zero, List.getD_cons_succ, toWord, BitVec.toNat_ofNat, Nat.shiftRight_eq_div_pow]
  omega

theorem Memory.word_setPlain (m : Memory) (a b : Nat) (w : Word) :
    (m.setPlain a w).word b = if b / 4 = a / 4 then w else m.word b := by
  have hb (i : Nat) (hi : i < 4) : (m.setPlain a w).byte (b / 4 * 4 + i) =
      if b / 4 = a / 4 then (leBytes w).getD i 0 else m.byte (b / 4 * 4 + i) := by
    rw [byte_setPlain, show (b / 4 * 4 + i) / 4 = b / 4 by omega, show (b / 4 * 4 + i) % 4 = i by omega]
  have h0 : (m.setPlain a w).byte (b / 4 * 4) = _ := hb 0 (by decide)
  simp only [word, h0, hb 1 (by decide), hb 2 (by decide), hb 3 (by decide)]
  split
  · exact toWord_leBytes w
  · rfl

theorem Memory.tag_setWord (m : Memory) (a b : Nat) (w : Word) (t : BitVec 4) :
    (m.setWord a w t).tag b = if b / 4 = a / 4 then t else m.tag b :=
  tget_tput 0 m.tags (a / 4) (b / 4) t

theorem Memory.word_setWord (m : Memory) (a b : Nat) (w : Word) (t : BitVec 4) :
    (m.setWord a w t).word b = if b / 4 = a / 4 then w else m.word b :=
  m.word_setPlain a b w

/-- Consecutive words leave the words before them, with their tags. -/
theorem Memory.setWords_before (m : Memory) (a b : Nat) (t : BitVec 4) (ws : List Word) (h : b / 4 < a / 4) :
    (m.setWords a t ws).word b = m.word b ∧ (m.setWords a t ws).tag b = m.tag b := by
  induction ws generalizing m a with
  | nil => exact ⟨rfl, rfl⟩
  | cons w ws ih =>
    obtain ⟨hw, ht⟩ := ih (m.setWord a w t) (a + 4) (by omega)
    simp only [setWords]
    rw [hw, ht, word_setWord, tag_setWord, if_neg (by omega), if_neg (by omega)]
    exact ⟨rfl, rfl⟩

/-- Consecutive words read as written, each with the tag. -/
theorem Memory.setWords_inside (m : Memory) (a i : Nat) (t : BitVec 4) (ws : List Word) (h : i < ws.length) :
    (m.setWords a t ws).word (a + 4 * i) = ws.getD i 0 ∧ (m.setWords a t ws).tag (a + 4 * i) = t := by
  induction ws generalizing m a i with
  | nil => exact absurd h (Nat.not_lt_zero i)
  | cons w ws ih =>
    simp only [setWords]
    cases i with
    | zero =>
      obtain ⟨hw, ht⟩ := (m.setWord a w t).setWords_before (a + 4) (a + 4 * 0) t ws (by omega)
      rw [hw, ht, word_setWord, tag_setWord, if_pos (by omega), if_pos (by omega)]
      exact ⟨rfl, rfl⟩
    | succ j =>
      have := ih (m.setWord a w t) (a + 4) j (Nat.lt_of_succ_lt_succ h)
      rwa [show a + 4 + 4 * j = a + 4 * (j + 1) by omega] at this

/-- Settles O29, from the reads of bytes, words and tags after each write. -/
theorem memoryWords : Obligations.MemoryWords := by
  unfold Obligations.MemoryWords
  refine ⟨?_, ?_, ?_, ?_, ?_, ?_⟩
  · exact fun m a b w t => ⟨m.word_setWord a b w t, m.tag_setWord a b w t⟩
  · exact fun m a b w t h => m.byte_setWord_outside a b w t (by omega)
  · exact fun m a b w => ⟨m.word_setPlain a b w, rfl⟩
  · exact fun m a b vs => m.byte_setBytes a b vs
  · exact fun m a i t ws _ h => m.setWords_inside a i t ws h
  · exact fun m a n b h h' => m.byte_clearRange a n b h h'

end Sys2Proof.Machine
end

section
/-! SUPPORT. The chain of an input channel (R132–R135, R163–R166, R170, R175): what its stages give, and a sample at the capture
point. -/

namespace Sys2Proof.Machine

/-! ## Rounding -/

/-- A common factor of a quotient does not change its rounding. -/
theorem roundDiv_mul (a : Nat) (ha : 0 < a) (n : Int) (d : Nat) : roundDiv (a * n) (a * d) = roundDiv n d := by
  have hq : Int.fdiv (a * n) ((a * d : Nat) : Int) = Int.fdiv n d := by
    rw [Nat.cast_mul]; exact Int.mul_fdiv_mul_of_pos n d (by exact_mod_cast ha)
  have hr : (a * n : Int) - Int.fdiv n d * ((a * d : Nat) : Int) = a * (n - Int.fdiv n d * d) := by push_cast; ring
  have hlt : 2 * (a * (n - Int.fdiv n d * d) : Int) < ((a * d : Nat) : Int) ↔ 2 * (n - Int.fdiv n d * d) < d := by
    rw [Nat.cast_mul, mul_left_comm]; exact mul_lt_mul_iff_right₀ (by exact_mod_cast ha)
  have hgt : ((a * d : Nat) : Int) < 2 * (a * (n - Int.fdiv n d * d) : Int) ↔ (d : Int) < 2 * (n - Int.fdiv n d * d) := by
    rw [Nat.cast_mul, mul_left_comm 2]; exact mul_lt_mul_iff_right₀ (by exact_mod_cast ha)
  simp only [roundDiv, hq, hr, gt_iff_lt, hlt, hgt]

/-! ## Sums of taps -/

/-- A sum built up over the first `n` indexes. -/
theorem foldl_add_range (n : Nat) (f : Nat → Int) : (List.range n).foldl (fun a i => a + f i) 0 = ((List.range n).map f).sum := by
  rw [List.sum_eq_foldl, List.foldl_map]

/-- A half-band stage gives the exact sum of its taps (R164). -/
theorem halfBand_eq (preset stage : Nat) (h : List Int) : halfBand preset stage h = satQ31 (roundDiv
    ((List.range hbLen).map (fun i => Config.halfBandTap preset stage i * h.getD i 0)).sum
    (2 ^ Config.halfBandScale preset stage)) := by
  rw [halfBand, foldl_add_range]

/-- The taps from `i` over a history, where a sample that it does not reach is 0 (R170). -/
theorem firSum_eq (coefs : Tab (BitVec 24)) (i : Nat) (h : List Sample) (n : Nat) : firSum coefs i h n =
    ((List.range n).map (fun k => (tget 0 coefs (i + k)).toInt * (h.getD k ⟨0, 0⟩).val.toInt)).sum := by
  induction n generalizing i h with
  | zero => cases h <;> rfl
  | succ n ih =>
    cases h with
    | nil => simp [firSum]
    | cons x xs =>
      rw [firSum, ih, List.range_succ_eq_map, List.map_cons, List.map_map, List.sum_cons]
      simp only [Function.comp_def, Nat.succ_eq_add_one, List.getD_cons_succ, List.getD_cons_zero, Nat.add_zero, Nat.add_assoc,
        Nat.add_comm 1]

/-! ## The CIC and the half-bands (R163, R164) -/

/-- The modulator samples that the CIC holds after `k` words, of those that it held before. -/
def cicHeld (ratio : Nat) (codes held : List Int) (k : Nat) : List Int :=
  ((codes.take (k * ratio)).reverse ++ held).take (cicLen * ratio)

/-- What lies beyond the length that is kept does not matter. -/
theorem take_append_take {α : Type} (n : Nat) (l r : List α) : (l ++ r.take n).take n = (l ++ r).take n := by
  rw [List.take_append, List.take_append, List.take_take, Nat.min_eq_left (Nat.sub_le ..)]

theorem cicHeld_succ (ratio : Nat) (codes held : List Int) (k : Nat) :
    cicHeld ratio (codes.drop ratio) (cicHeld ratio codes held 1) k = cicHeld ratio codes held (k + 1) := by
  rw [cicHeld, cicHeld, cicHeld, take_append_take, ← List.append_assoc, ← List.reverse_append, Nat.one_mul, Nat.add_mul, Nat.one_mul,
    Nat.add_comm, List.take_add]

theorem cicHeld_one (ratio : Nat) (codes held : List Int) :
    ((codes.take ratio).reverse ++ held).take (cicLen * ratio) = cicHeld ratio codes held 1 := by rw [cicHeld, Nat.one_mul]

/-- The words of the CIC, and what it then holds. -/
theorem cicRun_eq (ratio n : Nat) (codes held : List Int) : cicRun ratio (n + 1) codes held =
    ((List.range (n + 1)).map (fun k => Config.cic ratio (cicHeld ratio codes held (k + 1))), cicHeld ratio codes held (n + 1)) := by
  induction n generalizing codes held with
  | zero => simp only [cicRun, cicHeld_one]; rfl
  | succ n ih =>
    rw [cicRun, cicHeld_one, ih, List.range_succ_eq_map (n := n + 1), List.map_cons, List.map_map]
    simp only [cicHeld_succ]
    rfl

/-- The four words of an output period. -/
theorem cicRun_four {ratio : Nat} {codes c : List Int} {held : Nat → List Int} {a : Nat → Int}
    (hh : ∀ k, held k = ((codes.take (k * ratio)).reverse ++ c).take (cicLen * ratio)) (ha : ∀ k, a k = Config.cic ratio (held k)) :
    cicRun ratio 4 codes c = ([a 1, a 2, a 3, a 4], held 4) := by
  have hk (k : Nat) : held k = cicHeld ratio codes c k := hh k
  rw [cicRun_eq ratio 3]
  simp only [ha, hk]
  rfl

theorem hbPush_hbPush (a b : Int) (h : List Int) : hbPush b (hbPush a h) = (b :: a :: h).take hbLen := by
  simp only [hbPush, hbLen, List.take_succ_cons, List.take_take]
  rfl

/-- Four CIC words make one sample. -/
theorem decimate_eq {preset ratio : Nat} {codes : List Int} {d : Decim} {held : Nat → List Int} {a : Nat → Int} {p q r : List Int}
    (hf : d.fifo = []) (hh : ∀ k, held k = ((codes.take (k * ratio)).reverse ++ d.codes).take (cicLen * ratio))
    (ha : ∀ k, a k = Config.cic ratio (held k)) (hp : p = (a 2 :: a 1 :: d.h1).take hbLen) (hq : q = (a 4 :: a 3 :: p).take hbLen)
    (hr : r = (halfBand preset 1 q :: halfBand preset 1 p :: d.h2).take hbLen) :
    decimate preset ratio codes d = (halfBand preset 2 r, { codes := held 4, fifo := [], h1 := q, h2 := r }) := by
  subst hr hq hp
  simp only [decimate, cicRun_four hh ha, hf, List.nil_append, hbRun, hbPush_hbPush]

/-! ## Correction (R145, R152, R155) -/

/-- A sub-chain's output under a correction that does not move: the even one's, or that of a channel by itself. -/
def corrected (k : Corr) (x : Int) : Int := satFront (roundDiv ((x - k.offset) * k.gain * k.pol) (2 ^ 60))

/-- The odd one's, with the terms of the pair's record. -/
def correctedOdd (k : Corr) (x : Int) : Int :=
  satFront (roundDiv ((x - (k.offset + k.dOffset)) * k.gain * k.gRatio * k.pol) (2 ^ 90))

theorem mix64_end (a b : Int) : mix64 64 a b = 64 * b := by simp only [mix64]; ring

theorem correct_even (k : Corr) (x : Int) : correct 64 k k false x = corrected k x := by
  have hn : (64 * x - (64 * k.offset + 0)) * (64 * k.gain) * (64 * k.pol) =
      ((2 ^ 18 : Nat) : Int) * ((x - k.offset) * k.gain * k.pol) := by push_cast; ring
  simp only [correct, mix64_end, Bool.false_eq_true, if_false, hn, roundDiv_mul _ (Nat.two_pow_pos 18), corrected]

theorem correct_odd (k : Corr) (x : Int) : correct 64 k k true x = correctedOdd k x := by
  have hn : (64 * x - (64 * k.offset + 64 * k.dOffset)) * (64 * k.gain) * (64 * k.gRatio) * (64 * k.pol) =
      ((2 ^ 24 : Nat) : Int) * ((x - (k.offset + k.dOffset)) * k.gain * k.gRatio * k.pol) := by push_cast; ring
  simp only [correct, mix64_end, if_true, hn, roundDiv_mul _ (Nat.two_pow_pos 24), correctedOdd]

/-! ## A sample at the capture point (R132–R135) -/

/-- The channel once a period's modulator samples have passed its chains. -/
def entered (s : State) (ch : Nat) (frame : Bool) (even odd : List Int) : Chan :=
  pushInput ((active s).pairMode ch) (presetOf (active s) ch) (cicRatio s (active s) ch)
    (if frame then chanFrame (chan s ch) else chan s ch) even odd

/-- What the FIRs, a correction that does not move and the pair make of it, with the part of a fade that R175 leaves open. -/
def merged (s : State) (ch : Nat) (c : Chan) (up : Bool) : Int × BitVec 4 :=
  let k := corrOf s ch
  let e := chanFir s c up c.hist
  let o := chanFir s c up c.histOdd
  if (active s).pairMode ch = 1 then
    if c.oddNext then skewFilter (64 * k.skew) ((⟨intWord (correctedOdd k o.1), o.2⟩ :: c.corOdd).take 16)
    else skewFilter 0 ((⟨intWord (corrected k e.1), e.2⟩ :: c.cor).take 16)
  else if (active s).pairMode ch = 2 then (roundDiv (corrected k e.1 + correctedOdd k o.1) 2, tagOR e.2 o.2)
  else (corrected k e.1, e.2)

/-- SET and CUT that the capture point itself adds. -/
def outTag (c : Chan) : BitVec 4 := (if 0 < c.outSet ∨ 0 < c.bankSet then tSET else 0) ||| (if c.cutNext then tCUT else 0)

/-- What a calibration notes is beside the front end. -/
theorem calNote_frame (ch : Nat) (frame : Bool) (e o : Option Int) (t : BitVec 4) (s : State) :
    calNote ch frame e o t s = { s with deferred := (calNote ch frame e o t s).deferred } := by
  simp only [calNote]; split <;> rfl

theorem chan_calNote (ch k : Nat) (frame : Bool) (e o : Option Int) (t : BitVec 4) (s : State) :
    chan (calNote ch frame e o t s) k = chan s k := by rw [calNote_frame]; rfl

/-- A sample of a running channel whose correction does not move: the sample, and how far its fade then is. -/
theorem captureAin_running {s : State} {ch : Nat} {c : Chan} {frame : Bool} {even odd : List Int} (hr : (chan s ch).run = .running)
    (hm : (chan s ch).move = none) (hc : c = entered s ch frame even odd) :
    ∃ up : Bool, (captureAin ch frame even odd s).1 = ⟨intWord (merged s ch c up).1, tagOR (merged s ch c up).2 (outTag c)⟩ ∧
      (chan (captureAin ch frame even odd s).2 ch).fade = c.fade.map (fun f => { f with j := min f.len (f.j + 1) }) := by
  have hl : ¬ (chan s ch).live = false := by simp [Chan.live, hr]
  have hcm : c.move = none := by subst hc; cases frame <;> simp [entered, pushInput, chanFrame, hm]
  have hcr : c.run = .running := by subst hc; cases frame <;> simp [entered, pushInput, chanFrame, hr]
  refine ⟨bit (Config.freeWord s.free) 0, ?_⟩
  unfold captureAin
  extract_lets c0
  rw [if_neg hl]
  dsimp -zeta only [drawWord]
  extract_lets up mode c1 target k src fe fo ye yo cor corOdd moving j v t c2 e o
  have h1 : c1 = c := hc.symm
  have hk : k = 64 := by simp only [k, h1, hcm]
  have hsrc : src = target := by simp only [src, h1, hcm]
  have hmoving : moving = false := by simp only [moving, h1, hcm]
  have hfe : chanFir s c up c.hist = fe := by simp only [fe, h1]; rfl
  have hfo : chanFir s c up c.histOdd = fo := by simp only [fo, h1]; rfl
  have hye : ye = corrected target fe.1 := by simp only [ye, hk, hsrc, correct_even]
  have hyo : yo = correctedOdd target fo.1 := by simp only [yo, hk, hsrc, correct_odd]
  have hmerged : merged s ch c up = if mode = 1 then if c1.oddNext then skewFilter (mix64 k src.skew target.skew) corOdd
      else skewFilter 0 cor else if mode = 2 then (roundDiv (ye + yo) 2, tagOR fe.2 fo.2) else (ye, fe.2) := by
    simp only [merged, show (active s).pairMode ch = mode from rfl, show corrOf s ch = target from rfl, hfe, hfo, cor, corOdd, hk,
      hsrc, mix64_end, hye, hyo, h1]
    split
    next hp => cases c.oddNext <;> simp only [hp, Bool.false_eq_true, and_self, and_false, if_true, if_false]
    next => rfl
  refine ⟨?_, ?_⟩
  · rw [show bit (Config.freeWord s.free) 0 = up from rfl, hmerged]
    simp only [v, t, hmoving, outTag, h1, hcr, reduceCtorEq, if_false, beq_iff_eq, Bool.false_or, Bool.or_eq_true,
      decide_eq_true_eq, or_false]
  · rw [chan_calNote, chan_onChan_same]
    simp only [c2, h1]

end Sys2Proof.Machine
end

section
/-! PROOF. Cross-fades of a channel, its sample in each pair mode, and the statement on its chain. -/

namespace Sys2Proof.Machine

/-! ## What has entered a channel -/

/-- At a frame boundary nothing waits for a channel without a move or replaced bank content. -/
theorem chanFrame_settled {c : Chan} (ho : c.oldBank = none) (hm : c.move = none) : chanFrame c = c := by
  cases c; simp_all [chanFrame]

section
variable {s : State} {ch : Nat} {c : Chan} (frame : Bool) (even odd : List Int)

theorem entered_fade (hc : c = chan s ch) : (entered s ch frame even odd).fade = c.fade := by
  subst hc; cases frame <;> rfl

theorem entered_settled (hc : c = chan s ch) (ho : c.oldBank = none) (hm : c.move = none) : entered s ch frame even odd =
    pushInput ((active s).pairMode ch) (presetOf (active s) ch) (cicRatio s (active s) ch) c even odd := by
  subst hc; simp only [entered, chanFrame_settled ho hm, ite_self]

/-- A sample of the even sub-chain enters, unless it is the odd one's turn. -/
theorem entered_hist (hc : c = chan s ch) (h : (active s).pairMode ch = 1 → c.oddNext = false) :
    (entered s ch frame even odd).hist =
      (⟨intWord (decimate (presetOf (active s) ch) (cicRatio s (active s) ch) even c.dec).1, inputTag c⟩ :: c.hist).take 384 := by
  have hgo : (!((active s).pairMode ch == 1 && c.oddNext)) = true := by
    cases ho : c.oddNext
    · simp
    · simpa [ho] using h
  subst hc
  cases frame
  · simp only [entered, Bool.false_eq_true, if_false, pushInput, hgo, if_true]
  · have hgo' : (!((active s).pairMode ch == 1 && (chanFrame (chan s ch)).oddNext)) = true := hgo
    simp only [entered, if_true, pushInput, hgo']
    rfl

/-- A sample of the odd sub-chain enters an AVERAGE pair, and an INTERLEAVE pair in its turn. -/
theorem entered_histOdd (hc : c = chan s ch) (ho : c.oldBank = none) (hm : c.move = none)
    (h : (active s).pairMode ch = 2 ∨ (active s).pairMode ch = 1 ∧ c.oddNext = true) :
    (entered s ch frame even odd).histOdd =
      (⟨intWord (decimate (presetOf (active s) ch) (cicRatio s (active s) ch) odd c.decOdd).1, inputTag c⟩ :: c.histOdd).take 384 := by
  have hgo : ((active s).pairMode ch == 2 || ((active s).pairMode ch == 1 && c.oddNext)) = true := by
    simpa [Bool.or_eq_true, Bool.and_eq_true] using h
  rw [entered_settled frame even odd hc ho hm]
  simp only [pushInput, hgo, if_true]

/-! ## FIR outputs -/

/-- Without a fade the bank in use gives the output. -/
theorem chanFir_idle {c : Chan} (hf : c.fade = none) (ho : c.oldBank = none) (s : State) (up : Bool) (h : List Sample) :
    chanFir s c up h = firOut s c.bank h := by simp only [chanFir, hf, chanFir.one, ho]

/-- Within a fade both banks do. -/
theorem chanFir_fading {c : Chan} {f : Fade} (hf : c.fade = some f) (hj : f.j < f.len) (s : State) (up : Bool) (h : List Sample) :
    chanFir s c up h = (blend (fadeW f.j f.len up) (firOut s f.src h).1 (firOut s f.dst h).1,
      tagOR (firOut s f.src h).2 (firOut s f.dst h).2) := by simp only [chanFir, hf, hj, if_true]

/-! ## A sample in each pair mode -/

/-- A running channel without a fade, whose correction and bank stand. -/
structure Steady (c : Chan) : Prop where
  running : c.run = .running
  fade : c.fade = none
  oldBank : c.oldBank = none
  move : c.move = none

/-- Its FIRs give the outputs of the bank in use. -/
theorem Steady.chanFir_entered (hc : c = chan s ch) (h : Steady c) (up : Bool) (x : List Sample) :
    chanFir s (entered s ch frame even odd) up x = firOut s c.bank x := by
  have he := entered_settled frame even odd hc h.oldBank h.move
  exact (chanFir_idle (by rw [he]; exact h.fade) (by rw [he]; exact h.oldBank) s up x).trans (by rw [he]; rfl)

/-- A channel by itself: the corrected output of its FIR. -/
theorem merged_split {k : Corr} {c' : Chan} (hp : (active s).pairMode ch = 0) (hk : k = corrOf s ch) (up : Bool) :
    merged s ch c' up = (corrected k (chanFir s c' up c'.hist).1, (chanFir s c' up c'.hist).2) := by
  subst hk; simp only [merged, hp]; rfl

/-- An AVERAGE pair. -/
theorem merged_average {k : Corr} {c' : Chan} (hp : (active s).pairMode ch = 2) (hk : k = corrOf s ch) (up : Bool) :
    (merged s ch c' up).1 = roundDiv (corrected k (chanFir s c' up c'.hist).1 + correctedOdd k (chanFir s c' up c'.histOdd).1) 2 := by
  subst hk; simp only [merged, hp]; rfl

/-- An INTERLEAVE pair in the even sub-chain's turn. -/
theorem merged_even {k : Corr} {c' : Chan} (hp : (active s).pairMode ch = 1) (ho : c'.oddNext = false) (hk : k = corrOf s ch)
    (up : Bool) : merged s ch c' up = skewFilter 0
      ((⟨intWord (corrected k (chanFir s c' up c'.hist).1), (chanFir s c' up c'.hist).2⟩ :: c'.cor).take 16) := by
  subst hk; simp only [merged, hp, ho, if_true, Bool.false_eq_true, if_false]

/-- An INTERLEAVE pair in the odd sub-chain's turn. -/
theorem merged_odd {k : Corr} {c' : Chan} (hp : (active s).pairMode ch = 1) (ho : c'.oddNext = true) (hk : k = corrOf s ch)
    (up : Bool) : merged s ch c' up = skewFilter (64 * k.skew)
      ((⟨intWord (correctedOdd k (chanFir s c' up c'.histOdd).1), (chanFir s c' up c'.histOdd).2⟩ :: c'.corOdd).take 16) := by
  subst hk; simp only [merged, hp, ho, if_true]

/-- The sample of a steady channel by itself. -/
theorem captureAin_steady {h : List Sample} {k : Corr} (hc : c = chan s ch) (hs : Steady c) (hp : (active s).pairMode ch = 0)
    (hk : k = corrOf s ch)
    (hh : h = (⟨intWord (decimate (presetOf (active s) ch) (cicRatio s (active s) ch) even c.dec).1, inputTag c⟩ :: c.hist).take 384) :
    (captureAin ch frame even odd s).1 = ⟨intWord (corrected k (firOut s c.bank h).1), tagOR (firOut s c.bank h).2 (outTag c)⟩ := by
  subst hc
  obtain ⟨up, hx, -⟩ := captureAin_running hs.running hs.move (rfl : entered s ch frame even odd = _)
  have he := entered_hist frame even odd rfl (fun h1 => by rw [hp] at h1; cases h1)
  have ht : outTag (entered s ch frame even odd) = outTag (chan s ch) := by
    rw [entered_settled frame even odd rfl hs.oldBank hs.move]; rfl
  rw [hx, merged_split hp hk, hs.chanFir_entered frame even odd rfl, he, ← hh, ht]

/-- The sample of a channel by itself within a fade, whose step it makes. -/
theorem captureAin_fading {f : Fade} {h : List Sample} {k : Corr} (hc : c = chan s ch) (hr : c.run = .running)
    (hp : (active s).pairMode ch = 0) (hf : c.fade = some f) (hj : f.j < f.len) (hm : c.move = none) (hk : k = corrOf s ch)
    (hh : h = (⟨intWord (decimate (presetOf (active s) ch) (cicRatio s (active s) ch) even c.dec).1, inputTag c⟩ :: c.hist).take 384) :
    (chan (captureAin ch frame even odd s).2 ch).fade = some { f with j := f.j + 1 } ∧
      ∃ up : Bool, (captureAin ch frame even odd s).1.val =
        intWord (corrected k (blend (fadeW f.j f.len up) (firOut s f.src h).1 (firOut s f.dst h).1)) := by
  subst hc
  obtain ⟨up, hx, hfade⟩ := captureAin_running hr hm (rfl : entered s ch frame even odd = _)
  have hf' : (entered s ch frame even odd).fade = some f := (entered_fade frame even odd rfl).trans hf
  have he := entered_hist frame even odd rfl (fun h1 => by rw [hp] at h1; cases h1)
  refine ⟨?_, up, ?_⟩
  · rw [hfade, hf', Option.map_some, Nat.min_eq_right hj]
  · rw [hx, merged_split hp hk, chanFir_fading hf' hj, he, ← hh]

/-- The sample of a steady pair. -/
theorem captureAin_pair {h h' : List Sample} {k : Corr} {x y : Int} (hc : c = chan s ch) (hs : Steady c) (hk : k = corrOf s ch)
    (hh : h = (⟨intWord (decimate (presetOf (active s) ch) (cicRatio s (active s) ch) even c.dec).1, inputTag c⟩ :: c.hist).take 384)
    (hh' : h' = (⟨intWord (decimate (presetOf (active s) ch) (cicRatio s (active s) ch) odd c.decOdd).1, inputTag c⟩ ::
      c.histOdd).take 384) (hx : x = corrected k (firOut s c.bank h).1) (hy : y = correctedOdd k (firOut s c.bank h').1) :
    ((active s).pairMode ch = 2 → (captureAin ch frame even odd s).1.val = intWord (roundDiv (x + y) 2)) ∧
    ((active s).pairMode ch = 1 → c.oddNext = false → (captureAin ch frame even odd s).1.val =
      intWord (skewFilter 0 ((⟨intWord x, (firOut s c.bank h).2⟩ :: c.cor).take 16)).1) ∧
    ((active s).pairMode ch = 1 → c.oddNext = true → (captureAin ch frame even odd s).1.val =
      intWord (skewFilter (64 * k.skew) ((⟨intWord y, (firOut s c.bank h').2⟩ :: c.corOdd).take 16)).1) := by
  subst hc hx hy
  obtain ⟨up, hv, -⟩ := captureAin_running hs.running hs.move (rfl : entered s ch frame even odd = _)
  have he := entered_settled frame even odd rfl hs.oldBank hs.move
  have hnext : (entered s ch frame even odd).oddNext = (chan s ch).oddNext := by rw [he]; rfl
  have hcor : (entered s ch frame even odd).cor = (chan s ch).cor := by rw [he]; rfl
  have hcorOdd : (entered s ch frame even odd).corOdd = (chan s ch).corOdd := by rw [he]; rfl
  have hfir := hs.chanFir_entered frame even odd rfl up
  rw [hv]
  refine ⟨fun hp => ?_, fun hp ho => ?_, fun hp ho => ?_⟩
  · rw [merged_average hp hk, hfir, hfir, entered_hist frame even odd rfl (fun h1 => by rw [hp] at h1; cases h1),
      entered_histOdd frame even odd rfl hs.oldBank hs.move (.inl hp), ← hh, ← hh']
  · rw [merged_even hp (hnext.trans ho) hk, hfir, entered_hist frame even odd rfl (fun _ => ho), ← hh, hcor]
  · rw [merged_odd hp (hnext.trans ho) hk, hfir, entered_histOdd frame even odd rfl hs.oldBank hs.move (.inr ⟨hp, ho⟩), ← hh', hcorOdd]

end

/-! ## Ends and starts of fades (R175, R176) -/

theorem fadeEnd_done {s : State} {ch : Nat} {f : Fade} (hf : (chan s ch).fade = some f) (hj : f.j = f.len) :
    fadeEnd ch s = onChan ch (fun c => { c with bank := f.dst, fade := none }) s := by simp only [fadeEnd, hf, hj, if_true]

theorem fadeEnd_idle {s : State} {ch : Nat} (hf : (chan s ch).fade = none) : fadeEnd ch s = s := by simp only [fadeEnd, hf]

/-- A fade to bank `b` begins. -/
def beginFade (b len : Nat) (c : Chan) : Chan := { c with queued := none, fade := some ⟨c.bank, b, len, 0⟩ }

/-- A queued request starts where no fade runs any more. -/
theorem queuedFadeStart_eq {s t : State} {ch b : Nat} (ht : fadeEnd ch s = t) (hq : (chan t ch).queued = some b)
    (hf : (chan t ch).fade = none) (hl : (chan t ch).live = true) (hp : (chan t ch).pos = 0) :
    queuedFadeStart ch s = onChan ch (beginFade b ((active t).fadeLen ch)) t := by
  subst ht
  simp only [queuedFadeStart, hq, hf, hl, hp, and_self, if_true]
  rfl

/-- A queued request starts from the bank of the fade that has just ended. -/
theorem queuedFadeStart_afterFade {s : State} {ch b : Nat} {f : Fade} (hq : (chan s ch).queued = some b)
    (hf : (chan s ch).fade = some f) (hj : f.j = f.len) (hl : (chan s ch).live = true) (hp : (chan s ch).pos = 0) :
    ∃ t, exec (.queuedFadeStart ch) s = .next t ∧ (chan t ch).bank = f.dst ∧ (chan t ch).queued = none ∧
      (chan t ch).fade = some ⟨f.dst, b, (active s).fadeLen ch, 0⟩ ∧
      t = { s with fe := { s.fe with chans := t.fe.chans } } ∧ ∀ k ≠ ch, chan t k = chan s k := by
  have he := fadeEnd_done hf hj
  have hc : chan (onChan ch (fun c => { c with bank := f.dst, fade := none }) s) ch = { chan s ch with bank := f.dst, fade := none } :=
    chan_onChan_same ..
  have ht := queuedFadeStart_eq he (b := b) (by rw [hc]; exact hq) (by rw [hc]) (by rw [hc]; exact hl) (by rw [hc]; exact hp)
  refine ⟨_, (congrArg (ev s) ht).trans (ev_of_kept rfl rfl), ?_, ?_, ?_, rfl, fun k hk => ?_⟩
  · rw [chan_onChan_same, hc]; rfl
  · rw [chan_onChan_same]; rfl
  · rw [chan_onChan_same, hc]; rfl
  · rw [chan_onChan_other _ _ _ _ hk, chan_onChan_other _ _ _ _ hk]

/-- Settles O3, stage by stage of the chain. -/
theorem crossFades : Obligations.CrossFades := by
  unfold Obligations.CrossFades
  refine ⟨halfBand_eq, ?_, ?_, ?_, ?_, ?_, ?_, ?_, ?_⟩
  · exact fun _ _ _ _ _ _ _ _ _ hf _ hh ha hp hq hr => decimate_eq hf hh ha hp hq hr
  · intro b h
    simp only [firY, firSum_eq, Nat.zero_add]
  · exact fun s ch frame even odd c h k hc hr hp hf ho hm hk hh => captureAin_steady frame even odd hc ⟨hr, hf, ho, hm⟩ hp hk hh
  · exact fun s ch frame even odd c f h k hc hr hp hf hj hm hk hh => captureAin_fading frame even odd hc hr hp hf hj hm hk hh
  · exact fun s ch frame even odd c h h' k hc hr _ hf ho hm hk hh hh' =>
      captureAin_pair frame even odd hc ⟨hr, hf, ho, hm⟩ hk hh hh' rfl rfl
  · exact fun s ch f hf hj => (congrArg (ev s) (fadeEnd_done hf hj)).trans (ev_of_kept rfl rfl)
  · exact fun s ch b hq hf hl hp => (congrArg (ev s) (queuedFadeStart_eq (fadeEnd_idle hf) hq hf hl hp)).trans (ev_of_kept rfl rfl)
  · exact fun s ch b f hq hf hj hl hp => queuedFadeStart_afterFade hq hf hj hl hp

end Sys2Proof.Machine
end

section
/-! PROOF. The timebase's beats (O35): the clause on the PDM lines fails where the pads have no supply. -/

namespace Sys2Proof.Machine

/-- Without IOVDD_A the levels a PDM line shows are free (Table 14.8, log entry 197): a beat depends on the number of its edges
alone. -/
theorem pdmBeat_unpowered {s : State} {es es' : List (Bool × Bool)} (line : Nat) (hpad : s.power.iovddA = false)
    (hlen : es.length = es'.length) : pdmBeat line es s = pdmBeat line es' s := by
  have hlevels : lineLevels es s = lineLevels es' s := by simp [lineLevels, hpad, hlen]
  rw [pdmBeat, pdmBeat, hlevels]

/-- A device in RUN with both PLLs locked and PDM clock 0 running, whose port pads have lost IOVDD_A. -/
def pdmBehindDeadPads : State := { ({} : State) with
  power := { ({} : Power) with st := .run, boot := .run, onRc := false, xrefOk := true, iovddA := false }
  clk := { a := { cfg := 0x800C0504, st := .locked }, b := { cfg := 0x800C0506, st := .locked } }
  ports := { ({} : State).ports with pdmCfg := [(0, 0x80202000)], pdmRun := [(0, ⟨true, 0⟩)] } }

/-- Refutes O35: its clause on the PDM lines lacks the hypothesis that the pads are supplied (`iovddA`). In `pdmBehindDeadPads` the
edge (1, 1) and the edge (0, 0) on line 0 give one and the same state, while the clause asks for the bit 1 after the first and the
bit 0 after the second. -/
theorem not_timebaseAndXref : ¬ Obligations.TimebaseAndXref := by
  unfold Obligations.TimebaseAndXref
  rintro ⟨-, -, -, -, -, -, hline, -⟩
  let s := pdmBehindDeadPads
  have hbits (b : Bool) : (mic (beat s (.pdm 0 [(b, b)])) 0).bits = [b] :=
    (hline s 0 0 _ [(b, b)] [b] [b] rfl (by decide) (by decide) (by decide) (.inl ⟨rfl, rfl⟩) rfl (by cases b <;> decide)).1
  have hsame : beat s (.pdm 0 [(true, true)]) = beat s (.pdm 0 [(false, false)]) :=
    pdmBeat_unpowered 0 rfl rfl
  have h : [true] = [false] := by rw [← hbits true, ← hbits false, hsame]
  exact absurd h (by decide)

end Sys2Proof.Machine
end

section
/-! PROOF. A sample period of a flow (O16): the clause on an egress flow's ASRC channel fails where ACTIVE lists a flow twice. -/

namespace Sys2Proof.Machine

/-- An egress flow of AES3 transmitter 0 through the ASRC (CONVERT, equal rates), reading input lane 0. -/
def convertToAes : Quad := ⟨0x40000100, 0x01330000, 0, 0⟩

/-- A device in RUN whose ACTIVE set lists flow 128 twice. Its FIFO holds three words and its ASRC channel has two outputs. -/
def flowListedTwice : State := { ({} : State) with
  power := { ({} : Power) with st := .run, boot := .run, onRc := false, xrefOk := true }
  clk := { a := { cfg := 0x800C0504, st := .locked }, b := { cfg := 0x800C0506, st := .locked } }
  sets := { ({} : State).sets with bankA := { ({} : ConfigSet) with flows := [(128, convertToAes), (128, convertToAes)] } }
  flows := [(128, { ({} : FlowRun) with
    running := true, fifo := [⟨1, 0⟩, ⟨2, 0⟩, ⟨3, 0⟩], ahead := [⟨4, 0⟩, ⟨5, 0⟩] })] }

/-- Each word of a flow that ACTIVE lists twice counts twice in its FIFO: the second output finds the depth of 8 used up and is
discarded. -/
theorem flowSample_flowListedTwice :
    (flowRun (flowSample 128 [] [] flowListedTwice) 128).fifo = [⟨1, 0⟩, ⟨2, 0⟩, ⟨3, 0⟩, ⟨4, 0⟩] := by
  decide

/-- Refutes O16: its clause on an egress flow's ASRC channel lacks the hypothesis that ACTIVE lists a flow once. In
`flowListedTwice` the FIFO of depth 8 counts six words and two outputs are due, so the clause asks for both in the FIFO, which
takes one. -/
theorem not_flowSamples : ¬ Obligations.FlowSamples := by
  unfold Obligations.FlowSamples
  rintro ⟨-, -, -, -, -, -, -, -, -, -, -, -, -, -, hasrc, -⟩
  obtain ⟨t, n, hstep, hfifo, -⟩ := hasrc flowListedTwice 128 [] [] (by decide) (by decide) (by decide) (by decide) (by decide) rfl
    (by decide) rfl rfl rfl (by decide) (by decide)
  have ht : settle flowListedTwice (flowSample 128 [] [] flowListedTwice) = t := Host.Outcome.next.inj hstep
  have hkept : (flowRun t 128).fifo = [⟨1, 0⟩, ⟨2, 0⟩, ⟨3, 0⟩, ⟨4, 0⟩] := by rw [← ht]; exact flowSample_flowListedTwice
  rw [hkept] at hfifo
  exact absurd hfifo (by decide)

end Sys2Proof.Machine
end

section
/-! SUPPORT. What a direct command leaves when its own part is known, and what an item command leaves without and with IMMEDIATE
(R67, R68). -/

namespace Sys2Proof.Machine

/-- A direct row that is admitted and whose own part is known. -/
theorem execRow_body {r : CmdRow} {a : CmdArgs} {s t : State} {st : Status} {res : List Word} (h : Admitted r a s) (hf : r.fuse = false)
    (hb : r.body a (fresh s) = ⟨st, t, res⟩) (hmax : r.maxRes a (fresh s) ≤ 1023) (hres : res.length ≤ 1023)
    (hp : t.pending = s.pending) (ho : t.sec.otp = s.sec.otp) : execRow r a s = .next (answered r.op st res t) := by
  rw [execRow_admitted h hf (fits_fresh r a s _ (fun _ => hmax) (by rw [hb]; exact hres)), hb]
  have hs : settle s t = t := by unfold settle; rw [← hp, ← ho]
  rw [hs]

/-- A word within `2 ^ n - 1` is its field [n-1:0]. -/
theorem fld_eq_toNat {w : Word} {m : Word} {n : Nat} (hm : m.toNat = 2 ^ (n + 1) - 1) (h : resv w m = false) : fld w n 0 = w.toNat := by
  have hw : w &&& m = w := by
    simp only [resv, within, Bool.not_eq_false', decide_eq_true_eq] at h
    ext i hi
    have := congrArg (fun x : Word => x.getLsbD i) h
    simp at this ⊢
    grind
  have : w.toNat ≤ m.toNat := by
    rw [← hw, BitVec.toNat_and]; exact Nat.and_le_right
  unfold fld
  have h2 : 0 < 2 ^ (n + 1) := Nat.two_pow_pos _
  rw [Nat.shiftRight_zero, Nat.mod_eq_of_lt (by simp; omega)]

/-- Without IMMEDIATE an item command writes its item of SHADOW alone, when its own checks pass. -/
theorem execRow_writeShadow {r : CmdRow} {op : Nat} {rate : State → Option Nat} {f : ConfigSet → ConfigSet} {l : List (Bool × Status)} {a : CmdArgs} {s : State}
    (h : Admitted r a s) (hi : a.imm = false) (hr : r.op = op ∧ r.fuse = false ∧ r.maxRes a (fresh s) = 0)
    (hb : r.body a (fresh s) = checks (fresh s) l (yes (writeItem op (rate (fresh s)) f a (fresh s)))) (hl : ∀ c ∈ l, c.1 = false) :
    execRow r a s = .next (answered op .ok [] (onShadow f (shadowReads op a s))) := by
  obtain ⟨rfl, hf, hm⟩ := hr
  rw [checks_pass hl, writeItem_shadow hi] at hb
  rw [execRow_body h hf hb (by omega) (by simp) (by simp [writeShadow, fresh]) (by simp [writeShadow, fresh])]
  cases hs : s.sets.selB <;> simp [answered, writeShadow, onShadow, fresh, hs]

/-- What IMMEDIATE leaves of an item command: the write is placed, and with MIRROR it reaches SHADOW too. -/
theorem writeItem_shadow_of_imm {op : Nat} {rate : Option Nat} {f : ConfigSet → ConfigSet} {a : CmdArgs} {s : State} (h : a.imm = true) :
    shadow (writeItem op rate f a s) = (if a.mirror then f (shadow s) else shadow s) ∧
    writeItem op rate f a s = { s with
      sets := (writeItem op rate f a s).sets, mem := if a.mirror then (shadowReads op a s).mem else s.mem } := by
  cases hs : s.sets.selB <;> cases hm : a.mirror <;> simp [writeItem, writeShadow, onShadow, shadow, h, hm, hs]

/-- With IMMEDIATE an item command is placed, when its own checks pass. -/
theorem execRow_writeImmediate {r : CmdRow} {op : Nat} {rate : State → Option Nat} {f : ConfigSet → ConfigSet}
    {l : List (Bool × Status)} {a : CmdArgs} {s : State} (h : Admitted r a s) (hi : a.imm = true)
    (hr : r.op = op ∧ r.fuse = false ∧ r.maxRes a (fresh s) = 0)
    (hb : r.body a (fresh s) = checks (fresh s) l (yes (writeItem op (rate (fresh s)) f a (fresh s)))) (hrate : rate (fresh s) = rate s)
    (hl : ∀ c ∈ l, c.1 = false) :
    execRow r a s = .next (answered op .ok [] (writeItem op (rate s) f a s)) := by
  obtain ⟨rfl, hf, hm⟩ := hr
  rw [checks_pass hl, hrate] at hb
  have hw := (writeItem_shadow_of_imm (op := r.op) (rate := rate s) (f := f) (s := fresh s) hi).2
  rw [execRow_body h hf hb (by omega) (by simp) (by rw [hw]; rfl) (by rw [hw]; rfl)]
  cases hs : s.sets.selB <;> cases hm : a.mirror <;>
    simp [answered, writeItem, writeShadow, onShadow, fresh, hs, hi, hm]

/-- Checks one after the other. -/
theorem checks_append (s : State) (l m : List (Bool × Status)) (k : Ans) : checks s l (checks s m k) = checks s (l ++ m) k := by
  induction l with
  | nil => rfl
  | cons c l ih => obtain ⟨b, st⟩ := c; cases b <;> simp [ih]

/-- A command that answers OK has passed its checks. -/
theorem passed_of_ok {s : State} {l : List (Bool × Status)} {k : Ans} (hn : ∀ c ∈ l, c.2 ≠ .ok) (h : (checks s l k).st = .ok) :
    ∀ c ∈ l, c.1 = false := by
  induction l with
  | nil => simp
  | cons c l ih =>
    obtain ⟨b, st⟩ := c
    cases b with
    | true => exact absurd h (hn _ (List.mem_cons_self ..))
    | false => simpa using ih (fun c hc => hn c (List.mem_cons_of_mem _ hc)) h


/-- An item command marked I (R67): its own checks `l`, and its write of the item, placed for a boundary of `rate`. -/
theorem execRow_placed {r : CmdRow} {op : Nat} {a : CmdArgs} {s : State} (rate : State → Option Nat) (f : ConfigSet → ConfigSet)
    (l : State → List (Bool × Status)) (hi : a.imm = true) (hr : r.op = op ∧ r.fuse = false ∧ r.maxRes a (fresh s) = 0)
    (hb : ∀ s, r.body a s = checks s (l s) (yes (writeItem op (rate s) f a s))) (hn : ∀ c ∈ l s, c.2 ≠ .ok) (hl : l (fresh s) = l s)
    (hrate : rate (fresh s) = rate s) (h : Admitted r a s) (hok : (r.body a s).st = .ok) :
    ∃ t, execRow r a s = .next (answered op .ok [] t) ∧ PlacedAs op a (rate s) s t :=
  ⟨_, execRow_writeImmediate h hi hr (hb (fresh s)) hrate (hl ▸ passed_of_ok hn (hb s ▸ hok)), writeItem_immediate hi⟩

/-- What CORE.PARAM with IMMEDIATE leaves. -/
def paramPlaced (a : CmdArgs) (s : State) : State :=
  let b := (active s).bind (fld (opnd a 0) 1 0)
  let s1 := { s with sets := { s.sets with placed := s.sets.placed ++ [⟨0x92, a.ops, if b.en then some b.rate else none⟩] } }
  if a.mirror then writePage (!s.sets.selB) a.ops s1 else s1

/-- Parameter pages lie outside the sets. -/
theorem paramPlaced_placed (a : CmdArgs) (s : State) :
    PlacedAs 0x92 a (if ((active s).bind (fld (opnd a 0) 1 0)).en then some ((active s).bind (fld (opnd a 0) 1 0)).rate else none) s
      (paramPlaced a s) := by
  unfold paramPlaced
  cases a.mirror
  · exact ⟨rfl, rfl, fun _ => rfl, rfl, .inl rfl⟩
  · exact ⟨rfl, rfl, fun _ => rfl, rfl, .inl rfl⟩

/-- CORE.PARAM's own checks (R112). -/
def paramChecks (a : CmdArgs) : List (Bool × Status) :=
  [(resv (opnd a 0) 0x0FFFFF03, .unsupported),
    (fld (opnd a 0) 15 8 != 0 || decide (4096 < fld (opnd a 0) 27 16 + (a.ops.length - 1)), .range)]

theorem bodyCoreParam_immediate {a : CmdArgs} (hi : a.imm = true) (s : State) :
    bodyCoreParam a s = checks s (paramChecks a) (yes (paramPlaced a s)) := by
  simp only [bodyCoreParam, hi, if_true]
  rfl

theorem coreParam_placed {a : CmdArgs} {s : State} (hi : a.imm = true) (h : Admitted rowCoreParam a s) (hok : (bodyCoreParam a s).st = .ok) :
    execRow rowCoreParam a s = .next (answered 0x92 .ok [] (paramPlaced a s)) := by
  have hl : ∀ c ∈ paramChecks a, c.1 = false := passed_of_ok (by simp [paramChecks]) (bodyCoreParam_immediate hi s ▸ hok)
  have hbody : bodyCoreParam a (fresh s) = yes (paramPlaced a (fresh s)) := by
    rw [bodyCoreParam_immediate hi, checks_pass hl]
  have hkept := (paramPlaced_placed a (fresh s)).2.2.2.1
  rw [execRow_body h rfl hbody (by simp [rowCoreParam]) (by simp) (by rw [hkept]; rfl) (by rw [hkept]; rfl)]
  unfold paramPlaced
  cases a.mirror <;> rfl

end Sys2Proof.Machine
end

section
/-! PROOF. The item commands (O4) and their IMMEDIATE writes (O31). -/

namespace Sys2Proof.Machine

/-- Settles O4: each command is its checks and its item, which `execRow_writeShadow` or `execRow_writeImmediate` writes. -/
theorem frontEndItems : Obligations.FrontEndItems := by
  unfold Obligations.FrontEndItems
  refine ⟨?_, ?_, ?_, ?_, ?_, ?_, ?_⟩
  · intro a s h hi h0 h1 hm
    exact execRow_writeShadow h hi ⟨rfl, rfl, rfl⟩ (rate := fun _ => none) (f := writeFe 0x22 a) rfl (by simpa using And.intro (And.intro h0 h1) hm)
  · intro a s h hi h0 h1 hm
    refine execRow_writeShadow h hi ⟨rfl, rfl, rfl⟩ (rate := fun s => chanRate s (opnd a 0).toNat) (f := writeFe 0x23 a) rfl ?_
    simpa [hi] using And.intro (And.intro h0 h1) hm
  · intro a s h hi h0 h1 hm hc
    have hl : (opnd a 1).toNat ≤ 60 := hm.trans (by unfold modeMax; split <;> omega)
    refine ⟨_, execRow_writeImmediate h hi ⟨rfl, rfl, rfl⟩ (rate := fun s => chanRate s (opnd a 0).toNat) (f := writeFe 0x23 a) rfl rfl ?_,
      (writeItem_immediate hi).2.1, (writeItem_immediate hi).1, writeItem_shadow_of_imm hi⟩
    have hc' : bit (calMask (fresh s)) (opnd a 0).toNat = false := hc
    have hm' : (opnd a 1).toNat ≤ modeMax ((active (fresh s)).chMode (opnd a 0).toNat) := hm
    simpa [hi, hc', hm', hl] using And.intro h0 h1
  · intro a s h hi h0 h1 hm
    have hf : fld (opnd a 1) 1 0 ≠ 3 := by
      rw [fld_eq_toNat (m := 3) rfl h1]; exact fun he => hm (BitVec.eq_of_toNat_eq he)
    exact execRow_writeShadow h hi ⟨rfl, rfl, rfl⟩ (rate := fun _ => none) (f := writeFe 0x24 a) rfl (by simpa using And.intro (And.intro h0 h1) hf)
  · intro a s h hi h0 h1 hr hp
    refine execRow_writeShadow h hi ⟨rfl, rfl, rfl⟩ (rate := fun _ => none) (f := writeFe 0x30 a) rfl ?_
    simp only [h0, h1, List.mem_cons, List.not_mem_nil, or_false, forall_eq_or_imp, forall_eq]
    refine ⟨by simpa using hr, ?_⟩
    split at hp <;> simp [*]
  · intro a s h hi h0 h1 hm
    refine execRow_writeShadow h hi ⟨rfl, rfl, rfl⟩ (rate := fun s => chanRate s (opnd a 0).toNat) (f := writeFe 0x32 a) rfl ?_
    simpa [hi] using And.intro (And.intro h0 h1) hm
  · intro a s h hi h0 h1 hm
    exact execRow_writeShadow h hi ⟨rfl, rfl, rfl⟩ (rate := fun s => chanRate s (opnd a 0).toNat) (f := writeFe 0x33 a) rfl (by simpa using And.intro (And.intro h0 h1) hm)

/-- Settles O31: each command marked I is its checks and its item, which `execRow_placed` places; CORE.PARAM by `coreParam_placed`. -/
theorem immediateWrites : Obligations.ImmediateWrites := by
  unfold Obligations.ImmediateWrites
  intro a s hi
  refine ⟨?_, ?_, ?_, ?_, ?_, ?_, ?_, ?_, fun h hok => ⟨_, coreParam_placed hi h hok, paramPlaced_placed a s⟩⟩
  · exact execRow_placed (fun s => chanRate s (opnd a 0).toNat) (writeFe 0x32 a) _ hi ⟨rfl, rfl, rfl⟩ (fun _ => rfl) (by simp) rfl rfl
  · exact execRow_placed (fun s => chanRate s (opnd a 0).toNat) (writeFe 0x33 a) _ hi ⟨rfl, rfl, rfl⟩ (fun _ => rfl) (by simp) rfl rfl
  · exact execRow_placed (fun s => outRate (active s) (fld (opnd a 0) 6 0)) (writeMtx 0x40 a) _ hi ⟨rfl, rfl, rfl⟩
      (fun _ => checks_append ..) (by simp) rfl rfl
  · exact execRow_placed (fun s => outRate (active s) (fld (opnd a 0) 6 0)) (writeMtx 0x41 a) _ hi ⟨rfl, rfl, rfl⟩
      (fun _ => checks_append ..) (by simp) rfl rfl
  · exact execRow_placed (fun s => outRate (active s) (fld (opnd a 0) 6 0)) (writeMtx 0x42 a) _ hi ⟨rfl, rfl, rfl⟩
      (fun _ => rfl) (by simp) rfl rfl
  · exact execRow_placed (fun s => outRate (active s) (fld (opnd a 0) 6 0)) (writeMtx 0x43 a) _ hi ⟨rfl, rfl, rfl⟩
      (fun _ => rfl) (by simp) rfl rfl
  · exact execRow_placed (fun s => some (if fam44 s then 10 else 3)) (writeMr 0x44 a) _ hi ⟨rfl, rfl, rfl⟩
      (fun _ => rfl) (by simp) rfl rfl
  · exact execRow_placed (fun s => some ((active s).outRateCode (opnd a 0).toNat)) (writeOut a) _ hi ⟨rfl, rfl, rfl⟩
      (fun _ => rfl) (by simp) rfl rfl

end Sys2Proof.Machine
end

section
/-! SUPPORT. The marks of Table 2.7, and the checks of R487 that hold a command back. -/

namespace Sys2Proof.Machine

theorem bit_stState_policy (s : State) : bit (stState s) 5 = s.sec.otp.policy := by
  have hs : b2n s.sec.session.isSome ≤ 1 := by unfold b2n; split <;> omega
  have hr : b2n s.power.onRc ≤ 1 := by unfold b2n; split <;> omega
  have hp : s.sec.otp.policy = decide (b2n s.sec.otp.policy % 2 = 1) := by cases s.sec.otp.policy <;> rfl
  unfold stState bit toWord
  rw [BitVec.getLsbD_ofNat, Nat.testBit_eq_decide_div_mod_eq, hp, ← hp]
  simp only [show 5 < 32 by omega, decide_true, Bool.true_and]
  rw [hp, decide_eq_decide, ← hp]
  omega

/-- The opcodes marked K in Table 2.7. -/
def markedK : List Nat := [0xB1, 0xB2, 0xB3, 0xB4, 0xB5, 0xB6]

/-- The opcodes marked C in Table 2.7. -/
def markedC : List Nat := [0x00, 0x01, 0x02, 0x04, 0x70, 0x71, 0x72, 0x81, 0xA0, 0xA1, 0xD0, 0xD2]

/-- Each row stands at its opcode, with its marks K and C of Table 2.7; none marked C is marked I. -/
theorem rowAt_marks {op : Nat} {r : CmdRow} (h : rowAt op = some r) :
    r.op = op ∧ r.pK = markedK.contains op ∧ (∀ a, r.pC a = markedC.contains op) ∧ (markedC.contains op = true → r.pI = false) := by
  unfold rowAt at h
  split at h <;> cases h <;> exact ⟨rfl, rfl, fun _ => rfl, by decide⟩

theorem runCommand_row {sess : Bool} {w : Word} {rest : List Word} {s : State} {r : CmdRow} (h : rowAt (fld w 31 24) = some r)
    (hn : fld w 15 0 ≤ rest.length) : runCommand sess w rest s = runRow r (cmdArgs sess w (rest.take (fld w 15 0))) s := by
  rw [runCommand, if_neg (by omega), h]

/-- Where the word's own bits are right, a command that is not allowed reports NOT_AUTHENTICATED (R487, check 4). -/
theorem runRow_notAuthenticated {r : CmdRow} {a : CmdArgs} {s : State} (hw : wordBad r a = false) (ha : authOk r a s = false) :
    runRow r a s = no .notAuthenticated s := by
  simp [runRow, commonChecks, hw, ha]

/-- A command that is allowed, and is not served in the CP's condition, reports BUSY (R487, check 6). -/
theorem runRow_notServed {r : CmdRow} {a : CmdArgs} {s : State} (hw : wordBad r a = false) (ha : authOk r a s = true)
    (hsafe : inSafe s = false ∨ safeServes r.op s = true) (hn : notServed r a s = true) : runRow r a s = no .busy s := by
  have hs : (inSafe s && !safeServes r.op s) = false := by rcases hsafe with h | h <;> simp [h]
  simp [runRow, commonChecks, hw, ha, hs, hn]

/-- What the policy allows in a plain packet (R63). -/
theorem authOk_plain (r : CmdRow) {a : CmdArgs} (s : State) (ha : a.session = false) :
    authOk r a s = if s.sec.otp.policy then [0x00, 0x01, 0xB0].contains r.op else !r.pK := by
  simp [authOk, ha, Bool.or_assoc, beq_eq_decide]

/-- While PLLB is unlocked a command not marked C is not served (R60). -/
theorem notServed_unlocked {r : CmdRow} {a : CmdArgs} {s : State} (hu : pllbUnlocked s = true) (hc : r.pC a = false) :
    notServed r a s = true := by simp [notServed, hu, hc]

/-- A command marked C is served in every condition, unless it is IMMEDIATE and the grids stand. -/
theorem notServed_marked {r : CmdRow} {a : CmdArgs} (s : State) (hc : r.pC a = true) (hi : a.imm = false) :
    notServed r a s = false := by simp [notServed, hc, hi]

/-- Only a row marked I takes IMMEDIATE. -/
theorem imm_of_wordOk {r : CmdRow} {a : CmdArgs} (hw : wordBad r a = false) (hi : r.pI = false) : a.imm = false := by
  simp only [wordBad, hi, Bool.or_eq_false_iff] at hw
  simpa using hw.2

end Sys2Proof.Machine
end

section
/-! PROOF. The policy (O57), PLLB unlocked (O58), nIRQ (O55) and what a power-on reset leaves (O40). -/

namespace Sys2Proof.Machine

/-- Settles O57, by the allowance check of R487, which stands before every check that a command of its own makes. -/
theorem policyRule : Obligations.PolicyRule := by
  unfold Obligations.PolicyRule
  refine ⟨bit_stState_policy, fun w rest s r hr hn => ?_⟩
  intro a hw
  obtain ⟨hop, hk, -, -⟩ := rowAt_marks hr
  have hauth := authOk_plain r (a := a) s rfl
  rw [hop, hk] at hauth
  rw [runCommand_row hr hn]
  refine ⟨fun hp hm => runRow_notAuthenticated hw ?_, fun hp hm => runRow_notAuthenticated hw ?_, fun hp hm => ?_, fun hp hm => ?_⟩ <;>
    rw [hauth, hp]
  · rw [List.contains_iff_mem.mpr (show _ ∈ markedK from hm)]; rfl
  · simpa using hm
  · rw [Bool.eq_false_iff.mpr (mt List.contains_iff_mem.mp (show _ ∉ markedK from hm))]; rfl
  · simpa using hm

/-- Settles O58, by the check of the CP's condition of R487. -/
theorem unlockedRule : Obligations.UnlockedRule := by
  unfold Obligations.UnlockedRule
  refine ⟨fun s hg hst => ?_, fun s h => ?_, fun sess w rest s r hu hr hn => ?_⟩
  · rcases hst with h | h | h <;> simp [pllbUnlocked, hg, h]
  · rcases h with h | h | h <;> simp [pllbUnlocked, h]
  · intro a hw ha hsafe
    obtain ⟨hop, -, hc, hi⟩ := rowAt_marks hr
    rw [runCommand_row hr hn]
    refine ⟨fun hm => runRow_notServed hw ha hsafe (notServed_unlocked hu ?_), fun hm => ?_⟩
    · rw [hc]; simpa [markedC] using hm
    · have hm' : markedC.contains (fld w 31 24) = true := by simpa [markedC] using hm
      exact notServed_marked s (by rw [hc, hm']) (imm_of_wordOk hw (hi hm'))

/-- Settles O55: a word is zero exactly where all of its bits are. -/
theorem interruptRequest : Obligations.InterruptRequest := by
  unfold Obligations.InterruptRequest
  intro s hs
  have hv : vaonOn s = true := by
    unfold vaonOn; split
    · exact absurd ‹_› hs
    · rfl
  simp only [nIrqLow, hv, Bool.true_and, bne_iff_ne, ne_eq, BitVec.eq_of_getLsbD_eq_iff]
  simp [bit]

/-- Settles O40: a power-on reset leaves one fixed state, whose fields are read off. -/
theorem resetValues : Obligations.ResetValues := by
  unfold Obligations.ResetValues
  refine ⟨rfl, rfl, rfl, rfl, rfl, rfl, rfl, rfl, rfl, rfl, rfl, rfl, rfl, rfl, rfl, rfl, rfl, rfl, rfl, rfl, fun _ _ => rfl, fun _ => rfl,
    fun _ => rfl, fun _ => rfl, ⟨rfl, fun _ => Nat.zero_le _, fun h => absurd rfl h, fun h => nomatch h⟩, rfl, rfl, Nat.zero_le _⟩

end Sys2Proof.Machine
end

section
/-! PROOF. The configuration sets (O30): the clause on SWAP fails where a word of SHADOW no longer decodes. -/

namespace Sys2Proof.Machine

/-- A device in RUN with both PLLs locked and both sets at their reset values. A word of GRAM in SHADOW's bank no longer decodes. -/
def lostWordInShadow : State := { ({} : State) with
  power := { ({} : Power) with st := .run, boot := .run, onRc := false, xrefOk := true }
  clk := { a := { cfg := 0x800C0504, st := .locked }, b := { cfg := 0x800C0506, st := .locked } }
  mem := { bad := [aGram + 0x30000] } }

/-- A SWAP without EDGE, COPY or CANCEL, in a plain packet. -/
def plainSwap : CmdArgs := ⟨false, 0, 0, false, false, []⟩

/-- The response's status word says FAULT: SWAP's checks read the lost word. -/
theorem swap_lostWordInShadow : ∃ t, exec (.swap plainSwap) lostWordInShadow = .next t ∧ t.host.building = [statusWord 0x10 .fault 0] :=
  ⟨_, rfl, by decide +kernel⟩

/-- Refutes O30: its clause on SWAP lacks the hypothesis that every word of SHADOW's bank still decodes. SWAP's checks read SHADOW, and
a word of it that is in `mem.bad` ends SWAP with FAULT (R71, Table 10.13). In `lostWordInShadow` the clause asks for OK. -/
theorem not_configurationSets : ¬ Obligations.ConfigurationSets := by
  unfold Obligations.ConfigurationSets
  rintro ⟨hswap, -⟩
  have hok := hswap plainSwap lostWordInShadow (by decide) (by decide) (by decide) (by decide +kernel) (by decide +kernel) (by decide +kernel)
  obtain ⟨t, ht, hb⟩ := swap_lostWordInShadow
  have heq := Host.Outcome.next.inj (ht.symm.trans hok)
  rw [heq] at hb
  exact absurd hb (by decide +kernel)

end Sys2Proof.Machine
end

section
/-! SUPPORT. Host transactions (R43–R53): packets as they are taken in, and what cuts a transaction short. -/

namespace Sys2Proof.Machine

/-! ## Bytes, words and check values -/

theorem crcLeft_lt (w poly n c : Nat) (h : c < 2 ^ w) : crcLeft w poly n c < 2 ^ w := by
  induction n generalizing c with
  | zero => exact h
  | succ n ih =>
    refine ih _ ?_
    split <;> exact Nat.mod_lt _ (Nat.two_pow_pos w)

/-- The CRC of any bytes has 16 bits. -/
theorem crc16_lt (bs : List Byte) : crc16 bs < 65536 := by
  have step (l : List Byte) (c : Nat) (hc : c < 65536) :
      l.foldl (fun c b => crcLeft 16 0x1021 8 (c ^^^ (b.toNat * 256))) c < 65536 := by
    induction l generalizing c with
    | nil => exact hc
    | cons b l ih =>
      refine ih _ (crcLeft_lt 16 _ _ _ (Nat.xor_lt_two_pow hc ?_))
      have := b.isLt
      omega
  exact step bs 0xFFFF (by decide)

theorem bytesNat_natBytes_two {n : Nat} (h : n < 65536) : bytesNat (natBytes 2 n) = n := by
  simp [natBytes, bytesNat]
  omega

theorem toWord_wordBytes (w : Word) :
    toWord ((BitVec.ofNat 8 (w.toNat >>> 24)).toNat * 16777216 + (BitVec.ofNat 8 (w.toNat >>> 16)).toNat * 65536 +
      (BitVec.ofNat 8 (w.toNat >>> 8)).toNat * 256 + (BitVec.ofNat 8 w.toNat).toNat) = w := by
  apply BitVec.eq_of_toNat_eq
  have := w.isLt
  simp only [toWord, BitVec.toNat_ofNat, Nat.shiftRight_eq_div_pow]
  omega

/-- The words of a payload come back from its bytes. -/
theorem bytesWords_wordsBytes (ws : List Word) : bytesWords (wordsBytes ws) = ws := by
  induction ws with
  | nil => rfl
  | cons w ws ih =>
    change toWord _ :: bytesWords (wordsBytes ws) = w :: ws
    rw [toWord_wordBytes, ih]

theorem length_wordsBytes (ws : List Word) : (wordsBytes ws).length = 4 * ws.length := by
  induction ws with
  | nil => rfl
  | cons w ws ih =>
    change (wordBytes w ++ wordsBytes ws).length = _
    rw [List.length_append, ih, List.length_cons, show (wordBytes w).length = 4 from rfl]
    omega

/-! ## Transactions (R43, R44) -/

theorem transaction_elsewhere {x : Xfer} {s : State} (h : addressed x s = false) (c : Byte) (w r : Nat) (f : State → State) :
    transaction x c w r f s = s := by simp [transaction, h]

theorem transaction_ignored {x : Xfer} {s : State} {c : Byte} (h : addressed x s = true) (hc : x.code ≠ c) (w r : Nat) (f : State → State) :
    transaction x c w r f s = sendBytes w r [] s := by simp [transaction, h, hc]

theorem transaction_served {x : Xfer} {s : State} {c : Byte} (h : addressed x s = true) (hc : x.code = c) (w r : Nat) (f : State → State) :
    transaction x c w r f s = f s := by simp [transaction, h, hc]

/-- HDMA's next beat passes its check exactly while no error of it waits. -/
theorem beatUpset_eq_none {m : Nat} {s : State} : beatUpset m s = none ↔ upset s (.request m) = false ∧ upset s (.data m) = false := by
  unfold beatUpset
  split
  · simp [*]
  · split <;> simp [*]

/-- What the device sends changes the host port's bytes alone. -/
theorem beatUpset_sendBytes {m w r : Nat} {d : List Byte} {s : State} (h : beatUpset m s = none) : beatUpset m (sendBytes w r d s) = none :=
  beatUpset_eq_none.mpr (show upset s (.request m) = false ∧ upset s (.data m) = false from beatUpset_eq_none.mp h)

/-! ## WRITE_PKT (R49–R51) -/

theorem fromSync_of_head {p : List Byte} (h : p.head? = some 0xA5) : fromSync p = p := by
  cases p with
  | nil => simp at h
  | cons b p =>
    simp only [List.head?_cons, Option.some.injEq] at h
    subst h
    rfl

theorem fromSync_ne_nil {bs : List Byte} (h : 0xA5 ∈ bs) : (fromSync bs).isEmpty = false := by
  induction bs with
  | nil => simp at h
  | cons b bs ih =>
    rcases List.mem_cons.mp h with rfl | h'
    · rfl
    · by_cases hb : b = 0xA5
      · subst hb; rfl
      · have : fromSync (b :: bs) = fromSync bs := List.dropWhile_cons_of_pos (by simpa using hb)
        rw [this]; exact ih h'

/-- A WRITE_PKT at the device's address that carries a packet. -/
theorem writePkt_packet {x : Xfer} {bs : List Byte} {s : State} (h : addressed x s = true) (hc : x.code = 0x5A)
    (hs : (fromSync bs).isEmpty = false) : writePkt x bs s = packetIn (fromSync bs) (sendBytes (1 + bs.length) 0 [] s) := by
  rw [writePkt, transaction_served h hc, packetOf, if_neg (by simp [hs])]

section
variable {p : List Byte} {s : State} (hb : beatUpset 5 s = none) (hl : s.cp.lock = none)
include hb hl

/-- One more than four unread packets is dropped and counted. -/
theorem packetIn_dropped (h : 4 ≤ unread s) :
    packetIn p s = { s with host := { s.host with drops := min 255 (s.host.drops + 1) } } := by
  simp only [packetIn, packetStored_clean hb hl, h, if_true]

variable {n : Nat} (hu : unread s < 4) (hn : n = bytesNat ((p.drop 3).take 2))
include hu hn

theorem packetIn_range {seq : BitVec 8} (hseq : seq = if p.length < 3 then s.host.expSeq else p.getD 2 0) (h5 : 5 ≤ p.length)
    (h : 4096 < n ∨ n % 4 ≠ 0) : packetIn p s = packetLevel seq .range s := by
  subst hn hseq
  simp only [packetIn, packetStored_clean hb hl, if_neg (Nat.not_le.mpr hu)]
  rw [if_pos ⟨h5, h⟩]

theorem packetIn_short {seq : BitVec 8} (hseq : seq = if p.length < 3 then s.host.expSeq else p.getD 2 0)
    (h : p.length < 5 ∨ (n ≤ 4096 ∧ n % 4 = 0 ∧ p.length < 7 + n + if (p.getD 1 0).getLsbD 7 then 16 else 0)) :
    packetIn p s = packetLevel seq .badCrc (cutShort [⟨5, 1, true⟩, ⟨5, 6, true⟩] s) := by
  subst hn hseq
  simp only [packetIn, packetStored_clean hb hl, if_neg (Nat.not_le.mpr hu)]
  rw [if_neg (by omega), if_pos (by omega)]

/-- A packet whose bytes are all there, with a length that Table 2.2 allows. -/
theorem packetIn_whole {seq : BitVec 8} (hseq : seq = if p.length < 3 then s.host.expSeq else p.getD 2 0) (h5 : 5 ≤ p.length)
    (h1 : n ≤ 4096) (h2 : n % 4 = 0) (h : 7 + n + (if (p.getD 1 0).getLsbD 7 then 16 else 0) ≤ p.length) :
    packetIn p s = if crc16 ((p.drop 1).take (4 + n)) ≠ bytesNat ((p.drop (5 + n)).take 2) then packetLevel seq .badCrc s
      else wakeEvent 4 (checkedPacket p n s) := by
  subst hn hseq
  simp only [packetIn, packetStored_clean hb hl, if_neg (Nat.not_le.mpr hu)]
  rw [if_neg (by omega), if_neg (by omega)]
  simp

end

/-- In RUN no event wakes the device. -/
theorem wakeEvent_run {s : State} (h : s.power.st = .run) (src : Nat) : wakeEvent src s = s := by simp [wakeEvent, h]

/-- A WRITE_PKT whose bytes start a packet leaves what taking the packet in leaves. -/
theorem exec_writePkt {x : Xfer} {p : List Byte} {s t : State} (h : addressed x s = true) (hc : x.code = 0x5A)
    (hp : p.head? = some 0xA5) (ht : packetIn p (sendBytes (1 + p.length) 0 [] s) = t) (hk : t.pending = s.pending)
    (ho : t.sec.otp = s.sec.otp) : exec (.writePkt ⟨x, p⟩) s = .next t := by
  have hs : fromSync p = p := fromSync_of_head hp
  have hne : (fromSync p).isEmpty = false := by
    rw [hs]; cases p with
    | nil => simp at hp
    | cons => rfl
  have hw : writePkt x p s = t := by rw [writePkt_packet h hc hne, hs, ht]
  change ev s (writePkt x p s) = .next t
  rw [hw]
  exact ev_of_kept hk ho

/-! ## What a packet with a right CRC does (Table 2.3, tests 5 to 9) -/

/-- A packet with another number than the expected one: the stored response again, or SEQ_ERROR. -/
theorem bySeq_other {sess : Bool} {seq : BitVec 8} {ws : List Word} {s : State} (hf : s.host.seqFree = false) (hs : seq ≠ s.host.expSeq) :
    bySeq sess seq ws s = if s.host.lastSeq = some seq then resend s else packetLevel seq .seqError s := by
  simp [bySeq, hf, hs, eq_comm]

/-- A plain packet with the expected number is accepted. -/
theorem bySeq_plain {seq : BitVec 8} {ws : List Word} {s : State} (h : s.host.seqFree = true ∨ seq = s.host.expSeq)
    (hw : bit s.power.wdt 30 = false) : bySeq false seq ws s = { s with host := { s.host with
      expSeq := seq + 1, seqFree := false, lastSeq := some seq, stored := none, accepted := s.host.accepted ++ [⟨false, seq, ws⟩] } } := by
  simp [bySeq, h, acceptPacket, wdtHost, hw]

/-- A session packet with the expected number is accepted, and its counter advances (R415). -/
theorem bySeq_session {seq : BitVec 8} {ws : List Word} {s : State} {y : Session} (hy : s.sec.session = some y)
    (h : s.host.seqFree = true ∨ seq = s.host.expSeq) (hw : bit s.power.wdt 30 = false) : bySeq true seq ws s = { s with
      host := { s.host with
        expSeq := seq + 1, seqFree := false, lastSeq := some seq, stored := none, accepted := s.host.accepted ++ [⟨true, seq, ws⟩] }
      sec := { s.sec with session := some { y with cHd := y.cHd + 1 } } } := by
  simp [bySeq, h, acceptPacket, wdtHost, hw, hy]

section
variable {p : List Byte} {n : Nat} {s : State}

theorem checkedPacket_unsupported (h1 : p.getD 1 0 ≠ 0x01) (h2 : p.getD 1 0 ≠ 0x81) :
    checkedPacket p n s = packetLevel (p.getD 2 0) .unsupported s := by
  rw [checkedPacket, if_pos ⟨h1, h2⟩]

theorem checkedPacket_plain (h : p.getD 1 0 = 0x01) :
    checkedPacket p n s = bySeq false (p.getD 2 0) (bytesWords ((p.drop 5).take n)) s := by
  simp only [checkedPacket, h]; simp

variable (ht : p.getD 1 0 = 0x81)
include ht

theorem checkedPacket_sessionless (h : s.sec.session = none) : checkedPacket p n s = notAuthenticated (p.getD 2 0) s := by
  simp only [checkedPacket, ht, h]; simp

variable {y : Session} (hy : s.sec.session = some y)
include hy

theorem checkedPacket_verified (h : tagOk y y.cHd p n = true) : checkedPacket p n s =
    bySeq true (p.getD 2 0) (bytesWords (gcmText y.kHd (packetIv 1 y.cHd) ((p.drop 5).take n))) s := by
  simp only [checkedPacket, ht, hy, h]; simp

theorem checkedPacket_again (h : tagOk y y.cHd p n = false) (hl : s.host.lastSeq = some (p.getD 2 0)) (hc : 0 < y.cHd)
    (hp : tagOk y (y.cHd - 1) p n = true) : checkedPacket p n s = resend s := by
  simp only [checkedPacket, ht, hy, h, hl, hp]; simp [hc]

theorem checkedPacket_refused (h : tagOk y y.cHd p n = false)
    (hl : s.host.lastSeq ≠ some (p.getD 2 0) ∨ y.cHd = 0 ∨ tagOk y (y.cHd - 1) p n = false) :
    checkedPacket p n s = notAuthenticated (p.getD 2 0) s := by
  have hn : ¬(some (p.getD 2 0) = s.host.lastSeq ∧ 0 < y.cHd ∧ tagOk y (y.cHd - 1) p n = true) := by
    rintro ⟨h1, h2, h3⟩
    rcases hl with hl | hl | hl
    · exact hl h1.symm
    · omega
    · simp [hl] at h3
  simp only [checkedPacket, ht, hy, h, if_neg hn]; simp

end

/-! ## Packets as they are taken in -/

/-- The parts of a plain packet, as the device reads them. -/
theorem plainPacket_parts (type seq : Byte) (c : List Byte) (h : c.length < 65536) :
    bytesNat (((plainPacket type seq c).drop 3).take 2) = c.length ∧ (plainPacket type seq c).length = 7 + c.length ∧
    ((plainPacket type seq c).drop 5).take c.length = c ∧
    crc16 (((plainPacket type seq c).drop 1).take (4 + c.length)) =
      bytesNat (((plainPacket type seq c).drop (5 + c.length)).take 2) := by
  have hm : (packetHead type seq c.length ++ c).length = 4 + c.length := by
    simp [packetHead, natBytes]; omega
  have hd : plainPacket type seq c = 0xA5 :: ((packetHead type seq c.length ++ c) ++ natBytes 2 (crc16 (packetHead type seq c.length ++ c))) := rfl
  refine ⟨?_, ?_, ?_, ?_⟩
  · exact bytesNat_natBytes_two h
  · rw [hd, List.length_cons, List.length_append, hm]; simp [natBytes]; omega
  · simp [plainPacket, packetHead, natBytes]
  · rw [hd, List.drop_one, List.tail_cons, ← hm, List.take_left, show 5 + c.length = (packetHead type seq c.length ++ c).length + 1 by omega,
      List.drop_succ_cons, List.drop_left]
    exact (bytesNat_natBytes_two (crc16_lt _)).symm

/-- A plain packet with the expected number, as a host makes it, is accepted. -/
theorem packetIn_plainPacket {s : State} {seq : BitVec 8} {ws : List Word} (hb : beatUpset 5 s = none) (hl : s.cp.lock = none)
    (hu : unread s < 4) (hr : s.power.st = .run) (hn : 4 * ws.length ≤ 4096) (hs : s.host.seqFree = true ∨ seq = s.host.expSeq)
    (hw : bit s.power.wdt 30 = false) : packetIn (plainPacket 0x01 seq (wordsBytes ws)) s = { s with host := { s.host with
      expSeq := seq + 1, seqFree := false, lastSeq := some seq, stored := none, accepted := s.host.accepted ++ [⟨false, seq, ws⟩] } } := by
  have hlen := length_wordsBytes ws
  obtain ⟨h1, h2, h3, h4⟩ := plainPacket_parts 0x01 seq (wordsBytes ws) (by omega)
  rw [packetIn_whole hb hl hu h1.symm rfl (by omega) (by omega) (by omega) 
      (by rw [h2, show (plainPacket 0x01 seq (wordsBytes ws)).getD 1 0 = 1 from rfl]; simp), if_neg (not_not_intro h4),
    checkedPacket_plain rfl, h3, bytesWords_wordsBytes, show (plainPacket 0x01 seq (wordsBytes ws)).getD 2 0 = seq from rfl,
    bySeq_plain hs hw]
  exact wakeEvent_run (by exact hr) 4

/-- In RUN a packet whose CRC is right does what tests 5 to 9 of Table 2.3 say. -/
theorem packetIn_checked {p : List Byte} {s : State} {n : Nat} (hb : beatUpset 5 s = none) (hl : s.cp.lock = none) (hu : unread s < 4)
    (hr : s.power.st = .run) (hn : n = bytesNat ((p.drop 3).take 2)) (h1 : n ≤ 4096) (h2 : n % 4 = 0)
    (h : 7 + n + (if (p.getD 1 0).getLsbD 7 then 16 else 0) ≤ p.length)
    (hcrc : crc16 ((p.drop 1).take (4 + n)) = bytesNat ((p.drop (5 + n)).take 2)) {t : State} (ht : checkedPacket p n s = t)
    (hk : t.power = s.power) : packetIn p s = t := by
  rw [packetIn_whole hb hl hu hn rfl (by omega) h1 h2 h, if_neg (not_not_intro hcrc), ht]
  exact wakeEvent_run (by rw [hk, hr]) 4

/-! ## What an event cuts short (R361, Table 10.9) -/

/-- At most one record is written; beside it only a free value is drawn. -/
theorem cutShort_frame (ms : List InFlight) (s : State) :
    cutShort ms s = { s with free := (cutShort ms s).free, flt := (cutShort ms s).flt, irq := (cutShort ms s).irq } ∧
      (cutShort ms s).flt.written ≤ s.flt.written + 1 := by
  unfold cutShort drawIn drawWord
  dsimp only
  split
  · exact ⟨rfl, Nat.le_succ _⟩
  · dsimp only [logAbort]
    rw [logFault_eq]
    refine ⟨rfl, ?_⟩
    simp only [raiseIrq, pushEntry]
    split <;> exact Nat.le_refl _

end Sys2Proof.Machine
end

section
/-! SUPPORT. Reads by the host (R45–R48), the execution of a packet (R55) and responses at packet level (R51, R52). -/

namespace Sys2Proof.Machine

/-! ## READ_PKT (R47) -/

theorem exec_readPkt_empty {x : Xfer} {n : Nat} {s : State} (h : addressed x s = true) (hc : x.code = 0x5B) (hr : s.host.responses = []) :
    exec (.readPkt ⟨x, n⟩) s = .next (sendBytes 2 n [] s) := by
  have : readPkt x n s = sendBytes 2 n [] s := by
    rw [readPkt, transaction_served h hc]
    simp [responseRead, readCut, responseSent, sendBytes, hr]
  change ev s (readPkt x n s) = _
  rw [this]
  exact ev_of_kept rfl rfl

/-- The oldest response is read; it leaves the queue once it has been read whole. -/
theorem readPkt_response {x : Xfer} {n : Nat} {s : State} {r : List Byte} {rs : List (List Byte)} (h : addressed x s = true)
    (hc : x.code = 0x5B) (hr : s.host.responses = r :: rs) (hb : beatUpset 5 s = none) (hl : s.cp.lock = none) : readPkt x n s =
      let t := readCut 1 n r.length (sendBytes 2 n r s)
      { t with host := { t.host with responses := responseSent n t.host.responses } } := by
  rw [readPkt, transaction_served h hc]
  simp only [responseRead, hr, waitPoint_unlocked hl, hb]

theorem exec_readPkt_whole {x : Xfer} {n : Nat} {s : State} {r : List Byte} {rs : List (List Byte)} (h : addressed x s = true)
    (hc : x.code = 0x5B) (hr : s.host.responses = r :: rs) (hb : beatUpset 5 s = none) (hl : s.cp.lock = none) (hn : r.length ≤ n) :
    exec (.readPkt ⟨x, n⟩) s = .next (sendBytes 2 n r { s with host := { s.host with responses := rs } }) := by
  change ev s (readPkt x n s) = _
  rw [readPkt_response h hc hr hb hl]
  simp only [readCut, if_neg (Nat.not_lt.mpr hn)]
  rw [show (sendBytes 2 n r s).host.responses = r :: rs from hr, show responseSent n (r :: rs) = rs by simp [responseSent, hn]]
  exact ev_of_kept rfl rfl

theorem exec_readPkt_part {x : Xfer} {n : Nat} {s : State} {r : List Byte} {rs : List (List Byte)} (h : addressed x s = true)
    (hc : x.code = 0x5B) (hr : s.host.responses = r :: rs) (hb : beatUpset 5 s = none) (hl : s.cp.lock = none) (hn : n < r.length) :
    ∃ t, exec (.readPkt ⟨x, n⟩) s = .next t ∧ t.host = (sendBytes 2 n r s).host ∧ t.flt.written ≤ s.flt.written + 1 ∧
      t = { s with host := t.host, free := t.free, flt := t.flt, irq := t.irq } := by
  obtain ⟨hf, hw⟩ := cutShort_frame [⟨5, 1, false⟩] (sendBytes 2 n r s)
  have hrd : readPkt x n s = cutShort [⟨5, 1, false⟩] (sendBytes 2 n r s) := by
    rw [readPkt_response h hc hr hb hl]
    simp only [readCut, if_pos hn]
    rw [hf]
    simp [sendBytes, responseSent, hr, hn]
  refine ⟨cutShort [⟨5, 1, false⟩] (sendBytes 2 n r s), ?_, ?_, hw, ?_⟩
  · change ev s (readPkt x n s) = _
    rw [hrd]
    exact ev_of_kept (by rw [hf]; rfl) (by rw [hf]; rfl)
  · rw [hf]
  · rw [hf]; rfl

/-! ## READ_ST (R45, R46) -/

/-- With no error waiting, HDMA's read of the window passes its check. -/
theorem statusError_none {s : State} (h : s.mem.upsets = []) : statusError s = none := by simp [statusError, upset, h]

/-- A READ_ST where no error waits. -/
theorem readSt_clean {x : Xfer} {offset n m : Nat} {s : State} (h : addressed x s = true) (hc : x.code = 0x5C) (hu : s.mem.upsets = []) :
    readSt x offset n m s =
      let t := sendBytes 5 m (readData offset n s ++ natBytes 2 (crc16 (readData offset n s))) s
      let t := if rangeRead offset n then readCut 10 m (4 * n + 2) t else t
      if readWhole n m s ∧ rangeRead offset n then winClears (offset / 4) n t else t := by
  rw [readSt, transaction_served h hc]
  simp only [statusLost, readCrc, statusError_none hu]
  rfl

/-- The data of a READ_ST within the window. -/
theorem readData_range {offset n : Nat} {s : State} (h : rangeRead offset n) :
    readData offset n s = wordsBytes ((List.range n).map (fun k => winWord s (offset / 4 + k))) := by
  rw [readData, if_pos h]; rfl

/-- The queue, OTP and the bytes of the last transaction stand. -/
def TransactionOver (s t : State) : Prop := t.host.bytesOut = s.host.bytesOut ∧ t.pending = s.pending ∧ t.sec.otp = s.sec.otp

theorem TransactionOver.refl (s : State) : TransactionOver s s := ⟨rfl, rfl, rfl⟩

theorem TransactionOver.trans {s t u : State} (h : TransactionOver s t) (h' : TransactionOver t u) : TransactionOver s u :=
  ⟨h'.1.trans h.1, h'.2.1.trans h.2.1, h'.2.2.trans h.2.2⟩

theorem TransactionOver.foldl {α : Type} {f : State → α → State} (hf : ∀ s x, TransactionOver s (f s x)) (l : List α) (s : State) :
    TransactionOver s (l.foldl f s) := by
  induction l generalizing s with
  | nil => exact .refl s
  | cons x l ih => exact (hf s x).trans (ih (f s x))

theorem TransactionOver.ite {s t u : State} {c : Prop} [Decidable c] (h : TransactionOver s t) (h' : TransactionOver s u) :
    TransactionOver s (if c then t else u) := by split <;> assumption

/-- Clearing a register sends nothing, and leaves the queue and OTP. -/
theorem winClear_over (i : Nat) (s : State) : TransactionOver s (winClear i s) := by
  unfold winClear
  refine .ite ⟨rfl, rfl, rfl⟩ <| .ite ⟨rfl, rfl, rfl⟩ <| .ite ⟨rfl, rfl, rfl⟩ <| .ite ⟨rfl, rfl, rfl⟩ <| .ite ⟨rfl, rfl, rfl⟩ <|
    .ite ?_ <| .ite ⟨rfl, rfl, rfl⟩ <| .ite ?_ <| .ite ⟨rfl, rfl, rfl⟩ <|
    .ite ⟨rfl, rfl, rfl⟩ <| .ite ⟨rfl, rfl, rfl⟩ <| .ite ⟨rfl, rfl, rfl⟩ <| .ite ⟨rfl, rfl, rfl⟩ <| .ite ⟨rfl, rfl, rfl⟩ (.refl s)
  · exact ⟨congrArg HostPort.bytesOut (raiseIf_host ..), raiseIf_pending .., congrArg Security.otp (raiseIf_sec ..)⟩
  · exact .foldl (f := fun s j => onFlow (8 * (i - 0x100) + j) (fun r => { r with slips := 0 }) s) (fun _ _ => ⟨rfl, rfl, rfl⟩) _ s

theorem winClears_over (i n : Nat) (s : State) : TransactionOver s (winClears i n s) := .foldl (fun s k => winClear_over (i + k) s) _ s

section
variable {x : Xfer} {s : State} {offset n m : Nat} (h : addressed x s = true) (hc : x.code = 0x5C) (hu : s.mem.upsets = [])
include h hc hu

/-- A READ_ST within the window that is not complete clears nothing; one that ends early may be cut short. -/
theorem exec_readSt_part {d : List Byte} (hd : d = wordsBytes ((List.range n).map (fun k => winWord s (offset / 4 + k))))
    (hr : rangeRead offset n) (hw : readWhole n m s = false) : ∃ t, exec (.readSt offset n ⟨x, m⟩) s = .next t ∧
      t.host = (sendBytes 5 m (d ++ natBytes 2 (crc16 d)) s).host ∧ (4 * n + 2 ≤ m → t = { s with host := t.host }) ∧
      t.flt.written ≤ s.flt.written + 1 ∧ t = { s with host := t.host, free := t.free, flt := t.flt, irq := t.irq } := by
  let u := sendBytes 5 m (d ++ natBytes 2 (crc16 d)) s
  obtain ⟨hf, hn⟩ := cutShort_frame [⟨5, 10, false⟩] u
  have hs : readSt x offset n m s = readCut 10 m (4 * n + 2) u := by
    rw [readSt_clean h hc hu, readData_range hr, ← hd]
    dsimp only
    rw [if_pos hr, if_neg (by simp [hw])]
  by_cases hm : m < 4 * n + 2
  · refine ⟨cutShort [⟨5, 10, false⟩] u, ?_, by rw [hf], fun hm' => absurd hm' (Nat.not_le.mpr hm), hn, by rw [hf]; rfl⟩
    change ev s (readSt x offset n m s) = _
    rw [hs, readCut, if_pos hm]
    exact ev_of_kept (by rw [hf]; rfl) (by rw [hf]; rfl)
  · refine ⟨u, ?_, rfl, fun _ => rfl, Nat.le_succ _, rfl⟩
    change ev s (readSt x offset n m s) = _
    rw [hs, readCut, if_neg hm]
    exact ev_of_kept rfl rfl

/-- A complete READ_ST within the window clears the registers it has read. -/
theorem exec_readSt_whole {d : List Byte} (hd : d = wordsBytes ((List.range n).map (fun k => winWord s (offset / 4 + k))))
    (hr : rangeRead offset n) (hw : readWhole n m s = true) :
    exec (.readSt offset n ⟨x, m⟩) s = .next (winClears (offset / 4) n (sendBytes 5 m (d ++ natBytes 2 (crc16 d)) s)) := by
  have hm : ¬ m < 4 * n + 2 := by
    unfold readWhole at hw
    split at hw <;> simp only [beq_iff_eq, decide_eq_true_eq] at hw <;> omega
  have hs : readSt x offset n m s = winClears (offset / 4) n (sendBytes 5 m (d ++ natBytes 2 (crc16 d)) s) := by
    rw [readSt_clean h hc hu, readData_range hr, ← hd]
    dsimp only
    rw [if_pos hr, if_pos ⟨hw, hr⟩, readCut, if_neg hm]
  obtain ⟨-, hp, ho⟩ := winClears_over (offset / 4) n (sendBytes 5 m (d ++ natBytes 2 (crc16 d)) s)
  change ev s (readSt x offset n m s) = _
  rw [hs]
  exact ev_of_kept hp ho

/-- A READ_ST outside the window reads zeros (R45). -/
theorem exec_readSt_outside {z : List Byte} (hz : z = List.replicate (4 * (n % 256)) 0) (hr : ¬ rangeRead offset n) :
    exec (.readSt offset n ⟨x, m⟩) s = .next (sendBytes 5 m (z ++ natBytes 2 (crc16 z)) s) := by
  have hs : readSt x offset n m s = sendBytes 5 m (z ++ natBytes 2 (crc16 z)) s := by
    rw [readSt_clean h hc hu, readData, if_neg hr, ← hz]
    simp only [hr, and_false, if_false]
  change ev s (readSt x offset n m s) = _
  rw [hs]
  exact ev_of_kept rfl rfl

end

/-! ## PACKET_EXECUTE (R55, R59) -/

/-- A packet of one command: its row's own part, and the words it adds to the response (R57). -/
theorem runCommands_one {sess : Bool} {w : Word} {ops : List Word} {s : State} {r : CmdRow} (hr : rowAt (fld w 31 24) = some r)
    (hn : ops.length = fld w 15 0) (h2 : fld w 31 24 ≠ 0x02) (hb0 : fld w 31 24 ≠ 0xB0) (hf : s.host.building = []) :
    runCommands sess (w :: ops).length (w :: ops) false s =
      let x := runRow r (cmdArgs sess w ops) s
      ⟨{ x.s with host := { x.s.host with building := ansWords (fld w 31 24) x } }, false, false⟩ := by
  have hx : runCommand sess w ops s = runRow r (cmdArgs sess w ops) s := by
    rw [runCommand, if_neg (by omega), hr, ← hn, List.take_length]
  have hb : (fld w 31 24 == 0xB0) = false := by simpa using hb0
  simp only [List.length_cons, runCommands, hx, hf, h2, and_false, if_false, ← hn, List.drop_length, hb, List.nil_append, Bool.or_self]
  split
  · cases ops <;> rfl
  · rfl

section
variable {s : State} {p : Packet} {ps : List Packet} {w : Word} {ops : List Word} {r : CmdRow} (hs : cpServes s = true)
  (hh : packetHeld s = false) (ha : s.host.accepted = p :: ps) (hw : p.words = w :: ops) (hn : ops.length = fld w 15 0)
  (hr : rowAt (fld w 31 24) = some r) (h2 : fld w 31 24 ≠ 0x02) (hb0 : fld w 31 24 ≠ 0xB0) {s0 : State}
  (h0 : s0 = { s with host := { s.host with accepted := ps, building := [] } }) {x : Ans} (hx : x = runRow r (cmdArgs p.sess w ops) s0)
include hs hh ha hw hn hr h2 hb0 h0 hx

/-- Its response in no session. -/
theorem exec_packet_plain (hsess : s.sec.session = none) (hsess' : x.s.sec.session = none) {m : List Byte}
    (hm : m = plainPacket 0x02 p.seq (wordsBytes (statusWord (fld w 31 24) x.st x.res.length :: x.res))) :
    exec .packetExecute s = .next { x.s with
      pending := s.pending
      host := { x.s.host with responses := x.s.host.responses ++ [m], stored := some m, building := [] } } := by
  have hc := runCommands_one (sess := p.sess) hr hn h2 hb0 (s := s0) (by rw [h0])
  rw [← hx] at hc
  have hq : packetExecute s =
      queueResponse m { x.s with host := { x.s.host with building := ansWords (fld w 31 24) x } } := by
    rw [packetExecute, ha, hm]
    simp only [hs, hh, hw, Bool.true_eq_false, Bool.false_eq_true, or_self, if_false, ← h0, hc, hsess', hsess]
    rfl
  change Host.Outcome.next _ = _
  rw [hq]
  rfl

/-- Its response in a session, whose counter advances. -/
theorem exec_packet_sealed {y : Session} (hsess : x.s.sec.session = some y) {m : List Byte}
    (hm : m = sealedPacket y p.seq (wordsBytes (statusWord (fld w 31 24) x.st x.res.length :: x.res))) :
    exec .packetExecute s = .next { x.s with
      pending := s.pending
      sec := { x.s.sec with session := some { y with cDh := y.cDh + 1 } }
      host := { x.s.host with responses := x.s.host.responses ++ [m], stored := some m, building := [] } } := by
  have hc := runCommands_one (sess := p.sess) hr hn h2 hb0 (s := s0) (by rw [h0])
  rw [← hx] at hc
  have hq : packetExecute s = queueResponse m { x.s with
      host := { x.s.host with building := ansWords (fld w 31 24) x }
      sec := { x.s.sec with session := some { y with cDh := y.cDh + 1 } } } := by
    rw [packetExecute, ha, hm]
    simp only [hs, hh, hw, Bool.true_eq_false, Bool.false_eq_true, or_self, if_false, ← h0, hc, hsess]
    rfl
  change Host.Outcome.next _ = _
  rw [hq]
  rfl

end

/-! ## Responses at packet level (R51, R52) -/

/-- The status word of a packet-level response. -/
theorem statusWord_packetLevel (c : Status) : statusWord 0xFF c 0 = toWord (0xFF000000 + c.code * 65536) := rfl

theorem packetLevel_plain (seq : BitVec 8) (c : Status) {s : State} (h : s.sec.session = none) :
    packetLevel seq c s = { s with host := { s.host with
      responses := s.host.responses ++ [plainPacket 0x02 seq (wordsBytes [toWord (0xFF000000 + c.code * 65536)])] } } := by
  simp only [packetLevel, makeResponse, h, statusWord_packetLevel]
  rw [← h]

theorem packetLevel_sealed (seq : BitVec 8) (c : Status) {s : State} {y : Session} (h : s.sec.session = some y) :
    packetLevel seq c s = { s with
      host := { s.host with
        responses := s.host.responses ++ [sealedPacket y seq (wordsBytes [toWord (0xFF000000 + c.code * 65536)])] }
      sec := { s.sec with session := some { y with cDh := y.cDh + 1 } } } := by
  simp only [packetLevel, makeResponse, h, statusWord_packetLevel]

/-- Sending the stored response again changes the queue of responses alone. -/
theorem resend_frame (s : State) : resend s = { s with host := { s.host with responses := (resend s).host.responses } } := by
  unfold resend
  split <;> rfl

/-- A session packet whose tag verifies, or a plain one, is judged by its number. -/
theorem checkedPacket_other {p : List Byte} {n : Nat} {s : State} (h : p.getD 1 0 = 0x01 ∨
      ∃ y, p.getD 1 0 = 0x81 ∧ s.sec.session = some y ∧ tagOk y y.cHd p n = true) (hf : s.host.seqFree = false)
    (hs : p.getD 2 0 ≠ s.host.expSeq) : checkedPacket p n s =
      if s.host.lastSeq = some (p.getD 2 0) then resend s else packetLevel (p.getD 2 0) .seqError s := by
  rcases h with h | ⟨y, h, hy, hk⟩
  · rw [checkedPacket_plain h, bySeq_other hf hs]
  · rw [checkedPacket_verified h hy hk, bySeq_other hf hs]

/-- A transaction to another address is not this device's (R43). -/
theorem exec_elsewhere {x : Xfer} {s : State} (h : addressed x s = false) (bytes : List Byte) (offset n m : Nat) :
    exec (.writePkt ⟨x, bytes⟩) s = .next s ∧ exec (.readPkt ⟨x, n⟩) s = .next s ∧ exec (.readSt offset n ⟨x, m⟩) s = .next s :=
  ⟨(congrArg (ev s) (transaction_elsewhere h ..)).trans (ev_of_kept rfl rfl),
    (congrArg (ev s) (transaction_elsewhere h ..)).trans (ev_of_kept rfl rfl),
    (congrArg (ev s) (transaction_elsewhere h ..)).trans (ev_of_kept rfl rfl)⟩

/-- A transaction with another code is ignored (R44). -/
theorem exec_ignored {x : Xfer} {s : State} (h : addressed x s = true) (hc : x.code ∉ [0x5A, 0x5B, 0x5C]) (bytes : List Byte)
    (offset n m : Nat) : exec (.writePkt ⟨x, bytes⟩) s = .next (sendBytes (1 + bytes.length) 0 [] s) ∧
      exec (.readPkt ⟨x, n⟩) s = .next (sendBytes 2 n [] s) ∧ exec (.readSt offset n ⟨x, m⟩) s = .next (sendBytes 5 m [] s) := by
  simp only [List.mem_cons, List.not_mem_nil, or_false, not_or] at hc
  obtain ⟨hA, hB, hC⟩ := hc
  exact ⟨(congrArg (ev s) (transaction_ignored h hA ..)).trans (ev_of_kept rfl rfl),
    (congrArg (ev s) (transaction_ignored h hB ..)).trans (ev_of_kept rfl rfl),
    (congrArg (ev s) (transaction_ignored h hC ..)).trans (ev_of_kept rfl rfl)⟩

end Sys2Proof.Machine
end

section
/-! PROOF. Host transactions (O52). -/

namespace Sys2Proof.Machine

/-- Settles O52, transaction by transaction. -/
theorem hostTransactions : Obligations.HostTransactions := by
  unfold Obligations.HostTransactions
  refine ⟨?_, ?_, ?_, ?_, ?_, ?_, ?_, ?_, ?_, ?_, ?_, ?_, ?_, ?_⟩
  · intro s x seq ws p ha hc hr hp hu hn hs hw hb hl
    subst hp
    exact exec_writePkt ha hc rfl (packetIn_plainPacket (beatUpset_sendBytes hb) hl hu hr hn hs hw) rfl rfl
  · intro s x bytes ha hc hu hm hb hl
    have hw : writePkt x bytes s = _ :=
      (writePkt_packet ha hc (fromSync_ne_nil hm)).trans (packetIn_dropped (beatUpset_sendBytes hb) hl hu)
    exact (congrArg (ev s) hw).trans (ev_of_kept rfl rfl)
  · intro s x p n seq ha hc hu hb hl hp hn hseq
    dsimp only
    have hb' := beatUpset_sendBytes (w := 1 + p.length) (r := 0) (d := []) hb
    refine ⟨fun h5 h => ?_, fun h => ?_, fun h5 h1 h2 h hcrc => ?_⟩
    · exact exec_writePkt ha hc hp (packetIn_range hb' hl hu hn hseq h5 h) rfl rfl
    · obtain ⟨hf, hw⟩ := cutShort_frame [⟨5, 1, true⟩, ⟨5, 6, true⟩] (sendBytes (1 + p.length) 0 [] s)
      refine ⟨_, exec_writePkt ha hc hp (packetIn_short hb' hl hu hn hseq h) ?_ ?_, ?_, ?_, hw⟩ <;> rw [hf] <;> rfl
    · have ht := packetIn_whole hb' hl hu hn hseq h5 h1 h2 h
      rw [if_pos hcrc] at ht
      exact exec_writePkt ha hc hp ht rfl rfl
  · intro s x p n type seq ha hc hu hr hb hl hp hn htype hseq h1 h2 h hcrc
    subst htype hseq
    dsimp only
    have hb' := beatUpset_sendBytes (w := 1 + p.length) (r := 0) (d := []) hb
    have hrun {t : State} (ht : checkedPacket p n (sendBytes (1 + p.length) 0 [] s) = t) (hk : t.power = s.power)
        (hq : t.pending = s.pending) (ho : t.sec.otp = s.sec.otp) : exec (.writePkt ⟨x, p⟩) s = .next t :=
      exec_writePkt ha hc hp (packetIn_checked hb' hl hu hr hn h1 h2 h hcrc ht hk) hq ho
    have hagain (ht : checkedPacket p n (sendBytes (1 + p.length) 0 [] s) = resend (sendBytes (1 + p.length) 0 [] s)) :
        exec (.writePkt ⟨x, p⟩) s = .next (resend (sendBytes (1 + p.length) 0 [] s)) := by
      apply hrun ht <;> rw [resend_frame] <;> rfl
    refine ⟨fun h1 h2 => ?_, fun ht hs => ?_, fun y ht hy hn => ⟨fun hl hc hp => ?_, fun hl => ?_⟩, fun y ht hy hk hs hw => ?_,
      fun ht hf hs => ?_⟩
    · exact hrun (checkedPacket_unsupported h1 h2) rfl rfl rfl
    · exact hrun (checkedPacket_sessionless ht hs) rfl rfl rfl
    · exact (hagain (checkedPacket_again (s := sendBytes (1 + p.length) 0 [] s) ht hy hn hl hc hp)).trans rfl
    · exact hrun (checkedPacket_refused (s := sendBytes (1 + p.length) 0 [] s) ht hy hn hl) rfl rfl rfl
    · exact hrun ((checkedPacket_verified (s := sendBytes (1 + p.length) 0 [] s) ht hy hk).trans
        (bySeq_session (s := sendBytes (1 + p.length) 0 [] s) hy hs hw)) rfl rfl rfl
    · have ht := checkedPacket_other (s := sendBytes (1 + p.length) 0 [] s) ht hf hs
      refine ⟨fun hl => ?_, fun hl => ?_⟩
      · exact (hagain (ht.trans (if_pos hl))).trans rfl
      · exact hrun (ht.trans (if_neg hl)) rfl rfl rfl
  · intro s seq c
    exact ⟨packetLevel_plain seq c, fun y => packetLevel_sealed seq c⟩
  · intro s x n ha hc
    exact ⟨exec_readPkt_empty ha hc, fun r rs hr hb hl => ⟨exec_readPkt_whole ha hc hr hb hl, exec_readPkt_part ha hc hr hb hl⟩⟩
  · intro s x offset n m ha hc hu
    dsimp only
    refine ⟨exec_readSt_part ha hc hu rfl, fun hr hw => ⟨_, exec_readSt_whole ha hc hu rfl hr hw, (winClears_over ..).1, ?_⟩,
      exec_readSt_outside ha hc hu rfl⟩
    rintro rfl rfl
    rfl
  · exact fun s x bytes offset n m => ⟨fun h => exec_elsewhere h bytes offset n m, fun h hc => exec_ignored h hc bytes offset n m⟩
  · intro s p ps w ops r hs hh ha hw hn hr h2 hb0
    dsimp only
    exact fun hsess hsess' => ⟨(rowAt_marks hr).1, exec_packet_plain hs hh ha hw hn hr h2 hb0 rfl rfl hsess hsess' rfl⟩
  · intro s p ps w ops r y hs hh ha hw hn hr h2 hb0
    dsimp only
    exact fun hsess => exec_packet_sealed hs hh ha hw hn hr h2 hb0 rfl rfl hsess rfl
  · intro s h
    change Host.Outcome.next _ = _
    rw [packetExecute, h]
  · exact fun a s h => (execRow_body (t := fresh s) h rfl rfl (by simp [rowNop]) (by simp) rfl rfl).trans rfl
  · exact fun a s h => (execRow_body (t := fresh s) h rfl rfl (by simp [rowDevInfo]) (by simp) rfl rfl).trans rfl
  · intro a s h hr
    have hb : rowIrqMask.body a (fresh s) = yes { fresh s with irq := { s.irq with mask := setBit (opnd a 0) 10 true } } :=
      checks_pass (by simpa using hr)
    exact (execRow_body h rfl hb (by simp [rowIrqMask]) (by simp) rfl rfl).trans rfl

end Sys2Proof.Machine
end

section
/-! SUPPORT. What every block leaves when it follows a change of ACTIVE (Table 2.9): the sets, the timebase, the clocks and the power
states; and the writes that wait for a boundary (R67). -/

namespace Sys2Proof.Machine

/-! ## What a step keeps -/

/-- What `π` reads of the state stands. -/
def Kept {α : Type} (π : State → α) (s t : State) : Prop := π t = π s

theorem Kept.refl {α : Type} {π : State → α} (s : State) : Kept π s s := rfl

theorem Kept.trans {α : Type} {π : State → α} {s t u : State} (h : Kept π s t) (h' : Kept π t u) : Kept π s u := Eq.trans h' h

theorem Kept.ite {α : Type} {π : State → α} {s t u : State} {p : Prop} [Decidable p] (h : Kept π s t) (h' : Kept π s u) :
    Kept π s (if p then t else u) := by split <;> assumption

theorem Kept.foldl {α β : Type} {π : State → α} {f : State → β → State} (hf : ∀ s x, Kept π s (f s x)) (l : List β) (s : State) :
    Kept π s (l.foldl f s) := by
  induction l generalizing s with
  | nil => exact .refl s
  | cons x l ih => exact (hf s x).trans (ih (f s x))

/-- What is read of a part that stands, stands. -/
theorem Kept.comp {α β : Type} {π : State → α} {s t : State} (h : Kept π s t) (g : α → β) : Kept (g ∘ π) s t := congrArg g h

/-- The sets, the timebase, the clocks and the power states: what no block changes when it follows a change of ACTIVE. -/
def outside (s : State) : Sets × Timebase × Clocks × Power := (s.sets, s.tb, s.clk, s.power)

theorem kept_outside {s t : State} (h : Kept outside s t) : t.sets = s.sets ∧ t.tb = s.tb ∧ t.clk = s.clk ∧ t.power = s.power := by
  simpa [Kept, outside] using h

theorem OutsOnly.kept {s t : State} (h : OutsOnly s t) : Kept outside s t := by rw [h]; rfl
theorem FlowsOnly.kept {s t : State} (h : FlowsOnly s t) : Kept outside s t := by rw [h]; rfl

/-! ## The front end follows a change of ACTIVE -/

theorem moveFrom_outside (ch : Nat) (old : Corr) (s : State) : Kept outside s (moveFrom ch old s) := .ite rfl rfl
theorem noteRelease_outside (ch : Nat) (s : State) : Kept outside s (noteRelease ch s) := .ite rfl rfl
theorem recordStep_outside (ch : Nat) (b : Bool) (s : State) : Kept outside s (recordStep ch b s) := .ite rfl rfl
theorem beginChan_outside (ch : Nat) (s : State) : Kept outside s (beginChan ch s) := .ite rfl rfl

theorem chanDiff_outside (o : ConfigSet) (s : State) (ch : Nat) : Kept outside s (chanDiff o s ch) := by
  unfold chanDiff
  extract_lets n c hz restart modeChg s1 s2 old s3 s4
  have h1 : Kept outside s s1 := .ite rfl rfl
  have h2 : Kept outside s1 s2 := .ite (Kept.trans rfl (recordStep_outside ..)) (.ite rfl rfl)
  have h3 : Kept outside s2 s3 := .ite (moveFrom_outside ..) rfl
  have h4 : Kept outside s3 s4 := .ite rfl (.ite rfl rfl)
  have h5 : Kept outside s4 (if restart = false ∧ o.chBank ch ≠ n.chBank ch then fadeRequest ch (n.chBank ch) s4 else s4) := .ite rfl rfl
  exact .ite (.ite ((noteRelease_outside ..).trans rfl) rfl) (.ite ((noteRelease_outside ..).trans (beginChan_outside ..))
    (.ite rfl (h1.trans (h2.trans (h3.trans (h4.trans h5))))))

theorem feDiff_outside (o : ConfigSet) (s : State) : Kept outside s (feDiff o s) := .foldl (chanDiff_outside o) _ s

/-! ## The matrix, the taps and the ports follow -/

theorem nodeDiff_outside (o : ConfigSet) (s : State) (n : Nat) : Kept outside s (nodeDiff o s n) := .ite rfl rfl
theorem weirDiff_outside (o : ConfigSet) (s : State) (n : Nat) : Kept outside s (weirDiff o s n) :=
  .ite rfl (.ite rfl (.ite (.ite rfl rfl) (.ite rfl rfl)))

theorem mtxDiff_outside (o : ConfigSet) (s : State) : Kept outside s (mtxDiff o s) := by
  unfold mtxDiff
  extract_lets a s1 s2
  have h : Kept outside s s2 := (Kept.foldl (nodeDiff_outside o) _ s).trans (.foldl (weirDiff_outside o) _ s1)
  clear_value s2
  exact h.trans rfl

theorem tapFollow_outside (before s : State) (t : Nat) : Kept outside s (tapFollow before s t) := by
  unfold tapFollow
  refine .ite rfl (.ite rfl ?_)
  split <;> rfl

theorem tapsFollow_outside (before s : State) : Kept outside s (tapsFollow before s) := .foldl (tapFollow_outside before) _ s

theorem assignDiff_outside (o : ConfigSet) (s : State) : Kept outside s (assignDiff o s) := rfl

theorem mrDiff_outside (o : ConfigSet) (s : State) : Kept outside s (mrDiff o s) := by
  unfold mrDiff
  extract_lets s1
  have h : Kept outside s s1 := by
    refine .foldl (fun s t => ?_) _ s
    exact .ite rfl rfl
  clear_value s1
  exact .ite h (h.trans (assignDiff_outside o s1))

theorem stopEndpoint_outside (p : Nat → Quad → Bool) (s : State) : Kept outside s (stopEndpoint p s) := by
  unfold stopEndpoint
  refine .foldl (fun s f => ?_) _ s
  rfl

theorem aesJudge_outside (rx : Nat) (s : State) : Kept outside s (aesJudge rx s) := by
  unfold aesJudge
  split
  case h_1 | h_2 => exact .ite (Kept.trans rfl (stopEndpoint_outside ..)) rfl
  all_goals rfl

theorem portsDiff_outside (s : State) : Kept outside s (portsDiff s) := by
  unfold portsDiff
  extract_lets s1
  have h : Kept outside s s1 := (aesJudge_outside 0 s).trans (aesJudge_outside 1 _)
  clear_value s1
  refine h.trans (.foldl (fun s t => ?_) _ s1)
  exact .ite rfl rfl

/-! ## The cores follow; they do not touch the front end -/

/-- The front end beside `outside`: what the DSP, the microphones and the flows leave too. -/
def outsideFe (s : State) : FrontEnd × (Sets × Timebase × Clocks × Power) := (s.fe, outside s)

theorem Kept.fe {s t : State} (h : Kept outsideFe s t) : t.fe = s.fe := congrArg Prod.fst h

theorem Kept.outside {s t : State} (h : Kept outsideFe s t) : Kept Machine.outside s t := h.comp Prod.snd

theorem rewind_outsideFe (n : Nat) (p : Nat → Bool) (s : State) : Kept outsideFe s (rewind n p s) := by
  unfold rewind
  refine .foldl (fun s f => ?_) _ s
  rfl

theorem bindChange_outsideFe (n : Nat) (s : State) : Kept outsideFe s (bindChange n s) :=
  Kept.trans rfl (rewind_outsideFe ..)

theorem undoEntries_outsideFe (n : Nat) (es : List Undo) (s : State) : Kept outsideFe s (undoEntries n es s) := by
  refine .foldl (fun s e => ?_) es s
  dsimp only
  split <;> rfl

theorem logFault_outsideFe (c i : Nat) (d0 d1 : Word) (s : State) : Kept outsideFe s (logFault c i d0 d1 s) := by
  simp [Kept, outsideFe, Machine.outside]

theorem checkpointLost_outsideFe (n : Nat) (s : State) : Kept outsideFe s (checkpointLost n s) := by
  unfold checkpointLost logUndoBuffer
  extract_lets m s1
  exact (Kept.trans rfl (bindChange_outsideFe n s1)).trans (logFault_outsideFe ..)

theorem rollback_outsideFe (n : Nat) (s : State) : Kept outsideFe s (rollback n s) := by
  unfold rollback
  dsimp only
  split
  · exact .ite rfl rfl
  · exact .ite (checkpointLost_outsideFe n s) ((undoEntries_outsideFe ..).trans rfl)

theorem coreSync_outsideFe (s : State) (n : Nat) : Kept outsideFe s (coreSync s n) :=
  .ite ((rollback_outsideFe n s).trans (Kept.trans rfl (rewind_outsideFe ..))) rfl

theorem coreDiffOne_outsideFe (page : Nat → Bool) (o : ConfigSet) (s : State) (n : Nat) : Kept outsideFe s (coreDiffOne page o s n) :=
  .ite (bindChange_outsideFe n s) (.ite (rollback_outsideFe n s) rfl)

theorem coreDiff_outsideFe (page : Nat → Bool) (o : ConfigSet) (s : State) : Kept outsideFe s (coreDiff page o s) :=
  .foldl (coreDiffOne_outsideFe page o) _ s

/-- Every block that follows a change of ACTIVE leaves the sets, the timebase, the clocks and the power states (Table 2.9). -/
theorem followActive_outside (page : Nat → Bool) (o : ConfigSet) (s : State) : Kept outside s (followActive page o s) := by
  unfold followActive
  refine Kept.trans ?_ (tapsFollow_outside ..)
  refine Kept.trans ?_ (portsDiff_outside _)
  refine Kept.trans ?_ (coreDiff_outsideFe ..).outside
  refine Kept.trans ?_ (outDiff_outsOnly ..).kept
  refine Kept.trans ?_ (flowDiff_flowsOnly ..).kept
  refine Kept.trans ?_ (mrDiff_outside ..)
  exact (feDiff_outside o s).trans (mtxDiff_outside o _)

/-! ## The writes that waited apply (R67) -/

/-- What a placed write leaves: the writes that wait, the timebase, the clocks and the power states. -/
def besideItems (s : State) : List Placed × Timebase × Clocks × Power := (s.sets.placed, s.tb, s.clk, s.power)

theorem placedWrite_beside (s : State) (p : Placed) : Kept besideItems s (placedWrite s p) := by
  refine .ite rfl ?_
  unfold writeActive onActive
  exact .ite rfl rfl

/-- All writes that wait apply, so that none waits. -/
theorem applyPlaced_all (s : State) : (applyPlaced s.sets.placed s).sets.placed = [] ∧ (applyPlaced s.sets.placed s).tb = s.tb ∧
    (applyPlaced s.sets.placed s).clk = s.clk ∧ (applyPlaced s.sets.placed s).power = s.power := by
  unfold applyPlaced
  extract_lets o s1
  have h1 : Kept besideItems s s1 := .foldl placedWrite_beside _ s
  simp only [Kept, besideItems, Prod.mk.injEq] at h1
  obtain ⟨hp, ht, hc, hw⟩ := h1
  split
  · rename_i h
    exact ⟨List.isEmpty_iff.mp h, rfl, rfl, rfl⟩
  · obtain ⟨hp', ht', hc', hw'⟩ := kept_outside (followActive_outside (placedPage s.sets.placed) o
      { s1 with sets := { s1.sets with placed := s1.sets.placed.filter (fun p => !s.sets.placed.contains p) } })
    rw [hp', ht', hc', hw']
    exact ⟨by simp [hp], ht, hc, hw⟩

end Sys2Proof.Machine
end

section
/-! PROOF. SYNC, SYNC_IN and the synchronising reset (O32). -/

namespace Sys2Proof.Machine

/-! ## A synchronising reset (R177, R334) -/

theorem chanSync_outside (s : State) (ch : Nat) : Kept outside s (chanSync s ch) := .ite rfl rfl

theorem calBreak_outsideFe (chs : List Nat) (s : State) : Kept outsideFe s (calBreak chs s) := .ite rfl rfl

theorem feSync_outside (s : State) : Kept outside s (feSync s) := by
  unfold feSync
  exact (calBreak_outsideFe _ s).outside.trans (Kept.foldl chanSync_outside (List.range 32) _)

theorem onMic_outsideFe (m : Nat) (f : PdmMic → PdmMic) (s : State) : Kept outsideFe s (onMic m f s) := rfl

theorem pdmSync_outsideFe (s : State) : Kept outsideFe s (pdmSync s) := by
  unfold pdmSync
  refine .foldl (fun s m => ?_) _ s
  exact .ite (onMic_outsideFe ..) rfl

theorem onFlow_outsideFe (f : Nat) (g : FlowRun → FlowRun) (s : State) : Kept outsideFe s (onFlow f g s) := rfl
theorem slip_outsideFe (f : Nat) (s : State) : Kept outsideFe s (slip f s) := by
  simp [Kept, outsideFe, Machine.outside, slip]

theorem syncSlips_outsideFe (aligned : BitVec 6) (s : State) : Kept outsideFe s (syncSlips aligned s) := by
  unfold syncSlips
  refine .foldl (fun s f => ?_) _ s
  exact Kept.trans (onFlow_outsideFe ..) (slip_outsideFe ..)

/-- What the reset does after the front end's part leaves the front end. -/
theorem syncRest_outsideFe (aligned : BitVec 6) (s : State) :
    Kept outsideFe s (syncSlips aligned (pdmSync (onCores coreSync s))) :=
  (Kept.foldl coreSync_outsideFe _ s).trans ((pdmSync_outsideFe _).trans (syncSlips_outsideFe ..))

/-- A synchronising reset: no write waits, every grid restarts, and t0 is recorded. -/
theorem syncReset_parts (aligned : BitVec 6) (s : State) : (syncReset aligned s).sets.placed = [] ∧
    (syncReset aligned s).tb.lastT0 = now s ∧ (syncReset aligned s).tb.count = now s ∧ (syncReset aligned s).mtx.lanePos = [] ∧
    (syncReset aligned s).clk = s.clk ∧ (syncReset aligned s).power = s.power := by
  obtain ⟨hp, ht, hc, hw⟩ := applyPlaced_all s
  obtain ⟨hs', ht', hc', hw'⟩ := kept_outside ((feSync_outside (applyPlaced s.sets.placed s)).trans (syncRest_outsideFe aligned _).outside)
  unfold syncReset
  dsimp only
  have hn : now (syncSlips aligned (pdmSync (onCores coreSync (feSync (applyPlaced s.sets.placed s))))) = now s :=
    congrArg Timebase.count (ht'.trans ht)
  exact ⟨by rw [hs', hp], hn, hn, rfl, hc'.trans hc, hw'.trans hw⟩

theorem syncReset_fe (aligned : BitVec 6) (s : State) : (syncReset aligned s).fe = (feSync (applyPlaced s.sets.placed s)).fe := by
  simp only [syncReset, (syncRest_outsideFe aligned _).fe]

/-- A channel as a synchronising reset leaves it: its decimators' histories cleared, no fade, the bank `b`, and CUT on its next sample. -/
structure Synced (b : Nat) (c : Chan) : Prop where
  hist : c.hist = []
  histOdd : c.histOdd = []
  cut : c.cutNext = true
  fade : c.fade = none
  queued : c.queued = none
  bank : c.bank = b

/-- A live channel restarts, and stays live. -/
theorem chanSync_same {s : State} {ch : Nat} (h : (chan s ch).live = true) :
    (chan (chanSync s ch) ch).live = true ∧ Synced ((active s).chBank ch) (chan (chanSync s ch) ch) := by
  unfold chanSync
  dsimp only
  rw [if_pos h, chan_onChan_same]
  exact ⟨h, rfl, rfl, rfl, rfl, rfl, rfl⟩

theorem chanSync_other {s : State} {ch n : Nat} (h : ch ≠ n) : chan (chanSync s n) ch = chan s ch := by
  unfold chanSync
  dsimp only
  split
  · exact chan_onChan_other _ _ _ _ h
  · rfl

/-- A live channel among those that restart has restarted at their end. -/
theorem foldl_chanSync {ch b : Nat} (l : List Nat) (s : State) (hb : (active s).chBank ch = b) (h : (chan s ch).live = true)
    (hl : ch ∈ l ∨ Synced b (chan s ch)) : Synced b (chan (l.foldl chanSync s) ch) := by
  induction l generalizing s with
  | nil => exact hl.resolve_left List.not_mem_nil
  | cons n l ih =>
    have ha : active (chanSync s n) = active s := by
      unfold active; rw [(kept_outside (chanSync_outside s n)).1]
    by_cases hn : ch = n
    · subst hn
      obtain ⟨hlive, hsync⟩ := chanSync_same h
      exact ih _ (by rw [ha, hb]) hlive (.inr (hb ▸ hsync))
    · have hc := chanSync_other (s := s) hn
      refine ih _ (by rw [ha, hb]) (hc ▸ h) ?_
      rw [hc]
      exact hl.imp_left (fun hm => (List.mem_cons.mp hm).resolve_left hn)

/-- Every live channel restarts (R177). -/
theorem syncReset_chan {s : State} {ch : Nat} (aligned : BitVec 6) (hp : s.sets.placed = []) (hch : ch < 32)
    (h : (chan s ch).live = true) : Synced ((active s).chBank ch) (chan (syncReset aligned s) ch) := by
  have hs1 : applyPlaced s.sets.placed s = s := by simp [applyPlaced, hp]
  have hrest := syncReset_fe aligned s
  rw [hs1, feSync] at hrest
  generalize h0' : calBreak (indexes 32 (fun ch => (chan s ch).live)) s = s0 at hrest
  have h0 : Kept outsideFe s s0 := h0' ▸ calBreak_outsideFe _ s
  have hfe : s0.fe = s.fe := h0.fe
  have ha : active s0 = active s := by unfold active; rw [(kept_outside h0.outside).1]
  have hfold := foldl_chanSync (ch := ch) (List.range 32) s0 (congrArg (ConfigSet.chBank · ch) ha) (by unfold chan; rw [hfe]; exact h)
    (.inl (List.mem_range.mpr hch))
  unfold chan
  rw [hrest]
  exact hfold

/-! ## The events and the command -/

/-- What a pulse leaves. -/
theorem syncPulse_parts (c : Bool) (s : State) : syncPulse c s = { s with clk := (syncPulse c s).clk } ∧
    (syncPulse c s).clk.syncReq = s.clk.syncReq ∧ (syncPulse c s).clk.emitReq = s.clk.emitReq ∧
    (syncPulse c s).clk.pulses = s.clk.pulses + if c = true ∧ s.power.padsHeld = false then 1 else 0 := by
  unfold syncPulse
  cases c <;> cases s.power.padsHeld <;> exact ⟨rfl, rfl, rfl, rfl⟩

/-- The command's own part: PULSE with neither CFG nor NOW. -/
theorem syncEmit_free {s : State} (hr : running s = true) (hg : gridRuns s = true) (hp : s.power.padsHeld = false) :
    syncEmit { s with clk := { s.clk with emitReq := true } } =
      { s with clk := { s.clk with pulses := s.clk.pulses + 1, pulseAt := now s, emitReq := false } } := by
  have ha : syncActs { s with clk := { s.clk with emitReq := true } } = true := by rw [syncActs, Bool.and_eq_true]; exact ⟨hr, hg⟩
  rw [syncEmit, if_pos ⟨rfl, ha⟩, syncPulse, if_pos (by simpa using hp)]
  rfl

theorem syncEmit_held {s : State} (hr : running s = true) (hg : gridRuns s = true) (hp : s.power.padsHeld = true) :
    syncEmit { s with clk := { s.clk with emitReq := true } } = { s with clk := { s.clk with emitReq := false } } := by
  have ha : syncActs { s with clk := { s.clk with emitReq := true } } = true := by rw [syncActs, Bool.and_eq_true]; exact ⟨hr, hg⟩
  rw [syncEmit, if_pos ⟨rfl, ha⟩, syncPulse, if_neg (by simpa using hp)]

theorem syncEmit_waits {s : State} (h : running s = false ∨ gridRuns s = false) : syncEmit s = s := by
  rcases h with h | h <;> simp [syncEmit, syncActs, h]

/-- SYNC with CFG alone passes its checks where its word is defined. -/
theorem bodySync_cfg {a : CmdArgs} {s : State} (h2 : flag a 2 = true) (h0 : flag a 0 = false) (h1 : flag a 1 = false)
    (hr : resv (opnd a 0) 0x33 = false) (hm : fld (opnd a 0) 1 0 ≠ 3) (ho : fld (opnd a 0) 5 4 < 2) : bodySync a s = yes { s with
      clk := { s.clk with inmode := BitVec.ofNat 2 (fld (opnd a 0) 1 0), outmode := BitVec.ofNat 2 (fld (opnd a 0) 5 4) } } := by
  rw [bodySync, checks_pass (by simp [h0, h1, hm, ho]; exact fun _ => hr)]
  simp [h0, h1, h2]

/-- SYNC with EMIT alone passes its checks where SYNC_OUT is an output. -/
theorem bodySync_emit {a : CmdArgs} {s : State} (h1 : flag a 1 = true) (h0 : flag a 0 = false) (h2 : flag a 2 = false)
    (ho : s.clk.outmode ≠ 0) : bodySync a s = yes (syncEmit { s with clk := { s.clk with emitReq := true } }) := by
  rw [bodySync, checks_pass (by simp [h0, h2]; exact fun _ => ho)]
  simp [h0, h1, h2]

/-- SYNC with NOW alone passes its checks while PLLA gives the grids their clock. -/
theorem bodySync_now {a : CmdArgs} {s : State} (h0 : flag a 0 = true) (h1 : flag a 1 = false) (h2 : flag a 2 = false)
    (hst : s.clk.a.st ∈ [.locked, .holdover, .holdoverMuted]) : bodySync a s = yes { s with clk := { s.clk with syncReq := true } } := by
  rw [bodySync, checks_pass (by simp at hst; rcases hst with h | h | h <;> simp [h1, h2, h])]
  simp [h0, h1, h2]

/-- A SYNC that changes the clocks' state alone. -/
theorem execRow_sync {a : CmdArgs} {s : State} {c : Clocks} (h : Admitted rowSync a s)
    (hb : bodySync a (fresh s) = yes { fresh s with clk := c }) :
    execRow rowSync a s = .next (answered 0x11 .ok [] { s with clk := c }) :=
  (execRow_body h rfl hb (by simp [rowSync]) (by simp) rfl rfl).trans rfl

/-- Under INMODE 2 one edge resets, and INMODE goes back to 0. -/
theorem syncInEdge_once {s : State} (aligned : BitVec 6) (hr : running s = true) (hp : s.power.padsHeld = false)
    (hi : s.power.iovddA = true) (hs : s.sets.swap = none) (hm : s.clk.inmode = 2) (hg : gridRuns s = true) :
    syncInEdge aligned s = { syncReset aligned s with clk := { (syncReset aligned s).clk with inmode := 0 } } := by
  rw [syncInEdge, if_neg (by simp [hr, hp, hi]), hs]
  dsimp only
  rw [syncInEdge.edgeMode, if_neg (by simp [hm, hg]), if_pos hm]

/-- A SYNC with NOW resets at its t0. -/
theorem synchronisingReset_acts {s : State} (aligned : BitVec 6) (hq : s.clk.syncReq = true) (hr : running s = true)
    (hg : gridRuns s = true) : synchronisingReset aligned s = syncPulse ((syncReset aligned s).clk.outmode = 1)
      { syncReset aligned s with clk := { (syncReset aligned s).clk with syncReq := false, emitReq := false } } := by
  rw [synchronisingReset, if_pos ⟨hq, by rw [syncActs, hr, hg]; rfl⟩]

/-- Settles O32: the command by its checks, an edge and a reset by what `syncReset` does (`syncReset_parts`, `syncReset_chan`). -/
theorem synchronisation : Obligations.Synchronisation := by
  unfold Obligations.Synchronisation
  refine ⟨fun a s h h0 h1 hr hm ho => ?_, fun a s h h0 h2 ho => ?_, fun a s h h1 h2 hst => ?_, fun s aligned r hr hp hi hs ha => ?_,
    fun s aligned hr hp hi hs hm hg => ?_, fun s aligned hq hr hg => ?_⟩
  · have hb := bodySync_cfg (a := withFlag a 2 true) (s := fresh s) (by simp [flag, withFlag]) (by simpa [flag, withFlag] using h0)
      (by simpa [flag, withFlag] using h1) hr hm ho
    exact execRow_sync h hb
  · have hb := bodySync_emit (a := withFlag a 1 true) (s := fresh s) (by simp [flag, withFlag]) (by simpa [flag, withFlag] using h0)
      (by simpa [flag, withFlag] using h2) ho
    refine ⟨fun hr hg hp => ?_, fun hr hg hp => ?_, fun hw => ?_⟩
    · exact execRow_sync h (hb.trans (congrArg yes (syncEmit_free (s := fresh s) hr hg hp)))
    · exact execRow_sync h (hb.trans (congrArg yes (syncEmit_held (s := fresh s) hr hg hp)))
    · exact execRow_sync h (hb.trans (congrArg yes (syncEmit_waits hw)))
  · have hb := bodySync_now (a := withFlag a 0 true) (s := fresh s) (by simp [flag, withFlag]) (by simpa [flag, withFlag] using h1)
      (by simpa [flag, withFlag] using h2) hst
    exact execRow_sync h hb
  · have he : syncInEdge aligned s = { s with sets := { s.sets with swap := some { r with armed := false, since := now s } } } := by
      simp [syncInEdge, hr, hp, hi, hs, ha]
    exact (congrArg (ev s) he).trans (ev_of_kept rfl rfl)
  · have he := syncInEdge_once aligned hr hp hi hs hm hg
    obtain ⟨hpl, ht0, -, hlane, -, -⟩ := syncReset_parts aligned s
    generalize syncReset aligned s = u at he hpl ht0 hlane
    exact ⟨_, congrArg (ev s) he, rfl, ht0, hlane, hpl⟩
  · have he := synchronisingReset_acts aligned hq hr hg
    have hchan := fun (hp : s.sets.placed = []) ch (hch : ch < 32) hl => syncReset_chan (s := s) (ch := ch) aligned hp hch hl
    obtain ⟨hpl, ht0, -, hlane, hclk, hpow⟩ := syncReset_parts aligned s
    generalize syncReset aligned s = u at he hchan hpl ht0 hlane hclk hpow
    obtain ⟨hfr, hsr, her, hpu⟩ := syncPulse_parts (u.clk.outmode = 1)
      { u with clk := { u.clk with syncReq := false, emitReq := false } }
    generalize syncPulse (u.clk.outmode = 1) { u with clk := { u.clk with syncReq := false, emitReq := false } } = v at he hfr hsr her hpu
    rw [hclk, hpow] at hpu
    have hlast : v.tb.lastT0 = now s := by rw [hfr]; exact ht0
    have hpos : v.mtx.lanePos = [] := by rw [hfr]; exact hlane
    have hnone : v.sets.placed = [] := by rw [hfr]; exact hpl
    have hfe : v.fe = u.fe := by rw [hfr]
    refine ⟨_, congrArg (ev s) he, hsr, hlast, hpos, hnone, her, hpu.trans (by simp), fun hp ch hch hl => ?_⟩
    obtain ⟨hhist, hodd, hcut, hfade, hqueued, hbank⟩ := hchan hp ch hch hl
    have hc : chan (settle s v) ch = chan u ch := by show tget {} v.fe.chans ch = _; rw [hfe]; rfl
    rw [hc]
    exact ⟨hhist, hodd, hcut, hfade, hqueued, hbank⟩

end Sys2Proof.Machine
end

section
/-! SUPPORT. What the functions of the model leave of the configuration sets (R65): combinators, outputs, jacks, sense converter,
memories and security. -/

namespace Sys2Proof.Machine

/-! ## Shapes of the model's functions -/

@[simp] theorem ite_sets {p : Prop} [Decidable p] (a b : State) : (if p then a else b).sets = if p then a.sets else b.sets := by
  split <;> rfl

@[simp] theorem foldl_sets {α : Type} {f : State → α → State} (hf : ∀ s x, (f s x).sets = s.sets) (l : List α) (s : State) :
    (l.foldl f s).sets = s.sets := by
  induction l generalizing s with
  | nil => rfl
  | cons x l ih => rw [List.foldl_cons, ih, hf]

@[simp] theorem ite_s {p : Prop} [Decidable p] (a b : Ans) : (if p then a else b).s = if p then a.s else b.s := by
  split <;> rfl

@[simp] theorem yes_s (s : State) (r : List Word) : (yes s r).s = s := rfl
@[simp] theorem no_s (c : Status) (s : State) : (no c s).s = s := rfl

@[simp] theorem ite_snd_sets {α : Type} {p : Prop} [Decidable p] (a b : α × State) :
    (if p then a else b).2.sets = if p then a.2.sets else b.2.sets := by
  split <;> rfl

theorem OutsOnly.sets {s t : State} (h : OutsOnly s t) : t.sets = s.sets := by rw [h]

/-! ## Outputs (R265–R285) -/

@[simp] theorem unmute_sets (d : Nat) (s : State) : (unmute d s).sets = s.sets := rfl
@[simp] theorem sequenceStart_sets (d : Nat) (s : State) : (sequenceStart d s).sets = s.sets := by simp [sequenceStart]
@[simp] theorem startEvent_sets (d : Nat) (s : State) : (startEvent d s).sets = s.sets := (startEvent_outsOnly d s).sets
@[simp] theorem stopEvent_sets (d : Nat) (s : State) : (stopEvent d s).sets = s.sets := by unfold stopEvent; split <;> simp
@[simp] theorem clampNow_sets (d : Nat) (s : State) : (clampNow d s).sets = s.sets := rfl

@[simp] theorem clampAll_sets (s : State) : (clampAll s).sets = s.sets := by
  unfold clampAll
  exact foldl_sets (by simp) _ _

@[simp] theorem startAll_sets (s : State) : (startAll s).sets = s.sets := by simp [startAll]
@[simp] theorem stopAll_sets (s : State) : (stopAll s).sets = s.sets := by simp [stopAll]
@[simp] theorem startJack_sets (n : Nat) (s : State) : (startJack n s).sets = s.sets := by simp [startJack]
@[simp] theorem stopJack_sets (n : Nat) (s : State) : (stopJack n s).sets = s.sets := by simp [stopJack]
@[simp] theorem clampJack_sets (n : Nat) (s : State) : (clampJack n s).sets = s.sets := rfl
@[simp] theorem outDiffOne_sets (o : ConfigSet) (s : State) (d : Nat) : (outDiffOne o s d).sets = s.sets := by simp [outDiffOne]
@[simp] theorem outDiff_sets (o : ConfigSet) (s : State) : (outDiff o s).sets = s.sets := by simp [outDiff]
@[simp] theorem pumpSoftStartDone_sets (n : Nat) (s : State) : (pumpSoftStartDone n s).sets = s.sets := by simp [pumpSoftStartDone]
@[simp] theorem servoDone_sets (d : Nat) (trim : Int) (s : State) : (servoDone d trim s).sets = s.sets := by simp [servoDone]
@[simp] theorem speakerUnmuteStart_sets (d : Nat) (s : State) : (speakerUnmuteStart d s).sets = s.sets := by simp [speakerUnmuteStart]
@[simp] theorem unmuteRampEnd_sets (d : Nat) (s : State) : (unmuteRampEnd d s).sets = s.sets := by simp [unmuteRampEnd]
@[simp] theorem resetRest_sets (s : State) : (resetRest s).sets = s.sets := by simp [resetRest]
@[simp] theorem muteRampEnd_sets (d : Nat) (s : State) : (muteRampEnd d s).sets = s.sets := by simp [muteRampEnd]
@[simp] theorem pumpStop_sets (n : Nat) (s : State) : (pumpStop n s).sets = s.sets := by simp [pumpStop]
@[simp] theorem vcmReturn_sets (s : State) : (vcmReturn s).sets = s.sets := by unfold vcmReturn; split <;> simp

@[simp] theorem vcmRampEnd_sets (s : State) : (vcmRampEnd s).sets = s.sets := by
  unfold vcmRampEnd
  split
  · split
    · rfl
    · exact foldl_sets (by simp) _ _
    all_goals rfl
  · rfl

@[simp] theorem classgHigh_sets (n : Nat) (s : State) : (classgHigh n s).sets = s.sets := by simp [classgHigh]
@[simp] theorem classgLow_sets (n : Nat) (s : State) : (classgLow n s).sets = s.sets := by simp [classgLow]
@[simp] theorem finalStep_sets (d phase : Nat) (s : State) : (finalStep d phase s).sets = s.sets := by simp [finalStep]

@[simp] theorem starvationFadeEnd_sets (d : Nat) (s : State) : (starvationFadeEnd d s).sets = s.sets := by
  unfold starvationFadeEnd
  split
  · rfl
  · split <;> rfl

@[simp] theorem starveStart_sets (d : Nat) (s : State) : (starveStart d s).sets = s.sets := by unfold starveStart; split <;> simp
@[simp] theorem starveEnd_sets (d : Nat) (s : State) : (starveEnd d s).sets = s.sets := by unfold starveEnd; split <;> simp
@[simp] theorem speakerOvercurrent_sets (k : Nat) (s : State) : (speakerOvercurrent k s).sets = s.sets := by simp [speakerOvercurrent]
@[simp] theorem speakerTripRestart_sets (k : Nat) (s : State) : (speakerTripRestart k s).sets = s.sets := by simp [speakerTripRestart]
@[simp] theorem speakerOvertemp_sets (code : Nat) (s : State) : (speakerOvertemp code s).sets = s.sets := by simp [speakerOvertemp]
@[simp] theorem speakerTempRecover_sets (code : Nat) (s : State) : (speakerTempRecover code s).sets = s.sets := by simp [speakerTempRecover]

/-! ## The millrace (R206–R211) -/

@[simp] theorem tapFollow_sets (before : State) (s : State) (t : Nat) : (tapFollow before s t).sets = s.sets := by
  unfold tapFollow
  dsimp only
  split
  · rfl
  · split
    · rfl
    · split <;> rfl

@[simp] theorem tapsFollow_sets (before s : State) : (tapsFollow before s).sets = s.sets := by simp [tapsFollow]
@[simp] theorem assignDiff_sets (o : ConfigSet) (s : State) : (assignDiff o s).sets = s.sets := rfl
@[simp] theorem mrDiff_sets (o : ConfigSet) (s : State) : (mrDiff o s).sets = s.sets := by simp [mrDiff]

@[simp] theorem tapRampEnd_sets (what : TapRamp) (s : State) : (tapRampEnd what s).sets = s.sets := by
  unfold tapRampEnd
  split
  · dsimp only
    split
    · rfl
    · split <;> rfl
  · split <;> rfl
  · split <;> rfl

@[simp] theorem modStep_sets (ch : Nat) (codes : List Int) (s : State) : (modStep ch codes s).sets = s.sets := by simp [modStep]

/-! ## Jobs, flags and free values (R58, log entry 2) -/

theorem checks_sets {s : State} {l : List (Bool × Status)} {k : Ans} (h : k.s.sets = s.sets) : (checks s l k).s.sets = s.sets := by
  rcases checks_cases s l k with h1 | ⟨st, h1⟩
  · rw [h1]; exact h
  · rw [h1]; rfl

@[simp] theorem no_sets (c : Status) (s : State) : (no c s).s.sets = s.sets := rfl
@[simp] theorem drawWord_sets (s : State) : (drawWord s).2.sets = s.sets := rfl
@[simp] theorem drawWords_sets (n : Nat) (s : State) : (drawWords n s).2.sets = s.sets := by rw [drawWords_free]
@[simp] theorem drawIn_sets (lo hi : Int) (s : State) : (drawIn lo hi s).2.sets = s.sets := rfl

/-! ## The sense converter (R299–R314) -/

@[simp] theorem senseResult_sets (ch src gain code : Nat) (s : State) : (senseResult ch src gain code s).sets = s.sets := rfl
@[simp] theorem urgentMeets_sets (s : State) : (urgentMeets s).2.sets = s.sets := by simp [urgentMeets]
@[simp] theorem dropUrgent_sets (s : State) : (dropUrgent s).sets = s.sets := rfl

@[simp] theorem detectionRead_sets (ch gain code : Nat) (s : State) :
    (detectionRead ch gain code s).2.sets = s.sets := by simp [detectionRead]

@[simp] theorem urgentComplete_sets (s : State) : (urgentComplete s).sets = s.sets := rfl
@[simp] theorem scanHold_sets (s : State) : (scanHold s).sets = s.sets := by simp [scanHold]
@[simp] theorem sequenceStartSense_sets (s : State) : (sequenceStartSense s).sets = s.sets := by simp [sequenceStartSense]
@[simp] theorem senseTrigEdge_sets (rising : Bool) (s : State) : (senseTrigEdge rising s).sets = s.sets := by simp [senseTrigEdge]

@[simp] theorem sequenceEntryComplete_sets (code : Nat) (s : State) :
    (sequenceEntryComplete code s).sets = s.sets := by unfold sequenceEntryComplete; split <;> simp

@[simp] theorem watchConversion_sets (code : Nat) (s : State) : (watchConversion code s).sets = s.sets := by
  unfold watchConversion
  dsimp only
  split
  · split <;> simp
  · rfl

@[simp] theorem senseStop_sets (s : State) : (senseStop s).sets = s.sets := rfl

@[simp] theorem bodySenseSeq_sets (a : CmdArgs) (s : State) : (bodySenseSeq a s).s.sets = s.sets := by
  unfold bodySenseSeq
  exact checks_sets (by simp)

@[simp] theorem bodySenseStart_sets (_a : CmdArgs) (s : State) : (bodySenseStart _a s).s.sets = s.sets := by
  unfold bodySenseStart
  exact checks_sets (by simp)

@[simp] theorem bodySenseNow_sets (a : CmdArgs) (s : State) : (bodySenseNow a s).s.sets = s.sets := by
  unfold bodySenseNow
  refine checks_sets ?_
  dsimp only
  split <;> simp

@[simp] theorem bodySenseWatch_sets (a : CmdArgs) (s : State) : (bodySenseWatch a s).s.sets = s.sets := by
  unfold bodySenseWatch
  exact checks_sets (by simp)

/-! ## Jacks and the emergency mute (R214–R216, R286–R298) -/

@[simp] theorem jackEvent_sets (s : State) : (jackEvent s).sets = s.sets := by simp [jackEvent]
@[simp] theorem unmuteJack_sets (n : Nat) (s : State) : (unmuteJack n s).sets = s.sets := by simp [unmuteJack]
@[simp] theorem hpdetChange_sets (n : Nat) (level : Bool) (s : State) : (hpdetChange n level s).sets = s.sets := by simp [hpdetChange]
@[simp] theorem jackMuteAutoRelease_sets (n : Nat) (s : State) : (jackMuteAutoRelease n s).sets = s.sets := by simp [jackMuteAutoRelease]
@[simp] theorem insertionConfirmed_sets (n : Nat) (s : State) : (insertionConfirmed n s).sets = s.sets := by simp [insertionConfirmed]
@[simp] theorem abandonClass_sets (n : Nat) (s : State) : (abandonClass n s).sets = s.sets := by simp [abandonClass]

@[simp] theorem holdClass_sets (s : State) : (holdClass s).sets = s.sets := by
  refine foldl_sets (fun s n => ?_) _ s
  split <;> simp

@[simp] theorem removalConfirmed_sets (n : Nat) (s : State) : (removalConfirmed n s).sets = s.sets := by simp [removalConfirmed]
@[simp] theorem classificationStart_sets (n : Nat) (s : State) : (classificationStart n s).sets = s.sets := by simp [classificationStart]
@[simp] theorem classEnd_sets (n : Nat) (cls : BitVec 3) (s : State) : (classEnd n cls s).sets = s.sets := by simp [classEnd]
@[simp] theorem readDropped_sets (n : Nat) (s : State) : (readDropped n s).sets = s.sets := rfl
@[simp] theorem tipDone_sets (n code : Nat) (s : State) : (tipDone n code s).sets = s.sets := by simp [tipDone]
@[simp] theorem micADone_sets (n code : Nat) (s : State) : (micADone n code s).sets = s.sets := rfl
@[simp] theorem classRead_sets (n code : Nat) (s : State) : (classRead n code s).sets = s.sets := by unfold classRead; split <;> simp
@[simp] theorem tipRead_sets (n code : Nat) (s : State) : (tipRead n code s).sets = s.sets := by simp [tipRead]
@[simp] theorem micReadA_sets (n code : Nat) (s : State) : (micReadA n code s).sets = s.sets := by simp [micReadA]
@[simp] theorem micReadB_sets (n code : Nat) (s : State) : (micReadB n code s).sets = s.sets := by simp [micReadB]

@[simp] theorem classificationTimeout_sets (n : Nat) (s : State) :
    (classificationTimeout n s).sets = s.sets := by unfold classificationTimeout; dsimp only; split <;> simp

@[simp] theorem buttonCount_sets (n code : Nat) (s : State) : (buttonCount n code s).sets = s.sets := by simp [buttonCount]
@[simp] theorem buttonRead_sets (n code : Nat) (s : State) : (buttonRead n code s).sets = s.sets := by simp [buttonRead]
@[simp] theorem buttonSample_sets (n code : Nat) (s : State) : (buttonSample n code s).sets = s.sets := by simp [buttonSample]
@[simp] theorem detectionReissue_sets (n code : Nat) (s : State) : (detectionReissue n code s).sets = s.sets := by simp [detectionReissue]
@[simp] theorem jackApply_sets (n : Nat) (w : JackWord) (s : State) : (jackApply n w s).sets = s.sets := by simp [jackApply]

@[simp] theorem bodyJackCfg_sets (a : CmdArgs) (s : State) : (bodyJackCfg a s).s.sets = s.sets := by
  unfold bodyJackCfg
  dsimp only
  split <;> exact checks_sets (by simp)

@[simp] theorem bodyMicbias_sets (a : CmdArgs) (s : State) : (bodyMicbias a s).s.sets = s.sets := by
  unfold bodyMicbias
  exact checks_sets (by simp)

@[simp] theorem panicAssert_sets (s : State) : (panicAssert s).sets = s.sets := by
  unfold panicAssert
  split
  · rw [raiseIrq_sets, clampAll_sets]; exact holdClass_sets s
  · rfl

@[simp] theorem panicSample_sets (s : State) : (panicSample s).sets = s.sets := by simp [panicSample]

@[simp] theorem bodyPanicCfg_sets (a : CmdArgs) (s : State) : (bodyPanicCfg a s).s.sets = s.sets := by
  unfold bodyPanicCfg
  dsimp only
  split
  · refine checks_sets ?_
    split
    · simp
    · split <;> simp
  · exact checks_sets (by simp)

/-! ## Memories and the errors of their beats (R365, R366) -/

/-- Where an error of HDMA or another master meets a beat. -/
theorem beatUpset_sets {m : Nat} {s t : State} {e : BeatErr} (h : beatUpset m s = some (e, t)) : t.sets = s.sets := by
  unfold beatUpset at h
  split at h
  · cases h; simp
  · split at h
    · cases h; simp
    · cases h

theorem beatLost_sets {m k a : Nat} {w : Bool} {s t : State} (h : beatLost m k w a s = some t) : t.sets = s.sets := by
  unfold beatLost at h
  cases hb : beatUpset m s with
  | none => rw [hb] at h; cases h
  | some x =>
    obtain ⟨e, u⟩ := x
    rw [hb] at h
    cases h
    simp [beatUpset_sets hb]

@[simp] theorem cutShort_sets (ms : List InFlight) (s : State) :
    (cutShort ms s).sets = s.sets := by unfold cutShort; dsimp only; split <;> simp

@[simp] theorem waitLock_sets (p : Nat → Bool) (s : State) : (waitLock p s).sets = s.sets := by unfold waitLock; split <;> simp
@[simp] theorem waitPoint_sets (p : Nat) (s : State) : (waitPoint p s).sets = s.sets := by simp [waitPoint]
@[simp] theorem logCodeRow_sets (n a : Nat) (s : State) : (logCodeRow n a s).sets = s.sets := by unfold logCodeRow; split <;> simp
@[simp] theorem logUndoBuffer_sets (source n : Nat) (s : State) : (logUndoBuffer source n s).sets = s.sets := by simp [logUndoBuffer]

/-! ## Self-tests, classification and the patrol (R429–R450) -/

@[simp] theorem raiseNotice_sets (n : Nat) (s : State) : (raiseNotice n s).sets = s.sets := by simp [raiseNotice]
@[simp] theorem repairRow_sets (site bank row : Nat) (s : State) : (repairRow site bank row s).sets = s.sets := by simp [repairRow]

@[simp] theorem classifySite_sets (site : Nat) (passed : Bool) (s : State) :
    (classifySite site passed s).sets = s.sets := by simp [classifySite]

@[simp] theorem targetedSelftest_sets (s : State) : (targetedSelftest s).sets = s.sets := by
  unfold targetedSelftest
  split
  · split <;> rfl
  · rfl

@[simp] theorem targetedComplete_sets (reading : TestReading) (s : State) : (targetedComplete reading s).sets = s.sets := by
  unfold targetedComplete
  split
  · split
    · split
      · dsimp only
        rw [classifySite_sets]
        dsimp only
        split
        · next h => rw [beatLost_sets h, waitLock_sets]
        · rw [waitLock_sets]
      · rfl
    · rfl
  · rfl

@[simp] theorem bodyFaultRead_sets (a : CmdArgs) (s : State) : (bodyFaultRead a s).s.sets = s.sets := by
  unfold bodyFaultRead
  exact checks_sets (by simp)

@[simp] theorem bodyFaultClear_sets (_a : CmdArgs) (s : State) : (bodyFaultClear _a s).s.sets = s.sets := by
  unfold bodyFaultClear
  exact checks_sets (by simp)

@[simp] theorem eccWriteback_sets (a : Nat) (s : State) : (eccWriteback a s).sets = s.sets := by simp [eccWriteback]
@[simp] theorem sampleLost_sets (w : Nat) (s : State) : (sampleLost w s).sets = s.sets := by simp [sampleLost]
@[simp] theorem retSet_sets (k : Nat) (w : Word) (s : State) : (retSet k w s).sets = s.sets := by simp [retSet]
@[simp] theorem retPut_sets (a : Nat) (w : Word) (s : State) : (retPut a w s).sets = s.sets := by simp [retPut]
@[simp] theorem markLost_sets (a : Nat) (s : State) : (markLost a s).sets = s.sets := by simp [markLost]

@[simp] theorem patrolBeat_sets (s : State) : (patrolBeat s).sets = s.sets := by
  unfold patrolBeat
  split
  · rfl
  · dsimp only
    split
    · next h => rw [beatLost_sets h]; simp
    · simp

@[simp] theorem bodySelftest_sets (a : CmdArgs) (s : State) : (bodySelftest a s).s.sets = s.sets := by
  unfold bodySelftest
  exact checks_sets (by simp)

/-! ## The margin planner and AVS (R394, R442–R452) -/

@[simp] theorem avsDisable_sets (s : State) : (avsDisable s).sets = s.sets := by unfold avsDisable; rfl
@[simp] theorem avsEntry_sets (addr : Nat) (s : State) : (avsEntry addr s).sets = s.sets := by simp [avsEntry]

@[simp] theorem bodyAvsCfg_sets (a : CmdArgs) (s : State) : (bodyAvsCfg a s).s.sets = s.sets := by
  unfold bodyAvsCfg
  exact checks_sets (by simp)

@[simp] theorem avsStep_sets (s : State) : (avsStep s).sets = s.sets := by simp [avsStep]
@[simp] theorem avsFail_sets (s : State) : (avsFail s).sets = s.sets := by simp [avsFail]

@[simp] theorem avsVerify_sets (read : Option Nat) (s : State) : (avsVerify read s).sets = s.sets := by
  unfold avsVerify
  dsimp only
  split
  · split
    · simp
    · split
      · rfl
      · split <;> simp
  · rfl

@[simp] theorem gaugeMargin_sets (m : PlannerMeas) (s : State) : (gaugeMargin m s).2.sets = s.sets := by simp [gaugeMargin]
@[simp] theorem plannerRun_sets (m : PlannerMeas) (s : State) : (plannerRun m s).sets = s.sets := by simp [plannerRun]

@[simp] theorem bodyMarginRead_sets (a : CmdArgs) (s : State) : (bodyMarginRead a s).s.sets = s.sets := by
  unfold bodyMarginRead
  exact checks_sets (by simp)

@[simp] theorem derateAtStart_sets (restWake : Bool) (s : State) : (derateAtStart restWake s).sets = s.sets := by simp [derateAtStart]

/-! ## OTP, lifecycle and the DRBG (R399–R406) -/

theorem secAns_sets {x : Ans} {s : State} (h : x.s.sets = s.sets) : (secAns x s).s.sets = s.sets := by
  unfold secAns
  split
  · exact h
  · split
    · exact h
    · next hb => exact beatLost_sets hb

@[simp] theorem drbgWords_sets (n : Nat) (s : State) : (drbgWords n s).2.sets = s.sets := by rw [drbgWords_frame]
@[simp] theorem drawScalar_sets (s : State) : (drawScalar s).2.sets = s.sets := by simp [drawScalar]
@[simp] theorem attestSign_sets (m : List Byte) (s : State) : (attestSign m s).2.sets = s.sets := by simp [attestSign]

@[simp] theorem otpCommit_sets (item index n : Nat) (f : Otp → Otp) (u : List Word → Otp → Otp) (res : Otp → List Word) (s : State) :
    (otpCommit item index n f u res s).s.sets = s.sets := by
  unfold otpCommit
  dsimp only
  split
  · simp
  · simp only [no_s, logFault_sets]
    split <;> simp

@[simp] theorem bodyOtpWrite_sets (a : CmdArgs) (s : State) : (bodyOtpWrite a s).s.sets = s.sets := by
  unfold bodyOtpWrite
  exact checks_sets (by simp)

@[simp] theorem bodyLifecycle_sets (a : CmdArgs) (s : State) : (bodyLifecycle a s).s.sets = s.sets := by
  unfold bodyLifecycle
  refine checks_sets ?_
  split
  · rfl
  · exact checks_sets rfl

@[simp] theorem bodyKeyRevoke_sets (a : CmdArgs) (s : State) : (bodyKeyRevoke a s).s.sets = s.sets := by
  unfold bodyKeyRevoke
  exact checks_sets (by simp)

@[simp] theorem bodyCertRead_sets (a : CmdArgs) (s : State) : (bodyCertRead a s).s.sets = s.sets := by
  unfold bodyCertRead
  exact checks_sets (by simp)

/-! ## Sessions, debug unlock and the TAP (R413–R418) -/

@[simp] theorem sharedSecret_sets (d : Nat) (key : List Word) (s : State) : (sharedSecret d key s).2.sets = s.sets := by
  unfold sharedSecret
  dsimp only
  split <;> simp

@[simp] theorem openSession_sets (c qh nh : List Word) (s : State) : (openSession c qh nh s).s.sets = s.sets := by
  unfold openSession
  dsimp only
  split <;> simp

@[simp] theorem bodySessionOpen_sets (a : CmdArgs) (s : State) : (bodySessionOpen a s).s.sets = s.sets := by
  unfold bodySessionOpen
  exact checks_sets (by simp)

@[simp] theorem bodySessionClose_sets (_a : CmdArgs) (s : State) : (bodySessionClose _a s).s.sets = s.sets := rfl

@[simp] theorem bodyDebugChal_sets (_a : CmdArgs) (s : State) : (bodyDebugChal _a s).s.sets = s.sets := by
  unfold bodyDebugChal
  exact checks_sets (by simp)

@[simp] theorem bodyDebugResp_sets (a : CmdArgs) (s : State) : (bodyDebugResp a s).s.sets = s.sets := by
  unfold bodyDebugResp
  exact checks_sets (by simp)

@[simp] theorem challengeExpiry_sets (s : State) : (challengeExpiry s).sets = s.sets := by unfold challengeExpiry; split <;> simp
@[simp] theorem tap_sets (j : Jtag) (tdo : Word) (s : State) : (tap j tdo s).sets = s.sets := by simp [tap]
@[simp] theorem tapSample_sets (boundary : Word) (s : State) : (tapSample boundary s).sets = s.sets := by simp [tapSample]
@[simp] theorem tapExtest_sets (s : State) : (tapExtest s).sets = s.sets := by simp [tapExtest]

end Sys2Proof.Machine
end

section
/-! SUPPORT. The configuration sets are kept: the front end, calibration, matrix and seals. -/

namespace Sys2Proof.Machine

/-! ## The capture point (R163, R175) -/

@[simp] theorem moveFrom_sets (ch : Nat) (old : Corr) (s : State) : (moveFrom ch old s).sets = s.sets := by simp [moveFrom]
@[simp] theorem moveAll_sets (before s : State) : (moveAll before s).sets = s.sets := by simp [moveAll]

@[simp] theorem calNote_sets (ch : Nat) (frame : Bool) (e o : Option Int) (t : BitVec 4) (s : State) :
    (calNote ch frame e o t s).sets = s.sets := by simp [calNote]

@[simp] theorem captureAin_sets (ch : Nat) (frame : Bool) (even odd : List Int) (s : State) :
    (captureAin ch frame even odd s).2.sets = s.sets := by simp [captureAin]

@[simp] theorem feedDet_sets (n hz : Nat) (x : Sample) (s : State) : (feedDet n hz x s).sets = s.sets := rfl
@[simp] theorem feedAin_sets (ch : Nat) (x : Sample) (s : State) : (feedAin ch x s).sets = s.sets := by simp [feedAin]
@[simp] theorem meterUpdate_sets (s : State) : (meterUpdate s).sets = s.sets := by simp [meterUpdate]

/-! ## The analogue front end (R122–R144) -/

@[simp] theorem noteRelease_sets (ch : Nat) (s : State) : (noteRelease ch s).sets = s.sets := by simp [noteRelease]
@[simp] theorem startChan_sets (ch : Nat) (s : State) : (startChan ch s).sets = s.sets := rfl
@[simp] theorem beginChan_sets (ch : Nat) (s : State) : (beginChan ch s).sets = s.sets := by simp [beginChan]
@[simp] theorem fadeRequest_sets (ch b : Nat) (s : State) : (fadeRequest ch b s).sets = s.sets := rfl
@[simp] theorem gainRequest_sets (ch g : Nat) (s : State) : (gainRequest ch g s).sets = s.sets := rfl
@[simp] theorem recordStep_sets (ch : Nat) (changes : Bool) (s : State) : (recordStep ch changes s).sets = s.sets := by simp [recordStep]
@[simp] theorem chanDiff_sets (o : ConfigSet) (s : State) (ch : Nat) : (chanDiff o s ch).sets = s.sets := by simp [chanDiff]
@[simp] theorem feDiff_sets (o : ConfigSet) (s : State) : (feDiff o s).sets = s.sets := by simp [feDiff]
@[simp] theorem calBreak_sets (chs : List Nat) (s : State) : (calBreak chs s).sets = s.sets := by simp [calBreak]
@[simp] theorem rampBank_sets (b : Nat) (s : State) : (rampBank b s).sets = s.sets := by simp [rampBank]
@[simp] theorem refOnBank_sets (s : State) (b : Nat) : (refOnBank s b).sets = s.sets := by simp [refOnBank]
@[simp] theorem refUnpower_sets (b : Nat) (s : State) : (refUnpower b s).sets = s.sets := rfl
@[simp] theorem refOffBank_sets (s : State) (b : Nat) : (refOffBank s b).sets = s.sets := by simp [refOffBank]

@[simp] theorem bodyRefOn_sets (a : CmdArgs) (s : State) : (bodyRefOn a s).s.sets = s.sets := by
  unfold bodyRefOn
  exact checks_sets (by simp)

@[simp] theorem bodyRefOff_sets (a : CmdArgs) (s : State) : (bodyRefOff a s).s.sets = s.sets := by
  unfold bodyRefOff
  exact checks_sets (by simp)

@[simp] theorem refReady_sets (b tol : Nat) (s : State) : (refReady b tol s).sets = s.sets := by simp [refReady]
@[simp] theorem channelStart_sets (ch : Nat) (s : State) : (channelStart ch s).sets = s.sets := by simp [channelStart]
@[simp] theorem refSettleLate_sets (b : Nat) (s : State) : (refSettleLate b s).sets = s.sets := by simp [refSettleLate]
@[simp] theorem refOutOfTolerance_sets (b : Nat) (s : State) : (refOutOfTolerance b s).sets = s.sets := by simp [refOutOfTolerance]
@[simp] theorem bufferOff_sets (b : Nat) (s : State) : (bufferOff b s).sets = s.sets := by simp [bufferOff]

@[simp] theorem gainSwitch_sets (ch : Nat) (crossing : Bool) (s : State) :
    (gainSwitch ch crossing s).sets = s.sets := by unfold gainSwitch; dsimp only; split <;> simp

@[simp] theorem setOvrBit_sets (ch : Nat) (s : State) : (setOvrBit ch s).sets = s.sets := by simp [setOvrBit]
@[simp] theorem flagNeighbours_sets (ch : Nat) (s : State) : (flagNeighbours ch s).sets = s.sets := by simp [flagNeighbours]
@[simp] theorem overloadTrip_sets (ch0 : Nat) (s : State) : (overloadTrip ch0 s).sets = s.sets := by simp [overloadTrip]
@[simp] theorem overloadRelease_sets (ch0 : Nat) (s : State) : (overloadRelease ch0 s).sets = s.sets := by simp [overloadRelease]

@[simp] theorem modulatorInstability_sets (ch0 : Nat) (s : State) :
    (modulatorInstability ch0 s).sets = s.sets := by simp [modulatorInstability]

@[simp] theorem modulatorRecovery_sets (ch0 : Nat) (s : State) : (modulatorRecovery ch0 s).sets = s.sets := by simp [modulatorRecovery]
@[simp] theorem neighbourSetEnd_sets (ch : Nat) (s : State) : (neighbourSetEnd ch s).sets = s.sets := by simp [neighbourSetEnd]

@[simp] theorem coefficientMoveEnd_sets (ch : Nat) (s : State) :
    (coefficientMoveEnd ch s).sets = s.sets := by unfold coefficientMoveEnd; split <;> simp

@[simp] theorem fadeEnd_sets (ch : Nat) (s : State) : (fadeEnd ch s).sets = s.sets := by unfold fadeEnd; split <;> simp

@[simp] theorem queuedFadeStart_sets (ch : Nat) (s : State) :
    (queuedFadeStart ch s).sets = s.sets := by unfold queuedFadeStart; dsimp only; split <;> simp

@[simp] theorem chanSync_sets (s : State) (ch : Nat) : (chanSync s ch).sets = s.sets := by simp [chanSync]
@[simp] theorem feSync_sets (s : State) : (feSync s).sets = s.sets := by simp [feSync]

/-! ## Calibration (R145–R161) -/

@[simp] theorem calStart_sets (op : Nat) (m : Word) (j : Job) (s : State) : (calStart op m j s).s.sets = s.sets := by simp [calStart]

@[simp] theorem bodyCalZ_sets (a : CmdArgs) (s : State) : (bodyCalZ a s).s.sets = s.sets := by
  unfold bodyCalZ
  exact checks_sets (by simp)

@[simp] theorem bodyCalF_sets (a : CmdArgs) (s : State) : (bodyCalF a s).s.sets = s.sets := by
  unfold bodyCalF
  exact checks_sets (by simp)

@[simp] theorem writeDOffset_sets (s : State) (x : CalMeas) : (writeDOffset s x).sets = s.sets := by simp [writeDOffset]
@[simp] theorem zWrite_sets (s : State) (x : CalMeas) : (zWrite s x).sets = s.sets := by simp [zWrite]
@[simp] theorem fWrite_sets (level : Int) (s : State) (x : CalMeas) : (fWrite level s x).sets = s.sets := by simp [fWrite]

theorem calEnd_sets {l : List CalMeas} {bad : CalMeas → Bool} {level : CalMeas → Word} {write : State → CalMeas → State}
    (hw : ∀ s x, (write s x).sets = s.sets) (s : State) : (calEnd l bad level write s).sets = s.sets := by
  unfold calEnd
  dsimp only
  split
  · simp
  · split
    · rw [finishJob_sets]; exact foldl_sets (by simp) _ _
    · split
      · simp
      · rw [finishJob_sets, moveAll_sets]; exact foldl_sets hw _ _

@[simp] theorem calZComplete_sets (meas : List CalMeas) (s : State) : (calZComplete meas s).sets = s.sets := by
  unfold calZComplete
  split
  · split
    · dsimp only
      split <;> exact calEnd_sets (by simp) s
    · rfl
  · rfl

@[simp] theorem calFComplete_sets (meas : List CalMeas) (s : State) : (calFComplete meas s).sets = s.sets := by
  unfold calFComplete
  split
  · split
    · exact calEnd_sets (by simp) s
    · rfl
  · rfl

@[simp] theorem takeSnapshot_sets (s : State) : (takeSnapshot s).sets = s.sets := by simp [takeSnapshot]

@[simp] theorem bodyCalExport_sets (a : CmdArgs) (s : State) : (bodyCalExport a s).s.sets = s.sets := by
  unfold bodyCalExport
  refine checks_sets ?_
  dsimp only
  split <;> simp

@[simp] theorem importCommit_sets (h : List Word) (s : State) : (importCommit h s).s.sets = s.sets := by simp [importCommit]

@[simp] theorem bodyCalImport_sets (a : CmdArgs) (s : State) : (bodyCalImport a s).s.sets = s.sets := by
  unfold bodyCalImport
  exact checks_sets (by simp)

@[simp] theorem bodyCalFactory_sets (a : CmdArgs) (s : State) : (bodyCalFactory a s).s.sets = s.sets := by
  unfold bodyCalFactory
  exact checks_sets (by simp)

/-! ## The confluence matrix (R190–R202) -/

@[simp] theorem writeLane_sets (lane : Nat) (x : Sample) (s : State) : (writeLane lane x s).sets = s.sets := rfl

@[simp] theorem laneWriteLost_sets (lane : Nat) (x : Sample) (s : State) :
    (laneWriteLost lane x s).2.sets = s.sets := by simp [laneWriteLost]

@[simp] theorem matrixSample_sets (ol hz : Nat) (s : State) : (matrixSample ol hz s).2.sets = s.sets := by simp [matrixSample]
@[simp] theorem nodeDiff_sets (o : ConfigSet) (s : State) (n : Nat) : (nodeDiff o s n).sets = s.sets := by simp [nodeDiff]
@[simp] theorem weirDiff_sets (o : ConfigSet) (s : State) (ol : Nat) : (weirDiff o s ol).sets = s.sets := by simp [weirDiff]
@[simp] theorem mtxDiff_sets (o : ConfigSet) (s : State) : (mtxDiff o s).sets = s.sets := by simp [mtxDiff]
@[simp] theorem mtxReset_sets (s : State) : (mtxReset s).sets = s.sets := rfl
@[simp] theorem nodeRampEnd_sets (il ol : Nat) (s : State) : (nodeRampEnd il ol s).sets = s.sets := by unfold nodeRampEnd; split <;> simp

/-! ## The filter commands (R182–R188) -/

@[simp] theorem putBank_sets (b : Nat) (k : FirBank) (s : State) : (putBank b k s).sets = s.sets := by simp [putBank]

@[simp] theorem bodyFirWrite_sets (a : CmdArgs) (s : State) : (bodyFirWrite a s).s.sets = s.sets := by
  unfold bodyFirWrite
  dsimp only
  split <;> exact checks_sets (by simp)

@[simp] theorem setDet_sets (v : Word) (s : State) (n : Nat) : (setDet v s n).sets = s.sets := rfl

@[simp] theorem bodyDetCfg_sets (a : CmdArgs) (s : State) : (bodyDetCfg a s).s.sets = s.sets := by
  unfold bodyDetCfg
  refine checks_sets ?_
  split
  · rw [yes_s]; exact foldl_sets (by simp) _ _
  · rfl

@[simp] theorem clearDet_sets (s : State) (n : Nat) : (clearDet s n).sets = s.sets := rfl

@[simp] theorem bodyDetRead_sets (a : CmdArgs) (s : State) : (bodyDetRead a s).s.sets = s.sets := by
  unfold bodyDetRead
  refine checks_sets ?_
  split
  · rw [yes_s, ite_sets, foldl_sets (by simp), ite_self]
  · rfl

@[simp] theorem detCapture_sets (n : Nat) (s : State) : (detCapture n s).sets = s.sets := rfl

/-! ## Seal records (R419–R422) -/

@[simp] theorem pushRecord_sets (sid : Nat) (ws : List Word) (s : State) : (pushRecord sid ws s).sets = s.sets := by simp [pushRecord]
@[simp] theorem sealOverflow_sets (sid : Nat) (s : State) : (sealOverflow sid s).sets = s.sets := by simp [sealOverflow]
@[simp] theorem blockEnd_sets (sid : Nat) (s : State) : (blockEnd sid s).sets = s.sets := by simp [blockEnd]

@[simp] theorem sealCheck_sets (sid : Nat) (s : State) : (sealCheck sid s).sets = s.sets := by
  unfold sealCheck
  dsimp only
  split
  · simp
  · split
    · next hb => simp [beatUpset_sets hb]
    · rfl

@[simp] theorem sealSample_sets (f seqNo : Nat) (frame : Bool) (x : Sample) (s : State) :
    (sealSample f seqNo frame x s).sets = s.sets := by unfold sealSample; split <;> simp

@[simp] theorem sealBlockEnd_sets (sid : Nat) (s : State) : (sealBlockEnd sid s).sets = s.sets := by simp [sealBlockEnd]

/-! ## Sealed capture (R423–R426) -/

@[simp] theorem bodySealOpen_sets (a : CmdArgs) (s : State) : (bodySealOpen a s).s.sets = s.sets := by
  unfold bodySealOpen
  refine checks_sets ?_
  split
  · rfl
  · split
    · rfl
    · simp

@[simp] theorem sealBegin_sets (sid : Nat) (s : State) : (sealBegin sid s).sets = s.sets := by simp [sealBegin]
@[simp] theorem sealStart_sets (sid : Nat) (s : State) : (sealStart sid s).sets = s.sets := by simp [sealStart]
@[simp] theorem signDue_sets (sid : Nat) (s : State) : (signDue sid s).sets = s.sets := by simp [signDue]
@[simp] theorem sealSignRecord_sets (sid : Nat) (s0 : State) : (sealSignRecord sid s0).sets = s0.sets := by simp [sealSignRecord]

@[simp] theorem bodySealClose_sets (a : CmdArgs) (s : State) : (bodySealClose a s).s.sets = s.sets := by
  unfold bodySealClose
  exact checks_sets (by simp)

@[simp] theorem sealCloseRecord_sets (sid : Nat) (s : State) : (sealCloseRecord sid s).sets = s.sets := by simp [sealCloseRecord]

@[simp] theorem bodySealRead_sets (a : CmdArgs) (s : State) : (bodySealRead a s).s.sets = s.sets := by
  unfold bodySealRead
  exact checks_sets (by simp)

@[simp] theorem drbgHealthFail_sets (test : Nat) (s : State) : (drbgHealthFail test s).sets = s.sets := by simp [drbgHealthFail]

end Sys2Proof.Machine
end

section
/-! SUPPORT. The configuration sets are kept: flows, ports and the beats of the sample clocks. -/

namespace Sys2Proof.Machine

/-! ## Flow contexts (R226–R236) -/

@[simp] theorem startFlow_sets (f : Nat) (s : State) : (startFlow f s).sets = s.sets := rfl
@[simp] theorem flowDiffOne_sets (o : ConfigSet) (s : State) (f : Nat) : (flowDiffOne o s f).sets = s.sets := by simp [flowDiffOne]
@[simp] theorem flowDiff_sets (o : ConfigSet) (s : State) : (flowDiff o s).sets = s.sets := by simp [flowDiff]

@[simp] theorem restartFlows_sets (s : State) : (restartFlows s).sets = s.sets := by
  unfold restartFlows
  exact foldl_sets (by simp) _ _

@[simp] theorem slip_sets (f : Nat) (s : State) : (slip f s).sets = s.sets := by simp [slip]

/-! ## FIFOs and the ASRC (R40, R251–R254) -/

@[simp] theorem fifoPut_sets (f : Nat) (x : Sample) (s : State) : (fifoPut f x s).sets = s.sets := by simp [fifoPut]
@[simp] theorem fifoGet_sets (f : Nat) (s : State) : (fifoGet f s).2.sets = s.sets := by unfold fifoGet; dsimp only; split <;> simp

@[simp] theorem stopEndpoint_sets (p : Nat → Quad → Bool) (s : State) : (stopEndpoint p s).sets = s.sets := by
  unfold stopEndpoint
  exact foldl_sets (by simp) _ _

@[simp] theorem asrcPush_sets (f : Nat) (xs : List Sample) (s : State) : (asrcPush f xs s).sets = s.sets := rfl
@[simp] theorem asrcTake_sets (f : Nat) (s : State) : (asrcTake f s).sets = s.sets := by unfold asrcTake; split <;> simp
@[simp] theorem asrcOut_sets (f : Nat) (q : Quad) (s : State) : (asrcOut f q s).2.sets = s.sets := by simp [asrcOut]
@[simp] theorem asrcIngress_sets (f : Nat) (q : Quad) (s0 : State) : (asrcIngress f q s0).2.sets = s0.sets := by simp [asrcIngress]

@[simp] theorem holdMute_sets (f : Nat) (q : Quad) (x : Sample) (s : State) :
    (holdMute f q x s).2.sets = s.sets := by unfold holdMute; split <;> simp

@[simp] theorem silenced_sets (f : Nat) (q : Quad) (x : Sample) (s : State) : (silenced f q x s).2.sets = s.sets := by simp [silenced]

@[simp] theorem egressHop_sets (f : Nat) (q : Quad) (x : Sample) (s : State) :
    (egressHop f q x s).2.sets = s.sets := by unfold egressHop; split <;> simp

@[simp] theorem asrcFlush_sets (f : Nat) (s : State) : (asrcFlush f s).sets = s.sets := by simp [asrcFlush]

@[simp] theorem asrcMake_sets (f : Nat) (q : Quad) (n : Nat) (s : State) : (asrcMake f q n s).sets = s.sets := by
  induction n generalizing s with
  | zero => rfl
  | succ n ih => simp [asrcMake, ih]

@[simp] theorem asrcEgress_sets (f : Nat) (q : Quad) (x : Sample) (s : State) : (asrcEgress f q x s).sets = s.sets := by simp [asrcEgress]
@[simp] theorem asrcWritten_sets (f : Nat) (s : State) : (asrcWritten f s).sets = s.sets := by unfold asrcWritten; split <;> simp
@[simp] theorem endpointRead_sets (f : Nat) (s : State) : (endpointRead f s).2.sets = s.sets := by simp [endpointRead]

/-! ## The digital audio ports (R237–R255) -/

@[simp] theorem sourceStops_sets (t : Nat) (s : State) : (sourceStops t s).sets = s.sets := rfl

@[simp] theorem slotReceive_sets (p : Nat) (slots : List Word) (s : State) (f : Nat) :
    (slotReceive p slots s f).sets = s.sets := by simp [slotReceive]

@[simp] theorem deliverSlots_sets (p : Nat) (slots : List Word) (s : State) :
    (deliverSlots p slots s).sets = s.sets := by simp [deliverSlots]

@[simp] theorem frameError_sets (p : Nat) (s : State) : (frameError p s).sets = s.sets := by simp [frameError]

@[simp] theorem padSlots_sets (p : Nat) (slots : List Word) (s : State) :
    (padSlots p slots s).2.sets = s.sets := by unfold padSlots; split <;> simp

@[simp] theorem tdmFrameReceive_sets (p cycles rate : Nat) (slots : List Word) (s : State) :
    (tdmFrameReceive p cycles rate slots s).sets = s.sets := by simp [tdmFrameReceive]

@[simp] theorem tdmClockStop_sets (p : Nat) (s : State) : (tdmClockStop p s).sets = s.sets := by simp [tdmClockStop]
@[simp] theorem mastersStop_sets (s : State) : (mastersStop s).sets = s.sets := by simp [mastersStop]
@[simp] theorem tdmMasterClockStart_sets (p : Nat) (s : State) : (tdmMasterClockStart p s).sets = s.sets := by simp [tdmMasterClockStart]
@[simp] theorem slotSend_sets (p : Nat) (slot : Nat) (s : State) : (slotSend p slot s).2.sets = s.sets := by unfold slotSend; split <;> simp

@[simp] theorem slotsSend_sets (p : Nat) (l : List Nat) (s : State) : (slotsSend p l s).2.sets = s.sets := by
  induction l generalizing s with
  | nil => rfl
  | cons k ks ih => simp [slotsSend, ih]

@[simp] theorem tdmFrameSend_sets (p : Nat) (s : State) : (tdmFrameSend p s).sets = s.sets := by simp [tdmFrameSend]

@[simp] theorem bodyTdmCfg_sets (a : CmdArgs) (s : State) : (bodyTdmCfg a s).s.sets = s.sets := by
  unfold bodyTdmCfg
  dsimp only
  refine checks_sets ?_
  repeat' split
  all_goals simp

@[simp] theorem aesJudge_sets (rx : Nat) (s : State) : (aesJudge rx s).sets = s.sets := by unfold aesJudge; split <;> simp

@[simp] theorem aes3Lock_sets (rx rate : Nat) (near : Bool) (s : State) : (aes3Lock rx rate near s).sets = s.sets := by
  unfold aes3Lock
  split
  · rfl
  · split <;> simp

@[simp] theorem aesLoss_sets (count : Bool) (rx : Nat) (s : State) : (aesLoss count rx s).sets = s.sets := by unfold aesLoss; split <;> simp

@[simp] theorem aes3Subframe_sets (rx sub : Nat) (bits : BitVec 24) (v parityOk : Bool) (s : State) :
    (aes3Subframe rx sub bits v parityOk s).sets = s.sets := by unfold aes3Subframe; dsimp only; split <;> simp

@[simp] theorem aes3Block_sets (rx sub : Nat) (blk : List Word) (s : State) :
    (aes3Block rx sub blk s).sets = s.sets := by unfold aes3Block; split <;> simp

@[simp] theorem onAesTx_sets (n : Nat) (f : AesTx → AesTx) (s : State) : (onAesTx n f s).sets = s.sets := rfl
@[simp] theorem aes3Z_sets (tx : Nat) (s : State) : (aes3Z tx s).sets = s.sets := by simp [aes3Z]

@[simp] theorem subframeSample_sets (tx sub : Nat) (s : State) :
    (subframeSample tx sub s).2.sets = s.sets := by unfold subframeSample; split <;> simp

@[simp] theorem aesFrame_sets (tx : Nat) (s0 : State) : (aesFrame tx s0).sets = s0.sets := by simp [aesFrame]

@[simp] theorem bodyAesCfg_sets (a : CmdArgs) (s : State) : (bodyAesCfg a s).s.sets = s.sets := by
  unfold bodyAesCfg
  dsimp only
  refine checks_sets ?_
  repeat' split
  all_goals simp

@[simp] theorem bodyAesCs_sets (a : CmdArgs) (s : State) : (bodyAesCs a s).s.sets = s.sets := by
  unfold bodyAesCs
  dsimp only
  split
  · exact checks_sets (by simp)
  · refine checks_sets ?_
    split
    · split <;> rfl
    · rfl

@[simp] theorem bodyPdmCfg_sets (a : CmdArgs) (s : State) : (bodyPdmCfg a s).s.sets = s.sets := by
  unfold bodyPdmCfg
  dsimp only
  refine checks_sets ?_
  repeat' split
  all_goals simp

@[simp] theorem pdmClockStart_sets (k : Nat) (s : State) : (pdmClockStart k s).sets = s.sets := by simp [pdmClockStart]
@[simp] theorem onMic_sets (m : Nat) (f : PdmMic → PdmMic) (s : State) : (onMic m f s).sets = s.sets := rfl
@[simp] theorem micSample_sets (m : Nat) (bits : List Bool) (s : State) : (micSample m bits s).sets = s.sets := rfl
@[simp] theorem micTake_sets (m : Nat) (s : State) : (micTake m s).2.sets = s.sets := rfl
@[simp] theorem asrcTrackerLock_sets (t : Nat) (s : State) : (asrcTrackerLock t s).sets = s.sets := by simp [asrcTrackerLock]
@[simp] theorem asrcReacquire_sets (t : Nat) (s : State) : (asrcReacquire t s).sets = s.sets := by simp [asrcReacquire]
@[simp] theorem asrcOutOfRange_sets (t : Nat) (s : State) : (asrcOutOfRange t s).sets = s.sets := by simp [asrcOutOfRange]
@[simp] theorem portsDiff_sets (s : State) : (portsDiff s).sets = s.sets := by simp [portsDiff]

/-! ## The beats of the sample clocks (log entry 145) -/

@[simp] theorem toAsrc_sets (kind ep : Nat) (x : Sample) (s : State) : (toAsrc kind ep x s).sets = s.sets := by
  unfold toAsrc
  exact foldl_sets (by simp) _ _

@[simp] theorem cicWaits_sets (ch : Nat) (even odd : List Int) (s : State) : (cicWaits ch even odd s).sets = s.sets := by simp [cicWaits]
@[simp] theorem ainBeat_sets (ch : Nat) (even odd : List Int) (s : State) : (ainBeat ch even odd s).sets = s.sets := by simp [ainBeat]
@[simp] theorem micResumes_sets (m : Nat) (s : State) : (micResumes m s).sets = s.sets := by simp [micResumes]
@[simp] theorem lineLevels_sets (edges : List (Bool × Bool)) (s : State) : (lineLevels edges s).2.sets = s.sets := by simp [lineLevels]

@[simp] theorem pdmBeat_sets (line : Nat) (edges : List (Bool × Bool)) (s : State) : (pdmBeat line edges s).sets = s.sets := by
  unfold pdmBeat
  split
  · rw [foldl_sets _ _ _, lineLevels_sets]
    intro s x
    dsimp only
    split
    · rw [foldl_sets (by simp)]; simp
    · simp
  · rfl

@[simp] theorem dacBeat_sets (d : Nat) (s : State) : (dacBeat d s).sets = s.sets := by
  unfold dacBeat
  split
  · split
    · split <;> simp
    · split
      · simp
      · split <;> simp
  · rfl

end Sys2Proof.Machine
end

section
/-! SUPPORT. The configuration sets are kept: syllables, frames, PLLs and synchronisation. -/

namespace Sys2Proof.Machine

/-! ## Syllables (R86–R99) -/

@[simp] theorem storeWord_sets (u : Site) (delay : Bool) (idx : Nat) (w : Word) (t : BitVec 4) (s : State) :
    (storeWord u delay idx w t s).sets = s.sets := by
  unfold storeWord
  split
  · rfl
  · dsimp only
    split <;> simp

@[simp] theorem applyEff_sets (u : Site) (e : Eff) (s : State) : (applyEff u e s).sets = s.sets := by unfold applyEff; split <;> simp

/-- A bundle that issues. -/
theorem issue_sets {u : Site} {effs : List Eff} {s t : State} (h : issue u effs s = .ok t) : t.sets = s.sets := by
  unfold issue at h
  dsimp only at h
  split at h
  · cases h
    rw [onRegs_sets]
    exact foldl_sets (by simp) effs s
  · cases h

/-! ## Own parts of commands that read (R366) -/

theorem retOk_sets (want : Nat → Bool) {s : State} {k : Ans} (h : k.s.sets = s.sets) : (retOk s want k).s.sets = s.sets := by
  unfold retOk
  split
  · exact h
  · split
    · simp
    · exact h

theorem readOk_sets (addrs : List Nat) {s : State} {k : Ans} (h : k.s.sets = s.sets) : (readOk s addrs k).s.sets = s.sets := by
  unfold readOk
  split
  · exact h
  · split
    · simp
    · split
      · simp
      · exact h

/-! ## Frames of the stream cores (R91–R111) -/

@[simp] theorem rewind_sets (n : Nat) (p : Nat → Bool) (s : State) : (rewind n p s).sets = s.sets := by
  unfold rewind
  exact foldl_sets (by simp) _ _

@[simp] theorem bindChange_sets (n : Nat) (s : State) : (bindChange n s).sets = s.sets := by simp [bindChange]

@[simp] theorem undoEntries_sets (n : Nat) (es : List Undo) (s : State) : (undoEntries n es s).sets = s.sets := by
  refine foldl_sets (fun s e => ?_) es s
  dsimp only
  split <;> simp

@[simp] theorem countRollback_sets (n : Nat) (s : State) : (countRollback n s).sets = s.sets := rfl
@[simp] theorem checkpointLost_sets (n : Nat) (s : State) : (checkpointLost n s).sets = s.sets := by simp [checkpointLost]
@[simp] theorem rollback_sets (n : Nat) (s : State) : (rollback n s).sets = s.sets := by unfold rollback; dsimp only; split <;> simp
@[simp] theorem undoAll_sets (n : Nat) (failed : List BadRead) (s : State) : (undoAll n failed s).sets = s.sets := by simp [undoAll]
@[simp] theorem dataError_sets (n : Nat) (r : BadRead) (s : State) : (dataError n r s).sets = s.sets := by unfold dataError; split <;> simp
@[simp] theorem codeHalt_sets (n k b : Nat) (s : State) : (codeHalt n k b s).sets = s.sets := by simp [codeHalt]
@[simp] theorem dropSends_sets (n : Fin 4) (s : State) : (dropSends n s).sets = s.sets := rfl

/-- Induction over a structural recursion on `Nat` that stays folded. -/
theorem brecOn_induction {β : Type} (F : (t : Nat) → Nat.below (motive := fun _ => β) t → β) (P : β → Prop)
    (h0 : ∀ x, P (F 0 x)) (hs : ∀ t x, P x.1 → P (F (t + 1) x)) (t : Nat) : P (Nat.brecOn t F) := by
  induction t with
  | zero => exact h0 _
  | succ t ih => exact hs t _ ih

/-- A frame's bundles. `fetch` is kept abstract: the kernel cannot evaluate a fetch at an address that it does not know. -/
@[simp] theorem runBundles_sets (n : Fin 4) (slot fuel : Nat) (sb : List Coming) (cyc : Nat) (s : State) :
    (runBundles n slot fuel sb cyc s).1.sets = s.sets := by
  revert sb cyc s
  delta runBundles
  refine brecOn_induction (runBundles._f n slot)
    (fun g => ∀ (sb : List Coming) (cyc : Nat) (s : State), (g sb cyc s).1.sets = s.sets) ?_ ?_ fuel
  · intro x sb cyc s; rfl
  · intro t x ih sb cyc s
    delta runBundles._f
    obtain ⟨fe, hfe⟩ : ∃ fe, fe = fetch := ⟨_, rfl⟩
    rw [← hfe]
    dsimp only
    split
    · rfl
    · split
      · rfl
      · split
        · rfl
        · next hi =>
          split
          · exact issue_sets hi
          · rw [← issue_sets hi]; exact ih _ _ _

@[simp] theorem coreFrameCompute_sets (n : Fin 4) (s : State) : (coreFrameCompute n s).sets = s.sets := by
  unfold coreFrameCompute
  have hrun := runBundles_sets
  obtain ⟨rb, hrb⟩ : ∃ rb, rb = runBundles := ⟨_, rfl⟩
  rw [← hrb] at hrun ⊢
  dsimp only
  split
  · rfl
  · split
    · split
      · simp
      · split
        · simp
        · split <;> simp [hrun]
    · rfl

@[simp] theorem idleInput_sets (n : Nat) (s : State) : (idleInput n s).sets = s.sets := by simp [idleInput]

@[simp] theorem framePresentation_sets (n : Nat) (s : State) : (framePresentation n s).sets = s.sets := by
  unfold framePresentation
  dsimp only
  split
  · split
    · simp
    · split <;> simp
  · rfl

@[simp] theorem sendSample_sets (f ep : Nat) (x : Sample) (s : State) : (sendSample f ep x s).sets = s.sets := by
  unfold sendSample
  dsimp only
  split
  · rw [onCore_sets]; exact foldl_sets (by simp) _ _
  · simp

theorem onCores_sets {f : State → Nat → State} (hf : ∀ s n, (f s n).sets = s.sets) (s : State) : (onCores f s).sets = s.sets :=
  foldl_sets hf _ s

@[simp] theorem coreSync_sets (s : State) (n : Nat) : (coreSync s n).sets = s.sets := by simp [coreSync]
@[simp] theorem coreStop_sets (s : State) (n : Nat) : (coreStop s n).sets = s.sets := by simp [coreStop]
@[simp] theorem coreSleep_sets (s : State) (n : Nat) : (coreSleep s n).sets = s.sets := by simp [coreSleep]
@[simp] theorem coreResume_sets (s : State) (n : Nat) : (coreResume s n).sets = s.sets := by simp [coreResume]
@[simp] theorem coreClearDone_sets (n : Nat) (s : State) : (coreClearDone n s).sets = s.sets := by simp [coreClearDone]
@[simp] theorem codeFetchError_sets (n : Nat) (s : State) : (codeFetchError n s).sets = s.sets := by simp [codeFetchError]

@[simp] theorem coreDiffOne_sets (page : Nat → Bool) (o : ConfigSet) (s : State) (n : Nat) :
    (coreDiffOne page o s n).sets = s.sets := by simp [coreDiffOne]

@[simp] theorem coreDiff_sets (page : Nat → Bool) (o : ConfigSet) (s : State) : (coreDiff page o s).sets = s.sets := by
  unfold coreDiff
  exact foldl_sets (by simp) _ _

@[simp] theorem writePage_sets (bankB : Bool) (ops : List Word) (s : State) : (writePage bankB ops s).sets = s.sets := rfl

@[simp] theorem bodyCoreRead_sets (a : CmdArgs) (s : State) : (bodyCoreRead a s).s.sets = s.sets := by
  unfold bodyCoreRead
  exact checks_sets (readOk_sets _ rfl)

/-! ## PLLs and synchronisation (R315–R345) -/

@[simp] theorem noteTemp_sets (code : Nat) (s : State) : (noteTemp code s).sets = s.sets := rfl
@[simp] theorem tbSwitchAt_sets (temp : Option Nat) (s : State) : (tbSwitchAt temp s).sets = s.sets := by unfold tbSwitchAt; split <;> simp
@[simp] theorem tbSwitch_sets (s : State) : (tbSwitch s).sets = s.sets := by simp [tbSwitch]
@[simp] theorem tbAdvance_sets (n : Nat) (s : State) : (tbAdvance n s).sets = s.sets := by simp [tbAdvance]
@[simp] theorem foldGrowth_sets (s : State) : (foldGrowth s).sets = s.sets := by unfold foldGrowth; split <;> simp
@[simp] theorem aonCalibration_sets (xtPs rcPs : Nat) (s : State) : (aonCalibration xtPs rcPs s).sets = s.sets := by simp [aonCalibration]

@[simp] theorem aonTempSample_sets (code : Nat) (s : State) :
    (aonTempSample code s).sets = s.sets := by unfold aonTempSample; split <;> simp

@[simp] theorem xt32Oscillates_sets (on : Bool) (s : State) : (xt32Oscillates on s).sets = s.sets := by simp [xt32Oscillates]

@[simp] theorem bodyTimeRead_sets (a : CmdArgs) (s : State) : (bodyTimeRead a s).s.sets = s.sets := by
  unfold bodyTimeRead
  rw [yes_s]
  split <;> rfl

@[simp] theorem lockFreeze_sets (s : State) : (lockFreeze s).sets = s.sets := rfl

@[simp] theorem pllbStop_sets (s : State) : (pllbStop s).sets = s.sets := by
  rw [pllbStop, lockFreeze_sets, senseStop_sets, onCores_sets (by simp)]

@[simp] theorem pllbResume_sets (s : State) : (pllbResume s).sets = s.sets := by
  unfold pllbResume
  exact foldl_sets (by simp) _ _

@[simp] theorem relock_sets (u : Nat) (s : State) : (relock u s).sets = s.sets := by simp [relock]
@[simp] theorem relockFails_sets (u : Nat) (s : State) : (relockFails u s).sets = s.sets := by simp [relockFails]
@[simp] theorem pllOff_sets (u : Nat) (s : State) : (pllOff u s).sets = s.sets := by simp [pllOff]
@[simp] theorem enterHoldover_sets (u : Nat) (s : State) : (enterHoldover u s).sets = s.sets := by simp [enterHoldover]
@[simp] theorem xrefLost_sets (u : Nat) (s : State) : (xrefLost u s).sets = s.sets := by simp [xrefLost]

@[simp] theorem referenceLost_sets (u : Nat) (s : State) :
    (referenceLost u s).sets = s.sets := by unfold referenceLost; dsimp only; split <;> simp

@[simp] theorem refFollow_sets (before s : State) : (refFollow before s).sets = s.sets := by simp [refFollow]
@[simp] theorem lateLock_sets (u : Nat) (s : State) : (lateLock u s).sets = s.sets := by simp [lateLock]
@[simp] theorem lockNow_sets (u : Nat) (s : State) : (lockNow u s).sets = s.sets := by simp [lockNow]
@[simp] theorem countGood_sets (u : Nat) (ok : Bool) (s : State) : (countGood u ok s).sets = s.sets := by simp [countGood]

@[simp] theorem noteWindow_sets (u count : Nat) (refPresent ok : Bool) (s : State) :
    (noteWindow u count refPresent ok s).sets = s.sets := by simp [noteWindow]

@[simp] theorem pllWindow_sets (u count : Nat) (refPresent : Bool) (refPpm : Nat) (s : State) :
    (pllWindow u count refPresent refPpm s).sets = s.sets := by unfold pllWindow; dsimp only; split <;> simp

@[simp] theorem holdoverMute_sets (s : State) : (holdoverMute s).sets = s.sets := by
  unfold holdoverMute
  split
  · simp only [raiseIrq_sets, onPll_sets]
    rw [foldl_sets (by simp), foldl_sets (by simp)]
  · rfl

@[simp] theorem holdoverRestart_sets (s : State) : (holdoverRestart s).sets = s.sets := by
  unfold holdoverRestart
  split
  · dsimp only
    rw [foldl_sets (fun s d => ?_), foldl_sets (by simp)]
    split <;> simp
  · rfl

@[simp] theorem syncSlips_sets (aligned : BitVec 6) (s : State) : (syncSlips aligned s).sets = s.sets := by simp [syncSlips]
@[simp] theorem pdmSync_sets (s : State) : (pdmSync s).sets = s.sets := by simp [pdmSync]
@[simp] theorem syncPulse_sets (c : Bool) (s : State) : (syncPulse c s).sets = s.sets := by simp [syncPulse]
@[simp] theorem syncEmit_sets (s : State) : (syncEmit s).sets = s.sets := by simp [syncEmit]

@[simp] theorem bodySync_sets (a : CmdArgs) (s : State) : (bodySync a s).s.sets = s.sets := by
  unfold bodySync
  exact checks_sets (by simp)

@[simp] theorem frequencyGuardTrip_sets (u ratio count : Nat) (s : State) : (frequencyGuardTrip u ratio count s).sets = s.sets := by
  unfold frequencyGuardTrip
  split
  · rfl
  · split
    case h_4 => simp
    case h_5 => rfl
    all_goals split <;> simp

@[simp] theorem applyPlla_sets (w : Word) (s : State) : (applyPlla w s).sets = s.sets := by simp [applyPlla]

@[simp] theorem bodyPllCfg_sets (a : CmdArgs) (s : State) : (bodyPllCfg a s).s.sets = s.sets := by
  unfold bodyPllCfg
  dsimp only
  refine checks_sets ?_
  split
  · rfl
  · split
    · exact checks_sets (by simp)
    · refine checks_sets ?_
      rw [yes_s]
      split <;> simp

@[simp] theorem bodyPllRef_sets (a : CmdArgs) (s : State) : (bodyPllRef a s).s.sets = s.sets := by
  unfold bodyPllRef
  dsimp only
  refine checks_sets ?_
  repeat' split
  all_goals simp

@[simp] theorem relockTestHold_sets (u : Nat) (s : State) : (relockTestHold u s).sets = s.sets := by simp [relockTestHold]

end Sys2Proof.Machine
end

section
/-! SUPPORT. The configuration sets are kept: power states, boot, the bus matrix and the host port. -/

namespace Sys2Proof.Machine

/-! ## What states and resets keep, the watchdog (R390–R397) -/

@[simp] theorem loseNap_sets (s : State) : (loseNap s).sets = s.sets := rfl
@[simp] theorem loseCounts_sets (s : State) : (loseCounts s).sets = s.sets := rfl
@[simp] theorem loseRest_sets (s : State) : (loseRest s).sets = s.sets := rfl
@[simp] theorem coldStart_sets (u : Nat) (s : State) : (coldStart u s).sets = s.sets := by simp [coldStart]
@[simp] theorem startPllb_sets (restWake : Bool) (s : State) : (startPllb restWake s).sets = s.sets := by simp [startPllb]

@[simp] theorem firmwareReady_sets (s : State) : (firmwareReady s).sets = s.sets := by
  unfold firmwareReady
  split
  · rw [raiseIrq_sets]
  · rfl

@[simp] theorem enterSafe_sets (cause : Nat) (c : Status) (s : State) : (enterSafe cause c s).sets = s.sets := by simp [enterSafe]
@[simp] theorem bootRom_sets (s : State) : (bootRom s).sets = s.sets := by simp [bootRom]
@[simp] theorem clearCores_sets (s : State) : (clearCores s).sets = s.sets := rfl
@[simp] theorem coreRestart_sets (s : State) (n : Nat) : (coreRestart s n).sets = s.sets := by simp [coreRestart]
@[simp] theorem loseLaneDets_sets (s : State) : (loseLaneDets s).sets = s.sets := rfl
@[simp] theorem flowRestart_sets (s : State) : (flowRestart s).sets = s.sets := by simp [flowRestart]
@[simp] theorem wdtKick_sets (s : State) : (wdtKick s).sets = s.sets := rfl

@[simp] theorem bodyWdtCfg_sets (a : CmdArgs) (s : State) : (bodyWdtCfg a s).s.sets = s.sets := by
  unfold bodyWdtCfg
  exact checks_sets (by simp)

@[simp] theorem hpvddLockout_sets (s : State) : (hpvddLockout s).sets = s.sets := by simp [hpvddLockout]
@[simp] theorem hpvddRecover_sets (s : State) : (hpvddRecover s).sets = s.sets := by simp [hpvddRecover]
@[simp] theorem spkvddLockout_sets (s : State) : (spkvddLockout s).sets = s.sets := by simp [spkvddLockout]
@[simp] theorem spkvddRecover_sets (s : State) : (spkvddRecover s).sets = s.sets := by simp [spkvddRecover]
@[simp] theorem portsStop_sets (rail : Bool) (s : State) : (portsStop rail s).sets = s.sets := by simp [portsStop]
@[simp] theorem iovddALoss_sets (s : State) : (iovddALoss s).sets = s.sets := by simp [iovddALoss]
@[simp] theorem portsReturn_sets (s : State) : (portsReturn s).sets = s.sets := by simp [portsReturn]
@[simp] theorem iovddAReturn_sets (s : State) : (iovddAReturn s).sets = s.sets := by simp [iovddAReturn]
@[simp] theorem iovddH_sets (on : Bool) (s : State) : (iovddH on s).sets = s.sets := by simp [iovddH]

/-! ## Sleep and wake (R370–R389) -/

@[simp] theorem startAfterVcm_sets (s : State) (d : Nat) : (startAfterVcm s d).sets = s.sets := by simp [startAfterVcm]

@[simp] theorem undoEntry_sets (agent : BitVec 4) (reason : BitVec 4) (s : State) :
    (undoEntry agent reason s).sets = s.sets := by simp [undoEntry]

@[simp] theorem bodySleep_sets (a : CmdArgs) (s : State) : (bodySleep a s).s.sets = s.sets := by
  unfold bodySleep
  dsimp only
  split
  · split <;> simp
  · exact checks_sets (by simp)

@[simp] theorem vcmFollow_sets (s : State) : (vcmFollow s).sets = s.sets := by unfold vcmFollow; split <;> simp
@[simp] theorem endTest_sets (s : State) : (endTest s).sets = s.sets := by simp [endTest]

@[simp] theorem sleepQuery_sets (s : State) : (sleepQuery s).sets = s.sets := by
  unfold sleepQuery
  split
  · rfl
  · split
    · rfl
    · split
      · rfl
      · simp

@[simp] theorem agentAccept_sets (agent : Nat) (s : State) : (agentAccept agent s).sets = s.sets := by unfold agentAccept; split <;> simp
@[simp] theorem delayExpired_sets (agent : Nat) (s : State) : (delayExpired agent s).sets = s.sets := by unfold delayExpired; split <;> simp

@[simp] theorem audioStop_sets (s : State) : (audioStop s).sets = s.sets := by
  simp only [audioStop, tapsFollow_sets]
  exact onCores_sets (by simp) s

@[simp] theorem pllsStop_sets (s : State) : (pllsStop s).sets = s.sets := by simp [pllsStop]
@[simp] theorem pllsWake_sets (s : State) : (pllsWake s).sets = s.sets := rfl
@[simp] theorem startWake_sets (src : Nat) (s : State) : (startWake src s).sets = s.sets := by unfold startWake; dsimp only; split <;> simp

@[simp] theorem wakeEvent_sets (src : Nat) (s : State) : (wakeEvent src s).sets = s.sets := by
  unfold wakeEvent
  split
  case h_5 => split <;> simp
  case h_6 => rfl
  all_goals split <;> simp

@[simp] theorem wakePin_sets (s : State) : (wakePin s).sets = s.sets := by unfold wakePin; split <;> simp
@[simp] theorem sleepTimer_sets (s : State) : (sleepTimer s).sets = s.sets := by simp [sleepTimer]
@[simp] theorem jackWake_sets (n : Nat) (before s : State) : (jackWake n before s).sets = s.sets := by simp [jackWake]
@[simp] theorem dvddPowerGood_sets (s : State) : (dvddPowerGood s).sets = s.sets := by simp [dvddPowerGood]
@[simp] theorem startPlla_sets (s : State) : (startPlla s).sets = s.sets := by simp [startPlla]

@[simp] theorem xrefReady_sets (s : State) : (xrefReady s).sets = s.sets := by
  unfold xrefReady
  dsimp only
  split
  · rfl
  · split
    · split <;> simp
    · rfl
    · split
      · rfl
      · split <;> simp

@[simp] theorem finishSleep_sets (c : Status) (s : State) : (finishSleep c s).sets = s.sets := by simp [finishSleep]
@[simp] theorem wakeHold_sets (dvdd : Bool) (s : State) : (wakeHold dvdd s).sets = s.sets := by simp [wakeHold]
@[simp] theorem wakeStepTimeout_sets (s : State) : (wakeStepTimeout s).sets = s.sets := by unfold wakeStepTimeout; split <;> simp
@[simp] theorem wakeRetry_sets (s : State) : (wakeRetry s).sets = s.sets := by unfold wakeRetry; split <;> simp
@[simp] theorem returnToRun_sets (s : State) : (returnToRun s).sets = s.sets := by simp [returnToRun]
@[simp] theorem wakeFlow_sets (s : State) (f : Nat) : (wakeFlow s f).sets = s.sets := rfl
@[simp] theorem wakeCore_sets (s : State) (n : Nat) : (wakeCore s n).sets = s.sets := by simp [wakeCore]

@[simp] theorem audioRestart_sets (s : State) : (audioRestart s).sets = s.sets := by
  unfold audioRestart
  split
  · dsimp only
    rw [foldl_sets (by simp), onCores_sets (by simp), foldl_sets (by simp), tapsFollow_sets, foldl_sets (by simp)]
  · rfl

@[simp] theorem jackRelease_sets (s : State) (n : Nat) : (jackRelease s n).sets = s.sets := by simp [jackRelease]

@[simp] theorem bodyPadsRelease_sets (_a : CmdArgs) (s : State) : (bodyPadsRelease _a s).s.sets = s.sets := by
  unfold bodyPadsRelease
  exact checks_sets (by simp)

/-! ## Images, boot and SAFE (R407–R412, R467) -/

@[simp] theorem imageKey_sets (m : Img) (s : State) : (imageKey m s).2.sets = s.sets := by simp [imageKey]
@[simp] theorem admitImage_sets (m : Img) (room : Nat) (s : State) : (admitImage m room s).2.sets = s.sets := by simp [admitImage]

@[simp] theorem startFirmware_sets (version : Word) (body : List Word) (s : State) :
    (startFirmware version body s).sets = s.sets := by simp [startFirmware]

@[simp] theorem bodyImageLoad_sets (a : CmdArgs) (s : State) : (bodyImageLoad a s).s.sets = s.sets := by
  unfold bodyImageLoad
  refine checks_sets ?_
  dsimp only
  split
  · next h => simp [beatUpset_sets h]
  · simp

@[simp] theorem bodyImageExec_sets (_a : CmdArgs) (s : State) : (bodyImageExec _a s).s.sets = s.sets := by
  unfold bodyImageExec
  exact checks_sets (by simp)

@[simp] theorem bootBack_sets (s : State) : (bootBack s).sets = s.sets := by simp [bootBack]

@[simp] theorem imageExecComplete_sets (s : State) : (imageExecComplete s).sets = s.sets := by
  unfold imageExecComplete
  have hadm := admitImage_sets
  obtain ⟨ad, had⟩ : ∃ ad, ad = admitImage := ⟨_, rfl⟩
  rw [← had] at hadm ⊢
  split
  · extract_lets w back mem m
    have hw : w.sets = s.sets := waitLock_sets ..
    clear_value w
    split
    · next h => rw [finishJob_sets, logAbort_sets, bootBack_sets, beatUpset_sets h, hw]
    · split
      · rw [finishJob_sets, bootBack_sets, hw]
      · split
        · rw [finishJob_sets, logRow_sets]
          exact (bootBack_sets w).trans hw
        · have hs1 : (ad m 524288 w).2.sets = s.sets := (hadm m 524288 w).trans hw
          dsimp only
          split
          · split
            · rw [finishJob_sets, startFirmware_sets]; exact hs1
            · rw [finishJob_sets]; exact hs1
          · split
            · rw [finishJob_sets, enterSafe_sets]; exact hs1
            · rw [finishJob_sets, bootBack_sets]; exact hs1
  · rfl

@[simp] theorem bootStart_sets (st : Straps) (s : State) : (bootStart st s).sets = s.sets := by simp [bootStart]
@[simp] theorem slotFailed_sets (slot : Nat) (r : Admission) (s : State) : (slotFailed slot r s).sets = s.sets := by simp [slotFailed]

@[simp] theorem trySlot_sets (m : Option Img) (s : State) : (trySlot m s).2.sets = s.sets := by
  unfold trySlot
  split
  · rfl
  · split
    · next h => simp [beatUpset_sets h]
    · simp

@[simp] theorem noFlash_sets (s : State) : (noFlash s).sets = s.sets := by simp [noFlash]

@[simp] theorem bothFail_sets (b : Bool) (s : State) : (flashBoot.bothFail b s).sets = s.sets := by
  unfold flashBoot.bothFail
  split
  · rw [enterSafe_sets]
  · rw [raiseIrq_sets]

@[simp] theorem flashBoot_sets (slotA slotB : Option (List Word)) (s : State) : (flashBoot slotA slotB s).sets = s.sets := by
  unfold flashBoot
  split
  · dsimp only
    split
    · split
      · simp
      · split
        · split <;> simp
        · simp
    · simp
  · rfl

/-! ## The bus matrix (R34, R120, R346–R359) -/

@[simp] theorem periRead_sets (a : Nat) (s : State) : (periRead a s).2.sets = s.sets := by
  simp only [periRead, ite_snd_sets]
  split
  · rfl
  · split
    · rfl
    · split
      · split
        · simp
        · split <;> simp
      · rfl

@[simp] theorem winWrite_sets (i : Nat) (w : Word) (s : State) : (winWrite i w s).sets = s.sets := by
  unfold winWrite
  split
  · rfl
  · split
    · rfl
    · split <;> rfl

@[simp] theorem periWrite_sets (a : Nat) (w : Word) (s : State) : (periWrite a w s).sets = s.sets := by simp [periWrite]

@[simp] theorem pathRead_sets (b : BusPath) (s : State) : (pathRead b s).2.sets = s.sets := by
  unfold pathRead
  extract_lets a
  split
  · rfl
  · split; rfl
  · split; rfl
  · have h := periRead_sets a s
    split
    next hp => rw [hp] at h; exact h
  · rfl
  · rfl

@[simp] theorem cpRefused_sets (target cause : Nat) (write : Bool) (a : Nat) (s : State) :
    (cpRefused target cause write a s).sets = s.sets := by simp [cpRefused]

@[simp] theorem cpSet_sets (rd : BitVec 5) (w : Word) (t : BitVec 4) (s : State) : (cpSet rd w t s).sets = s.sets := by simp [cpSet]
@[simp] theorem lockTimeout_sets (s : State) : (lockTimeout s).sets = s.sets := by unfold lockTimeout; split <;> simp
@[simp] theorem masterErr_sets (master : Nat) (s : State) : (masterErr master s).sets = s.sets := by simp [masterErr]

theorem masterBeat_sets {put : State → State} (hp : ∀ s, (put s).sets = s.sets) (master t a : Nat) (s : State) :
    (masterBeat master t a put s).sets = s.sets := by
  unfold masterBeat
  split
  · simp
  · split
    · next h => rw [masterErr_sets, beatLost_sets h]
    · exact hp s

@[simp] theorem registerWrite_sets (master a : Nat) (w : Word) (s : State) : (registerWrite master a w s).sets = s.sets := by
  unfold registerWrite
  dsimp only
  split
  · split
    · split
      · exact masterBeat_sets (by simp) ..
      · simp
    · split
      · split
        · exact masterBeat_sets (by simp) ..
        · simp
      · simp
  · rfl

/-! ## A sample of a flow (R232–R235) -/

@[simp] theorem ingressSample_sets (f : Nat) (q : Quad) (even odd : List Int) (s : State) :
    (ingressSample f q even odd s).2.sets = s.sets := by
  unfold ingressSample
  split
  · split <;> simp
  · split
    · simp
    · dsimp only
      split
      · rfl
      · split <;> simp
    · rfl
    · split <;> simp

@[simp] theorem takeCut_sets (f : Nat) (q : Quad) (x : Sample) (s : State) : (takeCut f q x s).2.sets = s.sets := by simp [takeCut]

@[simp] theorem delayWrite_sets (f : Nat) (x : Sample) (s : State) : (delayWrite f x s).2.sets = s.sets := by
  unfold delayWrite
  dsimp only
  split
  · rfl
  · split
    · split <;> simp
    · split <;> simp

@[simp] theorem delayed_sets (f : Nat) (q : Quad) (x : Sample) (s : State) : (delayed f q x s).2.2.sets = s.sets := by
  unfold delayed
  dsimp only
  split
  · simp
  · split
    · simp
    · split <;> simp

@[simp] theorem ingressHop_sets (f : Nat) (q : Quad) (z : Sample) (s : State) :
    (ingressHop f q z s).2.sets = s.sets := by unfold ingressHop; split <;> simp

@[simp] theorem ingressStep_sets (f : Nat) (q : Quad) (even odd : List Int) (s : State) :
    (ingressStep f q even odd s).sets = s.sets := by simp [ingressStep]

@[simp] theorem laneLost_sets (s : State) (u : Upset) : (laneLost s u).sets = s.sets := by unfold laneLost; split <;> simp
@[simp] theorem digStep_sets (f : Nat) (q : Quad) (s : State) : (digStep f q s).sets = s.sets := by simp [digStep]
@[simp] theorem egressTo_sets (f : Nat) (q : Quad) (x : Sample) (s : State) : (egressTo f q x s).sets = s.sets := by simp [egressTo]

/-! ## Bundles (R81–R99) -/

@[simp] theorem cpReadError_sets (r : BadRead) (s : State) : (cpReadError r s).sets = s.sets := by unfold cpReadError; split <;> simp
@[simp] theorem wake_sets (u : Site) (s : State) : (wake u s).sets = s.sets := by unfold wake; split <;> simp

@[simp] theorem registerLost_sets (u : Site) (r : Nat) (s : State) :
    (registerLost u r s).sets = s.sets := by unfold registerLost; split <;> simp

@[simp] theorem readLost_sets (u : Site) (r : BadRead) (s : State) : (readLost u r s).sets = s.sets := by unfold readLost; split <;> simp

/-! ## The two sets (R65–R77) -/

@[simp] theorem followActive_sets (page : Nat → Bool) (o : ConfigSet) (s : State) :
    (followActive page o s).sets = s.sets := by simp [followActive]

@[simp] theorem wordLost_sets (a : Nat) (s : State) : (wordLost a s).sets = s.sets := by simp [wordLost]

theorem setOk_sets (want : Nat → Bool) {x : Ans} {s : State} (h : x.s.sets = s.sets) : (setOk want x s).s.sets = s.sets := by
  unfold setOk
  split
  · exact h
  · split
    · simp
    · exact h

@[simp] theorem bodySetRead_sets (a : CmdArgs) (s : State) : (bodySetRead a s).s.sets = s.sets := by
  unfold bodySetRead
  dsimp only
  split
  · rfl
  · exact checks_sets (readOk_sets _ (setOk_sets _ rfl))

/-! ## CORE.LOAD (R112–R114) -/

@[simp] theorem loadSlot_sets (s : State) (n k : Nat) (p : Prog) (coef : List Word) (cyc stores : Nat) :
    (loadSlot s n k p coef cyc stores).sets = s.sets := rfl

@[simp] theorem bodyCoreLoad_sets (a : CmdArgs) (s : State) : (bodyCoreLoad a s).s.sets = s.sets := by
  unfold bodyCoreLoad
  dsimp only
  refine checks_sets ?_
  split
  · rfl
  · refine readOk_sets _ ?_
    split
    · rfl
    · refine checks_sets ?_
      split
      · rfl
      · split <;> simp

/-! ## The status window (R78–R80) -/

@[simp] theorem winClear_sets (i : Nat) (s : State) : (winClear i s).sets = s.sets := by
  unfold winClear
  simp only [ite_sets, raiseIf_sets, onCore_sets, onTdm_sets, onAes_sets,
    foldl_sets (f := fun s j => onFlow (8 * (i - 0x100) + j) (fun r => { r with slips := 0 }) s) (by simp), ite_self]

@[simp] theorem winClears_sets (i n : Nat) (s : State) : (winClears i n s).sets = s.sets := by simp [winClears]

/-! ## The host port (R43–R53) -/

@[simp] theorem packetLevel_sets (seq : BitVec 8) (c : Status) (s : State) : (packetLevel seq c s).sets = s.sets := rfl
@[simp] theorem sendBytes_sets (w r : Nat) (defined : List Byte) (s : State) : (sendBytes w r defined s).sets = s.sets := rfl
@[simp] theorem notAuthenticated_sets (seq : BitVec 8) (s : State) : (notAuthenticated seq s).sets = s.sets := rfl
@[simp] theorem resend_sets (s : State) : (resend s).sets = s.sets := by unfold resend; split <;> simp

@[simp] theorem acceptPacket_sets (sess : Bool) (seq : BitVec 8) (ws : List Word) (s : State) :
    (acceptPacket sess seq ws s).sets = s.sets := by simp [acceptPacket]

@[simp] theorem bySeq_sets (sess : Bool) (seq : BitVec 8) (ws : List Word) (s : State) :
    (bySeq sess seq ws s).sets = s.sets := by simp [bySeq]

@[simp] theorem checkedPacket_sets (p : List Byte) (n : Nat) (s : State) :
    (checkedPacket p n s).sets = s.sets := by unfold checkedPacket; split <;> simp

@[simp] theorem packetBeat_sets (e : BeatErr) (write : Bool) (s : State) : (packetBeat e write s).sets = s.sets := rfl

@[simp] theorem packetStored_sets (s : State) : (packetStored s).2.sets = s.sets := by
  unfold packetStored
  dsimp only
  split
  · next h => simp [beatUpset_sets h]
  · simp

@[simp] theorem packetIn_sets (p : List Byte) (s0 : State) : (packetIn p s0).sets = s0.sets := by simp [packetIn]

theorem transaction_sets {f : State → State} (x : Xfer) (c : Byte) (w r : Nat) {s : State} (hf : (f s).sets = s.sets) :
    (transaction x c w r f s).sets = s.sets := by
  unfold transaction
  split
  · rfl
  · split
    · exact hf
    · simp

@[simp] theorem packetOf_sets (bytes : List Byte) (s : State) : (packetOf bytes s).sets = s.sets := by simp [packetOf]

@[simp] theorem writePkt_sets (x : Xfer) (bytes : List Byte) (s : State) : (writePkt x bytes s).sets = s.sets := by
  unfold writePkt
  exact transaction_sets x _ _ _ (by simp)

@[simp] theorem responseRead_sets (s : State) : (responseRead s).2.sets = s.sets := by
  unfold responseRead
  split
  · rfl
  · dsimp only
    split
    · next h => simp [beatUpset_sets h]
    · simp

@[simp] theorem readCut_sets (t n all : Nat) (s : State) : (readCut t n all s).sets = s.sets := by simp [readCut]

@[simp] theorem readPkt_sets (x : Xfer) (n : Nat) (s : State) : (readPkt x n s).sets = s.sets := by
  unfold readPkt
  exact transaction_sets x _ _ _ (by simp)

theorem statusError_sets {s t : State} {e : BeatErr} (h : statusError s = some (e, t)) : t.sets = s.sets := by
  unfold statusError at h
  split at h
  · cases h; simp
  · exact beatUpset_sets h

@[simp] theorem statusLost_sets (offset : Nat) (s : State) : (statusLost offset s).sets = s.sets := by
  unfold statusLost
  split
  · next h => simp [statusError_sets h]
  · rfl

@[simp] theorem readSt_sets (x : Xfer) (offset n m : Nat) (s : State) : (readSt x offset n m s).sets = s.sets := by
  unfold readSt
  exact transaction_sets x _ _ _ (by simp)

@[simp] theorem queueResponse_sets (p : List Byte) (s : State) : (queueResponse p s).sets = s.sets := rfl

end Sys2Proof.Machine
end

section
/-! SUPPORT. The epoch (R74) is kept where the sets are written, by every function but the swap's effect and the resets. -/

namespace Sys2Proof.Machine

/-! ## Shapes of the model's functions -/

@[simp] theorem ite_epoch {p : Prop} [Decidable p] (a b : Sets) : (if p then a else b).epoch = if p then a.epoch else b.epoch := by
  split <;> rfl

@[simp] theorem foldl_epoch {α : Type} {f : State → α → State} (hf : ∀ s x, (f s x).sets.epoch = s.sets.epoch) (l : List α) (s : State) :
    (l.foldl f s).sets.epoch = s.sets.epoch := by
  induction l generalizing s with
  | nil => rfl
  | cons x l ih => rw [List.foldl_cons, ih, hf]

theorem checks_epoch {s : State} {l : List (Bool × Status)} {k : Ans} (h : k.s.sets.epoch = s.sets.epoch) :
    (checks s l k).s.sets.epoch = s.sets.epoch := by
  rcases checks_cases s l k with h1 | ⟨st, h1⟩
  · rw [h1]; exact h
  · rw [h1]; rfl

/-! ## Reads by FDMA (R366, Table 10.13) -/

theorem gainTaken_epoch (k : Nat) {f : State → State} (hf : ∀ s, (f s).sets.epoch = s.sets.epoch) (s : State) :
    (gainTaken k f s).sets.epoch = s.sets.epoch := by
  unfold gainTaken
  split
  · dsimp only
    rw [mtxDiff_sets]
    exact hf s
  · exact hf s

@[simp] theorem flowTaken_epoch (f : Nat) (q : Quad) (s : State) : (flowTaken f q s).sets.epoch = s.sets.epoch := by simp [flowTaken]

@[simp] theorem gainRead_epoch (s : State) (u : Upset) : (gainRead s u).sets.epoch = s.sets.epoch := by
  unfold gainRead
  split
  · dsimp only
    rw [gainTaken_epoch _ (f := id) (fun _ => rfl)]; simp
  · rfl

@[simp] theorem contextLost_epoch (f : Nat) (q : Quad) (e : BeatErr) (s : State) :
    (contextLost f q e s).sets.epoch = s.sets.epoch := by simp [contextLost]

/-! ## Jobs, flags and free values (R58, log entry 2) -/

@[simp] theorem onActive_epoch (f : ConfigSet → ConfigSet) (s : State) :
    (onActive f s).sets.epoch = s.sets.epoch := by unfold onActive; split <;> rfl

@[simp] theorem onShadow_epoch (f : ConfigSet → ConfigSet) (s : State) :
    (onShadow f s).sets.epoch = s.sets.epoch := by unfold onShadow; split <;> rfl

/-! ## Self-tests, classification and the patrol (R429–R450) -/

@[simp] theorem gramLost_epoch (bankB : Bool) (off : Nat) (s : State) : (gramLost bankB off s).sets.epoch = s.sets.epoch := by
  unfold gramLost
  dsimp only
  split
  · split
    · rfl
    · exact gainTaken_epoch _ (by simp) s
  · split
    · rfl
    · simp

@[simp] theorem fctxLost_epoch (bankB : Bool) (off : Nat) (s : State) : (fctxLost bankB off s).sets.epoch = s.sets.epoch := by
  unfold fctxLost
  dsimp only
  split <;> simp

@[simp] theorem rewriteLost_epoch (a : Nat) (s : State) : (rewriteLost a s).sets.epoch = s.sets.epoch := by simp [rewriteLost]

@[simp] theorem patrolLost_epoch (s : State) (a : Nat) : (patrolLost s a).sets.epoch = s.sets.epoch := by
  unfold patrolLost
  split <;> simp

@[simp] theorem patrolPass_epoch (corrected uncorrectable : List Nat) (upsets : List Upset) (s : State) :
    (patrolPass corrected uncorrectable upsets s).sets.epoch = s.sets.epoch := by
  unfold patrolPass
  split
  · dsimp only
    rw [foldl_epoch patrolLost_epoch, foldl_epoch (by simp)]; simp
  · rfl

@[simp] theorem selftestFail_epoch (kind : Nat) (s : State) (x : Nat) : (selftestFail kind s x).sets.epoch = s.sets.epoch := by
  unfold selftestFail
  split
  · split <;> simp
  · split <;> simp

@[simp] theorem selftestComplete_epoch (readings : SelftestReadings) (s : State) :
    (selftestComplete readings s).sets.epoch = s.sets.epoch := by
  unfold selftestComplete
  split
  · split
    · dsimp only
      rw [finishJob_sets, foldl_epoch (selftestFail_epoch _)]
      split <;> simp
    · rfl
  · rfl

/-! ## A sample of a flow (R232–R235) -/

theorem foldl_gainRead_epoch (l : List Upset) (s : State) : (l.foldl gainRead s).sets.epoch = s.sets.epoch :=
  foldl_epoch gainRead_epoch l s

@[simp] theorem laneSample_epoch (q : Quad) (s0 : State) : (laneSample q s0).2.sets.epoch = s0.sets.epoch := by
  unfold laneSample
  dsimp only
  have h := foldl_sets (fun s u => laneLost_sets s u) s0.mem.upsets s0
  split
  · rw [h]
  · rw [matrixSample_sets, foldl_gainRead_epoch, h]

@[simp] theorem egressStep_epoch (f : Nat) (q : Quad) (s : State) : (egressStep f q s).sets.epoch = s.sets.epoch := by simp [egressStep]

@[simp] theorem flowSample_epoch (f : Nat) (even odd : List Int) (s : State) : (flowSample f even odd s).sets.epoch = s.sets.epoch := by
  unfold flowSample
  dsimp only
  split
  · split
    · simp
    · rw [onFlow_sets]
      split <;> simp
  · rfl

/-! ## Items of the sets (R67, R68) -/

@[simp] theorem writeShadow_epoch (op : Nat) (ops : List Word) (f : ConfigSet → ConfigSet) (s : State) :
    (writeShadow op ops f s).sets.epoch = s.sets.epoch := by simp [writeShadow]

@[simp] theorem writeActive_epoch (op : Nat) (ops : List Word) (f : ConfigSet → ConfigSet) (s : State) :
    (writeActive op ops f s).sets.epoch = s.sets.epoch := by simp [writeActive]

@[simp] theorem writeItem_epoch (op : Nat) (rate : Option Nat) (f : ConfigSet → ConfigSet) (a : CmdArgs) (s : State) :
    (writeItem op rate f a s).sets.epoch = s.sets.epoch := by simp [writeItem]

/-! ## The two sets (R65–R77) -/

@[simp] theorem placedWrite_epoch (s : State) (p : Placed) :
    (placedWrite s p).sets.epoch = s.sets.epoch := by unfold placedWrite; split <;> simp

@[simp] theorem applyPlaced_epoch (ps : List Placed) (s : State) : (applyPlaced ps s).sets.epoch = s.sets.epoch := by
  unfold applyPlaced
  split
  · rfl
  · dsimp only
    rw [followActive_sets]
    exact foldl_epoch placedWrite_epoch ps s

@[simp] theorem immediateWriteApply_epoch (rate : Nat) (s : State) :
    (immediateWriteApply rate s).sets.epoch = s.sets.epoch := by simp [immediateWriteApply]

@[simp] theorem withdrawSwap_epoch (c : Status) (s : State) : (withdrawSwap c s).sets.epoch = s.sets.epoch := by simp [withdrawSwap]

@[simp] theorem bodySwap_epoch (a : CmdArgs) (s : State) : (bodySwap a s).s.sets.epoch = s.sets.epoch := by
  unfold bodySwap
  split
  · refine checks_epoch ?_
    split <;> simp
  · refine checks_epoch ?_
    split <;> simp

@[simp] theorem swapTimeout_epoch (s : State) : (swapTimeout s).sets.epoch = s.sets.epoch := by
  unfold swapTimeout
  split
  · rfl
  · split <;> simp

@[simp] theorem copySet_epoch (s : State) : (copySet s).sets.epoch = s.sets.epoch := by simp [copySet]
@[simp] theorem copied_epoch (s : State) : (copied s).sets.epoch = s.sets.epoch := by simp [copied]

@[simp] theorem copyComplete_epoch (s0 : State) : (copyComplete s0).sets.epoch = s0.sets.epoch := by
  unfold copyComplete
  extract_lets w
  have hw : w.sets.epoch = s0.sets.epoch := by
    unfold w
    split
    · rw [foldl_sets (by simp)]
    · rfl
  clear_value w
  split
  · rw [raiseIrq_sets]; exact (copied_epoch w).trans hw
  · exact hw

/-! ## PLLs and synchronisation (R315–R345) -/

@[simp] theorem syncReset_epoch (aligned : BitVec 6) (s : State) : (syncReset aligned s).sets.epoch = s.sets.epoch := by
  unfold syncReset
  dsimp only
  rw [syncSlips_sets, pdmSync_sets, onCores_sets (by simp), feSync_sets, applyPlaced_epoch]

@[simp] theorem synchronisingReset_epoch (aligned : BitVec 6) (s : State) : (synchronisingReset aligned s).sets.epoch = s.sets.epoch := by
  unfold synchronisingReset
  split
  · extract_lets s1
    have h : s1.sets.epoch = s.sets.epoch := syncReset_epoch aligned s
    clear_value s1
    rw [syncPulse_sets]
    exact h
  · rfl

theorem edgeMode_epoch (aligned : BitVec 6) (s : State) : (syncInEdge.edgeMode aligned s).sets.epoch = s.sets.epoch := by
  unfold syncInEdge.edgeMode
  split
  · rfl
  · extract_lets s1
    have h : s1.sets.epoch = s.sets.epoch := syncReset_epoch aligned s
    clear_value s1
    split <;> exact h

@[simp] theorem syncInEdge_epoch (aligned : BitVec 6) (s : State) : (syncInEdge aligned s).sets.epoch = s.sets.epoch := by
  unfold syncInEdge
  split
  · rfl
  · split
    · split
      · rfl
      · exact edgeMode_epoch aligned s
    · exact edgeMode_epoch aligned s

@[simp] theorem guardRestart_epoch (s : State) : (guardRestart s).sets.epoch = s.sets.epoch := by
  unfold guardRestart
  dsimp only
  rw [startAll_sets, foldl_sets (by simp), syncReset_epoch]

@[simp] theorem pllUngate_epoch (u : Nat) (s : State) : (pllUngate u s).sets.epoch = s.sets.epoch := by
  unfold pllUngate
  dsimp only
  split
  · split
    · rw [syncEmit_sets]
      split <;> simp
    · simp
  · rfl

/-! ## The confluence matrix (R190–R202) -/

@[simp] theorem routeBody_epoch (op : Nat) (ts : List (Nat × BitVec 16)) (a : CmdArgs) (s : State) :
    (routeBody op ts a s).s.sets.epoch = s.sets.epoch := by
  unfold routeBody
  exact checks_epoch (by simp)

@[simp] theorem bodyRoute_epoch (a : CmdArgs) (s : State) : (bodyRoute a s).s.sets.epoch = s.sets.epoch := by
  unfold bodyRoute
  exact checks_epoch (by simp)

@[simp] theorem bodyGain_epoch (a : CmdArgs) (s : State) : (bodyGain a s).s.sets.epoch = s.sets.epoch := by
  unfold bodyGain
  exact checks_epoch (by simp)

@[simp] theorem bodyRamp_epoch (a : CmdArgs) (s : State) : (bodyRamp a s).s.sets.epoch = s.sets.epoch := by
  unfold bodyRamp
  exact checks_epoch (by simp)

@[simp] theorem bodyWeir_epoch (a : CmdArgs) (s : State) : (bodyWeir a s).s.sets.epoch = s.sets.epoch := by
  unfold bodyWeir
  exact checks_epoch (by simp)

/-! ## What states and resets keep, the watchdog (R390–R397) -/

@[simp] theorem bodyResetCore_epoch (_a : CmdArgs) (s : State) : (bodyResetCore _a s).s.sets.epoch = s.sets.epoch := by
  unfold bodyResetCore
  refine checks_epoch ?_
  dsimp only
  rw [yes_s]
  dsimp only
  rw [loseCounts_sets, clearCores_sets, onCores_sets (by simp), flowRestart_sets, mtxReset_sets, loseLaneDets_sets]
  split <;> simp

@[simp] theorem safeStop_epoch (s : State) : (safeStop s).sets.epoch = s.sets.epoch := by
  unfold safeStop
  dsimp only
  rw [refFollow_sets, portsStop_sets, clampAll_sets, tapsFollow_sets]
  dsimp only
  rw [onCores_sets (by simp)]

@[simp] theorem safeFromRun_epoch (cause : Nat) (s : State) : (safeFromRun cause s).sets.epoch = s.sets.epoch := by simp [safeFromRun]

@[simp] theorem otpFound_epoch (ws : List Nat) (s : State) : (otpFound ws s).sets.epoch = s.sets.epoch := by
  unfold otpFound
  dsimp only
  split <;> simp

@[simp] theorem patrolFinds_epoch (corrected uncorrectable : List Nat) (upsets : List Upset) (s : State) :
    (patrolFinds corrected uncorrectable upsets s).sets.epoch = s.sets.epoch := by simp [patrolFinds]

/-! ## The analogue front end (R122–R144) -/

@[simp] theorem bodyFeMode_epoch (a : CmdArgs) (s : State) : (bodyFeMode a s).s.sets.epoch = s.sets.epoch := by
  unfold bodyFeMode
  exact checks_epoch (by simp)

@[simp] theorem bodyFeGain_epoch (a : CmdArgs) (s : State) : (bodyFeGain a s).s.sets.epoch = s.sets.epoch := by
  unfold bodyFeGain
  exact checks_epoch (by simp)

@[simp] theorem bodyFePair_epoch (a : CmdArgs) (s : State) : (bodyFePair a s).s.sets.epoch = s.sets.epoch := by
  unfold bodyFePair
  exact checks_epoch (by simp)

/-! ## The filter commands (R182–R188) -/

@[simp] theorem bodyFltPreset_epoch (a : CmdArgs) (s : State) : (bodyFltPreset a s).s.sets.epoch = s.sets.epoch := by
  unfold bodyFltPreset
  exact checks_epoch (by simp)

@[simp] theorem bodyFirSel_epoch (a : CmdArgs) (s : State) : (bodyFirSel a s).s.sets.epoch = s.sets.epoch := by
  unfold bodyFirSel
  exact checks_epoch (by simp)

@[simp] theorem bodyFirFade_epoch (a : CmdArgs) (s : State) : (bodyFirFade a s).s.sets.epoch = s.sets.epoch := by
  unfold bodyFirFade
  exact checks_epoch (by simp)

/-! ## The millrace (R206–R211) -/

@[simp] theorem bodyMrTap_epoch (a : CmdArgs) (s : State) : (bodyMrTap a s).s.sets.epoch = s.sets.epoch := by
  unfold bodyMrTap
  exact checks_epoch (by simp)

@[simp] theorem bodyMrOut_epoch (a : CmdArgs) (s : State) : (bodyMrOut a s).s.sets.epoch = s.sets.epoch := by
  unfold bodyMrOut
  exact checks_epoch (by simp)

/-! ## Flow contexts (R226–R236) -/

@[simp] theorem bodyFlowBind_epoch (a : CmdArgs) (s : State) : (bodyFlowBind a s).s.sets.epoch = s.sets.epoch := by
  unfold bodyFlowBind
  refine checks_epoch ?_
  split <;> simp

@[simp] theorem bodyFlowUnbind_epoch (a : CmdArgs) (s : State) : (bodyFlowUnbind a s).s.sets.epoch = s.sets.epoch := by
  unfold bodyFlowUnbind
  exact checks_epoch (by simp)

/-! ## Frames of the stream cores (R91–R111) -/

@[simp] theorem bodyCoreBind_epoch (a : CmdArgs) (s : State) : (bodyCoreBind a s).s.sets.epoch = s.sets.epoch := by
  unfold bodyCoreBind
  exact checks_epoch (by simp)

@[simp] theorem bodyCoreParam_epoch (a : CmdArgs) (s : State) : (bodyCoreParam a s).s.sets.epoch = s.sets.epoch := by
  unfold bodyCoreParam
  refine checks_epoch ?_
  dsimp only
  split
  · rw [yes_s]; split <;> simp
  · simp

/-! ## Outputs (R265–R285) -/

@[simp] theorem bodyOutCfg_epoch (a : CmdArgs) (s : State) : (bodyOutCfg a s).s.sets.epoch = s.sets.epoch := by
  unfold bodyOutCfg
  exact checks_epoch (by simp)

/-! ## Bundles (R81–R99) -/

theorem bundleLost_sets {u : Site} {e : List Eff} {s t : State} (h : bundleLost u e s = some t) : t.sets = s.sets := by
  unfold bundleLost at h
  split at h
  · cases h; simp
  · cases h; simp
  · cases h

/-! ## The bus matrix (R34, R120, R346–R359) -/

@[simp] theorem onBank_epoch (b : Bool) (f : ConfigSet → ConfigSet) (s : State) :
    (onBank b f s).sets.epoch = s.sets.epoch := by simp [onBank]

@[simp] theorem pathWrite_epoch (b : BusPath) (w : Word) (t : BitVec 4) (s : State) : (pathWrite b w t s).sets.epoch = s.sets.epoch := by
  unfold pathWrite
  extract_lets a mem s1
  split
  · rfl
  · rfl
  · rfl
  · split
    split
    · simp [s1]
    · rfl
  · split
    split
    · simp
    · rfl
  · simp
  · simp
  · rfl

/-- What an error leaves where it meets an access of the CP. -/
theorem cpBeatLost_sets {b : BusPath} {w : Bool} {a : Nat} {s t : State} (h : cpBeatLost b w a s = some t) : t.sets = s.sets := by
  unfold cpBeatLost at h
  split at h
  · cases h; simp
  · split at h
    · cases h; simp
    · cases h

theorem cpBeat_epoch {put : State → State} (hp : ∀ s, (put s).sets.epoch = s.sets.epoch) (b : BusPath) (a : Nat) (s : State) :
    (cpBeat b a put s).sets.epoch = s.sets.epoch := by
  unfold cpBeat
  split
  · next h => rw [cpBeatLost_sets h]
  · split
    · simp
    · rw [busErr_sets]; exact hp s

@[simp] theorem cpRead_epoch (a : Nat) (s : State) : (cpRead a s).2.sets.epoch = s.sets.epoch := by
  unfold cpRead
  split
  · split
    · split
      · next h => exact congrArg Sets.epoch (cpBeatLost_sets h)
      · split
        · simp
        · split
          · simp
          · split
            · simp
            · have h := pathRead_sets ‹_› s
              split
              next hp =>
              rw [hp] at h
              rw [busErr_sets]
              exact congrArg Sets.epoch h
    · simp
  · simp

@[simp] theorem cpWrite_epoch (a : Nat) (w : Word) (t : BitVec 4) (s : State) : (cpWrite a w t s).sets.epoch = s.sets.epoch := by
  unfold cpWrite
  split
  · split
    · exact cpBeat_epoch (by simp) ..
    · simp
  · simp

/-- What a read by the CP leaves. -/
theorem cpRead_next_epoch {a : Nat} {s t : State} {x : Option (Word × BitVec 4)} (h : cpRead a s = (x, t)) :
    t.sets.epoch = s.sets.epoch := by
  have hr := cpRead_epoch a s
  rwa [h] at hr

@[simp] theorem cpLoad_epoch (rd : BitVec 5) (a : Nat) (s : State) : (cpLoad rd a s).sets.epoch = s.sets.epoch := by
  unfold cpLoad
  split
  · next h => rw [cpSet_sets, cpRead_next_epoch h]
  · next h => exact cpRead_next_epoch h

@[simp] theorem cpLoadPart_epoch (bits : Nat) (rd : BitVec 5) (a : Nat) (s : State) :
    (cpLoadPart bits rd a s).sets.epoch = s.sets.epoch := by
  unfold cpLoadPart
  extract_lets i
  split
  · next s1 h =>
    have hw := drawWord_sets s1
    split
    next hd =>
    rw [hd] at hw
    rw [cpSet_sets]
    exact (congrArg Sets.epoch hw).trans (cpRead_next_epoch h)
  · next h => exact cpRead_next_epoch h

@[simp] theorem cpStore_epoch (rd : BitVec 5) (a : Nat) (s : State) : (cpStore rd a s).sets.epoch = s.sets.epoch := by simp [cpStore]

@[simp] theorem pathPart_epoch (b : BusPath) (bits : Nat) (v : Word) (s : State) :
    (pathPart b bits v s).sets.epoch = s.sets.epoch := by simp [pathPart]

@[simp] theorem cpStorePart_epoch (bits : Nat) (rd : BitVec 5) (a : Nat) (s : State) :
    (cpStorePart bits rd a s).sets.epoch = s.sets.epoch := by
  unfold cpStorePart
  split
  · split
    · exact cpBeat_epoch (by simp) ..
    · simp
  · simp

@[simp] theorem cpLoadLocked_epoch (rd : BitVec 5) (a : Nat) (s : State) : (cpLoadLocked rd a s).sets.epoch = s.sets.epoch := by
  unfold cpLoadLocked
  repeat' split
  all_goals simp

@[simp] theorem cpStoreUnlock_epoch (rd : BitVec 5) (a : Nat) (s : State) :
    (cpStoreUnlock rd a s).sets.epoch = s.sets.epoch := by simp [cpStoreUnlock]

@[simp] theorem busSyl_epoch (w : Word) (s : State) : (busSyl w s).sets.epoch = s.sets.epoch := by unfold busSyl; split <;> simp

@[simp] theorem cpFetch_epoch (a : Nat) (s : State) : (cpFetch a s).2.sets.epoch = s.sets.epoch := by
  unfold cpFetch
  split
  · next h => rw [busErr_sets, cpRead_next_epoch h]
  · next h => exact cpRead_next_epoch h

@[simp] theorem cpBundle_epoch (hi lo : Word) (s : State) : (cpBundle hi lo s).sets.epoch = s.sets.epoch := by
  unfold cpBundle
  extract_lets onHi onLo eHi eLo s1 s2
  split
  · rfl
  · split
    · next h => rw [bundleLost_sets h]
    · have h2 : s2.sets.epoch = s.sets.epoch := by
        unfold s2
        split
        · rw [busSyl_epoch]; exact congrArg Sets.epoch (wake_sets ..)
        · exact congrArg Sets.epoch (wake_sets ..)
      clear_value s2
      split
      · rfl
      · next h =>
        have ht := (congrArg Sets.epoch (issue_sets h)).trans h2
        split <;> exact ht

theorem cpFetch_next_epoch {a : Nat} {s t : State} {x : Option Word} (h : cpFetch a s = (x, t)) : t.sets.epoch = s.sets.epoch := by
  have hf := cpFetch_epoch a s
  rwa [h] at hf

@[simp] theorem cpIssue_epoch (s : State) : (cpIssue s).sets.epoch = s.sets.epoch := by
  unfold cpIssue
  split
  · extract_lets pc
    split
    · next h => exact cpFetch_next_epoch h
    · next h =>
      split
      · next h' => rw [cpFetch_next_epoch h', cpFetch_next_epoch h]
      · next h' => rw [cpBundle_epoch, cpFetch_next_epoch h', cpFetch_next_epoch h]
  · rfl

/-! ## The patrol's findings (R367, R441) -/

@[simp] theorem beat_epoch (s : State) (b : Beat) : (beat s b).sets.epoch = s.sets.epoch := by unfold beat; split <;> simp

@[simp] theorem timebaseTick_epoch (n : Nat) (beats : List Beat) (s : State) :
    (timebaseTick n beats s).sets.epoch = s.sets.epoch := by simp [timebaseTick]

end Sys2Proof.Machine
end

section
/-! SUPPORT. The commands keep the epoch (R74), each by its own part; RESET.SOFT apart. -/

namespace Sys2Proof.Machine

/-- The own part of a row leaves the epoch as it was. -/
def KeepsEpoch (r : CmdRow) : Prop := ∀ (a : CmdArgs) (s : State), (r.body a s).s.sets.epoch = s.sets.epoch

theorem keepsEpoch_of_sets {r : CmdRow} (h : ∀ (a : CmdArgs) (s : State), (r.body a s).s.sets = s.sets) : KeepsEpoch r :=
  fun a s => congrArg Sets.epoch (h a s)

theorem setOk_epoch (want : Nat → Bool) {s : State} {k : Ans} (h : k.s.sets.epoch = s.sets.epoch) :
    (setOk want k s).s.sets.epoch = s.sets.epoch := by
  unfold setOk
  split
  · exact h
  · split
    · simp
    · exact h

theorem rowNop_epoch : KeepsEpoch rowNop := fun _ _ => rfl
theorem rowDevInfo_epoch : KeepsEpoch rowDevInfo := fun _ _ => rfl
theorem rowResetCore_epoch : KeepsEpoch rowResetCore := bodyResetCore_epoch

theorem rowIrqMask_epoch : KeepsEpoch rowIrqMask := fun a s => by
  simp only [rowIrqMask]
  exact checks_epoch rfl

theorem rowWdtCfg_epoch : KeepsEpoch rowWdtCfg := keepsEpoch_of_sets bodyWdtCfg_sets
theorem rowSwap_epoch : KeepsEpoch rowSwap := fun a s => setOk_epoch _ (bodySwap_epoch a s)
theorem rowSync_epoch : KeepsEpoch rowSync := keepsEpoch_of_sets bodySync_sets
theorem rowSetCopy_epoch : KeepsEpoch rowSetCopy := fun _ s => setOk_epoch _ (checks_epoch (copied_epoch s))
theorem rowSetRead_epoch : KeepsEpoch rowSetRead := keepsEpoch_of_sets bodySetRead_sets
theorem rowRefOn_epoch : KeepsEpoch rowRefOn := keepsEpoch_of_sets bodyRefOn_sets
theorem rowRefOff_epoch : KeepsEpoch rowRefOff := keepsEpoch_of_sets bodyRefOff_sets
theorem rowFeMode_epoch : KeepsEpoch rowFeMode := bodyFeMode_epoch
theorem rowFeGain_epoch : KeepsEpoch rowFeGain := bodyFeGain_epoch
theorem rowFePair_epoch : KeepsEpoch rowFePair := bodyFePair_epoch
theorem rowCalZ_epoch : KeepsEpoch rowCalZ := keepsEpoch_of_sets bodyCalZ_sets
theorem rowCalF_epoch : KeepsEpoch rowCalF := keepsEpoch_of_sets bodyCalF_sets
theorem rowCalExport_epoch : KeepsEpoch rowCalExport := keepsEpoch_of_sets fun a s => retOk_sets _ (secAns_sets (bodyCalExport_sets a s))
theorem rowCalImport_epoch : KeepsEpoch rowCalImport := keepsEpoch_of_sets fun a s => secAns_sets (bodyCalImport_sets a s)
theorem rowCalFactory_epoch : KeepsEpoch rowCalFactory := keepsEpoch_of_sets fun a s => secAns_sets (bodyCalFactory_sets a s)
theorem rowFltPreset_epoch : KeepsEpoch rowFltPreset := bodyFltPreset_epoch
theorem rowFirWrite_epoch : KeepsEpoch rowFirWrite := keepsEpoch_of_sets bodyFirWrite_sets
theorem rowFirSel_epoch : KeepsEpoch rowFirSel := bodyFirSel_epoch
theorem rowFirFade_epoch : KeepsEpoch rowFirFade := bodyFirFade_epoch
theorem rowDetCfg_epoch : KeepsEpoch rowDetCfg := keepsEpoch_of_sets bodyDetCfg_sets
theorem rowDetRead_epoch : KeepsEpoch rowDetRead := keepsEpoch_of_sets bodyDetRead_sets
theorem rowRoute_epoch : KeepsEpoch rowRoute := bodyRoute_epoch
theorem rowGain_epoch : KeepsEpoch rowGain := bodyGain_epoch
theorem rowRamp_epoch : KeepsEpoch rowRamp := bodyRamp_epoch
theorem rowWeir_epoch : KeepsEpoch rowWeir := bodyWeir_epoch
theorem rowMrTap_epoch : KeepsEpoch rowMrTap := bodyMrTap_epoch
theorem rowMrOut_epoch : KeepsEpoch rowMrOut := bodyMrOut_epoch
theorem rowPanicCfg_epoch : KeepsEpoch rowPanicCfg := keepsEpoch_of_sets bodyPanicCfg_sets
theorem rowFlowBind_epoch : KeepsEpoch rowFlowBind := bodyFlowBind_epoch
theorem rowFlowUnbind_epoch : KeepsEpoch rowFlowUnbind := bodyFlowUnbind_epoch
theorem rowTdmCfg_epoch : KeepsEpoch rowTdmCfg := keepsEpoch_of_sets bodyTdmCfg_sets
theorem rowAesCfg_epoch : KeepsEpoch rowAesCfg := keepsEpoch_of_sets bodyAesCfg_sets
theorem rowAesCs_epoch : KeepsEpoch rowAesCs := keepsEpoch_of_sets bodyAesCs_sets
theorem rowPdmCfg_epoch : KeepsEpoch rowPdmCfg := keepsEpoch_of_sets bodyPdmCfg_sets
theorem rowOutCfg_epoch : KeepsEpoch rowOutCfg := bodyOutCfg_epoch
theorem rowJackCfg_epoch : KeepsEpoch rowJackCfg := keepsEpoch_of_sets bodyJackCfg_sets
theorem rowMicbias_epoch : KeepsEpoch rowMicbias := keepsEpoch_of_sets bodyMicbias_sets
theorem rowSenseSeq_epoch : KeepsEpoch rowSenseSeq := keepsEpoch_of_sets bodySenseSeq_sets
theorem rowSenseStart_epoch : KeepsEpoch rowSenseStart := keepsEpoch_of_sets bodySenseStart_sets
theorem rowSenseNow_epoch : KeepsEpoch rowSenseNow := keepsEpoch_of_sets bodySenseNow_sets
theorem rowSenseWatch_epoch : KeepsEpoch rowSenseWatch := keepsEpoch_of_sets bodySenseWatch_sets
theorem rowPllCfg_epoch : KeepsEpoch rowPllCfg := keepsEpoch_of_sets bodyPllCfg_sets
theorem rowPllRef_epoch : KeepsEpoch rowPllRef := keepsEpoch_of_sets bodyPllRef_sets
theorem rowTimeRead_epoch : KeepsEpoch rowTimeRead := keepsEpoch_of_sets bodyTimeRead_sets
theorem rowSleep_epoch : KeepsEpoch rowSleep := keepsEpoch_of_sets bodySleep_sets
theorem rowPadsRelease_epoch : KeepsEpoch rowPadsRelease := keepsEpoch_of_sets bodyPadsRelease_sets
theorem rowAvsCfg_epoch : KeepsEpoch rowAvsCfg := keepsEpoch_of_sets bodyAvsCfg_sets
theorem rowCoreLoad_epoch : KeepsEpoch rowCoreLoad := keepsEpoch_of_sets bodyCoreLoad_sets
theorem rowCoreBind_epoch : KeepsEpoch rowCoreBind := bodyCoreBind_epoch
theorem rowCoreParam_epoch : KeepsEpoch rowCoreParam := bodyCoreParam_epoch
theorem rowCoreRead_epoch : KeepsEpoch rowCoreRead := keepsEpoch_of_sets bodyCoreRead_sets
theorem rowImageLoad_epoch : KeepsEpoch rowImageLoad := keepsEpoch_of_sets bodyImageLoad_sets
theorem rowImageExec_epoch : KeepsEpoch rowImageExec := keepsEpoch_of_sets bodyImageExec_sets
theorem rowSessionOpen_epoch : KeepsEpoch rowSessionOpen := keepsEpoch_of_sets fun a s => secAns_sets (bodySessionOpen_sets a s)
theorem rowSessionClose_epoch : KeepsEpoch rowSessionClose := keepsEpoch_of_sets bodySessionClose_sets
theorem rowOtpWrite_epoch : KeepsEpoch rowOtpWrite := keepsEpoch_of_sets fun a s => secAns_sets (bodyOtpWrite_sets a s)
theorem rowLifecycle_epoch : KeepsEpoch rowLifecycle := keepsEpoch_of_sets fun a s => secAns_sets (bodyLifecycle_sets a s)
theorem rowKeyRevoke_epoch : KeepsEpoch rowKeyRevoke := keepsEpoch_of_sets fun a s => secAns_sets (bodyKeyRevoke_sets a s)
theorem rowDebugChal_epoch : KeepsEpoch rowDebugChal := keepsEpoch_of_sets fun a s => secAns_sets (bodyDebugChal_sets a s)
theorem rowDebugResp_epoch : KeepsEpoch rowDebugResp := keepsEpoch_of_sets fun a s => secAns_sets (bodyDebugResp_sets a s)
theorem rowSealOpen_epoch : KeepsEpoch rowSealOpen := keepsEpoch_of_sets fun a s => secAns_sets (bodySealOpen_sets a s)
theorem rowSealClose_epoch : KeepsEpoch rowSealClose := keepsEpoch_of_sets bodySealClose_sets
theorem rowSealRead_epoch : KeepsEpoch rowSealRead := keepsEpoch_of_sets bodySealRead_sets
theorem rowCertRead_epoch : KeepsEpoch rowCertRead := keepsEpoch_of_sets fun a s => secAns_sets (bodyCertRead_sets a s)
theorem rowFaultRead_epoch : KeepsEpoch rowFaultRead := keepsEpoch_of_sets fun a s => retOk_sets _ (bodyFaultRead_sets a s)
theorem rowSelftest_epoch : KeepsEpoch rowSelftest := keepsEpoch_of_sets bodySelftest_sets
theorem rowMarginRead_epoch : KeepsEpoch rowMarginRead := keepsEpoch_of_sets fun a s => retOk_sets _ (bodyMarginRead_sets a s)
theorem rowFaultClear_epoch : KeepsEpoch rowFaultClear := keepsEpoch_of_sets bodyFaultClear_sets

theorem keepsEpoch_followed {r : CmdRow} (h : KeepsEpoch r) : KeepsEpoch (followed r) := fun a s => by
  rw [followed, refFollow_sets]
  exact h a s

/-- Of the rows of Table 2.7, RESET.SOFT (0x02) alone may change the epoch. -/
theorem rowAt_epoch {op : Nat} {r : CmdRow} (h : rowAt op = some r) (h2 : op ≠ 2) : KeepsEpoch r := by
  unfold rowAt at h
  split at h
  · cases h; exact rowNop_epoch
  · cases h; exact rowDevInfo_epoch
  · exact absurd rfl h2
  · cases h; exact rowResetCore_epoch
  · cases h; exact rowIrqMask_epoch
  · cases h; exact rowWdtCfg_epoch
  · cases h; exact rowSwap_epoch
  · cases h; exact rowSync_epoch
  · cases h; exact rowSetCopy_epoch
  · cases h; exact rowSetRead_epoch
  · cases h; exact rowRefOn_epoch
  · cases h; exact rowRefOff_epoch
  · cases h; exact rowFeMode_epoch
  · cases h; exact rowFeGain_epoch
  · cases h; exact rowFePair_epoch
  · cases h; exact rowCalZ_epoch
  · cases h; exact rowCalF_epoch
  · cases h; exact rowCalExport_epoch
  · cases h; exact rowCalImport_epoch
  · cases h; exact rowCalFactory_epoch
  · cases h; exact rowFltPreset_epoch
  · cases h; exact rowFirWrite_epoch
  · cases h; exact rowFirSel_epoch
  · cases h; exact rowFirFade_epoch
  · cases h; exact rowDetCfg_epoch
  · cases h; exact rowDetRead_epoch
  · cases h; exact rowRoute_epoch
  · cases h; exact rowGain_epoch
  · cases h; exact rowRamp_epoch
  · cases h; exact rowWeir_epoch
  · cases h; exact rowMrTap_epoch
  · cases h; exact rowMrOut_epoch
  · cases h; exact rowPanicCfg_epoch
  · cases h; exact rowFlowBind_epoch
  · cases h; exact rowFlowUnbind_epoch
  · cases h; exact keepsEpoch_followed rowTdmCfg_epoch
  · cases h; exact keepsEpoch_followed rowAesCfg_epoch
  · cases h; exact rowAesCs_epoch
  · cases h; exact rowPdmCfg_epoch
  · cases h; exact rowOutCfg_epoch
  · cases h; exact rowJackCfg_epoch
  · cases h; exact rowMicbias_epoch
  · cases h; exact rowSenseSeq_epoch
  · cases h; exact rowSenseStart_epoch
  · cases h; exact rowSenseNow_epoch
  · cases h; exact rowSenseWatch_epoch
  · cases h; exact rowPllCfg_epoch
  · cases h; exact rowPllRef_epoch
  · cases h; exact rowTimeRead_epoch
  · cases h; exact rowSleep_epoch
  · cases h; exact rowPadsRelease_epoch
  · cases h; exact rowAvsCfg_epoch
  · cases h; exact rowCoreLoad_epoch
  · cases h; exact rowCoreBind_epoch
  · cases h; exact rowCoreParam_epoch
  · cases h; exact rowCoreRead_epoch
  · cases h; exact rowImageLoad_epoch
  · cases h; exact rowImageExec_epoch
  · cases h; exact rowSessionOpen_epoch
  · cases h; exact rowSessionClose_epoch
  · cases h; exact rowOtpWrite_epoch
  · cases h; exact rowLifecycle_epoch
  · cases h; exact rowKeyRevoke_epoch
  · cases h; exact rowDebugChal_epoch
  · cases h; exact rowDebugResp_epoch
  · cases h; exact rowSealOpen_epoch
  · cases h; exact rowSealClose_epoch
  · cases h; exact rowSealRead_epoch
  · cases h; exact rowCertRead_epoch
  · cases h; exact rowFaultRead_epoch
  · cases h; exact rowSelftest_epoch
  · cases h; exact rowMarginRead_epoch
  · cases h; exact rowFaultClear_epoch
  · cases h

end Sys2Proof.Machine
end

section
/-! SUPPORT. The epoch at a swap that takes effect and at the resets (R69, R74), in a packet, and in the outcomes of `exec`. -/

namespace Sys2Proof.Machine

/-! ## Resets (R69) and the commit of HIBERNATE (Table 11.13) -/

theorem softReset_epoch (s : State) : (softReset s).sets.epoch = 0 := by
  unfold softReset
  extract_lets r _ _ _ r' t
  have ht : t.sets.epoch = 0 := by
    unfold t
    rw [tbSwitchAt_sets]
    rfl
  split
  · rw [startPllb_sets, ht]
  · exact ht

theorem watchdogReset_epoch (s : State) : (watchdogReset s).sets.epoch = 0 := by
  unfold watchdogReset
  extract_lets r _ r'
  have hr : r'.sets.epoch = 0 := by
    unfold r'
    rw [bootRom_sets]
    rfl
  rw [tbSwitchAt_sets]
  split
  · rw [startPllb_sets, hr]
  · exact hr

theorem pinResetTo_epoch (brown : Bool) (s : State) : (pinResetTo brown s).sets.epoch = 0 := by
  unfold pinResetTo
  extract_lets r p
  rw [tbSwitchAt_sets, resetRest_sets]
  rfl

theorem loseHibernate_epoch (s : State) : (loseHibernate s).sets.epoch = 0 := rfl

theorem watchdogExpiry_epoch (s : State) : (watchdogExpiry s).sets.epoch = s.sets.epoch ∨ (watchdogExpiry s).sets.epoch = 0 := by
  unfold watchdogExpiry
  split
  · exact .inr (watchdogReset_epoch s)
  · exact .inl rfl

theorem pinReset_epoch (s : State) : (pinReset s).sets.epoch = s.sets.epoch ∨ (pinReset s).sets.epoch = 0 := by
  unfold pinReset
  split
  · exact .inr (pinResetTo_epoch false s)
  · exact .inl rfl

theorem brownOut_epoch (s : State) : (brownOut s).sets.epoch = s.sets.epoch ∨ (brownOut s).sets.epoch = 0 := by
  unfold brownOut
  split
  · exact .inr (pinResetTo_epoch true s)
  · exact .inl rfl

theorem powerOnReset_epoch (s : State) : (powerOnReset s).sets.epoch = 0 := rfl
theorem vaonLoss_epoch (s : State) : (vaonLoss s).sets.epoch = 0 := rfl

/-- Of the sleep states HIBERNATE alone loses the sets. -/
theorem sleepCommit_epoch (s : State) : (sleepCommit s).sets.epoch = s.sets.epoch ∨
    ((sleepCommit s).sets.epoch = 0 ∧ ∃ e, s.power.entry = some e ∧ e.target = 6) := by
  unfold sleepCommit
  split
  · exact .inl rfl
  · next e he =>
    split
    · extract_lets t s1 _ s2 _ _ s3 s3' s4 s5 s6
      have h1 : s1.sets = s.sets := by
        unfold s1
        rw [audioStop_sets, ite_sets, holdClass_sets, ite_self]
      clear_value s1
      have h3 : s3.sets = s.sets := h1
      clear_value s3
      have h3' : s3'.sets = s.sets := by
        unfold s3'
        split
        · rw [ite_sets, noteTemp_sets, h3, ite_self]
        · exact h3
      clear_value s3'
      have h5 : s5.sets.epoch = s.sets.epoch := by
        unfold s5 s4
        simp [h3']
      clear_value s5
      have h6 : s6.sets.epoch = s.sets.epoch ∨ s6.sets.epoch = 0 ∧ t = stHib := by
        unfold s6
        split
        · rw [loseRest_sets]; exact .inl h5
        · split
          · next ht => exact .inr ⟨loseHibernate_epoch _, ht⟩
          · exact .inl h5
      clear_value s6
      rw [tbSwitch_sets, ite_sets, ite_self]
      exact h6.imp_right fun ⟨h0, ht⟩ => ⟨h0, e, he, ht⟩
    · exact .inl rfl

/-! ## The swap that takes effect (R74) -/

theorem fld_stSet_epoch (s : State) : fld (stSet s) 15 0 = s.sets.epoch % 65536 := by
  unfold stSet fld toWord
  simp only [BitVec.toNat_ofNat, Nat.shiftRight_zero]
  omega

theorem swapTakeEffect_epoch (s : State) : (swapTakeEffect s).sets.epoch = s.sets.epoch ∨
    ((swapTakeEffect s).sets.epoch = (s.sets.epoch + 1) % 65536 ∧ (∃ r, s.sets.swap = some r ∧ r.armed = false) ∧
      audioRuns s = true ∧ commonBoundary s = true ∧ oldEpochLeft s = false) := by
  unfold swapTakeEffect
  split
  · exact .inl rfl
  · next r hr =>
    split
    · next hc =>
      obtain ⟨harm, hrun, hbound, hold⟩ := hc
      refine .inr ⟨?_, ⟨r, hr, harm⟩, hrun, hbound, hold⟩
      rw [raiseIrq_sets, followActive_sets]
    · exact .inl rfl

theorem swapTakeEffect_epoch_succ {s : State} {r : SwapReq} (hr : s.sets.swap = some r) (harm : r.armed = false)
    (hrun : audioRuns s = true) (hbound : commonBoundary s = true) (hold : oldEpochLeft s = false) :
    (swapTakeEffect s).sets.epoch = (s.sets.epoch + 1) % 65536 := by
  unfold swapTakeEffect
  split
  · next hn => rw [hn] at hr; cases hr
  · next r' hr' =>
    cases hr'.symm.trans hr
    rw [if_pos ⟨harm, hrun, hbound, hold⟩, raiseIrq_sets, followActive_sets]

/-! ## Commands, and the commands of a packet -/

/-- A row whose own part keeps the epoch keeps it. -/
theorem runRow_epoch {r : CmdRow} (h : KeepsEpoch r) (a : CmdArgs) (s : State) : (runRow r a s).s.sets.epoch = s.sets.epoch := by
  rcases runRow_cases r a s with ⟨st, h1⟩ | h1
  · rw [h1]; rfl
  · rw [h1]
    dsimp only
    split
    · exact h a s
    · exact h a s

/-- RESET.SOFT: held back, or the reset. -/
theorem runRow_resetSoft (a : CmdArgs) (s : State) :
    (∃ st, runRow rowResetSoft a s = no st s) ∨ (runRow rowResetSoft a s).s.sets.epoch = 0 := by
  rcases runRow_cases rowResetSoft a s with h | h
  · exact .inl h
  · rw [h]; exact .inr (softReset_epoch s)

/-- RESET.SOFT outside a packet. -/
theorem exec_resetSoft_epoch {a : CmdArgs} {s t : State} (h : exec (.resetSoft a) s = .next t) :
    t.sets.epoch = s.sets.epoch ∨ t.sets.epoch = 0 := by
  have hx : (runRow rowResetSoft a (fresh s)).s.sets.epoch = s.sets.epoch ∨ (runRow rowResetSoft a (fresh s)).s.sets.epoch = 0 := by
    rcases runRow_resetSoft a (fresh s) with ⟨st, h1⟩ | h1
    · rw [h1]; exact .inl rfl
    · exact .inr h1
  change execResetSoft a s = .next t at h
  unfold execResetSoft at h
  split at h
  · cases h
    split
    · exact hx
    · exact hx
  · cases h; exact .inl rfl

/-- A command of a packet leaves the epoch as it was, or is RESET.SOFT and leaves 0. -/
theorem runCommand_epoch (sess : Bool) (w : Word) (rest : List Word) (s : State) :
    (runCommand sess w rest s).s.sets.epoch = s.sets.epoch ∨
      (fld w 31 24 = 2 ∧ (runCommand sess w rest s).s.sets.epoch = 0) := by
  unfold runCommand
  split
  · exact .inl rfl
  · split
    · exact .inl rfl
    · next r hr =>
      by_cases h2 : fld w 31 24 = 2
      · rw [h2] at hr
        cases hr
        rcases runRow_resetSoft (cmdArgs sess w (rest.take (fld w 15 0))) s with ⟨st, h⟩ | h
        · rw [h]; exact .inl rfl
        · exact .inr ⟨h2, h⟩
      · exact .inl (runRow_epoch (rowAt_epoch hr h2) _ s)

/-- The commands of a packet leave the epoch as it was, or one of them is RESET.SOFT, after which none runs. -/
theorem runCommands_epoch (sess : Bool) (n : Nat) (ws : List Word) (o : Bool) (s : State) :
    (runCommands sess n ws o s).s.sets.epoch = s.sets.epoch ∨
      ((runCommands sess n ws o s).s.sets.epoch = 0 ∧ ∃ w ∈ ws, fld w 31 24 = 2) := by
  induction n generalizing ws o s with
  | zero => exact .inl rfl
  | succ n ih =>
    cases ws with
    | nil => exact .inl rfl
    | cons w rest =>
      have hw := runCommand_epoch sess w rest s
      simp only [runCommands]
      generalize runCommand sess w rest s = x at hw ⊢
      have hx : x.s.sets.epoch = s.sets.epoch ∨ (x.s.sets.epoch = 0 ∧ ∃ w' ∈ w :: rest, fld w' 31 24 = 2) :=
        hw.imp_right fun ⟨h2, h0⟩ => ⟨h0, w, List.mem_cons_self, h2⟩
      split
      · exact hx
      · split
        · rcases ih (rest.drop (fld w 15 0)) (o || fld w 31 24 == 0xB0)
            { x.s with host := { x.s.host with building := s.host.building ++ ansWords (fld w 31 24) x } } with h | ⟨h0, w', hm, h2⟩
          · rw [h]; exact hx
          · exact .inr ⟨h0, w', List.mem_cons_of_mem _ (List.mem_of_mem_drop hm), h2⟩
        · exact hx

theorem packetExecute_epoch (s : State) : (packetExecute s).sets.epoch = s.sets.epoch ∨
    ((packetExecute s).sets.epoch = 0 ∧ ∃ p ps w, s.host.accepted = p :: ps ∧ w ∈ p.words ∧ fld w 31 24 = 0x02) := by
  unfold packetExecute
  split
  · exact .inl rfl
  · next p ps hp =>
    split
    · exact .inl rfl
    · extract_lets _ s0 r
      have hr : r.s.sets.epoch = s.sets.epoch ∨
          (r.s.sets.epoch = 0 ∧ ∃ p' ps' w, s.host.accepted = p' :: ps' ∧ w ∈ p'.words ∧ fld w 31 24 = 0x02) :=
        (runCommands_epoch p.sess p.words.length p.words false s0).imp_right
          fun ⟨h0, w, hw, h2⟩ => ⟨h0, p, ps, w, hp, hw, h2⟩
      split
      · exact hr
      · split
        · rw [queueResponse_sets]; exact hr
        · split
          · split
            rw [queueResponse_sets]
            exact hr
          · rw [queueResponse_sets]; exact hr

/-! ## Outcomes -/

/-- Whatever next state an outcome has, its epoch is that of `s`. -/
def LeavesEpoch (o : Out) (s : State) : Prop := ∀ t, o = .next t → t.sets.epoch = s.sets.epoch

theorem leavesEpoch_next {s t : State} (h : t.sets.epoch = s.sets.epoch) : LeavesEpoch (.next t) s := by
  rintro _ ⟨⟩
  exact h

theorem leavesEpoch_ev {s t : State} (h : t.sets.epoch = s.sets.epoch) : LeavesEpoch (ev s t) s := leavesEpoch_next h
theorem leavesEpoch_of_sets {s t : State} (h : t.sets = s.sets) : LeavesEpoch (ev s t) s := leavesEpoch_ev (congrArg Sets.epoch h)

theorem leavesEpoch_refused (r : Refusal) (s : State) : LeavesEpoch (.refused r) s := by
  intro t h
  cases h

theorem leavesEpoch_fault (f : Fault) (s : State) : LeavesEpoch (.fault f) s := by
  intro t h
  cases h

theorem leavesEpoch_row {r : CmdRow} (h : KeepsEpoch r) (a : CmdArgs) (s : State) : LeavesEpoch (execRow r a s) s := by
  unfold execRow
  split
  · exact leavesEpoch_next (runRow_epoch h a (fresh s))
  · exact leavesEpoch_next rfl

theorem leavesEpoch_followed {s : State} {o : Out} (h : LeavesEpoch o s) :
    LeavesEpoch (onNext (fun t => settle s (refFollow s t)) o) s := by
  cases o with
  | next t => exact leavesEpoch_next ((congrArg Sets.epoch (refFollow_sets s t)).trans (h t rfl))
  | fault f => exact leavesEpoch_fault f s
  | refused r => exact leavesEpoch_refused r s

theorem leavesEpoch_syl (u : Site) (on : Bool) (effs : List Eff) (s : State) : LeavesEpoch (runSyl u on effs s) s := by
  unfold runSyl
  extract_lets e
  split
  · next h => exact leavesEpoch_of_sets (bundleLost_sets h)
  · split
    · next h => exact leavesEpoch_of_sets ((issue_sets h).trans (wake_sets u s))
    · exact leavesEpoch_fault _ s

theorem leavesEpoch_core (m : String) (u : Site) (on : Bool) (effs : List Eff) (s : State) : LeavesEpoch (runCore m u on effs s) s := by
  cases u with
  | sc _ => exact leavesEpoch_syl _ on effs s
  | cp => exact leavesEpoch_refused _ s

theorem leavesEpoch_matrix (m : String) (u : Site) (on : Bool) (effs : List Eff) (s : State) : LeavesEpoch (onMatrix m u on effs s) s := by
  unfold onMatrix
  split
  · split
    · exact leavesEpoch_next rfl
    · exact leavesEpoch_syl _ on effs s
  · exact leavesEpoch_refused _ s

theorem leavesEpoch_cp {f : State → State} (hf : ∀ s, (f s).sets.epoch = s.sets.epoch) (p : Pred) (s : State) :
    LeavesEpoch (runCp p f s) s := by
  unfold runCp
  extract_lets s0 s1
  have h0 : s0.sets.epoch = s.sets.epoch := congrArg Sets.epoch (wake_sets .cp s)
  have h1 : s1.sets.epoch = s.sets.epoch := by
    unfold s1
    split
    · exact (hf s0).trans h0
    · exact h0
  split
  · next h => exact leavesEpoch_ev ((congrArg Sets.epoch (issue_sets h)).trans h1)
  · exact leavesEpoch_fault _ s

theorem leavesEpoch_bus {f : State → State} (hf : ∀ s, (f s).sets.epoch = s.sets.epoch) (p : Pred) (s : State) :
    LeavesEpoch (runBus p f s) s := by
  unfold runBus
  split
  · exact leavesEpoch_next rfl
  · exact leavesEpoch_cp hf p s

theorem leavesEpoch_ite {p : Prop} [Decidable p] {o o' : Out} {s : State} (h : LeavesEpoch o s) (h' : LeavesEpoch o' s) :
    LeavesEpoch (if p then o else o') s := by
  split
  · exact h
  · exact h'

end Sys2Proof.Machine
end

section
/-! SUPPORT. The epoch at each command, event and syllable (R74). -/

namespace Sys2Proof.Machine

/-- The commands and events that R74 lets change the epoch. -/
def movesEpoch : Instr → Bool
  | .resetSoft _ | .packetExecute | .swapTakeEffect | .sleepCommit => true
  | .watchdogExpiry | .pinReset | .brownOut | .powerOnReset | .vaonLoss => true
  | _ => false

/-- Whatever else `exec` does leaves the epoch as it was: a command by its row, a syllable by the issue of its bundle, an event by the
lemma of its function. -/
theorem leavesEpoch_exec {c : Instr} (hc : movesEpoch c = false) (s : State) : LeavesEpoch (exec c s) s := by
  cases c with
  | writePkt _ => exact leavesEpoch_of_sets (writePkt_sets ..)
  | readPkt _ => exact leavesEpoch_of_sets (readPkt_sets ..)
  | readSt _ _ _ => exact leavesEpoch_of_sets (readSt_sets ..)
  | packetExecute => cases hc
  | nop _ => exact leavesEpoch_row rowNop_epoch _ s
  | devInfo _ => exact leavesEpoch_row rowDevInfo_epoch _ s
  | irqMask _ => exact leavesEpoch_row rowIrqMask_epoch _ s
  | resetSoft _ => cases hc
  | firmwareReady => exact leavesEpoch_of_sets (firmwareReady_sets ..)
  | resetCore _ => exact leavesEpoch_row rowResetCore_epoch _ s
  | wdtCfg _ => exact leavesEpoch_row rowWdtCfg_epoch _ s
  | watchdogExpiry => cases hc
  | swap _ => exact leavesEpoch_row rowSwap_epoch _ s
  | swapCancel _ => exact leavesEpoch_row rowSwap_epoch _ s
  | swapTakeEffect => cases hc
  | swapTimeout => exact leavesEpoch_ev (swapTimeout_epoch ..)
  | copyComplete => exact leavesEpoch_ev (copyComplete_epoch ..)
  | setCopy _ => exact leavesEpoch_row rowSetCopy_epoch _ s
  | setRead _ => exact leavesEpoch_row rowSetRead_epoch _ s
  | immediateWriteApply _ => exact leavesEpoch_ev (immediateWriteApply_epoch ..)
  | syncCfg _ => exact leavesEpoch_row rowSync_epoch _ s
  | syncEmit _ => exact leavesEpoch_row rowSync_epoch _ s
  | syncNow _ => exact leavesEpoch_row rowSync_epoch _ s
  | syncInEdge _ => exact leavesEpoch_ev (syncInEdge_epoch ..)
  | synchronisingReset _ => exact leavesEpoch_ev (synchronisingReset_epoch ..)
  | refOn _ => exact leavesEpoch_row rowRefOn_epoch _ s
  | refOff _ => exact leavesEpoch_row rowRefOff_epoch _ s
  | refReady _ => exact leavesEpoch_of_sets (refReady_sets ..)
  | channelStart _ => exact leavesEpoch_ev (by simp)
  | refSettleLate _ => exact leavesEpoch_of_sets (refSettleLate_sets ..)
  | refOutOfTolerance _ => exact leavesEpoch_of_sets (refOutOfTolerance_sets ..)
  | feMode _ => exact leavesEpoch_row rowFeMode_epoch _ s
  | feGain _ => exact leavesEpoch_row rowFeGain_epoch _ s
  | fePair _ => exact leavesEpoch_row rowFePair_epoch _ s
  | gainSwitch _ _ => exact leavesEpoch_of_sets (gainSwitch_sets ..)
  | overloadTrip _ => exact leavesEpoch_of_sets (overloadTrip_sets ..)
  | overloadRelease _ => exact leavesEpoch_of_sets (overloadRelease_sets ..)
  | modulatorInstability _ => exact leavesEpoch_of_sets (modulatorInstability_sets ..)
  | modulatorRecovery _ => exact leavesEpoch_of_sets (modulatorRecovery_sets ..)
  | neighbourSetEnd _ => exact leavesEpoch_of_sets (neighbourSetEnd_sets ..)
  | calZ _ => exact leavesEpoch_row rowCalZ_epoch _ s
  | calF _ => exact leavesEpoch_row rowCalF_epoch _ s
  | calZComplete _ => exact leavesEpoch_of_sets (calZComplete_sets ..)
  | calFComplete _ => exact leavesEpoch_of_sets (calFComplete_sets ..)
  | coefficientMoveEnd _ => exact leavesEpoch_of_sets (coefficientMoveEnd_sets ..)
  | calExportPart0 _ => exact leavesEpoch_row rowCalExport_epoch _ s
  | calExportPart _ => exact leavesEpoch_row rowCalExport_epoch _ s
  | calImportPart _ => exact leavesEpoch_row rowCalImport_epoch _ s
  | calImportCommit _ => exact leavesEpoch_row rowCalImport_epoch _ s
  | calFactoryRestore _ => exact leavesEpoch_row rowCalFactory_epoch _ s
  | calFactoryProgram _ => exact leavesEpoch_row rowCalFactory_epoch _ s
  | calFactoryClear _ => exact leavesEpoch_row rowCalFactory_epoch _ s
  | fltPreset _ => exact leavesEpoch_row rowFltPreset_epoch _ s
  | firWriteHdr _ => exact leavesEpoch_row rowFirWrite_epoch _ s
  | firWrite _ => exact leavesEpoch_row rowFirWrite_epoch _ s
  | firSel _ => exact leavesEpoch_row rowFirSel_epoch _ s
  | firFade _ => exact leavesEpoch_row rowFirFade_epoch _ s
  | fadeEnd _ => exact leavesEpoch_of_sets (fadeEnd_sets ..)
  | queuedFadeStart _ => exact leavesEpoch_of_sets (queuedFadeStart_sets ..)
  | detCfg _ => exact leavesEpoch_row rowDetCfg_epoch _ s
  | detRead _ => exact leavesEpoch_row rowDetRead_epoch _ s
  | meterUpdate => exact leavesEpoch_of_sets (meterUpdate_sets ..)
  | detectorCaptureRead _ => exact leavesEpoch_of_sets (detCapture_sets ..)
  | route _ => exact leavesEpoch_row rowRoute_epoch _ s
  | gain _ => exact leavesEpoch_row rowGain_epoch _ s
  | ramp _ => exact leavesEpoch_row rowRamp_epoch _ s
  | weir _ => exact leavesEpoch_row rowWeir_epoch _ s
  | nodeRampEnd _ _ => exact leavesEpoch_of_sets (nodeRampEnd_sets ..)
  | mrTap _ => exact leavesEpoch_row rowMrTap_epoch _ s
  | mrOut _ => exact leavesEpoch_row rowMrOut_epoch _ s
  | tapRampEnd _ => exact leavesEpoch_of_sets (tapRampEnd_sets ..)
  | panicCfg _ => exact leavesEpoch_row rowPanicCfg_epoch _ s
  | panicRelease _ => exact leavesEpoch_row rowPanicCfg_epoch _ s
  | panicAssert => exact leavesEpoch_ev (by simp)
  | flowBind _ => exact leavesEpoch_row rowFlowBind_epoch _ s
  | flowUnbind _ => exact leavesEpoch_row rowFlowUnbind_epoch _ s
  | flowSample _ _ _ => exact leavesEpoch_ev (flowSample_epoch ..)
  | tdmCfg _ => exact leavesEpoch_followed (leavesEpoch_row rowTdmCfg_epoch _ s)
  | tdmMasterClockStart _ => exact leavesEpoch_of_sets (tdmMasterClockStart_sets ..)
  | tdmFrameReceive _ _ _ _ => exact leavesEpoch_ev (by simp)
  | tdmFrameSend _ => exact leavesEpoch_of_sets (tdmFrameSend_sets ..)
  | tdmClockStop _ => exact leavesEpoch_ev (by simp)
  | aesCfg _ => exact leavesEpoch_followed (leavesEpoch_row rowAesCfg_epoch _ s)
  | aesCsRead _ => exact leavesEpoch_row rowAesCs_epoch _ s
  | aesCsWrite _ => exact leavesEpoch_row rowAesCs_epoch _ s
  | aes3SubframeReceive _ _ _ _ _ => exact leavesEpoch_of_sets (aes3Subframe_sets ..)
  | aes3BlockReceive _ _ _ => exact leavesEpoch_of_sets (aes3Block_sets ..)
  | aes3Lock _ _ _ => exact leavesEpoch_ev (by simp)
  | aes3LossOfLock _ => exact leavesEpoch_ev (by simp)
  | aes3ZPreamble _ => exact leavesEpoch_of_sets (aes3Z_sets ..)
  | pdmCfg _ => exact leavesEpoch_row rowPdmCfg_epoch _ s
  | pdmClockStart _ => exact leavesEpoch_of_sets (pdmClockStart_sets ..)
  | asrcTrackerLock _ => exact leavesEpoch_of_sets (asrcTrackerLock_sets ..)
  | asrcReacquire _ => exact leavesEpoch_of_sets (asrcReacquire_sets ..)
  | asrcOutOfRange _ => exact leavesEpoch_of_sets (asrcOutOfRange_sets ..)
  | outCfg _ => exact leavesEpoch_row rowOutCfg_epoch _ s
  | pumpSoftStartDone _ => exact leavesEpoch_of_sets (pumpSoftStartDone_sets ..)
  | servoDone _ _ => exact leavesEpoch_of_sets (servoDone_sets ..)
  | speakerUnmuteStart _ => exact leavesEpoch_of_sets (speakerUnmuteStart_sets ..)
  | unmuteRampEnd _ => exact leavesEpoch_of_sets (unmuteRampEnd_sets ..)
  | muteRampEnd _ => exact leavesEpoch_ev (by simp)
  | pumpStop _ => exact leavesEpoch_of_sets (pumpStop_sets ..)
  | vcmRampEnd => exact leavesEpoch_of_sets (vcmRampEnd_sets ..)
  | classgSwitchHigh _ => exact leavesEpoch_of_sets (classgHigh_sets ..)
  | classgSwitchLow _ => exact leavesEpoch_of_sets (classgLow_sets ..)
  | speakerOvercurrent _ => exact leavesEpoch_ev (by simp)
  | speakerTripRestart _ => exact leavesEpoch_of_sets (speakerTripRestart_sets ..)
  | speakerOvertemp _ => exact leavesEpoch_of_sets (speakerOvertemp_sets ..)
  | speakerTempRecover _ => exact leavesEpoch_of_sets (speakerTempRecover_sets ..)
  | jackCfg _ => exact leavesEpoch_row rowJackCfg_epoch _ s
  | jackUnmute _ => exact leavesEpoch_row rowJackCfg_epoch _ s
  | micbias _ => exact leavesEpoch_row rowMicbias_epoch _ s
  | hpdetChange _ _ => exact leavesEpoch_of_sets (hpdetChange_sets ..)
  | jackMuteAutoRelease _ => exact leavesEpoch_of_sets (jackMuteAutoRelease_sets ..)
  | insertionConfirmed _ => exact leavesEpoch_ev (by simp)
  | removalConfirmed _ => exact leavesEpoch_ev (by simp)
  | classificationStart _ => exact leavesEpoch_of_sets (classificationStart_sets ..)
  | tipRead _ _ => exact leavesEpoch_of_sets (tipRead_sets ..)
  | micReadA _ _ => exact leavesEpoch_of_sets (micReadA_sets ..)
  | micReadB _ _ => exact leavesEpoch_of_sets (micReadB_sets ..)
  | classificationTimeout _ => exact leavesEpoch_of_sets (classificationTimeout_sets ..)
  | detectionReadReissue _ _ => exact leavesEpoch_ev (by simp)
  | buttonSample _ _ => exact leavesEpoch_ev (by simp)
  | senseSeq _ => exact leavesEpoch_row rowSenseSeq_epoch _ s
  | senseStart _ => exact leavesEpoch_row rowSenseStart_epoch _ s
  | senseNow _ => exact leavesEpoch_row rowSenseNow_epoch _ s
  | senseWatch _ => exact leavesEpoch_row rowSenseWatch_epoch _ s
  | senseTrigEdge _ => exact leavesEpoch_of_sets (senseTrigEdge_sets ..)
  | sequenceEntryComplete _ => exact leavesEpoch_of_sets (sequenceEntryComplete_sets ..)
  | watchConversion _ => exact leavesEpoch_of_sets (watchConversion_sets ..)
  | urgentConversionComplete => exact leavesEpoch_of_sets (urgentComplete_sets ..)
  | pllCfg _ => exact leavesEpoch_row rowPllCfg_epoch _ s
  | pllRef _ => exact leavesEpoch_row rowPllRef_epoch _ s
  | timeRead _ => exact leavesEpoch_row rowTimeRead_epoch _ s
  | pllWindow _ _ _ _ => exact leavesEpoch_of_sets (pllWindow_sets ..)
  | referenceLost _ => exact leavesEpoch_of_sets (referenceLost_sets ..)
  | holdoverMute => exact leavesEpoch_of_sets (holdoverMute_sets ..)
  | holdoverRestart => exact leavesEpoch_of_sets (holdoverRestart_sets ..)
  | pllUngate _ => exact leavesEpoch_ev (pllUngate_epoch ..)
  | frequencyGuardTrip _ _ => exact leavesEpoch_ev (by simp)
  | xrefReady => exact leavesEpoch_of_sets (xrefReady_sets ..)
  | timebaseTick _ => exact leavesEpoch_ev (timebaseTick_epoch ..)
  | aonCalibration _ _ => exact leavesEpoch_of_sets (aonCalibration_sets ..)
  | aonTempSample _ => exact leavesEpoch_of_sets (aonTempSample_sets ..)
  | sleep _ => exact leavesEpoch_row rowSleep_epoch _ s
  | sleepCancel _ => exact leavesEpoch_row rowSleep_epoch _ s
  | sleepQuery => exact leavesEpoch_of_sets (sleepQuery_sets ..)
  | agentAccept _ => exact leavesEpoch_of_sets (agentAccept_sets ..)
  | delayExpired _ => exact leavesEpoch_of_sets (delayExpired_sets ..)
  | sleepCommit => cases hc
  | wakePin => exact leavesEpoch_of_sets (wakePin_sets ..)
  | sleepTimer => exact leavesEpoch_of_sets (sleepTimer_sets ..)
  | dvddPowerGood => exact leavesEpoch_of_sets (dvddPowerGood_sets ..)
  | wakeStepTimeout => exact leavesEpoch_of_sets (wakeStepTimeout_sets ..)
  | wakeRetry => exact leavesEpoch_of_sets (wakeRetry_sets ..)
  | returnToRun => exact leavesEpoch_of_sets (returnToRun_sets ..)
  | audioRestart => exact leavesEpoch_of_sets (audioRestart_sets ..)
  | padsRelease _ => exact leavesEpoch_row rowPadsRelease_epoch _ s
  | avsCfg _ => exact leavesEpoch_row rowAvsCfg_epoch _ s
  | pinReset => cases hc
  | brownOut => cases hc
  | powerOnReset => cases hc
  | vaonLoss => cases hc
  | bootStart _ => exact leavesEpoch_of_sets (bootStart_sets ..)
  | flashBoot _ _ => exact leavesEpoch_of_sets (flashBoot_sets ..)
  | hpvddLockout => exact leavesEpoch_ev (by simp)
  | spkvddLockout => exact leavesEpoch_ev (by simp)
  | spkvddRecover => exact leavesEpoch_of_sets (spkvddRecover_sets ..)
  | iovddALoss => exact leavesEpoch_of_sets (iovddALoss_sets ..)
  | iovddHLoss => exact leavesEpoch_of_sets (iovddH_sets ..)
  | coreLoad _ => exact leavesEpoch_row rowCoreLoad_epoch _ s
  | coreBind _ => exact leavesEpoch_row rowCoreBind_epoch _ s
  | coreParam _ => exact leavesEpoch_row rowCoreParam_epoch _ s
  | coreRead _ => exact leavesEpoch_row rowCoreRead_epoch _ s
  | coreFrameCompute _ => exact leavesEpoch_of_sets (coreFrameCompute_sets ..)
  | framePresentation _ => exact leavesEpoch_of_sets (framePresentation_sets ..)
  | coreMemoryClearDone _ => exact leavesEpoch_of_sets (coreClearDone_sets ..)
  | codeFetchError _ => exact leavesEpoch_of_sets (codeFetchError_sets ..)
  | bundleNop _ => exact leavesEpoch_syl _ true [] s
  | add _ _ _ _ _ => exact leavesEpoch_syl _ _ _ s
  | adds _ _ _ _ _ => exact leavesEpoch_syl _ _ _ s
  | sub _ _ _ _ _ => exact leavesEpoch_syl _ _ _ s
  | subs _ _ _ _ _ => exact leavesEpoch_syl _ _ _ s
  | and _ _ _ _ _ => exact leavesEpoch_syl _ _ _ s
  | or _ _ _ _ _ => exact leavesEpoch_syl _ _ _ s
  | xor _ _ _ _ _ => exact leavesEpoch_syl _ _ _ s
  | shl _ _ _ _ _ => exact leavesEpoch_syl _ _ _ s
  | shr _ _ _ _ _ => exact leavesEpoch_syl _ _ _ s
  | sar _ _ _ _ _ => exact leavesEpoch_syl _ _ _ s
  | shls _ _ _ _ _ => exact leavesEpoch_syl _ _ _ s
  | mulq _ _ _ _ _ => exact leavesEpoch_core _ _ _ _ s
  | min _ _ _ _ _ => exact leavesEpoch_syl _ _ _ s
  | max _ _ _ _ _ => exact leavesEpoch_syl _ _ _ s
  | abs _ _ _ _ => exact leavesEpoch_syl _ _ _ s
  | sel _ _ _ _ _ _ => exact leavesEpoch_syl _ _ _ s
  | addi _ _ _ _ _ => exact leavesEpoch_syl _ _ _ s
  | movl _ _ _ _ => exact leavesEpoch_syl _ _ _ s
  | movh _ _ _ _ => exact leavesEpoch_syl _ _ _ s
  | cmplt _ _ _ _ _ => exact leavesEpoch_syl _ _ _ s
  | cmple _ _ _ _ _ => exact leavesEpoch_syl _ _ _ s
  | cmpeq _ _ _ _ _ => exact leavesEpoch_syl _ _ _ s
  | tstt _ _ _ _ _ => exact leavesEpoch_syl _ _ _ s
  | pand _ _ _ _ _ => exact leavesEpoch_syl _ _ _ s
  | por _ _ _ _ _ => exact leavesEpoch_syl _ _ _ s
  | pnot _ _ _ _ => exact leavesEpoch_syl _ _ _ s
  | tags _ _ _ _ _ => exact leavesEpoch_syl _ _ _ s
  | tagc _ _ _ _ _ => exact leavesEpoch_syl _ _ _ s
  | tagr _ _ _ _ => exact leavesEpoch_syl _ _ _ s
  | tagw _ _ _ _ _ => exact leavesEpoch_syl _ _ _ s
  | macz _ _ _ _ _ => exact leavesEpoch_core _ _ _ _ s
  | mac _ _ _ _ _ => exact leavesEpoch_core _ _ _ _ s
  | msu _ _ _ _ _ => exact leavesEpoch_core _ _ _ _ s
  | accadd _ _ _ _ => exact leavesEpoch_core _ _ _ _ s
  | accmv _ _ _ _ => exact leavesEpoch_core _ _ _ _ s
  | accrd _ _ _ _ _ => exact leavesEpoch_ite (leavesEpoch_core _ _ _ _ s) (leavesEpoch_refused _ s)
  | ldw _ _ _ _ _ => exact leavesEpoch_syl _ _ _ s
  | ldw2 _ _ _ _ _ => exact leavesEpoch_syl _ _ _ s
  | stw _ _ _ _ _ => exact leavesEpoch_syl _ _ _ s
  | stw2 _ _ _ _ _ => exact leavesEpoch_syl _ _ _ s
  | ldp _ _ _ _ _ => exact leavesEpoch_core _ _ _ _ s
  | ldc _ _ _ _ _ => exact leavesEpoch_core _ _ _ _ s
  | ldc2 _ _ _ _ _ => exact leavesEpoch_core _ _ _ _ s
  | ldd _ _ _ _ _ => exact leavesEpoch_matrix _ _ _ _ s
  | std _ _ _ _ _ => exact leavesEpoch_matrix _ _ _ _ s
  | lds _ _ _ _ _ _ => exact leavesEpoch_core _ _ _ _ s
  | str _ _ _ _ _ _ => exact leavesEpoch_core _ _ _ _ s
  | br _ _ _ => exact leavesEpoch_syl _ _ _ s
  | call _ _ _ => exact leavesEpoch_syl _ _ _ s
  | ret _ _ => exact leavesEpoch_syl _ _ _ s
  | loop _ _ _ _ => exact leavesEpoch_syl _ _ _ s
  | loopi _ _ _ => exact leavesEpoch_ite (leavesEpoch_refused _ s) (leavesEpoch_syl _ _ _ s)
  | fend _ => exact leavesEpoch_core _ _ _ _ s
  | ldg _ _ _ _ => exact leavesEpoch_bus (cpLoad_epoch _ _) _ s
  | stg _ _ _ _ => exact leavesEpoch_bus (cpStore_epoch _ _) _ s
  | ldgh _ _ _ _ => exact leavesEpoch_bus (cpLoadPart_epoch _ _ _) _ s
  | stgh _ _ _ _ => exact leavesEpoch_bus (cpStorePart_epoch _ _ _) _ s
  | ldgb _ _ _ _ => exact leavesEpoch_bus (cpLoadPart_epoch _ _ _) _ s
  | stgb _ _ _ _ => exact leavesEpoch_bus (cpStorePart_epoch _ _ _) _ s
  | ldgl _ _ _ _ => exact leavesEpoch_bus (cpLoadLocked_epoch _ _) _ s
  | stgu _ _ _ _ => exact leavesEpoch_bus (cpStoreUnlock_epoch _ _) _ s
  | wfe _ => exact leavesEpoch_cp (f := fun s => { s with cp := { s.cp with wfe := true } }) (fun _ => rfl) _ s
  | lockTimeout => exact leavesEpoch_of_sets (lockTimeout_sets ..)
  | registerWrite _ _ _ => exact leavesEpoch_of_sets (registerWrite_sets ..)
  | eccWriteback _ => exact leavesEpoch_of_sets (eccWriteback_sets ..)
  | patrolPass _ _ _ => exact leavesEpoch_ev (patrolFinds_epoch ..)
  | imageLoad _ => exact leavesEpoch_row rowImageLoad_epoch _ s
  | imageExec _ => exact leavesEpoch_row rowImageExec_epoch _ s
  | imageExecComplete => exact leavesEpoch_of_sets (imageExecComplete_sets ..)
  | sessionOpen _ => exact leavesEpoch_row rowSessionOpen_epoch _ s
  | sessionClose _ => exact leavesEpoch_row rowSessionClose_epoch _ s
  | otpWriteRootkey _ => exact leavesEpoch_row rowOtpWrite_epoch _ s
  | otpWritePolicy _ => exact leavesEpoch_row rowOtpWrite_epoch _ s
  | otpWriteXrefFreq _ => exact leavesEpoch_row rowOtpWrite_epoch _ s
  | otpWriteCert _ => exact leavesEpoch_row rowOtpWrite_epoch _ s
  | otpWriteArb _ => exact leavesEpoch_row rowOtpWrite_epoch _ s
  | lifecycle _ => exact leavesEpoch_row rowLifecycle_epoch _ s
  | keyRevoke _ => exact leavesEpoch_row rowKeyRevoke_epoch _ s
  | certReadKeys _ => exact leavesEpoch_row rowCertRead_epoch _ s
  | certRead _ => exact leavesEpoch_row rowCertRead_epoch _ s
  | debugChal _ => exact leavesEpoch_row rowDebugChal_epoch _ s
  | debugResp _ => exact leavesEpoch_row rowDebugResp_epoch _ s
  | debugChallengeExpiry => exact leavesEpoch_of_sets (challengeExpiry_sets ..)
  | drbgHealthFail _ => exact leavesEpoch_of_sets (drbgHealthFail_sets ..)
  | sealOpen _ => exact leavesEpoch_row rowSealOpen_epoch _ s
  | sealStart _ => exact leavesEpoch_of_sets (sealStart_sets ..)
  | sealBlockEnd _ => exact leavesEpoch_of_sets (sealBlockEnd_sets ..)
  | sealSignRecord _ => exact leavesEpoch_of_sets (sealSignRecord_sets ..)
  | sealClose _ => exact leavesEpoch_row rowSealClose_epoch _ s
  | sealCloseRecord _ => exact leavesEpoch_of_sets (sealCloseRecord_sets ..)
  | sealRead _ => exact leavesEpoch_row rowSealRead_epoch _ s
  | faultRead _ => exact leavesEpoch_row rowFaultRead_epoch _ s
  | faultClear _ => exact leavesEpoch_row rowFaultClear_epoch _ s
  | marginRead _ => exact leavesEpoch_row rowMarginRead_epoch _ s
  | selftestPatrol _ => exact leavesEpoch_row rowSelftest_epoch _ s
  | selftestInject _ => exact leavesEpoch_row rowSelftest_epoch _ s
  | selftestOffset _ => exact leavesEpoch_row rowSelftest_epoch _ s
  | selftestPlanner _ => exact leavesEpoch_row rowSelftest_epoch _ s
  | selftestComplete _ => exact leavesEpoch_ev (selftestComplete_epoch ..)
  | targetedSelftest => exact leavesEpoch_of_sets (targetedSelftest_sets ..)
  | targetedSelftestComplete _ => exact leavesEpoch_of_sets (targetedComplete_sets ..)
  | relockTestHold _ => exact leavesEpoch_of_sets (relockTestHold_sets ..)
  | plannerRun _ => exact leavesEpoch_of_sets (plannerRun_sets ..)
  | avsStep => exact leavesEpoch_of_sets (avsStep_sets ..)
  | avsVerify _ => exact leavesEpoch_of_sets (avsVerify_sets ..)
  | jtagBypass => exact leavesEpoch_of_sets (tap_sets ..)
  | jtagIdcode => exact leavesEpoch_of_sets (tap_sets ..)
  | jtagSamplePreload _ => exact leavesEpoch_of_sets (tapSample_sets ..)
  | jtagExtest => exact leavesEpoch_of_sets (tapExtest_sets ..)
  | hpvddRecover => exact leavesEpoch_of_sets (hpvddRecover_sets ..)
  | iovddAReturn => exact leavesEpoch_of_sets (iovddAReturn_sets ..)
  | iovddHReturn => exact leavesEpoch_of_sets (iovddH_sets ..)
  | starvationFadeEnd _ => exact leavesEpoch_of_sets (starvationFadeEnd_sets ..)
  | bufferOff _ => exact leavesEpoch_ev (by simp)
  | xt32Oscillates _ => exact leavesEpoch_of_sets (xt32Oscillates_sets ..)

end Sys2Proof.Machine
end

section
/-! PROOF. The epoch (O56). -/

namespace Sys2Proof.Machine

/-- Settles O56: a step leaves the epoch as it was (`leavesEpoch_exec`), but for a swap that takes effect and the resets of R69, of
which RESET.SOFT may also come as a command of a packet. -/
theorem epochRule : Obligations.EpochRule := by
  unfold Obligations.EpochRule
  refine ⟨fld_stSet_epoch, fun s r hr harm hrun hbound hold => ⟨_, rfl, ?_⟩, fun c s t h => ?_⟩
  · rw [settle_sets, refFollow_sets]
    exact swapTakeEffect_epoch_succ hr harm hrun hbound hold
  · by_cases hc : movesEpoch c = false
    · exact .inl (leavesEpoch_exec hc s t h)
    · cases c with
      | swapTakeEffect =>
        rw [ev_eq h, settle_sets, refFollow_sets]
        exact (swapTakeEffect_epoch s).imp_right fun h1 => .inl ⟨rfl, h1⟩
      | resetSoft a => exact (exec_resetSoft_epoch h).imp_right fun h0 => .inr ⟨h0, .inl ⟨a, rfl⟩⟩
      | watchdogExpiry =>
        rw [ev_eq h, settle_sets]
        exact (watchdogExpiry_epoch s).imp_right fun h0 => .inr ⟨h0, .inr (.inl (by simp))⟩
      | pinReset =>
        rw [ev_eq h, settle_sets]
        exact (pinReset_epoch s).imp_right fun h0 => .inr ⟨h0, .inr (.inl (by simp))⟩
      | brownOut =>
        rw [ev_eq h, settle_sets]
        exact (brownOut_epoch s).imp_right fun h0 => .inr ⟨h0, .inr (.inl (by simp))⟩
      | powerOnReset =>
        rw [ev_eq h, settle_sets]
        exact .inr (.inr ⟨powerOnReset_epoch s, .inr (.inl (by simp))⟩)
      | vaonLoss =>
        rw [ev_eq h, settle_sets]
        exact .inr (.inr ⟨vaonLoss_epoch s, .inr (.inl (by simp))⟩)
      | sleepCommit =>
        rw [ev_eq h, settle_sets]
        exact (sleepCommit_epoch s).imp_right fun ⟨h0, he⟩ => .inr ⟨h0, .inr (.inr (.inl ⟨rfl, he⟩))⟩
      | packetExecute =>
        cases h
        exact (packetExecute_epoch s).imp_right fun ⟨h0, hp⟩ => .inr ⟨h0, .inr (.inr (.inr ⟨rfl, hp⟩))⟩
      | _ => exact absurd rfl hc

end Sys2Proof.Machine
end

section
/-! SUPPORT. What a bundle of one syllable leaves (R92, R94, R96): its registers, its control effect, and on a stream core its
stores. -/

namespace Sys2Proof.Machine

/-! ## Register effects as the statements say them -/

@[simp] theorem regEff_setG (rd : BitVec 5) (w : Word) (t : BitVec 4) (r : Regs) :
    regEff r (.setG rd.toNat ⟨w, t⟩) = withG rd w t r := by
  by_cases h : rd = 0
  · subst h; rfl
  · rw [withG_pos h]
    exact if_neg (toNat_ne_zero h)

@[simp] theorem regEff_setP (pd : BitVec 3) (b : Bool) (r : Regs) : regEff r (.setP pd.toNat b) = withP pd b r := by
  have h0 : pd.toNat = 0 ↔ pd = 0 := by simp [← BitVec.toNat_inj]
  simp only [regEff, withP, h0]

@[simp] theorem regEff_setA (ad : BitVec 3) (v : BitVec 72) (t : BitVec 3) (r : Regs) :
    regEff r (.setA ad.toNat ⟨v, t⟩) = withA ad v t r := rfl

/-- An executing syllable whose effects are register effects. -/
theorem bundleGives_regs {i : Instr} {u : Site} {f : Regs → Regs} {s : State} {on : Bool} {l : List Eff}
    (hi : exec i s = runSyl u on l s) (hon : on = true) (hp : registerUpset s u = none) (hl : ∀ e ∈ l, isRegEff e = true)
    (hf : l.foldl regEff (regs s u) = f (regs s u)) : BundleGives i u f s := by
  subst hon
  obtain ⟨t, ht, hd, hr⟩ := runSyl_reg hl true s (.inl hp)
  exact ⟨t, hi.trans ht, hr.trans (congrArg nextBundle hf), hd⟩

/-- One that writes a general register. -/
theorem bundleGives_setG {i : Instr} {u : Site} {s : State} {on : Bool} {rd : BitVec 5} {w : Word} {t : BitVec 4}
    (hi : exec i s = runSyl u on [.setG rd.toNat ⟨w, t⟩] s) (hon : on = true) (hp : registerUpset s u = none) :
    BundleGives i u (withG rd w t) s :=
  bundleGives_regs hi hon hp (by simp [isRegEff]) (regEff_setG ..)

/-- One that writes a predicate. -/
theorem bundleGives_setP {i : Instr} {u : Site} {s : State} {on : Bool} {pd : BitVec 3} {b : Bool}
    (hi : exec i s = runSyl u on [.setP pd.toNat b] s) (hon : on = true) (hp : registerUpset s u = none) :
    BundleGives i u (withP pd b) s :=
  bundleGives_regs hi hon hp (by simp [isRegEff]) (regEff_setP ..)

/-- One that writes an accumulator. -/
theorem bundleGives_setA {i : Instr} {u : Site} {s : State} {on : Bool} {ad : BitVec 3} {v : BitVec 72} {t : BitVec 3}
    (hi : exec i s = runSyl u on [.setA ad.toNat ⟨v, t⟩] s) (hon : on = true) (hp : registerUpset s u = none) :
    BundleGives i u (withA ad v t) s :=
  bundleGives_regs hi hon hp (by simp [isRegEff]) rfl

/-- A syllable whose predicate does not let it execute. -/
theorem bundleGives_skipped {i : Instr} {u : Site} {s : State} {on : Bool} {l : List Eff} (hi : exec i s = runSyl u on l s)
    (hoff : on = false) : BundleGives i u id s := by
  subst hoff
  obtain ⟨t, ht, hd, hr⟩ := runSyl_skipped u l s
  exact ⟨t, hi.trans ht, hr, hd⟩

/-! ## One bundle -/

/-- A bundle that is not lost: its effects leave `v`, of which the unit's registers differ alone, and its control part sets them. -/
theorem runSyl_issued {u : Site} {l : List Eff} {s v : State} {r : Regs} (hb : bundleLost u l s = none)
    (ha : l.foldl (fun s e => applyEff u e s) (wake u s) = v) (hv : RegsOnly u (wake u s) v) (hn : nextPc u l (regs v u) = .ok r) :
    ∃ t, runSyl u true l s = .next t ∧ RegsDone u s t ∧ regs t u = r := by
  have hd : RegsDone u s (onRegs u (fun _ => r) v) := (hv.trans (.onRegs u (fun _ => r) v)).done
  refine ⟨onRegs u (fun _ => r) v, ?_, hd, regs_onRegs ..⟩
  simp only [runSyl, if_true, hb, issue, ha, hn]
  exact ev_of_kept hd.kept.1 hd.kept.2

/-- A bundle whose control part faults stops the machine there. -/
theorem runSyl_faults {u : Site} {l : List Eff} {s : State} {f : Fault} (hb : bundleLost u l s = none)
    (hn : nextPc u l (regs (l.foldl (fun s e => applyEff u e s) (wake u s)) u) = .error f) : runSyl u true l s = .fault f := by
  simp only [runSyl, if_true, hb, issue, hn]

/-- An effect that only decides which bundle is next. -/
def isCtlEff : Eff → Bool
  | .jump _ | .call _ | .back | .loop _ _ => true
  | _ => false

theorem applyEff_ctl {e : Eff} (h : isCtlEff e = true) (u : Site) (s : State) : applyEff u e s = s := by
  cases e with
  | jump | call | back | loop => rfl
  | _ => cases h

/-- Without a bad read, and with the unit's register file sound, a bundle is not lost. -/
theorem bundleLost_none {u : Site} {l : List Eff} {s : State} (hl : badRead l = none) (hp : registerUpset s u = none) :
    bundleLost u l s = none := by simp [bundleLost, hl, hp]

theorem badRead_ctl {e : Eff} (h : isCtlEff e = true) : badRead [e] = none := by
  cases e with
  | jump | call | back | loop => rfl
  | _ => cases h

/-- A control syllable that executes: the unit's registers become what `nextPc` answers. -/
theorem runSyl_ctl {u : Site} {e : Eff} {s : State} {r : Regs} (he : isCtlEff e = true) (hp : registerUpset s u = none)
    (hn : nextPc u [e] (regs s u) = .ok r) : ∃ t, runSyl u true [e] s = .next t ∧ RegsDone u s t ∧ regs t u = r :=
  runSyl_issued (bundleLost_none (badRead_ctl he) hp) (applyEff_ctl he u _) (.refl u _) (by rw [regs_wake]; exact hn)

/-- A control syllable that executes where `nextPc` faults. -/
theorem runSyl_ctl_faults {u : Site} {e : Eff} {s : State} {f : Fault} (he : isCtlEff e = true) (hp : registerUpset s u = none)
    (hn : nextPc u [e] (regs s u) = .error f) : runSyl u true [e] s = .fault f :=
  runSyl_faults (bundleLost_none (badRead_ctl he) hp) (by
    rw [List.foldl_cons, List.foldl_nil, applyEff_ctl he, regs_wake]; exact hn)

end Sys2Proof.Machine
end

section
/-! PROOF. Word, predicate and tag, accumulator, skipped and control syllables (O19, O20, O21, O25, O24). -/

namespace Sys2Proof.Machine

/-- Settles O19: each word syllable's one effect writes RD with its result and tag (`bundleGives_setG`). -/
theorem wordSyllables : Obligations.WordSyllables := by
  unfold Obligations.WordSyllables
  refine ⟨fun s u p rd ra rb h hp => ⟨?_, ?_, ?_, ?_, ?_, ?_, ?_, ?_, ?_⟩, fun s n p rd ra rb h hp => ?_,
    fun s u p rd ra sh imm h hp => ⟨?_, ?_, ?_, ?_, ?_, ?_⟩, fun s u p rd ra rb ps h hp => ?_,
    fun s u pr rd imm h hp => ⟨?_, ?_⟩⟩
  all_goals exact bundleGives_setG rfl h hp

/-- CMPEQ compares values: words are equal where they are as signed numbers. -/
theorem decide_toInt_eq (a b : Word) : decide (a.toInt = b.toInt) = decide (a = b) := by simp only [BitVec.toInt_inj]

/-- Settles O20: each syllable's one effect writes PD, or RD with the changed tag. -/
theorem predicateAndTagSyllables : Obligations.PredicateAndTagSyllables := by
  unfold Obligations.PredicateAndTagSyllables
  intro s u p rd ra rb pd pa pb m4 m3 h hp a b
  refine ⟨bundleGives_setP rfl h hp, bundleGives_setP rfl h hp, ?_, ?_, bundleGives_setP rfl h hp, bundleGives_setP rfl h hp,
    bundleGives_setP rfl h hp, bundleGives_setG rfl h hp, bundleGives_setG rfl h hp, bundleGives_setG rfl h hp,
    bundleGives_setG rfl h hp⟩
  · rw [← decide_toInt_eq]
    exact bundleGives_setP rfl h hp
  · have hne : ∀ x : BitVec 4, decide (x ≠ 0) = (x != 0) := by decide
    rw [hne]
    exact bundleGives_setP rfl h hp

/-- An accumulator holds no EPO, so bit 0 of its sources' tags does not matter. -/
theorem accTag_tags2 (a b : Reg) : accTag (tags2 a b) = accTag (a.tag ||| b.tag) := by
  have h : ∀ t : BitVec 4, accTag (t &&& 0b1110#4) = accTag t := by decide
  exact h _

theorem effMac_clear (s : State) (u : Site) (ad : BitVec 3) (ra rb : BitVec 5) : effMac false 1 s u ad ra rb =
    [.setA ad.toNat ⟨BitVec.ofInt 72 ((gReg s u ra.toNat).val.toInt * (gReg s u rb.toNat).val.toInt),
      accTag ((gReg s u ra.toNat).tag ||| (gReg s u rb.toNat).tag)⟩] := by
  simp [effMac, dAcc, product, accTag_tags2]

theorem effMac_keep (sign : Int) (s : State) (u : Site) (ad : BitVec 3) (ra rb : BitVec 5) : effMac true sign s u ad ra rb =
    [.setA ad.toNat ⟨BitVec.ofInt 72 ((aReg s u ad.toNat).val.toInt +
        sign * ((gReg s u ra.toNat).val.toInt * (gReg s u rb.toNat).val.toInt)),
      (aReg s u ad.toNat).tag ||| accTag ((gReg s u ra.toNat).tag ||| (gReg s u rb.toNat).tag)⟩] := by
  simp [effMac, product, accTag_tags2]

/-- ACCRD of a shift that is no reserved encoding. -/
theorem exec_accrd {sh : BitVec 5} (h : sh.toNat ≤ 8) (u : Site) (p : Pred) (rd : BitVec 5) (sa : BitVec 3) (s : State) :
    exec (.accrd u p rd sa sh) s = runCore "ACCRD" u (predOk s u p) (effAccrd s u rd sa sh) s := if_pos h

/-- Settles O21: each syllable's one effect writes AD, or for ACCRD the rounded value to RD. -/
theorem accumulatorSyllables : Obligations.AccumulatorSyllables := by
  unfold Obligations.AccumulatorSyllables
  intro s n p rd ra rb ad sa sh h hp u a b x y t
  refine ⟨?_, ?_, ?_, bundleGives_setA rfl h hp, bundleGives_setA rfl h hp, fun h8 => bundleGives_setG (exec_accrd h8 ..) h hp⟩
  · exact bundleGives_setA (congrArg (fun l => runSyl u _ l s) (effMac_clear ..)) h hp
  · have hm := effMac_keep 1 s u ad ra rb
    rw [Int.one_mul] at hm
    exact bundleGives_setA (congrArg (fun l => runSyl u _ l s) hm) h hp
  · have hm := effMac_keep (-1) s u ad ra rb
    rw [Int.neg_one_mul, ← Int.sub_eq_add_neg] at hm
    exact bundleGives_setA (congrArg (fun l => runSyl u _ l s) hm) h hp

/-- A bus syllable or WFE of the CP whose predicate does not let it execute. -/
theorem runCp_skipped {p : Pred} {s : State} (f : State → State) (h : predOk s .cp p = false) :
    runCp p f s = runSyl .cp false [] s := by
  simp only [runCp, h]
  rfl

theorem runBus_skipped {p : Pred} {s : State} (f : State → State) (h : predOk s .cp p = false) :
    runBus p f s = runSyl .cp false [] s := by
  rw [← runCp_skipped f h]
  simp only [runBus, h]
  rfl

/-- A syllable that goes to the matrix does not wait where it does not execute. -/
theorem onMatrix_skipped {p : Pred} {s : State} {n : Fin 4} (m : String) (l : List Eff) (h : predOk s (.sc n) p = false) :
    onMatrix m (.sc n) (predOk s (.sc n) p) l s = runSyl (.sc n) false l s := by
  rw [h]
  rfl

/-- Settles O25: whatever its effects would be, a syllable that does not execute has none (`runSyl_skipped`). -/
theorem skippedSyllables : Obligations.SkippedSyllables := by
  unfold Obligations.SkippedSyllables
  refine ⟨fun s u p rd ra rb sh pd pa pb imm m target h i hi => ?_, fun s n p rd ra rb sh ad sa imm h h8 => ?_,
    fun s u pr rd imm h => ⟨bundleGives_skipped rfl h, bundleGives_skipped rfl h⟩, fun s p rd ra off h => ?_⟩
  · have hrun : ∃ l, exec i s = runSyl u (predOk s u p) l s := by fin_cases hi <;> exact ⟨_, rfl⟩
    obtain ⟨l, hl⟩ := hrun
    exact bundleGives_skipped hl h
  · simp only [List.forall_mem_cons]
    have hcore : ∀ {i : Instr} {l : List Eff}, exec i s = runSyl (.sc n) (predOk s (.sc n) p) l s → BundleGives i (.sc n) id s :=
      fun hi => bundleGives_skipped hi h
    exact ⟨hcore rfl, hcore rfl, hcore rfl, hcore rfl, hcore rfl, hcore rfl, hcore (exec_accrd h8 ..), hcore rfl, hcore rfl, hcore rfl,
      bundleGives_skipped (onMatrix_skipped "LDD" _ h) rfl, bundleGives_skipped (onMatrix_skipped "STD" _ h) rfl, hcore rfl, hcore rfl,
      by simp⟩
  · simp only [List.forall_mem_cons]
    have hbus : ∀ {i : Instr} {f : State → State}, exec i s = runBus p f s → BundleGives i .cp id s :=
      fun hi => bundleGives_skipped (hi.trans (runBus_skipped _ h)) rfl
    exact ⟨hbus rfl, hbus rfl, hbus rfl, hbus rfl, hbus rfl, hbus rfl, hbus rfl, hbus rfl,
      bundleGives_skipped (runCp_skipped (fun s => { s with cp := { s.cp with wfe := true } }) h) rfl, by simp⟩

/-- Settles O24: each syllable's one effect decides the next bundle, as `nextPc` answers (`runSyl_ctl`); FEND marks the end. -/
theorem controlSyllables : Obligations.ControlSyllables := by
  unfold Obligations.ControlSyllables
  refine ⟨fun s u p target h hp => ⟨?_, fun hc => ?_⟩, fun s u p c cs h hp hc => ?_, fun s u rc maxe last n hp hn h0 hl => ?_,
    fun s u rc maxe last hp h0 => ?_, fun s u count last hp h0 hl => ?_, fun s n hp => ?_, fun s u => ?_⟩
  · change ∃ t, runSyl u (predOk s u p) _ s = _ ∧ _
    rw [h]
    exact runSyl_ctl rfl hp rfl
  · change ∃ t, runSyl u (predOk s u p) _ s = _ ∧ _
    rw [h]
    exact runSyl_ctl rfl hp (if_pos hc)
  · change ∃ t, runSyl u (predOk s u p) _ s = _ ∧ _
    rw [h]
    refine runSyl_ctl rfl hp ?_
    simp [nextPc, hc]
  · subst hn
    refine runSyl_ctl rfl hp ?_
    simp [nextPc, loopCount, h0, hl]
  · have hz : loopCount s u rc maxe = 0 := by simp [loopCount, Int.toNat_of_nonpos h0]
    exact runSyl_ctl rfl hp (by simp [nextPc, hz])
  · change ∃ t, (if count = 0 then _ else _) = _ ∧ _
    rw [if_neg h0]
    refine runSyl_ctl rfl hp ?_
    have hz : count.toNat ≠ 0 := fun hz => h0 (BitVec.eq_of_toNat_eq hz)
    simp [nextPc, hz, hl]
  · obtain ⟨t, ht, hd, hr⟩ := runSyl_issued (v := onRegs (.sc n) (fun r => { r with ended := true }) s)
      (bundleLost_none (l := [.fend]) rfl hp) rfl (.onRegs ..) (congrArg (nextPc _ _) (regs_onRegs ..))
    exact ⟨t, ht, hr, hd⟩
  · obtain ⟨t, ht, hd, hr⟩ := runSyl_skipped u [] s
    exact ⟨t, ht, hr, hd⟩

end Sys2Proof.Machine
end

section
/-! SUPPORT. Reads of a syllable whose checks hold (R81, R83, R88, R99), and the stores of a core's bundle (R98, R107). -/

namespace Sys2Proof.Machine

/-! ## Reads -/

/-- The state memory of a unit lies on its own side of the matrix. -/
theorem coreBeat_stateAddr (s : State) (u : Site) (i : Nat) : coreBeat s u (stateAddr u i) = none := by
  cases u with
  | cp => rfl
  | sc n =>
    refine if_pos ?_
    have hn : n.val < 4 := n.isLt
    simp only [stateAddr, aPram, aCore]
    omega

/-- A core's beat that meets no parity error. -/
theorem coreBeat_quiet {s : State} {n : Fin 4} (h : beatUpset n.val s = none) (a : Nat) : coreBeat s (.sc n) a = none := by
  simp [coreBeat, h]

/-- A load of a word that decodes, by a beat that meets no error. -/
theorem loadAt_decodes {s : State} {u : Site} {a : Nat} (hb : coreBeat s u a = none) (hd : a ∉ s.mem.bad) (rd : Nat) (tagged : Bool) :
    loadAt s u rd a tagged = [.setG rd ⟨s.mem.word a, if tagged then s.mem.tag a &&& 0b1110#4 else 0⟩] := by
  simp [loadAt, hb, hd]

/-- The second register of a pair. -/
theorem rd2_eq (rd : BitVec 5) : rd2 rd = (rd + 1).toNat := by simp [rd2, BitVec.toNat_add]

/-- With PLLB locked a syllable on the matrix does not wait. -/
theorem onMatrix_locked {s : State} (h : pllbUnlocked s = false) (m : String) (n : Fin 4) (on : Bool) (l : List Eff) :
    onMatrix m (.sc n) on l s = runSyl (.sc n) on l s := by simp [onMatrix, h]

/-- With PLLB unlocked a syllable on the matrix waits. -/
theorem onMatrix_waits {s : State} (h : pllbUnlocked s = true) (m : String) (n : Fin 4) (l : List Eff) :
    onMatrix m (.sc n) true l s = .next s := by simp [onMatrix, h]

/-- The port of an index. -/
theorem port_of_idx (k j : Nat) : (16 * k + j % 16) / 16 = k := by omega

/-- A load of one register that meets no error. -/
theorem bundleGives_load {i : Instr} {u : Site} {s : State} {on : Bool} {l : List Eff} {rd : BitVec 5} {w : Word} {t : BitVec 4}
    (hi : exec i s = runSyl u on l s) (hl : l = [.setG rd.toNat ⟨w, t⟩]) (hon : on = true) (hp : registerUpset s u = none) :
    BundleGives i u (withG rd w t) s := bundleGives_setG (hl ▸ hi) hon hp

/-- A load of a pair of registers that meets no error. -/
theorem bundleGives_pair {i : Instr} {u : Site} {s : State} {on : Bool} {l m : List Eff} {rd : BitVec 5} {v w : Word} {t g : BitVec 4}
    (hi : exec i s = runSyl u on (l ++ m) s) (hl : l = [.setG rd.toNat ⟨v, t⟩]) (hm : m = [.setG (rd2 rd) ⟨w, g⟩]) (hon : on = true)
    (hp : registerUpset s u = none) : BundleGives i u (fun r => withG (rd + 1) w g (withG rd v t r)) s := by
  subst hl hm
  rw [rd2_eq] at hi
  exact bundleGives_regs hi hon hp (by simp [isRegEff])
    (by simp only [List.cons_append, List.nil_append, List.foldl_cons, List.foldl_nil, regEff_setG])

/-! ## Stores -/

/-- Core `n` took `f`, memory is `m`, and nothing else changed. -/
def CoreTook (n : Fin 4) (f : Core → Core) (m : Memory) (s t : State) : Prop :=
  core t n.val = f (core s n.val) ∧ (∀ k ≠ n.val, core t k = core s k) ∧
  t = { s with mem := m, cores := { s.cores with core := t.cores.core } }

theorem CoreTook.refl (n : Fin 4) (s : State) : CoreTook n id s.mem s s := ⟨rfl, fun _ _ => rfl, rfl⟩

theorem CoreTook.onCore (n : Fin 4) (f : Core → Core) (m : Memory) (s : State) :
    CoreTook n f m s { onCore n.val f s with mem := m } :=
  ⟨core_onCore_same _ _ _, fun _ hk => core_onCore_other _ _ _ _ hk, rfl⟩

theorem CoreTook.trans {n : Fin 4} {f g : Core → Core} {m q : Memory} {s t v : State} (h : CoreTook n f m s t)
    (h' : CoreTook n g q t v) : CoreTook n (g ∘ f) q s v := by
  obtain ⟨h1, h2, h3⟩ := h
  obtain ⟨h1', h2', h3'⟩ := h'
  refine ⟨by rw [h1', h1]; rfl, fun k hk => (h2' k hk).trans (h2 k hk), ?_⟩
  rw [h3', h3]

/-- A versioned store of a core, where a word stands at its address: the checkpoint first, then the word (R107). -/
theorem storeWord_took {n : Fin 4} {delay : Bool} {i a : Nat} {s : State}
    (ha : (if delay then delayAddr (delaySlot s (.sc n)) i else some (stateAddr (.sc n) i)) = some a) (w : Word) (t : BitVec 4) :
    CoreTook n (fun c => { c with undo := ⟨delay, i, s.mem.word a, s.mem.tag a⟩ :: c.undo }) (s.mem.setWord a w t) s
      (storeWord (.sc n) delay i w t s) := by
  simp only [storeWord, ha]
  exact .onCore ..

/-- With effects that leave the control part alone the next bundle is due. -/
theorem nextPc_straight {u : Site} {l : List Eff} (h : ∀ e ∈ l, isCtlEff e = false) (r : Regs) : nextPc u l r = .ok (nextBundle r) := by
  unfold nextPc
  cases hl : l.getLast? with
  | none => rfl
  | some e =>
    have he := h e (List.mem_of_getLast? hl)
    cases e with
    | jump | call | back | loop => cases he
    | _ => rfl

/-- A core's bundle without control effects, whose effects leave `v`, of which core `n` and the memory differ alone. -/
theorem coreDone_of_took {i : Instr} {n : Fin 4} {f : Core → Core} {m : Memory} {s v : State} {on : Bool} {l : List Eff}
    (hi : exec i s = runSyl (.sc n) on l s) (hon : on = true) (hb : bundleLost (.sc n) l s = none)
    (ha : l.foldl (fun s e => applyEff (.sc n) e s) s = v) (hv : CoreTook n f m s v) (hf : (f (core s n.val)).regs = (core s n.val).regs)
    (hc : ∀ e ∈ l, isCtlEff e = false) : ∃ t, exec i s = .next t ∧ CoreDone n f m s t := by
  subst hon
  obtain ⟨h1, h2, h3⟩ := hv
  have hr : regs v (.sc n) = (core s n.val).regs := by rw [← hf, ← h1]; rfl
  refine ⟨onRegs (.sc n) (fun _ => nextBundle (core s n.val).regs) v, ?_, ?_, ?_, ?_⟩
  · have hw : wake (.sc n) s = s := rfl
    rw [hi]
    simp only [runSyl, if_true, hb, hw, issue, ha, nextPc_straight hc, hr]
    refine ev_of_kept ?_ ?_
    · rw [onRegs_pending, h3]
    · rw [onRegs_sec, h3]
  · change core (onCore ..) _ = _
    rw [core_onCore_same, h1]
  · intro k hk
    rw [← h2 k hk]
    exact core_onCore_other _ _ _ _ hk
  · conv_lhs => rw [h3]
    rfl

/-- A bundle of the CP that writes plain words (R120): memory is `m`, and the next bundle is due. -/
theorem cpStores {i : Instr} {m : Memory} {s : State} {on : Bool} {l : List Eff} (hi : exec i s = runSyl .cp on l s) (hon : on = true)
    (hb : bundleLost .cp l s = none) (ha : l.foldl (fun s e => applyEff .cp e s) (wake .cp s) = { wake .cp s with mem := m })
    (hc : ∀ e ∈ l, isCtlEff e = false) : ∃ t, exec i s = .next t ∧ regs t .cp = nextBundle (regs s .cp) ∧
      t = { s with mem := m, cp := { s.cp with regs := t.cp.regs, wfe := false } } := by
  subst hon
  refine ⟨onRegs .cp (fun _ => nextBundle (regs s .cp)) { wake .cp s with mem := m }, ?_, rfl, rfl⟩
  have hr : regs { wake .cp s with mem := m } .cp = regs s .cp := rfl
  rw [hi]
  simp only [runSyl, if_true, hb, issue, ha, nextPc_straight hc, hr]
  rfl

end Sys2Proof.Machine
end

section
/-! PROOF. Load and store syllables (O22, O23). -/

namespace Sys2Proof.Machine

/-- Settles O22: a load whose checks hold is one register effect, or two for a pair (`loadAt_decodes`). -/
theorem loadSyllables : Obligations.LoadSyllables := by
  unfold Obligations.LoadSyllables
  refine ⟨fun s u p rd ra off x h hp hx hd => ?_, fun s u p rd ra off x y h hp hx hy hd he => ?_,
    fun s n p rd ra off i h hp hi hq => ⟨fun hd => ?_, fun hd => ?_, fun hd he => ?_, fun x hx hd hl => ?_, fun hn hl => ?_⟩,
    fun s n p rd ra off h hl => ⟨?_, ?_⟩, fun s n p rd rp ri imm k j h hp hk hj hs => ⟨fun hb => ?_, fun hb => ?_⟩⟩
  · subst hx
    exact bundleGives_load rfl (loadAt_decodes (coreBeat_stateAddr ..) hd _ true) h hp
  · subst hx hy
    exact bundleGives_pair rfl (loadAt_decodes (coreBeat_stateAddr ..) hd _ true) (loadAt_decodes (coreBeat_stateAddr ..) he _ true) h hp
  · subst hi
    exact bundleGives_load rfl (loadAt_decodes (coreBeat_quiet hq _) hd _ false) h hp
  · subst hi
    exact bundleGives_load rfl (loadAt_decodes (coreBeat_quiet hq _) hd _ false) h hp
  · subst hi
    exact bundleGives_pair rfl (loadAt_decodes (coreBeat_quiet hq _) hd _ false) (loadAt_decodes (coreBeat_quiet hq _) he _ false) h hp
  · subst hi
    refine bundleGives_load (onMatrix_locked hl "LDD" ..) ?_ h hp
    simp only [effLdd, memIdx, hx]
    exact loadAt_decodes (coreBeat_quiet hq _) hd _ true
  · subst hi
    refine bundleGives_load (onMatrix_locked hl "LDD" ..) ?_ h hp
    simp only [effLdd, memIdx, hn]
  · exact (congrArg (fun on => onMatrix "LDD" (.sc n) on _ s) h).trans (onMatrix_waits hl ..)
  · exact (congrArg (fun on => onMatrix "STD" (.sc n) on _ s) h).trans (onMatrix_waits hl ..)
  · subst hk hj
    refine bundleGives_load (l := effLds s (.sc n) rd rp ri imm) rfl ?_ h hp
    simp only [effLds, portIdx, port_of_idx, unitNo, hb, hs, if_true]
    rfl
  · subst hk
    refine bundleGives_load (l := effLds s (.sc n) rd rp ri imm) rfl ?_ h hp
    simp only [effLds, portIdx, port_of_idx, unitNo, hb]
    rfl

/-- Settles O23: a core's stores go to its checkpoint and its memory (`storeWord_took`), the CP's to CPRAM. -/
theorem storeSyllables : Obligations.StoreSyllables := by
  unfold Obligations.StoreSyllables
  refine ⟨fun s n p rd ra off i x r h hp hi hx hr => ?_, fun s n p rd ra off i x y r q m h hp hi hx hy hr hq hm => ?_,
    fun s p rd ra off x h hp hx => ?_, fun s p rd ra off x y h hp hx hy => ?_,
    fun s n p rd ra off i x r h hp hi hx hr hq hl => ?_, fun s n p rd ra off h hn hl => ?_,
    fun s n p rd rp ri imm k j r h hp hk hj hr => ?_⟩
  · subst hi hx hr
    exact coreDone_of_took (l := effStw s (.sc n) rd ra off) rfl h (bundleLost_none rfl hp) rfl (storeWord_took (delay := false) rfl _ _)
      rfl (by simp [isCtlEff, effStw, storeEff])
  · subst hi hx hy hm
    have hq' : q = gReg s (.sc n) (rd2 rd) := by rw [hq, rd2_eq]
    subst hr hq'
    exact coreDone_of_took (l := effStw2 s (.sc n) rd ra off) rfl h (bundleLost_none rfl hp) rfl
      ((storeWord_took (delay := false) rfl _ _).trans (storeWord_took (delay := false) rfl _ _))
      rfl (by simp [isCtlEff, effStw2, effStw, storeEff])
  · subst hx
    exact cpStores (l := effStw s .cp rd ra off) rfl h (bundleLost_none rfl hp) rfl (by simp [isCtlEff, effStw, storeEff])
  · subst hx hy
    rw [← rd2_eq]
    exact cpStores (l := effStw2 s .cp rd ra off) rfl h (bundleLost_none rfl hp) rfl (by simp [isCtlEff, effStw2, effStw, storeEff])
  · subst hi hr
    have hl' : effStd s (.sc n) rd ra off = storeEff true s (.sc n) rd.toNat (memIdx s (.sc n) ra.toNat off.toNat) := by
      simp only [effStd, memIdx, hx, coreBeat_quiet hq]
    refine coreDone_of_took ((onMatrix_locked hl "STD" ..).trans (by rw [hl'])) h (bundleLost_none rfl hp) rfl
      (storeWord_took (delay := true) hx _ _) rfl (by simp [isCtlEff, storeEff])
  · have hl' : effStd s (.sc n) rd ra off = [] := by simp [effStd, delayAddr, hn]
    exact coreDone_of_took (l := []) ((onMatrix_locked hl "STD" ..).trans (by rw [hl'])) h rfl rfl (.refl n s) rfl (by simp)
  · subst hk hj hr
    cases hb : bit ((active s).bind n.val).returns ((gReg s (.sc n) rp.toNat).val.toNat % 32) with
    | false =>
      have hl : effStr s (.sc n) rd rp ri imm = [] := by simp [effStr, portIdx, port_of_idx, unitNo, hb]
      exact coreDone_of_took (l := []) (congrArg (fun l => runSyl (.sc n) _ l s) hl) h rfl rfl (.refl n s) rfl (by simp)
    | true =>
      have hl : effStr s (.sc n) rd rp ri imm = [.ret (portIdx s (.sc n) rp ri imm)
          ⟨(gReg s (.sc n) rd.toNat).val, stamp s (gReg s (.sc n) rd.toNat).tag⟩] := by
        simp [effStr, portIdx, port_of_idx, unitNo, hb]
      exact coreDone_of_took (congrArg (fun l => runSyl (.sc n) _ l s) hl) h (bundleLost_none rfl hp) rfl
        (.onCore n _ s.mem s) rfl (by simp [isCtlEff])

end Sys2Proof.Machine
end

section
/-! PROOF. Where the machine stops (O26): the outcome of every command, event and syllable. -/

namespace Sys2Proof.Machine

/-! ## The faults and refusals that the statement lists -/

/-- A fault at a syllable as the statement lists it. -/
def FaultsAt (s : State) (i : Instr) (f : Fault) : Prop :=
  (f = .callUnderflow ∧ ∃ u p, i = .ret u p ∧ (regs s u).calls = []) ∨
  (f = .callOverflow ∧ ∃ u p target, i = .call u p target ∧ callDepth u ≤ (regs s u).calls.length) ∨
  (f = .loopOverflow ∧ ∃ u, 2 ≤ (regs s u).loops.length ∧
    ((∃ rc maxe last, i = .loop u rc maxe last) ∨ ∃ count last, i = .loopi u count last))

/-- The refusals of the CP, with the operands of each syllable. -/
abbrev cpRefusals (p : Pred) (rd ra rb sh : BitVec 5) (ad sa : BitVec 3) (off : BitVec 10) : List (Instr × Refusal) := [
  (Instr.mulq .cp p rd ra rb, Refusal.cpDoesNotImplement "MULQ"), (.macz .cp p ad ra rb, .cpDoesNotImplement "MACZ"),
  (.mac .cp p ad ra rb, .cpDoesNotImplement "MAC"), (.msu .cp p ad ra rb, .cpDoesNotImplement "MSU"),
  (.accadd .cp p ad sa, .cpDoesNotImplement "ACCADD"), (.accmv .cp p ad ra, .cpDoesNotImplement "ACCMV"),
  (.accrd .cp p rd sa sh, .cpDoesNotImplement "ACCRD"), (.ldp .cp p rd ra off, .cpDoesNotImplement "LDP"),
  (.ldc .cp p rd ra off, .cpDoesNotImplement "LDC"), (.ldc2 .cp p rd ra off, .cpDoesNotImplement "LDC2"),
  (.ldd .cp p rd ra off, .cpDoesNotImplement "LDD"), (.std .cp p rd ra off, .cpDoesNotImplement "STD"),
  (.lds .cp p rd ra rb sh, .cpDoesNotImplement "LDS"), (.str .cp p rd ra rb sh, .cpDoesNotImplement "STR"),
  (.fend .cp, .cpDoesNotImplement "FEND")]

/-- A refusal as the statement lists it. -/
def RefusedAs (i : Instr) (r : Refusal) : Prop :=
  (∃ (p : Pred) (rd ra rb sh : BitVec 5) (ad sa : BitVec 3) (off : BitVec 10), (i, r) ∈ cpRefusals p rd ra rb sh ad sa off) ∨
  (∃ u p rd sa sh, i = .accrd u p rd sa sh ∧ 8 < sh.toNat ∧ r = .reservedEncoding "ACCRD") ∨
  ∃ u last, i = .loopi u 0 last ∧ r = .reservedEncoding "LOOPI"

/-- An outcome is a next state, or one of the stops that the statement lists. -/
def StopsAsListed (i : Instr) (s : State) (o : Out) : Prop :=
  (∃ t, o = .next t) ∨ (∃ f, o = .fault f ∧ FaultsAt s i f) ∨ ∃ r, o = .refused r ∧ RefusedAs i r

theorem stopsAsListed_next {i : Instr} {s : State} {o : Out} (h : ∃ t, o = .next t) : StopsAsListed i s o := .inl h

theorem stopsAsListed_refused {i : Instr} {s : State} {r : Refusal} (h : RefusedAs i r) : StopsAsListed i s (.refused r) :=
  .inr (.inr ⟨r, rfl, h⟩)

/-! ## Commands -/

theorem execRow_isNext (r : CmdRow) (a : CmdArgs) (s : State) : ∃ t, execRow r a s = .next t :=
  (execRow_next r a s).imp fun _ h => h.1

theorem onNext_isNext {f : State → State} {o : Out} (h : ∃ t, o = .next t) : ∃ t, onNext f o = .next t := by
  obtain ⟨t, rfl⟩ := h
  exact ⟨f t, rfl⟩

theorem ite_isNext {c : Prop} [Decidable c] {t u : State} : ∃ v, (if c then .next t else .next u : Out) = .next v := by
  split <;> exact ⟨_, rfl⟩

/-! ## Syllables -/

/-- A list of effects without a control effect: its bundle goes on to the next one. -/
def Straight (l : List Eff) : Prop := ∀ e ∈ l, isCtlEff e = false

theorem straight_nil : Straight [] := by simp [Straight]

theorem straight_one {e : Eff} (h : isCtlEff e = false) : Straight [e] := List.forall_mem_singleton.2 h

theorem straight_append {l m : List Eff} (h : Straight l) (h' : Straight m) : Straight (l ++ m) :=
  fun e he => (List.mem_append.1 he).elim (h e) (h' e)

theorem straight_ite {c : Prop} [Decidable c] {l m : List Eff} (h : Straight l) (h' : Straight m) : Straight (if c then l else m) := by
  split
  · exact h
  · exact h'

theorem straight_readsLost (rd addr : Nat) (tagged : Bool) : Straight (readsLost rd addr tagged) :=
  straight_append (l := [_]) (straight_one rfl) (straight_ite (straight_one rfl) straight_nil)

theorem straight_loadAt (s : State) (u : Site) (rd addr : Nat) (tagged : Bool) : Straight (loadAt s u rd addr tagged) := by
  unfold loadAt
  split
  · exact straight_ite (straight_append (l := [_]) (straight_one rfl) (straight_readsLost _ _ _)) (straight_one rfl)
  · exact straight_ite (straight_ite (straight_readsLost _ _ _) (straight_one rfl)) (straight_one rfl)

theorem straight_effLdd (s : State) (u : Site) (rd ra : BitVec 5) (off : BitVec 10) : Straight (effLdd s u rd ra off) := by
  unfold effLdd
  split
  · exact straight_loadAt _ _ _ _ _
  · exact straight_one rfl

theorem straight_effStd (s : State) (u : Site) (rd ra : BitVec 5) (off : BitVec 10) : Straight (effStd s u rd ra off) := by
  unfold effStd
  dsimp only
  split
  · exact straight_nil
  · split <;> exact straight_one rfl

theorem straight_effLds (s : State) (u : Site) (rd rp ri imm : BitVec 5) : Straight (effLds s u rd rp ri imm) :=
  straight_ite (straight_ite (straight_ite (straight_one rfl) (straight_one rfl)) (straight_one rfl)) (straight_one rfl)

/-- A syllable without a control effect answers a next state. -/
theorem runSyl_isNext {l : List Eff} (h : Straight l) (u : Site) (on : Bool) (s : State) : ∃ t, runSyl u on l s = .next t := by
  have he : Straight (if on then l else []) := straight_ite h straight_nil
  unfold runSyl
  dsimp only
  split
  · exact ⟨_, rfl⟩
  · simp only [issue, nextPc_straight he]
    exact ⟨_, rfl⟩

/-- A bus syllable of the CP, and WFE, answer a next state. -/
theorem runCp_isNext (p : Pred) (f : State → State) (s : State) : ∃ t, runCp p f s = .next t := ⟨_, rfl⟩

theorem runBus_isNext (p : Pred) (f : State → State) (s : State) : ∃ t, runBus p f s = .next t := by
  unfold runBus
  split
  · exact ⟨s, rfl⟩
  · exact runCp_isNext p f s

theorem stopsAsListed_syl {l : List Eff} {i : Instr} {u : Site} {on : Bool} {s : State} (h : Straight l) :
    StopsAsListed i s (runSyl u on l s) := .inl (runSyl_isNext h u on s)

/-- A syllable that the CP does not implement. -/
theorem stopsAsListed_core {m : String} {l : List Eff} {i : Instr} {u : Site} {on : Bool} {s : State} (h : Straight l)
    (hr : u = .cp → RefusedAs i (.cpDoesNotImplement m)) : StopsAsListed i s (runCore m u on l s) := by
  cases u with
  | sc _ => exact stopsAsListed_syl h
  | cp => exact stopsAsListed_refused (hr rfl)

/-- One that also waits while the matrix stands still. -/
theorem stopsAsListed_matrix {m : String} {l : List Eff} {i : Instr} {u : Site} {on : Bool} {s : State} (h : Straight l)
    (hr : u = .cp → RefusedAs i (.cpDoesNotImplement m)) : StopsAsListed i s (onMatrix m u on l s) := by
  cases u with
  | sc _ =>
    unfold onMatrix
    dsimp only
    split
    · exact .inl ⟨s, rfl⟩
    · exact stopsAsListed_syl h
  | cp => exact stopsAsListed_refused (hr rfl)

/-- A control syllable stops where `nextPc` faults. -/
theorem stopsAsListed_ctl {e : Eff} {i : Instr} {u : Site} {on : Bool} {s : State} (he : isCtlEff e = true)
    (hf : ∀ f, nextPc u [e] (regs s u) = .error f → FaultsAt s i f) : StopsAsListed i s (runSyl u on [e] s) := by
  cases on with
  | false => exact .inl ((runSyl_skipped u [e] s).imp fun _ h => h.1)
  | true =>
    cases hb : bundleLost u [e] s with
    | some t => exact .inl ⟨settle s t, by simp [runSyl, hb, ev]⟩
    | none =>
      cases hn : nextPc u [e] (regs s u) with
      | ok r =>
        refine .inl ⟨settle s (onRegs u (fun _ => r) (wake u s)), ?_⟩
        simp only [runSyl, if_true, hb, issue, List.foldl_cons, List.foldl_nil, applyEff_ctl he, regs_wake, hn]
        rfl
      | error f =>
        refine .inr (.inl ⟨f, ?_, hf f hn⟩)
        simp only [runSyl, if_true, hb, issue, List.foldl_cons, List.foldl_nil, applyEff_ctl he, regs_wake, hn]

theorem nextPc_jump_error {u : Site} {t : Nat} {r : Regs} {f : Fault} : nextPc u [.jump t] r ≠ .error f := nofun

theorem nextPc_call_error {u : Site} {t : Nat} {r : Regs} {f : Fault} (h : nextPc u [.call t] r = .error f) :
    f = .callOverflow ∧ callDepth u ≤ r.calls.length := by
  simp only [nextPc, List.getLast?_singleton] at h
  split at h
  · cases h
  · cases h
    exact ⟨rfl, by omega⟩

theorem nextPc_back_error {u : Site} {r : Regs} {f : Fault} (h : nextPc u [.back] r = .error f) : f = .callUnderflow ∧ r.calls = [] := by
  simp only [nextPc, List.getLast?_singleton] at h
  split at h
  · next hc => cases h; exact ⟨rfl, hc⟩
  · cases h

theorem nextPc_loop_error {u : Site} {last n : Nat} {r : Regs} {f : Fault} (h : nextPc u [.loop last n] r = .error f) :
    f = .loopOverflow ∧ 2 ≤ r.loops.length := by
  simp only [nextPc, List.getLast?_singleton] at h
  split at h
  · cases h
  · split at h
    · cases h
    · cases h
      exact ⟨rfl, by omega⟩

/-- The syllable is in the list of those that the CP does not implement, at place `k`. -/
theorem refusedAs_cp {i : Instr} {r : Refusal} (p : Pred) (rd ra rb sh : BitVec 5) (ad sa : BitVec 3) (off : BitVec 10) (k : Nat)
    (h : (cpRefusals p rd ra rb sh ad sa off)[k]? = some (i, r)) : RefusedAs i r :=
  .inl ⟨p, rd, ra, rb, sh, ad, sa, off, List.mem_of_getElem? h⟩

/-- ACCRD of a shift above 8 is a reserved encoding (R93). -/
theorem exec_accrd_reserved {sh : BitVec 5} (h : 8 < sh.toNat) (u : Site) (p : Pred) (rd : BitVec 5) (sa : BitVec 3) (s : State) :
    exec (.accrd u p rd sa sh) s = .refused (.reservedEncoding "ACCRD") := if_neg (by omega)

/-- LOOPI of a count. -/
theorem exec_loopi {count : BitVec 9} (h : count ≠ 0) (u : Site) (last : BitVec 11) (s : State) :
    exec (.loopi u count last) s = runSyl u true [.loop last.toNat count.toNat] s := if_neg h

/-- Every command, event and syllable either answers a next state or stops as listed: commands by their rows, syllables by the issue
of their bundle, and every event whatever it finds. -/
theorem exec_stopsAsListed (i : Instr) (s : State) : StopsAsListed i s (exec i s) := by
  cases i with
  | nop | devInfo | irqMask | resetCore | wdtCfg | swap | swapCancel | setCopy | setRead | syncCfg | syncEmit | syncNow |
    refOn | refOff | feMode | feGain | fePair | calZ | calF | calExportPart0 | calExportPart | calImportPart | calImportCommit |
    calFactoryRestore | calFactoryProgram | calFactoryClear | fltPreset | firWriteHdr | firWrite | firSel | firFade | detCfg |
    detRead | route | gain | ramp | weir | mrTap | mrOut | panicCfg | panicRelease | flowBind | flowUnbind | aesCsRead |
    aesCsWrite | pdmCfg | outCfg | jackCfg | jackUnmute | micbias | senseSeq | senseStart | senseNow | senseWatch | pllCfg |
    pllRef | timeRead | sleep | sleepCancel | padsRelease | avsCfg | coreLoad | coreBind | coreParam | coreRead | imageLoad |
    imageExec | sessionOpen | sessionClose | otpWriteRootkey | otpWritePolicy | otpWriteXrefFreq | otpWriteCert | otpWriteArb |
    lifecycle | keyRevoke | certReadKeys | certRead | debugChal | debugResp | sealOpen | sealClose | sealRead | faultRead |
    faultClear | marginRead | selftestPatrol | selftestInject | selftestOffset | selftestPlanner =>
    exact stopsAsListed_next (execRow_isNext ..)
  | tdmCfg | aesCfg => exact stopsAsListed_next (onNext_isNext (execRow_isNext ..))
  | resetSoft => exact stopsAsListed_next ite_isNext
  | bundleNop => exact stopsAsListed_syl (on := true) (l := []) straight_nil
  | add | adds | sub | subs | and | or | xor | shl | shr | sar | shls | min | max | abs | sel | addi | movl | movh | cmplt |
    cmple | cmpeq | tstt | pand | por | pnot | tags | tagc | tagr | tagw =>
    exact stopsAsListed_syl (straight_one rfl)
  | ldw => exact stopsAsListed_syl (straight_loadAt _ _ _ _ _)
  | ldw2 => exact stopsAsListed_syl (straight_append (straight_loadAt _ _ _ _ _) (straight_loadAt _ _ _ _ _))
  | stw => exact stopsAsListed_syl (straight_one rfl)
  | stw2 => exact stopsAsListed_syl (straight_append (straight_one rfl) (straight_one rfl))
  | mulq u p rd ra rb =>
    exact stopsAsListed_core (straight_one rfl) fun hu => by subst hu; exact refusedAs_cp p rd ra rb 0 0 0 0 0 rfl
  | macz u p ad ra rb =>
    exact stopsAsListed_core (straight_one rfl) fun hu => by subst hu; exact refusedAs_cp p 0 ra rb 0 ad 0 0 1 rfl
  | mac u p ad ra rb =>
    exact stopsAsListed_core (straight_one rfl) fun hu => by subst hu; exact refusedAs_cp p 0 ra rb 0 ad 0 0 2 rfl
  | msu u p ad ra rb =>
    exact stopsAsListed_core (straight_one rfl) fun hu => by subst hu; exact refusedAs_cp p 0 ra rb 0 ad 0 0 3 rfl
  | accadd u p ad sa =>
    exact stopsAsListed_core (straight_one rfl) fun hu => by subst hu; exact refusedAs_cp p 0 0 0 0 ad sa 0 4 rfl
  | accmv u p ad ra =>
    exact stopsAsListed_core (straight_one rfl) fun hu => by subst hu; exact refusedAs_cp p 0 ra 0 0 ad 0 0 5 rfl
  | accrd u p rd sa sh =>
    by_cases h8 : sh.toNat ≤ 8
    · rw [exec_accrd h8]
      exact stopsAsListed_core (straight_one rfl) fun hu => by subst hu; exact refusedAs_cp p rd 0 0 sh 0 sa 0 6 rfl
    · rw [exec_accrd_reserved (by omega)]
      exact stopsAsListed_refused (.inr (.inl ⟨u, p, rd, sa, sh, rfl, by omega, rfl⟩))
  | ldp u p rd ra off =>
    exact stopsAsListed_core (straight_loadAt _ _ _ _ _) fun hu => by subst hu; exact refusedAs_cp p rd ra 0 0 0 0 off 7 rfl
  | ldc u p rd ra off =>
    exact stopsAsListed_core (straight_loadAt _ _ _ _ _) fun hu => by subst hu; exact refusedAs_cp p rd ra 0 0 0 0 off 8 rfl
  | ldc2 u p rd ra off =>
    exact stopsAsListed_core (straight_append (straight_loadAt _ _ _ _ _) (straight_loadAt _ _ _ _ _)) fun hu => by
      subst hu; exact refusedAs_cp p rd ra 0 0 0 0 off 9 rfl
  | ldd u p rd ra off =>
    exact stopsAsListed_matrix (straight_effLdd _ _ _ _ _) fun hu => by subst hu; exact refusedAs_cp p rd ra 0 0 0 0 off 10 rfl
  | std u p rd ra off =>
    exact stopsAsListed_matrix (straight_effStd _ _ _ _ _) fun hu => by subst hu; exact refusedAs_cp p rd ra 0 0 0 0 off 11 rfl
  | lds u p rd rp ri imm =>
    exact stopsAsListed_core (straight_effLds _ _ _ _ _ _) fun hu => by subst hu; exact refusedAs_cp p rd rp ri imm 0 0 0 12 rfl
  | str u p rd rp ri imm =>
    exact stopsAsListed_core (straight_ite (straight_one rfl) straight_nil) fun hu => by
      subst hu; exact refusedAs_cp p rd rp ri imm 0 0 0 13 rfl
  | fend u =>
    exact stopsAsListed_core (straight_one rfl) fun hu => by subst hu; exact refusedAs_cp ⟨false, 0⟩ 0 0 0 0 0 0 0 14 rfl
  | br => exact stopsAsListed_ctl rfl fun f h => absurd h nextPc_jump_error
  | call u p target =>
    exact stopsAsListed_ctl rfl fun f h => .inr (.inl ⟨(nextPc_call_error h).1, u, p, target, rfl, (nextPc_call_error h).2⟩)
  | ret u p => exact stopsAsListed_ctl rfl fun f h => .inl ⟨(nextPc_back_error h).1, u, p, rfl, (nextPc_back_error h).2⟩
  | loop u rc maxe last =>
    exact stopsAsListed_ctl rfl fun f h =>
      .inr (.inr ⟨(nextPc_loop_error h).1, u, (nextPc_loop_error h).2, .inl ⟨rc, maxe, last, rfl⟩⟩)
  | loopi u count last =>
    by_cases h0 : count = 0
    · subst h0
      exact stopsAsListed_refused (.inr (.inr ⟨u, last, rfl, rfl⟩))
    · rw [exec_loopi h0]
      exact stopsAsListed_ctl rfl fun f h =>
        .inr (.inr ⟨(nextPc_loop_error h).1, u, (nextPc_loop_error h).2, .inr ⟨count, last, rfl⟩⟩)
  | ldg | stg | ldgh | stgh | ldgb | stgb | ldgl | stgu => exact stopsAsListed_next (runBus_isNext ..)
  | wfe => exact stopsAsListed_next (runCp_isNext _ (fun s => { s with cp := { s.cp with wfe := true } }) s)
  | _ => exact stopsAsListed_next ⟨_, rfl⟩

/-- Settles O26: the stops by the syllables' own lemmas, and that there are no others by `exec_stopsAsListed`. -/
theorem syllableStops : Obligations.SyllableStops := by
  unfold Obligations.SyllableStops
  refine ⟨fun s p rd ra rb sh ad sa off => ⟨rfl, rfl, rfl, rfl, rfl, rfl, fun h8 => exec_accrd h8 .., rfl, rfl, rfl, rfl, rfl, rfl, rfl,
      rfl⟩,
    fun s u p rd sh sa last h8 => ⟨exec_accrd_reserved h8 .., rfl⟩, fun s u p target h hp hc => ?_, fun s u p h hp hc => ?_,
    fun s u rc maxe last hp h0 hl => ?_, fun s u count last hp h0 hl => ?_, fun _ => rfl, rfl, fun s i f hf => ?_, fun s i r hr => ?_⟩
  · change runSyl u (predOk s u p) _ s = _
    rw [h]
    exact runSyl_ctl_faults rfl hp (if_neg (by omega))
  · change runSyl u (predOk s u p) _ s = _
    rw [h]
    exact runSyl_ctl_faults rfl hp (by simp [nextPc, hc])
  · have hn : loopCount s u rc maxe ≠ 0 := by
      have : 0 < 2 ^ maxe.toNat := Nat.two_pow_pos _
      unfold loopCount
      omega
    exact runSyl_ctl_faults rfl hp (by simp [nextPc, hn, Nat.not_lt.2 hl])
  · have hn : count.toNat ≠ 0 := fun hz => h0 (BitVec.eq_of_toNat_eq hz)
    rw [exec_loopi h0]
    exact runSyl_ctl_faults rfl hp (by simp [nextPc, hn, Nat.not_lt.2 hl])
  · obtain ⟨t, ht⟩ | ⟨g, hg, ha⟩ | ⟨r, hr, -⟩ := exec_stopsAsListed i s
    · cases hf.symm.trans ht
    · cases hf.symm.trans hg
      exact ha
    · cases hf.symm.trans hr
  · obtain ⟨t, ht⟩ | ⟨g, hg, -⟩ | ⟨q, hq, ha⟩ := exec_stopsAsListed i s
    · cases hr.symm.trans ht
    · cases hr.symm.trans hg
    · cases hr.symm.trans hq
      exact ha

end Sys2Proof.Machine
end

section
/-! SUPPORT. The stream cores' commands (R114–R118): what each body answers when its checks pass. -/

namespace Sys2Proof.Machine

/-- A command that reads words of memory, all of which decode, where no error waits. -/
theorem readOk_clean {s : State} {l : List Nat} (hu : s.mem.upsets = []) (hl : ∀ a ∈ l, a ∉ s.mem.bad) (k : Ans) : readOk s l k = k := by
  have hf : l.find? (fun a => s.mem.bad.contains a) = none := by simpa using hl
  unfold readOk
  split
  · rfl
  · simp only [upset, hu, hf]
    rfl

/-- The staged image's program, and its coefficients (Table 12.5). -/
def stagedProg (s : State) : Prog := toBundles (stagedWords s 64 ((staged s 10).toNat / 4))
def stagedCoef (s : State) : List Word := stagedWords s (64 + (staged s 10).toNat / 4) ((staged s 11).toNat / 4)

/-- The pages of a program's delay region (Table 3.5). -/
def delayPages (p : Prog) : Nat := fld ((bundleAt p 0).getD 1 0) 7 0

/-- CORE.LOAD finds nothing against loading the staged program `p`, of counts `c` and `st`, into slot `k` of core `n` (R114, Table 3.9). -/
structure Loadable (a : CmdArgs) (s : State) (n k : Nat) (p : Prog) (c st : Nat) : Prop where
  operand : resv (opnd a 0) 0x13 = false
  core : n = fld (opnd a 0) 1 0
  slot : k = fld (opnd a 0) 4 4
  prog : p = stagedProg s
  verified : s.sec.verified = true
  decodes : s.mem.bad = []
  quiet : s.mem.upsets = []
  valid : reservedAt p = none
  codeFits : p.length ≤ 2048
  coefFits : (staged s 11).toNat ≤ 32768
  unbound : ¬(((active s).bind n).en = true ∧ ((active s).bind n).slot = k)
  notHalted : ¬((Machine.core s n).st = .halted ∧ (Machine.core s n).haltSlot = k)
  noSwap : s.sets.swap = none
  room : (heldPages s (2 * n + k)).length + delayPages p ≤ 512
  judged : judge p = .ok (c, st)
  compatible : compatOk s s.power.fwVersion = true

theorem bodyCoreLoad_loads {a : CmdArgs} {s : State} {n k c st : Nat} {p : Prog} (h : Loadable a s n k p c st) :
    bodyCoreLoad a s = yes (loadSlot s n k p (stagedCoef s) c st) [toWord c, toWord st, toWord (delayPages p * 4096)] := by
  obtain ⟨hr, rfl, rfl, rfl, hv, hbad, hu, hres, hlen, hcoef, hslot, hhalt, hswap, hroom, hj, hfw⟩ := h
  unfold stagedProg at hres hlen hj hroom
  unfold bodyCoreLoad
  dsimp only
  rw [checks_pass (by simpa using hr), if_neg (by simp [hv]), readOk_clean hu (by simp [hbad]), hres]
  dsimp only
  rw [checks_pass, hj]
  · exact if_pos hfw
  · simp only [List.mem_cons, List.not_mem_nil, or_false, forall_eq_or_imp, forall_eq, Bool.or_eq_false_iff, decide_eq_false_iff_not,
      hswap, Option.isSome_none]
    refine ⟨⟨by omega, by omega⟩, ⟨⟨?_, ?_⟩, trivial⟩, by unfold delayPages at hroom; omega⟩
    · simpa using hslot
    · simpa using hhalt

/-- The slot that was loaded, as it stands then; the others are as before. -/
theorem slotOf_loadSlot (s : State) (n k : Nat) (p : Prog) (coef : List Word) (c st : Nat) :
    ∃ pages, slotOf (loadSlot s n k p coef c st) n k = ⟨true, c, st, pages, p.length⟩ := ⟨_, tget_tput_same ..⟩

/-- CORE.BIND is not marked I, so an admitted one is not IMMEDIATE. -/
theorem coreBind_notImmediate {a : CmdArgs} {s : State} (h : Admitted rowCoreBind a s) : a.imm = false := by
  obtain ⟨-, hc⟩ := h
  have hw : wordBad rowCoreBind a = false := hc (_, .unsupported) (List.mem_cons_self ..)
  exact (by simpa [wordBad, rowCoreBind] using hw : _ ∧ a.imm = false).2

/-- The binding that CORE.BIND names. -/
def bindingOf (a : CmdArgs) : CoreBinding := ⟨opnd a 1, opnd a 2, opnd a 3⟩

/-- CORE.BIND's own checks (R115). -/
def bindChecks (a : CmdArgs) : List (Bool × Status) :=
  [(resv (opnd a 0) 3 || resv (opnd a 1) 0x9CF00000 ||
      (!(bindingOf a).en && (opnd a 1 != 0 || opnd a 2 != 0 || opnd a 3 != 0)), .unsupported),
    ((bindingOf a).en && ((bindingOf a).depth == 0 || (bindingOf a).depth == 3 || (bindingOf a).rate == 15), .range)]

theorem bodyCoreBind_writes {a : CmdArgs} (hi : a.imm = false) (s : State) :
    bodyCoreBind a s = checks s (bindChecks a) (yes (writeItem 0x91 none (writeBind a) a s)) := by
  rw [writeItem_shadow hi]
  rfl

/-- A binding that is enabled and in range passes them, and so does the one that is all zero. -/
theorem bindChecks_pass {a : CmdArgs} (h0 : resv (opnd a 0) 3 = false) (h1 : resv (opnd a 1) 0x9CF00000 = false)
    (h : (bindingOf a).en = true ∧ ((bindingOf a).depth = 1 ∨ (bindingOf a).depth = 2) ∧ (bindingOf a).rate ≠ 15 ∨
      bindingOf a = ⟨0, 0, 0⟩) : ∀ c ∈ bindChecks a, c.1 = false := by
  simp only [bindChecks, List.mem_cons, List.not_mem_nil, or_false, forall_eq_or_imp, forall_eq, h0, h1, Bool.false_or]
  obtain ⟨he, hd, hr⟩ | hz := h
  · simp only [he, Bool.not_true, Bool.false_and, Bool.true_and, Bool.or_eq_false_iff, beq_eq_false_iff_ne, true_and]
    exact ⟨by omega, hr⟩
  · obtain ⟨h1, h2, h3⟩ := CoreBinding.mk.inj hz
    simp [bindingOf, h1, h2, h3, CoreBinding.en, bit]

/-- CORE.PARAM without IMMEDIATE. -/
theorem bodyCoreParam_shadow {a : CmdArgs} (hi : a.imm = false) (s : State) :
    bodyCoreParam a s = checks s (paramChecks a) (yes (writePage (!s.sets.selB) a.ops s)) := by
  simp only [bodyCoreParam, hi]
  rfl

theorem tagWords_length (l : List (BitVec 4)) (n : Nat) : (tagWords l n).length = n := by
  induction n generalizing l with
  | zero => rfl
  | succ n ih => simp [tagWords, ih]

/-- CORE.READ returns at most 255 state words and their tags. -/
theorem coreRead_length (w : Word) : fld w 15 8 + ceilDiv (fld w 15 8) 8 ≤ 1023 := by
  have := fld_lt w 15 8
  unfold ceilDiv
  omega

/-- CORE.READ of state words that decode. -/
theorem bodyCoreRead_reads {a : CmdArgs} {s : State} {x : Nat → Nat} (hr : resv (opnd a 0) 0x3FFFFF03 = false)
    (h0 : fld (opnd a 0) 15 8 ≠ 0)
    (hx : x = fun i => aPram (fld (opnd a 0) 1 0) + 0x10000 + 4 * ((fld (opnd a 0) 29 16 + i) % 16384))
    (hd : ∀ i < fld (opnd a 0) 15 8, x i ∉ s.mem.bad) (hu : s.mem.upsets = []) :
    bodyCoreRead a s = yes s ((List.range (fld (opnd a 0) 15 8)).map (fun i => s.mem.word (x i)) ++
      tagWords ((List.range (fld (opnd a 0) 15 8)).map (fun i => s.mem.tag (x i))) (ceilDiv (fld (opnd a 0) 15 8) 8)) := by
  subst hx
  unfold bodyCoreRead
  dsimp only
  rw [checks_pass (by simpa using ⟨hr, h0⟩), readOk_clean hu]
  simpa using hd

end Sys2Proof.Machine
end

section
/-! SUPPORT. The stream cores' events (R97, R103–R105, R109, R110, Table 3.8). -/

namespace Sys2Proof.Machine

/-! ## A frame computation -/

/-- What holds of a state and is kept by the issue of a bundle holds after a frame's bundles (`fetch` kept abstract, as in
`runBundles_sets`). -/
theorem runBundles_induction {P : State → Prop} {n : Fin 4} (hP : ∀ effs s t, issue (.sc n) effs s = .ok t → P s → P t) (slot fuel : Nat)
    (sb : List Coming) (cyc : Nat) (s : State) (hs : P s) : P (runBundles n slot fuel sb cyc s).1 := by
  revert sb cyc s
  delta runBundles
  refine brecOn_induction (runBundles._f n slot) (fun g => ∀ (sb : List Coming) (cyc : Nat) (s : State), P s → P (g sb cyc s).1) ?_ ?_ fuel
  · exact fun _ _ _ _ hs => hs
  · intro t x ih sb cyc s hs
    delta runBundles._f
    obtain ⟨fe, hfe⟩ : ∃ fe, fe = fetch := ⟨_, rfl⟩
    rw [← hfe]
    dsimp only
    split
    · exact hs
    · split
      · exact hs
      · split
        · exact hs
        · next hi =>
          split
          · exact hP _ _ _ hi hs
          · exact ih _ _ _ (hP _ _ _ hi hs)

@[simp] theorem storeWord_margin (u : Site) (delay : Bool) (idx : Nat) (w : Word) (t : BitVec 4) (s : State) :
    (storeWord u delay idx w t s).margin = s.margin := by
  unfold storeWord
  split
  · rfl
  · dsimp only
    split <;> rfl

@[simp] theorem applyEff_margin (u : Site) (e : Eff) (s : State) : (applyEff u e s).margin = s.margin := by
  cases e with
  | setG i r | setP i r =>
    simp only [applyEff]
    split <;> simp
  | setA i a => exact onRegs_margin ..
  | fend => exact onRegs_margin ..
  | store d i w t => exact storeWord_margin ..
  | spent x c a => exact logAbort_margin ..
  | _ => rfl

theorem issue_margin {u : Site} {l : List Eff} {s t : State} (h : issue u l s = .ok t) : t.margin = s.margin := by
  have hm : ∀ (l : List Eff) (s : State), (l.foldl (fun s e => applyEff u e s) s).margin = s.margin := by
    intro l
    induction l with
    | nil => exact fun _ => rfl
    | cons e l ih => exact fun s => (ih _).trans (applyEff_margin u e s)
  unfold issue at h
  dsimp only at h
  split at h
  · cases h
    rw [onRegs_margin, hm]
  · cases h

/-- A frame's bundles leave the margin planner's derating (R449). -/
theorem runBundles_margin {n : Fin 4} {slot fuel cyc c : Nat} {sb : List Coming} {s t : State} {e : Ending}
    (h : runBundles n slot fuel sb cyc s = (t, c, e)) : t.margin = s.margin := by
  have := runBundles_induction (n := n) (P := fun t => t.margin = s.margin) (fun _ _ _ hi hs => (issue_margin hi).trans hs)
    slot fuel sb cyc s rfl
  rwa [h] at this

theorem pctOf_congr {s t : State} (h : t.margin = s.margin) (cyc rate : Nat) : pctOf t cyc rate = pctOf s cyc rate := by
  simp only [pctOf, h]

/-- Updates of a core that agree on it agree. -/
theorem onCore_congr {n : Nat} {f g : Core → Core} {s : State} (h : f (core s n) = g (core s n)) : onCore n f s = onCore n g s :=
  congrArg (fun v => { s with cores := { s.cores with core := tput {} s.cores.core n v } }) h

/-- The core as a frame computation starts (R102, Table 3.7): its entry registers, and the input frame `x`. -/
def frameEntered (s : State) (b : CoreBinding) (x : Tab Sample) (entry : Nat) (c : Core) : Core :=
  { c with regs := entryRegs c.frameNo s.sets.epoch c.first (c.cutIn || cutOn b x) entry, input := x, out := [], undo := []
           lastErr := stillBad s c.lastErr }

/-- The core once a frame is computed in `cyc` cycles (R105): it is held, unless it came too late, and the input is used up. -/
def frameDone (s : State) (b : CoreBinding) (x : Tab Sample) (rest : List (Tab Sample)) (entry cyc : Nat) (k : Core) : Core :=
  { k with
    inputs := rest
    held := if k.late = 0 then k.held ++ [⟨k.frameNo, s.sets.epoch, k.first, k.cutIn, x, k.out, k.undo⟩] else k.held
    late := k.late - 1
    frameNo := k.frameNo + 1
    first := false
    cutIn := false
    undo := []
    undoCost := 0
    redo := k.redo - 1
    retry := false
    regs := { k.regs with pc := entry }
    lastErr := k.lastErr.filter (fun r => match r with | .word _ => true | .send _ | .beat _ _ _ => false)
    peakPct := max k.peakPct (pctOf s cyc b.rate) }

/-- A frame that did not come too late is held, after those held before. -/
theorem frameDone_held {k : Core} (h : k.late = 0) (s : State) (b : CoreBinding) (x : Tab Sample) (rest : List (Tab Sample))
    (entry cyc : Nat) :
    (frameDone s b x rest entry cyc k).held = k.held ++ [⟨k.frameNo, s.sets.epoch, k.first, k.cutIn, x, k.out, k.undo⟩] := if_pos h

/-- A frame computation that ends with FEND. The frame's bundles and `fetch` are kept abstract, so that they are not evaluated. -/
theorem coreFrameCompute_completes {s s2 : State} {n : Fin 4} {x : Tab Sample} {rest : List (Tab Sample)} {b : CoreBinding}
    {entry cyc : Nat} (hb : b = (active s).bind n.val) (hin : (core s n.val).inputs = x :: rest) (hready : coreReady s n.val = true)
    (hu : s.mem.upsets = []) (hheld : (core s n.val).held.length < b.depth) (hf : fetchLost s n.val b.slot 0 = false)
    (hentry : entry = fld ((fetch s n.val b.slot 0).getD 0 0) 10 0)
    (hrun : runBundles n b.slot (max (slotOf s n.val b.slot).cycles 1) [] (64 + (core s n.val).undoCost)
      (onCore n.val (frameEntered s b x entry) s) = (s2, cyc, .complete)) :
    coreFrameCompute n s = onCore n.val (frameDone s b x rest entry cyc) (dropSends n s2) := by
  have hreg : registerUpset s (.sc n) = none := by simp [registerUpset, hu]
  subst hb
  unfold coreFrameCompute
  obtain ⟨rb, hrb⟩ : ∃ rb, rb = runBundles := ⟨_, rfl⟩
  rw [← hrb] at hrun ⊢
  obtain ⟨fe, hfe⟩ : ∃ fe, fe = fetch := ⟨_, rfl⟩
  rw [← hfe] at hentry ⊢
  dsimp only
  rw [hin]
  dsimp only
  rw [if_pos ⟨hready, hheld⟩, if_neg (by simp [hf]), hreg, ← hentry]
  dsimp only
  have hs1 : onCore n.val (frameEntered s ((active s).bind n.val) x entry) s = onCore n.val (fun c => { c with
      regs := entryRegs c.frameNo s.sets.epoch c.first ((core s n.val).cutIn || cutOn ((active s).bind n.val) x) entry
      input := x, out := [], undo := [], lastErr := stillBad s c.lastErr }) s := onCore_congr rfl
  rw [← hs1, hrun]
  rfl

/-! ## Presentation (R104, R105, R110) -/

/-- Core `n`'s waiting inputs and the flows differ alone. -/
def InputsOnly (n : Nat) (s t : State) : Prop :=
  core t n = { core s n with inputs := (core t n).inputs } ∧ (∀ k ≠ n, core t k = core s k) ∧
  t = { s with cores := { s.cores with core := t.cores.core }, flows := t.flows }

theorem idleInput_inputsOnly (n : Nat) (s : State) : InputsOnly n s (idleInput n s) := by
  unfold idleInput
  split
  · exact ⟨rfl, fun _ _ => rfl, rfl⟩
  · exact ⟨by rw [core_onCore_same], fun _ hk => core_onCore_other _ _ _ _ hk, rfl⟩

theorem InputsOnly.flows {n : Nat} {s t u : State} (h : InputsOnly n s t) (hf : FlowsOnly t u) : InputsOnly n s u := by
  obtain ⟨h1, h2, h3⟩ := h
  have hc : ∀ k, core u k = core t k := by rw [hf]; exact fun _ => rfl
  refine ⟨by rw [hc, ← h1], fun k hk => (hc k).trans (h2 k hk), ?_⟩
  conv_lhs => rw [hf, h3]
  rw [hf]

/-- What every presentation does first: an input frame where no send flow runs, and the return flows begin their frame. -/
def frameBegins (n : Nat) (s : State) : State := rewind n (fun f => decide (f < 128)) (idleInput n s)

theorem frameBegins_inputsOnly (n : Nat) (s : State) : InputsOnly n s (frameBegins n s) :=
  (idleInput_inputsOnly n s).flows (.foldl (fun s f => (rfl : FlowsOnly s (onFlow f (fun r => { r with pos := 0 }) s))) _ _)

/-- The core as an update after that leaves it. -/
theorem core_frameBegins (n : Nat) (f : Core → Core) (s : State) : core (onCore n f (frameBegins n s)) n =
    f { core s n with inputs := (core (frameBegins n s) n).inputs } := by
  rw [core_onCore_same, ← (frameBegins_inputsOnly n s).1]

/-- An update of core `n` after that leaves the other cores, and everything beside the cores and the flows. -/
theorem InputsOnly.onCore {n : Nat} {s t : State} (h : InputsOnly n s t) (f : Core → Core) :
    (∀ k ≠ n, core (onCore n f t) k = core s k) ∧
    onCore n f t = { s with cores := { s.cores with core := (onCore n f t).cores.core }, flows := (onCore n f t).flows } := by
  obtain ⟨-, h2, h3⟩ := h
  refine ⟨fun k hk => (core_onCore_other _ _ _ _ hk).trans (h2 k hk), ?_⟩
  conv_lhs => rw [h3]
  rfl

/-- The core shows frame `f` and holds the frames `r` after it. -/
def showFrame (f : Frame) (r : List Frame) (c : Core) : Core :=
  { c with dueIn := 0, shown := some f.version, shownCut := false, held := r
           stale := c.stale.drop 1, cutFirst := c.cutNext, cutNext := false }

/-- The core falls back (R110): an old version, or nothing under epoch `e`, and every sample carries CUT. -/
def showStale (e : Nat) (c : Core) : Core :=
  { c with dueIn := 0, shown := some (c.stale.headD ⟨e, []⟩), shownCut := true, stale := c.stale.drop 1, cutFirst := true
           cutNext := true, late := c.late + 1, fallbacks := min 255 (c.fallbacks + 1) }

section
variable {s : State} {n : Nat} (hst : (core s n).st = .running) (hen : ((active s).bind n).en = true) (ha : audioRuns s = true)
  (hdue : (core s n).dueIn ≤ 1)
include hst hen ha hdue

/-- A presentation with a frame held. -/
theorem ev_framePresentation_held {f : Frame} {r : List Frame} (hh : (core s n).held = f :: r) :
    ev s (framePresentation n s) = .next (onCore n (showFrame f r) (frameBegins n s)) := by
  have hfr := ((frameBegins_inputsOnly n s).onCore (showFrame f r)).2
  have hp : framePresentation n s = onCore n (showFrame f r) (frameBegins n s) := by
    unfold framePresentation
    dsimp only
    rw [if_pos ⟨hst, hen, ha⟩, if_neg (by omega), hh]
    rfl
  rw [hp]
  exact ev_of_kept (by rw [hfr]) (by rw [hfr])

/-- A presentation with none held. -/
theorem ev_framePresentation_fallback (hh : (core s n).held = []) : ev s (framePresentation n s) =
    .next (raiseIrq irqFallback (onCore n (showStale s.sets.epoch) (frameBegins n s))) := by
  have hfr := ((frameBegins_inputsOnly n s).onCore (showStale s.sets.epoch)).2
  have hp : framePresentation n s = raiseIrq irqFallback (onCore n (showStale s.sets.epoch) (frameBegins n s)) := by
    unfold framePresentation
    dsimp only
    rw [if_pos ⟨hst, hen, ha⟩, if_neg (by omega), hh]
    rfl
  rw [hp]
  exact ev_of_kept (by rw [raiseIrq_pending, hfr]) (by rw [raiseIrq_sec, hfr])

end

/-- A flag is no part of a core. -/
theorem core_raiseIrq (i k : Nat) (s : State) : core (raiseIrq i s) k = core s k := rfl

/-- A flag is raised where the cores and the flows differ alone. -/
theorem raiseIrq_ofCores {s t : State} (h : t = { s with cores := { s.cores with core := t.cores.core }, flows := t.flows }) (i : Nat) :
    raiseIrq i t = { s with
      cores := { s.cores with core := (raiseIrq i t).cores.core }, flows := (raiseIrq i t).flows
      irq := { s.irq with pend := (raiseIrq i t).irq.pend } } := by
  have hirq : t.irq = s.irq := by rw [h]
  generalize hw : (raiseIrq i t).irq.pend = w
  have hr : raiseIrq i t = { t with irq := { s.irq with pend := w } } := by rw [← hw, ← hirq]; rfl
  rw [hr]
  conv_lhs => rw [h]

/-- A bit that is set reads 1. -/
theorem bit_setBit_true {i : Nat} (hi : i < 32) (w : Word) : bit (setBit w i true) i = true := by
  have hq := Nat.div_add_mod w.toNat (2 ^ i)
  have hr : w.toNat % 2 ^ i < 2 ^ i := Nat.mod_lt _ (Nat.two_pow_pos i)
  have hv : w.toNat - w.toNat / 2 ^ i % 2 * 2 ^ i + 1 * 2 ^ i = w.toNat % 2 ^ i + 2 ^ i * (2 * (w.toNat / 2 ^ i / 2) + 1) := by
    have h2 := Nat.div_add_mod (w.toNat / 2 ^ i) 2
    generalize w.toNat / 2 ^ i = q at *
    generalize w.toNat % 2 ^ i = r at *
    generalize 2 ^ i = p at *
    generalize q / 2 = h at *
    generalize q % 2 = e at *
    subst h2
    rw [← hq]
    have : p * (2 * h + e) + r - e * p = p * (2 * h) + r := by
      rw [Nat.mul_add, Nat.mul_comm e p]; omega
    rw [this]
    ring
  simp only [bit, setBit, setFld, fld, b2n, toWord, BitVec.getLsbD_ofNat, hi, decide_true, Bool.true_and, if_true,
    Nat.add_sub_cancel_left, pow_one, Nat.shiftRight_eq_div_pow, Nat.one_mod]
  rw [hv, Nat.testBit_eq_decide_div_mod_eq, Nat.add_mul_div_left _ _ (Nat.two_pow_pos i), Nat.div_eq_of_lt hr]
  simp

/-! ## The memory clear (R103) -/

/-- No byte and no tag of the `n` words from `a` is listed. -/
def Memory.RangeEmpty (m : Memory) (a n : Nat) : Prop :=
  (∀ e ∈ m.cells, e.1 < a ∨ a + 4 * n ≤ e.1) ∧ (∀ e ∈ m.tags, e.1 < a / 4 ∨ a / 4 + n ≤ e.1)

theorem Memory.rangeEmpty_clearRange (m : Memory) (a n : Nat) : (m.clearRange a n).RangeEmpty a n := by
  simp [RangeEmpty, clearRange]

theorem Memory.RangeEmpty.clearRange {m : Memory} {a n : Nat} (h : m.RangeEmpty a n) (b k : Nat) : (m.clearRange b k).RangeEmpty a n :=
  ⟨fun e he => h.1 e (List.mem_of_mem_filter he), fun e he => h.2 e (List.mem_of_mem_filter he)⟩

theorem Memory.RangeEmpty.foldl {m : Memory} {a n : Nat} (h : m.RangeEmpty a n) (f : Nat → Nat) (k : Nat) (l : List Nat) :
    (l.foldl (fun m p => m.clearRange (f p) k) m).RangeEmpty a n := by
  induction l generalizing m with
  | nil => exact h
  | cons p l ih => exact ih (h.clearRange _ _)

theorem Memory.rangeEmpty_foldl (f : Nat → Nat) (k : Nat) {l : List Nat} {p : Nat} (hp : p ∈ l) (m : Memory) :
    (l.foldl (fun m p => m.clearRange (f p) k) m).RangeEmpty (f p) k := by
  induction l generalizing m with
  | nil => cases hp
  | cons q l ih =>
    cases hp with
    | head => exact (m.rangeEmpty_clearRange (f p) k).foldl f k l
    | tail _ hp => exact ih hp _

/-- An index that a table does not list reads the default. -/
theorem tget_unlisted {α : Type} (d : α) (t : List (Nat × α)) (k : Nat) (h : ∀ e ∈ t, e.1 ≠ k) : tget d t k = d := by
  have := tget_filter_dropped d (fun _ => true) t k fun e he hk => absurd hk (h e he)
  rwa [List.filter_true] at this

/-- A word of an empty range is 0 with tag 0. -/
theorem Memory.RangeEmpty.word {m : Memory} {a n : Nat} (h : m.RangeEmpty a n) (ha : a % 4 = 0) {i : Nat} (hi : i < n) :
    m.word (a + 4 * i) = 0 ∧ m.tag (a + 4 * i) = 0 := by
  have hb : ∀ j < 4, m.byte ((a + 4 * i) / 4 * 4 + j) = 0 := fun j hj =>
    tget_unlisted 0 m.cells _ fun e he => by have := h.1 e he; omega
  refine ⟨?_, tget_unlisted 0 m.tags _ fun e he => by have := h.2 e he; omega⟩
  have h0 : m.byte ((a + 4 * i) / 4 * 4) = 0 := hb 0 (by omega)
  simp [Memory.word, h0, hb 1, hb 2, hb 3, toWord]

/-- Memory once core `n`'s state memory and the delay region of its slot are cleared. -/
def clearedMem (s : State) (n : Nat) : Memory :=
  (slotOf s n (slotNow s n)).pages.foldl (fun m p => m.clearRange (aCore + p * 4096) 1024) (s.mem.clearRange (aPram n + 0x10000) 16384)

/-! ## A code fetch error (Table 3.8) -/

/-- Logging a code word writes an entry and raises its flag. -/
theorem logCodeRow_frame (n a : Nat) (s : State) : logCodeRow n a s = { s with
    flt := (logCodeRow n a s).flt, irq := { s.irq with pend := (logCodeRow n a s).irq.pend } } := by
  unfold logCodeRow
  split
  · rw [logFault_eq]
    rfl
  · rfl

/-- The core as a code halt leaves it. -/
def halted (k : Nat) (c : Core) : Core :=
  { c with
    st := .halted, haltSlot := k, held := [], inputs := [], stale := [], redo := 0, retry := false, shown := none, shownCut := false
    undo := [], out := [] }

theorem core_logCodeRow (n a j : Nat) (s : State) : core (logCodeRow n a s) j = core s j := by
  rw [logCodeRow_frame]
  rfl

/-- What a core's update and the entry of its code word leave. -/
theorem logCodeRow_onCore_frame (n a : Nat) (f : Core → Core) (s : State) : logCodeRow n a (onCore n f s) = { s with
    cores := { s.cores with core := (logCodeRow n a (onCore n f s)).cores.core }, flt := (logCodeRow n a (onCore n f s)).flt
    irq := { s.irq with pend := (logCodeRow n a (onCore n f s)).irq.pend } } := by
  rw [logCodeRow_frame]
  rfl

theorem core_codeHalt_same (n k b : Nat) (s : State) : core (codeHalt n k b s) n = halted k (core s n) :=
  (core_logCodeRow ..).trans (core_onCore_same n (halted k) s)

theorem core_codeHalt_other {n j : Nat} (hj : j ≠ n) (k b : Nat) (s : State) : core (codeHalt n k b s) j = core s j :=
  (core_logCodeRow ..).trans (core_onCore_other _ _ _ _ hj)

theorem codeHalt_frame (n k b : Nat) (s : State) : codeHalt n k b s = { s with
    cores := { s.cores with core := (codeHalt n k b s).cores.core }, flt := (codeHalt n k b s).flt
    irq := { s.irq with pend := (codeHalt n k b s).irq.pend } } := logCodeRow_onCore_frame n _ (halted k) s

/-- The first word of the bundle that core `n` fetches no longer decodes. -/
def codeLost (n : Nat) (s : State) : State :=
  let a := aPram n + slotNow s n * 0x8000 + 16 * ((core s n).regs.pc % 2048)
  { s with mem := { s.mem with bad := if s.mem.bad.contains a then s.mem.bad else a :: s.mem.bad } }

theorem ev_codeFetchError {n : Nat} {s : State} (h : (core s n).st = .running) : ev s (codeFetchError n s) =
    .next (codeHalt n (slotNow s n) ((core s n).regs.pc % 2048) (codeLost n s)) := by
  have hfr := codeHalt_frame n (slotNow s n) ((core s n).regs.pc % 2048) (codeLost n s)
  have hp : codeFetchError n s = codeHalt n (slotNow s n) ((core s n).regs.pc % 2048) (codeLost n s) := if_pos h
  rw [hp]
  exact ev_of_kept (by rw [hfr]; rfl) (by rw [hfr]; rfl)

end Sys2Proof.Machine
end

section
/-! PROOF. The stream cores (O27). -/

namespace Sys2Proof.Machine

/-- Settles O27: the commands by their bodies, the events by what each leaves of the core, the flows and the memories. -/
theorem streamCores : Obligations.StreamCores := by
  unfold Obligations.StreamCores
  refine ⟨fun a s n k c st p h hr hn hk hv hbad hu hp hres hlen hcoef hslot hhalt hswap hcap hj hfw => ?_,
    fun a s b h hb h0 h1 hen => ?_, fun a s h hi h0 h1 hlen => ?_, fun a s x h h0 h1 hx hd hu => ?_,
    fun s s2 n x rest b entry cyc hb hin hready hu hheld hf hentry hrun hlate => ?_,
    fun s n f r hst hen ha hdue hh => ?_, fun s n hst hen ha hdue hh => ?_, fun s n hc => ?_, fun s n a hst ha => ?_⟩
  · have hload : Loadable a (fresh s) n k p c st :=
      ⟨hr, hn, hk, hp, hv, hbad, hu, hres, hlen, hcoef, hslot, hhalt, hswap, hcap, hj, hfw⟩
    obtain ⟨pages, hs⟩ := slotOf_loadSlot s n k p (stagedCoef s) c st
    exact ⟨loadSlot s n k p (stagedCoef s) c st,
      (execRow_body h rfl (bodyCoreLoad_loads hload) (Nat.le_add_left 3 1020) (by simp) rfl rfl).trans rfl,
      congrArg Slot.loaded hs, congrArg Slot.cycles hs, congrArg Slot.stores hs, fun i _ hne => tget_tput_other _ _ _ _ _ hne, rfl, rfl⟩
  · subst hb
    have hi := coreBind_notImmediate h
    exact execRow_writeShadow h hi ⟨rfl, rfl, rfl⟩ (rate := fun _ => none) (f := writeBind a) (bodyCoreBind_writes hi _)
      (bindChecks_pass h0 h1 hen)
  · have hbody : bodyCoreParam a (fresh s) = yes (writePage (!s.sets.selB) a.ops (fresh s)) := by
      rw [bodyCoreParam_shadow hi, checks_pass (by simpa [paramChecks] using ⟨h0, h1, hlen⟩)]
      rfl
    have hw : a.ops.headD 0 = opnd a 0 := by cases ho : a.ops <;> simp [opnd, ho]
    refine (execRow_body h rfl hbody (by simp [rowCoreParam]) (by simp) rfl rfl).trans ?_
    simp only [writePage, hw]
    rfl
  · have hbody := bodyCoreRead_reads (s := fresh s) h0 h1 hx hd hu
    refine (execRow_body h rfl hbody (coreRead_length _) ?_ rfl rfl).trans rfl
    simpa [tagWords_length] using coreRead_length (opnd a 0)
  · have hex : exec (.coreFrameCompute n) s = .next _ := congrArg (ev s) (coreFrameCompute_completes hb hin hready hu hheld hf hentry hrun)
    have hc : core (settle s (onCore n.val (frameDone s b x rest entry cyc) (dropSends n s2))) n.val =
        frameDone s b x rest entry cyc (core s2 n.val) := core_onCore_same ..
    have hm : s2.margin = s.margin := (runBundles_margin hrun).trans (onCore_margin ..)
    exact ⟨_, hex, by rw [hc]; rfl, by rw [hc]; rfl, by rw [hc]; rfl, by rw [hc]; rfl, hc ▸ frameDone_held hlate ..,
      by rw [hc, pctOf_congr hm]; rfl, by rw [hc]; rfl, fun k hk => core_onCore_other _ _ _ _ hk, rfl⟩
  · obtain ⟨hk, hfr⟩ := (frameBegins_inputsOnly n.val s).onCore (showFrame f r)
    have hc := core_frameBegins n.val (showFrame f r) s
    exact ⟨_, ev_framePresentation_held hst hen ha hdue hh, by rw [hc]; rfl, by rw [hc]; rfl, by rw [hc]; rfl, by rw [hc]; rfl,
      by rw [hc]; rfl, hk, hfr⟩
  · obtain ⟨hk, hfr⟩ := (frameBegins_inputsOnly n.val s).onCore (showStale s.sets.epoch)
    have hc := (core_raiseIrq irqFallback ..).trans (core_frameBegins n.val (showStale s.sets.epoch) s)
    exact ⟨_, ev_framePresentation_fallback hst hen ha hdue hh, by rw [hc]; rfl, by rw [hc]; rfl, by rw [hc]; rfl, by rw [hc]; rfl,
      by rw [hc]; rfl, bit_setBit_true (by decide) _, fun k h => (core_raiseIrq ..).trans (hk k h), raiseIrq_ofCores hfr _⟩
  · have hex : exec (.coreMemoryClearDone n) s = .next (onCore n.val (fun c => { c with clearing := false })
        { s with mem := clearedMem s n.val }) := congrArg (ev s) (if_pos hc)
    refine ⟨_, hex, congrArg Core.clearing (core_onCore_same ..), fun i hi => ?_, fun p hp i hi => ?_, rfl⟩
    · exact (((s.mem.rangeEmpty_clearRange ..).foldl ..).word (by simp only [aPram]; omega) hi)
    · exact (Memory.rangeEmpty_foldl (fun p => aCore + p * 4096) 1024 hp _).word (by simp only [aCore]; omega) hi
  · subst ha
    have hc := core_codeHalt_same n.val (slotNow s n.val) ((core s n.val).regs.pc % 2048) (codeLost n.val s)
    exact ⟨_, ev_codeFetchError hst, by rw [hc]; rfl, by rw [hc]; rfl, by rw [hc]; rfl, by rw [hc]; rfl, by rw [hc]; rfl,
      fun k hk => core_codeHalt_other hk _ _ (codeLost n.val s), codeHalt_frame ..⟩

end Sys2Proof.Machine
end

section
/-! SUPPORT. Folds of updates over the entries of a table: what each entry holds at the end, and what stands (Laws/Tab, Laws/State). -/

namespace Sys2Proof.Machine

/-! ## Folds -/

/-- What relates a machine to each next one relates it to the last. -/
theorem foldl_related {σ β : Type} {R : σ → σ → Prop} (hr : ∀ s, R s s) (ht : ∀ s t u, R s t → R t u → R s u) {f : σ → β → σ}
    (hf : ∀ s x, R s (f s x)) (l : List β) (s : σ) : R s (l.foldl f s) := by
  induction l generalizing s with
  | nil => exact hr s
  | cons x l ih => exact ht _ _ _ (hf s x) (ih (f s x))

/-- Each entry that a fold names takes `g` once, as taking it again changes nothing; the others stand. `I` holds throughout. -/
theorem entry_foldl {α : Type} {π : State → Nat → α} {I : State → Prop} {f : State → Nat → State} {g : Nat → α → α}
    (hI : ∀ s n, I s → I (f s n)) (hf : ∀ s n k, I s → π (f s n) k = if k = n then g k (π s k) else π s k)
    (hg : ∀ k x, g k (g k x) = g k x) (l : List Nat) {s : State} (hs : I s) (k : Nat) :
    π (l.foldl f s) k = if k ∈ l then g k (π s k) else π s k := by
  induction l generalizing s with
  | nil => simp
  | cons n l ih =>
    rw [List.foldl_cons, ih (hI s n hs), hf s n k hs]
    by_cases hn : k = n
    · simp only [hn, if_true, hg, ite_self, List.mem_cons_self]
    · simp only [hn, if_false, List.mem_cons, false_or]

theorem chan_onChan (n k : Nat) (f : Chan → Chan) (s : State) : chan (onChan n f s) k = if k = n then f (chan s k) else chan s k := by
  split
  · next h => rw [h, chan_onChan_same]
  · next h => exact chan_onChan_other n k f s h

theorem refBuf_onRef (n k : Nat) (f : RefBuf → RefBuf) (s : State) :
    refBuf (onRef n f s) k = if k = n then f (refBuf s k) else refBuf s k := by
  split
  · next h => rw [h, refBuf_onRef_same]
  · next h => exact refBuf_onRef_other n k f s h

/-- A second write of an entry covers the first, where that was no default. -/
theorem tput_tput {α : Type} [DecidableEq α] {d v : α} (hv : v ≠ d) (t : List (Nat × α)) (k : Nat) (w : α) :
    tput d (tput d t k v) k w = tput d t k w := by
  induction t with
  | nil => simp [tput, hv]
  | cons e r ih =>
    obtain ⟨k', v'⟩ := e
    rcases Nat.lt_trichotomy k k' with h | h | h
    · simp [tput, h, hv, Nat.not_le.2 h]
    · subst h; simp [tput, hv]
    · have h1 : ¬ k < k' := Nat.not_lt.2 h.le
      have h2 : k ≠ k' := h.ne'
      simp [tput, h1, h2, ih]

/-- Two changes of a channel are one, where the first leaves it other than a channel that is off. -/
theorem onChan_onChan {n : Nat} {f g h : Chan → Chan} {s : State} (hf : f (chan s n) ≠ {}) (hg : g (f (chan s n)) = h (chan s n)) :
    onChan n g (onChan n f s) = onChan n h s := by
  have ht : tmod {} (tmod {} s.fe.chans n f) n g = tmod {} s.fe.chans n h := by
    rw [tmod, tget_tmod_same, tmod, tput_tput (show f (tget {} s.fe.chans n) ≠ {} from hf)]
    exact congrArg (tput {} s.fe.chans n) hg
  simp only [onChan, ht]

/-! ## Frames of the front end -/

/-- Only the reference buffers differ. -/
def RefsOnly (s t : State) : Prop := t = { s with fe := { s.fe with refs := t.fe.refs } }

/-- Only the channels differ. -/
def ChansOnly (s t : State) : Prop := t = { s with fe := { s.fe with chans := t.fe.chans } }

/-- Only the channels and the times of their comparators' releases differ. -/
def StopsOnly (s t : State) : Prop := t = { s with fe := { s.fe with chans := t.fe.chans, release := t.fe.release } }

/-- Only the taps of the millrace differ. -/
def TapsOnly (s t : State) : Prop := t = { s with mr := { s.mr with taps := t.mr.taps } }

theorem RefsOnly.trans {s t u : State} (h : RefsOnly s t) (h' : RefsOnly t u) : RefsOnly s u := by
  unfold RefsOnly at *; rw [h', h]
theorem ChansOnly.trans {s t u : State} (h : ChansOnly s t) (h' : ChansOnly t u) : ChansOnly s u := by
  unfold ChansOnly at *; rw [h', h]
theorem StopsOnly.trans {s t u : State} (h : StopsOnly s t) (h' : StopsOnly t u) : StopsOnly s u := by
  unfold StopsOnly at *; rw [h', h]
theorem TapsOnly.trans {s t u : State} (h : TapsOnly s t) (h' : TapsOnly t u) : TapsOnly s u := by
  unfold TapsOnly at *; rw [h', h]

theorem refOnBank_refsOnly (s : State) (b : Nat) : RefsOnly s (refOnBank s b) := by
  unfold refOnBank; split <;> rfl

/-- The taps follow the channels; nothing else does. -/
theorem tapsFollow_tapsOnly (before s : State) : TapsOnly s (tapsFollow before s) := by
  refine foldl_related (R := TapsOnly) (fun _ => rfl) (fun _ _ _ => TapsOnly.trans) (fun s t => ?_) _ s
  unfold tapFollow
  dsimp only
  split
  · rfl
  · split
    · rfl
    · split <;> rfl

theorem noteRelease_stopsOnly (ch : Nat) (s : State) : StopsOnly s (noteRelease ch s) := by
  unfold noteRelease; split <;> rfl

theorem moveAll_chansOnly (before s : State) : ChansOnly s (moveAll before s) := by
  refine foldl_related (R := ChansOnly) (fun _ => rfl) (fun _ _ _ => ChansOnly.trans) (fun s ch => ?_) _ s
  unfold moveFrom
  dsimp only
  split <;> rfl

end Sys2Proof.Machine
end

section
/-! PROOF. The reference buffers (O1). -/

namespace Sys2Proof.Machine

/-! ## REF.ON (R127, R153) -/

/-- A buffer after REF.ON at `time`. -/
def turnedOn (time : Nat) (r : RefBuf) : RefBuf :=
  if r.powered then r else { on := true, powered := true, onAt := time, fromOn := true }

theorem turnedOn_turnedOn (time : Nat) (r : RefBuf) : turnedOn time (turnedOn time r) = turnedOn time r := by
  unfold turnedOn; split <;> simp [*]

theorem refBuf_refOnBank (s : State) (n b : Nat) :
    refBuf (refOnBank s n) b = if b = n then turnedOn (now s) (refBuf s b) else refBuf s b := by
  unfold refOnBank
  split
  · next h =>
    split
    · next hb => rw [hb, turnedOn, if_pos h]
    · rfl
  · next h =>
    rw [refBuf_onRef]
    split
    · next hb => rw [hb, turnedOn, if_neg h]
    · rfl

theorem refsOn_refsOnly (l : List Nat) (s : State) : RefsOnly s (l.foldl refOnBank s) :=
  foldl_related (R := RefsOnly) (fun _ => rfl) (fun _ _ _ => RefsOnly.trans) refOnBank_refsOnly l s

/-- The named buffers that were off are on. -/
theorem refBuf_refsOn (l : List Nat) (s : State) (b : Nat) :
    refBuf (l.foldl refOnBank s) b = if b ∈ l then turnedOn (now s) (refBuf s b) else refBuf s b :=
  entry_foldl (π := refBuf) (I := fun t => now t = now s) (g := fun _ => turnedOn (now s))
    (fun t n ht => by have := refOnBank_refsOnly t n; rw [RefsOnly] at this; rw [this]; exact ht)
    (fun t n k ht => by rw [refBuf_refOnBank, ht]) (fun _ => turnedOn_turnedOn _) l rfl b

theorem mem_indexes {n k : Nat} {p : Nat → Bool} : k ∈ indexes n p ↔ k < n ∧ p k = true := by simp [indexes]

theorem refOnBank_fresh (s : State) (b : Nat) : refOnBank (fresh s) b = fresh (refOnBank s b) := by
  unfold refOnBank
  change (if (refBuf s b).powered = true then _ else _) = _
  split <;> rfl

/-- The buffers do not read the response built so far. -/
theorem refsOn_fresh (l : List Nat) (s : State) : l.foldl refOnBank (fresh s) = fresh (l.foldl refOnBank s) :=
  List.foldl_hom fresh (fun s b => refOnBank_fresh s b)

theorem refOn_turnsOn {a : CmdArgs} {s : State} (h : Admitted rowRefOn a s) (hr : resv (opnd a 0) 0xF = false) :
    ∃ t, exec (.refOn a) s = .next (answered 0x20 .ok [refWord t] t) ∧ RefsOnly s t ∧
      ∀ b < 4, refBuf t b = if bit (opnd a 0) b ∧ (refBuf s b).powered = false
        then { on := true, powered := true, onAt := now s, fromOn := true } else refBuf s b := by
  obtain ⟨l, hl⟩ : ∃ l, l = indexes 4 (bit (opnd a 0)) := ⟨_, rfl⟩
  have hf := refsOn_refsOnly l s
  have hbody : bodyRefOn a (fresh s) = yes (fresh (l.foldl refOnBank s)) [refWord (l.foldl refOnBank s)] := by
    simp only [bodyRefOn, hr, checks_false, checks_nil, ← hl, refsOn_fresh]; rfl
  refine ⟨l.foldl refOnBank s, (execRow_body h rfl hbody (by simp [rowRefOn]) (by simp) (by rw [hf]; rfl) (by rw [hf]; rfl)).trans rfl, hf,
    fun b hb => ?_⟩
  rw [refBuf_refsOn, hl]
  simp only [mem_indexes, hb, true_and, turnedOn]
  by_cases hm : bit (opnd a 0) b <;> by_cases hp : (refBuf s b).powered <;> simp [hm, hp]

/-! ## REF.OFF and the ramps of a bank (R130, R154, Table 4.3) -/

/-- The queue and what SEC holds. -/
def queueAndSec (s : State) : List Instr × Security := (s.pending, s.sec)

/-- A running channel starts its ramp to 0. -/
def rampChan (s : State) (ch : Nat) : State :=
  if (chan s ch).run = .running then onChan ch (fun c => { c with run := .ramping, rampJ := 0 }) s else s

theorem rampBank_eq (b : Nat) (s : State) :
    rampBank b s = (bankChans b).foldl rampChan (calBreak ((bankChans b).filter (fun ch => (chan s ch).live)) s) := rfl

/-- A channel as its bank ramps. -/
def ramped (c : Chan) : Chan := if c.run = .running then { c with run := .ramping, rampJ := 0 } else c

theorem ramped_ramped (c : Chan) : ramped (ramped c) = ramped c := by
  unfold ramped; split <;> simp [*]

theorem chan_rampChan (s : State) (n k : Nat) : chan (rampChan s n) k = if k = n then ramped (chan s k) else chan s k := by
  unfold rampChan
  split
  · next h =>
    rw [chan_onChan]
    split
    · next hk => rw [hk, ramped, if_pos h]
    · rfl
  · next h =>
    split
    · next hk => rw [hk, ramped, if_neg h]
    · rfl

theorem chan_calBreak (l : List Nat) (s : State) (k : Nat) : chan (calBreak l s) k = chan s k := by
  unfold calBreak; split <;> rfl

theorem chan_rampBank (s : State) (b ch : Nat) : chan (rampBank b s) ch = if ch ∈ bankChans b ∧ (chan s ch).run = .running
    then { chan s ch with run := .ramping, rampJ := 0 } else chan s ch := by
  rw [rampBank_eq, entry_foldl (π := chan) (I := fun _ => True) (g := fun _ => ramped) (fun _ _ _ => trivial)
    (fun s n k _ => chan_rampChan s n k) (fun _ => ramped_ramped) _ trivial, chan_calBreak, ite_and]
  rfl

theorem calBreak_queueAndSec (l : List Nat) (s : State) : Kept queueAndSec s (calBreak l s) := .ite rfl rfl
theorem rampChan_queueAndSec (s : State) (ch : Nat) : Kept queueAndSec s (rampChan s ch) := .ite rfl rfl

theorem rampBank_queueAndSec (b : Nat) (s : State) : Kept queueAndSec s (rampBank b s) := by
  rw [rampBank_eq]
  exact (calBreak_queueAndSec _ s).trans (.foldl rampChan_queueAndSec _ _)

theorem refOffBank_queueAndSec (s : State) (b : Nat) : Kept queueAndSec s (refOffBank s b) := by
  unfold refOffBank
  split
  · rfl
  · split
    · exact rampBank_queueAndSec b (onRef b _ s)
    · rfl

/-- An event that keeps the queue and SEC answers its new state. -/
theorem ev_of_queueAndSec {s t : State} (h : Kept queueAndSec s t) : ev s t = .next t :=
  ev_of_kept (congrArg Prod.fst h) (congrArg (fun x => x.2.otp) h)

theorem any_live {s : State} {b : Nat} :
    (bankChans b).any (fun ch => (chan s ch).live) = true ↔ ∃ ch ∈ bankChans b, (chan s ch).live = true := by
  rw [List.any_eq_true]

theorem refOff_turnsOff {a : CmdArgs} {s : State} (h : Admitted rowRefOff a s) (hr : resv (opnd a 0) 0xF = false)
    (hf : flag a 0 = true ∨ enabledIn s (opnd a 0).toNat = 0) :
    exec (.refOff a) s = .next (answered 0x21 .ok [] ((indexes 4 (bit (opnd a 0))).foldl refOffBank (fresh s))) := by
  have hn : ¬(flag a 0 = false ∧ enabledIn (fresh s) (opnd a 0).toNat ≠ 0) := by
    rintro ⟨hf0, hen⟩
    exact hf.elim (by simp [hf0]) hen
  have hk : Kept queueAndSec (fresh s) ((indexes 4 (bit (opnd a 0))).foldl refOffBank (fresh s)) := .foldl refOffBank_queueAndSec _ _
  exact execRow_body h rfl (by simp only [rowRefOff, bodyRefOff, hr, checks_false, checks_nil, if_neg hn]; rfl) (by simp [rowRefOff])
    (by simp) (congrArg Prod.fst hk) (congrArg (fun x => x.2.otp) hk)

theorem refOff_refused {a : CmdArgs} {s : State} (h : Admitted rowRefOff a s) (hr : resv (opnd a 0) 0xF = false)
    (hf : flag a 0 = false) (hen : enabledIn s (opnd a 0).toNat ≠ 0) :
    exec (.refOff a) s = .next (answered 0x21 .refused [enabledIn s (opnd a 0).toNat] s) := by
  have hp : flag a 0 = false ∧ enabledIn (fresh s) (opnd a 0).toNat ≠ 0 := ⟨hf, hen⟩
  exact execRow_body (t := fresh s) h rfl (by simp only [rowRefOff, bodyRefOff, hr, checks_false, checks_nil, if_pos hp]; rfl)
    (by simp [rowRefOff]) (by simp) rfl rfl

theorem refOffBank_idle {s : State} {b : Nat} (hp : (refBuf s b).powered = true) (hl : ∀ ch ∈ bankChans b, (chan s ch).live = false) :
    refOffBank s b = onRef b (fun r => { onAt := r.onAt, need := r.need }) s := by
  have hn : ¬ (bankChans b).any (fun ch => (chan s ch).live) = true := by
    rw [any_live]; rintro ⟨ch, hm, hc⟩; simp [hl ch hm] at hc
  unfold refOffBank
  rw [if_neg (by simp [hp]), if_neg hn]
  rfl

theorem refOffBank_live {s : State} {b : Nat} (hp : (refBuf s b).powered = true) (hl : ∃ ch ∈ bankChans b, (chan s ch).live = true) :
    refOffBank s b = rampBank b (onRef b (fun r => { r with on := false, ready := false, offAfterRamp := true, fromOn := false }) s) := by
  unfold refOffBank
  rw [if_neg (by simp [hp]), if_pos (any_live.2 hl)]

/-! ## Readiness and loss of tolerance (R127, R128, Table 4.3) -/

theorem refHeld_of {tol : Nat} {s : State} {r : RefBuf} (h : ∀ l, r.lost = some l → 40000000 ≤ tol ∧ 40000000 ≤ since s l) :
    refHeld tol s r = true := by
  unfold refHeld
  split
  · next l hl => simpa using h l hl
  · rfl

theorem refReady_done {s : State} {b tol : Nat} (hp : (refBuf s b).powered = true) (ho : (refBuf s b).offAfterRamp = false)
    (hr : (refBuf s b).ready = false) (hn : (refBuf s b).need ≤ since s (refBuf s b).onAt)
    (hl : ∀ l, (refBuf s b).lost = some l → 40000000 ≤ tol ∧ 40000000 ≤ since s l) :
    refReady b tol s = onRef b (fun r => { r with ready := true, late := false, lost := none, fromOn := false }) s :=
  if_pos ⟨hp, ho, hr, hn, refHeld_of hl⟩

theorem refOutOfTolerance_done {s : State} {b : Nat} (hp : (refBuf s b).powered = true) (hr : (refBuf s b).ready = true) :
    refOutOfTolerance b s = if ∃ ch ∈ bankChans b, (chan s ch).live = true then
        logFault 0x08 b (toWord b) 0 (rampBank b (onRef b (fun r => { r with ready := false, lost := some (now s) }) s))
      else onRef b (fun r => { r with ready := false }) s := by
  unfold refOutOfTolerance
  dsimp only
  rw [if_pos ⟨hp, hr⟩]
  simp only [any_live]

theorem logFault_queueAndSec (c i : Nat) (d0 d1 : Word) (s : State) : Kept queueAndSec s (logFault c i d0 d1 s) := by
  simp [Kept, queueAndSec]

/-! ## The end of the ramps (Table 4.3) -/

/-- A channel stops. -/
def stopChan (s : State) (ch : Nat) : State := onChan ch (fun _ => { run := .stopped }) (noteRelease ch s)

theorem stopChan_stopsOnly (s : State) (ch : Nat) : StopsOnly s (stopChan s ch) := (noteRelease_stopsOnly ch s).trans rfl

theorem chan_noteRelease (n k : Nat) (s : State) : chan (noteRelease n s) k = chan s k := by
  unfold noteRelease; split <;> rfl

theorem chan_stopChan (s : State) (n k : Nat) : chan (stopChan s n) k = if k = n then { run := .stopped } else chan s k := by
  rw [stopChan, chan_onChan, chan_noteRelease]

/-- The channels of a bank that ramp. -/
def rampingIn (s : State) (b : Nat) : List Nat := (bankChans b).filter (fun ch => (chan s ch).run == .ramping)

theorem mem_rampingIn {s : State} {b ch : Nat} : ch ∈ rampingIn s b ↔ ch ∈ bankChans b ∧ (chan s ch).run = .ramping := by
  simp [rampingIn]

theorem bufferOff_done {s : State} {b : Nat} (h : (refBuf s b).offAfterRamp = true ∨ ∃ ch ∈ bankChans b, (chan s ch).run = .ramping)
    (hd : ∀ ch ∈ bankChans b, rampDone s ch = true) : bufferOff b s =
      if (refBuf s b).offAfterRamp then refUnpower b ((rampingIn s b).foldl stopChan s) else (rampingIn s b).foldl stopChan s := by
  refine if_pos ⟨h.symm.imp_left ?_, List.all_eq_true.2 fun ch hm => hd ch (mem_rampingIn.1 hm).1⟩
  rintro ⟨ch, hm⟩
  exact List.ne_nil_of_mem (mem_rampingIn.2 hm)

theorem bufferOff_stops {s : State} {b : Nat} (h : (refBuf s b).offAfterRamp = true ∨ ∃ ch ∈ bankChans b, (chan s ch).run = .ramping)
    (hd : ∀ ch ∈ bankChans b, rampDone s ch = true) :
    ∃ t, exec (.bufferOff b) s = .next t ∧ t = { s with fe := t.fe, mr := { s.mr with taps := t.mr.taps } } ∧
      t.fe.ovrReg = s.fe.ovrReg ∧
      refBuf t b = (if (refBuf s b).offAfterRamp then { onAt := (refBuf s b).onAt, need := (refBuf s b).need } else refBuf s b) ∧
      ∀ ch, chan t ch = if ch ∈ bankChans b ∧ (chan s ch).run = .ramping then { run := .stopped } else chan s ch := by
  obtain ⟨v, hv⟩ : ∃ v, v = (rampingIn s b).foldl stopChan s := ⟨_, rfl⟩
  obtain ⟨u, hu⟩ : ∃ u, u = bufferOff b s := ⟨_, rfl⟩
  have hvs : StopsOnly s v := hv ▸ foldl_related (R := StopsOnly) (fun _ => rfl) (fun _ _ _ => StopsOnly.trans) stopChan_stopsOnly _ s
  have hbuf : refBuf v b = refBuf s b := by rw [hvs]; rfl
  have huv : u = if (refBuf s b).offAfterRamp then refUnpower b v else v := by rw [hu, bufferOff_done h hd, hv]
  have hut := tapsFollow_tapsOnly s u
  have huf : u = { s with fe := { v.fe with refs := u.fe.refs } } := by
    rw [huv]
    split
    · rw [hvs]; rfl
    · rw [hvs]
  have hchan : ∀ ch, chan u ch = chan v ch := fun ch => by rw [huf]; rfl
  refine ⟨tapsFollow s u, ?_, ?_, ?_, ?_, fun ch => ?_⟩
  · rw [hu]
    exact ev_of_kept (by rw [← hu, hut, huf]) (by rw [← hu, hut, huf])
  · rw [hut, huf]
  · rw [hut, huf, hvs]
  · rw [hut]
    change refBuf u b = _
    rw [huv]
    split
    · rw [refUnpower, refBuf_onRef_same, hbuf]
    · exact hbuf
  · rw [hut]
    change chan u ch = _
    rw [hchan, hv, entry_foldl (π := chan) (I := fun _ => True) (g := fun _ _ => { run := .stopped }) (fun _ _ _ => trivial)
      (fun s n k _ => chan_stopChan s n k) (fun _ _ => rfl) _ trivial]
    simp only [mem_rampingIn]

/-- Settles O1, clause by clause: the two commands, what turning off does, and the four events. -/
theorem referenceBuffers : Obligations.ReferenceBuffers := by
  unfold Obligations.ReferenceBuffers
  refine ⟨fun a s h hr => refOn_turnsOn h hr, fun a s h hr hf => refOff_turnsOff h hr hf, fun a s h hr hf he => refOff_refused h hr hf he,
    fun s b hp hl => refOffBank_idle hp hl, fun s b hp hl => refOffBank_live hp hl, chan_rampBank, ?_, ?_, ?_,
    fun s b h hd => bufferOff_stops h hd⟩
  · exact fun s b tol hp ho hr hn hl => (congrArg (ev s) (refReady_done hp ho hr hn hl)).trans (ev_of_kept rfl rfl)
  · exact fun s b hp hf hl ht => (congrArg (ev s) (if_pos ⟨hp, hf, hl, ht⟩)).trans
      (ev_of_queueAndSec (Kept.trans rfl (logFault_queueAndSec ..)))
  · intro s b hp hr
    refine (congrArg (ev s) (refOutOfTolerance_done hp hr)).trans (ev_of_queueAndSec ?_)
    split
    · exact (rampBank_queueAndSec b (onRef b _ s)).trans (logFault_queueAndSec ..)
    · rfl

end Sys2Proof.Machine
end

section
/-! PROOF. The input channels (O2). -/

namespace Sys2Proof.Machine

/-! ## Starts (R129) -/

theorem channelStart_starts {s : State} {ch : Nat} (he : (active s).chEn ch = true) (hr : (chan s ch).run = .stopped)
    (hb : (refBuf s (ch / 8)).ready = true) (ha : audioRuns s = true) (hc : chanBoundary s ch = true) :
    ∃ t, exec (.channelStart ch) s = .next t ∧ t = { s with fe := t.fe, mr := { s.mr with taps := t.mr.taps } } ∧
      chan t ch = { ({} : Chan) with
        run := .running, gain := (active s).chGain ch, bank := (active s).chBank ch
        setLeft := leadIn s (active s) ch + nA 2000000 (chanHz (active s) ch) + settleIn (active s) ch
        nbr := (active s).chNbr ch && neighbourTripped s ch } ∧
      ∀ k ≠ ch, chan t k = chan s k := by
  have hs : channelStart ch s = startChan ch s := if_pos ⟨he, hr, hb, ha, hc⟩
  have ht := tapsFollow_tapsOnly s (startChan ch s)
  refine ⟨tapsFollow s (startChan ch s), ?_, ?_, ?_, fun k hk => ?_⟩
  · exact (congrArg (fun t => ev s (tapsFollow s t)) hs).trans (ev_of_kept (by rw [ht]; rfl) (by rw [ht]; rfl))
  · rw [ht]; rfl
  · rw [ht]; exact chan_onChan_same ..
  · rw [ht]; exact chan_onChan_other _ _ _ _ hk

/-! ## Gain changes (R142, R152, R155) -/

/-- The pending gain `p` comes into use: SET for `n` samples at least. -/
def takeGain (p : GainPend) (n : Nat) (c : Chan) : Chan := addSet n { c with gain := p.target, gainPend := none }

/-- A live channel is not one that is off. -/
theorem ne_off_of_live {c : Chan} (h : c.live = true) : c ≠ {} := by
  rintro rfl; cases h

theorem onChan_congr {n : Nat} {f g : Chan → Chan} {s : State} (h : f (chan s n) = g (chan s n)) : onChan n f s = onChan n g s := by
  have ht : tmod {} s.fe.chans n f = tmod {} s.fe.chans n g := congrArg (tput ({} : Chan) s.fe.chans n) h
  simp only [onChan, ht]

/-- The correction in use reads of a channel whether it runs, and its gain. -/
theorem corrOf_onChan_congr {n : Nat} {f g : Chan → Chan} {s : State} (hr : (f (chan s n)).run = (g (chan s n)).run)
    (hg : (f (chan s n)).gain = (g (chan s n)).gain) : corrOf (onChan n f s) n = corrOf (onChan n g s) n := by
  have hn : gainNow (onChan n f s) n = gainNow (onChan n g s) n := by
    have hf : tget {} (onChan n f s).fe.chans n = f (chan s n) := chan_onChan_same n f s
    have hg' : tget {} (onChan n g s).fe.chans n = g (chan s n) := chan_onChan_same n g s
    simp only [gainNow, hf, hg', hr, hg]
    rfl
  unfold corrOf
  rw [hn]
  rfl

/-- The move that a change of the record in use to `t` leaves (R152, R155). -/
def moveAfter (changes : Bool) (t : Corr) (m : Option Move) : Option Move :=
  if changes then m.bind (fun m => if m.src.pol = t.pol then none else some { m with src := { t with pol := m.src.pol } }) else m

theorem recordStep_onChan {ch : Nat} {f : Chan → Chan} {s : State} (hf : f (chan s ch) ≠ {}) (b : Bool) :
    recordStep ch b (onChan ch f s) =
      onChan ch (fun c => { f c with move := moveAfter b (corrOf (onChan ch f s) ch) (f (chan s ch)).move }) s := by
  cases b
  · exact onChan_congr rfl
  · exact onChan_onChan hf rfl

theorem gainSwitch_done {s : State} {ch : Nat} {crossing : Bool} {p : GainPend} (hp : (chan s ch).gainPend = some p)
    (hl : (chan s ch).live = true) (ht : (crossing = true ∧ (chan s ch).crossHold = 0) ∨ 2000000 ≤ since s p.since) :
    gainSwitch ch crossing s =
      recordStep ch (decide (rangeOf ((active s).chMode ch) (chan s ch).gain ≠ rangeOf ((active s).chMode ch) p.target))
        (onChan ch (takeGain p (nA (if p.cross then 200000 else 20000) (chanHz (active s) ch) + settleIn (active s) ch)) s) := by
  unfold gainSwitch
  simp only [hp]
  exact if_pos ⟨hl, ht⟩

theorem gainSwitch_takes {s : State} {ch : Nat} {crossing : Bool} {p : GainPend} (hp : (chan s ch).gainPend = some p)
    (hl : (chan s ch).live = true) (ht : (crossing = true ∧ (chan s ch).crossHold = 0) ∨ 2000000 ≤ since s p.since) :
    ∃ (t : State) (move : Option Move), exec (.gainSwitch ch crossing) s = .next t ∧
      t = onChan ch (fun c => { c with
        gain := p.target, gainPend := none, move := move
        setLeft := max c.setLeft
          (nA (if p.cross then 200000 else 20000) (chanHz (active s) ch) + settleIn (active s) ch) }) s ∧
      move = (if rangeOf ((active s).chMode ch) (chan s ch).gain = rangeOf ((active s).chMode ch) p.target
        then (chan s ch).move
        else (chan s ch).move.bind (fun m =>
          if m.src.pol = (corrOf t ch).pol then none else some { m with src := { corrOf t ch with pol := m.src.pol } })) := by
  have hd := gainSwitch_done hp hl ht
  generalize nA (if p.cross then 200000 else 20000) (chanHz (active s) ch) + settleIn (active s) ch = n at hd ⊢
  have hlive : (takeGain p n (chan s ch)).live = true := hl
  rw [recordStep_onChan (ne_off_of_live hlive)] at hd
  generalize hk : moveAfter _ (corrOf (onChan ch (takeGain p n) s) ch) _ = k at hd
  have hc : corrOf (onChan ch (takeGain p n) s) ch = corrOf (onChan ch (fun c => { takeGain p n c with move := k }) s) ch :=
    corrOf_onChan_congr rfl rfl
  refine ⟨_, k, (congrArg (ev s) hd).trans (ev_of_kept rfl rfl), rfl, ?_⟩
  rw [← hc, ← hk]
  by_cases hr : rangeOf ((active s).chMode ch) (chan s ch).gain = rangeOf ((active s).chMode ch) p.target
  · rw [if_pos hr, decide_eq_false (not_not.2 hr)]; rfl
  · rw [if_neg hr, decide_eq_true hr]; rfl

/-! ## Overload and instability (R137, R139, R140, R144) -/

/-- A bit of ST_OVR is set, and OVERLOAD raised where it was 0. -/
theorem setOvrBit_eq (ch : Nat) (s : State) : setOvrBit ch s = { s with
    fe := { s.fe with ovrReg := setBit s.fe.ovrReg ch true }
    irq := { s.irq with pend := if bit s.fe.ovrReg ch then s.irq.pend else setBit s.irq.pend irqOverload true } } := by
  unfold setOvrBit raiseIf
  cases bit s.fe.ovrReg ch <;> rfl

theorem chan_setOvrBit (g : Nat) (s : State) (n : Nat) : chan (setOvrBit g s) n = chan s n := by rw [setOvrBit_eq]; rfl

/-- A neighbour of `ch` flags SET where ACTIVE says so. -/
def flagged (c : ConfigSet) (ch n : Nat) (x : Chan) : Chan := if n ≠ ch ∧ x.live ∧ c.chNbr n then { x with nbr := true } else x

theorem flagged_flagged (c : ConfigSet) (ch n : Nat) (x : Chan) : flagged c ch n (flagged c ch n x) = flagged c ch n x := by
  by_cases h : n ≠ ch ∧ x.live ∧ c.chNbr n
  · have hx : flagged c ch n x = { x with nbr := true } := if_pos h
    rw [hx]
    exact if_pos h
  · have hx : flagged c ch n x = x := if_neg h
    rw [hx, hx]

/-- A trip flags no SET on its own channel. -/
theorem flagged_self (c : ConfigSet) (ch : Nat) (x : Chan) : flagged c ch ch x = x := if_neg fun h => h.1 rfl

theorem flagNeighbour_chansOnly (s : State) (ch n : Nat) : ChansOnly s (if n ≠ ch ∧ (chan s n).live ∧ (active s).chNbr n
    then onChan n (fun c => { c with nbr := true }) s else s) := by split <;> rfl

theorem chan_flagNeighbour (s : State) (ch n k : Nat) : chan (if n ≠ ch ∧ (chan s n).live ∧ (active s).chNbr n
    then onChan n (fun c => { c with nbr := true }) s else s) k = if k = n then flagged (active s) ch k (chan s k) else chan s k := by
  split
  · next h =>
    rw [chan_onChan]
    split
    · next hk => subst hk; exact (if_pos h).symm
    · rfl
  · next h =>
    split
    · next hk => subst hk; exact (if_neg h).symm
    · rfl

theorem flagNeighbours_chansOnly (ch : Nat) (s : State) : ChansOnly s (flagNeighbours ch s) :=
  foldl_related (R := ChansOnly) (fun _ => rfl) (fun _ _ _ => ChansOnly.trans) (fun s n => flagNeighbour_chansOnly s ch n) _ s

theorem chan_flagNeighbours (ch : Nat) (s : State) (k : Nat) :
    chan (flagNeighbours ch s) k = if k ∈ bankChans (ch / 8) then flagged (active s) ch k (chan s k) else chan s k :=
  entry_foldl (π := chan) (I := fun t => active t = active s) (g := flagged (active s) ch)
    (fun t n ht => by have := flagNeighbour_chansOnly t ch n; rw [ChansOnly] at this; rw [this]; exact ht)
    (fun t n k ht => by rw [chan_flagNeighbour, ht]) (flagged_flagged _ ch) _ rfl k

theorem overloadTrip_done {s : State} {ch g : Nat} (hg : g = (active s).gov ch) (hm : modRuns s g = true) (ho : (chan s g).ovr = false) :
    overloadTrip ch s = flagNeighbours g (setOvrBit g (onChan g (fun c => { c with ovr := true }) s)) := by
  subst hg; exact if_pos ⟨hm, ho⟩

theorem overloadTrip_flags {s : State} {ch g : Nat} (hg : g = (active s).gov ch) (hm : modRuns s g = true) (ho : (chan s g).ovr = false) :
    ∃ t, exec (.overloadTrip ch) s = .next t ∧ chan t g = { chan s g with ovr := true } ∧
      t.fe.ovrReg = setBit s.fe.ovrReg g true ∧
      t.irq.pend = (if bit s.fe.ovrReg g then s.irq.pend else setBit s.irq.pend irqOverload true) ∧
      (∀ n ≠ g, chan t n = if n ∈ bankChans (g / 8) ∧ (chan s n).live = true ∧ (active s).chNbr n = true
        then { chan s n with nbr := true } else chan s n) ∧
      t = { s with fe := { s.fe with chans := t.fe.chans, ovrReg := t.fe.ovrReg }, irq := { s.irq with pend := t.irq.pend } } := by
  have hd := overloadTrip_done hg hm ho
  obtain ⟨u, hu⟩ : ∃ u, u = setOvrBit g (onChan g (fun c => { c with ovr := true }) s) := ⟨_, rfl⟩
  have he := hu.trans (setOvrBit_eq g _)
  have hf := flagNeighbours_chansOnly g u
  have hc : ∀ n, chan u n = if n = g then { chan s n with ovr := true } else chan s n := fun n => by
    rw [hu, chan_setOvrBit, chan_onChan]
  have ha : active u = active s := by rw [he]; rfl
  refine ⟨flagNeighbours g u, ?_, ?_, ?_, ?_, fun n hn => ?_, ?_⟩
  · exact (congrArg (ev s) (hu ▸ hd)).trans (ev_of_kept (by rw [hf, he]; rfl) (by rw [hf, he]; rfl))
  · rw [chan_flagNeighbours, hc, if_pos rfl, flagged_self, ite_self]
  · rw [hf, he]; rfl
  · rw [hf, he]; rfl
  · rw [chan_flagNeighbours, hc, if_neg hn, ha, ite_and]
    simp only [flagged, ne_eq, hn, not_false_eq_true, true_and]
  · rw [hf, he]; rfl

theorem overloadRelease_leaves {s : State} {ch g : Nat} (hg : g = (active s).gov ch) (ho : (chan s g).ovr = true) :
    ∃ t, exec (.overloadRelease ch) s = .next t ∧
      chan t g = { chan s g with ovr := false, ovrTail := max (chan s g).ovrTail (settleIn (active s) g) } ∧
      (∀ n ≠ g, chan t n = chan s n) ∧ tget 0 t.fe.release g = now s ∧
      t = { s with fe := { s.fe with chans := t.fe.chans, release := t.fe.release } } := by
  have hr : noteRelease g s = { s with fe := { s.fe with release := tput 0 s.fe.release g (now s) } } := if_pos ho
  have hd : overloadRelease ch s =
      onChan g (fun c => { c with ovr := false, ovrTail := max c.ovrTail (settleIn (active s) g) }) (noteRelease g s) := by
    subst hg; exact if_pos ho
  rw [hr] at hd
  exact ⟨_, (congrArg (ev s) hd).trans (ev_of_kept rfl rfl), chan_onChan_same .., fun n hn => chan_onChan_other _ _ _ _ hn,
    tget_tput_same .., rfl⟩

theorem modulatorInstability_flags {s : State} {ch g : Nat} (hg : g = (active s).gov ch) (hm : modRuns s g = true)
    (hu : (chan s g).unstable = false) :
    ∃ t, exec (.modulatorInstability ch) s = .next t ∧ chan t g = { chan s g with unstable := true } ∧
      (∀ n ≠ g, chan t n = chan s n) ∧ t.fe.ovrReg = setBit s.fe.ovrReg g true ∧
      t.irq.pend = (if bit s.fe.ovrReg g then s.irq.pend else setBit s.irq.pend irqOverload true) ∧
      t = { s with fe := { s.fe with chans := t.fe.chans, ovrReg := t.fe.ovrReg }, irq := { s.irq with pend := t.irq.pend } } := by
  have hd : modulatorInstability ch s = setOvrBit g (onChan g (fun c => { c with unstable := true }) s) := by
    subst hg; exact if_pos ⟨hm, hu⟩
  refine ⟨_, (congrArg (ev s) hd).trans (ev_of_kept ?_ ?_), ?_, fun n hn => ?_, ?_⟩
  · rw [setOvrBit_eq]; rfl
  · rw [setOvrBit_eq]; rfl
  · rw [chan_setOvrBit, chan_onChan_same]
  · rw [chan_setOvrBit, chan_onChan_other _ _ _ _ hn]
  · rw [setOvrBit_eq]; exact ⟨rfl, rfl, rfl⟩

theorem neighbourSetEnd_done {s : State} {ch : Nat} (hn : (chan s ch).nbr = true)
    (hb : ∀ n ∈ bankChans (ch / 8), n = ch ∨ ((chan s n).ovr = false ∧ 20000 ≤ since s (tget 0 s.fe.release n))) :
    neighbourSetEnd ch s = onChan ch (fun c => { c with nbr := false, setLeft := max c.setLeft (settleIn (active s) ch) }) s := by
  refine if_pos ⟨hn, List.all_eq_true.2 fun n hm => ?_⟩
  rcases hb n hm with rfl | ⟨ho, ht⟩
  · simp
  · have hu : 20 * usec ≤ since s (tget 0 s.fe.release n) := ht
    simp [ho, hu]

/-- Settles O2, event by event. -/
theorem inputChannels : Obligations.InputChannels := by
  unfold Obligations.InputChannels
  refine ⟨fun s ch he hr hb ha hc => channelStart_starts he hr hb ha hc, fun s ch crossing p hp hl ht => gainSwitch_takes hp hl ht,
    fun s ch g hg hm ho => overloadTrip_flags hg hm ho, fun s ch g hg ho => overloadRelease_leaves hg ho,
    fun s ch g hg hm hu => modulatorInstability_flags hg hm hu, fun s ch g hg hu => ?_, fun s ch hn hb => ?_, fun s ch m hm hj => ?_⟩
  · subst hg
    exact (congrArg (ev s) (if_pos hu)).trans (ev_of_kept rfl rfl)
  · exact (congrArg (ev s) (neighbourSetEnd_done hn hb)).trans (ev_of_kept rfl rfl)
  · have hd : coefficientMoveEnd ch s = onChan ch (fun c => { c with move := none }) s := by
      simp only [coefficientMoveEnd, hm, hj, if_true]
    exact (congrArg (ev s) hd).trans (ev_of_kept rfl rfl)

end Sys2Proof.Machine
end

section
/-! PROOF. Calibration measurements (O46). -/

namespace Sys2Proof.Machine

/-! ## Tables after changes of several entries -/

/-- A change of a table: entry `k` takes `f`, the others stand. -/
def Updates {α : Type} (d : α) (h : Tab α → Tab α) (k : Nat) (f : α → α) : Prop :=
  ∀ t, tget d (h t) k = f (tget d t k) ∧ ∀ j ≠ k, tget d (h t) j = tget d t j

theorem updates_tmod {α : Type} [DecidableEq α] (d : α) (k : Nat) (f : α → α) : Updates d (fun t => tmod d t k f) k f :=
  fun t => ⟨tget_tmod_same d t k f, fun j hj => tget_tmod_other d t k j f hj⟩

theorem Updates.comp {α : Type} {d : α} {h h' : Tab α → Tab α} {k : Nat} {f f' : α → α} (hu : Updates d h k f)
    (hu' : Updates d h' k f') : Updates d (fun t => h' (h t)) k (fun x => f' (f x)) :=
  fun t => ⟨by rw [(hu' _).1, (hu t).1], fun j hj => by rw [(hu' _).2 j hj, (hu t).2 j hj]⟩

/-- Entries that do not meet take each its own change, and every other entry stands. -/
theorem tget_foldl_updates {α β : Type} {d : α} {h : β → Tab α → Tab α} {key : β → Nat} {f : β → α → α}
    (hu : ∀ x, Updates d (h x) (key x) (f x)) {l : List β} (hk : l.Pairwise (fun x y => key x ≠ key y)) (t : Tab α) :
    (∀ x ∈ l, tget d (l.foldl (fun t x => h x t) t) (key x) = f x (tget d t (key x))) ∧
    ∀ k, (∀ x ∈ l, k ≠ key x) → tget d (l.foldl (fun t x => h x t) t) k = tget d t k := by
  induction l generalizing t with
  | nil => exact ⟨by simp, fun _ _ => rfl⟩
  | cons y l ih =>
    obtain ⟨hy, hl⟩ := List.pairwise_cons.1 hk
    obtain ⟨hin, hout⟩ := ih hl (h y t)
    refine ⟨fun x hx => ?_, fun k hn => ?_⟩
    · rcases List.mem_cons.1 hx with rfl | hx
      · rw [List.foldl_cons, hout _ hy, (hu x t).1]
      · rw [List.foldl_cons, hin x hx, (hu y t).2 _ (hy x hx).symm]
    · rw [List.foldl_cons, hout k fun x hx => hn x (List.mem_cons_of_mem _ hx), (hu y t).2 _ (hn y (List.mem_cons_self ..))]

/-! ## Interrupt flags -/

/-- Setting a bit that is 0 adds it. -/
theorem setBit_clear {i : Nat} {w : Word} (h : bit w i = false) : setBit w i true = w + BitVec.twoPow 32 i := by
  have hf : fld w i i = 0 := by
    have ht : w.toNat.testBit i = false := h
    rw [fld, Nat.add_sub_cancel_left, Nat.pow_one]
    simpa [Nat.testBit, Nat.one_and_eq_mod_two] using ht
  refine BitVec.eq_of_toNat_eq ?_
  simp [setBit, setFld, hf, toWord, b2n, BitVec.toNat_twoPow]

/-- Setting a bit that is 1 leaves the word. -/
theorem setBit_set {i : Nat} {w : Word} (h : bit w i = true) : setBit w i true = w := by
  have ht : w.toNat.testBit i = true := h
  have hf : fld w i i = 1 := by
    rw [fld, Nat.add_sub_cancel_left, Nat.pow_one]
    simpa [Nat.testBit, Nat.one_and_eq_mod_two] using ht
  have hle : 2 ^ i ≤ w.toNat := Nat.ge_two_pow_of_testBit ht
  refine BitVec.eq_of_toNat_eq ?_
  simp [setBit, setFld, hf, toWord, b2n, Nat.sub_add_cancel hle]

/-- Setting a bit leaves the others. -/
theorem bit_setBit_other {i j : Nat} (h : j ≠ i) (w : Word) : bit (setBit w i true) j = bit w j := by
  cases hb : bit w i
  · have hand : w &&& BitVec.twoPow 32 i = 0#32 := by
      rw [BitVec.and_twoPow, if_neg (by simpa [bit] using hb)]
    rw [setBit_clear hb, BitVec.add_eq_or_of_and_eq_zero _ _ hand, bit, BitVec.getLsbD_or, BitVec.getLsbD_twoPow, bit]
    simp [h.symm]
  · rw [setBit_set hb]

/-! ## The records that a measurement writes (Tables 4.9, 4.10) -/

/-- The machine with these records. -/
def withRecords (c p : Tab Quad) (s : State) : State := { s with cal := { s.cal with ch := c, pair := p } }

/-- Where the records of a measurement stand: those of the channel's and of its pair's present range. -/
def chKey (s : State) (x : CalMeas) : Nat := 8 * x.ch + rangeNow s x.ch
def pairKey (s : State) (x : CalMeas) : Nat := 8 * (x.ch / 2) + rangeNow s x.ch

/-- What CAL.Z makes of a channel's record. -/
def zChRec (time : Word) (x : CalMeas) (q : Quad) : Quad :=
  ⟨intWord (satQ31 x.mean), q.w1, setFld (setFld q.w2 31 28 1) 15 0 (x.noise % 65536).toNat, time⟩

/-- What either measurement makes of a pair's record (D_OFFSET). -/
def dOffsetRec (x : CalMeas) (q : Quad) : Quad := { q with w0 := intWord (satQ31 x.dMean), w3 := setFld q.w3 31 28 1 }

/-- What CAL.F makes of a channel's record. -/
def fChRec (time : Word) (gain : Nat) (q : Quad) : Quad := ⟨q.w0, toWord gain, setFld q.w2 27 24 1, time⟩

/-- What CAL.F makes of a pair's record beside D_OFFSET (G_RATIO, SKEW). -/
def fPairRec (mode : Nat) (x : CalMeas) (q : Quad) : Quad := { q with
  w1 := toWord (calRatio x)
  w2 := if mode = 1 then setFld q.w2 23 0 (x.skewFs % 2 ^ 24).toNat else q.w2
  w3 := setFld q.w3 27 24 1 }

theorem zWrite_records (s : State) (c p : Tab Quad) (x : CalMeas) : zWrite (withRecords c p s) x =
    withRecords (tmod dChRec c (chKey s x) (zChRec (calTime s) x))
      (if paired s x.ch then tmod dPairRec p (pairKey s x) (dOffsetRec x) else p) s := by
  unfold zWrite writeDOffset
  change (if paired s x.ch = true then _ else _) = _
  split <;> rfl

theorem fWrite_records (s : State) (level : Int) (c p : Tab Quad) (x : CalMeas) : fWrite level (withRecords c p s) x =
    withRecords (tmod dChRec c (chKey s x) (fChRec (calTime s) (calGain s level x)))
      (if paired s x.ch then tmod dPairRec (tmod dPairRec p (pairKey s x) (dOffsetRec x)) (pairKey s x)
        (fPairRec ((active s).pairMode x.ch) x) else p) s := by
  unfold fWrite writeDOffset
  change (if paired s x.ch = true then onPairRec x.ch _ (if paired s x.ch = true then _ else _) else _) = _
  split <;> rfl

/-- The records after all measurements. -/
theorem foldl_records {s : State} {write : State → CalMeas → State} {h g : CalMeas → Tab Quad → Tab Quad}
    (hw : ∀ c p x, write (withRecords c p s) x = withRecords (h x c) (if paired s x.ch then g x p else p) s) (l : List CalMeas)
    (c p : Tab Quad) : l.foldl write (withRecords c p s) =
      withRecords (l.foldl (fun c x => h x c) c) ((l.filter (fun x => paired s x.ch)).foldl (fun p x => g x p) p) s := by
  induction l generalizing c p with
  | nil => rfl
  | cons x l ih =>
    rw [List.foldl_cons, hw, ih, List.foldl_cons, List.filter_cons]
    split <;> rfl

/-! ## The measurements of the named channels -/

theorem measOf_ch {l : List CalMeas} {ch : Nat} {x : CalMeas} (h : measOf l ch = some x) : x.ch = ch := by
  simpa using List.find?_some h

theorem measSums_ch (s : State) (x : CalMeas) : (measSums s x).ch = x.ch := by
  unfold measSums
  dsimp only
  split
  · rfl
  · split <;> rfl

theorem mapM_measOf_ch {meas : List CalMeas} {chs : List Nat} {l : List CalMeas} (h : chs.mapM (measOf meas) = some l) :
    l.map (·.ch) = chs := by
  induction chs generalizing l with
  | nil => simp at h; simp [h]
  | cons ch chs ih =>
    simp only [List.mapM_cons, Option.bind_eq_bind, Option.bind_eq_some_iff, Option.pure_def, Option.some.injEq] at h
    obtain ⟨x, hx, r, hr, rfl⟩ := h
    rw [List.map_cons, measOf_ch hx, ih hr]

/-- There is one measurement of each named channel. -/
theorem measures_ch {s : State} {m : Word} {meas l : List CalMeas} (h : measures s m meas = some l) : l.map (·.ch) = bitsOf m := by
  obtain ⟨r, hr, rfl⟩ := Option.map_eq_some_iff.1 h
  rw [List.map_map, ← mapM_measOf_ch hr]
  exact List.map_congr_left fun x _ => measSums_ch s x

theorem measures_distinct {s : State} {m : Word} {meas l : List CalMeas} (h : measures s m meas = some l) :
    l.Pairwise (fun x y => x.ch ≠ y.ch) := by
  have hn : (l.map (·.ch)).Nodup := by rw [measures_ch h]; exact List.nodup_range.filter _
  exact List.pairwise_map.1 hn

theorem rangeNow_lt (s : State) (ch : Nat) : rangeNow s ch < 8 := by
  unfold rangeNow rangeOf
  split <;> split_ifs <;> omega

theorem chKey_distinct {s : State} {x y : CalMeas} (h : x.ch ≠ y.ch) : chKey s x ≠ chKey s y := by
  have hx := rangeNow_lt s x.ch
  have hy := rangeNow_lt s y.ch
  unfold chKey
  omega

theorem pairKey_distinct {s : State} {x y : CalMeas} (hx : x.ch % 2 = 0) (hy : y.ch % 2 = 0) (h : x.ch ≠ y.ch) :
    pairKey s x ≠ pairKey s y := by
  have hx' := rangeNow_lt s x.ch
  have hy' := rangeNow_lt s y.ch
  unfold pairKey
  omega

/-! ## The ends of a measurement (Table 4.8) -/

section
variable {s : State} {l : List CalMeas} {bad : CalMeas → Bool} {level : CalMeas → Word} {write : State → CalMeas → State}

theorem calEnd_refused (h : s.deferred.marked = true ∨ ∃ x ∈ l, x.marked = true) : calEnd l bad level write s = finishJob .refused s :=
  if_pos (h.imp_right List.any_eq_true.2)

/-- No sample was marked. -/
theorem unmarked (hm : s.deferred.marked = false) (hl : ∀ x ∈ l, x.marked = false) :
    ¬ (s.deferred.marked = true ∨ l.any (·.marked) = true) := by
  rw [List.any_eq_true]
  rintro (h | ⟨x, hx, h⟩)
  · simp [hm] at h
  · simp [hl x hx] at h

theorem calEnd_range (hm : s.deferred.marked = false) (hl : ∀ x ∈ l, x.marked = false) (hb : ∃ x ∈ l, bad x = true) :
    calEnd l bad level write s =
      finishJob .range ((l.filter bad).foldl (fun s x => logFault 0x09 x.ch (toWord x.ch) (level x) s) s) := by
  have hr : (l.filter bad).isEmpty = false := by
    obtain ⟨x, hx, hbx⟩ := hb
    rw [List.isEmpty_eq_false_iff]
    exact List.ne_nil_of_mem (List.mem_filter.2 ⟨hx, hbx⟩)
  exact (if_neg (unmarked hm hl)).trans (if_pos hr)

/-- No measurement is out of its limits. -/
theorem none_bad (hb : ∀ x ∈ l, bad x = false) : ¬ (l.filter bad).isEmpty = false := by
  rw [List.filter_eq_nil_iff.2 fun x hx => by simp [hb x hx]]
  simp

theorem calEnd_fault (hm : s.deferred.marked = false) (hl : ∀ x ∈ l, x.marked = false ∧ bad x = false) (he : ∃ x ∈ l, x.memErr = true) :
    calEnd l bad level write s = finishJob .fault s :=
  (if_neg (unmarked hm fun x hx => (hl x hx).1)).trans
    ((if_neg (none_bad fun x hx => (hl x hx).2)).trans (if_pos (List.any_eq_true.2 he)))

theorem calEnd_ok (hm : s.deferred.marked = false) (hl : ∀ x ∈ l, x.marked = false ∧ x.memErr = false ∧ bad x = false) :
    calEnd l bad level write s = finishJob .ok (moveAll s (l.foldl write s)) := by
  have he : ¬ l.any (·.memErr) = true := by
    rw [List.any_eq_true]
    rintro ⟨x, hx, h⟩
    obtain ⟨-, hmem, -⟩ := hl x hx
    simp [hmem] at h
  exact (if_neg (unmarked hm fun x hx => (hl x hx).1)).trans ((if_neg (none_bad fun x hx => (hl x hx).2.2)).trans (if_neg he))

end

/-! ## Entries of the log -/

/-- Only the log and the interrupt flags differ. -/
def LogOnly (s t : State) : Prop := t = { s with flt := t.flt, irq := { s.irq with pend := t.irq.pend } }

theorem LogOnly.trans {s t u : State} (h : LogOnly s t) (h' : LogOnly t u) : LogOnly s u := by
  unfold LogOnly at *; rw [h', h]

theorem logFault_logOnly (c i : Nat) (d0 d1 : Word) (s : State) : LogOnly s (logFault c i d0 d1 s) := by
  rw [logFault_eq]; rfl

theorem logFault_raises (c i : Nat) (d0 d1 : Word) (s : State) : bit (logFault c i d0 d1 s).irq.pend irqFault = true := by
  rw [logFault_eq]; exact bit_setBit_true (by decide) _

section
variable (c : Nat) (site : CalMeas → Nat) (d0 d1 : CalMeas → Word) (l : List CalMeas) (s : State)

theorem logFaults_logOnly : LogOnly s (l.foldl (fun s x => logFault c (site x) (d0 x) (d1 x) s) s) :=
  foldl_related (R := LogOnly) (fun _ => rfl) (fun _ _ _ => LogOnly.trans) (fun _ _ => logFault_logOnly ..) l s

/-- One entry for each. -/
theorem logFaults_written : (l.foldl (fun s x => logFault c (site x) (d0 x) (d1 x) s) s).flt.written = s.flt.written + l.length := by
  induction l generalizing s with
  | nil => rfl
  | cons x l ih => rw [List.foldl_cons, ih, logFault_written, List.length_cons]; omega

theorem logFaults_raise (h : l ≠ []) : bit (l.foldl (fun s x => logFault c (site x) (d0 x) (d1 x) s) s).irq.pend irqFault = true := by
  obtain ⟨r, x, rfl⟩ := (List.eq_nil_or_concat l).resolve_left h
  rw [List.concat_eq_append, List.foldl_append]
  exact logFault_raises ..

end

/-! ## What each end leaves -/

/-- A measurement out of its limits: RANGE, and an entry for each. -/
theorem calEnd_range_leaves {s : State} {l : List CalMeas} {bad : CalMeas → Bool} {level : CalMeas → Word}
    {write : State → CalMeas → State} (hm : s.deferred.marked = false) (hl : ∀ x ∈ l, x.marked = false) (hb : ∃ x ∈ l, bad x = true) :
    ∃ t, calEnd l bad level write s = t ∧ t.deferred = { s.deferred with status := 6, job := none } ∧
      t.cal = s.cal ∧ t.flt.written = s.flt.written + (l.filter bad).length ∧ bit t.irq.pend irqFault = true ∧
      t = { s with deferred := t.deferred, flt := t.flt, irq := t.irq } := by
  have hne : l.filter bad ≠ [] := by
    obtain ⟨x, hx, hbx⟩ := hb
    exact List.ne_nil_of_mem (List.mem_filter.2 ⟨hx, hbx⟩)
  have ho := logFaults_logOnly 0x09 (·.ch) (fun x => toWord x.ch) level (l.filter bad) s
  have hw := logFaults_written 0x09 (·.ch) (fun x => toWord x.ch) level (l.filter bad) s
  have hi := logFaults_raise 0x09 (·.ch) (fun x => toWord x.ch) level (l.filter bad) s hne
  refine ⟨_, calEnd_range hm hl hb, ?_, ?_, hw, ?_, ?_⟩
  · rw [ho]; rfl
  · rw [ho]; rfl
  · exact (bit_setBit_other (by decide) _).trans hi
  · rw [ho]; rfl

/-- The machine after a good measurement that leaves these records: it is done, and the gains are on their way to them. -/
def recorded (c p : Tab Quad) (s : State) : State := finishJob .ok (moveAll s (withRecords c p s))

theorem recorded_eq (c p : Tab Quad) (s : State) : ∃ f, recorded c p s = { s with
    deferred := { s.deferred with status := 0, job := none }, irq := { s.irq with pend := setBit s.irq.pend irqCmdDone true }
    fe := f, cal := { s.cal with ch := c, pair := p } } :=
  ⟨_, congrArg (finishJob .ok) (moveAll_chansOnly s (withRecords c p s))⟩

section
variable {s : State} {l : List CalMeas} {h : CalMeas → Tab Quad → Tab Quad} {f : CalMeas → Quad → Quad}

theorem channels_updated (hu : ∀ x, Updates dChRec (h x) (chKey s x) (f x)) (hd : l.Pairwise (fun x y => x.ch ≠ y.ch)) (c : Tab Quad) :
    (∀ x ∈ l, tget dChRec (l.foldl (fun c x => h x c) c) (8 * x.ch + rangeNow s x.ch) =
      f x (tget dChRec c (8 * x.ch + rangeNow s x.ch))) ∧
    ∀ k, (∀ x ∈ l, k ≠ 8 * x.ch + rangeNow s x.ch) → tget dChRec (l.foldl (fun c x => h x c) c) k = tget dChRec c k :=
  tget_foldl_updates hu (hd.imp chKey_distinct) c

theorem mem_paired {x : CalMeas} : x ∈ l.filter (fun x => paired s x.ch) ↔ x ∈ l ∧ (active s).pairMode x.ch ≠ 0 := by
  simp [paired]

theorem pairs_updated (hu : ∀ x, Updates dPairRec (h x) (pairKey s x) (f x)) (hd : l.Pairwise (fun x y => x.ch ≠ y.ch))
    (he : ∀ x ∈ l, (active s).pairMode x.ch ≠ 0 → x.ch % 2 = 0) (p : Tab Quad) :
    (∀ x ∈ l, (active s).pairMode x.ch ≠ 0 → ∀ k, k = 8 * (x.ch / 2) + rangeNow s x.ch →
      tget dPairRec ((l.filter (fun x => paired s x.ch)).foldl (fun p x => h x p) p) k = f x (tget dPairRec p k)) ∧
    ∀ k, (∀ x ∈ l, (active s).pairMode x.ch ≠ 0 → k ≠ 8 * (x.ch / 2) + rangeNow s x.ch) →
      tget dPairRec ((l.filter (fun x => paired s x.ch)).foldl (fun p x => h x p) p) k = tget dPairRec p k := by
  have hk : (l.filter (fun x => paired s x.ch)).Pairwise (fun x y => pairKey s x ≠ pairKey s y) := by
    refine (hd.filter _).imp_of_mem fun hx hy hne => ?_
    obtain ⟨hx, hpx⟩ := mem_paired.1 hx
    obtain ⟨hy, hpy⟩ := mem_paired.1 hy
    exact pairKey_distinct (he _ hx hpx) (he _ hy hpy) hne
  obtain ⟨hin, hout⟩ := tget_foldl_updates hu hk p
  refine ⟨fun x hx hp k hkey => ?_, fun k hn => hout k fun x hx => hn x (mem_paired.1 hx).1 (mem_paired.1 hx).2⟩
  subst hkey
  exact hin x (mem_paired.2 ⟨hx, hp⟩)

end

/-! ## CAL_Z_COMPLETE and CAL_F_COMPLETE (R146–R148) -/

/-- MN is taken anew where a CAL.Z has ended with OK (Table 13.7). -/
def noteMargin (s : State) : State :=
  if s.deferred.status = 0 ∧ s.sec.otp.factorySet then { s with margin := { s.margin with mn := noiseMargin s } } else s

theorem noteMargin_notOk {s : State} (h : s.deferred.status ≠ 0) : noteMargin s = s := if_neg fun hc => h hc.1

theorem noteMargin_mn (s : State) : ∃ n, noteMargin s = { s with margin := { s.margin with mn := n } } := by
  by_cases h : s.deferred.status = 0 ∧ s.sec.otp.factorySet
  · exact ⟨_, if_pos h⟩
  · exact ⟨_, if_neg h⟩

section
variable {s : State} {m : Word} {meas l : List CalMeas}

theorem measured_of {t : Nat} (hk : calMask s = m) (hm : m &&& ~~~s.deferred.meas = 0) (ht : t ≤ since s s.deferred.since) :
    measured s t = true := by
  simp [measured, hk, hm, ht]

theorem calZComplete_ends (hj : s.deferred.job = some (.calZ m)) (hl : measures s m meas = some l)
    (hm : m &&& ~~~s.deferred.meas = 0) (ht : 500000000 ≤ since s s.deferred.since) :
    calZComplete meas s = noteMargin (calEnd l (zRange s) (fun x => intWord (satQ31 x.mean)) zWrite s) := by
  have hd : measured s (500 * msec) = true := measured_of (by simp only [calMask, hj]) hm ht
  simp only [calZComplete, hj, hd, hl, if_true]
  rfl

theorem calFComplete_ends {level : Int} (hj : s.deferred.job = some (.calF m level)) (hl : measures s m meas = some l)
    (hm : m &&& ~~~s.deferred.meas = 0)
    (ht : (if (bitsOf m).any (fun ch => (active s).pairMode ch == 1) then 1500000000 else 250000000) ≤ since s s.deferred.since) :
    calFComplete meas s = calEnd l (fRange s level) (fun x => toWord x.rms) (fWrite level) s := by
  have hd : measured s (calFLength s m) = true := measured_of (by simp only [calMask, hj]) hm ht
  simp only [calFComplete, hj, hd, hl, if_true]

end

end Sys2Proof.Machine
end

section
/-! PROOF. The statement on calibration measurements (O46): acceptance, and each end. -/

namespace Sys2Proof.Machine

/-! ## Acceptance (Table 4.11) -/

section
variable {a : CmdArgs} {s : State}

theorem calStart_accepted {op : Nat} {m : Word} {j : Job} (h : notRunning s m = 0) : calStart op m j s = yes (startJob op j s) :=
  if_neg (not_not.2 h)

theorem calStart_refused {op : Nat} {m : Word} {j : Job} (h : notRunning s m ≠ 0) :
    calStart op m j s = ⟨.refused, s, [notRunning s m]⟩ := if_pos h

theorem bodyCalZ_checked (hb : maskBad s (opnd a 0) = false) (hc : calBusy s = false) :
    bodyCalZ a s = calStart 0x25 (opnd a 0) (.calZ (opnd a 0)) s := checks_pass (by simp [hb, hc])

theorem calZ_accepted (h : Admitted rowCalZ a s) (hb : maskBad s (opnd a 0) = false) (hc : calBusy s = false)
    (hn : notRunning s (opnd a 0) = 0) : exec (.calZ a) s = .next (answered 0x25 .ok [] { s with
      deferred := { opcode := 0x25, job := some (.calZ (opnd a 0)), since := now s } }) :=
  (execRow_body h rfl ((bodyCalZ_checked (s := fresh s) hb hc).trans (calStart_accepted (s := fresh s) hn)) (by simp [rowCalZ]) (by simp)
    rfl rfl).trans rfl

theorem calZ_refused (h : Admitted rowCalZ a s) (hb : maskBad s (opnd a 0) = false) (hc : calBusy s = false)
    (hn : notRunning s (opnd a 0) ≠ 0) : exec (.calZ a) s = .next (answered 0x25 .refused [notRunning s (opnd a 0)] s) :=
  (execRow_body h rfl ((bodyCalZ_checked (s := fresh s) hb hc).trans (calStart_refused (s := fresh s) hn)) (by simp [rowCalZ]) (by simp)
    rfl rfl).trans rfl

/-- The level lies in the range of every named channel. -/
def LevelFits (a : CmdArgs) (s : State) : Prop :=
  ∀ ch ∈ bitsOf (opnd a 0), fullLevel s ch - 2000 ≤ sfld (opnd a 1) 15 0 ∧ sfld (opnd a 1) 15 0 ≤ fullLevel s ch - 100

theorem bodyCalF_checked (hr : resv (opnd a 1) 0xFFFF = false) (hb : maskBad s (opnd a 0) = false) (hl : LevelFits a s)
    (hc : calBusy s = false) : bodyCalF a s = calStart 0x26 (opnd a 0) (.calF (opnd a 0) (sfld (opnd a 1) 15 0)) s := by
  have hany : (bitsOf (opnd a 0)).any (fun ch => decide (sfld (opnd a 1) 15 0 < fullLevel s ch - 2000) ||
      decide (fullLevel s ch - 100 < sfld (opnd a 1) 15 0)) = false := by
    rw [List.any_eq_false]
    intro ch hm
    obtain ⟨h1, h2⟩ := hl ch hm
    simp [h1, h2]
  simp only [bodyCalF, hr, hb, hc, hany, Bool.or_false, checks_false, checks_nil]

theorem calF_accepted (h : Admitted rowCalF a s) (hr : resv (opnd a 1) 0xFFFF = false) (hb : maskBad s (opnd a 0) = false)
    (hl : LevelFits a s) (hc : calBusy s = false) (hn : notRunning s (opnd a 0) = 0) :
    exec (.calF a) s = .next (answered 0x26 .ok [] { s with
      deferred := { opcode := 0x26, job := some (.calF (opnd a 0) (sfld (opnd a 1) 15 0)), since := now s } }) :=
  (execRow_body h rfl ((bodyCalF_checked (s := fresh s) hr hb hl hc).trans (calStart_accepted (s := fresh s) hn)) (by simp [rowCalF])
    (by simp) rfl rfl).trans rfl

theorem calF_refused (h : Admitted rowCalF a s) (hr : resv (opnd a 1) 0xFFFF = false) (hb : maskBad s (opnd a 0) = false)
    (hl : LevelFits a s) (hc : calBusy s = false) (hn : notRunning s (opnd a 0) ≠ 0) :
    exec (.calF a) s = .next (answered 0x26 .refused [notRunning s (opnd a 0)] s) :=
  (execRow_body h rfl ((bodyCalF_checked (s := fresh s) hr hb hl hc).trans (calStart_refused (s := fresh s) hn)) (by simp [rowCalF])
    (by simp) rfl rfl).trans rfl

end

/-! ## Good measurements (Tables 4.9, 4.10) -/

/-- The tables after CAL.Z's measurements `l`. -/
def zChannels (s : State) (l : List CalMeas) : Tab Quad :=
  l.foldl (fun c x => tmod dChRec c (chKey s x) (zChRec (calTime s) x)) s.cal.ch
def zPairs (s : State) (l : List CalMeas) : Tab Quad :=
  (l.filter (fun x => paired s x.ch)).foldl (fun p x => tmod dPairRec p (pairKey s x) (dOffsetRec x)) s.cal.pair

/-- The tables after CAL.F's. -/
def fChannels (s : State) (level : Int) (l : List CalMeas) : Tab Quad :=
  l.foldl (fun c x => tmod dChRec c (chKey s x) (fChRec (calTime s) (calGain s level x))) s.cal.ch
def fPairs (s : State) (l : List CalMeas) : Tab Quad :=
  (l.filter (fun x => paired s x.ch)).foldl (fun p x => tmod dPairRec (tmod dPairRec p (pairKey s x) (dOffsetRec x)) (pairKey s x)
    (fPairRec ((active s).pairMode x.ch) x)) s.cal.pair

theorem foldl_zWrite (s : State) (l : List CalMeas) : l.foldl zWrite s = withRecords (zChannels s l) (zPairs s l) s :=
  foldl_records (s := s) (write := zWrite) (h := fun x c => tmod dChRec c (chKey s x) (zChRec (calTime s) x))
    (g := fun x p => tmod dPairRec p (pairKey s x) (dOffsetRec x)) (zWrite_records s) l s.cal.ch s.cal.pair

theorem foldl_fWrite (s : State) (level : Int) (l : List CalMeas) :
    l.foldl (fWrite level) s = withRecords (fChannels s level l) (fPairs s l) s :=
  foldl_records (s := s) (write := fWrite level) (h := fun x c => tmod dChRec c (chKey s x) (fChRec (calTime s) (calGain s level x)))
    (g := fun x p => tmod dPairRec (tmod dPairRec p (pairKey s x) (dOffsetRec x)) (pairKey s x) (fPairRec ((active s).pairMode x.ch) x))
    (fWrite_records s level) l s.cal.ch s.cal.pair

section
variable {s : State} {m : Word} {level : Int} {meas l : List CalMeas}

theorem calZComplete_good (hj : s.deferred.job = some (.calZ m)) (hl : measures s m meas = some l)
    (hm : m &&& ~~~s.deferred.meas = 0) (ht : 500000000 ≤ since s s.deferred.since) (hk : s.deferred.marked = false)
    (hx : ∀ x ∈ l, x.marked = false ∧ x.memErr = false ∧ zRange s x = false) :
    ∃ t, exec (.calZComplete meas) s = .next t ∧ CalDone s t ∧ t.cal = { s.cal with ch := zChannels s l, pair := zPairs s l } := by
  have he := calEnd_ok (level := fun x => intWord (satQ31 x.mean)) (write := zWrite) hk hx
  rw [foldl_zWrite] at he
  obtain ⟨n, hn⟩ := noteMargin_mn (recorded (zChannels s l) (zPairs s l) s)
  have hd := (calZComplete_ends hj hl hm ht).trans ((congrArg noteMargin he).trans hn)
  obtain ⟨f, hf⟩ := recorded_eq (zChannels s l) (zPairs s l) s
  rw [hf] at hd
  exact ⟨_, (congrArg (ev s) hd).trans (ev_of_kept rfl rfl), ⟨rfl, bit_setBit_true (by decide) s.irq.pend, rfl⟩, rfl⟩

theorem calFComplete_good (hj : s.deferred.job = some (.calF m level)) (hl : measures s m meas = some l)
    (hm : m &&& ~~~s.deferred.meas = 0)
    (ht : (if (bitsOf m).any (fun ch => (active s).pairMode ch == 1) then 1500000000 else 250000000) ≤ since s s.deferred.since)
    (hk : s.deferred.marked = false) (hx : ∀ x ∈ l, x.marked = false ∧ x.memErr = false ∧ fRange s level x = false) :
    ∃ t, exec (.calFComplete meas) s = .next t ∧ CalDone s t ∧ t.margin = s.margin ∧
      t.cal = { s.cal with ch := fChannels s level l, pair := fPairs s l } := by
  have he := calEnd_ok (level := fun x => toWord x.rms) (write := fWrite level) hk hx
  rw [foldl_fWrite] at he
  obtain ⟨f, hf⟩ := recorded_eq (fChannels s level l) (fPairs s l) s
  exact ⟨_, (congrArg (ev s) ((calFComplete_ends hj hl hm ht).trans (he.trans hf))).trans (ev_of_kept rfl rfl),
    ⟨rfl, bit_setBit_true (by decide) s.irq.pend, rfl⟩, rfl, rfl⟩

/-! ## Measurements that end otherwise (Table 4.8) -/

theorem calZComplete_marked (hj : s.deferred.job = some (.calZ m)) (hl : measures s m meas = some l)
    (hm : m &&& ~~~s.deferred.meas = 0) (ht : 500000000 ≤ since s s.deferred.since)
    (hk : s.deferred.marked = true ∨ ∃ x ∈ l, x.marked = true) : exec (.calZComplete meas) s = .next (finishJob .refused s) := by
  have hd := calZComplete_ends hj hl hm ht
  rw [calEnd_refused hk, noteMargin_notOk (by simp [finishJob, raiseIrq, Status.code])] at hd
  exact (congrArg (ev s) hd).trans (ev_of_kept rfl rfl)

theorem calZComplete_range (hj : s.deferred.job = some (.calZ m)) (hl : measures s m meas = some l)
    (hm : m &&& ~~~s.deferred.meas = 0) (ht : 500000000 ≤ since s s.deferred.since) (hk : s.deferred.marked = false)
    (hx : ∀ x ∈ l, x.marked = false) (hb : ∃ x ∈ l, zRange s x = true) :
    ∃ t, exec (.calZComplete meas) s = .next t ∧ t.deferred = { s.deferred with status := 6, job := none } ∧
      t.cal = s.cal ∧ t.flt.written = s.flt.written + (l.filter (zRange s)).length ∧ bit t.irq.pend irqFault = true ∧
      t = { s with deferred := t.deferred, flt := t.flt, irq := t.irq } := by
  have hd := calZComplete_ends hj hl hm ht
  obtain ⟨t, he, hdef, hcal, hw, hi, hf⟩ :=
    calEnd_range_leaves (level := fun x => intWord (satQ31 x.mean)) (write := zWrite) hk hx hb
  rw [he, noteMargin_notOk (by simp [hdef])] at hd
  exact ⟨t, (congrArg (ev s) hd).trans (ev_of_kept (by rw [hf]) (by rw [hf])), hdef, hcal, hw, hi, hf⟩

theorem calZComplete_memErr (hj : s.deferred.job = some (.calZ m)) (hl : measures s m meas = some l)
    (hm : m &&& ~~~s.deferred.meas = 0) (ht : 500000000 ≤ since s s.deferred.since) (hk : s.deferred.marked = false)
    (hx : ∀ x ∈ l, x.marked = false ∧ zRange s x = false) (he : ∃ x ∈ l, x.memErr = true) :
    exec (.calZComplete meas) s = .next (finishJob .fault s) := by
  have hd := calZComplete_ends hj hl hm ht
  rw [calEnd_fault hk hx he, noteMargin_notOk (by simp [finishJob, raiseIrq, Status.code])] at hd
  exact (congrArg (ev s) hd).trans (ev_of_kept rfl rfl)

theorem calFComplete_range (hj : s.deferred.job = some (.calF m level)) (hl : measures s m meas = some l)
    (hm : m &&& ~~~s.deferred.meas = 0)
    (ht : (if (bitsOf m).any (fun ch => (active s).pairMode ch == 1) then 1500000000 else 250000000) ≤ since s s.deferred.since)
    (hk : s.deferred.marked = false) (hx : ∀ x ∈ l, x.marked = false) (hb : ∃ x ∈ l, fRange s level x = true) :
    ∃ t, exec (.calFComplete meas) s = .next t ∧ t.deferred = { s.deferred with status := 6, job := none } ∧
      t.cal = s.cal ∧ t.flt.written = s.flt.written + (l.filter (fRange s level)).length ∧ bit t.irq.pend irqFault = true ∧
      t = { s with deferred := t.deferred, flt := t.flt, irq := t.irq } := by
  obtain ⟨t, he, hdef, hcal, hw, hi, hf⟩ := calEnd_range_leaves (level := fun x => toWord x.rms) (write := fWrite level) hk hx hb
  exact ⟨t, (congrArg (ev s) ((calFComplete_ends hj hl hm ht).trans he)).trans (ev_of_kept (by rw [hf]) (by rw [hf])),
    hdef, hcal, hw, hi, hf⟩

end

/-! ## Limits (Table 4.8) -/

theorem zRange_eq (s : State) (x : CalMeas) : zRange s x = (decide (0x0147AE14 < x.mean.natAbs) ||
    ((active s).pairMode x.ch != 0 && decide (0x0147AE14 < x.dMean.natAbs)) || decide (-9000 < x.noise)) := rfl

theorem fRange_eq (s : State) (level : Int) (x : CalMeas) :
    fRange s level x = (decide (x.freqMilliHz < 990000) || decide (1010000 < x.freqMilliHz) || x.rms == 0 ||
      decide (calGain s level x < gainOf 30 (-100)) || decide (gainOf 30 100 < calGain s level x) ||
      ((active s).pairMode x.ch != 0 && (x.rmsOdd == 0 || decide (calRatio x < gainOf 30 (-100)) ||
        decide (gainOf 30 100 < calRatio x))) ||
      ((active s).pairMode x.ch == 1 && decide (2000000 < x.skewFs.natAbs))) := by
  simp only [fRange, gainOut, paired, Bool.or_assoc]

/-- Settles O46: acceptance, good measurements by the tables of records they write, the other ends by Table 4.8's order. -/
theorem calibrationMeasurements : Obligations.CalibrationMeasurements := by
  unfold Obligations.CalibrationMeasurements
  refine ⟨fun a s h hb hc => ⟨calZ_accepted h hb hc, calZ_refused h hb hc⟩, fun a s h hr hb hl hc hn => calF_accepted h hr hb hl hc hn,
    fun a s h hr hb hl hc hn => calF_refused h hr hb hl hc hn, fun s m meas l hj hl hm ht hk hx => ?_,
    fun s m level meas l hj hl hm ht hk hx => ?_, fun s m meas l hj hl hm ht => ⟨calZComplete_marked hj hl hm ht,
      calZComplete_range hj hl hm ht, calZComplete_memErr hj hl hm ht⟩, fun s m level meas l hj hl hm ht => ⟨fun hk => ?_,
      calFComplete_range hj hl hm ht, fun hk hx he => ?_⟩, fun s level x => ⟨zRange_eq s x, fRange_eq s level x⟩⟩
  · obtain ⟨t, he, hdone, hcal⟩ := calZComplete_good hj hl hm ht hk hx
    have hd := measures_distinct hl
    obtain ⟨hin, hout⟩ := channels_updated (fun x => updates_tmod dChRec (chKey s x) (zChRec (calTime s) x)) hd s.cal.ch
    refine ⟨t, he, hdone, ?_⟩
    rw [hcal]
    exact ⟨hin, hout, fun hpair => pairs_updated (fun x => updates_tmod dPairRec (pairKey s x) (dOffsetRec x)) hd hpair s.cal.pair⟩
  · obtain ⟨t, he, hdone, hmargin, hcal⟩ := calFComplete_good hj hl hm ht hk hx
    have hd := measures_distinct hl
    obtain ⟨hin, hout⟩ := channels_updated
      (fun x => updates_tmod dChRec (chKey s x) (fChRec (calTime s) (calGain s level x))) hd s.cal.ch
    refine ⟨t, he, hdone, hmargin, ?_⟩
    rw [hcal]
    refine ⟨hin, hout, fun hnone => ?_, fun hpair => pairs_updated (fun x => (updates_tmod dPairRec (pairKey s x) (dOffsetRec x)).comp
      (updates_tmod dPairRec (pairKey s x) (fPairRec ((active s).pairMode x.ch) x))) hd hpair s.cal.pair⟩
    have hempty : l.filter (fun x => paired s x.ch) = [] := List.filter_eq_nil_iff.2 fun x hx => by simp [paired, hnone x hx]
    change fPairs s l = s.cal.pair
    rw [fPairs, hempty]
    rfl
  · exact (congrArg (ev s) ((calFComplete_ends hj hl hm ht).trans (calEnd_refused hk))).trans (ev_of_kept rfl rfl)
  · exact (congrArg (ev s) ((calFComplete_ends hj hl hm ht).trans (calEnd_fault hk hx he))).trans (ev_of_kept rfl rfl)

end Sys2Proof.Machine
end

section
/-! SUPPORT. Commands of SEC and of the records: the operand that a row's form fixes, the checks a command's own part rests on, a
programming of OTP, and tables built record by record. -/

namespace Sys2Proof.Machine

/-! ## Rows -/

/-- A direct row that answers OK: its results fit where the largest number that its operands allow does (R56). -/
theorem execRow_yes {r : CmdRow} {a : CmdArgs} {s t : State} {res : List Word} (h : Admitted r a s) (hf : r.fuse = false)
    (hb : r.body a (fresh s) = yes t res) (hmax : r.maxRes a (fresh s) ≤ 1023) (hp : t.pending = s.pending)
    (ho : t.sec.otp = s.sec.otp) : execRow r a s = .next (answered r.op .ok res t) := by
  have hfit : fits r a (fresh s) (r.body a (fresh s)) = true := by
    rw [hb]
    refine decide_eq_true ?_
    change 0 + 1 + (if Status.ok = .ok then _ else _) ≤ 1024
    rw [if_pos rfl]
    omega
  have hs : settle s t = t := by unfold settle; rw [← hp, ← ho]
  rw [execRow_admitted h hf hfit, hb]
  exact congrArg (fun u => Host.Outcome.next (answered r.op .ok res u)) hs

/-- A row that programs OTP and whose own part is known. -/
theorem execRow_fuse {r : CmdRow} {a : CmdArgs} {s t : State} {st : Status} (h : Admitted r a s) (hf : r.fuse = true)
    (hb : r.body a (fresh s) = ⟨st, t, []⟩) (hmax : r.maxRes a (fresh s) ≤ 1023) (hp : t.pending = s.pending) :
    execRow r a s = .next (answered r.op st [] t) := by
  rw [execRow_admitted_fuse h hf (fits_fresh r a s _ (fun _ => hmax) (by simp [hb])), hb]
  have ht : { t with pending := s.pending } = t := by rw [← hp]
  exact congrArg (fun u => Host.Outcome.next (answered r.op st [] u)) ht

theorem admitted_count {r : CmdRow} {a : CmdArgs} {s : State} (h : Admitted r a s) : r.count a = true := by
  simpa using h.2 (!r.count a, .range) (by simp [commonChecks])

/-- A field that the row's form fixes is the operand, where the other bits are reserved. -/
theorem opnd_withField {a : CmdArgs} {n v : Nat} {m : Word} (hn : n < 32) (hv : v < 2 ^ (n + 1)) (hm : m.toNat = 2 ^ (n + 1) - 1)
    (ho : (withField a n 0 v).ops ≠ []) (hr : resv (opnd (withField a n 0 v) 0) m = false) :
    (opnd (withField a n 0 v) 0).toNat = v := by
  rw [← fld_eq_toNat hm hr]
  cases hops : a.ops with
  | nil => simp [withField, hops] at ho
  | cons w ws =>
    have hw : opnd (withField a n 0 v) 0 = setFld w n 0 v := by simp [withField, hops, opnd]
    rw [hw, fld_setFld_low hn, Nat.mod_eq_of_lt hv]

theorem withField_drop (a : CmdArgs) (hi lo v : Nat) : (withField a hi lo v).ops.drop 1 = a.ops.drop 1 := by
  unfold withField
  cases a.ops <;> rfl

/-- An operand of at most 15 has no bit above its low four. -/
theorem resv_low {w : Word} (h : w.toNat ≤ 15) : resv w 0xF = false := by
  have hall : ∀ n ≤ 15, resv (BitVec.ofNat 32 n) 0xF = false := by decide
  simpa using hall w.toNat h

/-- Whether SEC's beat fails does not depend on the response built so far. -/
theorem beatUpset_fresh {m : Nat} {s : State} (h : beatUpset m s = none) : beatUpset m (fresh s) = none := by
  have hu : ∀ u, upset (fresh s) u = upset s u := fun _ => rfl
  unfold beatUpset at h ⊢
  rw [hu, hu]
  split at h
  · cases h
  · next h1 =>
    split at h
    · cases h
    · next h2 => rw [if_neg h1, if_neg h2]

/-- A command of RET whose words decode answers for itself. -/
theorem retOk_clean {s : State} {want : Nat → Bool} (h : ∀ a ∈ s.mem.bad, want (Config.retItem (a - aRet)) = false) (k : Ans) :
    retOk s want k = k := by
  have hn : s.mem.bad.find? (fun a => decide (aRet ≤ a) && want (Config.retItem (a - aRet))) = none := by
    rw [List.find?_eq_none]
    intro a ha
    simp [h a ha]
  unfold retOk
  split
  · rfl
  · rw [hn]

/-! ## OTP and the DRBG (R398, R406) -/

/-- What a programming whose read-back fails leaves of OTP: as it was, or the item of `n` free words. -/
def otpFailed (n : Nat) (u : List Word → Otp → Otp) (s : State) : State :=
  let b := drawIn 0 1 s
  let v := drawWords n b.2
  if b.1 = 1 then { v.2 with sec := { v.2.sec with otp := u v.1 v.2.sec.otp } } else v.2

theorem otpCommit_eq (item index n : Nat) (f : Otp → Otp) (u : List Word → Otp → Otp) (res : Otp → List Word) (s : State) :
    otpCommit item index n f u res s = if (drawIn 0 1 s).1 = 1 then
        yes { s with free := s.free + 1, sec := { s.sec with otp := f s.sec.otp } } (res (f s.sec.otp))
      else no .fault (logFault 0x0D (4 + otpOffset item index) 2 (toWord (otpOffset item index))
        (otpFailed n u { s with free := s.free + 1 })) := rfl

theorem otpFailed_frame (n : Nat) (u : List Word → Otp → Otp) (s : State) :
    otpFailed n u s = { s with free := (otpFailed n u s).free, sec := (otpFailed n u s).sec } ∧
    ((otpFailed n u s).sec = s.sec ∨ ∃ v, (otpFailed n u s).sec = { s.sec with otp := u v s.sec.otp }) := by
  have hv := drawWords_free n (drawIn 0 1 s).2
  unfold otpFailed
  dsimp only
  split
  · rw [hv]; exact ⟨rfl, .inr ⟨_, rfl⟩⟩
  · rw [hv]; exact ⟨rfl, .inl rfl⟩

/-- OTP is programmed, or the read-back fails (log entries 2, 155). -/
theorem otpCommit_cases (item index n : Nat) (f : Otp → Otp) (u : List Word → Otp → Otp) (res : Otp → List Word) (s : State) :
    (∃ k, otpCommit item index n f u res s =
      yes { s with free := k, sec := { s.sec with otp := f s.sec.otp } } (res (f s.sec.otp))) ∨
    (∃ t, otpCommit item index n f u res s = no .fault t ∧ (t.sec = s.sec ∨ ∃ v, t.sec = { s.sec with otp := u v s.sec.otp }) ∧
      t.flt.written = s.flt.written + 1 ∧ bit t.irq.pend irqFault = true ∧
      t = { s with free := t.free, sec := t.sec, flt := t.flt, irq := { s.irq with pend := t.irq.pend } }) := by
  rw [otpCommit_eq]
  by_cases hok : (drawIn 0 1 s).1 = 1
  · exact .inl ⟨_, if_pos hok⟩
  · obtain ⟨hf, hsec⟩ := otpFailed_frame n u { s with free := s.free + 1 }
    refine .inr ⟨_, if_neg hok, by rw [logFault_sec]; exact hsec, ?_, logFault_raises .., ?_⟩
    · rw [logFault_written, hf]
    · rw [logFault_logOnly, hf]

theorem attestSign_frame (m : List Byte) (s : State) :
    ∃ sig k d, attestSign m s = (sig, { s with free := k, sec := { s.sec with drbg := d } }) := by
  have hf := drbgWords_frame 12 s
  rcases h : drbgWords 12 s with ⟨ws, t⟩
  rw [h] at hf
  simp only [attestSign, drawScalar, h]
  exact ⟨_, _, _, congrArg (Prod.mk _) hf⟩

/-! ## Tables of records (Table 4.12) -/

/-- A table of records from the words of each. -/
theorem tget_recordTab (d : Quad) (n : Nat) (g : Nat → Quad) (k : Nat) :
    tget d (recordTab d n (fun k => (g k).words)) k = if k < n then g k else d := by
  unfold recordTab
  induction n with
  | zero => rfl
  | succ n ih =>
    rw [List.range_succ, List.foldl_append, List.foldl_cons, List.foldl_nil]
    change tget d (tput d _ n (g n)) k = _
    rw [tget_tput, ih]
    by_cases hk : k = n
    · rw [if_pos hk, if_pos (by omega), hk]
    · have hlt : k < n + 1 ↔ k < n := by omega
      simp only [if_neg hk, hlt]

/-- What holds of the default and of every entry holds of what is read. -/
theorem tget_forall {α : Type} {P : α → Prop} {d : α} {t : List (Nat × α)} (hd : P d) (ht : ∀ e ∈ t, P e.2) (k : Nat) : P (tget d t k) := by
  induction t with
  | nil => exact hd
  | cons e t ih =>
    simp only [tget]
    split
    · exact ht e (List.mem_cons_self ..)
    · split
      · exact hd
      · exact ih fun e he => ht e (List.mem_cons_of_mem _ he)

theorem tget_tmap {α : Type} [DecidableEq α] {P : α → Prop} {d : α} {f : α → α} (hd : P d) (hf : ∀ v, P (f v)) (t : List (Nat × α)) (k : Nat) :
    P (tget d (tmap d f t) k) := by
  refine tget_forall hd (fun e he => ?_) k
  obtain ⟨x, -, rfl⟩ := List.mem_map.1 (List.mem_of_mem_filter he)
  exact hf x.2

end Sys2Proof.Machine
end

section
/-! PROOF. The statement on calibration records (O47): exports, imports and the factory copy. -/

namespace Sys2Proof.Machine

/-- Moves of the corrections change the front end alone (R152). -/
theorem moveAll_fe (before s : State) : ∃ f, moveAll before s = { s with fe := f } := ⟨_, moveAll_chansOnly before s⟩

section
variable {a : CmdArgs} {s : State}

/-! ## CAL.EXPORT (R159) -/

theorem partWords_le (n : Nat) : (partWords n).getD 0 ≤ 512 := by
  unfold partWords
  split_ifs <;> decide

/-- PART 0 leaves the snapshot with its signed header, counts itself, and draws from the DRBG. -/
theorem takeSnapshot_eq (s : State) : ∃ sig f d, takeSnapshot s = { s with
    free := f, sec := { s.sec with drbg := d }
    cal := { s.cal with exports := s.cal.exports + 1, snapshot := some ⟨s.cal.ch, s.cal.pair,
      exportHead (s.cal.exports + 1) s.cal.ch s.cal.pair ++ sig ++ [0, 0, 0, 0]⟩ } } := by
  obtain ⟨sig, f, d, h⟩ := attestSign_frame (wordsBytes (exportHead (s.cal.exports + 1) s.cal.ch s.cal.pair)) s
  refine ⟨sig, f, d, ?_⟩
  simp only [takeSnapshot, h]

theorem exportHead_take (n : Nat) (ch pair : Tab Quad) (rest : List Word) :
    (exportHead n ch pair ++ rest).take 4 = [0x5043414C, 1, toWord n, 0x000000A1] := by
  rw [exportHead, List.append_assoc]
  rfl

/-- The words of a snapshot's part. -/
def Snapshot.part (k : Snapshot) (n : Nat) : List Word := if n = 9 then k.header else partOf k.ch k.pair n

theorem bodyCalExport_first (hw : opnd a 0 = 0) (hk : s.sec.otp.lifecycle ≠ .rma) (hd : s.sec.drbgFail = false) {t : State}
    {k : Snapshot} (ht : takeSnapshot s = t) (hs : t.cal.snapshot = some k) : bodyCalExport a s = yes t (partOf k.ch k.pair 0) := by
  have hkeys : keysOn s = true := by simp [keysOn, hk]
  have hr : resv 0 0xF = false := by decide
  have hn : (0 : Word).toNat = 0 := rfl
  simp only [bodyCalExport, hw, hn, hr, hkeys, hd, ht]
  change (match t.cal.snapshot with | some k => yes t (partOf k.ch k.pair 0) | none => yes t) = _
  rw [hs]

theorem bodyCalExport_next (h0 : opnd a 0 ≠ 0) (h9 : (opnd a 0).toNat ≤ 9) {k : Snapshot} (hs : s.cal.snapshot = some k) :
    bodyCalExport a s = yes s (k.part (opnd a 0).toNat) := by
  have hn : (opnd a 0).toNat ≠ 0 := fun hc => h0 (BitVec.eq_of_toNat_eq hc)
  have hr : resv (opnd a 0) 0xF = false := resv_low (by omega)
  have h10 : decide (9 < (opnd a 0).toNat) = false := decide_eq_false (Nat.not_lt.2 h9)
  have hb : ((opnd a 0).toNat == 0) = false := beq_false_of_ne hn
  simp only [bodyCalExport, hr, h10, hb, hs, if_neg hn, Option.isNone_some, Bool.false_and, Bool.and_false, checks_false, checks_nil]
  rfl

theorem rowCalExport_body (hb : beatUpset 7 s = none)
    (hret : opnd a 0 ≠ 0 ∨ s.mem.bad = []) : rowCalExport.body a s = bodyCalExport a s := by
  have hk := retOk_clean (s := s) (want := fun k => opnd a 0 == 0 && decide (k < 1537)) ?_ (secAns (bodyCalExport a s) s)
  · exact hk.trans (secAns_clean hb _)
  · intro x hx
    rcases hret with h | h
    · rw [beq_false_of_ne h]; rfl
    · rw [h] at hx; cases hx

theorem calExport_first (h : Admitted rowCalExport (withField a 3 0 0) s) (hr : resv (opnd (withField a 3 0 0) 0) 0xF = false)
    (hl : s.sec.otp.lifecycle ≠ .rma) (hd : s.sec.drbgFail = false) (hb : beatUpset 7 s = none) (hm : s.mem.bad = []) :
    ∃ t k, exec (.calExportPart0 a) s = .next (answered 0x27 .ok (partOf s.cal.ch s.cal.pair 0) t) ∧
      t.cal = { s.cal with exports := s.cal.exports + 1, snapshot := some k } ∧ k.ch = s.cal.ch ∧ k.pair = s.cal.pair ∧
      k.header.take 4 = [0x5043414C, 1, toWord (s.cal.exports + 1), 0x000000A1] ∧
      t = { s with free := t.free, cal := t.cal, sec := { s.sec with drbg := t.sec.drbg } } := by
  have hops : (withField a 3 0 0).ops ≠ [] := by
    have hc := admitted_count h
    rintro hnil
    simp [rowCalExport, countIs, hnil] at hc
  have hw : opnd (withField a 3 0 0) 0 = 0 :=
    BitVec.eq_of_toNat_eq (opnd_withField (v := 0) (by decide) (by decide) rfl hops hr)
  obtain ⟨sig, f, d, ht⟩ := takeSnapshot_eq (fresh s)
  have hbody := (rowCalExport_body (beatUpset_fresh hb) (.inr hm)).trans (bodyCalExport_first (s := fresh s) hw hl hd ht rfl)
  have he := execRow_yes h rfl hbody ((partWords_le _).trans (by decide)) rfl rfl
  refine ⟨{ s with free := f, sec := { s.sec with drbg := d }, cal := { s.cal with
      exports := s.cal.exports + 1, snapshot := some ⟨s.cal.ch, s.cal.pair,
        exportHead (s.cal.exports + 1) s.cal.ch s.cal.pair ++ sig ++ [0, 0, 0, 0]⟩ } }, _, he, rfl, rfl, rfl, ?_, rfl⟩
  exact (congrArg (List.take 4) (List.append_assoc ..)).trans (exportHead_take ..)

theorem calExport_next {k : Snapshot} (h : Admitted rowCalExport a s) (h0 : opnd a 0 ≠ 0) (h9 : (opnd a 0).toNat ≤ 9)
    (hs : s.cal.snapshot = some k) (hb : beatUpset 7 s = none) : exec (.calExportPart a) s = .next (answered 0x27 .ok
      (if opnd a 0 = 9 then k.header else partOf k.ch k.pair (opnd a 0).toNat) s) := by
  have hbody := (rowCalExport_body (beatUpset_fresh hb) (.inl h0)).trans (bodyCalExport_next (s := fresh s) h0 h9 hs)
  have he := execRow_yes h rfl hbody ((partWords_le _).trans (by decide)) rfl rfl
  have hk : k.part (opnd a 0).toNat = if opnd a 0 = 9 then k.header else partOf k.ch k.pair (opnd a 0).toNat := by
    have h9' : (opnd a 0).toNat = 9 ↔ opnd a 0 = 9 := ⟨fun hc => BitVec.eq_of_toNat_eq hc, fun hc => by rw [hc]; rfl⟩
    simp only [Snapshot.part, h9']
  rw [hk] at he
  exact he

end

end Sys2Proof.Machine
end

section
/-! PROOF. Imports of calibration records and the factory copy, and the statement on them (O47). -/

namespace Sys2Proof.Machine

section
variable {a : CmdArgs} {s : State}

/-! ## CAL.IMPORT (R160) -/

theorem calRuns_idle (h : calMask s = 0) : calRuns s = false := by simp [calRuns, h]

theorem rowCalImport_body (hb : beatUpset 7 s = none) : rowCalImport.body a s = bodyCalImport a s := secAns_clean hb _

theorem calImport_staged (h : Admitted rowCalImport a s) (h8 : (opnd a 0).toNat ≤ 8) (hm : calMask s = 0)
    (hp : partBad (opnd a 0).toNat (a.ops.drop 1) = false) (hb : beatUpset 7 s = none) :
    exec (.calImportPart a) s = .next (answered 0x28 .ok [] { s with
      cal := { s.cal with staging := tput [] s.cal.staging (opnd a 0).toNat (a.ops.drop 1) } }) := by
  have hr : resv (opnd a 0) 0xF = false := resv_low (by omega)
  have h10 : decide (9 < (opnd a 0).toNat) = false := decide_eq_false (by omega)
  have hn : (opnd a 0).toNat ≠ 9 := by omega
  have h9 : ((opnd a 0).toNat == 9) = false := beq_false_of_ne hn
  have hi : calRuns (fresh s) = false := calRuns_idle (s := fresh s) hm
  have hbody : bodyCalImport a (fresh s) = yes { fresh s with
      cal := { s.cal with staging := tput [] s.cal.staging (opnd a 0).toNat (a.ops.drop 1) } } := by
    simp only [bodyCalImport, hr, hp, h10, h9, hi, if_neg hn, Bool.or_false, Bool.false_and, checks_false, checks_nil]
    rfl
  exact (execRow_yes h rfl ((rowCalImport_body (beatUpset_fresh hb)).trans hbody) (by simp [rowCalImport]) rfl rfl).trans rfl

theorem calImport_reserved (h : Admitted rowCalImport a s) (hp : partBad (opnd a 0).toNat (a.ops.drop 1) = true) :
    exec (.calImportPart a) s = .next (answered 0x28 .unsupported [] s) := by
  have hbody : bodyCalImport a (fresh s) = no .unsupported (fresh s) := by
    simp only [bodyCalImport, hp, Bool.or_true, checks_true]
  have hsec : rowCalImport.body a (fresh s) = no .unsupported (fresh s) :=
    (congrArg (fun x => secAns x (fresh s)) hbody).trans (secAns_notOk (x := no .unsupported (fresh s)) nofun _)
  exact (execRow_body (t := fresh s) h rfl hsec (by simp [rowCalImport]) (by simp) rfl rfl).trans rfl

theorem bodyCalImport_commit (hw : (opnd a 0).toNat = 9) (hk : s.sec.otp.lifecycle ≠ .rma) (hm : calMask s = 0) :
    bodyCalImport a s = importCommit (a.ops.drop 1) s := by
  have hr : resv (opnd a 0) 0xF = false := resv_low (by omega)
  have hp : partBad 9 (a.ops.drop 1) = false := by simp [partBad]
  have hkeys : keysOn s = true := by simp [keysOn, hk]
  have h10 : decide (9 < 9) = false := rfl
  simp only [bodyCalImport, hw, hr, hp, hkeys, calRuns_idle hm, h10, Bool.or_false, Bool.not_true, Bool.and_false, checks_false,
    checks_nil, if_true]

/-- The staging is cleared. -/
def unstaged (s : State) : State := { s with cal := { s.cal with staging := [] } }

theorem importCommit_missing (h : List Word) (hm : missingParts s ≠ 0) :
    importCommit h s = ⟨.refused, unstaged s, [missingParts s]⟩ := if_pos hm

theorem importCommit_version {h : List Word} (hm : missingParts s = 0) (hv : h.getD 1 0 ≠ 1) :
    importCommit h s = ⟨.unsupported, unstaged s, []⟩ := (if_neg (not_not.2 hm)).trans (if_pos hv)

/-- The header is that of the staged parts, signed by the device. -/
def HeaderOk (t : Tab (List Word)) (h : List Word) : Prop :=
  sha256Words (wordsBytes ((List.range 9).flatMap (tget [] t))) = (h.drop 4).take 8 ∧
    ecdsaOk (publicKey attestKey) (sha256 (wordsBytes (h.take 12))) ((h.drop 12).take 16) = true

theorem importCommit_foreign {h : List Word} (hm : missingParts s = 0) (hv : h.getD 1 0 = 1) (ho : ¬ HeaderOk s.cal.staging h) :
    importCommit h s = ⟨.refused, unstaged s, [0x80000000]⟩ := by
  refine (if_neg (not_not.2 hm)).trans ((if_neg (not_not.2 hv)).trans (if_pos ?_))
  by_cases hs : sha256Words (wordsBytes ((List.range 9).flatMap (tget [] s.cal.staging))) = (h.drop 4).take 8
  · exact .inr (Bool.eq_false_iff.2 fun he => ho ⟨hs, he⟩)
  · exact .inl hs

theorem importCommit_taken {h : List Word} (hm : missingParts s = 0) (hv : h.getD 1 0 = 1) (ho : HeaderOk s.cal.staging h) :
    importCommit h s = yes (moveAll s (withRecords (stagedCh (calTime s) s.cal.staging) (stagedPair s.cal.staging) (unstaged s))) := by
  refine (if_neg (not_not.2 hm)).trans ((if_neg (not_not.2 hv)).trans (if_neg ?_))
  rintro (hs | he)
  · exact hs ho.1
  · rw [ho.2] at he; cases he

end

section
variable {a : CmdArgs} {s : State} {h : List Word}

/-- PART 9 runs the checks of the staged parts. -/
theorem calImport_commits (ha : Admitted rowCalImport (withField a 3 0 9) s) (hr : resv (opnd (withField a 3 0 9) 0) 0xF = false)
    (hl : s.sec.otp.lifecycle ≠ .rma) (hm : calMask s = 0) (hh : h = a.ops.drop 1) (hb : beatUpset 7 s = none) :
    rowCalImport.body (withField a 3 0 9) (fresh s) = importCommit h (fresh s) := by
  have hops : (withField a 3 0 9).ops ≠ [] := by
    have hc := admitted_count ha
    rintro hnil
    simp [rowCalImport, hnil, opnd, fld, partWords] at hc
  have hw : (opnd (withField a 3 0 9) 0).toNat = 9 := opnd_withField (v := 9) (by decide) (by decide) rfl hops hr
  rw [rowCalImport_body (beatUpset_fresh hb), bodyCalImport_commit (s := fresh s) hw hl hm, withField_drop, hh]

theorem calImport_stopped {st : Status} {res : List Word} (ha : Admitted rowCalImport (withField a 3 0 9) s)
    (hb : rowCalImport.body (withField a 3 0 9) (fresh s) = ⟨st, unstaged (fresh s), res⟩) (hres : res.length ≤ 1023) :
    exec (.calImportCommit a) s = .next (answered 0x28 st res (unstaged s)) :=
  (execRow_body ha rfl hb (by simp [rowCalImport]) hres rfl rfl).trans rfl

theorem calImport_taken (ha : Admitted rowCalImport (withField a 3 0 9) s)
    (hb : rowCalImport.body (withField a 3 0 9) (fresh s) = importCommit h (fresh s)) (hm : missingParts s = 0) (hv : h.getD 1 0 = 1)
    (ho : HeaderOk s.cal.staging h) : ∃ t, exec (.calImportCommit a) s = .next (answered 0x28 .ok [] t) ∧
      t.cal = { s.cal with ch := stagedCh (calTime s) s.cal.staging, pair := stagedPair s.cal.staging, staging := [] } ∧
      t = { s with cal := t.cal, fe := t.fe } := by
  obtain ⟨f, hf⟩ := moveAll_fe (fresh s)
    (withRecords (stagedCh (calTime s) s.cal.staging) (stagedPair s.cal.staging) (unstaged (fresh s)))
  have hi := hb.trans ((importCommit_taken (s := fresh s) hm hv ho).trans (congrArg (fun t => yes t) hf))
  have he := execRow_yes ha rfl hi (by simp [rowCalImport]) rfl rfl
  exact ⟨{ s with fe := f, cal := { s.cal with
    ch := stagedCh (calTime s) s.cal.staging, pair := stagedPair s.cal.staging, staging := [] } }, he, rfl, rfl⟩

end

/-! ## CAL.FACTORY (R161) -/

section
variable {a : CmdArgs} {s : State}

/-- The form of a CAL.FACTORY is its operand. -/
theorem opnd_calFactory {v : Nat} (h : Admitted rowCalFactory (withField a 1 0 v) s) (hv : v < 4)
    (hr : resv (opnd (withField a 1 0 v) 0) 3 = false) : (opnd (withField a 1 0 v) 0).toNat = v := by
  refine opnd_withField (by decide) hv rfl (fun hnil => ?_) hr
  have hc := admitted_count h
  simp [rowCalFactory, countIs, hnil] at hc

theorem rowCalFactory_body (hb : beatUpset 7 s = none) : rowCalFactory.body a s = bodyCalFactory a s := secAns_clean hb _

/-- The factory copy's records as a restore at `time` leaves them. -/
def restoredCh (time : Word) (o : Otp) : Tab Quad :=
  recordTab dChRec 256 (fun k => (stampCh time (setSourceCh 2 (tget dChRec o.facCh k))).words)
def restoredPair (o : Otp) : Tab Quad := recordTab dPairRec 128 (fun k => (setSourcePair 2 (tget dPairRec o.facPair k)).words)

theorem tget_restoredCh (time : Word) (o : Otp) {k : Nat} (hk : k < 256) :
    tget dChRec (restoredCh time o) k = { setSourceCh 2 (tget dChRec o.facCh k) with w3 := time } := by
  rw [restoredCh, tget_recordTab, if_pos hk]
  rfl

theorem tget_restoredPair (o : Otp) {k : Nat} (hk : k < 128) :
    tget dPairRec (restoredPair o) k = setSourcePair 2 (tget dPairRec o.facPair k) := by
  rw [restoredPair, tget_recordTab, if_pos hk]

theorem bodyCalFactory_restore (hw : (opnd a 0).toNat = 0) (hr : resv (opnd a 0) 3 = false) (hm : calMask s = 0)
    (hf : s.sec.otp.factorySet = true) :
    bodyCalFactory a s = yes (moveAll s (withRecords (restoredCh (calTime s) s.sec.otp) (restoredPair s.sec.otp) s)) := by
  have h03 : ((0 : Nat) == 3) = false := rfl
  have h01 : ((0 : Nat) == 1) = false := rfl
  simp only [bodyCalFactory, hw, hr, hf, calRuns_idle hm, h03, h01, Bool.or_false, Bool.false_and, Bool.not_true, Bool.and_false,
    checks_false, checks_nil, if_true]
  rfl

theorem bodyCalFactory_program (hw : (opnd a 0).toNat = 1) (hr : resv (opnd a 0) 3 = false) (hm : calMask s = 0)
    (hl : s.sec.otp.lifecycle = .maker) (hf : s.sec.otp.factorySet = false) : bodyCalFactory a s =
      otpCommit 6 0 1536 (fun o => { o with factorySet := true, facCh := s.cal.ch, facPair := s.cal.pair }) factoryUnknown (fun _ => []) s := by
  have h13 : ((1 : Nat) == 3) = false := rfl
  have h10 : ((1 : Nat) == 0) = false := rfl
  have h11 : ((1 : Nat) == 1) = true := rfl
  have hmaker : (Lifecycle.maker != .maker) = false := rfl
  simp only [bodyCalFactory, hw, hr, hl, hf, calRuns_idle hm, h13, h10, h11, hmaker, Bool.or_false, Bool.false_and, Bool.and_false,
    checks_false, checks_nil]
  rfl

theorem bodyCalFactory_clear (hw : (opnd a 0).toNat = 2) (hr : resv (opnd a 0) 3 = false) (hm : calMask s = 0) :
    bodyCalFactory a s = yes (moveAll s (withRecords (tmap dChRec (setSourceCh 0) s.cal.ch) (tmap dPairRec (setSourcePair 0) s.cal.pair) s)) := by
  have h23 : ((2 : Nat) == 3) = false := rfl
  have h20 : ((2 : Nat) == 0) = false := rfl
  have h21 : ((2 : Nat) == 1) = false := rfl
  simp only [bodyCalFactory, hw, hr, calRuns_idle hm, h23, h20, h21, Bool.or_false, Bool.false_and, checks_false, checks_nil]
  rfl

/-- A CAL.FACTORY that leaves these records leaves the moves to them (R152), and nothing else. -/
theorem calFactory_leaves {v : Nat} {c p : Tab Quad} (h : Admitted rowCalFactory (withField a 1 0 v) s)
    (hb : rowCalFactory.body (withField a 1 0 v) (fresh s) = yes (moveAll (fresh s) (withRecords c p (fresh s)))) :
    ∃ f, execRow rowCalFactory (withField a 1 0 v) s = .next (answered 0x29 .ok [] { s with
      fe := f, cal := { s.cal with ch := c, pair := p } }) := by
  obtain ⟨f, hf⟩ := moveAll_fe (fresh s) (withRecords c p (fresh s))
  have hb' := hb.trans (congrArg (fun t => yes t) hf)
  exact ⟨f, (execRow_fuse h rfl hb' (by simp [rowCalFactory]) rfl).trans rfl⟩

/-- Both SOURCE fields of a word are 0. -/
def Unmeasured (w : Word) : Prop := fld w 31 28 = 0 ∧ fld w 27 24 = 0

theorem unmeasured_cleared (w : Word) : Unmeasured (setFld (setFld w 31 28 0) 27 24 0) := by
  have hw := w.isLt
  simp only [Unmeasured, fld, setFld, toWord, BitVec.toNat_ofNat, Nat.shiftRight_eq_div_pow]
  omega

/-- A channel's record, or a pair's, counts as unmeasured (Tables 4.9, 4.10). -/
def ChUnmeasured (q : Quad) : Prop := Unmeasured q.w2
def PairUnmeasured (q : Quad) : Prop := Unmeasured q.w3

theorem setSourceCh_unmeasured (q : Quad) : ChUnmeasured (setSourceCh 0 q) := unmeasured_cleared q.w2
theorem setSourcePair_unmeasured (q : Quad) : PairUnmeasured (setSourcePair 0 q) := unmeasured_cleared q.w3
theorem dChRec_unmeasured : ChUnmeasured dChRec := ⟨by decide, by decide⟩
theorem dPairRec_unmeasured : PairUnmeasured dPairRec := ⟨by decide, by decide⟩

theorem calFactory_restores (h : Admitted rowCalFactory (withField a 1 0 0) s) (hr : resv (opnd (withField a 1 0 0) 0) 3 = false)
    (hm : calMask s = 0) (hf : s.sec.otp.factorySet = true) (hb : beatUpset 7 s = none) :
    ∃ t, exec (.calFactoryRestore a) s = .next (answered 0x29 .ok [] t) ∧
      (∀ k < 256, tget dChRec t.cal.ch k = { setSourceCh 2 (tget dChRec s.sec.otp.facCh k) with w3 := calTime s }) ∧
      (∀ k < 128, tget dPairRec t.cal.pair k = setSourcePair 2 (tget dPairRec s.sec.otp.facPair k)) ∧
      t = { s with cal := { s.cal with ch := t.cal.ch, pair := t.cal.pair }, fe := t.fe } := by
  have hch := fun k (hk : k < 256) => tget_restoredCh (calTime s) s.sec.otp hk
  have hpair := fun k (hk : k < 128) => tget_restoredPair s.sec.otp hk
  have hbody := (rowCalFactory_body (beatUpset_fresh hb)).trans
    (bodyCalFactory_restore (s := fresh s) (opnd_calFactory h (by decide) hr) hr hm hf)
  change rowCalFactory.body _ _ = yes (moveAll _ (withRecords (restoredCh (calTime s) s.sec.otp) (restoredPair s.sec.otp) _)) at hbody
  generalize restoredCh (calTime s) s.sec.otp = c at hch hbody
  generalize restoredPair s.sec.otp = p at hpair hbody
  obtain ⟨f, he⟩ := calFactory_leaves h hbody
  exact ⟨_, he, hch, hpair, rfl⟩

theorem calFactory_programs (h : Admitted rowCalFactory (withField a 1 0 1) s) (hr : resv (opnd (withField a 1 0 1) 0) 3 = false)
    (hl : s.sec.otp.lifecycle = .maker) (hm : calMask s = 0) (hf : s.sec.otp.factorySet = false) (hb : beatUpset 7 s = none) :
    OtpAttempt 0x29 (.calFactoryProgram a) [] { s.sec.otp with factorySet := true, facCh := s.cal.ch, facPair := s.cal.pair }
      (fun v => factoryUnknown v s.sec.otp) s := by
  have hbody := (rowCalFactory_body (beatUpset_fresh hb)).trans
    (bodyCalFactory_program (s := fresh s) (opnd_calFactory h (by decide) hr) hr hm hl hf)
  rcases otpCommit_cases 6 0 1536 (fun o => { o with factorySet := true, facCh := s.cal.ch, facPair := s.cal.pair }) factoryUnknown
    (fun _ => []) (fresh s) with ⟨k, hc⟩ | ⟨t, hc, hsec, hw, hi, ht⟩
  · have he := execRow_fuse h rfl (hbody.trans hc) (by simp [rowCalFactory]) rfl
    exact .inl ⟨{ s with free := k, sec := { s.sec with otp := { s.sec.otp with
      factorySet := true, facCh := s.cal.ch, facPair := s.cal.pair } } }, he, rfl⟩
  · have he := execRow_fuse h rfl (hbody.trans hc) (by simp [rowCalFactory]) (by rw [ht]; rfl)
    refine .inr ⟨{ s with free := t.free, sec := t.sec, flt := t.flt, irq := t.irq }, he.trans ?_, hsec, hw, hi, ?_⟩
    · rw [ht]; rfl
    · rw [ht]; rfl

theorem calFactory_clears (h : Admitted rowCalFactory (withField a 1 0 2) s) (hr : resv (opnd (withField a 1 0 2) 0) 3 = false)
    (hm : calMask s = 0) (hb : beatUpset 7 s = none) :
    ∃ t, exec (.calFactoryClear a) s = .next (answered 0x29 .ok [] t) ∧
      (∀ k, fld (tget dChRec t.cal.ch k).w2 31 28 = 0 ∧ fld (tget dChRec t.cal.ch k).w2 27 24 = 0) ∧
      (∀ k, fld (tget dPairRec t.cal.pair k).w3 31 28 = 0 ∧ fld (tget dPairRec t.cal.pair k).w3 27 24 = 0) ∧
      t = { s with cal := { s.cal with ch := t.cal.ch, pair := t.cal.pair }, fe := t.fe } := by
  have hch := fun k => tget_tmap dChRec_unmeasured setSourceCh_unmeasured s.cal.ch k
  have hpair := fun k => tget_tmap dPairRec_unmeasured setSourcePair_unmeasured s.cal.pair k
  have hbody := (rowCalFactory_body (beatUpset_fresh hb)).trans
    (bodyCalFactory_clear (s := fresh s) (opnd_calFactory h (by decide) hr) hr hm)
  change rowCalFactory.body _ _ = yes (moveAll _ (withRecords (tmap dChRec (setSourceCh 0) s.cal.ch)
    (tmap dPairRec (setSourcePair 0) s.cal.pair) _)) at hbody
  generalize tmap dChRec (setSourceCh 0) s.cal.ch = c at hch hbody
  generalize tmap dPairRec (setSourcePair 0) s.cal.pair = p at hpair hbody
  obtain ⟨f, he⟩ := calFactory_leaves h hbody
  exact ⟨_, he, hch, hpair, rfl⟩

end

/-- Settles O47: exports, staged parts, part 9 by the order of its checks, and the three forms of CAL.FACTORY. -/
theorem calibrationRecords : Obligations.CalibrationRecords := by
  unfold Obligations.CalibrationRecords
  refine ⟨fun a s h hr hl hd hb hm => calExport_first h hr hl hd hb hm, fun a s k h h0 h9 hs hb => calExport_next h h0 h9 hs hb,
    fun a s h h8 hm hp hb => calImport_staged h h8 hm hp hb, fun a s h _ hp => calImport_reserved h hp,
    fun a s h ha hr hl hm hh hb => ?_, fun a s h hr hm hf hb => calFactory_restores h hr hm hf hb,
    fun a s h hr hl hm hf hb => calFactory_programs h hr hl hm hf hb, fun a s h hr hm hb => calFactory_clears h hr hm hb⟩
  have hbody := calImport_commits ha hr hl hm hh hb
  refine ⟨fun hp => calImport_stopped ha (hbody.trans (importCommit_missing (s := fresh s) h hp)) (by simp),
    fun hp hv => calImport_stopped ha (hbody.trans (importCommit_version (s := fresh s) hp hv)) (by simp), fun hp hv => ?_⟩
  split
  · next ho => exact calImport_taken ha hbody hp hv ho
  · next ho => exact calImport_stopped ha (hbody.trans (importCommit_foreign (s := fresh s) hp hv ho)) (by simp)

end Sys2Proof.Machine
end

section
/-! PROOF. Coefficient banks, detectors, meters and captures (O5). -/

namespace Sys2Proof.Machine

/-! ## The operands of FIR.WRITE (R183) -/

theorem flag_withFlag_same (a : CmdArgs) {n : Nat} (hn : n < 4) (b : Bool) : flag (withFlag a n b) n = b := by
  cases b <;> simp [flag, withFlag, hn]

/-- An operand whose bits are all in the mask has no reserved bit set. -/
theorem resv_of_bits {w m : Word} (h : ∀ i < 32, w.getLsbD i = true → m.getLsbD i = true) : resv w m = false := by
  have hz : w &&& ~~~m = 0 := by
    refine BitVec.eq_of_getLsbD_eq fun i hi => ?_
    cases hw : w.getLsbD i
    · simp [hw]
    · simp [h i hi hw]
  simpa [resv, within] using hz

/-- A number below `2 ^ k` has only its low `k` bits. -/
theorem index_lt_of_testBit {n k i : Nat} (hn : n < 2 ^ k) (h : n.testBit i = true) : i < k :=
  (Nat.pow_lt_pow_iff_right (by decide)).1 ((Nat.ge_two_pow_of_testBit h).trans_lt hn)

section
variable {b off : Nat}

/-- The operand that names bank `b` and an offset in it has a bit only in these two fields. -/
theorem testBit_bankOffset {i : Nat} (hb : b < 8) (ho : off < 512) (h : (b * 65536 + off).testBit i = true) :
    i < 9 ∨ 16 ≤ i ∧ i < 19 := by
  rw [show b * 65536 = 2 ^ 16 * b by omega, Nat.testBit_two_pow_mul_add _ (by omega)] at h
  split at h
  · exact .inl (index_lt_of_testBit (k := 9) ho h)
  · have := index_lt_of_testBit (k := 3) hb h
    omega

theorem resv_bankOffset (hb : b < 8) (ho : off < 512) : resv (toWord (b * 65536 + off)) 0x701FF = false := by
  have hmask : ∀ i < 32, i < 9 ∨ 16 ≤ i ∧ i < 19 → (0x701FF : Word).getLsbD i = true := by decide
  refine resv_of_bits fun i hi h => hmask i hi (testBit_bankOffset hb ho ?_)
  rw [toWord, BitVec.getLsbD_ofNat] at h
  exact (Bool.and_eq_true_iff.1 h).2

theorem fld_bank (hb : b < 8) (ho : off < 512) : fld (toWord (b * 65536 + off)) 18 16 = b := by
  simp only [fld, toWord, BitVec.toNat_ofNat, Nat.shiftRight_eq_div_pow]
  omega

theorem fld_offset (b : Nat) (ho : off < 512) : fld (toWord (b * 65536 + off)) 8 0 = off := by
  simp only [fld, toWord, BitVec.toNat_ofNat, Nat.shiftRight_eq_div_pow]
  omega

end

/-- The word of a coefficient has no bit above the low 24. -/
theorem resv_coef (c : BitVec 24) : resv (c.setWidth 32) 0xFFFFFF = false := by
  have hmask : ∀ i < 24, (0xFFFFFF : Word).getLsbD i = true := by decide
  refine resv_of_bits fun i hi h => hmask i (BitVec.lt_of_getLsbD (x := c) ?_)
  simpa [hi] using h

theorem coefs_of_words (cs : List (BitVec 24)) :
    (cs.map (fun c => c.setWidth 32)).map (fun w : Word => BitVec.ofNat 24 w.toNat) = cs := by
  rw [List.map_map]
  exact List.map_id'' (fun c => by simp) cs

/-! ## Coefficient banks (R172, R173, R183) -/

/-- Only the bank and the channels differ. -/
theorem putBank_frame (b : Nat) (k : FirBank) (s : State) : putBank b k s =
    { s with fe := (putBank b k s).fe, filt := { s.filt with banks := tput dBank s.filt.banks b k } } := by
  unfold putBank
  dsimp only
  generalize hf : List.foldl _ s (List.range 32) = t
  have ht : ChansOnly s t := by
    rw [← hf]
    refine foldl_related (R := ChansOnly) (fun _ => rfl) (fun _ _ _ => ChansOnly.trans) (fun s _ => ?_) _ s
    exact iteInduction (motive := ChansOnly s) (fun _ => by rfl) (fun _ => by rfl)
  rw [ChansOnly] at ht
  rw [ht]

/-- A bank's content does not read the response built so far. -/
theorem putBank_fresh (b : Nat) (k : FirBank) (s : State) : putBank b k (fresh s) = fresh (putBank b k s) := by
  unfold putBank
  dsimp only
  generalize hf : List.foldl _ s (List.range 32) = t
  generalize hg : List.foldl _ (fresh s) (List.range 32) = u
  have hu : u = fresh t := by
    rw [← hf, ← hg]
    exact List.foldl_hom fresh fun s ch => by rw [apply_ite fresh]; rfl
  rw [hu]
  rfl

theorem firBank_putBank (b c : Nat) (k : FirBank) (s : State) : firBank (putBank b k s) c = if c = b then k else firBank s c := by
  rw [putBank_frame]
  exact tget_tput ..

/-- FIR.WRITE whose own part replaces a bank. -/
theorem execRow_firWrite {a : CmdArgs} {s : State} {b : Nat} {k : FirBank} (h : Admitted rowFirWrite a s)
    (hb : bodyFirWrite a (fresh s) = yes (putBank b k (fresh s)) [bankCrc k]) :
    execRow rowFirWrite a s = .next (answered 0x31 .ok [bankCrc k] (putBank b k s)) := by
  have hf := putBank_frame b k s
  rw [putBank_fresh] at hb
  exact (execRow_yes (t := fresh (putBank b k s)) h rfl hb (by simp [rowFirWrite]) (by rw [hf]; rfl) (by rw [hf]; rfl)).trans
    (by rw [answered_fresh]; rfl)

/-- With bit 20 set the second word becomes the bank's descriptor (Table 5.4). -/
theorem bodyFirWrite_desc {a : CmdArgs} {s : State} {b : Nat} {d : Word} (hf : flag a 0 = true) (h1 : opnd a 1 = d)
    (h0 : opnd a 0 = toWord (b * 65536)) (hb : b < 8) (hr : resv d 0x33FF01FF = false) (ht : fld d 8 0 ≤ 384)
    (hg : fld d 25 16 ≤ 2 * (fld d 8 0 - 1)) (hfade : bankFading s b = false)
    (hcap : ∀ ch < 32, (active s).chBank ch = b → (active s).chEn ch = true → fld d 8 0 * chanHz (active s) ch ≤ 18432000)
    (hundef : fld d 8 0 = 0 → ∀ ch < 32, (active s).chBank ch ≠ b) :
    bodyFirWrite a s = yes (putBank b { firBank s b with desc := d } s) [bankCrc { firBank s b with desc := d }] := by
  have h00 : opnd a 0 = toWord (b * 65536 + 0) := by rw [h0, Nat.add_zero]
  have hc : (List.range 32).any (fun ch => (active s).chEn ch && (active s).chBank ch == b
      && decide (18432000 < fld d 8 0 * chanHz (active s) ch)) = false := by
    simpa only [List.any_eq_false, List.mem_range, Bool.and_eq_true, beq_iff_eq, decide_eq_true_eq, not_and, not_lt, and_imp]
      using fun ch hch he hk => hcap ch hch hk he
  have hu : (fld d 8 0 == 0 && (List.range 32).any (fun ch => (active s).chBank ch == b)) = false := by
    simpa using hundef
  unfold bodyFirWrite
  simp only [hf, if_true, h00, fld_bank hb (by decide : 0 < 512), fld_offset b (by decide : 0 < 512),
    resv_bankOffset hb (by decide : 0 < 512), h1, hr, hfade, hc, hu]
  exact checks_pass (by simp; omega)

/-- With bit 20 clear the words are coefficients from the offset on (R183). -/
theorem bodyFirWrite_coefs {a : CmdArgs} {s : State} {b off : Nat} {cs : List (BitVec 24)} (hf : flag a 0 = false)
    (hops : a.ops = toWord (b * 65536 + off) :: cs.map (fun c => c.setWidth 32)) (hb : b < 8) (ho : off < 512)
    (hl : off + cs.length ≤ 384) (hfade : bankFading s b = false) :
    bodyFirWrite a s = yes (putBank b { firBank s b with coefs := tputs 0 (firBank s b).coefs off cs } s)
      [bankCrc { firBank s b with coefs := tputs 0 (firBank s b).coefs off cs }] := by
  have h0 : opnd a 0 = toWord (b * 65536 + off) := by rw [opnd, hops]; rfl
  have hdrop : a.ops.drop 1 = cs.map (fun c => c.setWidth 32) := by rw [hops]; rfl
  have hr : (cs.map (fun c => c.setWidth 32)).any (fun w : Word => resv w 0xFFFFFF) = false := by
    rw [List.any_map]
    exact List.any_eq_false.2 fun c _ h => Bool.false_ne_true ((resv_coef c).symm.trans h)
  unfold bodyFirWrite
  simp only [hf, hdrop, h0, fld_bank hb ho, fld_offset b ho, resv_bankOffset hb ho, hr, coefs_of_words, hfade]
  exact checks_pass (by simpa using hl)

/-! ## Detectors (R179, R187, R188) -/

/-- Only the settings and values of the detectors differ. -/
def DetsOnly (s t : State) : Prop := t = { s with filt := { s.filt with detCfg := t.filt.detCfg, dets := t.filt.dets } }

theorem DetsOnly.trans {s t u : State} (h : DetsOnly s t) (h' : DetsOnly t u) : DetsOnly s u := by
  unfold DetsOnly at *; rw [h', h]

/-- The detectors from `f` on. -/
theorem mem_detSpan {f n d : Nat} : d ∈ (List.range n).map (f + ·) ↔ f ≤ d ∧ d < f + n := by
  simp only [List.mem_map, List.mem_range]
  constructor
  · rintro ⟨i, hi, rfl⟩; omega
  · exact fun h => ⟨d - f, by omega, by omega⟩

/-- The settings of a detector with its values. -/
def detector (s : State) (d : Nat) : Word × Det := (tget dDet s.filt.detCfg d, tget {} s.filt.dets d)

/-- A detector after new settings: P goes on from where it stands when its hold or decay changes (R179). -/
def reconfigured (v : Word) (x : Word × Det) : Word × Det :=
  (v, if fld x.1 25 16 = fld v 25 16 then x.2 else detRebase x.1 x.2.hz x.2)

/-- A detector's values after a clear (R188). -/
def cleared (x : Det) : Det := { x with p0 := 0, age := 0, ref := 0, ovr := false, set := false, cut := false }

theorem detector_setDet (v : Word) (s : State) (n d : Nat) :
    detector (setDet v s n) d = if d = n then reconfigured v (detector s d) else detector s d := by
  simp only [detector, setDet, tget_tput, reconfigured, tmod]
  by_cases hd : d = n
  · subst hd
    simp only [if_true, apply_ite (fun t => tget ({} : Det) t d), tget_tput]
    rfl
  · simp only [if_neg hd, apply_ite (fun t => tget ({} : Det) t d), tget_tput, ite_self]

/-- Each named detector takes the settings. -/
theorem detector_setDets (v : Word) (l : List Nat) (s : State) (d : Nat) :
    detector (l.foldl (setDet v) s) d = if d ∈ l then reconfigured v (detector s d) else detector s d :=
  entry_foldl (π := detector) (I := fun _ => True) (g := fun _ => reconfigured v) (fun _ _ h => h)
    (fun t n k _ => detector_setDet v t n k) (fun _ x => by simp [reconfigured]) l trivial d

theorem tget_detCfg_setDets (v : Word) (l : List Nat) (s : State) (d : Nat) :
    tget dDet (l.foldl (setDet v) s).filt.detCfg d = if d ∈ l then v else tget dDet s.filt.detCfg d :=
  (congrArg Prod.fst (detector_setDets v l s d)).trans (apply_ite Prod.fst ..)

theorem tget_dets_setDets (v : Word) (l : List Nat) (s : State) (d : Nat) :
    tget {} (l.foldl (setDet v) s).filt.dets d =
      if d ∈ l ∧ fld (tget dDet s.filt.detCfg d) 25 16 ≠ fld v 25 16
        then detRebase (tget dDet s.filt.detCfg d) (tget {} s.filt.dets d).hz (tget {} s.filt.dets d) else tget {} s.filt.dets d := by
  refine (congrArg Prod.snd (detector_setDets v l s d)).trans ((apply_ite Prod.snd ..).trans ?_)
  by_cases hd : d ∈ l
  · simp only [hd, if_true, true_and]
    exact (ite_not ..).symm
  · simp only [hd, if_false, false_and]
    rfl

/-- Each named detector is cleared. -/
theorem dets_clearDets (l : List Nat) (s : State) (d : Nat) :
    tget {} (l.foldl clearDet s).filt.dets d = if d ∈ l then cleared (tget {} s.filt.dets d) else tget {} s.filt.dets d :=
  entry_foldl (π := fun s => tget ({} : Det) s.filt.dets) (I := fun _ => True) (g := fun _ => cleared) (fun _ _ h => h)
    (fun _ _ _ _ => by
      simp only [clearDet, tmod, tget_tput]
      split
      · next h => rw [h]; rfl
      · rfl) (fun _ _ => rfl) l trivial d

theorem setDets_detsOnly (v : Word) (l : List Nat) (s : State) : DetsOnly s (l.foldl (setDet v) s) :=
  foldl_related (R := DetsOnly) (fun _ => rfl) (fun _ _ _ => DetsOnly.trans) (f := setDet v) (fun _ _ => rfl) l s

/-- Only the values of the detectors differ. -/
def DetValuesOnly (s t : State) : Prop := t = { s with filt := { s.filt with dets := t.filt.dets } }

theorem DetValuesOnly.trans {s t u : State} (h : DetValuesOnly s t) (h' : DetValuesOnly t u) : DetValuesOnly s u := by
  unfold DetValuesOnly at *; rw [h', h]

/-- DET.READ changes nothing else, with CLEAR and without. -/
theorem clearDets_detValuesOnly (c : Bool) (l : List Nat) (s : State) : DetValuesOnly s (if c then l.foldl clearDet s else s) := by
  split
  · exact foldl_related (R := DetValuesOnly) (fun _ => rfl) (fun _ _ _ => DetValuesOnly.trans) (f := clearDet) (fun _ _ => rfl) l s
  · rfl

/-- The detectors do not read the response built so far. -/
theorem setDets_fresh (v : Word) (l : List Nat) (s : State) : l.foldl (setDet v) (fresh s) = fresh (l.foldl (setDet v) s) :=
  List.foldl_hom fresh fun _ _ => rfl

theorem clearDets_fresh (l : List Nat) (s : State) : l.foldl clearDet (fresh s) = fresh (l.foldl clearDet s) :=
  List.foldl_hom fresh fun _ _ => rfl

section
variable {a : CmdArgs} {s : State} {f n : Nat}

theorem detCfg_sets (h : Admitted rowDetCfg a s) (h0 : resv (opnd a 0) 0x017F00FF = false) (h1 : resv (opnd a 1) 0xBFFFFF00 = false)
    (hs : detSpan (opnd a 0) = some (f, n)) (hw : fld (opnd a 1) 29 26 ≤ 13) :
    exec (.detCfg a) s = .next (answered 0x34 .ok [] (((List.range n).map (f + ·)).foldl (setDet (opnd a 1)) s)) := by
  have hf := setDets_detsOnly (opnd a 1) ((List.range n).map (f + ·)) s
  have hbody : bodyDetCfg a (fresh s) = yes (fresh (((List.range n).map (f + ·)).foldl (setDet (opnd a 1)) s)) := by
    simp only [bodyDetCfg, h0, h1, hs, setDets_fresh]
    exact checks_pass (by simpa using hw)
  rw [DetsOnly] at hf
  exact (execRow_yes h rfl hbody (by simp [rowDetCfg]) (by rw [hf]; rfl) (by rw [hf]; rfl)).trans rfl

/-- DET.READ answers the words as they stand, and with CLEAR it clears. -/
theorem detRead_reads (h : Admitted rowDetRead a s) (h0 : resv (opnd a 0) 0x017F00FF = false)
    (hs : detSpan (opnd a 0) = some (f, n)) :
    exec (.detRead a) s = .next (answered 0x35 .ok
      (((List.range n).map (f + ·)).flatMap (fun d =>
        [(detWords s d).w0, (detWords s d).w1, (detWords s d).w2, (detWords s d).w3]))
      (if flag a 0 then ((List.range n).map (f + ·)).foldl clearDet s else s)) := by
  have hf := clearDets_detValuesOnly (flag a 0) ((List.range n).map (f + ·)) s
  have hbody : bodyDetRead a (fresh s) = yes
      (fresh (if flag a 0 then ((List.range n).map (f + ·)).foldl clearDet s else s))
      (((List.range n).map (f + ·)).flatMap (fun d =>
        [(detWords s d).w0, (detWords s d).w1, (detWords s d).w2, (detWords s d).w3])) := by
    simp only [bodyDetRead, h0, hs, clearDets_fresh, apply_ite fresh]
    rfl
  have hmax : rowDetRead.maxRes a (fresh s) ≤ 1023 := by
    have := fld_lt (opnd a 0) 7 0
    simp only [rowDetRead]
    omega
  rw [DetValuesOnly] at hf
  exact (execRow_yes h rfl hbody hmax (by rw [hf]; rfl) (by rw [hf]; rfl)).trans rfl

end

/-! ## Meters (R181) -/

theorem tget_metersCopied (s : State) {l : List Nat} (hl : l.Nodup) (t : Tab Word) :
    ∀ n ∈ l, tget dMeter (l.foldl (fun t n => tput dMeter t n (meterWord s n)) t) n = meterWord s n :=
  (tget_foldl_updates (key := id) (fun n => updates_tmod dMeter n (fun _ => meterWord s n)) hl t).1

theorem meterUpdate_frame (s : State) :
    meterUpdate s = { s with filt := { s.filt with meters := (meterUpdate s).filt.meters } } := by
  unfold meterUpdate
  dsimp only

/-- A meter update copies every detector into its meter word. -/
theorem meters_meterUpdate (s : State) {n : Nat} (hn : n < 160) : tget dMeter (meterUpdate s).filt.meters n = meterWord s n := by
  unfold meterUpdate
  dsimp only
  exact tget_metersCopied s List.nodup_range s.filt.meters n (List.mem_range.2 hn)

/-- Settles O5: the two forms of FIR.WRITE, the banks, the detectors' settings and reads, the meters and the capture. -/
theorem banksAndDetectors : Obligations.BanksAndDetectors := by
  unfold Obligations.BanksAndDetectors
  refine ⟨fun a s b d h h1 h0 hb hr ht hg hfade hcap hundef => ?_, fun a s b off cs h hops hb ho hl hfade => ?_, fun b k s => ?_,
    fun a s f n h h0 h1 hs hw => ?_, fun a s f n h h0 hs => ?_, fun s => ?_, fun s n => ev_of_kept rfl rfl⟩
  · have hbody := bodyFirWrite_desc (s := fresh s) (flag_withFlag_same a (by decide) true) h1 h0 hb hr ht hg hfade hcap hundef
    change execRow rowFirWrite (withFlag a 0 true) s = _
    rw [putBank_fresh, answered_fresh]
    exact execRow_firWrite h hbody
  · have hbody := bodyFirWrite_coefs (s := fresh s) (flag_withFlag_same a (by decide) false) hops hb ho hl hfade
    change execRow rowFirWrite (withFlag a 0 false) s = _
    exact execRow_firWrite h hbody
  · exact ⟨by rw [firBank_putBank, if_pos rfl], fun c hc => by rw [firBank_putBank, if_neg hc]⟩
  · refine ⟨_, detCfg_sets h h0 h1 hs hw, setDets_detsOnly .., fun d => ⟨?_, ?_⟩⟩
    · simp only [tget_detCfg_setDets, mem_detSpan]
    · simp only [tget_dets_setDets, mem_detSpan, and_assoc]
  · refine ⟨_, detRead_reads h h0 hs, clearDets_detValuesOnly .., fun d => ?_⟩
    cases flag a 0
    · rfl
    · simp only [if_true, true_and, dets_clearDets, mem_detSpan]
      rfl
  · have hf := meterUpdate_frame s
    exact ⟨meterUpdate s, ev_of_kept (by rw [hf]) (by rw [hf]), hf, fun n hn => meters_meterUpdate s hn⟩

end Sys2Proof.Machine
end

section
/-! SUPPORT. The confluence matrix (R190–R194, R366): gain codes and ramps, ACTIVE as FDMA takes it, and the sum of an output lane. -/

namespace Sys2Proof.Machine

/-! ## Gains and ramps (R192, R194) -/

theorem codeOk_iff (c : BitVec 16) : codeOk c = true ↔ c = 0x8000 ∨ (-12000 ≤ c.toInt ∧ c.toInt ≤ 1800) := by
  simp [codeOk, muteCode]

@[simp] theorem codeGain_mute : codeGain muteCode = 0 := if_pos rfl

theorem codeGain_of_ne_mute {c : BitVec 16} (h : c ≠ muteCode) :
    codeGain c = (roundDiv (fxExp (roundDiv (fxLn10 * c.toInt) 2000)) (2 ^ 108)).toNat := if_neg h

/-- A settled node ramps from its code's gain, over the samples of its ramp time, RCOS and at least 16 from or to mute. -/
theorem newRamp_settled {s : State} {n : Nat} (h : nodeRamp s n = none) (old : BitVec 16) (e : Word) : newRamp s old e n =
    if codeGain old = 0 ∨ nodeCode e = muteCode then
      some ⟨codeGain old, some old.toInt, nodeCode e, max (rampN (fld e 19 16)) 16, true, 0⟩
    else if rampN (fld e 19 16) = 0 then none
    else some ⟨codeGain old, some old.toInt, nodeCode e, rampN (fld e 19 16), bit e 20, 0⟩ := by
  have hlast : nodeLast s old n = (codeGain old, some old.toInt) := by simp only [nodeLast, h]
  simp only [newRamp, hlast]
  by_cases ho : codeGain old = 0 ∨ nodeCode e = muteCode
  · have hlen : max (rampN (fld e 19 16)) 16 ≠ 0 := by omega
    simp only [ho, decide_true, if_true, if_neg hlen, Bool.true_or]
  · simp only [ho, decide_false, Bool.false_eq_true, if_false, Bool.false_or]

theorem rampGain_done {r : NodeRamp} {j : Nat} (h : r.len ≤ j) : rampGain r j = codeGain r.target := if_pos h

theorem rampGain_rcos {r : NodeRamp} {j : Nat} (h : j < r.len) (hr : r.rcos = true) : rampGain r j =
    (roundDiv (r.g0 * fxOne + fxRcos (j + 1) (r.len + 1) * ((codeGain r.target : Int) - r.g0)) (2 ^ 128)).toNat := by
  simp only [rampGain, if_neg (Nat.not_le.2 h), hr, if_true]

theorem rampGain_decibels {r : NodeRamp} {j : Nat} {d : Int} (h : j < r.len) (hr : r.rcos = false) (hd : r.d0 = some d) :
    rampGain r j = (roundDiv (fxExp (roundDiv (fxMul (d * fxOne +
      roundDiv ((r.target.toInt * fxOne - d * fxOne) * (j + 1)) (r.len + 1)) fxLn10) 2000)) (2 ^ 108)).toNat := by
  simp only [rampGain, if_neg (Nat.not_le.2 h), hr, rampD0, hd, Bool.false_eq_true, if_false]

/-- A ramp that has given its samples leaves its node's entry; every other ramp stands. -/
theorem nodeRampEnd_done {s : State} {il ol : Nat} {r : NodeRamp} (h : tget none s.mtx.ramps (128 * il + ol) = some r)
    (hr : r.len ≤ r.j) :
    nodeRampEnd il ol s = { s with mtx := { s.mtx with ramps := tput none s.mtx.ramps (128 * il + ol) none } } := by
  simp only [nodeRampEnd, h, if_pos hr]

/-! ## ACTIVE as FDMA takes it (R366) -/

theorem heard_of_none_taken {s : State} (h : s.sets.taken = []) (hf : s.sets.takenFlows = []) : heard s = active s := by
  simp only [heard, h, hf, List.foldl_nil]

theorem heard_node_taken {s : State} {k il ol : Nat} (h : s.sets.taken = [k]) (hil : il < 128) (hol : ol < 128)
    (hk : 128 * il + ol = k) : (heard s).node il ol = setFld ((active s).node il ol) 15 0 0x8000 := by
  have hlt : k < 16384 := by omega
  simp only [heard, h, List.foldl_cons, List.foldl_nil, ConfigSet.node, hk, if_pos hlt, tget_tmod_same]

theorem heard_weir_taken {s : State} {k ol : Nat} (h : s.sets.taken = [k]) (hol : ol < 128) (hk : 16384 + ol = k) :
    (heard s).weir ol = setBit ((active s).weir ol) 31 false := by
  have hin : 16384 ≤ k ∧ k < 16512 := by omega
  have hol' : k - 16384 = ol := by omega
  simp only [heard, h, List.foldl_cons, List.foldl_nil, ConfigSet.weir, if_pos hin, hol', tget_tmod_same]

/-! ## The sum of an output lane (R190) -/

/-- The gain of a node's present sample: its ramp's while that runs, else its code's. -/
def nodeGain (s : State) (c : ConfigSet) (il ol : Nat) : Nat :=
  match nodeRamp s (128 * il + ol) with
  | some r => rampGain r r.j
  | none => codeGain (nodeCode (c.node il ol))

/-- A node gives its lane's tags where it ramps or is not mute. -/
def nodeHeard (s : State) (c : ConfigSet) (il ol : Nat) : Bool :=
  (nodeRamp s (128 * il + ol)).isSome || nodeCode (c.node il ol) != muteCode

@[simp] theorem nodeProduct_zero (x : Word) : nodeProduct x 0 = 0 := by
  simp [nodeProduct, roundDiv]

/-- The sum takes in one node: a muted one adds nothing. -/
theorem laneSum_cons (s : State) (c : ConfigSet) (ol il : Nat) (r : List Nat) : laneSum s c ol (il :: r) =
    ((laneSum s c ol r).1 + nodeProduct (tget ⟨0, 0⟩ s.mtx.laneIn il).val (nodeGain s c il ol),
      if nodeHeard s c il ol then tagOR (laneSum s c ol r).2 (tget ⟨0, 0⟩ s.mtx.laneIn il).tag else (laneSum s c ol r).2) := by
  cases hr : nodeRamp s (128 * il + ol) with
  | some rp => simp [laneSum, nodeGain, nodeHeard, hr]
  | none => by_cases hm : nodeCode (c.node il ol) = muteCode <;> simp [laneSum, nodeGain, nodeHeard, hr, hm]

theorem laneSum_value (s : State) (c : ConfigSet) (ol : Nat) (l : List Nat) : (laneSum s c ol l).1 =
    (l.map fun il => nodeProduct (tget ⟨0, 0⟩ s.mtx.laneIn il).val (nodeGain s c il ol)).sum := by
  induction l with
  | nil => rfl
  | cons il r ih => rw [laneSum_cons, List.map_cons, List.sum_cons, ih, add_comm]

theorem laneSum_tag (s : State) (c : ConfigSet) (ol : Nat) (l : List Nat) : (laneSum s c ol l).2 =
    (l.filter fun il => nodeHeard s c il ol).foldr (fun il t => tagOR t (tget ⟨0, 0⟩ s.mtx.laneIn il).tag) 0 := by
  induction l with
  | nil => rfl
  | cons il r ih =>
    rw [laneSum_cons, List.filter_cons, ih]
    cases nodeHeard s c il ol <;> rfl

end Sys2Proof.Machine
end

section
/-! SUPPORT. One sample of an output lane (R198–R200, R366): the weir limiter without and with look-ahead, and what is stored. -/

namespace Sys2Proof.Machine

/-! ## The limiter (R199) -/

theorem weirStepSample_disabled {e : Word} {w : WeirRun} (he : bit e 31 = false) (hw : w.releasing = none) (hz : Nat) (sum : Int)
    (tag : BitVec 4) : weirStepSample e hz sum tag w = (sum, tag, w) := by
  simp only [weirStepSample, he, hw, if_true]

theorem weirStepSample_direct {e : Word} (he : bit e 31 = true) (hl : bit e 30 = false) (hz : Nat) (sum : Int) (tag : BitVec 4)
    (w : WeirRun) : weirStepSample e hz sum tag w =
      (weirApply (min (weirNeed e sum) (min 0 (w.gain + weirStep (fld e 26 16) hz))) sum, tag,
        { gain := min (weirNeed e sum) (min 0 (w.gain + weirStep (fld e 26 16) hz)) }) := by
  simp only [weirStepSample, he, hl, Bool.true_eq_false, if_true, if_false]

theorem weirStepSample_ahead {e : Word} (he : bit e 31 = true) (hl : bit e 30 = true) {hz : Nat} {sum : Int} {tag : BitVec 4}
    {w : WeirRun} {x : WeirTap} {xs : List WeirTap} (hp : planTap e (weirStep (fld e 26 16) hz) w.gain w.line sum tag = x :: xs) :
    weirStepSample e hz sum tag w = (weirApply x.plan x.sum, x.tag, { gain := x.plan, line := xs }) := by
  simp only [weirStepSample, he, hl, Bool.true_eq_false, if_false, hp]

/-! ## Look-ahead plans (R199) -/

/-- A waiting sum keeps its value and tag, and its planned gain does not rise. -/
def Lowered (x y : WeirTap) : Prop := y.sum = x.sum ∧ y.tag = x.tag ∧ y.plan ≤ x.plan

theorem lowered_refl (l : List WeirTap) : List.Forall₂ Lowered l l := List.forall₂_same.2 fun _ _ => ⟨rfl, rfl, le_rfl⟩

theorem replan_lowered (n : Nat) (p0 q : Int) (i : Nat) (l : List WeirTap) : List.Forall₂ Lowered l (replan n p0 q i l) := by
  induction l generalizing i with
  | nil => exact .nil
  | cons t ts ih => exact .cons ⟨rfl, rfl, min_le_left ..⟩ (ih (i + 1))

/-- The newest sum of a window that is planned anew stands at the curve's end. -/
theorem replan_concat {n i : Nat} (p0 q : Int) {l : List WeirTap} (h : n ≤ i + l.length) (t : WeirTap) :
    replan n p0 q i (l ++ [t]) = replan n p0 q i l ++ [{ t with plan := min t.plan q }] := by
  induction l generalizing i with
  | nil => simp only [List.nil_append, replan, if_pos (show n ≤ i from h)]
  | cons x xs ih =>
    have hx : n ≤ i + 1 + xs.length := by rw [List.length_cons] at h; omega
    simp only [List.cons_append, replan, ih hx]

/-- The gain that the newest sum may have before what it needs: one step above the last one planned, at most 0 dB. -/
def planRise (step gain : Int) (line : List WeirTap) : Int :=
  min 0 ((match line.getLast? with | some y => y.plan | none => gain) + step)

/-- A sum that enters takes what it needs where that is less, and may lower the plans of those that wait. -/
theorem planTap_eq (e : Word) (step gain sum : Int) (line : List WeirTap) (tag : BitVec 4) :
    ∃ l, List.Forall₂ Lowered line l ∧
      planTap e step gain line sum tag = l ++ [⟨sum, tag, min (planRise step gain line) (weirNeed e sum)⟩] := by
  by_cases hq : weirNeed e sum < planRise step gain line
  · exact ⟨_, replan_lowered .., (if_pos hq).trans (replan_concat _ _ (by simp) _)⟩
  · exact ⟨line, lowered_refl line, (if_neg hq).trans (by rw [min_eq_left (not_lt.1 hq)]; rfl)⟩

theorem Lowered.getD {l l' : List WeirTap} (h : List.Forall₂ Lowered l l') {i : Nat} (hi : i < l.length) (d : WeirTap) :
    Lowered (l.getD i d) (l'.getD i d) := by
  have hi' : i < l'.length := h.length_eq ▸ hi
  rw [List.getD_eq_getElem _ _ hi, List.getD_eq_getElem _ _ hi']
  exact h.get hi hi'

/-! ## The sample (R190, R198, R200) -/

@[simp] theorem stamp_stamp (s : State) (t : BitVec 4) : stamp s (stamp s t) = stamp s t := by
  have h : epo s &&& 0b1110#4 = 0#4 := by
    unfold epo
    rcases Nat.mod_two_eq_zero_or_one s.sets.epoch with h | h <;> rw [h] <;> rfl
  unfold stamp
  generalize epo s = e at h
  revert h t e
  decide

/-- A sum that saturates to Q9.31 first saturates to the same Q1.31 code. -/
theorem satQ31_clampSum (v : Int) : satQ31 (clampInt (-(2 ^ 39)) (2 ^ 39 - 1) v) = satQ31 v := by
  unfold satQ31 clampInt
  split_ifs <;> omega

/-- The sum of an output lane after its limiter: value, tag and the limiter. -/
def laneLimited (ol hz : Nat) (s : State) : Int × BitVec 4 × WeirRun :=
  weirStepSample ((heard s).weir ol) hz (clampInt (-(2 ^ 39)) (2 ^ 39 - 1) (laneSum s (heard s) ol (List.range 128)).1)
    (stamp s (laneSum s (heard s) ol (List.range 128)).2) (tget {} s.mtx.weirs ol)

/-- The sample of an output lane, saturated to Q1.31. -/
def laneResult (ol hz : Nat) (s : State) : Sample :=
  ⟨intWord (satQ31 (laneLimited ol hz s).1), stamp s (laneLimited ol hz s).2.1⟩

/-- A sample whose write meets no error: it is stored, the ramps into its lane go on by one, and its limiter stands as it is left. -/
theorem matrixSample_stored {s : State} (hr : upset s (.request 6) = false) (hd : upset s (.data 6) = false) (ol hz : Nat) :
    (matrixSample ol hz s).1 = laneResult ol hz s ∧
    (matrixSample ol hz s).2.mtx = { s.mtx with
      ramps := stepRamps ol s.mtx.ramps
      weirs := tput {} s.mtx.weirs ol (laneLimited ol hz s).2.2
      laneOut := tput ⟨0, 0⟩ s.mtx.laneOut ol (laneResult ol hz s)
      lanePos := tput 0 s.mtx.lanePos (128 + ol) ((tget 0 s.mtx.lanePos (128 + ol) + 1) % 256) } := by
  have hkept (m : Matrix) (x : Sample) : laneWriteLost (128 + ol) x { s with mtx := m } = (x, { s with mtx := m }) := by
    have hr' : upset { s with mtx := m } (.request 6) = false := hr
    have hd' : upset { s with mtx := m } (.data 6) = false := hd
    simp only [laneWriteLost, hr', hd', Bool.false_eq_true, if_false]
  have hlane : ¬ 128 + ol < 128 := by omega
  simp only [matrixSample, hkept, feedDet, writeLane, if_neg hlane, Nat.add_sub_cancel_left]
  exact ⟨rfl, rfl⟩

theorem matrixSample_dataLost {s : State} (hr : upset s (.request 6) = false) (hd : upset s (.data 6) = true) (ol hz : Nat) :
    (matrixSample ol hz s).1 = ⟨0, stamp s tSET⟩ := by
  have hlost (m : Matrix) (x : Sample) : (laneWriteLost (128 + ol) x { s with mtx := m }).1 = ⟨0, stamp s tSET⟩ := by
    have hr' : upset { s with mtx := m } (.request 6) = false := hr
    have hd' : upset { s with mtx := m } (.data 6) = true := hd
    simp only [laneWriteLost, hr', hd', Bool.false_eq_true, if_false, if_true]
    rfl
  exact hlost _ _

theorem tget_stepRamps (ol : Nat) (r : Tab (Option NodeRamp)) (n : Nat) : tget none (stepRamps ol r) n =
    if n % 128 = ol then (tget none r n).map (fun q => { q with j := min q.len (q.j + 1) }) else tget none r n := by
  induction r with
  | nil => exact (ite_self none).symm
  | cons e r ih =>
    obtain ⟨k, v⟩ := e
    have hcons : stepRamps ol ((k, v) :: r) =
        (k, if k % 128 = ol then v.map (fun q => { q with j := min q.len (q.j + 1) }) else v) :: stepRamps ol r := by
      by_cases hk : k % 128 = ol <;> simp [stepRamps, hk]
    rw [hcons, tget, tget, ih]
    rcases Nat.lt_trichotomy n k with h | rfl | h
    · simp [h, h.ne]
    · simp
    · simp [h.ne', Nat.not_lt.2 h.le]

end Sys2Proof.Machine
end

section
/-! SUPPORT. The matrix commands on SHADOW (R217–R220): the nodes of a span of input lanes, and items written by a command. -/

namespace Sys2Proof.Machine

theorem onShadow_congr {f g : ConfigSet → ConfigSet} {s : State} (h : f (shadow s) = g (shadow s)) : onShadow f s = onShadow g s := by
  cases hb : s.sets.selB <;> simp only [shadow, hb, if_true, Bool.false_eq_true, if_false] at h <;>
    simp only [onShadow, hb, if_true, Bool.false_eq_true, if_false, h]

/-- Fields wider than the field take their low bits. -/
theorem setFld_mod (w : Word) (hi lo v : Nat) : setFld w hi lo (v % 2 ^ (hi + 1 - lo)) = setFld w hi lo v := by
  simp only [setFld, Nat.mod_mod]

/-- The nodes of `n` input lanes from `i0` into output lane `o` take each its own change; the other nodes stand. -/
theorem tget_nodeSpan (g : Nat → Word → Word) (t : Tab Word) {i0 o n il ol : Nat} (ho : o < 128) (hol : ol < 128) :
    tget dNode ((List.range n).foldl (fun t j => tmod dNode t (128 * (i0 + j) + o) (g j)) t) (128 * il + ol) =
      if ol = o ∧ i0 ≤ il ∧ il < i0 + n then g (il - i0) (tget dNode t (128 * il + ol)) else tget dNode t (128 * il + ol) := by
  have hkeys : (List.range n).Pairwise (fun i j => 128 * (i0 + i) + o ≠ 128 * (i0 + j) + o) :=
    List.nodup_range.imp fun hne => by omega
  obtain ⟨hin, hout⟩ := tget_foldl_updates (fun j => updates_tmod dNode (128 * (i0 + j) + o) (g j)) hkeys t
  split
  · next h =>
    have hk : 128 * il + ol = 128 * (i0 + (il - i0)) + o := by omega
    rw [hk]
    exact hin _ (List.mem_range.2 (by omega))
  · next h => exact hout _ fun j hj => by rw [List.mem_range] at hj; omega

theorem fld_lane_lt (w : Word) : fld w 6 0 < 128 := fld_lt w 6 0

/-- GAIN writes the code of each node that it names (R218). -/
theorem gainCodes_node (a : CmdArgs) (c : ConfigSet) {il ol : Nat} (hol : ol < 128) : (writeMtx 0x41 a c).node il ol =
    if ol = fld (opnd a 0) 6 0 ∧ fld (opnd a 0) 22 16 ≤ il ∧ il < fld (opnd a 0) 22 16 + fld (opnd a 0) 15 8
    then setFld (c.node il ol) 15 0 (let j := il - fld (opnd a 0) 22 16
      if j % 2 = 0 then fld (opnd a (1 + j / 2)) 31 16 else fld (opnd a (1 + j / 2)) 15 0)
    else c.node il ol := by
  have hcode (w : Word) (v : Nat) : setFld w 15 0 (BitVec.ofNat 16 v).toNat = setFld w 15 0 v := setFld_mod w 15 0 v
  have hnodes : (writeMtx 0x41 a c).nodes = (List.range (fld (opnd a 0) 15 8)).foldl (fun t j =>
      tmod dNode t (128 * (fld (opnd a 0) 22 16 + j) + fld (opnd a 0) 6 0) (fun e => setFld e 15 0
        (if j % 2 = 0 then fld (opnd a (1 + j / 2)) 31 16 else fld (opnd a (1 + j / 2)) 15 0))) c.nodes := by
    change (routeTargets 0x41 a).foldl _ c.nodes = _
    rw [routeTargets, if_neg (by decide), List.foldl_map]
    simp only [hcode]
  rw [ConfigSet.node, hnodes]
  exact tget_nodeSpan _ c.nodes (fld_lane_lt _) hol

/-- RAMP writes the shape and the time of each node that it names (R219). -/
theorem rampFields_node (a : CmdArgs) (c : ConfigSet) {il ol : Nat} (hol : ol < 128) : (writeMtx 0x42 a c).node il ol =
    if ol = fld (opnd a 0) 6 0 ∧ fld (opnd a 0) 22 16 ≤ il ∧ il < fld (opnd a 0) 22 16 + fld (opnd a 0) 15 8
    then setFld (setFld (c.node il ol) 20 20 (fld (opnd a 1) 4 4)) 19 16 (fld (opnd a 1) 3 0)
    else c.node il ol := by
  have hshape (w : Word) : setFld w 20 20 ((opnd a 1).toNat / 16) = setFld w 20 20 (fld (opnd a 1) 4 4) := by
    rw [fld, Nat.shiftRight_eq_div_pow]
    exact (setFld_mod w 20 20 ((opnd a 1).toNat / 16)).symm
  have htime : (opnd a 1).toNat % 16 = fld (opnd a 1) 3 0 := rfl
  have hnodes : (writeMtx 0x42 a c).nodes = (List.range (fld (opnd a 0) 15 8)).foldl (fun t j =>
      tmod dNode t (128 * (fld (opnd a 0) 22 16 + j) + fld (opnd a 0) 6 0) (fun e =>
        setFld (setFld e 20 20 (fld (opnd a 1) 4 4)) 19 16 (fld (opnd a 1) 3 0))) c.nodes := by
    simp only [writeMtx, hshape, htime]
  rw [ConfigSet.node, hnodes]
  exact tget_nodeSpan _ c.nodes (fld_lane_lt _) hol

/-- A command that writes nodes of SHADOW alone. -/
theorem shadow_nodesOnly {f : ConfigSet → ConfigSet} (hf : ∀ c, f c = { c with nodes := (f c).nodes }) (s : State) :
    onShadow f s = onShadow (fun c => { c with nodes := (shadow (onShadow f s)).nodes }) s :=
  onShadow_congr (by rw [shadow_onShadow]; exact hf _)

theorem shadow_shadowReads (op : Nat) (a : CmdArgs) (s : State) : shadow (shadowReads op a s) = shadow s := rfl

end Sys2Proof.Machine
end

section
/-! PROOF. The confluence matrix (O6). -/

namespace Sys2Proof.Machine

/-- The gains of some codes (R192). -/
theorem codeGain_examples : codeGain 0x0708 = 0x7F17AF ∧ codeGain 0x0000 = 0x100000 ∧ codeGain 0xFDA8 = 0x804DD ∧
    codeGain 0xFC18 = 0x50F45 ∧ codeGain 0xD120 = 1 ∧ codeGain 0x8000 = 0 := by
  decide +kernel

section
variable {a : CmdArgs} {s : State}

theorem route_writes (h : Admitted rowRoute a s) (hi : a.imm = false) (h0 : resv (opnd a 0) 0x7F007F = false)
    (h1 : resv (opnd a 1) 0xFFFF = false) (hc : codeOk ((opnd a 1).setWidth 16) = true) :
    exec (.route a) s = .next (answered 0x40 .ok [] (onShadow (writeMtx 0x40 a) (shadowReads 0x40 a s))) := by
  refine execRow_writeShadow (rate := fun s => outRate (active s) (fld (opnd a 0) 6 0)) h hi ⟨rfl, rfl, rfl⟩ (checks_append ..) ?_
  simpa [hi, routeTargets, hc] using And.intro h0 h1

theorem gain_writes (h : Admitted rowGain a s) (hi : a.imm = false) (h0 : resv (opnd a 0) 0x7FFF7F = false)
    (hodd : fld (opnd a 0) 15 8 % 2 = 1 → fld (opnd a (1 + fld (opnd a 0) 15 8 / 2)) 15 0 = 0) (hs : spanBad (opnd a 0) = false)
    (hc : ∀ x ∈ routeTargets 0x41 a, codeOk x.2 = true) :
    exec (.gain a) s = .next (answered 0x41 .ok [] (onShadow (writeMtx 0x41 a) (shadowReads 0x41 a s))) := by
  have hcodes : (routeTargets 0x41 a).any (fun x => !codeOk x.2) = false := by
    simpa using fun n c hx => hc (n, c) hx
  have hodd' : (fld (opnd a 0) 15 8 % 2 == 1 && fld (opnd a (1 + fld (opnd a 0) 15 8 / 2)) 15 0 != 0) = false := by
    simpa using hodd
  refine execRow_writeShadow (rate := fun s => outRate (active s) (fld (opnd a 0) 6 0)) h hi ⟨rfl, rfl, rfl⟩ (checks_append ..) ?_
  simp only [h0, hodd', hs, hcodes, hi]
  simp

theorem ramp_writes (h : Admitted rowRamp a s) (hi : a.imm = false) (h0 : resv (opnd a 0) 0x7FFF7F = false)
    (h1 : resv (opnd a 1) 0x1F = false) (hs : spanBad (opnd a 0) = false) :
    exec (.ramp a) s = .next (answered 0x42 .ok [] (onShadow (writeMtx 0x42 a) (shadowReads 0x42 a s))) :=
  execRow_writeShadow (rate := fun s => outRate (active s) (fld (opnd a 0) 6 0)) h hi ⟨rfl, rfl, rfl⟩ rfl
    (by simpa [hs] using And.intro h0 h1)

theorem weir_writes (h : Admitted rowWeir a s) (hi : a.imm = false) (h0 : resv (opnd a 0) 0x7F = false)
    (h1 : resv (opnd a 1) 0xC7FF00FF = false) (hmin : 10 ≤ fld (opnd a 1) 26 16) (hmax : fld (opnd a 1) 26 16 ≤ 2000)
    (hc : fld (opnd a 1) 7 0 ≤ 120) (hl : bit (opnd a 1) 30 = true → bit (opnd a 1) 31 = true) :
    exec (.weir a) s = .next (answered 0x43 .ok [] (onShadow (writeMtx 0x43 a) (shadowReads 0x43 a s))) := by
  refine execRow_writeShadow (rate := fun s => outRate (active s) (fld (opnd a 0) 6 0)) h hi ⟨rfl, rfl, rfl⟩ rfl ?_
  simpa [hi, hmin, hmax, hc] using And.intro (And.intro h0 h1) hl

end

/-- Settles O6: gains and ramps, the sum and its limiter, the four commands and a ramp's end. -/
theorem matrixItems : Obligations.MatrixItems := by
  unfold Obligations.MatrixItems
  refine ⟨codeOk_iff, codeGain_examples, fun c h => codeGain_of_ne_mute h, fun s old t e n N h ht hN => ?_, fun r j => ?_,
    fun s => heard_of_none_taken, fun s k h => ?_, fun s c ol => laneSum_value .., fun s c ol => laneSum_tag ..,
    fun s ol hz _ he hw hr hd => ?_, fun s ol hz hr hd => matrixSample_dataLost hr hd ol hz,
    fun s ol hz e sum g hr hd he h31 h30 hsum hg => ?_, fun s ol hz e sum w x xs hr hd he h31 h30 hw hsum hp => ?_,
    fun e step gain sum line tag => ?_, fun a s h hi h0 h1 hc => route_writes h hi h0 h1 hc, fun a s h hi h0 hodd hs hc => ?_,
    fun a s h hi h0 h1 hs => ?_, fun a s h hi h0 h1 hmin hmax hc hl => weir_writes h hi h0 h1 hmin hmax hc hl,
    fun s il ol r h hr => ?_⟩
  · subst ht hN
    exact newRamp_settled h old e
  · exact ⟨rampGain_done, rampGain_rcos, fun d => rampGain_decibels⟩
  · exact ⟨fun il hil ol hol hk => heard_node_taken h hil hol hk, fun ol hol hk => heard_weir_taken h hol hk⟩
  · obtain ⟨hx, hm⟩ := matrixSample_stored hr hd ol hz
    have hres : laneResult ol hz s = ⟨intWord (satQ31 (laneSum s (heard s) ol (List.range 128)).1),
        stamp s (laneSum s (heard s) ol (List.range 128)).2⟩ := by
      simp only [laneResult, laneLimited, weirStepSample_disabled he hw, satQ31_clampSum, stamp_stamp]
    refine ⟨hx.trans hres, ?_, fun n => ?_⟩
    · rw [hx, hm]; exact tget_tput_same ..
    · rw [hm]; exact tget_stepRamps ..
  · obtain ⟨hx, hm⟩ := matrixSample_stored hr hd ol hz
    subst he hsum
    have hlim := weirStepSample_direct h31 h30 hz (clampInt (-(2 ^ 39)) (2 ^ 39 - 1) (laneSum s (heard s) ol (List.range 128)).1)
      (stamp s (laneSum s (heard s) ol (List.range 128)).2) (tget {} s.mtx.weirs ol)
    rw [← hg] at hlim
    refine ⟨?_, ?_⟩
    · rw [hx, laneResult, laneLimited, hlim, stamp_stamp]
    · rw [hm, laneLimited, hlim]; exact tget_tput_same ..
  · obtain ⟨hx, hm⟩ := matrixSample_stored hr hd ol hz
    subst he hsum hw
    have hlim := weirStepSample_ahead h31 h30 hp
    refine ⟨?_, ?_⟩
    · rw [hx, laneResult, laneLimited, hlim]
    · rw [hm, laneLimited, hlim]; exact tget_tput_same ..
  · obtain ⟨l, hlow, heq⟩ := planTap_eq e step gain sum line tag
    dsimp only
    rw [heq]
    refine ⟨by rw [List.length_append, hlow.length_eq]; rfl, fun x hx => ?_, fun i hi => ?_⟩
    · rw [List.getLast?_concat, Option.some.injEq] at hx
      subst hx
      exact ⟨rfl, rfl, min_le_right .., min_le_left ..⟩
    · rw [List.getD_append _ _ _ _ (hlow.length_eq ▸ hi)]
      exact Lowered.getD hlow hi _
  · refine ⟨_, gain_writes h hi h0 hodd hs hc, shadow_nodesOnly (fun _ => rfl) _, fun il _ ol hol => ?_⟩
    rw [shadow_onShadow, shadow_shadowReads]
    exact gainCodes_node a (shadow s) hol
  · refine ⟨_, ramp_writes h hi h0 h1 hs, shadow_nodesOnly (fun _ => rfl) _, fun il _ ol hol => ?_⟩
    rw [shadow_onShadow, shadow_shadowReads]
    exact rampFields_node a (shadow s) hol
  · exact ⟨_, (congrArg (ev s) (nodeRampEnd_done h hr)).trans (ev_of_kept rfl rfl), rfl, fun n => tget_tput ..⟩

end Sys2Proof.Machine
end

section
/-! PROOF. The millrace (O7): its two commands, and the ends of its ramps. -/

namespace Sys2Proof.Machine

/-! ## The commands (R221, R222) -/

section
variable {a : CmdArgs} {s : State}

theorem mrTap_writes (h : Admitted rowMrTap a s) (hi : a.imm = false) (h0 : resv (opnd a 0) 0x707 = false)
    (h1 : resv (opnd a 1) 0x801F00FF = false) (hc : tapCodeOk ((opnd a 1).setWidth 8) = true) :
    exec (.mrTap a) s = .next (answered 0x44 .ok [] (onShadow (writeMr 0x44 a) (shadowReads 0x44 a s))) :=
  execRow_writeShadow (rate := fun s => some (if fam44 s then 10 else 3)) h hi ⟨rfl, rfl, rfl⟩ rfl
    (by simpa [hc] using And.intro h0 h1)

theorem mrOut_writes (h : Admitted rowMrOut a s) (hi : a.imm = false) (h0 : resv (opnd a 0) 7 = false)
    (h1 : resv (opnd a 1) 0x00FFFFFF = false) (h2 : resv (opnd a 2) 0x800000FF = false) :
    exec (.mrOut a) s = .next (answered 0x45 .ok [] (onShadow (writeMr 0x45 a) (shadowReads 0x45 a s))) :=
  execRow_writeShadow (rate := fun _ => none) h hi ⟨rfl, rfl, rfl⟩ rfl (by simpa using And.intro (And.intro h0 h1) h2)

end

/-- MR.OUT writes the two words of its bus; those of the other buses stand. -/
theorem outMap_writeMr (a : CmdArgs) (c : ConfigSet) (bus : Nat) {w : Nat} (hw : w < 2) : (writeMr 0x45 a c).outMap bus w =
    if bus = fld (opnd a 0) 2 0 then opnd a (1 + w) else c.outMap bus w := by
  have hmaps : (writeMr 0x45 a c).outMaps =
      tput 0 (tput 0 c.outMaps (2 * fld (opnd a 0) 2 0) (opnd a 1)) (2 * fld (opnd a 0) 2 0 + 1) (opnd a 2) := rfl
  simp only [ConfigSet.outMap, hmaps, tget_tput]
  by_cases hb : bus = fld (opnd a 0) 2 0
  · subst hb
    interval_cases w <;> simp
  · rw [if_neg (by omega), if_neg (by omega), if_neg hb]

/-! ## The ends of ramps (R208, R209) -/

section
variable {s : State} {bus k : Nat} (hk : k < 8) (hr : (tapRun s (8 * bus + k)).ramp = true)
  (ht : 4096 ≤ mrSamples s (tapRun s (8 * bus + k)).since)
include hk hr ht

theorem tapRamp_due :
    ¬ ((tapRun s (8 * bus + k)).ramp = false ∨ 8 ≤ k ∨ mrSamples s (tapRun s (8 * bus + k)).since < tapRampLen) := by
  simp [hr, hk, tapRampLen, ht]

/-- A tap that stays on its channel holds its target. -/
theorem tapRampEnd_holds (hn : (tapRun s (8 * bus + k)).next = none) : exec (.tapRampEnd (.tap bus k)) s =
    .next (onTap (8 * bus + k) (fun r => { r with ramp := false, src := 0, since := 0 }) s) := by
  have hend : tapRampEnd (.tap bus k) s = onTap (8 * bus + k) (fun r => { r with ramp := false, src := 0, since := 0 }) s := by
    simp only [tapRampEnd, if_neg (tapRamp_due hk hr ht), hn]
  exact (congrArg (ev s) hend).trans (ev_of_kept rfl rfl)

/-- A tap that has left its channel ramps in on the next one. -/
theorem tapRampEnd_rampsIn {c : Nat} (hn : (tapRun s (8 * bus + k)).next = some c) : exec (.tapRampEnd (.tap bus k)) s =
    .next (onTap (8 * bus + k) (fun r => tapIn s c r.code) s) := by
  have hend : tapRampEnd (.tap bus k) s = onTap (8 * bus + k) (fun r => tapIn s c r.code) s := by
    simp only [tapRampEnd, if_neg (tapRamp_due hk hr ht), hn]
  exact (congrArg (ev s) hend).trans (ev_of_kept rfl rfl)

end

/-- A level whose ramp has passed its 4,096 samples is done. -/
theorem levelDone_some {s : State} {l : LevelRamp} (h : 4096 ≤ mrSamples s l.since) : levelDone s (some l) = true := decide_eq_true h

/-- Settles O7: MR.TAP and MR.OUT write SHADOW, and the three kinds of ramp end after their samples. -/
theorem millraceItems : Obligations.MillraceItems := by
  unfold Obligations.MillraceItems
  refine ⟨fun a s h hi h0 h1 hc => mrTap_writes h hi h0 h1 hc, fun a s h hi h0 h1 h2 => ?_,
    fun s bus k hk hr hn ht => tapRampEnd_holds hk hr ht hn, fun s bus k c hk hr hn ht => tapRampEnd_rampsIn hk hr ht hn,
    fun s bus d l hd hl ht => ?_, fun s d l hl ht => ?_⟩
  · refine ⟨_, mrOut_writes h hi h0 h1 h2, onShadow_congr ?_, fun bus w hw => ?_⟩
    · rw [shadow_onShadow]; rfl
    · rw [shadow_onShadow, shadow_shadowReads]
      exact outMap_writeMr a (shadow s) bus hw
  · have hend : d < 32 ∧ levelDone s (tget none s.mr.assignRamp (64 * bus + d)) = true := ⟨hd, by rw [hl]; exact levelDone_some ht⟩
    exact (congrArg (ev s) (if_pos hend)).trans (ev_of_kept rfl rfl)
  · have hend : levelDone s (tget none s.mr.blockRamp d) = true := by rw [hl]; exact levelDone_some ht
    exact (congrArg (ev s) (if_pos hend)).trans (ev_of_kept rfl rfl)

end Sys2Proof.Machine
end

section
/-! PROOF. The emergency mute (O13): classifications held and outputs clamped by an assertion, and PANIC.CFG in its two forms. -/

namespace Sys2Proof.Machine

/-! ## Classifications (R289, Table 8.10) -/

/-- Only the jacks and the outputs differ. -/
def JacksOutsOnly (s t : State) : Prop := t = { s with jack := { s.jack with run := t.jack.run }, outs := t.outs }

theorem JacksOutsOnly.trans {s t u : State} (h : JacksOutsOnly s t) (h' : JacksOutsOnly t u) : JacksOutsOnly s u := by
  unfold JacksOutsOnly at *; rw [h', h]

theorem OutsOnly.jack {s t : State} (h : OutsOnly s t) : t.jack = s.jack := by rw [h]
theorem OutsOnly.panic {s t : State} (h : OutsOnly s t) : t.panic = s.panic := by rw [h]
theorem JacksOutsOnly.panic {s t : State} (h : JacksOutsOnly s t) : t.panic = s.panic := by rw [h]

theorem OutsOnly.jacksOutsOnly {s t : State} (h : OutsOnly s t) : JacksOutsOnly s t := by
  rw [OutsOnly] at h; rw [JacksOutsOnly, h]

/-- A classification that runs. -/
def classifies (j : JackRun) : Bool := match j.step with | .tip | .micA | .micB => true | .none | .waiting => false

/-- A jack whose classification waits to run anew. -/
def classWaits (j : JackRun) : JackRun := { j with step := .waiting, orient := .idle, dropped := false }

/-- The probe's outputs of jack `n` clamp. -/
def probeClamped (n : Nat) (s : State) : State :=
  [24 + 2 * n, 25 + 2 * n].foldl (fun s d => if (dac s d).phase = .probing then clampNow d s else s) s

theorem probeClamped_outsOnly (n : Nat) (s : State) : OutsOnly s (probeClamped n s) :=
  .foldl (fun s d => by
    split
    · exact clampNow_outsOnly d s
    · exact .refl s) _ s

theorem abandonClass_eq (n : Nat) (s : State) : abandonClass n s =
    onJack n (fun j => { j with step := .none, dropped := false, orient := .idle }) (probeClamped n s) := rfl

/-- One jack of `holdClass`. -/
def holdJack (s : State) (n : Nat) : State :=
  match (jackRun s n).step with
  | .tip | .micA | .micB => onJack n (fun j => { j with step := .waiting }) (abandonClass n s)
  | .none | .waiting => s

theorem holdClass_eq (s : State) : holdClass s = (List.range 4).foldl holdJack s := rfl

theorem holdJack_idle {s : State} {n : Nat} (h : classifies (jackRun s n) = false) : holdJack s n = s := by
  unfold holdJack
  unfold classifies at h
  cases hs : (jackRun s n).step <;> simp [hs] at h ⊢

theorem holdJack_running {s : State} {n : Nat} (h : classifies (jackRun s n) = true) :
    holdJack s n = onJack n (fun j => { j with step := .waiting }) (abandonClass n s) := by
  unfold holdJack
  unfold classifies at h
  cases hs : (jackRun s n).step <;> simp [hs] at h ⊢

theorem holdJack_jacksOutsOnly (s : State) (n : Nat) : JacksOutsOnly s (holdJack s n) := by
  cases h : classifies (jackRun s n)
  · rw [holdJack_idle h]; rfl
  · rw [holdJack_running h]
    exact (probeClamped_outsOnly n s).jacksOutsOnly.trans rfl

theorem jackRun_onJack (n k : Nat) (f : JackRun → JackRun) (s : State) :
    jackRun (onJack n f s) k = if k = n then f (jackRun s k) else jackRun s k := by
  split
  · next h => rw [h, jackRun_onJack_same]
  · next h => exact jackRun_onJack_other n k f s h

/-- A jack's classification waits anew where it runs. -/
def heldJack (j : JackRun) : JackRun := if classifies j then classWaits j else j

theorem jackRun_holdJack (s : State) (n k : Nat) :
    jackRun (holdJack s n) k = if k = n then heldJack (jackRun s k) else jackRun s k := by
  cases h : classifies (jackRun s n)
  · rw [holdJack_idle h]
    split
    · next hk => subst hk; rw [heldJack, h]; rfl
    · rfl
  · have hrun : jackRun (probeClamped n s) k = jackRun s k := by rw [jackRun, (probeClamped_outsOnly n s).jack]; rfl
    rw [holdJack_running h, jackRun_onJack, abandonClass_eq, jackRun_onJack, hrun]
    split
    · next hk => subst hk; rw [heldJack, h]; rfl
    · rfl

theorem jackRun_holdClass (s : State) (k : Nat) :
    jackRun (holdClass s) k = if k < 4 then heldJack (jackRun s k) else jackRun s k := by
  rw [holdClass_eq]
  refine (entry_foldl (π := jackRun) (I := fun _ => True) (g := fun _ => heldJack) (fun _ _ h => h)
    (fun t n k _ => jackRun_holdJack t n k) (fun _ j => ?_) (List.range 4) trivial k).trans (by simp only [List.mem_range])
  cases h : classifies j <;> simp only [heldJack, h, if_true, Bool.false_eq_true, if_false]
  rfl

theorem holdClass_jacksOutsOnly (s : State) : JacksOutsOnly s (holdClass s) :=
  foldl_related (R := JacksOutsOnly) (fun _ => rfl) (fun _ _ _ => JacksOutsOnly.trans) holdJack_jacksOutsOnly _ s

theorem holdClass_idle {s : State} (h : ∀ n < 4, classifies (jackRun s n) = false) : holdClass s = s := by
  rw [holdClass_eq]
  have hfix (l : List Nat) (hl : ∀ n ∈ l, n < 4) : l.foldl holdJack s = s := by
    induction l with
    | nil => rfl
    | cons n l ih =>
      rw [List.foldl_cons, holdJack_idle (h n (hl n (List.mem_cons_self ..)))]
      exact ih fun m hm => hl m (List.mem_cons_of_mem _ hm)
  exact hfix _ fun n hn => List.mem_range.1 hn

/-! ## The outputs (R214) -/

/-- An output as an assertion clamps it. -/
def clampedAt (t : Nat) (x : Dac) : Dac :=
  { x with phase := .clamped, clamp := true, g := .zero, level := 0, since := if x.phase = .clamped then x.since else t }

theorem dac_clampNow (d k : Nat) (s : State) :
    dac (clampNow d s) k = if k = d then clampedAt (now s) (dac s k) else dac s k := by
  split
  · next h => rw [h]; exact dac_onDac_same ..
  · next h => exact dac_onDac_other _ _ _ _ h

theorem dac_clampAll (s : State) {d : Nat} (hd : d < 34) : dac (clampAll s) d = clampedAt (now s) (dac s d) := by
  have hidem (x : Dac) : clampedAt (now s) (clampedAt (now s) x) = clampedAt (now s) x := by simp [clampedAt]
  have hall := entry_foldl (π := dac) (I := fun t => now t = now s) (f := fun t d => clampNow d t) (g := fun _ => clampedAt (now s))
    (fun _ _ h => h) (fun t n k ht => by rw [← ht]; exact dac_clampNow n k t) (fun _ x => hidem x) (List.range 34) rfl d
  rw [clampAll, hall, if_pos (List.mem_range.2 hd)]

theorem vcmFollow_outsOnly (s : State) : OutsOnly s (vcmFollow s) := by
  unfold vcmFollow
  split
  · split <;> rfl
  · rfl

theorem dac_vcmFollow (s : State) (d : Nat) : dac (vcmFollow s) d = dac s d := by
  unfold vcmFollow
  split
  · split <;> rfl
  · rfl

/-! ## PANIC_ASSERT (R214, Table 6.12) -/

/-- What an assertion leaves before the VCM node follows. -/
def panicked (s : State) : State :=
  raiseIrq irqPanic (clampAll { holdClass s with panic := { s.panic with latch := true, level := true } })

theorem panicked_frame (s : State) : panicked s = { s with
    panic := { s.panic with latch := true, level := true }, jack := (panicked s).jack, outs := (panicked s).outs
    irq := { s.irq with pend := setBit s.irq.pend irqPanic true } } := by
  have hc := clampAll_outsOnly { holdClass s with panic := { s.panic with latch := true, level := true } }
  have hh := holdClass_jacksOutsOnly s
  unfold panicked
  rw [OutsOnly] at hc
  rw [JacksOutsOnly] at hh
  rw [hc, hh]
  rfl

theorem dac_raiseIrq (i : Nat) (s : State) (d : Nat) : dac (raiseIrq i s) d = dac s d := rfl

theorem dac_panicked (s : State) {d : Nat} (hd : d < 34) :
    dac (panicked s) d = clampedAt (now (holdClass s)) (dac (holdClass s) d) := by
  rw [panicked, dac_raiseIrq, dac_clampAll _ hd]
  rfl

theorem panicAssert_panics {s : State} (he : bit s.panic.cfg 31 = true) (hv : s.power.st ≠ .off) (hr : s.power.st ≠ .reset)
    (hi : s.power.iovddA = true) : panicAssert s = panicked s := by
  have hon : vaonOn s = true := by cases hs : s.power.st <;> simp [vaonOn, hs] at hv ⊢
  have hp : (holdClass s).panic = s.panic := (holdClass_jacksOutsOnly s).panic
  have hall : panicEn s = true ∧ vaonOn s = true ∧ s.power.iovddA = true ∧ s.power.st ≠ .reset := ⟨he, hon, hi, hr⟩
  simp only [panicAssert, if_pos hall, hp]
  rfl

theorem panicAssert_ignored {s : State}
    (h : bit s.panic.cfg 31 = false ∨ s.power.iovddA = false ∨ s.power.st = .reset ∨ s.power.st = .off) : panicAssert s = s := by
  refine if_neg ?_
  rintro ⟨he, hv, hi, hr⟩
  rcases h with h | h | h | h
  · exact Bool.false_ne_true (h.symm.trans he)
  · exact Bool.false_ne_true (h.symm.trans hi)
  · exact hr h
  · simp [vaonOn, h] at hv

theorem exec_panicAssert_panics {s : State} (he : bit s.panic.cfg 31 = true) (hv : s.power.st ≠ .off) (hr : s.power.st ≠ .reset)
    (hi : s.power.iovddA = true) : exec .panicAssert s = .next (vcmFollow (panicked s)) := by
  have hf := vcmFollow_outsOnly (panicked s)
  rw [OutsOnly] at hf
  refine (congrArg (fun t => ev s (vcmFollow t)) (panicAssert_panics he hv hr hi)).trans (ev_of_kept ?_ ?_)
  · rw [hf, panicked_frame]
  · rw [hf, panicked_frame]

/-! ## PANIC.CFG (R223, Table 6.13) -/

/-- The input sampled: one that was asserted stays so unless a free bit says otherwise (log entry 24). -/
theorem panicSample_asserted {s : State} (h : s.panic.level = true) : panicSample s =
    { s with panic := { s.panic with level := bit (Config.freeWord s.free) 0 }, free := s.free + 1 } := by
  simp only [panicSample, h, if_true, drawWord]

theorem panicSample_clear {s : State} (h : s.panic.level = false) : panicSample s = s := by
  simp only [panicSample, h, Bool.false_eq_true, if_false]

/-- Sampling the input changes its level, and draws at most one free value. -/
theorem panicSample_frame (s : State) : panicSample s =
    { s with panic := { s.panic with level := s.panic.level && bit (Config.freeWord s.free) 0 }, free := (panicSample s).free } := by
  cases h : s.panic.level
  · rw [panicSample_clear h]
    rw [Bool.false_and, ← h]
  · rw [panicSample_asserted h]
    rfl

theorem bit_panicWord (s : State) : bit (panicWord s) 31 = s.panic.latch ∧ bit (panicWord s) 30 = s.panic.level := by
  unfold panicWord
  cases s.panic.latch <;> cases s.panic.level <;> decide

theorem panicSample_fresh (s : State) : panicSample (fresh s) = fresh (panicSample s) := by
  unfold panicSample
  split
  · next h => rw [if_pos (show s.panic.level = true from h)]; rfl
  · next h => rw [if_neg (show ¬ s.panic.level = true from h)]

/-- The setting written, and the input that it chooses sampled. -/
def panicSet (a : CmdArgs) (s : State) : State :=
  panicSample { s with panic := { s.panic with cfg := opnd a 0, level := bit (opnd a 0) 31 } }

theorem panicSet_fresh (a : CmdArgs) (s : State) : panicSet a (fresh s) = fresh (panicSet a s) :=
  panicSample_fresh { s with panic := { s.panic with cfg := opnd a 0, level := bit (opnd a 0) 31 } }

theorem panicSet_frame (a : CmdArgs) (s : State) : panicSet a s = { s with
    panic := { s.panic with cfg := opnd a 0, level := bit (opnd a 0) 31 && bit (Config.freeWord s.free) 0 }
    free := (panicSet a s).free } := panicSample_frame _

/-- The release's own part after its check (R223). -/
def panicReleased (s : State) : State := startAll { s with panic := { s.panic with latch := false } }

theorem panicReleased_panic (s : State) : (panicReleased s).panic = { s.panic with latch := false } := (startAll_outsOnly _).panic

theorem panicWord_clear {s : State} (hl : s.panic.latch = false) (hv : s.panic.level = false) : panicWord s = 0 := by
  simp [panicWord, hl, hv, b2n, toWord]

theorem panicWord_asserted {s : State} (hl : s.panic.latch = true) (hv : s.panic.level = true) : panicWord s = 0xC0000000 := by
  simp [panicWord, hl, hv, b2n, toWord]

section
variable {a : CmdArgs} {s : State}

/-- PANIC.CFG without RELEASE: BUSY while the latch is set, else the setting is written. -/
theorem bodyPanicCfg_setting (hf : flag a 0 = false) (hr : resv (opnd a 0) 0xC000010F = false)
    (hg : s.power.straps.flash = true → fld (opnd a 0) 3 0 < 8 ∨ 11 < fld (opnd a 0) 3 0) : bodyPanicCfg a s =
    if s.panic.latch then no .busy s else yes (panicSet a s) [panicWord (panicSet a s)] := by
  have hgpio : (s.power.straps.flash && decide (8 ≤ fld (opnd a 0) 3 0 ∧ fld (opnd a 0) 3 0 ≤ 11)) = false := by
    cases hs : s.power.straps.flash
    · rfl
    · have := hg hs
      simp
      omega
  simp only [bodyPanicCfg, hf, Bool.false_eq_true, if_false, hr, hgpio, checks_false]
  split
  · next hl => rw [hl]; rfl
  · next hl => exact checks_pass (by simpa using hl)

/-- RELEASE: with the latch clear it does nothing, with the input asserted it is REFUSED, else every output has a start event. -/
theorem bodyPanicCfg_release (hf : flag a 0 = true) (h0 : opnd a 0 = 0) : bodyPanicCfg a s =
    if (panicSample s).panic.latch = false then yes (panicSample s) [panicWord (panicSample s)]
    else if (panicSample s).panic.level then ⟨.refused, panicSample s, [panicWord (panicSample s)]⟩
    else yes (panicReleased (panicSample s)) [panicWord (panicReleased (panicSample s))] := by
  simp only [bodyPanicCfg, hf, if_true, h0, bne_self_eq_false, checks_false, checks_nil]
  rfl

theorem panicCfg_sets (h : Admitted rowPanicCfg (withFlag a 0 false) s) (hr : resv (opnd a 0) 0xC000010F = false)
    (hl : s.panic.latch = false) (hg : s.power.straps.flash = true → fld (opnd a 0) 3 0 < 8 ∨ 11 < fld (opnd a 0) 3 0) :
    exec (.panicCfg a) s = .next (answered 0x46 .ok [panicWord (panicSet a s)] (panicSet a s)) := by
  have hbody := bodyPanicCfg_setting (s := fresh s) (flag_withFlag_same a (by decide) false) hr hg
  have hlf : ¬ (fresh s).panic.latch = true := by simp [hl]
  rw [if_neg hlf] at hbody
  change rowPanicCfg.body (withFlag a 0 false) (fresh s) =
    yes (panicSet a (fresh s)) [panicWord (panicSet a (fresh s))] at hbody
  rw [panicSet_fresh] at hbody
  have hfr := panicSet_frame a s
  exact (execRow_yes h rfl hbody (Nat.le_add_left 1 1022) (by rw [hfr]; rfl) (by rw [hfr]; rfl)).trans rfl

theorem panicCfg_busy (h : Admitted rowPanicCfg (withFlag a 0 false) s) (hr : resv (opnd a 0) 0xC000010F = false)
    (hl : s.panic.latch = true) (hg : s.power.straps.flash = true → fld (opnd a 0) 3 0 < 8 ∨ 11 < fld (opnd a 0) 3 0) :
    exec (.panicCfg a) s = .next (answered 0x46 .busy [] s) := by
  have hbody := bodyPanicCfg_setting (s := fresh s) (flag_withFlag_same a (by decide) false) hr hg
  have hlf : (fresh s).panic.latch = true := hl
  rw [if_pos hlf] at hbody
  exact (execRow_body h rfl hbody (Nat.le_add_left 1 1022) (by decide) rfl rfl).trans rfl

end

section
variable {a : CmdArgs} {s : State} (h : Admitted rowPanicCfg (withFlag a 0 true) s) (h0 : opnd a 0 = 0)
include h h0

theorem panicRelease_idle (hl : s.panic.latch = false) :
    exec (.panicRelease a) s = .next (answered 0x46 .ok [panicWord (panicSample s)] (panicSample s)) := by
  have hfr := panicSample_frame s
  have hlatch : (panicSample (fresh s)).panic.latch = false := by rw [panicSample_fresh, hfr]; exact hl
  have hbody := bodyPanicCfg_release (s := fresh s) (flag_withFlag_same a (by decide) true) h0
  rw [if_pos hlatch, panicSample_fresh] at hbody
  exact (execRow_yes h rfl hbody (Nat.le_add_left 1 1022) (by rw [hfr]; rfl) (by rw [hfr]; rfl)).trans rfl

/-- The latch clears when the input, sampled, is no longer asserted. -/
theorem panicRelease_clears (hl : s.panic.latch = true) (hv : (panicSample s).panic.level = false) :
    exec (.panicRelease a) s = .next (answered 0x46 .ok [0] (panicReleased (panicSample (fresh s)))) := by
  have hfr := panicSample_frame s
  have hlatch : ¬ (panicSample (fresh s)).panic.latch = false := by rw [panicSample_fresh, hfr]; simp [hl]
  have hlevel : ¬ (panicSample (fresh s)).panic.level = true := by rw [panicSample_fresh]; simp [hv]
  have hword : panicWord (panicReleased (panicSample (fresh s))) = 0 := by
    have hp := panicReleased_panic (panicSample (fresh s))
    exact panicWord_clear (by rw [hp]) (by rw [hp]; exact Bool.eq_false_iff.2 hlevel)
  have hbody := bodyPanicCfg_release (s := fresh s) (flag_withFlag_same a (by decide) true) h0
  rw [if_neg hlatch, if_neg hlevel, hword] at hbody
  have hout := startAll_outsOnly { panicSample (fresh s) with panic := { (panicSample (fresh s)).panic with latch := false } }
  rw [OutsOnly] at hout
  refine (execRow_yes h rfl hbody (Nat.le_add_left 1 1022) ?_ ?_).trans rfl
  · rw [panicReleased, hout, panicSample_fresh, hfr]; rfl
  · rw [panicReleased, hout, panicSample_fresh, hfr]; rfl

/-- The latch stands while the input is asserted. -/
theorem panicRelease_refused (hl : s.panic.latch = true) (hv : (panicSample s).panic.level = true) :
    exec (.panicRelease a) s = .next (answered 0x46 .refused [0xC0000000] (panicSample s)) := by
  have hfr := panicSample_frame s
  have hlatch : (panicSample s).panic.latch = true := by rw [hfr]; exact hl
  have hlatch' : ¬ (panicSample (fresh s)).panic.latch = false := by rw [panicSample_fresh]; simp [hlatch]
  have hlevel : (panicSample (fresh s)).panic.level = true := by rw [panicSample_fresh]; exact hv
  have hword : panicWord (fresh (panicSample s)) = 0xC0000000 := panicWord_asserted hlatch hv
  have hbody := bodyPanicCfg_release (s := fresh s) (flag_withFlag_same a (by decide) true) h0
  rw [if_neg hlatch', if_pos hlevel, panicSample_fresh, hword] at hbody
  exact (execRow_body h rfl hbody (Nat.le_add_left 1 1022) (by decide) (by rw [hfr]; rfl) (by rw [hfr]; rfl)).trans rfl

end

/-- Settles O13: the assertion and what it leaves, the classifications it holds, the outputs it clamps, and PANIC.CFG's two forms. -/
theorem emergencyMute : Obligations.EmergencyMute := by
  unfold Obligations.EmergencyMute
  refine ⟨fun s hv hr hi he => exec_panicAssert_panics he hv hr hi, fun s hv hr hi he => ?_, fun s h => ?_, fun s h => ?_,
    fun s n hn h => ?_, fun s d hd => ?_, fun a s h hr hl hg => ?_, fun a s h hr hl hg => panicCfg_busy h hr hl hg,
    fun a s h h0 hl => ?_, fun a s h h0 hl hv => ?_, fun a s h h0 hl hv => ?_⟩
  · have hf := vcmFollow_outsOnly (panicked s)
    have hp := panicked_frame s
    rw [OutsOnly] at hf
    refine ⟨vcmFollow (panicked s), exec_panicAssert_panics he hv hr hi, by rw [hf, hp], by rw [hf, hp], by rw [hf, hp], ?_, fun d hd => ?_⟩
    · have hirq : (vcmFollow (panicked s)).irq.pend = setBit s.irq.pend irqPanic true := by rw [hf, hp]
      rw [hirq]
      exact bit_setBit_true (by decide) _
    · rw [dac_vcmFollow, dac_panicked s hd]
      exact ⟨rfl, rfl⟩
  · have hf := vcmFollow_outsOnly s
    rw [OutsOnly] at hf
    exact (congrArg (fun t => ev s (vcmFollow t)) (panicAssert_ignored h)).trans (ev_of_kept (by rw [hf]) (by rw [hf]))
  · refine holdClass_idle fun n hn => ?_
    rcases h n hn with hs | hs <;> simp [classifies, hs]
  · have hc : classifies (jackRun s n) = true := by
      simp only [List.mem_cons, List.not_mem_nil, or_false] at h
      rcases h with hs | hs | hs <;> simp [classifies, hs]
    rw [jackRun_holdClass, if_pos hn, heldJack, if_pos hc]
    rfl
  · rw [dac_clampAll s hd]
    exact ⟨rfl, rfl, rfl, rfl, rfl⟩
  · have hfr := panicSet_frame a s
    obtain ⟨h31, h30⟩ := bit_panicWord (panicSet a s)
    exact ⟨_, _, panicCfg_sets h hr hl hg, by rw [hfr], by rw [hfr]; exact hl, by rw [h31, hfr]; exact hl, h30, by rw [hfr],
      by rw [hfr]⟩
  · have hfr := panicSample_frame s
    obtain ⟨h31, h30⟩ := bit_panicWord (panicSample s)
    exact ⟨_, _, panicRelease_idle h h0 hl, by rw [h31, hfr]; exact hl, h30, by rw [hfr]; exact hl, by rw [hfr], by rw [hfr]⟩
  · have hs : panicSample s = s := panicSample_clear hv
    refine ⟨_, panicRelease_clears h h0 hl (by rw [hs]; exact hv), ?_⟩
    rw [panicSample_fresh, hs]
    rfl
  · have hs := panicSample_asserted hv
    have hlevel : (panicSample s).panic.level = bit (Config.freeWord s.free) 0 := by rw [hs]
    cases hb : bit (Config.freeWord s.free) 0
    · have hp := panicReleased_panic (panicSample (fresh s))
      refine ⟨_, panicRelease_clears h h0 hl (hlevel.trans hb), by rw [hp], ?_⟩
      rw [hp, panicSample_fresh]
      exact hlevel.trans hb
    · exact ⟨_, panicRelease_refused h h0 hl (hlevel.trans hb), by rw [hs]; exact hl⟩

end Sys2Proof.Machine
end

section
/-! PROOF. Flow contexts (O15): FLOW.BIND and FLOW.UNBIND write one context of SHADOW. -/

namespace Sys2Proof.Machine

/-- The context of flow `f` of a set becomes `q`. -/
def withFlow (f : Nat) (q : Quad) (c : ConfigSet) : ConfigSet := { c with flows := tput dFlow c.flows f q }

theorem flow_withFlow (f : Nat) (q : Quad) (c : ConfigSet) (g : Nat) : (withFlow f q c).flow g = if g = f then q else c.flow g :=
  tget_tput ..

section
variable {r : CmdRow} {a : CmdArgs} {s : State} {f : Nat} {q : Quad}

/-- A command whose own part writes one flow context of SHADOW. -/
theorem execRow_writesFlow (h : Admitted r a s) (hf : r.fuse = false) (hmax : r.maxRes a (fresh s) ≤ 1023)
    (hb : r.body a (fresh s) = yes (writeShadow r.op a.ops (withFlow f q) (fresh s))) :
    execRow r a s = .next (answered r.op .ok [] (onShadow (withFlow f q) (shadowReads r.op a s))) := by
  rw [execRow_yes h hf hb hmax (by simp [writeShadow]) (by simp [writeShadow])]
  cases hs : s.sets.selB <;> simp [answered, writeShadow, onShadow, fresh, hs]

/-- Such a command leaves that context new, every other one and all else as it was. -/
theorem shadowFlow_written (op : Nat) (a : CmdArgs) (s : State) (f : Nat) (q : Quad) :
    onShadow (withFlow f q) (shadowReads op a s) =
      onShadow (fun c => { c with flows := (shadow (onShadow (withFlow f q) (shadowReads op a s))).flows }) (shadowReads op a s) ∧
    ∀ g, (shadow (onShadow (withFlow f q) (shadowReads op a s))).flow g = if g = f then q else (shadow s).flow g := by
  refine ⟨onShadow_congr ?_, fun g => ?_⟩
  · rw [shadow_onShadow]; rfl
  · rw [shadow_onShadow, shadow_shadowReads]; exact flow_withFlow ..

section
variable (h0 : resv (opnd a 0) 0xFF = false) (hq : bindResv (bindQuad a) = false)
  (hr : bindRange (opnd a 0).toNat (bindQuad a) = false)
include h0 hq hr

/-- FLOW.BIND without a clash writes its context (R257). -/
theorem bodyFlowBind_free (hc : clashing s (opnd a 0).toNat (bindQuad a) = none) :
    bodyFlowBind a s = yes (writeShadow 0x50 a.ops (withFlow (opnd a 0).toNat (bindQuad a)) s) := by
  simp only [bodyFlowBind, h0, hq, hr, hc, Bool.or_self, checks_false, checks_nil]
  rfl

/-- FLOW.BIND of an endpoint or lane that is taken names the flow that has it (R257). -/
theorem bodyFlowBind_clashing {g : Nat} (hc : clashing s (opnd a 0).toNat (bindQuad a) = some g) :
    bodyFlowBind a s = ⟨.refused, s, [toWord g]⟩ := by
  simp only [bodyFlowBind, h0, hq, hr, hc, Bool.or_self, checks_false, checks_nil]

theorem flowBind_writes (h : Admitted rowFlowBind a s) (hc : clashing s (opnd a 0).toNat (bindQuad a) = none) :
    exec (.flowBind a) s = .next (answered 0x50 .ok []
      (onShadow (withFlow (opnd a 0).toNat (bindQuad a)) (shadowReads 0x50 a s))) :=
  execRow_writesFlow h rfl (Nat.le_add_left 1 1022) (bodyFlowBind_free (s := fresh s) h0 hq hr hc)

theorem flowBind_refused {g : Nat} (h : Admitted rowFlowBind a s) (hc : clashing s (opnd a 0).toNat (bindQuad a) = some g) :
    exec (.flowBind a) s = .next (answered 0x50 .refused [toWord g] s) :=
  (execRow_body h rfl (bodyFlowBind_clashing (s := fresh s) h0 hq hr hc) (Nat.le_add_left 1 1022) (Nat.le_add_left 1 1022) rfl
    rfl).trans rfl

end

theorem flowUnbind_writes (h : Admitted rowFlowUnbind a s) (h0 : resv (opnd a 0) 0xFF = false) :
    exec (.flowUnbind a) s = .next (answered 0x51 .ok [] (onShadow (withFlow (opnd a 0).toNat dFlow) (shadowReads 0x51 a s))) := by
  have hb : bodyFlowUnbind a (fresh s) = yes (writeShadow 0x51 a.ops (withFlow (opnd a 0).toNat dFlow) (fresh s)) := by
    simp only [bodyFlowUnbind, h0, checks_false, checks_nil]
    rfl
  exact execRow_writesFlow h rfl (Nat.zero_le _) hb

end

/-- Settles O15: each command writes one context of SHADOW (`execRow_writesFlow`), but for a FLOW.BIND that clashes. -/
theorem flowContexts : Obligations.FlowContexts := by
  unfold Obligations.FlowContexts
  refine ⟨fun a s h h0 hq hr hc => ?_, fun a s g h h0 hq hr hc => flowBind_refused h0 hq hr h hc, fun a s h h0 => ?_⟩
  · exact ⟨_, flowBind_writes h0 hq hr h hc, shadowFlow_written ..⟩
  · exact ⟨_, flowUnbind_writes h h0, shadowFlow_written ..⟩

end Sys2Proof.Machine
end

section
/-! SUPPORT. What the ports' events leave alone: words that enter and leave the flows' FIFOs (R39, R40), and endpoints that stop
(Table 7.9). -/

namespace Sys2Proof.Machine

/-! ## Words of the FIFOs -/

/-- Only the flows, the interrupt flags and the words of sealed records still to send differ. -/
def WordsOnly (s t : State) : Prop := t = { s with
  flows := t.flows, irq := { s.irq with pend := t.irq.pend }, seals := { s.seals with queue := t.seals.queue } }

theorem WordsOnly.refl (s : State) : WordsOnly s s := rfl
theorem WordsOnly.trans {s t u : State} (h : WordsOnly s t) (h' : WordsOnly t u) : WordsOnly s u := by
  unfold WordsOnly at *; rw [h', h]

theorem onFlow_wordsOnly (f : Nat) (g : FlowRun → FlowRun) (s : State) : WordsOnly s (onFlow f g s) := rfl
theorem slip_wordsOnly (f : Nat) (s : State) : WordsOnly s (slip f s) := rfl

theorem fifoPut_wordsOnly (f : Nat) (x : Sample) (s : State) : WordsOnly s (fifoPut f x s) := by
  unfold fifoPut
  dsimp only
  split
  · exact (onFlow_wordsOnly ..).trans (slip_wordsOnly ..)
  · exact onFlow_wordsOnly ..

theorem fifoGet_wordsOnly (f : Nat) (s : State) : WordsOnly s (fifoGet f s).2 := by
  unfold fifoGet
  dsimp only
  split
  · split
    · exact onFlow_wordsOnly ..
    · exact slip_wordsOnly ..
  · exact onFlow_wordsOnly ..

theorem asrcWritten_wordsOnly (f : Nat) (s : State) : WordsOnly s (asrcWritten f s) := by
  unfold asrcWritten
  split
  · exact (onFlow_wordsOnly ..).trans (fifoPut_wordsOnly ..)
  · exact .refl s

theorem endpointRead_wordsOnly (f : Nat) (s : State) : WordsOnly s (endpointRead f s).2 :=
  (asrcWritten_wordsOnly f s).trans ((onFlow_wordsOnly ..).trans (fifoGet_wordsOnly ..))

/-- A FIFO with room takes a word; the first one of an endpoint that resumes carries CUT (Table 1.5). -/
theorem fifoPut_room {s : State} {f : Nat} (x : Sample)
    (h : fifoFill s (fifoPeers s f ((active s).flow f)) < fifoDepth ((active s).flow f)) :
    fifoPut f x s = onFlow f (fun r => { r with
      stopped := false, fifo := r.fifo ++ [⟨x.val, x.tag ||| (if r.stopped then tCUT else 0)⟩] }) s := by
  have hmark (r : FlowRun) : (if r.stopped then withCut x else x) = ⟨x.val, x.tag ||| (if r.stopped then tCUT else 0)⟩ := by
    cases r.stopped
    · exact congrArg (Sample.mk x.val) (BitVec.or_zero).symm
    · rfl
  simp only [fifoPut, if_neg (Nat.not_le.2 h), hmark]

/-! ## Endpoints that stop -/

theorem onFlow_flowsOnly (f : Nat) (g : FlowRun → FlowRun) (s : State) : FlowsOnly s (onFlow f g s) := rfl

theorem stopEndpoint_flowsOnly (p : Nat → Quad → Bool) (s : State) : FlowsOnly s (stopEndpoint p s) :=
  .foldl (fun s f => onFlow_flowsOnly f _ s) _ s

theorem stopEndpoint_stops {p : Nat → Quad → Bool} {s : State} {f : Nat}
    (h : f ∈ runningFlows s (fun f q => decide (f < 128) && p f q)) : (flowRun (stopEndpoint p s) f).stopped = true := by
  have hall := entry_foldl (π := flowRun) (I := fun _ => True) (f := fun s f => onFlow f (fun r => { r with stopped := true }) s)
    (g := fun _ r => { r with stopped := true }) (fun _ _ _ => trivial) (fun s n k _ => ?_) (fun _ _ => rfl)
    (runningFlows s (fun f q => decide (f < 128) && p f q)) (s := s) trivial f
  · rw [stopEndpoint, hall, if_pos h]
  · split
    · next hk => rw [hk, flowRun_onFlow_same]
    · next hk => exact flowRun_onFlow_other _ _ _ _ hk

/-! ## PLLA's reference at a port (R324) -/

/-- Where PLLA follows no port, an event at a port is not the loss of its reference. -/
theorem refFollow_noPort (before : State) {s : State} (h : s.clk.ref.toNat < 2) : refFollow before s = s := by
  simp only [refFollow, if_pos h]
  rfl

/-- Then an event at a port that keeps the queue and OTP leaves what it does there. -/
theorem event_noPort {s t u : State} (ht : t = u) (h : u.clk.ref.toNat < 2) (hp : u.pending = s.pending)
    (ho : u.sec.otp = s.sec.otp) : ev s (refFollow s t) = .next u := by
  rw [ht, refFollow_noPort s h]
  exact ev_of_kept hp ho

end Sys2Proof.Machine
end

section
/-! PROOF. The TDM ports (O17): configuration, frames in and out, and clocks that stop. -/

namespace Sys2Proof.Machine

/-! ## TDM.CFG (R260) -/

/-- TDM.CFG of a port that no bound flow uses, with a word in range. -/
theorem bodyTdmCfg_applies {a : CmdArgs} {s : State} (h0 : resv (opnd a 0) 3 = false) (h1 : resv (opnd a 1) 0xFFFFFFE0 = false)
    (hmode : fld (opnd a 1) 29 28 ≠ 3) (hwidth : fld (opnd a 1) 14 13 ≠ 3) (hword : fld (opnd a 1) 12 11 ≠ 3)
    (hrate : tdmRate (opnd a 1) ≠ 15) (hr : tdmRange s (opnd a 1) = false)
    (hu : tdmInUse s (opnd a 0).toNat (opnd a 1) = none) :
    bodyTdmCfg a s = yes (onTdm (opnd a 0).toNat (tdmApply (opnd a 1) s) s) := by
  have hport : fld (opnd a 0) 1 0 = (opnd a 0).toNat := fld_eq_toNat rfl h0
  unfold bodyTdmCfg
  dsimp only
  rw [checks_pass (by simpa [hmode, hwidth, hword, hrate, hr] using And.intro h0 h1), hport, hu]

/-! ## Frames received (R238–R241, Table 7.9) -/

section
variable {s : State} {p : Nat} (hp : p < 4) (hen : tdmEn (tdm s p).cfg = true) (hio : s.power.iovddA = true)
include hp hen hio

section
variable (hslave : tdmMaster (tdm s p).cfg = false) (hpads : s.power.padsHeld = false) (hsafe : inSafe s = false)
include hslave hpads hsafe

theorem tdmFrameReceive_wrongLength {cycles : Nat} (rate : Nat) (slots : List Word)
    (hc : cycles ≠ tdmSlots (tdm s p).cfg * tdmWidth (tdm s p).cfg) :
    tdmFrameReceive p cycles rate slots s = frameError p s := by
  simp [tdmFrameReceive, hp, hen, hio, hslave, hpads, hsafe, hc]

theorem tdmFrameReceive_running (rate : Nat) (slots : List Word) (hst : (tdm s p).st = .running) :
    tdmFrameReceive p (tdmSlots (tdm s p).cfg * tdmWidth (tdm s p).cfg) rate slots s =
      deliverSlots p slots (onTdm p (fun t => { t with rate := min rate 15 }) s) := by
  simp [tdmFrameReceive, hp, hen, hio, hslave, hpads, hsafe, hst]

theorem tdmFrameReceive_counts (rate : Nat) (slots : List Word) (hst : (tdm s p).st ≠ .running) :
    tdmFrameReceive p (tdmSlots (tdm s p).cfg * tdmWidth (tdm s p).cfg) rate slots s =
      onTdm p (fun t => { t with good := t.good + 1, st := if 1 ≤ t.good then .running else .acquiring })
        (onTdm p (fun t => { t with rate := min rate 15 }) s) := by
  simp [tdmFrameReceive, hp, hen, hio, hslave, hpads, hsafe, hst]

end

theorem tdmFrameReceive_master (cycles rate : Nat) (slots : List Word) (hmaster : tdmMaster (tdm s p).cfg = true)
    (hst : (tdm s p).st = .running) (hfree : masterFree s = true) :
    tdmFrameReceive p cycles rate slots s = deliverSlots p slots s := by
  obtain ⟨⟨⟨-, hpads⟩, -⟩, hsafe⟩ : ((running s = true ∧ s.power.padsHeld = false) ∧ s.clk.a.gated = false) ∧ inSafe s = false := by
    simpa [masterFree] using hfree
  simp [tdmFrameReceive, padSlots, hp, hen, hio, hmaster, hpads, hsafe, hst, hfree]

end

/-- A port whose source stops delivering: the port changes by `g`, its tracker acquires anew, and the endpoints named stop. -/
theorem sourceStops_port {p : Nat} {g : TdmPort → TdmPort} {e : Nat → Quad → Bool} {s t : State}
    (ht : t = sourceStops p (stopEndpoint e (onTdm p g s))) :
    tdm t p = g (tdm s p) ∧ (∀ q ≠ p, tdm t q = tdm s q) ∧ tracker t p = { acquiring := true } ∧
    (∀ k ≠ p, tracker t k = tracker s k) ∧
    (∀ f ∈ runningFlows s (fun f q => decide (f < 128) && e f q), (flowRun t f).stopped = true) ∧
    t = { s with ports := { s.ports with tdm := t.ports.tdm, trackers := t.ports.trackers }, flows := t.flows } := by
  have hstop (f : Nat) (hf : f ∈ runningFlows s (fun f q => decide (f < 128) && e f q)) : (flowRun t f).stopped = true := by
    rw [ht]
    exact stopEndpoint_stops (s := onTdm p g s) hf
  obtain ⟨fl, hfl⟩ : ∃ fl, stopEndpoint e (onTdm p g s) = { onTdm p g s with flows := fl } := ⟨_, stopEndpoint_flowsOnly ..⟩
  rw [hfl] at ht
  subst ht
  exact ⟨tdm_onTdm_same .., fun q hq => tdm_onTdm_other _ _ _ _ hq, tracker_onTracker_same ..,
    fun k hk => tracker_onTracker_other _ _ _ _ hk, hstop, rfl⟩

/-- One slot in NATIVE format for the flow that binds it (R240). -/
theorem slotReceive_native {s : State} {f : Nat} (p : Nat) (slots : List Word) (hfmt : ((active s).flow f).fmt = 0)
    (hroom : fifoFill s (fifoPeers s f ((active s).flow f)) < fifoDepth ((active s).flow f)) :
    slotReceive p slots s f = onFlow f (fun r => { r with
      stopped := false
      fifo := r.fifo ++ [⟨slotValue (tdm s p).cfg (slots.getD (((active s).flow f).ep % 32) 0),
        if r.stopped then tCUT else 0⟩] }) s := by
  have hzero (x : BitVec 4) : 0 ||| x = x := BitVec.zero_or
  simp only [slotReceive, hfmt, if_neg Nat.zero_ne_one, fifoPut_room _ hroom, hzero]

/-! ## Frames sent (R238, R240–R242) -/

theorem slotSend_wordsOnly (p k : Nat) (s : State) : WordsOnly s (slotSend p k s).2 := by
  unfold slotSend
  dsimp only
  split
  · exact endpointRead_wordsOnly ..
  · split <;> rfl

theorem slotsSend_wordsOnly (p : Nat) (ks : List Nat) (s : State) : WordsOnly s (slotsSend p ks s).2 := by
  induction ks generalizing s with
  | nil => exact .refl s
  | cons k ks ih => exact (slotSend_wordsOnly p k s).trans (ih _)

theorem slotsSend_length (p : Nat) (ks : List Nat) (s : State) : (slotsSend p ks s).1.length = ks.length := by
  induction ks generalizing s with
  | nil => rfl
  | cons k ks ih => exact congrArg (· + 1) (ih _)

/-- What a frame leaves: the port holds its words and the last bit of the frame before it, and nothing else of the ports differs. -/
theorem tdmFrameSend_sends {s : State} {p : Nat} (hen : tdmEn (tdm s p).cfg = true) (hst : (tdm s p).st = .running)
    (hrun : running s = true) (hpads : s.power.padsHeld = false) (hfree : tdmMaster (tdm s p).cfg = true → masterFree s = true) :
    tdmFrameSend p s = onTdm p (fun t => { t with
      out := (slotsSend p (List.range (tdmSlots (tdm s p).cfg)) s).1, lastBit := ((frameBits t.cfg t.out).getLast?).join })
      (slotsSend p (List.range (tdmSlots (tdm s p).cfg)) s).2 :=
  if_pos ⟨hen, hst, hrun, hpads, hfree⟩

theorem slotSend_bound {s : State} {p f k : Nat}
    (h : (runningFlows s (fun g q => decide (128 ≤ g) && tdmFlow p q && q.ep % 32 == k)).head? = some f) :
    (slotSend p k s).1 = some (if ((active s).flow f).fmt = 1 then tagWord (endpointRead f s).1
      else slotContent (tdm s p).cfg (endpointRead f s).1.val) := by
  simp only [slotSend, h]

theorem slotSend_unbound {s : State} {p k : Nat}
    (h : runningFlows s (fun g q => decide (128 ≤ g) && tdmFlow p q && q.ep % 32 == k) = [])
    (hseal : bit (tdm s p).cfg 10 = false ∨ k ≠ fld (tdm s p).cfg 9 5) :
    slotSend p k s = (if bit (tdm s p).cfg 24 then none else some 0, s) := by
  have hno : ¬ (tdmSealEn (tdm s p).cfg = true ∧ k = tdmSealSlot (tdm s p).cfg) := by
    rintro ⟨hs, hk⟩
    rcases hseal with hb | hb
    · exact absurd (hs.symm.trans hb) (by decide)
    · exact hb hk
  simp only [slotSend, h, List.head?_nil, if_neg hno]

/-- Settles O17: the command, the frames received by kind and length, the frames sent slot by slot, and the clocks. -/
theorem tdmPorts : Obligations.TdmPorts := by
  unfold Obligations.TdmPorts
  refine ⟨fun a s h h0 h1 hmode hwidth hword hrate hr hu => ?_, fun s p hen hm hst hfree hgrid => ?_,
    fun s p cycles rate slots hp hen hm hio hpads hsafe hc => ?_, fun s p rate slots hp hen hm hio hpads hsafe hst hrate href => ?_,
    fun s p rate slots hp hen hm hio hpads hsafe hst => ?_, fun s p cycles rate slots hp hen hm hst hfree hio => ?_,
    fun s p f slots hf hfmt hroom => ?_, fun s p hen hst hrun hpads hfree => ?_, fun s p f k h => slotSend_bound h,
    fun s p k h hseal => slotSend_unbound h hseal, fun s p hp hen hm hst href => ?_⟩
  · have hb : bodyTdmCfg a (fresh s) = _ := bodyTdmCfg_applies (s := fresh s) h0 h1 hmode hwidth hword hrate hr hu
    exact congrArg (onNext _) (execRow_yes h rfl hb (Nat.le_add_left 1 1022) rfl rfl)
  · exact (congrArg (ev s) (if_pos ⟨hen, hm, hst, hfree, hgrid⟩)).trans (ev_of_kept rfl rfl)
  · have hstep := tdmFrameReceive_wrongLength hp hen hio hm hpads hsafe rate slots hc
    exact ⟨frameError p s, congrArg (fun t => ev s (refFollow s t)) hstep, sourceStops_port rfl⟩
  · have hstep := tdmFrameReceive_counts hp hen hio hm hpads hsafe rate slots hst
    rw [Nat.min_eq_left hrate] at hstep
    refine ⟨_, event_noPort hstep href rfl rfl, ?_, rfl, fun q hq => ?_⟩
    · rw [tdm_onTdm_same, tdm_onTdm_same]
    · rw [tdm_onTdm_other _ _ _ _ hq, tdm_onTdm_other _ _ _ _ hq]
  · exact congrArg (fun t => ev s (refFollow s t)) (tdmFrameReceive_running hp hen hio hm hpads hsafe rate slots hst)
  · exact congrArg (fun t => ev s (refFollow s t)) (tdmFrameReceive_master hp hen hio cycles rate slots hm hst hfree)
  · rw [deliverSlots, hf]
    exact slotReceive_native p slots hfmt hroom
  · have hsent : (slotsSend p (List.range (tdmSlots (tdm s p).cfg)) s).2 = _ := slotsSend_wordsOnly ..
    have htdm (q : Nat) : tdm (slotsSend p (List.range (tdmSlots (tdm s p).cfg)) s).2 q = tdm s q := by rw [hsent]; rfl
    refine ⟨_, (congrArg (ev s) (tdmFrameSend_sends hen hst hrun hpads hfree)).trans (ev_of_kept ?_ ?_), ?_, ?_, ?_, fun q hq => ?_,
      ?_, ?_, ?_⟩
    · rw [hsent]; rfl
    · rw [hsent]; rfl
    · rw [tdm_onTdm_same]
      exact (slotsSend_length ..).trans List.length_range
    · rw [tdm_onTdm_same]
    · rw [tdm_onTdm_same, htdm]
    · rw [tdm_onTdm_other _ _ _ _ hq, htdm]
    · rw [hsent]; rfl
    · rw [hsent]; rfl
    · rw [hsent]; rfl
  · have hstep : tdmClockStop p s = sourceStops p (stopEndpoint (fun _ q => tdmFlow p q)
        (onTdm p (fun t => { t with st := .stopped, good := 0, rate := 15 }) s)) := if_pos ⟨hen, hm, hst, hp⟩
    obtain ⟨hport, hports, htrack, htracks, hflows, hframe⟩ := sourceStops_port rfl
    exact ⟨_, event_noPort hstep (by rw [hframe]; exact href) (by rw [hframe]) (by rw [hframe]), hport, htrack, htracks, hports,
      hflows, hframe⟩

end Sys2Proof.Machine
end

section
/-! PROOF. AES3 receivers (O18): the clause on lock fails where ACTIVE lists a flow twice. -/

namespace Sys2Proof.Machine

/-- A LOCKED flow of AES3 receiver 0 at 48 kHz to input lane 0, and one at 32 kHz. -/
def lockedAt48 : Quad := ⟨0x40000000, 0x00330000, 0, 0⟩
def lockedAt32 : Quad := ⟨0x40000000, 0x00220000, 0, 0⟩

/-- A device in RUN whose receiver 0 is acquiring, and whose ACTIVE set lists flow 0 twice, with a second context of another rate. -/
def rateListedTwice : State := { ({} : State) with
  power := { ({} : Power) with st := .run, boot := .run, onRc := false, xrefOk := true }
  clk := { a := { cfg := 0x800C0504, st := .locked }, b := { cfg := 0x800C0506, st := .locked } }
  sets := { ({} : State).sets with bankA := { ({} : ConfigSet) with flows := [(0, lockedAt48), (0, lockedAt32)] } }
  flows := [(0, { ({} : FlowRun) with running := true })]
  ports := { ({} : State).ports with aesRx := [(0, { ({} : AesRx) with st := .acquiring })] } }

/-- Both contexts of a flow that ACTIVE lists twice are judged: at 48 kHz the second one is a mismatch. -/
theorem aes3Lock_rateListedTwice : (aesRx (aes3Lock 0 3 true rateListedTwice) 0).st = .mismatch := by
  decide

/-- Refutes O18: its clause on lock lacks the hypothesis that ACTIVE lists a flow once. In `rateListedTwice` flow 0 reads as its first
context, of the rate at which receiver 0 locks, so the clause asks for LOCKED; the second context makes it a mismatch. -/
theorem not_aes3PdmAndTrackers : ¬ Obligations.Aes3PdmAndTrackers := by
  unfold Obligations.Aes3PdmAndTrackers
  rintro ⟨-, -, hlock, -⟩
  obtain ⟨t, hstep, hrx, -⟩ := hlock rateListedTwice 0 3 true (by decide) rfl rfl (by decide) (by decide) (by decide) (by decide)
  have ht : settle rateListedTwice (refFollow rateListedTwice (aes3Lock 0 3 true rateListedTwice)) = t := Host.Outcome.next.inj hstep
  rw [refFollow_noPort rateListedTwice (by decide)] at ht
  have hst : (aesRx t 0).st = .mismatch := by rw [← ht]; exact aes3Lock_rateListedTwice
  rw [hrx] at hst
  exact absurd hst (by decide)

end Sys2Proof.Machine
end

section
/-! SUPPORT. What the output sequences leave (R267–R281): one output and one pump after each change, and the frames of the events
of R278 and R279. -/

namespace Sys2Proof.Machine

/-! ## Outputs and pumps after a change -/

theorem dac_onDac (n k : Nat) (f : Dac → Dac) (s : State) : dac (onDac n f s) k = if k = n then f (dac s k) else dac s k := by
  split
  · next h => rw [h, dac_onDac_same]
  · next h => exact dac_onDac_other n k f s h

theorem pump_onPump (n k : Nat) (f : Pump → Pump) (s : State) :
    pump (onPump n f s) k = if k = n then f (pump s k) else pump s k := by
  split
  · next h => rw [h, pump_onPump_same]
  · next h => exact pump_onPump_other n k f s h

/-- An event that changes the outputs alone answers its new state. -/
theorem OutsOnly.event {s t : State} (h : OutsOnly s t) : ev s t = .next t := ev_of_kept (by rw [h]) (by rw [h])

/-- Such an event, where its new state is known. -/
theorem OutsOnly.event_eq {s t u : State} (h : OutsOnly s u) (htu : t = u) : ev s t = .next u := htu ▸ h.event

theorem OutsOnly.active {s t : State} (h : OutsOnly s t) : active t = active s := by rw [h]; rfl
theorem OutsOnly.now {s t : State} (h : OutsOnly s t) : now t = now s := by rw [h]; rfl
theorem OutsOnly.power {s t : State} (h : OutsOnly s t) : t.power = s.power := by rw [h]
theorem OutsOnly.gNow {s t : State} (h : OutsOnly s t) (x : Dac) : gNow t x = gNow s x := by rw [h]; rfl
theorem OutsOnly.gHeld {s t : State} (h : OutsOnly s t) : gHeld t = gHeld s := by rw [h]; rfl

/-- Only the DAC channels differ. -/
def DacsOnly (s t : State) : Prop := t = { s with outs := { s.outs with dacs := t.outs.dacs } }

/-- Only the DAC channels and the pumps differ: the VCM node stands. -/
def DacsPumpsOnly (s t : State) : Prop := t = { s with outs := { s.outs with dacs := t.outs.dacs, pumps := t.outs.pumps } }

theorem DacsOnly.onDac (d : Nat) (f : Dac → Dac) (s : State) : DacsOnly s (onDac d f s) := rfl
theorem DacsOnly.trans {s t u : State} (h : DacsOnly s t) (h' : DacsOnly t u) : DacsOnly s u := by
  unfold DacsOnly at *; rw [h', h]
theorem DacsOnly.outsOnly {s t : State} (h : DacsOnly s t) : OutsOnly s t := by
  rw [DacsOnly] at h; rw [OutsOnly, h]
theorem DacsOnly.dacsPumpsOnly {s t : State} (h : DacsOnly s t) : DacsPumpsOnly s t := by
  rw [DacsOnly] at h; rw [DacsPumpsOnly, h]

theorem DacsPumpsOnly.refl (s : State) : DacsPumpsOnly s s := rfl
theorem DacsPumpsOnly.onPump (d : Nat) (f : Pump → Pump) (s : State) : DacsPumpsOnly s (onPump d f s) := rfl
theorem DacsPumpsOnly.trans {s t u : State} (h : DacsPumpsOnly s t) (h' : DacsPumpsOnly t u) : DacsPumpsOnly s u := by
  unfold DacsPumpsOnly at *; rw [h', h]
theorem DacsPumpsOnly.outsOnly {s t : State} (h : DacsPumpsOnly s t) : OutsOnly s t := by
  rw [DacsPumpsOnly] at h; rw [OutsOnly, h]

/-! ## A stop event (R279) -/

theorem stopEvent_dacsOnly (d : Nat) (s : State) : DacsOnly s (stopEvent d s) := by
  unfold stopEvent
  split <;> rfl

theorem dac_stopEvent_other {d k : Nat} (h : k ≠ d) (s : State) : dac (stopEvent d s) k = dac s k := by
  unfold stopEvent
  split
  case h_8 => rfl
  case h_9 => rfl
  all_goals exact dac_onDac_other _ _ _ _ h

/-- A clamped output stays clamped: its interpolator stops. -/
theorem stopEvent_clamped {d : Nat} {s : State} (h : (dac s d).phase = .clamped) : stopEvent d s = onDac d Dac.halt s := by
  simp only [stopEvent, h]

/-- The mute ramp of an output that stands at 1 from time `t`. -/
def mutedAt (t : Nat) (x : Dac) : Dac :=
  { x with phase := .muting, since := t, g := .falling, gFrom := 2 ^ 32, gAt := t, gLen := 12288 }

/-- An output that plays begins its mute ramp. -/
theorem dac_stopEvent_playing {d : Nat} {s : State} (h : (dac s d).phase = .playing) (hg : (dac s d).g = .one) :
    dac (stopEvent d s) d = mutedAt (now s) (dac s d) := by
  simp only [stopEvent, h, dac_onDac_same, gFall, hg, gNow]
  rfl

/-- A stop event changes neither pauses nor lockouts. -/
theorem stopEvent_pause (d : Nat) (s : State) : (dac (stopEvent d s) d).pause = (dac s d).pause := by
  have hfall (x : Dac) : (gFall muteSteps s x).pause = x.pause := by unfold gFall; split <;> rfl
  unfold stopEvent
  split
  case h_8 => rfl
  case h_9 => rfl
  all_goals simp only [dac_onDac_same, Dac.halt, hfall]

/-! ## A start event (R278) -/

/-- An output whose clamp releases and whose unmute ramp starts. -/
def unmuted (s : State) (x : Dac) : Dac := { x with
  phase := .unmuting, clamp := false, g := .rising, since := now s
  gFrom := gNow s x, gAt := now s, gLen := 12288, stopped := false }

theorem unmute_eq {s : State} (h : gHeld s = false) (d : Nat) : unmute d s = onDac d (unmuted s) s := by
  simp only [unmute, h, Bool.false_eq_true, if_false]
  rfl

theorem sequenceStart_dacsPumpsOnly (d : Nat) (s : State) : DacsPumpsOnly s (sequenceStart d s) := by
  unfold sequenceStart
  split
  · dsimp only
    split <;> rfl
  · split
    · rfl
    · split <;> rfl

theorem startEvent_dacsPumpsOnly (d : Nat) (s : State) : DacsPumpsOnly s (startEvent d s) := by
  unfold startEvent
  split
  · split <;> rfl
  · split
    · split
      · rfl
      · exact sequenceStart_dacsPumpsOnly d s
    all_goals rfl

theorem startJack_dacsPumpsOnly (n : Nat) (s : State) : DacsPumpsOnly s (startJack n s) :=
  (startEvent_dacsPumpsOnly _ s).trans (startEvent_dacsPumpsOnly _ _)

theorem stopJack_dacsOnly (n : Nat) (s : State) : DacsOnly s (stopJack n s) :=
  (stopEvent_dacsOnly _ s).trans (stopEvent_dacsOnly _ _)

/-- An output as Table 8.3 starts it from t = 0, where the VCM node is on. -/
def seqStarted (s : State) (d : Nat) (x : Dac) : Dac :=
  if d < 24 then unmuted s x
  else if d < 32 then { x with
    phase := if (pump s (pairOf d)).on ∧ (pump s (pairOf d)).up then .servo else .pumpStart, since := now s, stopped := false }
  else { x with phase := .spkStart, clamp := false, since := now s, stopped := false }

theorem sequenceStart_line {d : Nat} {s : State} (hd : d < 24) (hv : s.outs.vcm = .on) (hg : gHeld s = false) :
    sequenceStart d s = onDac d (unmuted s) s := by
  have hhp : isHp d = false := decide_eq_false (by omega)
  have hspk : isSpk d = false := decide_eq_false (by omega)
  simp only [sequenceStart, hhp, hspk, hv, Bool.false_eq_true, if_false, if_true, unmute_eq hg]

/-- A speaker channel starts switching. -/
theorem sequenceStart_speaker {d : Nat} (hd : 32 ≤ d ∧ d < 34) (s : State) :
    sequenceStart d s = onDac d (fun x => { x with phase := .spkStart, clamp := false, since := now s, stopped := false }) s := by
  have hhp : isHp d = false := decide_eq_false (by omega)
  have hspk : isSpk d = true := decide_eq_true hd
  simp only [sequenceStart, hhp, hspk, Bool.false_eq_true, if_false, if_true]

section
variable {d : Nat} {s : State} (hd : isHp d = true)
include hd

/-- A headphone output whose pump runs waits for its soft start, or is trimmed. -/
theorem sequenceStart_pumpOn (hon : (pump s (pairOf d)).on = true) : sequenceStart d s =
    onDac d (fun x => { x with phase := if (pump s (pairOf d)).up then .servo else .pumpStart, since := now s, stopped := false }) s := by
  simp only [sequenceStart, hd, hon, if_true]

/-- A headphone output whose pump is off starts it. -/
theorem sequenceStart_pumpOff (hoff : (pump s (pairOf d)).on = false) : sequenceStart d s =
    onPump (pairOf d) (fun _ => { on := true, since := now s })
      (onDac d (fun x => { x with phase := .pumpStart, since := now s, stopped := false }) s) := by
  simp only [sequenceStart, hd, hoff, if_true, Bool.false_eq_true, if_false]

end

theorem dac_onPump (n k : Nat) (f : Pump → Pump) (s : State) : dac (onPump n f s) k = dac s k := rfl
theorem pump_onDac (n k : Nat) (f : Dac → Dac) (s : State) : pump (onDac n f s) k = pump s k := rfl

theorem dac_sequenceStart {d : Nat} {s : State} (hd : d < 34) (hv : s.outs.vcm = .on) (hg : gHeld s = false) (k : Nat) :
    dac (sequenceStart d s) k = if k = d then seqStarted s d (dac s k) else dac s k := by
  by_cases hline : d < 24
  · rw [sequenceStart_line hline hv hg, dac_onDac]
    simp only [seqStarted, hline, if_true]
  by_cases hspk : 32 ≤ d
  · rw [sequenceStart_speaker ⟨hspk, hd⟩, dac_onDac]
    simp only [seqStarted, hline, Nat.not_lt.2 hspk, if_false]
  have hhp : isHp d = true := decide_eq_true (by omega)
  simp only [seqStarted, hline, Nat.not_le.1 hspk, if_true, if_false]
  cases hon : (pump s (pairOf d)).on
  · rw [sequenceStart_pumpOff hhp hon, dac_onPump, dac_onDac]
    simp only [Bool.false_eq_true, false_and, if_false]
  · rw [sequenceStart_pumpOn hhp hon, dac_onDac]
    simp only [true_and]

/-- A headphone output that starts turns its pair's pump on. -/
theorem pump_sequenceStart (d n : Nat) (s : State) : pump (sequenceStart d s) n =
    if isHp d = true ∧ n = pairOf d ∧ (pump s n).on = false then { on := true, since := now s } else pump s n := by
  cases hhp : isHp d
  · rw [if_neg (fun h => Bool.false_ne_true h.1)]
    simp only [sequenceStart, hhp, Bool.false_eq_true, if_false]
    split
    · exact pump_onDac ..
    · split <;> exact pump_onDac ..
  cases hon : (pump s (pairOf d)).on
  · rw [sequenceStart_pumpOff hhp hon, pump_onPump, pump_onDac]
    by_cases hn : n = pairOf d
    · rw [if_pos hn, if_pos ⟨rfl, hn, hn ▸ hon⟩]
    · rw [if_neg hn, if_neg (fun h => hn h.2.1)]
  · rw [sequenceStart_pumpOn hhp hon, pump_onDac, if_neg]
    rintro ⟨-, rfl, hoff⟩
    exact Bool.false_ne_true (hoff.symm.trans hon)

/-- A start of one output leaves the others. -/
theorem dac_sequenceStart_other {d k : Nat} (h : k ≠ d) (s : State) : dac (sequenceStart d s) k = dac s k := by
  have hdac (f : Dac → Dac) (t : State) : dac (onDac d f t) k = dac t k := dac_onDac_other _ _ _ _ h
  cases hhp : isHp d
  · simp only [sequenceStart, hhp, Bool.false_eq_true, if_false]
    split
    · exact hdac ..
    · split <;> exact hdac ..
  cases hon : (pump s (pairOf d)).on
  · rw [sequenceStart_pumpOff hhp hon, dac_onPump, hdac]
  · rw [sequenceStart_pumpOn hhp hon, hdac]

/-- What keeps no clamp: the conditions of R278 and Table 8.5 at a speaker channel that no pause or lockout holds. -/
structure SpeakersFree (s : State) : Prop where
  latch : s.panic.latch = false
  pads : s.power.padsHeld = false
  running : running s = true
  safe : inSafe s = false
  entry : entryHeld s = false
  supply : s.power.spkvdd = true

theorem SpeakersFree.of_outsOnly {s t : State} (h : OutsOnly s t) (hs : SpeakersFree s) : SpeakersFree t := by
  rw [OutsOnly] at h
  rw [h]
  exact ⟨hs.latch, hs.pads, hs.running, hs.safe, hs.entry, hs.supply⟩

/-- A clamped speaker channel that nothing holds starts switching. -/
theorem startEvent_speaker {d : Nat} {s : State} (hd : 32 ≤ d ∧ d < 34) (hs : SpeakersFree s) (hen : (active s).outEn d = true)
    (hl : (dac s d).lockout = false) (hp : (dac s d).pause = 0) (hc : (dac s d).phase = .clamped) : startEvent d s =
      onDac d (fun x => { x with phase := .spkStart, clamp := false, since := now s, stopped := false }) s := by
  have hhp : isHp d = false := decide_eq_false (by omega)
  have hfree : startHeld s d = false := by
    simp [startHeld, hhp, hs.latch, hs.pads, hs.running, hs.safe, hs.entry, hs.supply, hl, hp]
  rw [← sequenceStart_speaker hd]
  simp [startEvent, hen, hfree, hc, hhp]

/-- A start event changes its own output, and of the rest pumps at most. -/
theorem dac_startEvent_other {d k : Nat} (h : k ≠ d) (s : State) : dac (startEvent d s) k = dac s k := by
  have hdac (f : Dac → Dac) (t : State) : dac (onDac d f t) k = dac t k := dac_onDac_other _ _ _ _ h
  unfold startEvent
  split
  · split
    · exact hdac ..
    · rfl
  · split
    · split
      · exact hdac ..
      · exact dac_sequenceStart_other h s
    · exact hdac ..
    all_goals rfl

/-- At a speaker channel a start event changes that channel alone, and not its pauses. -/
theorem startEvent_speaker_keeps {d : Nat} (hd : 32 ≤ d ∧ d < 34) (s : State) :
    DacsOnly s (startEvent d s) ∧ (dac (startEvent d s) d).pause = (dac s d).pause := by
  have hhp : isHp d = false := decide_eq_false (by omega)
  unfold startEvent
  simp only [hhp, sequenceStart_speaker hd, Bool.false_eq_true, false_and, if_false]
  split
  · exact ⟨rfl, rfl⟩
  · split
    · exact ⟨rfl, by rw [dac_onDac_same]⟩
    · exact ⟨rfl, by rw [unmute, dac_onDac_same]⟩
    all_goals exact ⟨rfl, rfl⟩

end Sys2Proof.Machine
end

section
/-! PROOF. The output sequences (O8): OUT.CFG, the steps of Tables 8.3 and 8.4, the VCM node, class G and the starvation fades. -/

namespace Sys2Proof.Machine

/-! ## The charge pumps (R273) -/

/-- The outputs of a pair that wait for its pump are trimmed from now on. -/
def pumpReady (t : Nat) (x : Dac) : Dac := if x.phase = .pumpStart then { x with phase := .servo, since := t } else x

/-- One output of a pair whose pump is up. -/
def pumpReadyAt (s : State) (d : Nat) : State :=
  if (dac s d).phase = .pumpStart then onDac d (fun x => { x with phase := .servo, since := now s }) s else s

theorem pumpReadyAt_dacsOnly (s : State) (d : Nat) : DacsOnly s (pumpReadyAt s d) := by
  unfold pumpReadyAt
  split <;> rfl

theorem pump_pumpReadyAt (s : State) (d m : Nat) : pump (pumpReadyAt s d) m = pump s m := by
  unfold pumpReadyAt
  split <;> rfl

theorem dac_pumpReadyAt (s : State) (d k : Nat) :
    dac (pumpReadyAt s d) k = if k = d then pumpReady (now s) (dac s k) else dac s k := by
  unfold pumpReadyAt
  by_cases hp : (dac s d).phase = .pumpStart
  · rw [if_pos hp, dac_onDac]
    refine ite_congr rfl (fun hk => ?_) (fun _ => rfl)
    rw [hk, pumpReady, if_pos hp]
  · rw [if_neg hp]
    split
    · next hk => rw [hk, pumpReady, if_neg hp]
    · rfl

/-- A pair whose soft start is over. -/
def pumpUp (n : Nat) (s : State) : State :=
  pumpReadyAt (pumpReadyAt (onPump n (fun p => { p with up := true, high := classHigh s n }) s) (24 + 2 * n)) (25 + 2 * n)

theorem pumpSoftStartDone_eq {n : Nat} {s : State} (hn : n < 4) (hon : (pump s n).on = true) (hup : (pump s n).up = false)
    (ht : seqTime s 500000 ≤ since s (pump s n).since) : pumpSoftStartDone n s = pumpUp n s := by
  have hdue : n < 4 ∧ (pump s n).on = true ∧ (pump s n).up = false ∧ seqTime s 500000 ≤ since s (pump s n).since :=
    ⟨hn, hon, hup, ht⟩
  simp only [pumpSoftStartDone, if_pos hdue]
  rfl

theorem pumpUp_dacsPumpsOnly (n : Nat) (s : State) : DacsPumpsOnly s (pumpUp n s) :=
  (DacsPumpsOnly.onPump n _ s).trans
    ((pumpReadyAt_dacsOnly _ _).dacsPumpsOnly.trans (pumpReadyAt_dacsOnly _ _).dacsPumpsOnly)

theorem pump_pumpUp (n m : Nat) (s : State) :
    pump (pumpUp n s) m = if m = n then { pump s m with up := true, high := classHigh s n } else pump s m := by
  refine (pump_pumpReadyAt ..).trans ((pump_pumpReadyAt ..).trans (pump_onPump ..))

theorem dac_pumpUp (n d : Nat) (s : State) : dac (pumpUp n s) d =
    if (d = 24 + 2 * n ∨ d = 25 + 2 * n) ∧ (dac s d).phase = .pumpStart
    then { dac s d with phase := .servo, since := now s } else dac s d := by
  refine (dac_pumpReadyAt ..).trans ?_
  rw [(pumpReadyAt_dacsOnly _ _).outsOnly.now, dac_pumpReadyAt, dac_onPump]
  by_cases hl : d = 24 + 2 * n
  · rw [if_neg (by omega), if_pos hl]
    simp only [pumpReady, hl, true_or, true_and]
    rfl
  by_cases hr : d = 25 + 2 * n
  · rw [if_pos hr, if_neg hl]
    simp only [pumpReady, hr, or_true, true_and]
    rfl
  · rw [if_neg hr, if_neg hl, if_neg (fun h => h.1.elim hl hr)]

theorem pumpStop_eq {n : Nat} {s : State} (hn : n < 4) (hon : (pump s n).on = true)
    (hd : ∀ d ∈ [24 + 2 * n, 25 + 2 * n], (dac s d).phase = .clamped ∧ seqTime s 10000000 ≤ since s (dac s d).since) :
    pumpStop n s = onPump n (fun _ => {}) s := by
  obtain ⟨hlp, hlt⟩ := hd (24 + 2 * n) (by simp)
  obtain ⟨hrp, hrt⟩ := hd (25 + 2 * n) (by simp)
  simp [pumpStop, hn, hon, hlp, hlt, hrp, hrt]

/-! ## The servo and the ramps (R267, R275) -/

/-- An output trimmed by its servo, and the margin that follows from the trims (Table 13.7). -/
def trimmed (d : Nat) (trim : Int) (s : State) : State :=
  let s1 := onDac d (fun x => { x with trim := trim }) s
  { s1 with margin := { s1.margin with mh := headphoneMargin s1 } }

theorem servoDone_eq {d : Nat} {s : State} (trim : Int) (hp : (dac s d).phase = .servo)
    (ht : seqTime s 2000000 ≤ since s (dac s d).since) (hg : gHeld s = false) :
    servoDone d trim s = onDac d (unmuted (trimmed d trim s)) (trimmed d trim s) := by
  rw [← unmute_eq (show gHeld (trimmed d trim s) = false from hg)]
  exact if_pos ⟨hp, ht⟩

/-- A trim and the unmute ramp leave the output changed, the margin, and all else as it was. -/
theorem onDac_trimmed (d : Nat) (trim : Int) (f : Dac → Dac) (s : State) : onDac d f (trimmed d trim s) = { s with
    outs := { s.outs with dacs := (onDac d f (trimmed d trim s)).outs.dacs }
    margin := { s.margin with mh := (onDac d f (trimmed d trim s)).margin.mh } } := by
  simp only [onDac, trimmed]

theorem dac_trimmed (d : Nat) (trim : Int) (s : State) (k : Nat) :
    dac (trimmed d trim s) k = if k = d then { dac s k with trim := trim } else dac s k := by
  have houts : (trimmed d trim s).outs = (onDac d (fun x => { x with trim := trim }) s).outs := by simp only [trimmed]
  rw [dac, houts]
  exact dac_onDac ..

theorem speakerUnmuteStart_eq {d : Nat} {s : State} (hp : (dac s d).phase = .spkStart)
    (ht : seqTime s 1000000 ≤ since s (dac s d).since) (hg : gHeld s = false) :
    speakerUnmuteStart d s = onDac d (unmuted s) s := by
  rw [← unmute_eq hg]
  exact if_pos ⟨hp, ht⟩

theorem muteRampEnd_eq {d : Nat} {s : State} (hp : (dac s d).phase = .muting)
    (ht : seqTime s 4000000 ≤ since s (dac s d).since) : muteRampEnd d s = resetRest (onDac d Dac.halt (clampNow d s)) :=
  if_pos ⟨hp, ht⟩

theorem dac_resetRest (s : State) (d : Nat) : dac (resetRest s) d = dac s d := by
  unfold resetRest
  split <;> rfl

theorem muting_resetRest (s : State) : muting (resetRest s) = muting s := by
  unfold resetRest
  split <;> rfl

/-- In reset the VCM node and the pumps rest once no mute ramp runs (R390). -/
theorem resetRest_frame (s : State) : resetRest s = { s with outs := { s.outs with
    dacs := (resetRest s).outs.dacs
    vcm := if s.power.st = .reset ∧ muting (resetRest s) = false then .zero else s.outs.vcm
    pumps := if s.power.st = .reset ∧ muting (resetRest s) = false then [] else s.outs.pumps } } := by
  rw [muting_resetRest]
  unfold resetRest
  split <;> rfl

/-- An output that has left sound through a mute ramp (R279). -/
def rampedDown (d : Nat) (s : State) : State := onDac d Dac.halt (clampNow d s)

theorem dac_rampedDown (d k : Nat) (s : State) :
    dac (rampedDown d s) k = if k = d then (clampedAt (now s) (dac s k)).halt else dac s k := by
  rw [rampedDown, dac_onDac, dac_clampNow]
  split <;> rfl

/-! ## The VCM node (R283) -/

theorem vcmFollow_stays {s : State} (h : ∀ e, s.power.entry = some e → e.queried = true → deep e.target = true →
    allClamped s = true → s.outs.vcm = .zero ∨ s.outs.vcm = .rampDown) : vcmFollow s = s := by
  unfold vcmFollow
  split
  · next e he =>
    refine if_neg ?_
    rintro ⟨hq, hd, hc, hv⟩
    rcases h e he hq hd hc with h0 | h0 <;> simp [h0] at hv
  · rfl

theorem vcmFollow_ramps {s : State} {e : SleepEntry} (he : s.power.entry = some e) (hq : e.queried = true)
    (hd : deep e.target = true) (hc : allClamped s = true) (hv : s.outs.vcm = .on ∨ s.outs.vcm = .rampUp) :
    vcmFollow s = vcmRamp .rampDown s := by
  simp only [vcmFollow, he]
  exact if_pos ⟨hq, hd, hc, hv⟩

theorem vcmRampEnd_down {s : State} (hv : s.outs.vcm = .rampDown) (ht : 40000000 ≤ since s s.outs.vcmAt) :
    vcmRampEnd s = { s with outs := { s.outs with vcm := .zero } } := by
  have hdue : 40 * msec ≤ since s s.outs.vcmAt := ht
  simp only [vcmRampEnd, hdue, if_true, hv]

/-- The node is at its level. -/
def vcmUp (s : State) : State := { s with outs := { s.outs with vcm := .on } }

/-- An output that waited for the node runs Table 8.3. -/
def vcmStart (s : State) (d : Nat) : State := if (dac s d).phase = .waitVcm then sequenceStart d s else s

theorem vcmRampEnd_up {s : State} (hv : s.outs.vcm = .rampUp) (ht : 40000000 ≤ since s s.outs.vcmAt) :
    vcmRampEnd s = (List.range 34).foldl vcmStart (vcmUp s) := by
  have hdue : 40 * msec ≤ since s s.outs.vcmAt := ht
  simp only [vcmRampEnd, hdue, if_true, hv]
  rfl

/-- An output after the node has reached its level. -/
def vcmDac (s : State) (d : Nat) : Dac := if (dac s d).phase = .waitVcm then seqStarted s d (dac s d) else dac s d

/-- A headphone output below `m` of pair `n` waited for the node. -/
def pairWaits (s : State) (m n : Nat) : Prop := ∃ d < m, isHp d = true ∧ n = pairOf d ∧ (dac s d).phase = .waitVcm

theorem pairWaits_succ (s : State) (m n : Nat) :
    pairWaits s (m + 1) n ↔ pairWaits s m n ∨ (isHp m = true ∧ n = pairOf m ∧ (dac s m).phase = .waitVcm) := by
  constructor
  · rintro ⟨d, hd, h⟩
    rcases Nat.lt_succ_iff_lt_or_eq.1 hd with hlt | rfl
    · exact .inl ⟨d, hlt, h⟩
    · exact .inr h
  · rintro (⟨d, hd, h⟩ | h)
    · exact ⟨d, Nat.lt_succ_of_lt hd, h⟩
    · exact ⟨m, Nat.lt_succ_self m, h⟩

/-- The machine after the outputs below `m` have started: those that waited, and the pumps of their pairs. -/
structure VcmStarted (s : State) (m : Nat) (t : State) : Prop where
  frame : DacsPumpsOnly s t
  dacs : ∀ d, dac t d = if d < m then vcmDac s d else dac s d
  idle : ∀ n, ¬ pairWaits s m n → pump t n = pump s n
  running : ∀ n, (pump s n).on = true → pump t n = pump s n
  started : ∀ n, pairWaits s m n → (pump s n).on = false → pump t n = { on := true, since := now s }

/-- A headphone output of a pair whose pump another output has started waits for it as one that starts it does. -/
theorem VcmStarted.seqStarted {s t : State} {m d : Nat} (h : VcmStarted s m t) (x : Dac) : seqStarted t d x = seqStarted s d x := by
  have hn : now t = now s := h.frame.outsOnly.now
  have hu : unmuted t x = unmuted s x := by rw [unmuted, h.frame.outsOnly.gNow, hn]; rfl
  have hpump : ((pump t (pairOf d)).on = true ∧ (pump t (pairOf d)).up = true) =
      ((pump s (pairOf d)).on = true ∧ (pump s (pairOf d)).up = true) := by
    cases hon : (pump s (pairOf d)).on
    · by_cases hw : pairWaits s m (pairOf d)
      · rw [h.started _ hw hon]; simp
      · rw [h.idle _ hw, hon]
    · rw [h.running _ hon, hon]
  simp only [Machine.seqStarted, hu, hn, hpump]

theorem VcmStarted.step {s t : State} {m : Nat} (hm : m < 34) (hv : s.outs.vcm = .on) (hg : gHeld s = false)
    (h : VcmStarted s m t) : VcmStarted s (m + 1) (vcmStart t m) := by
  have hself : dac t m = dac s m := by rw [h.dacs, if_neg (Nat.lt_irrefl m)]
  by_cases hw : (dac s m).phase = .waitVcm
  case neg =>
    have hstep : vcmStart t m = t := by rw [vcmStart, hself, if_neg hw]
    have hsame (n : Nat) : pairWaits s (m + 1) n ↔ pairWaits s m n :=
      (pairWaits_succ s m n).trans (or_iff_left fun h => hw h.2.2)
    rw [hstep]
    refine ⟨h.frame, fun d => ?_, fun n hn => h.idle n (mt (hsame n).2 hn), h.running, fun n hn => h.started n ((hsame n).1 hn)⟩
    rw [h.dacs]
    rcases Nat.lt_trichotomy d m with hd | rfl | hd
    · rw [if_pos hd, if_pos (by omega)]
    · rw [if_neg (by omega), if_pos (by omega), vcmDac, if_neg hw]
    · rw [if_neg (by omega), if_neg (by omega)]
  have hstep : vcmStart t m = sequenceStart m t := by rw [vcmStart, hself, if_pos hw]
  have hvt : t.outs.vcm = .on := by rw [h.frame]; exact hv
  have hgt : gHeld t = false := h.frame.outsOnly.gHeld.trans hg
  have hnow : now t = now s := h.frame.outsOnly.now
  rw [hstep]
  refine ⟨h.frame.trans (sequenceStart_dacsPumpsOnly m t), fun d => ?_, fun n hn => ?_, fun n hn => ?_, fun n hn hoff => ?_⟩
  · rw [dac_sequenceStart hm hvt hgt, h.dacs, h.seqStarted]
    rcases Nat.lt_trichotomy d m with hd | rfl | hd
    · rw [if_neg (by omega), if_pos hd, if_pos (by omega)]
    · rw [if_pos rfl, if_neg (by omega), if_pos (by omega), vcmDac, if_pos hw]
    · rw [if_neg (by omega), if_neg (by omega), if_neg (by omega)]
  · rw [pairWaits_succ, not_or] at hn
    rw [pump_sequenceStart, if_neg (fun hp => hn.2 ⟨hp.1, hp.2.1, hw⟩)]
    exact h.idle n hn.1
  · rw [pump_sequenceStart, h.running n hn, if_neg (fun hp => Bool.false_ne_true (hp.2.2.symm.trans hn))]
  · rw [pump_sequenceStart]
    by_cases hw0 : pairWaits s m n
    · rw [h.started n hw0 hoff, if_neg (fun hp => Bool.false_ne_true hp.2.2.symm)]
    · obtain ⟨hhp, hpair, -⟩ := ((pairWaits_succ s m n).1 hn).resolve_left hw0
      rw [h.idle n hw0, if_pos ⟨hhp, hpair, hoff⟩, hnow]

theorem vcmStarted_foldl {s : State} (hv : s.outs.vcm = .on) (hg : gHeld s = false) {m : Nat} (hm : m ≤ 34) :
    VcmStarted s m ((List.range m).foldl vcmStart s) := by
  induction m with
  | zero =>
    exact ⟨.refl s, fun d => (if_neg (Nat.not_lt_zero d)).symm, fun _ _ => rfl, fun _ _ => rfl, fun _ h => absurd h (by simp [pairWaits])⟩
  | succ m ih =>
    rw [List.range_succ, List.foldl_append]
    exact (ih (by omega)).step (by omega) hv hg

/-- The pairs are the pumps 0 to 3, of the outputs 24 + 2n and 25 + 2n. -/
theorem pairWaits_all (s : State) (n : Nat) : pairWaits s 34 n ↔
    n < 4 ∧ ((dac s (24 + 2 * n)).phase = .waitVcm ∨ (dac s (25 + 2 * n)).phase = .waitVcm) := by
  simp only [pairWaits, isHp, pairOf, decide_eq_true_eq]
  constructor
  · rintro ⟨d, hd, hhp, rfl, hw⟩
    refine ⟨by omega, ?_⟩
    rcases (by omega : d = 24 + 2 * ((d - 24) / 2) ∨ d = 25 + 2 * ((d - 24) / 2)) with h | h
    · exact .inl (h ▸ hw)
    · exact .inr (h ▸ hw)
  · rintro ⟨hn, hw | hw⟩
    · exact ⟨_, by omega, by omega, by omega, hw⟩
    · exact ⟨_, by omega, by omega, by omega, hw⟩

theorem VcmStarted.pump {s t : State} (h : VcmStarted s 34 t) (n : Nat) : pump t n =
    if n < 4 ∧ (pump s n).on = false ∧ ((dac s (24 + 2 * n)).phase = .waitVcm ∨ (dac s (25 + 2 * n)).phase = .waitVcm)
    then { on := true, since := now s } else pump s n := by
  split
  · next hp => exact h.started n ((pairWaits_all s n).2 ⟨hp.1, hp.2.2⟩) hp.2.1
  · next hp =>
    cases hon : (Machine.pump s n).on
    · exact h.idle n fun hw => hp ⟨((pairWaits_all s n).1 hw).1, hon, ((pairWaits_all s n).1 hw).2⟩
    · exact h.running n hon

/-! ## Class G and the starvation fades (R271, R274) -/

theorem classgHigh_eq {n : Nat} {s : State} (hup : (pump s n).up = true) (hc : classHigh s n = false)
    (hd : ∃ d ∈ [24 + 2 * n, 25 + 2 * n], 539423503 < (dac s d).level.natAbs) :
    classgHigh n s = onPump n (fun p => { p with high := true }) s := by
  refine if_pos ⟨hup, hc, ?_⟩
  obtain ⟨d, hmem, hl⟩ := hd
  simp only [List.mem_cons, List.not_mem_nil, or_false] at hmem
  rcases hmem with rfl | rfl
  · exact lt_of_lt_of_le hl (Nat.le_max_left ..)
  · exact lt_of_lt_of_le hl (Nat.le_max_right ..)

theorem classgLow_eq {n : Nat} {s : State} (hup : (pump s n).up = true) (hc : classHigh s n = false)
    (hd : ∀ d ∈ [24 + 2 * n, 25 + 2 * n], (dac s d).level.natAbs ≤ 381882595) (ht : 100000000 ≤ since s (pump s n).loudAt) :
    classgLow n s = onPump n (fun p => { p with high := false }) s :=
  if_pos ⟨hup, hc, Nat.max_le.2 ⟨hd _ (by simp), hd _ (by simp)⟩, ht⟩

theorem starvationFadeEnd_out {d : Nat} {s : State} (hs : (dac s d).starve = .fadeOut) (ht : 3072 ≤ finalSteps s (dac s d).sAt) :
    starvationFadeEnd d s = onDac d (fun x => { x with starve := .silent }) s := by
  simp only [starvationFadeEnd, hs]
  exact if_neg (Nat.not_lt.2 ht)

theorem starvationFadeEnd_in {d : Nat} {s : State} (hs : (dac s d).starve = .fadeIn) (ht : 3072 ≤ finalSteps s (dac s d).sAt) :
    starvationFadeEnd d s = onDac d (fun x => { x with starve := .none }) s := by
  simp only [starvationFadeEnd, hs]
  exact if_neg (Nat.not_lt.2 ht)

/-- Settles O8: each event is its step where its time has passed, read output by output and pump by pump. -/
theorem outputSequences : Obligations.OutputSequences := by
  unfold Obligations.OutputSequences
  refine ⟨fun a s h hi h0 h1 hb => ?outCfg, fun s n hn hon hup ht => ?pumpUp, fun s d trim hp ht hg => ?servo, fun s d hp ht hg => ?spk,
    fun s d hp hg ht => OutsOnly.event_eq rfl (if_pos ⟨hp, hg, ht⟩), fun s d hp ht => ?mute, fun s h => vcmFollow_stays h,
    fun s e he hq hd hc hv => vcmFollow_ramps he hq hd hc hv, fun s n hn hon hd => OutsOnly.event_eq rfl (pumpStop_eq hn hon hd),
    fun s hv ht => OutsOnly.event_eq rfl (vcmRampEnd_down hv ht), fun s hv ht hg => ?vcm,
    fun s n hup hc hd => OutsOnly.event_eq rfl (classgHigh_eq hup hc hd),
    fun s n hup hc hd ht => OutsOnly.event_eq rfl (classgLow_eq hup hc hd ht),
    fun s d hs ht => OutsOnly.event_eq rfl (starvationFadeEnd_out hs ht),
    fun s d hs ht => OutsOnly.event_eq rfl (starvationFadeEnd_in hs ht)⟩
  case outCfg =>
    exact execRow_writeShadow (rate := fun s => some ((active s).outRateCode (opnd a 0).toNat)) (f := writeOut a) h hi
      ⟨rfl, rfl, rfl⟩ rfl (by simpa [hb, hi] using And.intro h0 h1)
  case pumpUp =>
    refine ⟨_, (pumpUp_dacsPumpsOnly n s).outsOnly.event_eq (pumpSoftStartDone_eq hn hon hup ht), ?_, fun d => dac_pumpUp n d s,
      pumpUp_dacsPumpsOnly n s, fun m hm => ?_⟩
    · rw [pump_pumpUp, if_pos rfl]
    · rw [pump_pumpUp, if_neg hm]
  case servo =>
    refine ⟨_, (congrArg (ev s) (servoDone_eq trim hp ht hg)).trans (ev_of_kept rfl rfl), ?_, onDac_trimmed .., fun k hk => ?_⟩
    · rw [dac_onDac_same, dac_trimmed, if_pos rfl]
      rfl
    · rw [dac_onDac_other _ _ _ _ hk, dac_trimmed, if_neg hk]
  case spk => exact OutsOnly.event_eq rfl (speakerUnmuteStart_eq hp ht hg)
  case mute =>
    have hdac (k : Nat) : dac (resetRest (rampedDown d s)) k = if k = d then (clampedAt (now s) (dac s k)).halt else dac s k :=
      (dac_resetRest ..).trans (dac_rampedDown d k s)
    have hframe := resetRest_frame (rampedDown d s)
    have houts : OutsOnly s (resetRest (rampedDown d s)) := by rw [OutsOnly, hframe]; rfl
    refine ⟨_, (houts.trans (vcmFollow_outsOnly _)).event_eq (congrArg vcmFollow (muteRampEnd_eq hp ht)), ?_, fun k hk => ?_, hframe⟩
    · rw [hdac, if_pos rfl, clampedAt, hp, if_neg (by decide)]
      rfl
    · rw [hdac, if_neg hk]
  case vcm =>
    have hst := vcmStarted_foldl (s := vcmUp s) rfl hg (Nat.le_refl 34)
    have hup := vcmRampEnd_up hv ht
    generalize (List.range 34).foldl vcmStart (vcmUp s) = t at hst hup
    have hframe : t = { s with outs := { s.outs with vcm := .on, dacs := t.outs.dacs, pumps := t.outs.pumps } } := hst.frame
    have houts : OutsOnly s t := by rw [OutsOnly, hframe]
    refine ⟨t, houts.event_eq hup, by rw [hframe], ?_, hst.pump, fun d => ?_⟩
    · rw [hframe]
    · rw [hst.dacs]
      by_cases hd : d < 34
      · by_cases hw : (dac s d).phase = .waitVcm
        · rw [if_pos hd, vcmDac, if_pos (show (dac (vcmUp s) d).phase = .waitVcm from hw), if_neg (by simp [hw, hd])]
          rfl
        · rw [if_pos hd, vcmDac, if_neg (show ¬ (dac (vcmUp s) d).phase = .waitVcm from hw), if_pos (.inr hw)]
          rfl
      · rw [if_neg hd, if_pos (.inl (Nat.not_lt.1 hd))]
        rfl

end Sys2Proof.Machine
end

section
/-! PROOF. Speaker protection (O9): over-current trips, the restart, over-temperature and recovery. -/

namespace Sys2Proof.Machine

/-! ## Over-current (R281, Table 8.5) -/

theorem speakerOvercurrent_trips {k : Nat} {s : State} (hk : k < 2) (hc : (dac s (32 + k)).clamp = false) :
    let trips := now s :: (dac s (32 + k)).trips.filter (fun t => decide (now s - t < 1000000000))
    speakerOvercurrent k s = logFault 0x0A k (toWord k) (toWord trips.length) (onDac (32 + k) (fun x => { x with
      trips := trips, lockout := x.lockout || decide (3 ≤ trips.length), pause := x.pause ||| 1 }) (clampNow (32 + k) s)) :=
  if_pos ⟨hk, hc⟩

/-- An event that changes the outputs and logs an error keeps the queue and OTP, also where the VCM node follows. -/
theorem ev_vcmFollow_logged {s t u : State} {c i : Nat} {d0 d1 : Word} (hu : OutsOnly s u) (ht : t = logFault c i d0 d1 u) :
    ev s (vcmFollow t) = .next (vcmFollow (logFault c i d0 d1 u)) := by
  have hf := vcmFollow_outsOnly (logFault c i d0 d1 u)
  rw [OutsOnly] at hf hu
  rw [ht]
  refine ev_of_kept ?_ ?_
  · rw [hf, hu, logFault_pending]
  · rw [hf, hu, logFault_sec]

/-! ## Restarts (R281) -/

/-- The pauses that `m` leaves. -/
def unpaused (m : BitVec 3) (x : Dac) : Dac := { x with pause := x.pause &&& m }

/-- A start event of a speaker channel of which a pause ends. -/
def spkRestart (d : Nat) (m : BitVec 3) (s : State) : State := startEvent d (onDac d (unpaused m) s)

theorem speakerTripRestart_eq {k : Nat} {s : State} (hk : k < 2) (hp : (dac s (32 + k)).pause = 1)
    (ht : 100000000 ≤ since s (dac s (32 + k)).since) : speakerTripRestart k s = spkRestart (32 + k) 6 s :=
  if_pos ⟨hk, by rw [hp]; rfl, ht⟩

section
variable {d : Nat} (hd : 32 ≤ d ∧ d < 34) (m : BitVec 3) (s : State)

include hd in
theorem spkRestart_dacsOnly : DacsOnly s (spkRestart d m s) :=
  (DacsOnly.onDac d (unpaused m) s).trans (startEvent_speaker_keeps hd (onDac d (unpaused m) s)).1

include hd in
theorem spkRestart_pause : (dac (spkRestart d m s) d).pause = (dac s d).pause &&& m :=
  (startEvent_speaker_keeps hd (onDac d (unpaused m) s)).2.trans (congrArg Dac.pause (dac_onDac_same d (unpaused m) s))

theorem dac_spkRestart_other {k : Nat} (hk : k ≠ d) : dac (spkRestart d m s) k = dac s k := by
  rw [spkRestart, dac_startEvent_other hk, dac_onDac_other _ _ _ _ hk]

include hd in
/-- A channel starts switching where nothing else holds it. -/
theorem dac_spkRestart_free {s : State} (hs : SpeakersFree s) (hen : (active s).outEn d = true) (hp : (dac s d).pause &&& m = 0)
    (hl : (dac s d).lockout = false) (hc : (dac s d).phase = .clamped) : dac (spkRestart d m s) d =
      { dac s d with pause := 0, phase := .spkStart, clamp := false, since := now s, stopped := false } := by
  have hx : dac (onDac d (unpaused m) s) d = { dac s d with pause := 0 } := by rw [dac_onDac_same, unpaused, hp]
  rw [spkRestart, startEvent_speaker hd (hs.of_outsOnly (.onDac d _ s)) hen (by rw [hx]; exact hl) (by rw [hx]) (by rw [hx]; exact hc),
    dac_onDac_same, hx]
  rfl

end

/-! ## Over-temperature and recovery (R281, Table 13.4) -/

/-- An entry changes the log and raises FAULT. -/
theorem logFault_frame (c i : Nat) (d0 d1 : Word) (s : State) : logFault c i d0 d1 s = { s with
    flt := (logFault c i d0 d1 s).flt, irq := { s.irq with pend := setBit s.irq.pend irqFault true } } := by
  rw [logFault_eq]
  rfl

/-- Only the DAC channels, the log and the pending flags differ, with FAULT raised and `n` entries more. -/
structure DacsLogged (n : Nat) (s t : State) : Prop where
  frame : t = { s with outs := { s.outs with dacs := t.outs.dacs }, flt := t.flt, irq := { s.irq with pend := t.irq.pend } }
  fault : bit t.irq.pend irqFault = true
  written : t.flt.written = s.flt.written + n

/-- An entry after a change of the DAC channels. -/
theorem DacsOnly.logged {s t : State} (h : DacsOnly s t) (c i : Nat) (d0 d1 : Word) : DacsLogged 1 s (logFault c i d0 d1 t) := by
  have hf := logFault_frame c i d0 d1 t
  refine ⟨?_, by rw [hf]; exact bit_setBit_true (by decide) _, ?_⟩
  · have hirq : (logFault c i d0 d1 t).irq.pend = setBit t.irq.pend irqFault true := by rw [hf]
    rw [logFault_outs, hirq]
    conv_lhs => rw [hf]
    generalize (logFault c i d0 d1 t).flt = x
    rw [DacsOnly] at h
    rw [h]
  · rw [logFault_written]
    rw [DacsOnly] at h
    rw [h]

theorem DacsLogged.trans {m n : Nat} {s t u : State} (h : DacsLogged m s t) (h' : DacsLogged n t u) : DacsLogged (m + n) s u := by
  refine ⟨?_, h'.fault, by rw [h'.written, h.written, Nat.add_assoc]⟩
  have hf := h'.frame
  rw [h.frame] at hf
  exact hf

theorem dac_logFault (c i : Nat) (d0 d1 : Word) (s : State) (d : Nat) : dac (logFault c i d0 d1 s) d = dac s d := by
  rw [dac, logFault_outs]
  rfl

/-- A channel that the temperature pauses. -/
def tempPaused (x : Dac) : Dac := { x with pause := x.pause ||| 2 }

/-- A speaker channel that the temperature pauses runs Table 8.4 and logs its trip. -/
def overheats (k : Nat) (s : State) : State :=
  logFault 0x0A k (toWord (256 + k)) (toWord (tripsNow s (32 + k))) (stopEvent (32 + k) (onDac (32 + k) tempPaused s))

theorem speakerOvertemp_eq {code : Nat} {s : State} (hc : 3264 ≤ code) (hp : (dac s 32).pause.getLsbD 1 = false) :
    speakerOvertemp code s = overheats 1 (overheats 0 s) := if_pos ⟨hc, hp⟩

theorem overheats_logged (k : Nat) (s : State) : DacsLogged 1 s (overheats k s) :=
  ((DacsOnly.onDac (32 + k) tempPaused s).trans (stopEvent_dacsOnly (32 + k) _)).logged ..

theorem dac_overheats_other {d k : Nat} (h : d ≠ 32 + k) (s : State) : dac (overheats k s) d = dac s d := by
  rw [overheats, dac_logFault, dac_stopEvent_other h, dac_onDac_other _ _ _ _ h]

theorem overheats_pause (k : Nat) (s : State) : (dac (overheats k s) (32 + k)).pause = (dac s (32 + k)).pause ||| 2 := by
  rw [overheats, dac_logFault, stopEvent_pause, dac_onDac_same]
  rfl

/-- A channel that plays begins its mute ramp. -/
theorem dac_overheats_playing {k : Nat} {s : State} (hp : (dac s (32 + k)).phase = .playing) (hg : (dac s (32 + k)).g = .one) :
    dac (overheats k s) (32 + k) = mutedAt (now s) (tempPaused (dac s (32 + k))) := by
  have hx : dac (onDac (32 + k) tempPaused s) (32 + k) = tempPaused (dac s (32 + k)) := dac_onDac_same ..
  rw [overheats, dac_logFault, dac_stopEvent_playing (by rw [hx]; exact hp) (by rw [hx]; exact hg), hx]
  rfl

theorem speakerTempRecover_eq {code : Nat} {s : State} (hc : code < 2944) (hp : (dac s 32).pause.getLsbD 1 = true) :
    speakerTempRecover code s = spkRestart 33 5 (spkRestart 32 5 s) := if_pos ⟨hc, hp⟩

/-- Settles O9: trips by the clamp and the entry, restarts by the start event of a free speaker channel, channel by channel. -/
theorem speakerProtection : Obligations.SpeakerProtection := by
  unfold Obligations.SpeakerProtection
  refine ⟨fun s k hk hc => ev_vcmFollow_logged rfl (speakerOvercurrent_trips hk hc), fun s d => ⟨?_, fun e he => ?_⟩,
    fun s k hk hp hl hph ht hen hla hpa hru hsa hent hsu => ?restart, fun s code hc hp => ?hot, fun s code hc hp => ?cool⟩
  · exact dac_onDac_same ..
  · exact dac_onDac_other _ _ _ _ he
  case restart =>
    have hd : 32 ≤ 32 + k ∧ 32 + k < 34 := by omega
    have hframe := spkRestart_dacsOnly hd 6 s
    exact ⟨_, hframe.outsOnly.event_eq (speakerTripRestart_eq hk hp ht),
      dac_spkRestart_free hd 6 ⟨hla, hpa, hru, hsa, hent, hsu⟩ hen (by rw [hp]; rfl) hl hph,
      fun d hd => dac_spkRestart_other 6 s hd, hframe⟩
  case hot =>
    have hboth := (overheats_logged 0 s).trans (overheats_logged 1 (overheats 0 s))
    have h32 : dac (overheats 1 (overheats 0 s)) 32 = dac (overheats 0 s) 32 := dac_overheats_other (by decide) _
    have h33 : dac (overheats 0 s) 33 = dac s 33 := dac_overheats_other (by decide) s
    have hnow : now (overheats 0 s) = now s := by rw [now, (overheats_logged 0 s).frame]; rfl
    refine ⟨_, (congrArg (ev s) (speakerOvertemp_eq hc hp)).trans (ev_of_kept (by rw [hboth.frame]) (by rw [hboth.frame])), ?_, ?_,
      hboth.written, hboth.fault, ?_, fun d h0 h1 => (dac_overheats_other h1 _).trans (dac_overheats_other h0 s), hboth.frame⟩
    · rw [h32]; exact overheats_pause 0 s
    · rw [← h33]; exact overheats_pause 1 (overheats 0 s)
    · intro d hd hph hg
      simp only [List.mem_cons, List.not_mem_nil, or_false] at hd
      rcases hd with rfl | rfl
      · rw [h32, dac_overheats_playing (k := 0) hph hg]
        exact ⟨rfl, rfl, rfl, rfl, rfl, rfl⟩
      · rw [dac_overheats_playing (k := 1) (by rw [h33]; exact hph) (by rw [h33]; exact hg), hnow]
        exact ⟨rfl, rfl, rfl, rfl, rfl, rfl⟩
  case cool =>
    have hf0 := spkRestart_dacsOnly (d := 32) (by decide) 5 s
    have hboth := hf0.trans (spkRestart_dacsOnly (d := 33) (by decide) 5 (spkRestart 32 5 s))
    have h32 : dac (spkRestart 33 5 (spkRestart 32 5 s)) 32 = dac (spkRestart 32 5 s) 32 := dac_spkRestart_other 5 _ (by decide)
    have h33 : dac (spkRestart 32 5 s) 33 = dac s 33 := dac_spkRestart_other 5 s (by decide)
    refine ⟨_, hboth.outsOnly.event_eq (speakerTempRecover_eq hc hp), ?_, ?_, ?_,
      fun d h0 h1 => (dac_spkRestart_other 5 _ h1).trans (dac_spkRestart_other 5 s h0), hboth⟩
    · rw [h32]; exact spkRestart_pause (by decide) 5 s
    · rw [← h33]; exact spkRestart_pause (by decide) 5 (spkRestart 32 5 s)
    · intro d hd hph hpau hl hen hla hpa hru hsa hent hsu
      have hfree : SpeakersFree s := ⟨hla, hpa, hru, hsa, hent, hsu⟩
      simp only [List.mem_cons, List.not_mem_nil, or_false] at hd
      rcases hd with rfl | rfl
      · rw [h32, dac_spkRestart_free (by decide) 5 hfree hen (by rw [hpau]; rfl) hl hph]
        exact ⟨rfl, rfl, rfl⟩
      · rw [← h33] at hph hpau hl
        rw [dac_spkRestart_free (by decide) 5 (hfree.of_outsOnly hf0.outsOnly) (by rw [hf0.outsOnly.active]; exact hen)
          (by rw [hpau]; rfl) hl hph, hf0.outsOnly.now]
        exact ⟨rfl, rfl, rfl⟩

end Sys2Proof.Machine
end

section
/-! SUPPORT. The sense converter (R299–R314): requests, results and their fields, the scan and the sequence. -/

namespace Sys2Proof.Machine

/-! ## Frames -/

/-- Only the sense converter and the free values differ. -/
def SenseOnly (s t : State) : Prop := t = { s with free := t.free, sense := t.sense }

/-- An event that changes those alone answers its new state. -/
theorem SenseOnly.event {s t : State} (h : SenseOnly s t) : ev s t = .next t := ev_of_kept (by rw [h]) (by rw [h])

/-- A direct command that changes those alone. -/
theorem SenseOnly.execRow {r : CmdRow} {a : CmdArgs} {s t : State} {st : Status} {res : List Word} (ht : SenseOnly s t)
    (h : Admitted r a s) (hf : r.fuse = false) (hb : r.body a (fresh s) = ⟨st, fresh t, res⟩)
    (hmax : r.maxRes a (fresh s) ≤ 1023) (hres : res.length ≤ 1023) : execRow r a s = .next (answered r.op st res t) :=
  (execRow_body h hf hb hmax hres (by rw [ht]; rfl) (by rw [ht]; rfl)).trans (congrArg _ (answered_fresh ..))

/-! ## Urgent requests (R306) -/

/-- A request draws a free value at most. -/
theorem urgentMeets_frame (s : State) : (urgentMeets s).2 = { s with free := (urgentMeets s).2.free } := by
  unfold urgentMeets
  split
  · rfl
  · split <;> rfl

theorem urgentMeets_fresh (s : State) : urgentMeets (fresh s) = ((urgentMeets s).1, fresh (urgentMeets s).2) := by
  have hon : senseOn (fresh s) = senseOn s := rfl
  unfold urgentMeets
  rw [hon, fresh_sense]
  split
  · rfl
  · split <;> rfl

/-! ## Results (Table 8.17) -/

/-- The word of a result: its count, source, gain and code. -/
def resultWord (cnt src gain code : Nat) : Word := toWord (cnt % 65536 * 65536 + src * 16384 + gain * 4096 + code % 4096)

theorem result_senseResult (ch src gain code : Nat) (s : State) (k : Nat) :
    tget 0 (senseResult ch src gain code s).sense.results k =
      if k = ch then resultWord (fld (tget 0 s.sense.results ch) 31 16 + 1) src gain code else tget 0 s.sense.results k :=
  tget_tput ..

section
variable {src gain : Nat} (hs : src < 4) (hg : gain < 4) (cnt code : Nat)
include hs hg

theorem toNat_resultWord : (resultWord cnt src gain code).toNat =
    cnt % 65536 * 65536 + src * 16384 + gain * 4096 + code % 4096 := by
  rw [resultWord, toWord, BitVec.toNat_ofNat]
  omega

theorem fld_resultWord_code : fld (resultWord cnt src gain code) 11 0 = code % 4096 := by
  rw [fld, toNat_resultWord hs hg, Nat.shiftRight_eq_div_pow]
  omega

theorem fld_resultWord_gain : fld (resultWord cnt src gain code) 13 12 = gain := by
  rw [fld, toNat_resultWord hs hg, Nat.shiftRight_eq_div_pow]
  omega

theorem fld_resultWord_src : fld (resultWord cnt src gain code) 15 14 = src := by
  rw [fld, toNat_resultWord hs hg, Nat.shiftRight_eq_div_pow]
  omega

theorem fld_resultWord_cnt : fld (resultWord cnt src gain code) 31 16 = cnt % 65536 := by
  rw [fld, toNat_resultWord hs hg, Nat.shiftRight_eq_div_pow]
  omega

end

/-! ## The scan and the start of a sequence (R302, R304, R305) -/

/-- The scan as a running converter holds it. -/
theorem scanHold_eq (s : State) : scanHold s = { s with sense := { s.sense with
    scanCh := if senseOn s then some (scanAt s).1 else s.sense.scanCh
    scanMask := if senseOn s then (scanAt s).2 else s.sense.scanMask } } := by
  unfold scanHold
  split <;> rfl

theorem scanHold_fresh (s : State) : scanHold (fresh s) = fresh (scanHold s) := by
  rw [scanHold_eq, scanHold_eq]
  rfl

theorem sequenceStartSense_eq (s : State) : sequenceStartSense s = { s with free := s.free + 1, sense := { s.sense with
    idx := some 0, watchTail := (sequenceStartSense s).sense.watchTail
    scanCh := if senseOn s then some (scanAt s).1 else s.sense.scanCh
    scanMask := if senseOn s then (scanAt s).2 else s.sense.scanMask } } := by
  unfold sequenceStartSense drawWord
  rw [scanHold_eq]

theorem sequenceStartSense_fresh (s : State) : sequenceStartSense (fresh s) = fresh (sequenceStartSense s) := by
  unfold sequenceStartSense
  rw [scanHold_fresh]
  rfl

end Sys2Proof.Machine
end

section
/-! PROOF. The sense converter (O14): its four commands, trigger edges, entries, the watch scan and urgent conversions. -/

namespace Sys2Proof.Machine

/-! ## The commands (R309–R312) -/

section
variable {a : CmdArgs} {s : State}

theorem senseSeq_loads {w : Word} {es : List Word} (h : Admitted rowSenseSeq a s) (ha : a.ops = w :: es) (h0 : resv w 3 = false)
    (he : es.all (fun e => !entryResv e && !bit e 4) = true) (hi : s.sense.idx = none) : exec (.senseSeq a) s =
    .next (answered 0x63 .ok [] { s with sense := { s.sense with edge := w.setWidth 2, seq := es } }) := by
  have hall (e : Word) (hm : e ∈ es) : entryResv e = false ∧ bit e 4 = false := by simpa using List.all_eq_true.1 he e hm
  have hresv : es.any entryResv = false := List.any_eq_false.2 fun e hm => by simp [(hall e hm).1]
  have hrange : es.any entryRange = false := List.any_eq_false.2 fun e hm => by simp [entryRange, (hall e hm).2]
  have hw : opnd a 0 = w := by rw [opnd, ha]; rfl
  have hdrop : a.ops.drop 1 = es := by rw [ha]; rfl
  refine SenseOnly.execRow (r := rowSenseSeq) rfl h rfl ?_ (Nat.zero_le _) (Nat.zero_le _)
  change bodySenseSeq a (fresh s) = _
  rw [bodySenseSeq, hdrop, hw, h0, hresv, hrange, fresh_sense, hi]
  rfl

theorem senseStart_starts (h : Admitted rowSenseStart a s) (hi : s.sense.idx = none) (hq : s.sense.seq ≠ []) :
    exec (.senseStart a) s = .next (answered 0x64 .ok [] (sequenceStartSense s)) := by
  have hframe : SenseOnly s (sequenceStartSense s) := by rw [SenseOnly, sequenceStartSense_eq]
  have hempty : s.sense.seq.isEmpty = false := by simpa using hq
  refine hframe.execRow (r := rowSenseStart) h rfl ?_ (Nat.zero_le _) (Nat.zero_le _)
  change bodySenseStart a (fresh s) = _
  rw [bodySenseStart, sequenceStartSense_fresh, fresh_sense, hi, hempty]
  rfl

/-- SENSE.NOW's conversion, after its request has been taken. -/
def nowResult (a : CmdArgs) (s : State) : State :=
  senseResult (fld (opnd a 0) 4 0) 1 (fld (opnd a 0) 13 12) (fld (drawWord s).1 11 0) (drawWord s).2

theorem nowResult_fresh (a : CmdArgs) (s : State) : nowResult a (fresh s) = fresh (nowResult a s) := rfl

theorem bodySenseNow_eq (hr : entryResv (opnd a 0) = false) (hg : bit (opnd a 0) 4 = false) : bodySenseNow a s =
    if (urgentMeets s).1 then ⟨.busy, dropUrgent (urgentMeets s).2, []⟩
    else yes (nowResult a (urgentMeets s).2) [tget 0 (nowResult a (urgentMeets s).2).sense.results (fld (opnd a 0) 4 0)] := by
  rw [bodySenseNow, hr, show entryRange (opnd a 0) = false from hg]
  rfl

theorem senseNow_busy (h : Admitted rowSenseNow a s) (hr : entryResv (opnd a 0) = false) (hg : bit (opnd a 0) 4 = false)
    (hm : (urgentMeets s).1 = true) : exec (.senseNow a) s = .next (answered 0x65 .busy [] (dropUrgent (urgentMeets s).2)) := by
  have hframe : SenseOnly s (dropUrgent (urgentMeets s).2) := by rw [urgentMeets_frame]; rfl
  refine hframe.execRow (r := rowSenseNow) h rfl ?_ (Nat.le_add_left 1 1022) (Nat.zero_le _)
  refine (bodySenseNow_eq hr hg).trans ?_
  rw [urgentMeets_fresh, if_pos hm]
  rfl

theorem senseNow_converts (h : Admitted rowSenseNow a s) (hr : entryResv (opnd a 0) = false) (hg : bit (opnd a 0) 4 = false)
    (hm : (urgentMeets s).1 = false) : exec (.senseNow a) s = .next (answered 0x65 .ok
      [tget 0 (nowResult a (urgentMeets s).2).sense.results (fld (opnd a 0) 4 0)] (nowResult a (urgentMeets s).2)) := by
  have hframe : SenseOnly s (nowResult a (urgentMeets s).2) := by rw [urgentMeets_frame]; rfl
  refine hframe.execRow (r := rowSenseNow) h rfl ?_ (Nat.le_add_left 1 1022) (Nat.le_add_left 1 1022)
  refine (bodySenseNow_eq hr hg).trans ?_
  rw [urgentMeets_fresh, if_neg (by rw [hm]; exact Bool.false_ne_true), nowResult_fresh]
  rfl

theorem senseWatch_writes (h : Admitted rowSenseWatch a s) (h0 : resv (opnd a 0) 0x0FFF0000 = false) :
    exec (.senseWatch a) s = .next (answered 0x66 .ok
      [opnd a 0 ||| 0x01C00000 ||| (if s.margin.running then 0x0E000000 else 0)]
      { s with sense := { s.sense with
        hostMask := opnd a 0
        scanCh := if senseOn s then some (scanAt s).1 else s.sense.scanCh
        scanMask := if senseOn s then (scanAt s).2 else s.sense.scanMask } }) := by
  refine SenseOnly.execRow (r := rowSenseWatch) rfl h rfl ?_ (Nat.le_add_left 1 1022) (Nat.le_add_left 1 1022)
  change bodySenseWatch a (fresh s) = _
  rw [bodySenseWatch, h0, scanHold_eq]
  rfl

end

/-! ## Trigger edges (R302, Table 8.16) -/

section
variable {s : State} {rising : Bool}

/-- An edge that EDGE selects, behind pads that are supplied and not held, while the converter runs. -/
theorem senseTrigEdge_selected (hon : senseOn s = true) (hp : s.power.padsHeld = false) (hv : s.power.iovddA = true)
    (he : s.sense.edge.getLsbD (if rising then 0 else 1) = true) : senseTrigEdge rising s =
    if s.sense.idx.isSome then { s with sense := { s.sense with misses := min 255 (s.sense.misses + 1) } }
    else if s.sense.seq.isEmpty then s else sequenceStartSense s := if_pos ⟨hon, hp, hv, he⟩

theorem senseTrigEdge_ignored
    (h : s.power.padsHeld = true ∨ s.power.iovddA = false ∨ s.sense.edge.getLsbD (if rising then 0 else 1) = false) :
    senseTrigEdge rising s = s := by
  refine if_neg ?_
  rintro ⟨-, hp, hv, he⟩
  rcases h with h | h | h
  · exact Bool.false_ne_true (hp.symm.trans h)
  · exact Bool.false_ne_true (h.symm.trans hv)
  · exact Bool.false_ne_true (h.symm.trans he)

end

/-! ## Entries and the watch scan (R302, R304) -/

theorem sequenceEntryComplete_eq {s : State} {i : Nat} (code : Nat) (hi : s.sense.idx = some i) (hon : senseOn s = true)
    (hu : s.sense.urgent = false) (hw : s.sense.watchTail = false) : sequenceEntryComplete code s =
    let e := s.sense.seq.getD i 0
    let s1 := senseResult (fld e 4 0) 0 (fld e 13 12) code s
    if i + 1 < s.sense.seq.length then { s1 with sense := { s1.sense with idx := some (i + 1) } }
    else raiseIrq irqSense { s1 with sense := { s1.sense with idx := none } } := by
  have hall : senseOn s = true ∧ s.sense.urgent = false ∧ s.sense.watchTail = false := ⟨hon, hu, hw⟩
  simp only [sequenceEntryComplete, hi, if_pos hall]

section
variable {s : State} (code : Nat) {ch : Nat} (hon : senseOn s = true) (hu : s.sense.urgent = false) (hi : s.sense.idx = none)
  (hc : s.sense.scanCh = some ch)
include hon hu hi hc

/-- The scan moves to the next channel of its mask. -/
theorem watchConversion_next {c : Nat} (hf : (bitsOf s.sense.scanMask).find? (fun k => decide (ch < k)) = some c) :
    watchConversion code s = { s with sense := { s.sense with
      scanCh := some c, results := (senseResult ch 2 0 code s).sense.results, watchTail := false } } := by
  have hall : senseOn s = true ∧ s.sense.urgent = false ∧ (s.sense.idx = none ∨ s.sense.watchTail = true) := ⟨hon, hu, .inl hi⟩
  simp only [watchConversion, if_pos hall, scanAt, hc, hf]
  rfl

/-- After the last channel the scan begins again with the mask of that moment. -/
theorem watchConversion_last (hf : (bitsOf s.sense.scanMask).find? (fun k => decide (ch < k)) = none) :
    watchConversion code s = { s with sense := { s.sense with
      scanCh := some (lowest (watchMask s)), scanMask := watchMask s
      results := (senseResult ch 2 0 code s).sense.results, watchTail := false } } := by
  have hall : senseOn s = true ∧ s.sense.urgent = false ∧ (s.sense.idx = none ∨ s.sense.watchTail = true) := ⟨hon, hu, .inl hi⟩
  simp only [watchConversion, if_pos hall, scanAt, hc, hf]
  rfl

end

/-- Settles O14: the commands by their bodies, each event by its branch, and a result by the fields of its word. -/
theorem senseConverter : Obligations.SenseConverter := by
  unfold Obligations.SenseConverter
  refine ⟨fun a s w es h ha h0 he hi => senseSeq_loads h ha h0 he hi, fun a s h hi hq => ?start, fun a s h hr hg => ?now,
    fun a s h h0 => senseWatch_writes h h0, fun s rising hon hp hv he hi hq => ?edge, fun s rising i hon hp hv he hi => ?miss,
    fun s rising h => ?ignored, fun s code i hi hon hu hw => ?entry, fun s ch src gain code hs hg => ?result,
    fun s code ch c hon hu hi hc hf => ?next, fun s code ch hon hu hi hc hf => ?last, fun s => SenseOnly.event rfl⟩
  case start =>
    have hframe := sequenceStartSense_eq s
    refine ⟨_, senseStart_starts h hi hq, by rw [hframe], by rw [hframe], by rw [hframe], ?_⟩
    rw [hframe]
  case now =>
    have hframe := urgentMeets_frame s
    cases hm : (urgentMeets s).1
    · refine ⟨nowResult a (urgentMeets s).2, tget 0 (nowResult a (urgentMeets s).2).sense.results (fld (opnd a 0) 4 0), ?_⟩
      rw [if_neg Bool.false_ne_true]
      have hgain : fld (opnd a 0) 13 12 < 4 := fld_lt ..
      have hres : tget 0 (nowResult a (urgentMeets s).2).sense.results (fld (opnd a 0) 4 0) = resultWord _ 1 _ _ :=
        (result_senseResult ..).trans (if_pos rfl)
      refine ⟨senseNow_converts h hr hg hm, rfl, ?_, ?_, ?_, ?_⟩
      · rw [hres]; exact fld_resultWord_src (by decide) hgain ..
      · rw [hres]; exact fld_resultWord_gain (by decide) hgain ..
      · rw [hres, fld_resultWord_cnt (by decide) hgain, hframe]; rfl
      · rw [hframe]; rfl
    · refine ⟨dropUrgent (urgentMeets s).2, 0, ?_⟩
      rw [if_pos rfl]
      refine ⟨senseNow_busy h hr hg hm, ?_⟩
      rw [hframe]; rfl
  case edge =>
    have hframe := sequenceStartSense_eq s
    rw [if_pos hon, if_pos hon] at hframe
    have hstep : senseTrigEdge rising s = sequenceStartSense s := by
      rw [senseTrigEdge_selected hon hp hv he, hi, if_neg (by simp), if_neg (by simpa using hq)]
    have honly : SenseOnly s (sequenceStartSense s) := by rw [SenseOnly, hframe]
    refine ⟨_, (congrArg (ev s) hstep).trans honly.event, by rw [hframe], ?_⟩
    rw [hframe]
  case miss =>
    refine (congrArg (ev s) ((senseTrigEdge_selected hon hp hv he).trans (if_pos (by rw [hi]; rfl)))).trans (SenseOnly.event rfl)
  case ignored => exact (congrArg (ev s) (senseTrigEdge_ignored h)).trans (SenseOnly.event rfl)
  case entry =>
    refine (congrArg (ev s) (sequenceEntryComplete_eq code hi hon hu hw)).trans (ev_of_kept ?_ ?_)
    all_goals dsimp only; split <;> rfl
  case result =>
    have hres : tget 0 (senseResult ch src gain code s).sense.results ch = resultWord _ src gain code :=
      (result_senseResult ..).trans (if_pos rfl)
    refine ⟨?_, ?_, ?_, ?_, fun k hk => (result_senseResult ..).trans (if_neg hk)⟩
    · rw [hres]; exact fld_resultWord_code hs hg ..
    · rw [hres]; exact fld_resultWord_gain hs hg ..
    · rw [hres]; exact fld_resultWord_src hs hg ..
    · rw [hres]; exact fld_resultWord_cnt hs hg ..
  case next =>
    exact ⟨_, (congrArg (ev s) (watchConversion_next code hon hu hi hc hf)).trans (SenseOnly.event rfl), rfl, rfl, rfl, rfl, rfl⟩
  case last =>
    exact ⟨_, (congrArg (ev s) (watchConversion_last code hon hu hi hc hf)).trans (SenseOnly.event rfl), rfl, rfl, rfl, rfl⟩

end Sys2Proof.Machine
end

section
/-! SUPPORT. The jacks (R286–R298): what their events leave of the jacks and of the outputs, and which of them wake (R373). -/

namespace Sys2Proof.Machine

/-! ## Frames -/

/-- Only the jacks as they run and the DAC channels differ. -/
def RunsDacs (s t : State) : Prop :=
  t = { s with jack := { s.jack with run := t.jack.run }, outs := { s.outs with dacs := t.outs.dacs } }

/-- Only the jacks as they run, the DAC channels and the pumps differ. -/
def RunsDacsPumps (s t : State) : Prop :=
  t = { s with jack := { s.jack with run := t.jack.run }
               outs := { s.outs with dacs := t.outs.dacs, pumps := t.outs.pumps } }

theorem RunsDacs.onJack (n : Nat) (f : JackRun → JackRun) (s : State) : RunsDacs s (onJack n f s) := rfl
theorem RunsDacs.trans {s t u : State} (h : RunsDacs s t) (h' : RunsDacs t u) : RunsDacs s u := by
  unfold RunsDacs at *; rw [h', h]
theorem DacsOnly.runsDacs {s t : State} (h : DacsOnly s t) : RunsDacs s t := by
  rw [DacsOnly] at h; rw [RunsDacs, h]

theorem RunsDacsPumps.trans {s t u : State} (h : RunsDacsPumps s t) (h' : RunsDacsPumps t u) : RunsDacsPumps s u := by
  unfold RunsDacsPumps at *; rw [h', h]
theorem RunsDacs.pumps {s t : State} (h : RunsDacs s t) : RunsDacsPumps s t := by
  rw [RunsDacs] at h; rw [RunsDacsPumps, h]
theorem DacsPumpsOnly.runs {s t : State} (h : DacsPumpsOnly s t) : RunsDacsPumps s t := by
  rw [DacsPumpsOnly] at h; rw [RunsDacsPumps, h]

/-- An event that changes the jacks and the outputs alone answers its new state. -/
theorem RunsDacsPumps.event {s t : State} (h : RunsDacsPumps s t) : ev s t = .next t := ev_of_kept (by rw [h]) (by rw [h])

/-- A flag raised after such a change. -/
theorem RunsDacs.raised {s t : State} (h : RunsDacs s t) (i : Nat) : raiseIrq i t = { s with
    jack := { s.jack with run := (raiseIrq i t).jack.run }, outs := { s.outs with dacs := (raiseIrq i t).outs.dacs }
    irq := { s.irq with pend := (raiseIrq i t).irq.pend } } := by
  unfold raiseIrq
  generalize setBit t.irq.pend i true = w
  rw [RunsDacs] at h
  rw [h]

theorem OutsOnly.jackRun {s t : State} (h : OutsOnly s t) (k : Nat) : jackRun t k = jackRun s k := by
  rw [Machine.jackRun, h.jack]
  rfl

/-! ## Classification abandoned (Table 8.10) -/

theorem probeClamped_dacsOnly (n : Nat) (s : State) : DacsOnly s (probeClamped n s) := by
  have hone (s : State) (d : Nat) : DacsOnly s (if (dac s d).phase = .probing then clampNow d s else s) := by split <;> rfl
  exact (hone s (24 + 2 * n)).trans (hone _ (25 + 2 * n))

/-- A jack whose classification is given up. -/
def classAbandoned (j : JackRun) : JackRun := { j with step := .none, dropped := false, orient := .idle }

theorem abandonClass_runsDacs (n : Nat) (s : State) : RunsDacs s (abandonClass n s) :=
  (probeClamped_dacsOnly n s).runsDacs.trans (.onJack ..)

theorem jackRun_abandonClass (n k : Nat) (s : State) :
    jackRun (abandonClass n s) k = if k = n then classAbandoned (jackRun s k) else jackRun s k := by
  rw [abandonClass_eq, jackRun_onJack, (probeClamped_outsOnly n s).jackRun]
  rfl

/-! ## The jack mute (R294) -/

theorem unmuteJack_runsDacsPumps (n : Nat) (s : State) : RunsDacsPumps s (unmuteJack n s) :=
  (RunsDacs.onJack ..).pumps.trans (startJack_dacsPumpsOnly n _).runs

theorem jackRun_unmuteJack (n k : Nat) (s : State) : jackRun (unmuteJack n s) k =
    if k = n then { jackRun s k with muted := false, removing := false } else jackRun s k := by
  rw [unmuteJack, (startJack_outsOnly n _).jackRun, jackRun_onJack]

/-- The outputs of a jack that play begin their mute ramps. -/
theorem dac_stopJack_playing {n d : Nat} {s : State} (hd : d ∈ [24 + 2 * n, 25 + 2 * n]) (hp : (dac s d).phase = .playing)
    (hg : (dac s d).g = .one) : dac (stopJack n s) d = mutedAt (now s) (dac s d) := by
  simp only [List.mem_cons, List.not_mem_nil, or_false] at hd
  rcases hd with rfl | rfl
  · rw [stopJack, dac_stopEvent_other (by omega), dac_stopEvent_playing hp hg]
  · have hother : dac (stopEvent (24 + 2 * n) s) (25 + 2 * n) = dac s (25 + 2 * n) := dac_stopEvent_other (by omega) s
    rw [stopJack, dac_stopEvent_playing (by rw [hother]; exact hp) (by rw [hother]; exact hg), hother,
      (stopEvent_dacsOnly ..).outsOnly.now]

/-! ## Events (R373, R383) -/

theorem running_run {s : State} (h : s.power.st = .run) : running s = true := by rw [running, h]
theorem jackAwake_run {s : State} (h : s.power.st = .run) : jackAwake s = true := by rw [jackAwake, running_run h]; rfl

/-- In RUN a jack event raises JACK. -/
theorem jackEvent_run {s : State} (h : s.power.st = .run) : jackEvent s = raiseIrq irqJack s := if_pos (running_run h)

/-- In RUN no jack event wakes. -/
theorem jackWake_run {s : State} (n : Nat) (before : State) (h : s.power.st = .run) : jackWake n before s = s := by
  simp only [jackWake, wakeEvent_run h, ite_self]

/-- No event is confirmed where a jack is present, or pressed, as before. -/
theorem jackWake_kept {n : Nat} {s t : State} (h : (jackRun t n).present = (jackRun s n).present)
    (hp : (jackRun t n).pressed = (jackRun s n).pressed) (hb : (jackRun t n).button = (jackRun s n).button) :
    jackWake n s t = t := by
  simp only [jackWake, h, hp, hb]
  cases (jackRun s n).present <;> cases (jackRun s n).pressed <;> simp

end Sys2Proof.Machine
end

section
/-! PROOF. Jack detection (O10): JACK.CFG in its two forms, MICBIAS, the changes at HPnDET, and the confirmations in RUN. -/

namespace Sys2Proof.Machine

/-! ## JACK.CFG (R297, Table 8.10) -/

/-- The word of jack `n` written. -/
def withJackWord (n : Nat) (w : JackWord) (s : State) : State :=
  { s with jack := { s.jack with words := tput {} s.jack.words n w } }

theorem jackWord_withJackWord (n k : Nat) (w : JackWord) (s : State) :
    jackWord (withJackWord n w s) k = if k = n then w else jackWord s k := tget_tput ..

/-- Detection of jack `n` ended. -/
def jackEnded (n : Nat) (w : JackWord) (s : State) : State :=
  onJack n (fun j => { j with present := false, cls := clsNone, win := 4, cnt := 0 }) (abandonClass n (withJackWord n w s))

/-- The count of jack `n` restarted where the comparator's meaning changes. -/
def jackRecounts (n : Nat) (w : JackWord) (s : State) : State :=
  if (jackWord s n).en = false ∨ (jackWord s n).inv ≠ w.inv then onJack n (fun j => { j with since := now s }) (withJackWord n w s)
  else withJackWord n w s

section
variable {n : Nat} {w : JackWord} {s : State}

theorem jackApply_off (h : w.en = false) : jackApply n w s =
    if (jackRun (jackEnded n w s) n).muted then unmuteJack n (jackEnded n w s) else jackEnded n w s := if_pos h

theorem jackApply_on (h : w.en = true) : jackApply n w s =
    if (jackRun s n).step = .none then jackRecounts n w s
    else onJack n (fun j => { j with step := .waiting }) (abandonClass n (jackRecounts n w s)) :=
  if_neg (by rw [h]; decide)

theorem jackRun_jackEnded (k : Nat) : jackRun (jackEnded n w s) k =
    if k = n then { classAbandoned (jackRun s k) with present := false, cls := clsNone, win := 4, cnt := 0 } else jackRun s k := by
  rw [jackEnded, jackRun_onJack, jackRun_abandonClass]
  split <;> rfl

theorem jackRun_jackRecounts (k : Nat) : jackRun (jackRecounts n w s) k =
    if k = n then { jackRun s k with since :=
      if (jackWord s n).en = false ∨ (jackWord s n).inv ≠ w.inv then now s else (jackRun s k).since } else jackRun s k := by
  unfold jackRecounts
  split
  · exact jackRun_onJack ..
  · split <;> rfl

theorem jackEnded_frame : RunsDacs (withJackWord n w s) (jackEnded n w s) := (abandonClass_runsDacs ..).trans (.onJack ..)

theorem jackRecounts_frame : RunsDacs (withJackWord n w s) (jackRecounts n w s) := by
  unfold jackRecounts
  split <;> rfl

end

section
variable (n : Nat) (w : JackWord) (s : State)

/-- Beside its word, JACK.CFG changes the jacks as they run and the outputs. -/
theorem jackApply_frame : RunsDacsPumps (withJackWord n w s) (jackApply n w s) := by
  cases h : w.en
  · rw [jackApply_off h]
    split
    · exact jackEnded_frame.pumps.trans (unmuteJack_runsDacsPumps ..)
    · exact jackEnded_frame.pumps
  · rw [jackApply_on h]
    split
    · exact jackRecounts_frame.pumps
    · exact (jackRecounts_frame.trans ((abandonClass_runsDacs ..).trans (.onJack ..))).pumps

theorem jackWord_jackApply (k : Nat) : jackWord (jackApply n w s) k = if k = n then w else jackWord s k := by
  rw [← jackWord_withJackWord, jackWord, jackApply_frame n w s]
  rfl

theorem jackRun_jackApply_other {k : Nat} (hk : k ≠ n) : jackRun (jackApply n w s) k = jackRun s k := by
  cases h : w.en
  · rw [jackApply_off h]
    split
    · rw [jackRun_unmuteJack, if_neg hk, jackRun_jackEnded, if_neg hk]
    · rw [jackRun_jackEnded, if_neg hk]
  · rw [jackApply_on h]
    split
    · rw [jackRun_jackRecounts, if_neg hk]
    · rw [jackRun_onJack, if_neg hk, jackRun_abandonClass, if_neg hk, jackRun_jackRecounts, if_neg hk]

end

/-- With EN 0 detection ends, and with it the jack mute. -/
theorem jackApply_ends {n : Nat} {w : JackWord} {s : State} (h : w.en = false) : (jackRun (jackApply n w s) n).present = false ∧
    (jackRun (jackApply n w s) n).cls = 0 ∧ (jackRun (jackApply n w s) n).step = .none ∧
    (jackRun (jackApply n w s) n).muted = false := by
  have hrun := jackRun_jackEnded (n := n) (w := w) (s := s) n
  rw [if_pos rfl] at hrun
  rw [jackApply_off h]
  split
  · rw [jackRun_unmuteJack, if_pos rfl, hrun]
    exact ⟨rfl, rfl, rfl, rfl⟩
  · next hm =>
    refine ⟨?_, ?_, ?_, Bool.eq_false_iff.2 hm⟩
    all_goals rw [hrun]
    all_goals rfl

/-- With EN 1 a classification waits to run anew. -/
theorem jackApply_waits {n : Nat} {w : JackWord} {s : State} (h : w.en = true) (hs : (jackRun s n).step ≠ .none) :
    (jackRun (jackApply n w s) n).step = .waiting ∧ (jackRun (jackApply n w s) n).orient = .idle := by
  rw [jackApply_on h, if_neg hs, jackRun_onJack, if_pos rfl, jackRun_abandonClass, if_pos rfl]
  exact ⟨rfl, rfl⟩

theorem jackApply_recounts {n : Nat} {w : JackWord} {s : State} (h : w.en = true) (hs : (jackRun s n).step = .none) :
    jackRun (jackApply n w s) n = { jackRun s n with since :=
      if (jackWord s n).en = false ∨ (jackWord s n).inv ≠ w.inv then now s else (jackRun s n).since } := by
  rw [jackApply_on h, if_pos hs, jackRun_jackRecounts, if_pos rfl]

/-- A machine with the host port of `s` is made fresh where it came from one that was. -/
theorem fresh_withHost {s u : State} (h : u.host = (fresh s).host) : fresh { u with host := s.host } = u := by
  change { u with host := (fresh s).host } = u
  rw [← h]

theorem bodyJackCfg_applies {a : CmdArgs} {s : State} {n : Nat} {w : JackWord} (hf : flag a 0 = false)
    (h0 : resv (opnd a 0) 3 = false) (hn : n = (opnd a 0).toNat) (hw : w = ⟨opnd a 1, opnd a 2, opnd a 3⟩)
    (hr : resv w.w0 0xF8000000 = false ∧ resv w.w1 0x0FFF0FFF = false ∧ resv w.w2 0x0FFF0FFF = false)
    (hb : fld w.w1 11 0 < fld w.w1 27 16 ∧ fld w.w1 27 16 < fld w.w2 11 0 ∧ fld w.w2 11 0 < fld w.w2 27 16 ∧
      fld w.w2 27 16 < 1502) : bodyJackCfg a s = yes (jackApply n w s) := by
  obtain ⟨hr0, hr1, hr2⟩ := hr
  obtain ⟨hb0, hb1, hb2, hb3⟩ := hb
  have hfld : fld (opnd a 0) 1 0 = n := (fld_eq_toNat (m := 3) (n := 1) rfl h0).trans hn.symm
  subst hw
  simp only [bodyJackCfg, hf, Bool.false_eq_true, if_false, h0, hr0, hr1, hr2, hb0, hb1, hb2, hb3, hfld, decide_true,
    Bool.and_self, Bool.not_true, Bool.or_self, checks_false, checks_nil]

theorem bodyJackCfg_unmutes {a : CmdArgs} {s : State} {n : Nat} (hf : flag a 0 = true) (h0 : resv (opnd a 0) 3 = false)
    (hn : n = (opnd a 0).toNat) (hm : (jackRun s n).muted = true) : bodyJackCfg a s = yes (unmuteJack n s) := by
  have hfld : fld (opnd a 0) 1 0 = n := (fld_eq_toNat (m := 3) (n := 1) rfl h0).trans hn.symm
  simp only [bodyJackCfg, hf, if_true, h0, hfld, hm, checks_false, checks_nil]

/-! ## MICBIAS (R298) -/

theorem micbias_writes {a : CmdArgs} {s : State} (h : Admitted rowMicbias a s) (h0 : resv (opnd a 0) 0xFF = false)
    (hm : ∀ n < 4, micMode ((opnd a 0).setWidth 8) n ≠ 3) :
    let t : State := { s with jack := { s.jack with micbias := (opnd a 0).setWidth 8 } }
    exec (.micbias a) s = .next (answered 0x62 .ok [wordOf (indexes 4 (micOn t))] t) := by
  have hany : (List.range 4).any (fun n => micMode ((opnd a 0).setWidth 8) n == 3) = false :=
    List.any_eq_false.2 fun n hn => by simpa using hm n (List.mem_range.1 hn)
  have hbody : rowMicbias.body a (fresh s) = yes (fresh { s with jack := { s.jack with micbias := (opnd a 0).setWidth 8 } })
      [wordOf (indexes 4 (micOn { s with jack := { s.jack with micbias := (opnd a 0).setWidth 8 } }))] := by
    change bodyMicbias a (fresh s) = _
    rw [bodyMicbias, h0, hany]
    rfl
  exact (execRow_yes h rfl hbody (Nat.le_add_left 1 1022) rfl rfl).trans rfl

/-! ## HPnDET (R287, R288, R294) -/

/-- A jack whose pin has changed. -/
def pinAt (level : Bool) (t : Nat) (j : JackRun) : JackRun := { j with pin := level, since := t }

/-- A jack that a removal mutes. -/
def removalMuted (t : Nat) (j : JackRun) : JackRun := { j with muted := true, removing := true, muteAt := t }

theorem hpdetChange_counts {n : Nat} {level : Bool} {s : State} (hn : n < 4) (hp : (jackRun s n).pin ≠ level)
    (ha : (jackWord s n).amute = false) : hpdetChange n level s = onJack n (pinAt level (now s)) s := by
  have hnot : ¬ (4 ≤ n ∨ (jackRun s n).pin = level) := by rintro (h | h); exacts [by omega, hp h]
  simp only [hpdetChange, if_neg hnot, ha, Bool.false_eq_true, false_and, and_false, if_false]
  rfl

/-- The first indication of removal mutes with AMUTE. -/
theorem hpdetChange_mutes {n : Nat} {s : State} (hn : n < 4) (hp : (jackRun s n).pin = (jackWord s n).inv)
    (hen : (jackWord s n).en = true) (ha : (jackWord s n).amute = true) (hpr : (jackRun s n).present = true)
    (hm : (jackRun s n).muted = false) : hpdetChange n (!(jackRun s n).pin) s =
      stopJack n (onJack n (removalMuted (now s)) (onJack n (pinAt (!(jackRun s n).pin) (now s)) s)) := by
  have hnot : ¬ (4 ≤ n ∨ (jackRun s n).pin = !(jackRun s n).pin) := by
    rintro (h | h)
    · omega
    · cases hb : (jackRun s n).pin <;> simp [hb] at h
  have hseen : plugSeen (onJack n (pinAt (!(jackRun s n).pin) (now s)) s) n = false := by
    rw [plugSeen, jackRun_onJack_same, pinAt, hp]
    cases hb : (jackWord s n).inv <;> exact (congrArg (_ == ·) hb).trans rfl
  have hall : (jackWord s n).en = true ∧ (jackWord s n).amute = true ∧
      plugSeen (onJack n (pinAt (!(jackRun s n).pin) (now s)) s) n = false ∧ (jackRun s n).present = true ∧
      (jackRun s n).muted = false := ⟨hen, ha, hseen, hpr, hm⟩
  exact (if_neg hnot).trans (if_pos hall)

/-! ## Confirmations in RUN (R288, R291) -/

section
variable {n : Nat} {s : State} (hst : s.power.st = .run) (hen : (jackWord s n).en = true)
include hst hen

theorem insertionConfirmed_run (hn : n < 4) (hp : plugSeen s n = true) (hpr : (jackRun s n).present = false)
    (ht : 50000000 ≤ since s (jackRun s n).since) : insertionConfirmed n s =
      onJack n (fun j => { j with present := true, cls := 6, step := .waiting }) s := by
  have hdue : (jackWord s n).en = true ∧ n < 4 ∧ plugSeen s n = true ∧ (jackRun s n).present = false ∧
      debounceIn s ≤ since s (jackRun s n).since :=
    ⟨hen, hn, hp, hpr, by rw [debounceIn, if_pos (jackAwake_run hst)]; exact ht⟩
  simp only [insertionConfirmed, if_pos hdue, jackAwake_run hst, running_run hst, if_true]
  rfl

/-- A jack whose plug has gone. -/
def jackEmptied (j : JackRun) : JackRun := { j with present := false, cls := clsNone, removing := false, win := 4, cnt := 0 }

theorem removalConfirmed_run (hp : plugSeen s n = false) (hpr : (jackRun s n).present = true)
    (ht : 8000000 ≤ since s (jackRun s n).since) :
    removalConfirmed n s = raiseIrq irqJack (onJack n jackEmptied (abandonClass n s)) := by
  have hdue : (jackWord s n).en = true ∧ plugSeen s n = false ∧ (jackRun s n).present = true ∧
      debounceOut s ≤ since s (jackRun s n).since :=
    ⟨hen, hp, hpr, by rw [debounceOut, if_pos (jackAwake_run hst)]; exact ht⟩
  have hrun : (onJack n jackEmptied (abandonClass n s)).power.st = .run := by
    rw [onJack_power, abandonClass_runsDacs n s]; exact hst
  exact (if_pos hdue).trans (jackEvent_run hrun)

end

/-- Settles O10: JACK.CFG by its forms, MICBIAS by its body, and each event by its branch, read jack by jack. -/
theorem jackDetection : Obligations.JackDetection := by
  unfold Obligations.JackDetection
  refine ⟨fun a s n w h h0 hn hw hr0 hr1 hr2 hb0 hb1 hb2 hb3 => ?cfg, fun a s n h h0 hn hm => ?unmute,
    fun a s h h0 hm => ⟨_, micbias_writes h h0 hm, rfl⟩,
    fun s n level hn hp ha => ?counts, fun s n hn hp hen ha hpr hm => ?mutes, fun s n hm hr ht => ?release,
    fun s n hn hst hen hp hpr ht => ?inserted, fun s n hst hen hp hpr ht => ?removed⟩
  case cfg =>
    have hframe := jackApply_frame n w (fresh s)
    have hhost : (jackApply n w (fresh s)).host = (fresh s).host := by rw [hframe]; rfl
    have hbody : rowJackCfg.body (withFlag a 0 false) (fresh s) = yes (jackApply n w (fresh s)) :=
      bodyJackCfg_applies (flag_withFlag_same a (by decide) false) h0 hn hw ⟨hr0, hr1, hr2⟩ ⟨hb0, hb1, hb2, hb3⟩
    refine ⟨{ jackApply n w (fresh s) with host := s.host }, ?_, ?_, fun k hk => ?_, fun k hk => ?_, ?_, fun he => ?_,
      fun he hs => ?_, fun he hs => ?_⟩
    · rw [← answered_fresh, fresh_withHost hhost]
      exact execRow_yes h rfl hbody (Nat.zero_le _) (by rw [hframe]; rfl) (by rw [hframe]; rfl)
    · exact (jackWord_jackApply n w (fresh s) n).trans (if_pos rfl)
    · exact (jackWord_jackApply n w (fresh s) k).trans (if_neg hk)
    · exact jackRun_jackApply_other n w (fresh s) hk
    · generalize jackApply n w (fresh s) = u at hframe
      rw [hframe]; rfl
    · exact jackApply_ends (s := fresh s) he
    · exact jackApply_waits (s := fresh s) he hs
    · exact jackApply_recounts (s := fresh s) he hs
  case unmute =>
    have hframe := unmuteJack_runsDacsPumps n (fresh s)
    have hbody : rowJackCfg.body (withFlag a 0 true) (fresh s) = yes (unmuteJack n (fresh s)) :=
      bodyJackCfg_unmutes (flag_withFlag_same a (by decide) true) h0 hn hm
    refine ⟨unmuteJack n (fresh s), execRow_yes h rfl hbody (Nat.zero_le _) (by rw [hframe]; rfl) (by rw [hframe]; rfl), ?_, rfl⟩
    rw [jackRun_unmuteJack, if_pos rfl]
  case counts =>
    exact (congrArg (ev s) (hpdetChange_counts hn hp ha)).trans (RunsDacs.onJack ..).pumps.event
  case mutes =>
    have hframe : RunsDacs s (stopJack n (onJack n (removalMuted (now s)) (onJack n (pinAt (!(jackRun s n).pin) (now s)) s))) :=
      ((RunsDacs.onJack ..).trans (.onJack ..)).trans (stopJack_dacsOnly n _).runsDacs
    refine ⟨_, (congrArg (ev s) (hpdetChange_mutes hn hp hen ha hpr hm)).trans hframe.pumps.event, ?_, fun d hd hph hg => ?_, hframe⟩
    · rw [(stopJack_outsOnly n _).jackRun, jackRun_onJack_same, jackRun_onJack_same]
      rfl
    · rw [dac_stopJack_playing (s := onJack n _ (onJack n _ s)) hd hph hg]
      exact ⟨rfl, rfl⟩
  case release =>
    exact (congrArg (ev s) (if_pos ⟨hm, hr, ht⟩)).trans (unmuteJack_runsDacsPumps n s).event
  case inserted =>
    have hstep := (congrArg (jackWake n s) (insertionConfirmed_run hst hen hn hp hpr ht)).trans (jackWake_run n s hst)
    exact (congrArg (ev s) hstep).trans (RunsDacs.onJack ..).pumps.event
  case removed =>
    have hraised := ((abandonClass_runsDacs n s).trans (.onJack n jackEmptied _)).raised irqJack
    have hrun : (raiseIrq irqJack (onJack n jackEmptied (abandonClass n s))).power.st = .run := by rw [hraised]; exact hst
    have hstep := (congrArg (jackWake n s) (removalConfirmed_run hst hen hp hpr ht)).trans (jackWake_run n s hrun)
    have hjack : jackRun (raiseIrq irqJack (onJack n jackEmptied (abandonClass n s))) n =
        jackEmptied (classAbandoned (jackRun s n)) := by
      refine (jackRun_onJack_same ..).trans ?_
      rw [jackRun_abandonClass, if_pos rfl]
    refine ⟨_, (congrArg (ev s) hstep).trans (ev_of_kept (by rw [hraised]) (by rw [hraised])), ?_, ?_, ?_, ?_, ?_, hraised⟩
    · rw [hjack]; rfl
    · rw [hjack]; rfl
    · rw [hjack]; rfl
    · rw [hjack]; rfl
    · exact bit_setBit_true (by decide) _

end Sys2Proof.Machine
end

section
/-! PROOF. Jack classification (O11): its start, its reads, their drops and reissues, and its end. -/

namespace Sys2Proof.Machine

/-! ## The start of the probe (R289, Tables 8.8, 14.8) -/

/-- A clamped output under the probe, which a lockout or a low HPVDD keeps clamped. -/
def probing (hpvdd : Bool) (x : Dac) : Dac := { x with phase := .probing, clamp := x.lockout || !hpvdd }

/-- A jack whose tip is to be read. -/
def probeStarted (t : Nat) (j : JackRun) : JackRun :=
  { j with step := .tip, stepAt := t, dropped := false, orient := .idle, cls := clsRuns }

/-- The probe on at jack `n`, its outputs stopped. -/
def probed (n : Nat) (s : State) : State :=
  onDac (24 + 2 * n) (probing s.power.hpvdd) (onDac (25 + 2 * n) (probing s.power.hpvdd) (stopJack n s))

theorem dac_stopJack_clamped {n : Nat} {s : State} (hl : (dac s (24 + 2 * n)).phase = .clamped)
    (hr : (dac s (25 + 2 * n)).phase = .clamped) (d : Nat) :
    dac (stopJack n s) d = if d = 24 + 2 * n ∨ d = 25 + 2 * n then (dac s d).halt else dac s d := by
  have hother : dac (onDac (24 + 2 * n) Dac.halt s) (25 + 2 * n) = dac s (25 + 2 * n) := dac_onDac_other _ _ _ _ (by omega)
  rw [stopJack, stopEvent_clamped hl, stopEvent_clamped (by rw [hother]; exact hr), dac_onDac, dac_onDac]
  by_cases h1 : d = 24 + 2 * n
  · rw [if_neg (by omega), if_pos h1, if_pos (.inl h1)]
  by_cases h2 : d = 25 + 2 * n
  · rw [if_pos h2, if_neg h1, if_pos (.inr h2)]
  · rw [if_neg h2, if_neg h1, if_neg (not_or.2 ⟨h1, h2⟩)]

theorem dac_probed {n : Nat} {s : State} (hl : (dac s (24 + 2 * n)).phase = .clamped)
    (hr : (dac s (25 + 2 * n)).phase = .clamped) (d : Nat) : dac (probed n s) d =
      if d = 24 + 2 * n ∨ d = 25 + 2 * n then probing s.power.hpvdd (dac s d).halt else dac s d := by
  rw [probed, dac_onDac, dac_onDac, dac_stopJack_clamped hl hr]
  by_cases h1 : d = 24 + 2 * n
  · rw [if_pos h1, if_neg (by omega), if_pos (.inl h1), if_pos (.inl h1)]
  by_cases h2 : d = 25 + 2 * n
  · rw [if_neg h1, if_pos h2, if_pos (.inr h2), if_pos (.inr h2)]
  · rw [if_neg h1, if_neg h2, if_neg (not_or.2 ⟨h1, h2⟩), if_neg (not_or.2 ⟨h1, h2⟩)]

theorem probed_dacsOnly (n : Nat) (s : State) : DacsOnly s (probed n s) :=
  (stopJack_dacsOnly n s).trans ((DacsOnly.onDac ..).trans (.onDac ..))

theorem classificationStart_probes {n : Nat} {s : State} (hs : (jackRun s n).step = .waiting) (hf : classifyFree s = true)
    (hl : (dac s (24 + 2 * n)).phase = .clamped) (hr : (dac s (25 + 2 * n)).phase = .clamped) :
    classificationStart n s = onJack n (probeStarted (now s)) (probed n s) := by
  have hphases : (dac (stopJack n s) (24 + 2 * n)).phase = .clamped ∧ (dac (stopJack n s) (25 + 2 * n)).phase = .clamped := by
    rw [dac_stopJack_clamped hl hr, dac_stopJack_clamped hl hr, if_pos (.inl rfl), if_pos (.inr rfl)]
    exact ⟨hl, hr⟩
  have hpower : (stopJack n s).power = s.power := (stopJack_outsOnly n s).power
  have hfree : (jackRun s n).step = .waiting ∧ classifyFree s = true := ⟨hs, hf⟩
  simp only [classificationStart, if_pos hfree, if_pos hphases, onDac_power, hpower]
  rfl

/-! ## Reads (R314) -/

/-- The converter takes a read: its result stands, and an urgent conversion runs. -/
def readTaken (ch gain code : Nat) (s : State) : State :=
  senseResult ch 3 gain code { (urgentMeets s).2 with sense := { (urgentMeets s).2.sense with urgent := true } }

/-- The converter drops a request, and counts it. -/
def readRefused (s : State) : State := dropUrgent (urgentMeets s).2

/-- A read that is dropped, or taken, and what follows. -/
theorem detectionRead_elim (ch gain code : Nat) (s : State) (f g : State → State) :
    (if (detectionRead ch gain code s).1 then f (detectionRead ch gain code s).2 else g (detectionRead ch gain code s).2) =
      if (urgentMeets s).1 then g (readRefused s) else f (readTaken ch gain code s) := by
  by_cases hm : (urgentMeets s).1 = true
  · have hread : detectionRead ch gain code s = (false, readRefused s) := if_pos hm
    rw [hread, if_pos hm]
    rfl
  · have hread : detectionRead ch gain code s = (true, readTaken ch gain code s) := if_neg hm
    rw [hread, if_neg hm]
    rfl

theorem readTaken_senseOnly (ch gain code : Nat) (s : State) : SenseOnly s (readTaken ch gain code s) := by
  rw [SenseOnly, readTaken, urgentMeets_frame]
  rfl

theorem readRefused_senseOnly (s : State) : SenseOnly s (readRefused s) := by
  rw [SenseOnly, readRefused, urgentMeets_frame]
  rfl

theorem SenseOnly.jackRun {s t : State} (h : SenseOnly s t) (n : Nat) : jackRun t n = jackRun s n := by rw [h]; rfl
theorem SenseOnly.now {s t : State} (h : SenseOnly s t) : now t = now s := by rw [h]; rfl

theorem onJack_congr {n : Nat} {f g : JackRun → JackRun} {s : State} (h : f (jackRun s n) = g (jackRun s n)) :
    onJack n f s = onJack n g s := by
  have ht : tmod {} s.jack.run n f = tmod {} s.jack.run n g := congrArg (tput ({} : JackRun) s.jack.run n) h
  simp only [onJack, ht]

section
variable {n : Nat} {s : State}

/-- The first drop of a read starts its time. -/
theorem readDropped_first (h : (jackRun s n).dropped = false) : readDropped n (readRefused s) =
    onJack n (fun j => { j with dropped := true, stepAt := now s, tryAt := now s }) (readRefused s) := by
  have hs := readRefused_senseOnly s
  refine onJack_congr ?_
  simp only [hs.jackRun, hs.now, h, Bool.false_eq_true, if_false]

/-- A later drop leaves it running. -/
theorem readDropped_again (h : (jackRun s n).dropped = true) : readDropped n (readRefused s) =
    onJack n (fun j => { j with tryAt := now s }) (readRefused s) := by
  have hs := readRefused_senseOnly s
  refine onJack_congr ?_
  simp only [hs.jackRun, hs.now, h, if_true]

section
variable (code : Nat)

theorem classRead_tip (h : (jackRun s n).step = .tip) : classRead n code s =
    if (urgentMeets s).1 then readDropped n (readRefused s) else tipDone n code (readTaken n 2 code s) := by
  simp only [classRead, h]
  exact detectionRead_elim ..

theorem classRead_micA (h : (jackRun s n).step = .micA) : classRead n code s =
    if (urgentMeets s).1 then readDropped n (readRefused s) else micADone n code (readTaken (4 + n) 0 code s) := by
  simp only [classRead, h]
  exact detectionRead_elim ..

theorem classRead_micB (h : (jackRun s n).step = .micB) : classRead n code s =
    if (urgentMeets s).1 then readDropped n (readRefused s)
    else classEnd n (micClass (jackRun s n).micA code) (readTaken (4 + n) 0 code s) := by
  simp only [classRead, h]
  exact detectionRead_elim ..

/-- The tip's code: a line, an unknown plug, or on to the microphone (Table 8.9). -/
theorem tipDone_taken : tipDone n code (readTaken n 2 code s) =
    if 2730 < code then classEnd n 4 (clampJack n (readTaken n 2 code s))
    else if 546 ≤ code then classEnd n 5 (clampJack n (readTaken n 2 code s))
    else onJack n (fun j => { j with orient := .ctia, step := .micA, stepAt := now s, dropped := false })
      (clampJack n (readTaken n 2 code s)) := by
  rw [← (readTaken_senseOnly n 2 code s).now]
  rfl

theorem micADone_taken : micADone n code (readTaken (4 + n) 0 code s) =
    onJack n (fun j => { j with micA := code, orient := .omtp, step := .micB, stepAt := now s, dropped := false })
      (readTaken (4 + n) 0 code s) := by
  rw [← (readTaken_senseOnly (4 + n) 0 code s).now]
  rfl

end

/-- A read that is due is that of its step, and has not been tried. -/
theorem readDue_step {st : ClsStep} {ns : Nat} (h : readDue n st ns s = true) :
    (jackRun s n).step = st ∧ (jackRun s n).dropped = false := by
  simp only [readDue, Bool.and_eq_true, beq_iff_eq, Bool.not_eq_true'] at h
  exact ⟨h.1.1.1, h.1.1.2⟩

end

/-! ## The end of a classification (Tables 8.8, 8.9) -/

/-- A jack that is classified. -/
def classGiven (cls : BitVec 3) (j : JackRun) : JackRun := { j with
  cls := cls, orient := if cls = clsCtia then .ctia else if cls = clsOmtp then .omtp else .grounded
  step := .none, dropped := false, win := 4, cnt := 0 }

/-- The class given and its event, before the jack's outputs start. -/
def classified (n : Nat) (cls : BitVec 3) (s : State) : State := jackEvent (onJack n (classGiven cls) (abandonClass n s))

theorem classEnd_eq (n : Nat) (cls : BitVec 3) (s : State) : classEnd n cls s =
    if (jackRun s n).muted ∧ ((jackWord s n).aunmute && (cls == cls3P || cls == clsCtia || cls == clsOmtp)) then
      unmuteJack n (classified n cls s) else startJack n (classified n cls s) := rfl

theorem jackRun_jackEvent (s : State) (k : Nat) : jackRun (jackEvent s) k = jackRun s k := by
  unfold jackEvent
  split <;> rfl

theorem jackRun_classified (n : Nat) (cls : BitVec 3) (s : State) :
    jackRun (classified n cls s) n = classGiven cls (classAbandoned (jackRun s n)) := by
  rw [classified, jackRun_jackEvent, jackRun_onJack, if_pos rfl, jackRun_abandonClass, if_pos rfl]

theorem classEnd_unmuted {n : Nat} {s : State} (cls : BitVec 3) (h : (jackRun s n).muted = false) :
    classEnd n cls s = startJack n (classified n cls s) := by
  rw [classEnd_eq, if_neg (by rw [h]; simp)]

theorem classificationTimeout_ends {n : Nat} {s : State} (hs : (jackRun s n).step ∈ [.tip, .micA, .micB])
    (hd : (jackRun s n).dropped = true) (hf : classifyFree s = true) (ht : 10000000 ≤ since s (jackRun s n).stepAt) :
    classificationTimeout n s = classEnd n 5 s := by
  have hdue : (jackRun s n).dropped = true ∧ 10 * msec ≤ since s (jackRun s n).stepAt ∧ classifyFree s = true := ⟨hd, ht, hf⟩
  simp only [List.mem_cons, List.not_mem_nil, or_false] at hs
  unfold classificationTimeout
  rcases hs with h | h | h
  · simp only [h, if_pos hdue]; rfl
  · simp only [h, if_pos hdue]; rfl
  · simp only [h, if_pos hdue]; rfl

/-! ## No read of a classification wakes (R373) -/

/-- What a jack's wake events are told by. -/
def jackSigns (j : JackRun) : Bool × Bool × BitVec 2 := (j.present, j.pressed, j.button)

theorem jackWake_sameSigns {n : Nat} {s t : State} (h : jackSigns (jackRun t n) = jackSigns (jackRun s n)) : jackWake n s t = t := by
  simp only [jackSigns, Prod.mk.injEq] at h
  obtain ⟨hpresent, hpressed, hbutton⟩ := h
  exact jackWake_kept hpresent hpressed hbutton

theorem jackSigns_classEnd (n : Nat) (cls : BitVec 3) (s : State) :
    jackSigns (jackRun (classEnd n cls s) n) = jackSigns (jackRun s n) := by
  rw [classEnd_eq]
  split
  · rw [jackRun_unmuteJack, if_pos rfl, jackRun_classified]
    rfl
  · rw [(startJack_outsOnly n _).jackRun, jackRun_classified]
    rfl

theorem jackSigns_readDropped (n : Nat) (s : State) : jackSigns (jackRun (readDropped n s) n) = jackSigns (jackRun s n) := by
  rw [readDropped, jackRun_onJack_same]
  rfl

theorem jackSigns_tipDone (n code : Nat) (s : State) : jackSigns (jackRun (tipDone n code s) n) = jackSigns (jackRun s n) := by
  have hclamp : jackRun (clampJack n s) n = jackRun s n := (clampJack_outsOnly n s).jackRun n
  unfold tipDone
  split
  · rw [jackSigns_classEnd, hclamp]
  · split
    · rw [jackSigns_classEnd, hclamp]
    · rw [jackRun_onJack_same, hclamp]
      rfl

theorem jackSigns_classRead (n code : Nat) (s : State) : jackSigns (jackRun (classRead n code s) n) = jackSigns (jackRun s n) := by
  have hdrop : jackSigns (jackRun (readDropped n (readRefused s)) n) = jackSigns (jackRun s n) := by
    rw [jackSigns_readDropped, (readRefused_senseOnly s).jackRun]
  cases hs : (jackRun s n).step
  case tip =>
    rw [classRead_tip code hs]
    split
    · exact hdrop
    · rw [jackSigns_tipDone, (readTaken_senseOnly ..).jackRun]
  case micA =>
    rw [classRead_micA code hs]
    split
    · exact hdrop
    · rw [micADone, jackRun_onJack_same, (readTaken_senseOnly ..).jackRun]
      rfl
  case micB =>
    rw [classRead_micB code hs]
    split
    · exact hdrop
    · rw [jackSigns_classEnd, (readTaken_senseOnly ..).jackRun]
  all_goals simp only [classRead, hs]

/-- A reissue of a classification's read is that read again. -/
theorem exec_detectionReadReissue {n code : Nat} {s : State} (hd : (jackRun s n).dropped = true)
    (ht : 100000 ≤ since s (jackRun s n).tryAt) (hs : (jackRun s n).step ≠ .none) (hf : classifyFree s = true) (hc : code < 4096) :
    exec (.detectionReadReissue n code) s = ev s (classRead n code s) := by
  have hdue : (jackRun s n).dropped = true ∧ 100 * usec ≤ since s (jackRun s n).tryAt := ⟨hd, ht⟩
  have hread : detectionReissue n code s = classRead n code s := by
    simp only [detectionReissue, if_pos hdue, if_neg hs, hf, if_true, Nat.mod_eq_of_lt hc]
  exact congrArg (ev s) ((congrArg (jackWake n s) hread).trans (jackWake_sameSigns (jackSigns_classRead n code s)))

/-- Settles O11: each read is that of its step, dropped or taken, and the end gives the class and its event. -/
theorem jackClassification : Obligations.JackClassification := by
  unfold Obligations.JackClassification
  refine ⟨fun s n hs hf hl hr => ?start, fun s n code hdue hc => ?tip, fun s n code hdue hc => ?micA, fun s n code hdue hc => ?micB,
    fun s n cls hst hm => ?ends, fun s n hs hd hf ht => congrArg (ev s) (classificationTimeout_ends hs hd hf ht),
    fun s n code hd ht hs hf hc => ?micA2, fun s n code hd ht hs hf hc => ?tip2, fun s n code hd ht hs hf hc => ?micB2⟩
  case start =>
    have hframe : RunsDacs s (onJack n (probeStarted (now s)) (probed n s)) := (probed_dacsOnly n s).runsDacs.trans (.onJack ..)
    refine ⟨_, (congrArg (ev s) (classificationStart_probes hs hf hl hr)).trans hframe.pumps.event, ?_, ?_, ?_, ?_, ?_,
      fun d => dac_probed hl hr d, hframe⟩
    all_goals rw [jackRun_onJack_same]; rfl
  case tip =>
    obtain ⟨hs, hd⟩ := readDue_step hdue
    refine congrArg (ev s) ((if_pos hdue).trans ?_)
    rw [Nat.mod_eq_of_lt hc, classRead_tip code hs, readDropped_first hd, tipDone_taken]
    rfl
  case micA =>
    obtain ⟨hs, hd⟩ := readDue_step hdue
    refine congrArg (ev s) ((if_pos hdue).trans ?_)
    rw [Nat.mod_eq_of_lt hc, classRead_micA code hs, readDropped_first hd, micADone_taken]
    rfl
  case micB =>
    obtain ⟨hs, hd⟩ := readDue_step hdue
    refine congrArg (ev s) ((if_pos hdue).trans ?_)
    rw [Nat.mod_eq_of_lt hc, classRead_micB code hs, readDropped_first hd]
    rfl
  case ends =>
    have hrun : jackRun (classEnd n cls s) n = classGiven cls (classAbandoned (jackRun s n)) := by
      rw [classEnd_unmuted cls hm, (startJack_outsOnly n _).jackRun, jackRun_classified]
    have hpend : bit (classEnd n cls s).irq.pend irqJack = true := by
      have hst' : (onJack n (classGiven cls) (abandonClass n s)).power.st = .run := by
        rw [onJack_power, abandonClass_runsDacs n s]; exact hst
      rw [classEnd_unmuted cls hm, startJack_outsOnly n (classified n cls s), classified, jackEvent_run hst']
      exact bit_setBit_true (by decide) _
    exact ⟨_, rfl, by rw [hrun]; rfl, by rw [hrun]; rfl, hpend, by rw [hrun]; rfl⟩
  case micA2 =>
    refine (exec_detectionReadReissue hd ht (by rw [hs]; decide) hf hc).trans (congrArg (ev s) ?_)
    rw [classRead_micA code hs, readDropped_again hd, micADone_taken]
    rfl
  case tip2 =>
    refine (exec_detectionReadReissue hd ht (by rw [hs]; decide) hf hc).trans (congrArg (ev s) ?_)
    rw [classRead_tip code hs, readDropped_again hd, tipDone_taken]
    rfl
  case micB2 =>
    refine (exec_detectionReadReissue hd ht (by rw [hs]; decide) hf hc).trans (congrArg (ev s) ?_)
    rw [classRead_micB code hs, readDropped_again hd]
    rfl

end Sys2Proof.Machine
end

section
/-! PROOF. Button reads (O12): the frame of the statement fails where a confirmed press wakes the device. -/

namespace Sys2Proof.Machine

/-- A device in DOZE, with BUTTON_PRESS a wake source, whose jack 0 holds a CTIA headset with seven reads of button 0 counted. -/
def pressInDoze : State := { ({} : State) with
  power := { ({} : Power) with st := .doze, wakeMask := 8 }
  jack := { ({} : State).jack with
    words := [(0, { ({} : JackWord) with w0 := 0x88000000 })]
    run := [(0, { ({} : JackRun) with cls := 2, win := 0, cnt := 7 })] } }

/-- The eighth read confirms the press, and the press starts the wake sequence. -/
theorem buttonSample_pressInDoze : (jackWake 0 pressInDoze (buttonSample 0 0 pressInDoze)).power.waking = some .done := by
  decide

/-- Refutes O12: its first clause lacks the hypothesis that no press wakes the device (R373). In `pressInDoze` the read confirms a press of
an enabled wake source, so the wake sequence starts, and the power state changes beyond the event that the clause lets AON hold. -/
theorem not_jackButtons : ¬ Obligations.JackButtons := by
  unfold Obligations.JackButtons
  rintro ⟨hread, -⟩
  obtain ⟨t, hstep, -, hframe⟩ := hread pressInDoze 0 0 (by decide) (by decide)
  have ht : settle pressInDoze (jackWake 0 pressInDoze (buttonSample 0 0 pressInDoze)) = t := Host.Outcome.next.inj hstep
  have hwakes : t.power.waking = some .done := by rw [← ht]; exact buttonSample_pressInDoze
  have hasleep : t.power.waking = none := by rw [hframe]; rfl
  rw [hasleep] at hwakes
  exact absurd hwakes (by decide)

end Sys2Proof.Machine
end

section
/-! PROOF. Holdover (O34): the mute of the outputs and of digital egress, and the restart at the common boundary. -/

namespace Sys2Proof.Machine

/-- Each entry that a fold names once takes `g`; the others stand. `I` holds throughout. -/
theorem entry_foldl_once {α : Type} {π : State → Nat → α} {I : State → Prop} {f : State → Nat → State} {g : Nat → α → α}
    (hI : ∀ s n, I s → I (f s n)) (hf : ∀ s n k, I s → π (f s n) k = if k = n then g k (π s k) else π s k)
    {l : List Nat} (hl : l.Nodup) {s : State} (hs : I s) (k : Nat) :
    π (l.foldl f s) k = if k ∈ l then g k (π s k) else π s k := by
  induction l generalizing s with
  | nil => simp
  | cons n l ih =>
    obtain ⟨hn, hl⟩ := List.nodup_cons.1 hl
    rw [List.foldl_cons, ih hl (hI s n hs), hf s n k hs]
    by_cases hk : k = n
    · subst hk
      simp only [hn, if_false, if_true, List.mem_cons_self]
    · simp only [hk, if_false, List.mem_cons, false_or]

theorem flowRun_onFlow (n k : Nat) (f : FlowRun → FlowRun) (s : State) :
    flowRun (onFlow n f s) k = if k = n then f (flowRun s k) else flowRun s k := by
  split
  · next h => rw [h, flowRun_onFlow_same]
  · next h => exact flowRun_onFlow_other n k f s h

/-- An update of flows, the same for each and no other when taken again. -/
theorem flowRun_foldl_onFlow {g : FlowRun → FlowRun} (hg : ∀ r, g (g r) = g r) (l : List Nat) (s : State) (k : Nat) :
    flowRun (l.foldl (fun s f => onFlow f g s) s) k = if k ∈ l then g (flowRun s k) else flowRun s k :=
  entry_foldl (π := flowRun) (I := fun _ => True) (g := fun _ => g) (fun _ _ h => h)
    (fun t n k _ => flowRun_onFlow n k g t) (fun _ => hg) l trivial k

theorem foldl_onFlow_flowsOnly (g : FlowRun → FlowRun) (l : List Nat) (s : State) :
    FlowsOnly s (l.foldl (fun s f => onFlow f g s) s) := .foldl (fun s f => (rfl : FlowsOnly s (onFlow f g s))) l s

/-! ## The mute (R326) -/

/-- One output's g_out begins its way to 0, unless its clamp holds it there. -/
def holdFall (s : State) (d : Nat) : State := if (dac s d).clamp then s else onDac d (gFall (holdSteps s) s) s

/-- An output as the holdover mute leaves it. -/
def heldDown (s : State) (x : Dac) : Dac :=
  if x.clamp = true ∨ x.g = .zero then x
  else { x with g := .falling, gFrom := gNow s x, gAt := now s, gLen := holdSteps s }

theorem DacsOnly.refl (s : State) : DacsOnly s s := rfl

theorem holdFall_dacsOnly (s : State) (d : Nat) : DacsOnly s (holdFall s d) := by
  unfold holdFall
  split
  · rfl
  · exact .onDac ..

theorem dac_holdFall (s : State) (n k : Nat) : dac (holdFall s n) k = if k = n then heldDown s (dac s k) else dac s k := by
  unfold holdFall
  by_cases hk : k = n
  · subst hk
    cases hc : (dac s k).clamp
    · simp only [Bool.false_eq_true, if_false, if_true, dac_onDac_same, heldDown, hc, false_or, gFall]
    · simp only [if_true, heldDown, hc, true_or]
  · rw [if_neg hk]
    split
    · rfl
    · exact dac_onDac_other _ _ _ _ hk

theorem heldDown_outsOnly {s t : State} (h : OutsOnly s t) : heldDown t = heldDown s := by
  funext x
  unfold heldDown
  rw [h.gNow, h.now, show holdSteps t = holdSteps s by rw [h]; rfl]

/-- The outputs of a holdover mute. -/
def holdFalls (s : State) : State := (List.range 34).foldl holdFall s

theorem holdFalls_dacsOnly (s : State) : DacsOnly s (holdFalls s) :=
  foldl_related (R := DacsOnly) (fun _ => rfl) (fun _ _ _ => DacsOnly.trans) holdFall_dacsOnly _ s

theorem dac_holdFalls (s : State) {d : Nat} (hd : d < 34) : dac (holdFalls s) d = heldDown s (dac s d) := by
  have hall := entry_foldl_once (π := dac) (I := DacsOnly s) (f := holdFall) (g := fun _ => heldDown s)
    (fun t n h => h.trans (holdFall_dacsOnly t n))
    (fun t n k h => by rw [← heldDown_outsOnly h.outsOnly]; exact dac_holdFall t n k) (List.nodup_range (n := 34)) (.refl s) d
  rw [holdFalls, hall, if_pos (List.mem_range.2 hd)]

/-- A flow as the holdover mute leaves it: its values ramp to 0. -/
def rampedOut (r : FlowRun) : FlowRun := { r with muteJ := some 0 }

/-- The outputs and the digital egress flows of a holdover mute. -/
def egressMuted (s : State) : State := (runningFlows s digital).foldl (fun s f => onFlow f rampedOut s) (holdFalls s)

theorem egressMuted_frame (s : State) : egressMuted s = { s with
    flows := (egressMuted s).flows, outs := { s.outs with dacs := (holdFalls s).outs.dacs } } := by
  have hf := foldl_onFlow_flowsOnly rampedOut (runningFlows s digital) (holdFalls s)
  have hd := holdFalls_dacsOnly s
  rw [DacsOnly] at hd
  rw [FlowsOnly, ← egressMuted] at hf
  rw [hf, hd]

theorem OutsOnly.runningFlows {s t : State} (h : OutsOnly s t) (p : Nat → Quad → Bool) : runningFlows t p = runningFlows s p := by
  rw [h]; rfl

theorem holdoverMute_mutes {s : State} (hst : s.clk.a.st = .holdover) (h : 1000000000 ≤ since s s.clk.a.holdAt ∨ 20000 ≤ driftPpb s) :
    holdoverMute s = raiseIrq irqClock (raiseIrq irqHoldMute (onPll 0 (fun p => { p with st := .holdoverMuted }) (egressMuted s))) := by
  have hr := (holdFalls_dacsOnly s).outsOnly.runningFlows digital
  have hfalls : holdFalls s = (List.range 34).foldl (fun s d =>
      if (dac s d).clamp then s else onDac d (gFall (holdSteps s) s) s) s := rfl
  rw [holdoverMute, if_pos ⟨hst, h⟩, egressMuted, ← hr, hfalls]
  rfl

/-! ## The restart (R328) -/

/-- One output that plays, or ramps in, starts its unmute ramp anew. -/
def rampAnew (s : State) (d : Nat) : State :=
  match (dac s d).phase with
  | .unmuting | .playing => unmute d s
  | _ => s

/-- An output as the restart leaves it. -/
def rampsIn (s : State) (x : Dac) : Dac :=
  match x.phase with
  | .unmuting | .playing => unmuted s x
  | _ => x

theorem rampAnew_dacsOnly (s : State) (d : Nat) : DacsOnly s (rampAnew s d) := by
  unfold rampAnew
  split <;> rfl

theorem dac_rampAnew {s : State} (h : gHeld s = false) (n k : Nat) :
    dac (rampAnew s n) k = if k = n then rampsIn s (dac s k) else dac s k := by
  by_cases hk : k = n
  · subst hk
    rw [if_pos rfl, rampAnew, rampsIn]
    split <;> simp only [unmute_eq h, dac_onDac_same]
  · rw [if_neg hk, rampAnew]
    split <;> simp only [unmute_eq h, dac_onDac_other _ _ _ _ hk]

theorem rampsIn_outsOnly {s t : State} (h : OutsOnly s t) : rampsIn t = rampsIn s := by
  funext x
  unfold rampsIn unmuted
  rw [h.gNow, h.now]

theorem foldl_rampAnew_dacsOnly (s : State) (l : List Nat) : DacsOnly s (l.foldl rampAnew s) :=
  foldl_related (R := DacsOnly) (fun _ => rfl) (fun _ _ _ => DacsOnly.trans) rampAnew_dacsOnly _ s

theorem dac_foldl_rampAnew {s : State} (h : gHeld s = false) {d : Nat} (hd : d < 34) :
    dac ((List.range 34).foldl rampAnew s) d = rampsIn s (dac s d) := by
  have hall := entry_foldl_once (π := dac) (I := DacsOnly s) (f := rampAnew) (g := fun _ => rampsIn s)
    (fun t n hi => hi.trans (rampAnew_dacsOnly t n))
    (fun t n k hi => by
      rw [← rampsIn_outsOnly hi.outsOnly]
      exact dac_rampAnew (hi.outsOnly.gHeld.trans h) n k) (List.nodup_range (n := 34)) (.refl s) d
  rw [hall, if_pos (List.mem_range.2 hd)]

/-- A flow at the restart: where it runs its next sample carries CUT, and its mute is over. -/
def cutUnmuted (r : FlowRun) : FlowRun := { r with cutNext := r.cutNext || r.running, muteJ := none }

/-- The flows of a restart, which waits no more. -/
def flowsUnmuted (s : State) : State :=
  (activeFlows s).foldl (fun s f => onFlow f cutUnmuted s) { s with clk := { s.clk with restart := false } }

theorem flowsUnmuted_frame (s : State) :
    flowsUnmuted s = { s with clk := { s.clk with restart := false }, flows := (flowsUnmuted s).flows } :=
  foldl_onFlow_flowsOnly ..

theorem holdoverRestart_restarts {s : State} (hr : s.clk.restart = true) (hst : s.clk.a.st = .locked) (ha : audioRuns s = true)
    (hb : commonBoundary s = true) : holdoverRestart s = (List.range 34).foldl rampAnew (flowsUnmuted s) := by
  rw [holdoverRestart, if_pos ⟨hr, hst, ha, hb⟩, flowsUnmuted]
  refine congrArg (fun f => List.foldl f _ _) (funext₂ fun s d => ?_)
  rfl

/-- Settles O34: the mute and the restart as folds over the outputs and the flows, read entry by entry. -/
theorem holdover : Obligations.Holdover := by
  unfold Obligations.Holdover
  refine ⟨fun s hst hdue => ?mute, fun s hr hst ha hb => ?restart⟩
  case mute =>
    have hmutes := holdoverMute_mutes hst hdue
    have hframe := egressMuted_frame s
    have hdac := fun d (hd : d < 34) => dac_holdFalls s hd
    have hflow : ∀ f ∈ runningFlows s digital, (flowRun (egressMuted s) f).muteJ = some 0 := fun f hf => by
      rw [egressMuted, flowRun_foldl_onFlow (g := rampedOut) fun _ => rfl, if_pos hf, rampedOut]
    generalize egressMuted s = u at hmutes hframe hflow
    generalize holdFalls s = v at hframe hdac
    have hp : u.pending = s.pending := by rw [hframe]
    have ho : u.sec = s.sec := by rw [hframe]
    refine ⟨_, (congrArg (ev s) hmutes).trans (ev_of_kept (by simp [hp]) (by simp [ho])), ?_, ?_, ?_, fun d hd => ?_, hflow, ?_⟩
    · rw [hframe]; rfl
    · exact (bit_setBit_other (by decide) _).trans (bit_setBit_true (by decide) _)
    · exact bit_setBit_true (by decide) _
    · refine Eq.trans ?_ (hdac d hd)
      rw [hframe]; rfl
    · rw [hframe]; rfl
  case restart =>
    have hrestarts := holdoverRestart_restarts hr hst ha hb
    have hfl := flowsUnmuted_frame s
    have hdacs := foldl_rampAnew_dacsOnly (flowsUnmuted s) (List.range 34)
    have hheld : gHeld (flowsUnmuted s) = false := by rw [hfl, gHeld]; simp [hst]
    have hdac := fun d (hd : d < 34) => dac_foldl_rampAnew hheld hd
    have hflow : ∀ f ∈ activeFlows s, flowRun (flowsUnmuted s) f = cutUnmuted (flowRun s f) := fun f hf => by
      rw [flowsUnmuted, flowRun_foldl_onFlow (fun r => by simp [cutUnmuted]), if_pos hf]
      rfl
    generalize (List.range 34).foldl rampAnew (flowsUnmuted s) = t at hrestarts hdacs hdac
    generalize flowsUnmuted s = u at hfl hdacs hdac hflow
    rw [DacsOnly, hfl] at hdacs
    have hfr : t = { s with clk := { s.clk with restart := false }, flows := t.flows, outs := { s.outs with dacs := t.outs.dacs } } := by
      rw [hdacs]
    refine ⟨t, (congrArg (ev s) hrestarts).trans (ev_of_kept (by rw [hfr]) (by rw [hfr])), by rw [hfr], fun f hf hrun => ?_,
      fun d hd hp => ?_, by rw [hfr]⟩
    · have hf' : flowRun t f = cutUnmuted (flowRun s f) := by rw [← hflow f hf, hdacs]; rfl
      rw [hf']
      exact ⟨by simp [cutUnmuted, hrun], rfl⟩
    · have hd' : dac t d = unmuted u (dac s d) := by
        have hu : dac u d = dac s d := by rw [hfl]; rfl
        rw [hdac d hd, hu, rampsIn, hp]
      rw [hd']
      exact ⟨rfl, rfl, by rw [hfl]; rfl⟩

end Sys2Proof.Machine
end

section
/-! SUPPORT. What the steps of a PLL leave (R319–R333): its own entry, the source of the timebase, and the log where a RELOCK test ends. -/

namespace Sys2Proof.Machine

/-! ## One PLL of the two -/

theorem pll_onPll_same (u : Nat) (f : Pll → Pll) (s : State) : pll (onPll u f s) u = f (pll s u) := by
  unfold pll onPll
  split <;> rfl

theorem pll_onPll_other {u : Nat} (hu : u < 2) (f : Pll → Pll) (s : State) : pll (onPll u f s) (1 - u) = pll s (1 - u) := by
  rcases (by omega : u = 0 ∨ u = 1) with rfl | rfl <;> rfl

theorem pll_of_clk {s t : State} (h : t.clk = s.clk) (u : Nat) : pll t u = pll s u := by rw [pll, pll, h]

theorem onPll_frame (u : Nat) (f : Pll → Pll) (s : State) : onPll u f s = { s with clk := (onPll u f s).clk } := by
  unfold onPll
  split <;> rfl

theorem onPll_losses (u : Nat) (f : Pll → Pll) (s : State) : (onPll u f s).clk.losses = s.clk.losses := by
  unfold onPll
  split <;> rfl

/-- Two changes of a PLL are one. -/
theorem onPll_onPll (u : Nat) (f g : Pll → Pll) (s : State) : onPll u g (onPll u f s) = onPll u (fun p => g (f p)) s := by
  unfold onPll
  split <;> rfl

/-- A change of a PLL reads the clocks alone. -/
theorem onPll_clk_congr {s t : State} (h : t.clk = s.clk) (u : Nat) (f : Pll → Pll) : (onPll u f t).clk = (onPll u f s).clk := by
  unfold onPll
  split <;> simp only [h]

theorem onPll_self {u : Nat} {f : Pll → Pll} {s : State} (h : f (pll s u) = pll s u) : (onPll u f s).clk = s.clk := by
  unfold onPll pll at *
  split <;> simp_all

/-! ## Frames -/

/-- Only the clocks, the timebase, the log, the margins and the interrupt flags differ. -/
def ClocksOnly (s t : State) : Prop :=
  t = { s with clk := t.clk, tb := t.tb, flt := t.flt, margin := t.margin, irq := { s.irq with pend := t.irq.pend } }

theorem ClocksOnly.trans {s t u : State} (h : ClocksOnly s t) (h' : ClocksOnly t u) : ClocksOnly s u := by
  unfold ClocksOnly at *; rw [h', h]

theorem ClocksOnly.onPll (u : Nat) (f : Pll → Pll) (s : State) : ClocksOnly s (onPll u f s) := by
  rw [ClocksOnly, onPll_frame]

theorem ClocksOnly.raiseIrq (i : Nat) (s : State) : ClocksOnly s (raiseIrq i s) := rfl

/-- An event that changes no more answers its new state. -/
theorem ClocksOnly.event {s t : State} (h : ClocksOnly s t) : ev s t = .next t := ev_of_kept (by rw [h]) (by rw [h])

/-- Such an event, where its new state is known. -/
theorem ClocksOnly.event_eq {s t u : State} (h : ClocksOnly s u) (htu : t = u) : ev s t = .next u := htu ▸ h.event

/-! ## The source of the timebase (R338, Table 9.6) -/

theorem tbSwitch_frame (s : State) : tbSwitch s = { s with tb := (tbSwitch s).tb } := by
  unfold tbSwitch tbSwitchAt
  dsimp only
  split
  · rfl
  · split
    · split <;> rfl
    · rfl

theorem tbSwitch_clocksOnly (s : State) : ClocksOnly s (tbSwitch s) := by rw [ClocksOnly, tbSwitch_frame]

theorem tbSwitch_clk (s : State) : (tbSwitch s).clk = s.clk := by rw [tbSwitch_frame]

theorem tbSwitch_irq (s : State) : (tbSwitch s).irq = s.irq := by rw [tbSwitch_frame]

theorem tbSwitch_lockedOnce (s : State) : (tbSwitch s).tb.lockedOnce = s.tb.lockedOnce := by
  unfold tbSwitch tbSwitchAt
  dsimp only
  split
  · rfl
  · split
    · split <;> rfl
    · rfl

/-- A PLL's change of state raises CLOCK. -/
theorem tbSwitch_raises (s : State) : bit (tbSwitch (raiseIrq irqClock s)).irq.pend irqClock = true := by
  rw [tbSwitch_irq]
  exact bit_setBit_true (by decide) _

/-! ## The end of a RELOCK test (R432, Table 13.1) -/

/-- A test that ends classifies entries and repairs rows: it changes the log and the notices, and writes no entry. -/
def Classified (s t : State) : Prop :=
  t = { s with flt := t.flt, margin := t.margin, irq := { s.irq with pend := t.irq.pend } } ∧ t.flt.written = s.flt.written

theorem Classified.trans {s t u : State} (h : Classified s t) (h' : Classified t u) : Classified s u := by
  obtain ⟨hf, hw⟩ := h
  obtain ⟨hf', hw'⟩ := h'
  exact ⟨by rw [hf', hf], hw'.trans hw⟩

theorem raiseNotice_classified (n : Nat) (s : State) : Classified s (raiseNotice n s) := by
  unfold raiseNotice raiseIf
  split <;> exact ⟨rfl, rfl⟩

theorem repairRow_classified (site bank row : Nat) (s : State) : Classified s (repairRow site bank row s) := by
  unfold repairRow
  dsimp only
  split
  · exact ⟨rfl, rfl⟩
  · exact Classified.trans ⟨rfl, rfl⟩ (raiseNotice_classified ..)

theorem classifySite_classified (site : Nat) (passed : Bool) (s : State) : Classified s (classifySite site passed s) := by
  unfold classifySite
  exact Classified.trans ⟨rfl, rfl⟩ (foldl_related (R := Classified) (fun _ => ⟨rfl, rfl⟩) (fun _ _ _ => .trans)
    (fun s (x : Nat × Nat) => repairRow_classified site x.1 x.2 s) _ _)

theorem Classified.clocksOnly {s t : State} (h : Classified s t) : ClocksOnly s t := by
  obtain ⟨hf, -⟩ := h
  rw [ClocksOnly, hf]

theorem Classified.clk {s t : State} (h : Classified s t) : t.clk = s.clk := by
  obtain ⟨hf, -⟩ := h
  rw [hf]

/-- A PLL whose RELOCK test is over. -/
def testOver (p : Pll) : Pll := { p with testing := false }

/-- A test that a new relock makes fail: the PLL has none any more, and the log and the notices follow. -/
theorem relockFails_classified (u : Nat) (s : State) : Classified (onPll u testOver s) (relockFails u s) := by
  unfold relockFails
  split
  · exact classifySite_classified ..
  · next h =>
    have hsame : testOver (pll s u) = pll s u := by
      unfold testOver
      rw [← eq_false_of_ne_true h]
    have hclk := onPll_self hsame
    have hs : onPll u testOver s = s := by rw [onPll_frame, hclk]
    rw [hs]
    exact ⟨rfl, rfl⟩

theorem relockFails_clocksOnly (u : Nat) (s : State) : ClocksOnly s (relockFails u s) :=
  (ClocksOnly.onPll ..).trans (relockFails_classified u s).clocksOnly

theorem relockFails_clk (u : Nat) (s : State) : (relockFails u s).clk = (onPll u testOver s).clk := (relockFails_classified u s).clk

theorem relockFails_frame (u : Nat) (s : State) : relockFails u s = { s with
    clk := (onPll u testOver s).clk, flt := (relockFails u s).flt, margin := (relockFails u s).margin
    irq := { s.irq with pend := (relockFails u s).irq.pend } } := by
  obtain ⟨hf, -⟩ := relockFails_classified u s
  rw [onPll_frame] at hf
  exact hf

theorem relockFails_written (u : Nat) (s : State) : (relockFails u s).flt.written = s.flt.written := by
  obtain ⟨-, hw⟩ := relockFails_classified u s
  rw [hw, onPll_flt]

/-! ## Holdover (R324) -/

/-- A PLL that enters holdover, its word frozen. -/
def frozenAt (s : State) (p : Pll) : Pll := { p with
  st := .holdover, good := 0, bad := 0, qual := 0, holdAt := now s, t0Code := tempCode s, word := p.mean, dco := p.mean }

/-- LOSSES counts. -/
def lossCounted (s : State) : State := { s with clk := { s.clk with losses := min 15 (s.clk.losses + 1) } }

theorem enterHoldover_eq (u : Nat) (s : State) :
    enterHoldover u s = tbSwitch (raiseIrq irqClock (lossCounted (onPll u (frozenAt s) (relockFails u s)))) := rfl

theorem enterHoldover_clocksOnly (u : Nat) (s : State) : ClocksOnly s (enterHoldover u s) := by
  rw [enterHoldover_eq]
  refine ClocksOnly.trans ?_ ((ClocksOnly.raiseIrq ..).trans (tbSwitch_clocksOnly _))
  exact ((relockFails_clocksOnly u s).trans (ClocksOnly.onPll u (frozenAt s) _)).trans rfl

theorem enterHoldover_clk (u : Nat) (s : State) : (enterHoldover u s).clk =
    { (onPll u (fun p => frozenAt s (testOver p)) s).clk with losses := min 15 (s.clk.losses + 1) } := by
  rw [enterHoldover_eq, tbSwitch_clk, raiseIrq_clk, lossCounted, onPll_clk_congr (relockFails_clk u s), onPll_onPll]
  unfold onPll
  split <;> rfl

theorem pll_enterHoldover (u : Nat) (s : State) : pll (enterHoldover u s) u = frozenAt s (testOver (pll s u)) := by
  rw [← pll_onPll_same u (fun p => frozenAt s (testOver p)) s, pll, pll, enterHoldover_clk]

theorem enterHoldover_losses (u : Nat) (s : State) : (enterHoldover u s).clk.losses = min 15 (s.clk.losses + 1) := by
  rw [enterHoldover_clk]

theorem enterHoldover_raises (u : Nat) (s : State) : bit (enterHoldover u s).irq.pend irqClock = true := tbSwitch_raises _

/-! ## Lock (R319, R321, R328) -/

/-- A PLL that locks: a test whose relock took too long is over. -/
def lockedAt (t : Nat) (p : Pll) : Pll := { p with
  st := .locked, good := 0, bad := 0, qual := 0, fromNap := false, lockBy := 0
  testing := p.testing && !decide (0 < p.lockBy ∧ p.lockBy < t) }

theorem lateLock_clocksOnly (u : Nat) (s : State) : ClocksOnly s (lateLock u s) := by
  unfold lateLock
  dsimp only
  refine ClocksOnly.trans ?_ (ClocksOnly.onPll ..)
  split
  · exact relockFails_clocksOnly u s
  · rfl

theorem lockNow_clocksOnly (u : Nat) (s : State) : ClocksOnly s (lockNow u s) := by
  unfold lockNow
  extract_lets p s1 c1 s2 t2 s3
  have h1 : ClocksOnly s s1 := (lateLock_clocksOnly u s).trans (ClocksOnly.onPll ..)
  have h2 : ClocksOnly s1 s2 := by unfold s2; split <;> rfl
  have h3 : ClocksOnly s2 s3 := by unfold s3; split <;> rfl
  exact (h1.trans (h2.trans h3)).trans ((ClocksOnly.raiseIrq ..).trans (tbSwitch_clocksOnly _))

theorem lockNow_raises (u : Nat) (s : State) : bit (lockNow u s).irq.pend irqClock = true := tbSwitch_raises _

/-- The PLL as its late lock leaves it, and then locked. -/
theorem lateLock_clk (u : Nat) (s : State) : (onPll u (fun p => { p with
      st := .locked, good := 0, bad := 0, qual := 0, fromNap := false }) (lateLock u s)).clk = (onPll u (lockedAt (now s)) s).clk := by
  unfold lateLock
  dsimp only
  rw [onPll_onPll]
  split
  · next h =>
    rw [onPll_clk_congr (relockFails_clk u s), onPll_onPll]
    unfold onPll pll at *
    split <;> simp_all [lockedAt, testOver]
  · next h =>
    unfold onPll pll at *
    split <;> simp_all [lockedAt] <;> omega

theorem pll_lockNow {u : Nat} (hu : u < 2) (s : State) :
    pll (lockNow u s) u = lockedAt (now s) (pll s u) ∧ pll (lockNow u s) (1 - u) = pll s (1 - u) := by
  unfold lockNow
  extract_lets p s1 c1 s2 t2 s3
  have h1 (k : Nat) : pll s1 k = pll (onPll u (lockedAt (now s)) s) k := pll_of_clk (lateLock_clk u s) k
  have h2 (k : Nat) : pll s2 k = pll s1 k := by unfold s2; split <;> rfl
  have h3 (k : Nat) : pll s3 k = pll s2 k := by unfold s3; split <;> rfl
  have hall (k : Nat) : pll (tbSwitch (raiseIrq irqClock s3)) k = pll (onPll u (lockedAt (now s)) s) k := by
    rw [pll_of_clk (tbSwitch_clk _), pll_of_clk (raiseIrq_clk ..), h3, h2, h1]
  rw [hall, hall, pll_onPll_same, pll_onPll_other hu]
  exact ⟨rfl, rfl⟩

/-! ## Relock (R330) -/

/-- A PLL that relocks, its outputs gated. -/
def relockedAt (t : Nat) (p : Pll) : Pll := { p with
  st := .acquiring, gated := true, good := 0, bad := 0, qual := 0, fromNap := false, winAt := t }

/-- Only the ports differ. -/
def PortsOnly (s t : State) : Prop := t = { s with ports := t.ports }

theorem PortsOnly.trans {s t u : State} (h : PortsOnly s t) (h' : PortsOnly t u) : PortsOnly s u := by
  unfold PortsOnly at *; rw [h', h]

theorem mastersStop_portsOnly (s : State) : PortsOnly s (mastersStop s) :=
  foldl_related (R := PortsOnly) (fun _ => rfl) (fun _ _ _ => PortsOnly.trans) (fun s p => by split <;> rfl) _ s

/-- What stops with PLLB: the cores, the sense converter, and the count of the CP's lock. -/
def PllbStops (s t : State) : Prop := t = { s with cores := t.cores, sense := t.sense, cp := t.cp }

theorem PllbStops.trans {s t u : State} (h : PllbStops s t) (h' : PllbStops t u) : PllbStops s u := by
  unfold PllbStops at *; rw [h', h]

theorem pllbStop_stops (s : State) : PllbStops s (pllbStop s) := by
  have hcores : PllbStops s (onCores coreStop s) :=
    foldl_related (R := PllbStops) (fun _ => rfl) (fun _ _ _ => PllbStops.trans) (fun s n => by unfold coreStop; split <;> rfl) _ s
  unfold pllbStop
  generalize onCores coreStop s = t at hcores ⊢
  exact hcores.trans rfl

theorem relock_zero (s : State) : ∃ ports, relock 0 s = tbSwitch (raiseIrq irqClock { s with
    ports := ports, clk := { s.clk with a := relockedAt (now s) s.clk.a } }) := by
  have hp := mastersStop_portsOnly s
  unfold relock
  rw [if_pos rfl]
  generalize mastersStop s = t at hp ⊢
  exact ⟨t.ports, by rw [hp]; rfl⟩

theorem relock_one (s : State) : ∃ cores sense cp, relock 1 s = tbSwitch (raiseIrq irqClock { s with
    cores := cores, sense := sense, cp := cp, power := { s.power with onRc := true }
    clk := { s.clk with b := relockedAt (now s) s.clk.b } }) := by
  have hp := pllbStop_stops s
  unfold relock
  rw [if_neg (by decide)]
  generalize pllbStop s = t at hp ⊢
  exact ⟨t.cores, t.sense, t.cp, by rw [hp]; rfl⟩

end Sys2Proof.Machine
end

section
/-! PROOF. The phase-locked loops (O33): lock windows, references, configuration, the guard's trips and the ungating edges. -/

namespace Sys2Proof.Machine

/-! ## Lock windows (R319, R320) -/

section
variable {u count ppm n e : Nat} {pres ok : Bool} {s s1 : State} (hn : n = winCount s u count) (he : e = winExpected s u)
  (hok : ok = (pres && decide (0 < e) && withinPpm e n (pll s u).limit)) (h1 : s1 = noteWindow u n pres ok s)
include hn he hok h1

/-- While a PLL acquires a window counts, or starts the count over. -/
theorem pllWindow_acquiring (hst : (pll s u).st = .acquiring) : pllWindow u count pres ppm s = countGood u ok s1 := by
  subst h1 hok he hn
  simp only [pllWindow, hst]

/-- Once it is locked a window is good, or one of those that lose lock. -/
theorem pllWindow_locked (hst : (pll s u).st = .locked) : pllWindow u count pres ppm s =
    if ok then onPll u (fun p => { p with bad := 0 }) s1
    else if !withinPpm e n (4 * (pll s u).limit) ∨ 1 ≤ (pll s u).bad then enterHoldover u s1
    else onPll u (fun p => { p with bad := p.bad + 1 }) s1 := by
  subst h1 hok he hn
  simp only [pllWindow, hst]

end

/-- A PLL as a window leaves it, apart from its judgement. -/
def windowed (s : State) (u n : Nat) (pres ok : Bool) (p : Pll) : Pll := { p with
  dco := countHz s u n, mean := if ok then countHz s u n else p.mean, winAt := now s, guardBad := false, refAway := !pres }

theorem noteWindow_eq (u n : Nat) (pres ok : Bool) (s : State) : noteWindow u n pres ok s = onPll u (windowed s u n pres ok) s := rfl

theorem noteWindow_clocksOnly (u n : Nat) (pres ok : Bool) (s : State) : ClocksOnly s (noteWindow u n pres ok s) := .onPll ..

theorem pll_noteWindow (u n : Nat) (pres ok : Bool) (s : State) :
    pll (noteWindow u n pres ok s) u = windowed s u n pres ok (pll s u) := pll_onPll_same ..

theorem now_noteWindow (u n : Nat) (pres ok : Bool) (s : State) : now (noteWindow u n pres ok s) = now s := by
  rw [now, noteWindow_eq, onPll_tb]
  rfl

theorem countGood_bad (u : Nat) (s : State) : countGood u false s = onPll u (fun p => { p with good := 0 }) s := rfl

theorem countGood_counts {u : Nat} {s : State} (h : (pll s u).good < 2) :
    countGood u true s = onPll u (fun p => { p with good := p.good + 1 }) s := by
  rw [countGood, if_neg (by decide), if_neg (by omega)]

theorem countGood_locks {u : Nat} {s : State} (h : 2 ≤ (pll s u).good) (hg : (pll s u).guardBad = false) :
    countGood u true s = lockNow u s := by
  rw [countGood, if_neg (by decide), if_pos ⟨h, hg⟩]

/-- The lock that the third good window in a row gives. -/
theorem lockNow_noteWindow {u : Nat} (hu : u < 2) (n : Nat) (pres ok : Bool) (s : State) :
    (pll (lockNow u (noteWindow u n pres ok s)) u).st = .locked ∧
    pll (lockNow u (noteWindow u n pres ok s)) (1 - u) = pll s (1 - u) ∧
    bit (lockNow u (noteWindow u n pres ok s)).irq.pend irqClock = true ∧
    ((pll s u).testing = true → 0 < (pll s u).lockBy → (pll s u).lockBy < now s →
      (pll (lockNow u (noteWindow u n pres ok s)) u).testing = false) := by
  obtain ⟨hsame, hother⟩ := pll_lockNow hu (noteWindow u n pres ok s)
  rw [pll_noteWindow, now_noteWindow] at hsame
  refine ⟨by rw [hsame]; rfl, hother.trans (pll_onPll_other hu ..), lockNow_raises .., fun _ h0 hlate => ?_⟩
  have hby : (windowed s u n pres ok (pll s u)).lockBy = (pll s u).lockBy := rfl
  rw [hsame, lockedAt, hby]
  simp [h0, hlate]

/-- The loss of lock that a window shows: the word is the mean of the last good one. -/
theorem enterHoldover_noteWindow (u n : Nat) (pres : Bool) (s : State) :
    (pll (enterHoldover u (noteWindow u n pres false s)) u).st = .holdover ∧
    (pll (enterHoldover u (noteWindow u n pres false s)) u).holdAt = now s ∧
    (pll (enterHoldover u (noteWindow u n pres false s)) u).word = (pll s u).mean ∧
    (enterHoldover u (noteWindow u n pres false s)).clk.losses = min 15 (s.clk.losses + 1) ∧
    bit (enterHoldover u (noteWindow u n pres false s)).irq.pend irqClock = true := by
  have hp := pll_enterHoldover u (noteWindow u n pres false s)
  rw [pll_noteWindow] at hp
  refine ⟨by rw [hp]; rfl, ?_, by rw [hp]; rfl, ?_, enterHoldover_raises ..⟩
  · rw [hp]
    exact now_noteWindow ..
  · rw [enterHoldover_losses, noteWindow_eq, onPll_losses]

/-! ## References (R324) -/

theorem xrefLost_power (u : Nat) (s : State) : xrefLost u s = { s with power := (xrefLost u s).power } := by
  unfold xrefLost
  split <;> rfl

theorem xrefLost_clk (u : Nat) (s : State) : (xrefLost u s).clk = s.clk := by rw [xrefLost_power]

/-- Only the power states differ beside the clocks. -/
theorem xrefLost_event {s u t : State} {k : Nat} (h : ClocksOnly (xrefLost k s) t) (hu : u = t) : ev s u = .next t := by
  subst hu
  rw [xrefLost_power] at h
  exact ev_of_kept (by rw [h]) (by rw [h])

theorem referenceLost_locked {u : Nat} {s : State} (h : (pll s u).st = .locked) :
    referenceLost u s = onPll u (fun p => { p with refAway := true }) (enterHoldover u (xrefLost u s)) := by
  simp only [referenceLost, pll_of_clk (xrefLost_clk u s), h]

theorem referenceLost_acquiring {u : Nat} {s : State} (h : (pll s u).st = .acquiring) :
    referenceLost u s = onPll u (fun p => { p with good := 0, qual := 0, refAway := true }) (xrefLost u s) := by
  simp only [referenceLost, pll_of_clk (xrefLost_clk u s), h]

/-- A locked PLL that loses its reference. -/
theorem exec_referenceLost_locked {u : Nat} {s : State} (h : (pll s u).st = .locked) :
    ∃ t, exec (.referenceLost u) s = .next t ∧ (pll t u).st = .holdover ∧ (pll t u).holdAt = now s ∧
      (pll t u).t0Code = tempCode s ∧ (pll t u).word = (pll s u).mean ∧ t.clk.losses = min 15 (s.clk.losses + 1) ∧
      bit t.irq.pend irqClock = true := by
  have hx := xrefLost_power u s
  have hframe := (enterHoldover_clocksOnly u (xrefLost u s)).trans (.onPll u (fun p => { p with refAway := true }) _)
  have hp := pll_onPll_same u (fun p => { p with refAway := true }) (enterHoldover u (xrefLost u s))
  rw [pll_enterHoldover, pll_of_clk (xrefLost_clk u s)] at hp
  refine ⟨_, xrefLost_event hframe (referenceLost_locked h), by rw [hp]; rfl, ?_, ?_, by rw [hp]; rfl, ?_, ?_⟩
  · rw [hp]
    exact congrArg Timebase.count (by rw [hx])
  · rw [hp, hx]; rfl
  · rw [onPll_losses, enterHoldover_losses, xrefLost_clk]
  · rw [onPll_irq]
    exact enterHoldover_raises ..

/-- A port that was PLLA's running reference and runs no more is its loss. -/
theorem refFollow_tdmLost {before t : State} {p : Nat} (hp : p < 4) (hr : before.clk.ref.toNat = p + 2) (hc : t.clk.ref = before.clk.ref)
    (hrun : (tdm before p).st = .running) (hm : tdmMaster (tdm before p).cfg = false) (hstop : (tdm t p).st ≠ .running) :
    refFollow before t = referenceLost 0 t := by
  have h2 : ¬ p + 2 < 2 := by omega
  have h6 : p + 2 < 6 := by omega
  simp [refFollow, hc, hr, h2, h6, hrun, hm, hstop]

/-! ## PLL.CFG (R342) -/

/-- A direct command that answers OK and leaves the host port as it found it. -/
theorem execRow_hostKept {r : CmdRow} {a : CmdArgs} {s u : State} (h : Admitted r a s) (hf : r.fuse = false)
    (hb : r.body a (fresh s) = yes u) (hmax : r.maxRes a (fresh s) ≤ 1023) (hp : u.pending = s.pending) (ho : u.sec.otp = s.sec.otp)
    (hh : u.host = (fresh s).host) : execRow r a s = .next (answered r.op .ok [] { u with host := s.host }) := by
  rw [execRow_yes h hf hb hmax hp ho]
  exact congrArg (fun v => Host.Outcome.next (answered r.op .ok [] v)) (fresh_withHost hh).symm |>.trans rfl

/-- The AON word. -/
theorem bodyPllCfg_aon {a : CmdArgs} {s : State} (h2 : opnd a 0 = 2) (hr : resv (opnd a 1) 0x800000FF = false)
    (hx : fld (opnd a 1) 7 0 ≠ 0) (hs : s.sets.swap = none) :
    bodyPllCfg a s = yes (tbSwitch { (foldGrowth s) with clk := { s.clk with aon := opnd a 1 } }) := by
  have hu : resv (2 : Word) 3 = false := by decide
  have h3 : (2 : Word) ≠ 3 := by decide
  simp only [bodyPllCfg, h2, hu, h3, if_false, if_true, hr, hs, checks_false, checks_nil, Option.isSome_none, beq_eq_false_iff_ne.2 hx]

theorem foldGrowth_frame (s : State) : foldGrowth s = { s with tb := (foldGrowth s).tb } := by
  unfold foldGrowth
  split <;> rfl

theorem pllCfg_aon {a : CmdArgs} {s : State} (h : Admitted rowPllCfg a s) (h2 : opnd a 0 = 2) (hr : resv (opnd a 1) 0x800000FF = false)
    (hx : fld (opnd a 1) 7 0 ≠ 0) (hs : s.sets.swap = none) :
    ∃ t, exec (.pllCfg a) s = .next (answered 0x70 .ok [] t) ∧ t.clk = { s.clk with aon := opnd a 1 } ∧
      t = { s with clk := t.clk, tb := t.tb } := by
  have hb := bodyPllCfg_aon (s := fresh s) h2 hr hx hs
  have hframe := tbSwitch_frame { (foldGrowth (fresh s)) with clk := { s.clk with aon := opnd a 1 } }
  have hgrow := foldGrowth_frame (fresh s)
  rw [show (fresh s).clk = s.clk from rfl] at hb
  generalize tbSwitch { (foldGrowth (fresh s)) with clk := { s.clk with aon := opnd a 1 } } = u at hb hframe
  rw [hgrow] at hframe
  refine ⟨_, execRow_hostKept h rfl hb (by simp [rowPllCfg]) (by rw [hframe]; rfl) (by rw [hframe]; rfl) (by rw [hframe]), ?_, ?_⟩
  · rw [hframe]
  · rw [hframe]; rfl

/-- The checks of a word of PLL `n`. -/
def pllChecks (n : Nat) (w : Word) (s : State) : List (Bool × Status) :=
  [ (resv w 0xC00F0707 || fld w 2 0 == 7, .unsupported),
    (decide (fld w 19 16 < 10) || !threshFits s n w
      || (n == 0 && decide (refHz s s.clk.ref.toNat s.clk.mclkHz < 50 * bwHz (fld w 2 0)))
      || (n == 1 && (!bit w 31 || bit w 30 || fld w 2 0 != 6)), .range),
    (s.sets.swap.isSome, .busy),
    (n == 0 && (bit w 31 != bit s.clk.a.cfg 31 || bit w 30 != bit s.clk.a.cfg 30) && !audioQuiet s, .refused) ]

theorem bodyPllCfg_word {a : CmdArgs} {s : State} {u : Nat} (hu : u < 2) (h0 : opnd a 0 = toWord u) : bodyPllCfg a s =
    checks s (pllChecks u (opnd a 1) s)
      (yes (if u = 0 then applyPlla (opnd a 1) s else onPll 1 (fun p => { p with cfg := opnd a 1 }) s)) := by
  rcases (by omega : u = 0 ∨ u = 1) with rfl | rfl <;> (unfold bodyPllCfg; rw [h0]; rfl)

/-- They pass for a word that keeps R319, R332 and the limits of Table 9.8. -/
theorem pllChecks_pass {u : Nat} {w : Word} {s : State} (hr : resv w 0xC00F0707 = false) (h7 : fld w 2 0 ≠ 7) (hk : 10 ≤ fld w 19 16)
    (ht : threshFits s u w = true) (hs : s.sets.swap = none)
    (hbw : u = 0 → 50 * bwHz (fld w 2 0) ≤ refHz s s.clk.ref.toNat s.clk.mclkHz)
    (hb : u = 1 → bit w 31 = true ∧ bit w 30 = false ∧ fld w 2 0 = 6)
    (hq : u = 0 → (bit w 31 ≠ bit s.clk.a.cfg 31 ∨ bit w 30 ≠ bit s.clk.a.cfg 30) → audioQuiet s = true) :
    ∀ c ∈ pllChecks u w s, c.1 = false := by
  have hquiet : (u == 0 && (bit w 31 != bit s.clk.a.cfg 31 || bit w 30 != bit s.clk.a.cfg 30) && !audioQuiet s) = false := by
    cases hc : audioQuiet s
    · simpa [hc, not_or] using hq
    · simp
  have hrange : (decide (fld w 19 16 < 10) || !threshFits s u w
      || (u == 0 && decide (refHz s s.clk.ref.toNat s.clk.mclkHz < 50 * bwHz (fld w 2 0)))
      || (u == 1 && (!bit w 31 || bit w 30 || fld w 2 0 != 6))) = false := by
    simp only [Bool.or_eq_false_iff, Bool.and_eq_false_imp, beq_iff_eq, decide_eq_false_iff_not, ht, Bool.not_true, and_true]
    refine ⟨⟨by omega, fun hu => by have := hbw hu; omega⟩, fun hu => ?_⟩
    obtain ⟨h31, h30, h6⟩ := hb hu
    simp [h31, h30, h6]
  have hform : (resv w 0xC00F0707 || fld w 2 0 == 7) = false := by rw [hr, beq_eq_false_iff_ne.2 h7]; rfl
  simp only [pllChecks, List.forall_mem_cons, hform, hrange, hquiet, hs, Option.isSome_none, List.not_mem_nil, false_imp_iff,
    implies_true, and_self]

/-- A PLL's own part of the command, from the state that the command finds. -/
theorem bodyPllCfg_fresh {a : CmdArgs} {s : State} {u : Nat} {w : Word} (hu : u < 2) (h0 : opnd a 0 = toWord u) (hw : w = opnd a 1)
    (hr : resv w 0xC00F0707 = false) (h7 : fld w 2 0 ≠ 7) (hk : 10 ≤ fld w 19 16)
    (ht : threshFits s u w = true) (hs : s.sets.swap = none)
    (hbw : u = 0 → 50 * bwHz (fld w 2 0) ≤ refHz s s.clk.ref.toNat s.clk.mclkHz)
    (hb : u = 1 → bit w 31 = true ∧ bit w 30 = false ∧ fld w 2 0 = 6)
    (hq : u = 0 → (bit w 31 ≠ bit s.clk.a.cfg 31 ∨ bit w 30 ≠ bit s.clk.a.cfg 30) → audioQuiet s = true) :
    bodyPllCfg a (fresh s) = yes (if u = 0 then applyPlla w (fresh s) else onPll 1 (fun p => { p with cfg := w }) (fresh s)) := by
  subst hw
  rw [bodyPllCfg_word hu h0]
  exact checks_pass (pllChecks_pass (s := fresh s) hr h7 hk ht hs hbw hb hq)

/-- Only what PLLA's word changes differs: the clocks, the timebase, the ports, the log, the notices and the interrupt flags. -/
def PllaOnly (s t : State) : Prop := t = { s with
  clk := t.clk, tb := t.tb, ports := t.ports, flt := t.flt, margin := t.margin, irq := { s.irq with pend := t.irq.pend } }

theorem PllaOnly.trans {s t u : State} (h : PllaOnly s t) (h' : PllaOnly t u) : PllaOnly s u := by
  unfold PllaOnly at *; rw [h', h]

theorem ClocksOnly.pllaOnly {s t : State} (h : ClocksOnly s t) : PllaOnly s t := by
  rw [ClocksOnly] at h
  rw [PllaOnly, h]

theorem relock_zero_pllaOnly (s : State) : PllaOnly s (relock 0 s) := by
  obtain ⟨ports, he⟩ := relock_zero s
  rw [he]
  exact PllaOnly.trans (t := { s with ports := ports, clk := { s.clk with a := relockedAt (now s) s.clk.a } }) rfl
    ((ClocksOnly.raiseIrq ..).trans (tbSwitch_clocksOnly _)).pllaOnly

theorem relock_zero_clk (s : State) : (relock 0 s).clk = { s.clk with a := relockedAt (now s) s.clk.a } := by
  obtain ⟨ports, he⟩ := relock_zero s
  rw [he, tbSwitch_clk]
  rfl

theorem relock_raises (u : Nat) (s : State) : bit (relock u s).irq.pend irqClock = true := tbSwitch_raises _

/-- A PLL that is off. -/
def turnedOff (p : Pll) : Pll := { p with
  st := .off, gated := false, good := 0, bad := 0, qual := 0, guardTrip := false, guardBad := false, dco := 0 }

theorem pllOff_zero (s : State) : pllOff 0 s =
    tbSwitch (raiseIf ((pll s 0).st != .off) irqClock (onPll 0 turnedOff (relockFails 0 s))) := rfl

theorem pllOff_zero_pllaOnly (s : State) : PllaOnly s (pllOff 0 s) := by
  rw [pllOff_zero]
  have hraise (b : Bool) (t : State) : ClocksOnly t (raiseIf b irqClock t) := by cases b <;> rfl
  exact (((relockFails_clocksOnly 0 s).trans (.onPll ..)).trans ((hraise ..).trans (tbSwitch_clocksOnly _))).pllaOnly

theorem pllOff_zero_clk (s : State) : (pllOff 0 s).clk = { s.clk with a := turnedOff (testOver s.clk.a) } := by
  rw [pllOff_zero, tbSwitch_clk, raiseIf_clk, onPll_clk_congr (relockFails_clk 0 s)]
  rfl

/-- A PLL's configuration word replaced. -/
def withCfg (w : Word) (p : Pll) : Pll := { p with cfg := w }

/-- PLLA relocked with a new word: a RELOCK test that ran has failed. -/
theorem relock_withCfg (w : Word) (s : State) :
    PllaOnly s (relock 0 (relockFails 0 (onPll 0 (withCfg w) s))) ∧
    (relock 0 (relockFails 0 (onPll 0 (withCfg w) s))).clk.a.cfg = w ∧
    (relock 0 (relockFails 0 (onPll 0 (withCfg w) s))).clk.a.st = .acquiring ∧
    (relock 0 (relockFails 0 (onPll 0 (withCfg w) s))).clk.a.gated = true ∧
    bit (relock 0 (relockFails 0 (onPll 0 (withCfg w) s))).irq.pend irqClock = true := by
  have hc := relock_zero_clk (relockFails 0 (onPll 0 (withCfg w) s))
  rw [relockFails_clk] at hc
  exact ⟨((ClocksOnly.onPll ..).trans (relockFails_clocksOnly ..)).pllaOnly.trans (relock_zero_pllaOnly _),
    congrArg (fun c : Clocks => c.a.cfg) hc, congrArg (fun c : Clocks => c.a.st) hc, congrArg (fun c : Clocks => c.a.gated) hc,
    relock_raises ..⟩

/-- PLLA's word where PLLA is not held off: the same EN and family keep it as it runs, EN or another family relocks it, and EN 0
turns it off. -/
theorem applyPlla_parts {w : Word} {s : State} (hh : pllsHeld s = false) : PllaOnly s (applyPlla w s) ∧ (applyPlla w s).clk.a.cfg = w ∧
    (bit w 31 = bit s.clk.a.cfg 31 → bit w 30 = bit s.clk.a.cfg 30 → applyPlla w s = onPll 0 (withCfg w) s) ∧
    (bit w 31 = true → (bit s.clk.a.cfg 31 = false ∨ bit s.clk.a.cfg 30 ≠ bit w 30) →
      (applyPlla w s).clk.a.st = .acquiring ∧ (applyPlla w s).clk.a.gated = true ∧ bit (applyPlla w s).irq.pend irqClock = true) ∧
    (bit w 31 = false → bit s.clk.a.cfg 31 = true →
      (applyPlla w s).clk.a.st = .off ∧ (applyPlla w s).clk.a.gated = false) := by
  have hcfg : PllaOnly s (onPll 0 (withCfg w) s) := (ClocksOnly.onPll ..).pllaOnly
  unfold applyPlla
  dsimp only
  rw [if_neg (by rw [hh]; decide)]
  obtain ⟨hframe, hword, hst, hgated, hraised⟩ := relock_withCfg w s
  cases hw : bit w 31 <;> cases ho : bit s.clk.a.cfg 31 <;>
    simp only [Bool.false_eq_true, if_false, if_true, false_imp_iff, true_and, and_true, forall_true_left, reduceCtorEq, true_or,
      false_or]
  case false.false => exact ⟨hcfg, rfl, fun _ => rfl⟩
  case false.true =>
    have hc := pllOff_zero_clk { (onPll 0 (withCfg w) s) with clk := { (onPll 0 (withCfg w) s).clk with restart := false } }
    have hframe0 : PllaOnly s { (onPll 0 (withCfg w) s) with clk := { (onPll 0 (withCfg w) s).clk with restart := false } } := rfl
    exact ⟨hframe0.trans (pllOff_zero_pllaOnly _), congrArg (fun c : Clocks => c.a.cfg) hc,
      congrArg (fun c : Clocks => c.a.st) hc, congrArg (fun c : Clocks => c.a.gated) hc⟩
  case true.false => exact ⟨hframe, hword, hst, hgated, hraised⟩
  case true.true =>
    split
    · next hf => exact ⟨hframe, hword, fun he => absurd he.symm hf, fun _ => ⟨hst, hgated, hraised⟩⟩
    · next hf => exact ⟨hcfg, rfl, fun _ => rfl, fun hne => absurd hne hf⟩

/-- PLLA's word where PLLA stays off: it waits, and the frozen word of another family, or of EN 0, is no start (R322). -/
theorem applyPlla_held {w : Word} {s : State} (hh : pllsHeld s = true) : applyPlla w s = { s with clk := { s.clk with a := { s.clk.a with
    cfg := w, word := if bit s.clk.a.cfg 30 = bit w 30 ∧ bit s.clk.a.cfg 31 = true then s.clk.a.word else 0 } } } := by
  unfold applyPlla
  dsimp only
  rw [if_pos (show pllsHeld s = true from hh)]
  rfl

/-- A word of either PLL, while PLLA is not held off. -/
theorem pllCfg_word {a : CmdArgs} {s : State} {u : Nat} {w : Word} (h : Admitted rowPllCfg a s) (hu : u < 2) (h0 : opnd a 0 = toWord u)
    (hb : bodyPllCfg a (fresh s) = yes (if u = 0 then applyPlla w (fresh s) else onPll 1 (withCfg w) (fresh s)))
    (hh : u = 0 → pllsHeld s = false) :
    ∃ t, exec (.pllCfg a) s = .next (answered 0x70 .ok [] t) ∧ (pll t u).cfg = w ∧
      (u = 1 → t = { s with clk := { s.clk with b := { s.clk.b with cfg := w } } }) ∧
      (u = 0 → bit w 31 = bit s.clk.a.cfg 31 → bit w 30 = bit s.clk.a.cfg 30 →
        t = { s with clk := { s.clk with a := { s.clk.a with cfg := w } } }) ∧
      (u = 0 → bit w 31 = true → (bit s.clk.a.cfg 31 = false ∨ bit s.clk.a.cfg 30 ≠ bit w 30) →
        (pll t 0).st = .acquiring ∧ (pll t 0).gated = true ∧ bit t.irq.pend irqClock = true) ∧
      (u = 0 → bit w 31 = false → bit s.clk.a.cfg 31 = true → (pll t 0).st = .off ∧ (pll t 0).gated = false) := by
  rcases (by omega : u = 0 ∨ u = 1) with rfl | rfl
  · rw [if_pos rfl] at hb
    obtain ⟨hframe, hword, hsame, hrelock, hoff⟩ := applyPlla_parts (w := w) (s := fresh s) (hh rfl)
    rw [PllaOnly] at hframe
    refine ⟨_, execRow_hostKept h rfl hb (by simp [rowPllCfg]) (by rw [hframe]; rfl) (by rw [hframe]; rfl) (by rw [hframe]), hword,
      fun h1 => absurd h1 (by decide), fun _ h31 h30 => ?_, fun _ => hrelock, fun _ => hoff⟩
    rw [hsame h31 h30]
    rfl
  · rw [if_neg (by decide)] at hb
    exact ⟨_, execRow_hostKept h rfl hb (by simp [rowPllCfg]) rfl rfl rfl, rfl, fun _ => rfl, fun h1 => absurd h1 (by decide),
      fun h1 => absurd h1 (by decide), fun h1 => absurd h1 (by decide)⟩

/-! ## PLL.REF (R343) -/

/-- PLLA's reference replaced. -/
def withRef (ref : Nat) (hz : Word) (s : State) : State :=
  { s with clk := { s.clk with ref := BitVec.ofNat 3 ref, mclkHz := hz.toNat } }

/-- What PLL.REF makes of PLLA: a locked one coasts until it locks to the new reference. -/
def refTaken (s : State) : State :=
  match s.clk.a.st with
  | .locked => enterHoldover 0 s
  | .holdover | .holdoverMuted | .acquiring => onPll 0 (fun p => { p with good := 0, qual := 0 }) s
  | .off => s

theorem bodyPllRef_eq {a : CmdArgs} {s : State} (hr : resv (opnd a 0) 7 = false) (hb : refBad s (opnd a 0).toNat (opnd a 1) = false)
    (hl : lowestFlow (active s) (fun f q => q.kind == 4 && decide (f < 128) && q.rel != 2 && 6 + q.ep / 2 == s.clk.ref.toNat) = none) :
    bodyPllRef a s = yes (refTaken (withRef (opnd a 0).toNat (opnd a 1) s)) := by
  simp only [bodyPllRef, hr, hb, checks_false, checks_nil, hl]
  rfl

theorem refTaken_locked {s : State} (h : s.clk.a.st = .locked) : refTaken s = enterHoldover 0 s := by simp only [refTaken, h]

theorem refTaken_off {s : State} (h : s.clk.a.st = .off) : refTaken s = s := by simp only [refTaken, h]

theorem refTaken_qualifies {s : State} (hl : s.clk.a.st ≠ .locked) (ho : s.clk.a.st ≠ .off) :
    refTaken s = onPll 0 (fun p => { p with good := 0, qual := 0 }) s := by
  unfold refTaken
  split
  · next h => exact absurd h hl
  · rfl
  · rfl
  · rfl
  · next h => exact absurd h ho

theorem refTaken_parts (s : State) : ClocksOnly s (refTaken s) ∧ (refTaken s).clk.ref = s.clk.ref ∧
    (refTaken s).clk.mclkHz = s.clk.mclkHz ∧
    (s.clk.a.st = .locked → (refTaken s).clk.a.st = .holdover ∧ bit (refTaken s).irq.pend irqClock = true) ∧
    (s.clk.a.st ≠ .locked → (refTaken s).clk.a.st = s.clk.a.st ∧ (s.clk.a.st ≠ .off → (refTaken s).clk.a.good = 0)) := by
  by_cases hl : s.clk.a.st = .locked
  · rw [refTaken_locked hl]
    have hc := enterHoldover_clk 0 s
    exact ⟨enterHoldover_clocksOnly 0 s, hc ▸ rfl, hc ▸ rfl,
      fun _ => ⟨congrArg (fun c : Clocks => c.a.st) hc, enterHoldover_raises ..⟩, fun h => absurd hl h⟩
  · by_cases ho : s.clk.a.st = .off
    · rw [refTaken_off ho]
      exact ⟨rfl, rfl, rfl, fun h => absurd h hl, fun _ => ⟨rfl, fun h => absurd ho h⟩⟩
    · rw [refTaken_qualifies hl ho]
      exact ⟨.onPll .., rfl, rfl, fun h => absurd h hl, fun _ => ⟨rfl, fun _ => rfl⟩⟩

theorem pllRef_takes {a : CmdArgs} {s : State} (h : Admitted rowPllRef a s) (hr : resv (opnd a 0) 7 = false)
    (hb : refBad s (opnd a 0).toNat (opnd a 1) = false)
    (hl : lowestFlow (active s) (fun f q => q.kind == 4 && decide (f < 128) && q.rel != 2 && 6 + q.ep / 2 == s.clk.ref.toNat) = none) :
    ∃ t, exec (.pllRef a) s = .next (answered 0x71 .ok [] t) ∧ t.clk.ref.toNat = (opnd a 0).toNat ∧
      t.clk.mclkHz = (opnd a 1).toNat ∧
      (s.clk.a.st = .locked → t.clk.a.st = .holdover ∧ bit t.irq.pend irqClock = true) ∧
      (s.clk.a.st ≠ .locked → t.clk.a.st = s.clk.a.st ∧ (s.clk.a.st ≠ .off → t.clk.a.good = 0)) := by
  obtain ⟨hframe, href, hhz, hlocked, helse⟩ := refTaken_parts (withRef (opnd a 0).toNat (opnd a 1) (fresh s))
  rw [ClocksOnly] at hframe
  refine ⟨_, execRow_yes h rfl (bodyPllRef_eq (s := fresh s) hr hb hl) (by simp [rowPllRef]) (by rw [hframe]; rfl)
    (by rw [hframe]; rfl), ?_, hhz, hlocked, helse⟩
  have h8 : (opnd a 0).toNat < 8 := by
    rw [← fld_eq_toNat (n := 2) (by decide) hr]
    exact Nat.mod_lt _ (by decide)
  rw [href]
  exact Nat.mod_eq_of_lt h8

/-! ## The frequency guard (R331, R333) -/

/-- A PLL that a trip relocks, under a RELOCK test that must lock by `by_`. -/
def retested (t by_ : Nat) (p : Pll) : Pll := { p with guardTrip := true, testing := true, lockAt := t, lockBy := by_ }

/-- What a trip of PLLA leaves before the relock: every clamp engaged, a running test failed, and the entry. -/
def trippedA (ratio : Nat) (s : State) : State :=
  let t := logFault 0x07 0 (toWord 0) (toWord ratio) (relockFails 0 (clampAll s))
  { t with clk := { t.clk with restart := false } }

/-- What a trip of PLLB leaves before the relock. -/
def trippedB (ratio : Nat) (s : State) : State := logFault 0x07 1 (toWord 1) (toWord ratio) (relockFails 1 s)

section
variable {s : State} {ratio hz : Nat}

theorem frequencyGuardTrip_a (hr : guardRatio 0 ratio = true) (ht : guardTrips s 0 ratio hz = true)
    (hs : s.clk.a.st ∈ [.locked, .holdover, .holdoverMuted]) :
    ∃ b, frequencyGuardTrip 0 ratio hz s = onPll 0 (retested (now s) b) (relock 0 (trippedA ratio s)) := by
  refine ⟨now s + relockBound s 0 (hz * (guardWindow s 0).2 * ratio / (guardWindow s 0).1), ?_⟩
  simp only [List.mem_cons, List.not_mem_nil, or_false] at hs
  unfold frequencyGuardTrip
  rw [if_neg (by simp [hr, ht])]
  rcases hs with h | h | h <;> (rw [show (pll s 0).st = _ from h]; rfl)

theorem frequencyGuardTrip_b (hr : guardRatio 1 ratio = true) (ht : guardTrips s 1 ratio hz = true)
    (hs : s.clk.b.st ∈ [.locked, .holdover, .holdoverMuted]) :
    ∃ b, frequencyGuardTrip 1 ratio hz s = onPll 1 (retested (now s) b) (relock 1 (trippedB ratio s)) := by
  refine ⟨now s + relockBound s 1 (hz * (guardWindow s 1).2 * ratio / (guardWindow s 1).1), ?_⟩
  simp only [List.mem_cons, List.not_mem_nil, or_false] at hs
  unfold frequencyGuardTrip
  rw [if_neg (by simp [hr, ht])]
  have h2 : 1 < 2 := by decide
  have h0 : ¬ 1 = 0 := by decide
  rcases hs with h | h | h <;> (simp only [show (pll s 1).st = _ from h, h2, h0, if_true, if_false, trippedB]; rfl)

theorem frequencyGuardTrip_none (u : Nat) (h : guardRatio u ratio = false ∨ guardTrips s u ratio hz = false) :
    frequencyGuardTrip u ratio hz s = s := if_pos h

theorem frequencyGuardTrip_acquiring {u : Nat} (hr : guardRatio u ratio = true) (ht : guardTrips s u ratio hz = true)
    (hs : (pll s u).st = .acquiring) :
    frequencyGuardTrip u ratio hz s = onPll u (fun p => { p with guardBad := true, good := 0 }) s := by
  unfold frequencyGuardTrip
  rw [if_neg (by simp [hr, ht]), hs]

/-- What a trip of PLLA leaves of the log and the outputs. -/
theorem trippedA_frame (ratio : Nat) (s : State) : ∃ flt margin irq outs, flt.written = s.flt.written + 1 ∧
    (∀ d < 34, tget {} outs.dacs d = clampedAt (now s) (dac s d)) ∧ trippedA ratio s = { s with
      flt := flt, margin := margin, irq := irq, outs := outs, clk := { s.clk with a := testOver s.clk.a, restart := false } } := by
  have hd := fun d (hd : d < 34) => dac_clampAll s hd
  have ho := clampAll_outsOnly s
  unfold trippedA
  dsimp only
  generalize clampAll s = c at hd ho
  have hw : (relockFails 0 c).flt.written = s.flt.written := by rw [relockFails_written, ho]
  have hf := relockFails_frame 0 c
  generalize relockFails 0 c = r at hw hf
  have hl := logFault_logOnly 0x07 0 (toWord 0) (toWord ratio) r
  have hlw := logFault_written 0x07 0 (toWord 0) (toWord ratio) r
  generalize logFault 0x07 0 (toWord 0) (toWord ratio) r = t at hl hlw
  rw [OutsOnly] at ho
  rw [LogOnly, hf, ho] at hl
  exact ⟨t.flt, t.margin, t.irq, c.outs, by rw [hlw, hw], hd, by rw [hl]; rfl⟩

/-- What a trip of PLLB leaves of the log. -/
theorem trippedB_frame (ratio : Nat) (s : State) : ∃ flt margin irq, flt.written = s.flt.written + 1 ∧ trippedB ratio s = { s with
    flt := flt, margin := margin, irq := irq, clk := { s.clk with b := testOver s.clk.b } } := by
  unfold trippedB
  have hw := relockFails_written 1 s
  have hf := relockFails_frame 1 s
  generalize relockFails 1 s = r at hw hf
  have hl := logFault_logOnly 0x07 1 (toWord 1) (toWord ratio) r
  have hlw := logFault_written 0x07 1 (toWord 1) (toWord ratio) r
  generalize logFault 0x07 1 (toWord 1) (toWord ratio) r = t at hl hlw
  rw [LogOnly, hf] at hl
  exact ⟨t.flt, t.margin, t.irq, by rw [hlw, hw], by rw [hl]; rfl⟩

theorem exec_guardTrip_a (hr : guardRatio 0 ratio = true) (ht : guardTrips s 0 ratio hz = true)
    (hs : s.clk.a.st ∈ [.locked, .holdover, .holdoverMuted]) :
    ∃ t, exec (.frequencyGuardTrip 0 ⟨ratio, hz⟩) s = .next t ∧ t.clk.a.st = .acquiring ∧ t.clk.a.gated = true ∧
      t.clk.a.testing = true ∧ t.clk.a.guardTrip = true ∧ t.flt.written = s.flt.written + 1 ∧
      ∀ d < 34, (dac t d).clamp = true ∧ (dac t d).g = .zero := by
  obtain ⟨b, he⟩ := frequencyGuardTrip_a hr ht hs
  obtain ⟨flt, margin, irq, outs, hw, hd, htrip⟩ := trippedA_frame ratio s
  obtain ⟨ports, hrelock⟩ := relock_zero (trippedA ratio s)
  rw [hrelock, tbSwitch_frame, htrip] at he
  generalize (tbSwitch _).tb = tb at he
  have hfollow := vcmFollow_outsOnly (frequencyGuardTrip 0 ratio hz s)
  have hdac := fun d => dac_vcmFollow (frequencyGuardTrip 0 ratio hz s) d
  rw [he] at hfollow hdac
  refine ⟨_, (congrArg (fun t => ev s (vcmFollow t)) he).trans (ev_of_kept (by rw [hfollow]; rfl) (by rw [hfollow]; rfl)),
    by rw [hfollow]; rfl, by rw [hfollow]; rfl, by rw [hfollow]; rfl, by rw [hfollow]; rfl, by rw [hfollow]; exact hw, fun d h => ?_⟩
  rw [hdac]
  have hclamped := hd d h
  exact ⟨congrArg Dac.clamp hclamped, congrArg Dac.g hclamped⟩

theorem exec_guardTrip_b (hr : guardRatio 1 ratio = true) (ht : guardTrips s 1 ratio hz = true)
    (hs : s.clk.b.st ∈ [.locked, .holdover, .holdoverMuted]) :
    ∃ t, exec (.frequencyGuardTrip 1 ⟨ratio, hz⟩) s = .next t ∧ t.clk.b.st = .acquiring ∧ t.clk.b.gated = true ∧
      t.clk.a = s.clk.a ∧ t.power.onRc = true ∧ t.flt.written = s.flt.written + 1 := by
  obtain ⟨b, he⟩ := frequencyGuardTrip_b hr ht hs
  obtain ⟨flt, margin, irq, hw, htrip⟩ := trippedB_frame ratio s
  obtain ⟨cores, sense, cp, hrelock⟩ := relock_one (trippedB ratio s)
  rw [hrelock, tbSwitch_frame, htrip] at he
  generalize (tbSwitch _).tb = tb at he
  have hfollow := vcmFollow_outsOnly (frequencyGuardTrip 1 ratio hz s)
  rw [he] at hfollow
  exact ⟨_, (congrArg (fun t => ev s (vcmFollow t)) he).trans (ev_of_kept (by rw [hfollow]; rfl) (by rw [hfollow]; rfl)),
    by rw [hfollow]; rfl, by rw [hfollow]; rfl, by rw [hfollow]; rfl, by rw [hfollow]; rfl, by rw [hfollow]; exact hw⟩

/-- A row whose new state keeps the queue and OTP, also where the VCM node follows. -/
theorem ClocksOnly.event_vcmFollow {s t u : State} (h : ClocksOnly s u) (htu : t = u) : ev s (vcmFollow t) = .next (vcmFollow u) := by
  have hf := vcmFollow_outsOnly u
  rw [ClocksOnly] at h
  rw [OutsOnly] at hf
  rw [htu]
  exact ev_of_kept (by rw [hf, h]) (by rw [hf, h])

end

/-! ## The return of the cores (R330, Table 3.8) -/

/-- The queue, SEC and CLOCK: what the cores leave as their clock returns. -/
def besideCores (s : State) : List Instr × Security × Bool := (s.pending, s.sec, bit s.irq.pend irqClock)

theorem logFault_besideCores (c i : Nat) (d0 d1 : Word) (s : State) : Kept besideCores s (logFault c i d0 d1 s) := by
  have h : bit (logFault c i d0 d1 s).irq.pend irqClock = bit s.irq.pend irqClock := by
    rw [logFault_eq]
    exact bit_setBit_other (by decide) _
  rw [Kept, besideCores, logFault_pending, logFault_sec, h]
  rfl

theorem rewind_besideCores (n : Nat) (p : Nat → Bool) (s : State) : Kept besideCores s (rewind n p s) := by
  unfold rewind
  refine .foldl (fun s f => ?_) _ s
  rfl

theorem bindChange_besideCores (n : Nat) (s : State) : Kept besideCores s (bindChange n s) :=
  Kept.trans rfl (rewind_besideCores ..)

theorem undoEntries_besideCores (n : Nat) (es : List Undo) (s : State) : Kept besideCores s (undoEntries n es s) := by
  refine .foldl (fun s e => ?_) es s
  dsimp only
  split <;> rfl

theorem checkpointLost_besideCores (n : Nat) (s : State) : Kept besideCores s (checkpointLost n s) := by
  unfold checkpointLost logUndoBuffer
  extract_lets m s1
  exact (Kept.trans rfl (bindChange_besideCores n s1)).trans (logFault_besideCores ..)

theorem rollback_besideCores (n : Nat) (s : State) : Kept besideCores s (rollback n s) := by
  unfold rollback
  dsimp only
  split
  · exact .ite rfl rfl
  · exact .ite (checkpointLost_besideCores n s) ((undoEntries_besideCores ..).trans rfl)

theorem coreSync_besideCores (s : State) (n : Nat) : Kept besideCores s (coreSync s n) :=
  .ite ((rollback_besideCores n s).trans (Kept.trans rfl (rewind_besideCores ..))) rfl

theorem coreResume_besideCores (s : State) (n : Nat) : Kept besideCores s (coreResume s n) := by
  unfold coreResume
  exact .ite (Kept.trans rfl (coreSync_besideCores _ n)) rfl

theorem coreResume_outside (s : State) (n : Nat) : Kept outside s (coreResume s n) := by
  unfold coreResume
  exact .ite (Kept.trans rfl (coreSync_outsideFe _ n).outside) rfl

theorem pllbResume_besideCores (s : State) : Kept besideCores s (pllbResume s) := by
  unfold pllbResume onCores
  exact Kept.trans rfl (.foldl coreResume_besideCores _ (lockThaw s))

theorem pllbResume_outside (s : State) : Kept outside s (pllbResume s) := by
  unfold pllbResume onCores
  exact Kept.trans rfl (.foldl coreResume_outside _ (lockThaw s))

/-! ## Ungating (R330) -/

/-- A PLL whose outputs run again. -/
def ungatedAt (t : Nat) (p : Pll) : Pll := { p with gated := false, guardTrip := false, lockAt := t }

/-- PLLB's outputs run again, before the cores follow. -/
def ungatedB (s : State) : State := { raiseIrq irqClock (onPll 1 (ungatedAt (now s)) s) with
  power := { s.power with onRc := false }, tb := { s.tb with lockedOnce := true } }

theorem pllUngate_one {s : State} (hg : s.clk.b.gated = true) (hb : s.clk.b.guardBad = false) (hl : s.clk.b.st = .locked) :
    pllUngate 1 s = tbSwitch (pllbResume (ungatedB s)) := by
  unfold pllUngate
  dsimp only
  rw [if_pos ⟨hg, hb, .inl hl⟩, if_neg (by decide)]
  rfl

theorem pllUngate_zero {s : State} (hg : s.clk.a.gated = true) (hb : s.clk.a.guardBad = false) (hl : s.clk.a.st = .locked)
    (ht : s.clk.a.guardTrip = false) : pllUngate 0 s = syncEmit { raiseIrq irqClock (onPll 0 (ungatedAt (now s)) s) with
      mtx := { s.mtx with lanePos := [] } } := by
  unfold pllUngate
  dsimp only
  rw [if_pos ⟨hg, hb, .inl hl⟩, if_pos rfl, if_neg (by rw [show (pll s 0).guardTrip = false from ht]; simp)]
  rfl

theorem pllUngate_guarded {u : Nat} {s : State} (h : (pll s u).guardBad = true) : pllUngate u s = s :=
  if_neg (by rw [h]; simp)

theorem exec_pllUngate_one {s : State} (hg : s.clk.b.gated = true) (hb : s.clk.b.guardBad = false) (hl : s.clk.b.st = .locked) :
    ∃ t, exec (.pllUngate 1) s = .next t ∧ t.clk.b.gated = false ∧ t.clk.a = s.clk.a ∧ t.power.onRc = false ∧
      t.tb.lockedOnce = true ∧ bit t.irq.pend irqClock = true := by
  have he := pllUngate_one hg hb hl
  obtain ⟨-, htb, hclk, hpower⟩ := kept_outside (pllbResume_outside (ungatedB s))
  have hkept := pllbResume_besideCores (ungatedB s)
  generalize pllbResume (ungatedB s) = r at he htb hclk hpower hkept
  simp only [Kept, besideCores, Prod.mk.injEq] at hkept
  obtain ⟨hp, hsec, hraised⟩ := hkept
  have hbit : bit (ungatedB s).irq.pend irqClock = true := bit_setBit_true (by decide) _
  have hsw := tbSwitch_frame r
  have honce := tbSwitch_lockedOnce r
  generalize tbSwitch r = t at he hsw honce
  rw [htb] at honce
  refine ⟨t, (congrArg (ev s) he).trans (ev_of_kept ?_ ?_), ?_, ?_, ?_, honce, ?_⟩
  · rw [hsw]; exact hp
  · rw [hsw]; exact congrArg Security.otp hsec
  · rw [hsw]; exact (congrArg (fun c : Clocks => c.b.gated) hclk).trans rfl
  · rw [hsw]; exact (congrArg Clocks.a hclk).trans rfl
  · rw [hsw]; exact (congrArg Power.onRc hpower).trans rfl
  · rw [hsw]; exact hraised.trans hbit

theorem exec_pllUngate_zero {s : State} (hg : s.clk.a.gated = true) (hb : s.clk.a.guardBad = false) (hl : s.clk.a.st = .locked)
    (ht : s.clk.a.guardTrip = false) : exec (.pllUngate 0) s = .next (syncEmit (raiseIrq irqClock { s with
      clk := { s.clk with a := { s.clk.a with gated := false, guardTrip := false, lockAt := now s } }
      mtx := { s.mtx with lanePos := [] } })) := by
  have hkept (t : State) : (syncEmit t).pending = t.pending ∧ (syncEmit t).sec = t.sec := by
    unfold syncEmit syncPulse
    split
    · split <;> exact ⟨rfl, rfl⟩
    · exact ⟨rfl, rfl⟩
  obtain ⟨hp, hs⟩ := hkept { raiseIrq irqClock (onPll 0 (ungatedAt (now s)) s) with mtx := { s.mtx with lanePos := [] } }
  exact (congrArg (ev s) (pllUngate_zero hg hb hl ht)).trans (ev_of_kept hp (congrArg Security.otp hs))

/-! ## The RELOCK test (R432, Table 13.1) -/

theorem relockTestHold_passes {u : Nat} {s : State} (ht : (pll s u).testing = true) (hl : (pll s u).st = .locked)
    (hg : (pll s u).gated = false) (hd : 60000000000 ≤ since s (pll s u).lockAt) :
    relockTestHold u s = classifySite (siteOf 0x07 u) true (onPll u (fun p => { p with testing := false }) s) :=
  if_pos ⟨ht, hl, hg, hd⟩

/-- Settles O33: windows by their judgement, the commands by their checks, and each event by what it leaves of the two PLLs. -/
theorem phaseLockedLoops : Obligations.PhaseLockedLoops := by
  unfold Obligations.PhaseLockedLoops
  refine ⟨fun s s1 u count ppm n e pres ok hu hn he hok h1 => ?windows, fun s u hu => ⟨exec_referenceLost_locked, fun hst => ?acquiring⟩,
    fun before t p hp hr hc hrun hm hstop => refFollow_tdmLost hp hr hc hrun hm hstop,
    fun a s h h2 hr hx hs => pllCfg_aon h h2 hr hx hs,
    fun a s u w h h0 hu hw hr h7 hk ht hs hbw hb hq hh =>
      pllCfg_word h hu h0 (bodyPllCfg_fresh hu h0 hw hr h7 hk ht hs hbw hb hq) hh,
    fun a s w h h0 hw hr h7 hk ht hs hbw hq hh => ?held, fun a s h hr hb hl => pllRef_takes h hr hb hl,
    fun s ratio hz hr ht hs => exec_guardTrip_a hr ht hs, fun s ratio hz hr ht hs => ?tripB,
    fun s u ratio hz => ⟨fun h => ?none, fun hr ht hs => ?guardBad, fun hu hg => ?guarded⟩,
    fun s hg hb hl => exec_pllUngate_one hg hb hl, fun s hg hb hl ht => exec_pllUngate_zero hg hb hl ht, fun s u hu ht hl hg hd => ?test⟩
  case windows =>
    have hacq := pllWindow_acquiring (ppm := ppm) hn he hok h1
    have hlocked := pllWindow_locked (ppm := ppm) hn he hok h1
    have hframe : ClocksOnly s s1 := h1 ▸ noteWindow_clocksOnly ..
    have hpll : pll s1 u = windowed s u n pres ok (pll s u) := h1 ▸ pll_noteWindow ..
    have hcount (f : Pll → Pll) : ClocksOnly s (onPll u f s1) := hframe.trans (.onPll ..)
    clear hok
    refine ⟨fun hst ht hg => ?counts, fun hst ht hg => ?locks, fun hst hf => ?restarts, fun hst ht => ?good, fun hst hf hw hb => ?bad,
      fun hst hf hw => ?lost⟩
    case counts =>
      subst ht
      exact (hcount _).event_eq ((hacq hst).trans (countGood_counts (by rw [hpll]; exact hg)))
    case locks =>
      subst ht
      have he' := (hacq hst).trans (countGood_locks (by rw [hpll]; exact hg) (by rw [hpll]; rfl))
      exact ⟨_, (hframe.trans (lockNow_clocksOnly u s1)).event_eq he', h1 ▸ lockNow_noteWindow hu n pres true s⟩
    case restarts =>
      subst hf
      exact (hcount _).event_eq ((hacq hst).trans (countGood_bad u s1))
    case good => exact (hcount _).event_eq ((hlocked hst).trans (if_pos ht))
    case bad =>
      subst hf
      refine (hcount _).event_eq ((hlocked hst).trans ?_)
      rw [if_neg (by decide), if_neg (by simp [hw, hb])]
    case lost =>
      subst hf
      have he' : pllWindow u count pres ppm s = enterHoldover u s1 := by
        rw [hlocked hst, if_neg (by decide), if_pos (hw.imp_left fun h => by rw [h]; rfl)]
      exact ⟨_, (hframe.trans (enterHoldover_clocksOnly u s1)).event_eq he', h1 ▸ enterHoldover_noteWindow u n pres s⟩
  case acquiring =>
    exact xrefLost_event (.onPll ..) (referenceLost_acquiring hst)
  case held =>
    have hb := bodyPllCfg_fresh (u := 0) (by decide) h0 hw hr h7 hk ht hs (fun _ => hbw) (fun h => absurd h (by decide)) (fun _ _ => hq)
    rw [if_pos rfl, applyPlla_held (s := fresh s) hh] at hb
    exact execRow_hostKept h rfl hb (by simp [rowPllCfg]) rfl rfl rfl
  case tripB =>
    obtain ⟨t, hstep, hst, hgated, ha, hrc, hw⟩ := exec_guardTrip_b hr ht hs
    exact ⟨t, hstep, hst, hgated, ha, hrc, fun _ => hw⟩
  case none => exact ClocksOnly.event_vcmFollow rfl (frequencyGuardTrip_none u h)
  case guardBad => exact ClocksOnly.event_vcmFollow (.onPll ..) (frequencyGuardTrip_acquiring hr ht hs)
  case guarded => exact ClocksOnly.event_eq rfl (pllUngate_guarded hg)
  case test =>
    exact ((ClocksOnly.onPll ..).trans (classifySite_classified ..).clocksOnly).event_eq (relockTestHold_passes ht hl hg hd)

end Sys2Proof.Machine
end

section
/-! SUPPORT. Admission of an image (Table 12.6): what it takes of the machine, what it reads of it, and how long the body is; and the
memories after several writes. -/

namespace Sys2Proof.Machine

/-! ## What an admission takes -/

theorem sharedSecret_free (d : Nat) (key : List Word) (s : State) :
    (sharedSecret d key s).2 = { s with free := (sharedSecret d key s).2.free } := by
  unfold sharedSecret
  dsimp only
  split
  · rfl
  · exact drawWords_free 8 s

theorem imageKey_free (m : Img) (s : State) : (imageKey m s).2 = { s with free := (imageKey m s).2.free } :=
  sharedSecret_free encryptKey m.eph s

/-- An admission ends at the step that failed with no body, or gives the body in clear (Table 12.6). -/
theorem admitImage_cases (m : Img) (room : Nat) (s : State) :
    (∃ n c, admitImage m room s = (⟨n, c, []⟩, s)) ∨
    admitImage m room s = (⟨0, .ok, bytesWords (gcmText (imageKey m s).1 m.iv (wordsBytes m.body))⟩, (imageKey m s).2) ∨
    admitImage m room s = (⟨0, .ok, m.body⟩, s) := by
  generalize hx : admitImage m room s = x
  unfold admitImage at hx
  generalize imageKey m s = k at hx ⊢
  dsimp only at hx
  split at hx
  · exact .inl ⟨1, .unsupported, hx.symm⟩
  split at hx
  · exact .inl ⟨1, .range, hx.symm⟩
  split at hx
  · exact .inl ⟨2, .lifecycle, hx.symm⟩
  split at hx
  · exact .inl ⟨2, .refused, hx.symm⟩
  split at hx
  · exact .inl ⟨3, .refused, hx.symm⟩
  split at hx
  · exact .inl ⟨4, .refused, hx.symm⟩
  split at hx
  · exact .inl ⟨5, .lifecycle, hx.symm⟩
  split at hx
  · exact .inl ⟨5, .refused, hx.symm⟩
  split at hx
  · exact .inl ⟨6, .untestedCombination, hx.symm⟩
  split at hx
  · exact .inr (.inl hx.symm)
  · exact .inr (.inr hx.symm)

/-- An admission takes free values alone. -/
theorem admitImage_free (m : Img) (room : Nat) (s : State) :
    (admitImage m room s).2 = { s with free := (admitImage m room s).2.free } := by
  obtain ⟨n, c, h⟩ | h | h := admitImage_cases m room s
  · rw [h]
  · rw [h]
    exact imageKey_free m s
  · rw [h]

/-! ## What it reads -/

theorem drawWords_congr {s t : State} (h : t.free = s.free) (n : Nat) : (drawWords n t).1 = (drawWords n s).1 := by
  induction n generalizing s t with
  | zero => rfl
  | succ n ih =>
    simp only [drawWords, drawWord, h]
    rw [ih (s := { s with free := s.free + 1 }) (t := { t with free := s.free + 1 }) rfl]

theorem imageKey_congr {s t : State} (h : t.free = s.free) (m : Img) : (imageKey m t).1 = (imageKey m s).1 := by
  have hz : (sharedSecret encryptKey m.eph t).1 = (sharedSecret encryptKey m.eph s).1 := by
    unfold sharedSecret
    dsimp only
    split
    · rfl
    · exact congrArg wordsBytes (drawWords_congr h 8)
  exact congrArg (fun z => kdf z "PK-IMAGE" deviceIdBytes 256) hz

/-- An admission reads the free values, OTP and the running firmware's version. -/
theorem admitImage_congr {s t : State} (hf : t.free = s.free) (ho : t.sec.otp = s.sec.otp) (hv : t.power.fwVersion = s.power.fwVersion)
    (m : Img) (room : Nat) : (admitImage m room t).1 = (admitImage m room s).1 := by
  have hkey := imageKey_congr hf m
  have hslot (n : Nat) : keyInSlot t m.signer n = keyInSlot s m.signer n := by simp only [keyInSlot, slotValid, slotHash, ho]
  unfold admitImage
  generalize imageKey m s = k at hkey ⊢
  generalize imageKey m t = k' at hkey ⊢
  simp only [hkey]
  simp only [hslot, ho, hv, apply_ite Prod.fst]

/-! ## The body in clear -/

theorem length_bytesWords (bs : List Byte) : 4 * (bytesWords bs).length ≤ bs.length := by
  fun_induction bytesWords bs with
  | case1 a b c d r ih => simp only [List.length_cons]; omega
  | case2 => simp

theorem length_gcmText (key iv m : List Byte) : (gcmText key iv m).length ≤ m.length := List.length_take_le _ _

theorem length_imgBody (m : Img) : m.body.length ≤ m.length := by
  unfold Img.body
  simp only [List.length_take, List.length_drop]
  omega

/-- The body in clear is no longer than the image. -/
theorem admitImage_body (m : Img) (room : Nat) (s : State) : (admitImage m room s).1.body.length ≤ m.length := by
  obtain ⟨n, c, h⟩ | h | h := admitImage_cases m room s
  · simp [h]
  · have h1 := length_bytesWords (gcmText (imageKey m s).1 m.iv (wordsBytes m.body))
    have h2 := length_gcmText (imageKey m s).1 m.iv (wordsBytes m.body)
    have h3 := length_wordsBytes m.body
    have h4 := length_imgBody m
    simp only [h]
    omega
  · simpa only [h] using length_imgBody m

/-! ## The memories (R33) -/

/-- Consecutive words reach their own bytes alone. -/
theorem Memory.byte_setWords_outside (m : Memory) (a k : Nat) (t : BitVec 4) (ws : List Word) (ha : a % 4 = 0)
    (h : k < a ∨ a + 4 * ws.length ≤ k) : (m.setWords a t ws).byte k = m.byte k := by
  induction ws generalizing m a with
  | nil => rfl
  | cons w ws ih =>
    simp only [List.length_cons] at h
    rw [setWords, ih (m.setWord a w t) (a + 4) (by omega) (by omega)]
    exact m.byte_setWord_outside a k w t (by omega)

/-- So words past their end stand. -/
theorem Memory.word_setWords_outside (m : Memory) (a k : Nat) (t : BitVec 4) (ws : List Word) (ha : a % 4 = 0)
    (h : a + 4 * ws.length ≤ k / 4 * 4) : (m.setWords a t ws).word k = m.word k := by
  have hb (i : Nat) := m.byte_setWords_outside a (k / 4 * 4 + i) t ws ha (.inr (by omega))
  have h0 := hb 0
  simp only [Nat.add_zero] at h0
  simp only [word, h0, hb 1, hb 2, hb 3]

/-- A read above what a table drops stands. -/
theorem tget_filter_above {α : Type} (d : α) (p : Nat × α → Bool) (t : List (Nat × α)) (k : Nat) (h : ∀ e ∈ t, p e = false → e.1 < k) :
    tget d (t.filter p) k = tget d t k := by
  induction t with
  | nil => rfl
  | cons e t ih =>
    have iht := ih fun e he => h e (List.mem_cons_of_mem _ he)
    obtain ⟨k', v⟩ := e
    cases hp : p (k', v)
    · have hlt : k' < k := h _ (List.mem_cons_self ..) hp
      rw [List.filter_cons_of_neg (by simp [hp]), iht, tget, if_neg (by omega), if_neg (by omega)]
    · rw [List.filter_cons_of_pos hp, tget, tget, iht]

/-- A word above a range that is cleared stands. -/
theorem Memory.word_clearRange_above (m : Memory) (a n k : Nat) (h : a + 4 * n ≤ k / 4 * 4) : (m.clearRange a n).word k = m.word k := by
  have hb (b : Nat) (hb : a + 4 * n ≤ b) : (m.clearRange a n).byte b = m.byte b :=
    tget_filter_above 0 _ m.cells b fun e _ he => by
      simp only [Bool.or_eq_false_iff, decide_eq_false_iff_not] at he
      omega
  simp only [word, hb (k / 4 * 4) (by omega), hb (k / 4 * 4 + 1) (by omega), hb (k / 4 * 4 + 2) (by omega), hb (k / 4 * 4 + 3) (by omega)]

end Sys2Proof.Machine
end

section
/-! PROOF. Images and boot (R318, R348, R407–R412, R459, R467, Tables 12.6, 12.7; O51). -/

namespace Sys2Proof.Machine

/-! ## IMAGE.LOAD (R409) -/

/-- The staging area with an image's words written and no verification. -/
def imageStaged (off : Nat) (ws : List Word) (s : State) : State :=
  { s with mem := s.mem.setWords (aStaging + off) 0 ws, sec := { s.sec with verified := false } }

theorem bodyImageLoad_stages {a : CmdArgs} {s : State} {off : Nat} (hoff : off = fld (opnd a 0) 18 0)
    (hr : resv (opnd a 0) 0x7FFFF = false) (h4 : off % 4 = 0) (hn : off + 4 * (a.ops.length - 1) ≤ 524288)
    (hj : s.deferred.job ≠ some .imageExec) (hl : s.cp.lock = none) (hb : beatUpset 5 s = none) :
    bodyImageLoad a s = yes (imageStaged off (a.ops.drop 1) s) := by
  have hrun : execRuns s = false := beq_eq_false_iff_ne.2 hj
  unfold bodyImageLoad
  dsimp only
  rw [← hoff, checks_pass (by
    simp only [List.mem_cons, List.not_mem_nil, or_false, forall_eq_or_imp, forall_eq]
    exact ⟨hr, by simp [h4]; omega, hrun⟩)]
  simp only [waitLock_unlocked hl, hb]
  rfl

theorem exec_imageLoad {a : CmdArgs} {s : State} {off : Nat} (h : Admitted rowImageLoad a s) (hoff : off = fld (opnd a 0) 18 0)
    (hr : resv (opnd a 0) 0x7FFFF = false) (h4 : off % 4 = 0) (hn : off + 4 * (a.ops.length - 1) ≤ 524288)
    (hj : s.deferred.job ≠ some .imageExec) (hl : s.cp.lock = none) (hb : beatUpset 5 s = none) :
    exec (.imageLoad a) s = .next (answered 0xA0 .ok [] (imageStaged off (a.ops.drop 1) s)) :=
  execRow_hostKept h rfl (bodyImageLoad_stages hoff hr h4 hn hj hl (beatUpset_fresh hb)) (by simp [rowImageLoad]) rfl rfl rfl

/-! ## IMAGE.EXEC (R410) -/

/-- The admission begins. -/
def imageExecBegun (s : State) : State := { s with deferred := { opcode := 0xA1, job := some .imageExec, since := now s } }

theorem bodyImageExec_refuses {a : CmdArgs} {s : State} (hf : stagedFirmware s = true) (hb : s.power.boot = .run) :
    bodyImageExec a s = no .unsupported s := by
  simp only [bodyImageExec, hf, hb, beq_self_eq_true, Bool.and_self]
  rfl

theorem bodyImageExec_begins {a : CmdArgs} {s : State} (h : stagedFirmware s = false ∨ s.power.boot = .wakeHold) :
    bodyImageExec a s = yes (imageExecBegun s) := by
  unfold bodyImageExec
  rw [checks_pass (by rcases h with h | h <;> simp [h])]
  dsimp only
  rw [if_neg (by rcases h with h | h <;> simp [h])]
  rfl

theorem bodyImageExec_verifies {a : CmdArgs} {s : State} (hf : stagedFirmware s = true)
    (h : s.power.boot = .romWait ∨ s.power.boot = .safe) : bodyImageExec a s =
      yes { (imageExecBegun s) with power := { s.power with bootPrev := s.power.boot, boot := .verify } } := by
  unfold bodyImageExec
  rw [checks_pass (by rcases h with h | h <;> simp [h])]
  dsimp only
  rw [if_pos ⟨hf, h⟩]
  rfl

/-! ## IMAGE_EXEC_COMPLETE (R408, R410) -/

/-- The body in clear replaces the staged one. -/
def inClear (body : List Word) (s : State) : State := { s with mem := s.mem.setWords (aStaging + 256) 0 body }

/-- The end of IMAGE.EXEC, by the outcome of the admission. -/
def admissionEnds (m : Img) (r : Admission) (s : State) : State :=
  if r.st = .ok then
    if m.firmware then finishJob .ok (startFirmware (m.w 4) r.body (inClear r.body s))
    else finishJob .ok { (inClear r.body s) with sec := { s.sec with verified := true } }
  else if m.firmware ∧ r.step = 6 then finishJob r.st (enterSafe 1 r.st s)
  else finishJob r.st (bootBack s)

theorem imageExecComplete_ends {s : State} (hj : s.deferred.job = some .imageExec) (hon : logicOn s = true) (hlost : stagedLost s = none)
    (hb : beatUpset 7 s = none) (hp : pllbUnlocked s = false) (hl : s.cp.lock = none) (ho : otpAnyLost s = false) :
    imageExecComplete s =
      admissionEnds (stagedImage s) (admitImage (stagedImage s) 524288 s).1 (admitImage (stagedImage s) 524288 s).2 := by
  have hrun : execRuns s = true := by rw [execRuns, hj]; rfl
  unfold imageExecComplete
  -- the admission stays a name here: the kernel must not evaluate it
  obtain ⟨adm, hadm⟩ : ∃ adm, adm = admitImage := ⟨_, rfl⟩
  rw [← hadm, if_pos ⟨hrun, hon, hp⟩]
  extract_lets w back mem m
  have hw : w = s := waitLock_unlocked hl _
  clear_value w
  subst hw
  rw [hb]
  change (if otpAnyLost w = true then _ else _) = _
  rw [if_neg (by rw [ho]; decide), hlost]
  change (match adm m 524288 w with | (r, s1) => _) = _
  generalize adm m 524288 w = x
  obtain ⟨r, s1⟩ := x
  rfl

theorem startFirmware_eq {s : State} (hl : s.cp.lock = none) (v : Word) (body : List Word) : startFirmware v body s =
    { s with
      mem := { (s.mem.clearRange aCpram 0x20000).setWords aCpram 0 body with remap := true }
      cp := {}
      irq := { s.irq with pend := setBit s.irq.pend irqBootDone true }
      power := { s.power with boot := .run, fwVersion := v, safeCause := 0 }
      margin := { s.margin with running := true } } := by
  unfold startFirmware
  rw [waitPoint_unlocked hl]
  rfl

theorem bootBack_eq (s : State) : bootBack s =
    { s with power := { s.power with boot := if s.power.boot = .verify then s.power.bootPrev else s.power.boot } } := by
  unfold bootBack
  split <;> rfl

/-- SAFE mode with its cause. -/
def safeMode (n : Nat) (s : State) : State := { s with power := { s.power with boot := .safe, safeCause := BitVec.ofNat 3 n } }

/-- It is entered with an entry and BOOT_DONE. -/
theorem enterSafe_logOnly (n : Nat) (c : Status) (s : State) : LogOnly (safeMode n s) (enterSafe n c s) :=
  (logFault_logOnly ..).trans rfl

theorem enterSafe_written (n : Nat) (c : Status) (s : State) : (enterSafe n c s).flt.written = s.flt.written + 1 := by
  unfold enterSafe
  dsimp only
  rw [raiseIrq_flt, logFault_written]

theorem enterSafe_raises (n : Nat) (c : Status) (s : State) : bit (enterSafe n c s).irq.pend irqBootDone = true :=
  bit_setBit_true (by decide) _

theorem enterSafe_pending (n : Nat) (c : Status) (s : State) : (enterSafe n c s).pending = s.pending := by
  rw [enterSafe_logOnly]
  rfl

theorem enterSafe_sec (n : Nat) (c : Status) (s : State) : (enterSafe n c s).sec = s.sec := by
  rw [enterSafe_logOnly]
  rfl

theorem enterSafe_power (n : Nat) (c : Status) (s : State) :
    (enterSafe n c s).power = { s.power with boot := .safe, safeCause := BitVec.ofNat 3 n } := by
  rw [enterSafe_logOnly]
  rfl

theorem finishJob_raises (c : Status) (s : State) : bit (finishJob c s).irq.pend irqCmdDone = true := bit_setBit_true (by decide) _

theorem finishJob_raised (c : Status) {s : State} (h : bit s.irq.pend irqBootDone = true) :
    bit (finishJob c s).irq.pend irqBootDone = true := by
  change bit (setBit s.irq.pend irqCmdDone true) irqBootDone = true
  rw [bit_setBit_other (by decide), h]

section
variable {m : Img} {r : Admission} {s : State}

/-- A stream image is verified. -/
theorem admissionEnds_stream (hr : r.st = .ok) (hm : m.firmware = false) :
    admissionEnds m r s = finishJob .ok { (inClear r.body s) with sec := { s.sec with verified := true } } := by
  rw [admissionEnds, if_pos hr, if_neg (by simp [hm])]

/-- Firmware runs. -/
theorem admissionEnds_firmware (hr : r.st = .ok) (hm : m.firmware = true) :
    admissionEnds m r s = finishJob .ok (startFirmware (m.w 4) r.body (inClear r.body s)) := by
  rw [admissionEnds, if_pos hr, if_pos hm]

/-- Firmware that declares another machine ends in SAFE mode. -/
theorem admissionEnds_untested (hr : r.st ≠ .ok) (hm : m.firmware = true) (h6 : r.step = 6) :
    admissionEnds m r s = finishJob r.st (enterSafe 1 r.st s) := by
  rw [admissionEnds, if_neg hr, if_pos ⟨hm, h6⟩]

/-- An image that fails otherwise leaves BOOT as it was. -/
theorem admissionEnds_fails (hr : r.st ≠ .ok) (h : ¬(m.firmware = true ∧ r.step = 6)) :
    admissionEnds m r s = finishJob r.st (bootBack s) := by
  rw [admissionEnds, if_neg hr, if_neg h]

/-- Every admission reports its status. -/
theorem admissionEnds_finishes (hl : s.cp.lock = none) (m : Img) (r : Admission) :
    ∃ t, admissionEnds m r s = finishJob r.st t ∧ t.deferred = s.deferred ∧ t.pending = s.pending ∧ t.sec.otp = s.sec.otp := by
  by_cases hr : r.st = .ok
  · by_cases hm : m.firmware = true
    · refine ⟨_, by rw [admissionEnds_firmware hr hm, hr], ?_⟩
      rw [startFirmware_eq (s := inClear r.body s) hl]
      exact ⟨rfl, rfl, rfl⟩
    · exact ⟨{ (inClear r.body s) with sec := { s.sec with verified := true } },
        by rw [admissionEnds_stream hr (by simpa using hm), hr], rfl, rfl, rfl⟩
  · by_cases h6 : m.firmware = true ∧ r.step = 6
    · refine ⟨_, admissionEnds_untested hr h6.1 h6.2, ?_⟩
      rw [enterSafe_logOnly]
      exact ⟨rfl, rfl, rfl⟩
    · refine ⟨_, admissionEnds_fails hr h6, ?_⟩
      rw [bootBack_eq]
      exact ⟨rfl, rfl, rfl⟩

end

/-- The staged words of a decrypted body, which firmware's start in CPRAM leaves. -/
theorem startFirmware_staged {s : State} (hl : s.cp.lock = none) (v : Word) {body : List Word} (hn : body.length ≤ 131072) {i : Nat}
    (hi : i < body.length) :
    (startFirmware v body (inClear body s)).mem.word (0x20380100 + 4 * i) = body.getD i 0 := by
  rw [startFirmware_eq (s := inClear body s) hl]
  change (((inClear body s).mem.clearRange aCpram 0x20000).setWords aCpram 0 body).word (aStaging + 256 + 4 * i) = _
  have hst : aStaging = 0x20380000 := rfl
  have hcp : aCpram = 0x80000 := rfl
  rw [Memory.word_setWords_outside _ _ _ _ _ (by omega) (by omega), Memory.word_clearRange_above _ _ _ _ (by omega)]
  exact (s.mem.setWords_inside (aStaging + 256) i 0 body hi).1

theorem length_stagedImage (s : State) : (stagedImage s).length ≤ 131072 := by
  simp only [stagedImage, stagedWords, Memory.words, List.length_map, List.length_range]
  exact Nat.min_le_left ..

theorem exec_imageExecComplete_of_ends {s : State} {m : Img} {r : Admission} {n : Nat} (hl : s.cp.lock = none)
    (h : imageExecComplete s = admissionEnds m r { s with free := n }) :
    exec .imageExecComplete s = .next (admissionEnds m r { s with free := n }) := by
  obtain ⟨t, ht, _, hpend, hotp⟩ := admissionEnds_finishes (s := { s with free := n }) hl m r
  rw [ht] at h ⊢
  rw [← h]
  refine ev_of_kept ?_ ?_
  · rw [h]
    exact hpend
  · rw [h]
    exact hotp

theorem exec_imageExecComplete {s : State} (hj : s.deferred.job = some .imageExec) (hon : logicOn s = true)
    (hlost : stagedLost s = none) (hb : beatUpset 7 s = none) (hp : pllbUnlocked s = false) (hl : s.cp.lock = none)
    (ho : otpAnyLost s = false) :
    exec .imageExecComplete s = .next (admissionEnds (stagedImage s) (admitImage (stagedImage s) 524288 s).1
      { s with free := (admitImage (stagedImage s) 524288 s).2.free }) :=
  exec_imageExecComplete_of_ends hl
    ((imageExecComplete_ends hj hon hlost hb hp hl ho).trans (congrArg (admissionEnds _ _) (admitImage_free _ _ s)))

section
variable {m : Img} {r : Admission} {s : State} {n : Nat}

theorem admissionEnds_deferred (hl : s.cp.lock = none) : (admissionEnds m r { s with free := n }).deferred =
    { s.deferred with status := BitVec.ofNat 8 r.st.code, job := none } := by
  obtain ⟨t, ht, hd, _⟩ := admissionEnds_finishes (s := { s with free := n }) hl m r
  rw [ht]
  change { t.deferred with status := BitVec.ofNat 8 r.st.code, job := none } = _
  rw [hd]

theorem admissionEnds_raises (hl : s.cp.lock = none) : bit (admissionEnds m r { s with free := n }).irq.pend irqCmdDone = true := by
  obtain ⟨t, ht, _⟩ := admissionEnds_finishes (s := { s with free := n }) hl m r
  rw [ht]
  exact finishJob_raises ..

theorem admissionEnds_firmware_power (hl : s.cp.lock = none) (hr : r.st = .ok) (hm : m.firmware = true) :
    (admissionEnds m r { s with free := n }).power = { s.power with boot := .run, fwVersion := m.w 4, safeCause := 0 } := by
  rw [admissionEnds_firmware hr hm, startFirmware_eq (s := inClear r.body { s with free := n }) hl]
  rfl

theorem admissionEnds_firmware_runs (hl : s.cp.lock = none) (hr : r.st = .ok) (hm : m.firmware = true) :
    (admissionEnds m r { s with free := n }).mem.remap = true ∧ (admissionEnds m r { s with free := n }).margin.running = true ∧
    bit (admissionEnds m r { s with free := n }).irq.pend irqBootDone = true := by
  rw [admissionEnds_firmware hr hm, startFirmware_eq (s := inClear r.body { s with free := n }) hl]
  exact ⟨rfl, rfl, finishJob_raised _ (bit_setBit_true (by decide) _)⟩

theorem admissionEnds_firmware_staged (hl : s.cp.lock = none) (hr : r.st = .ok) (hm : m.firmware = true) (hn : r.body.length ≤ 131072)
    {i : Nat} (hi : i < r.body.length) :
    (admissionEnds m r { s with free := n }).mem.word (0x20380100 + 4 * i) = r.body.getD i 0 := by
  rw [admissionEnds_firmware hr hm, finishJob_mem]
  exact startFirmware_staged (s := { s with free := n }) hl (m.w 4) hn hi

theorem admissionEnds_stream_verified (hr : r.st = .ok) (hm : m.firmware = false) :
    (admissionEnds m r { s with free := n }).sec = { s.sec with verified := true } ∧
    (admissionEnds m r { s with free := n }).power = s.power := by
  rw [admissionEnds_stream hr hm]
  exact ⟨rfl, rfl⟩

theorem admissionEnds_untested_safe (hr : r.st ≠ .ok) (hm : m.firmware = true) (h6 : r.step = 6) :
    (admissionEnds m r { s with free := n }).power = { s.power with boot := .safe, safeCause := 1 } ∧
    bit (admissionEnds m r { s with free := n }).irq.pend irqBootDone = true ∧
    (admissionEnds m r { s with free := n }).flt.written = s.flt.written + 1 := by
  rw [admissionEnds_untested hr hm h6, finishJob_power, finishJob_flt, enterSafe_power, enterSafe_written]
  exact ⟨rfl, finishJob_raised _ (enterSafe_raises ..), rfl⟩

theorem admissionEnds_fails_kept (hr : r.st ≠ .ok) (h6 : r.step ≠ 6) :
    (admissionEnds m r { s with free := n }).mem = s.mem ∧ (admissionEnds m r { s with free := n }).sec = s.sec ∧
    (admissionEnds m r { s with free := n }).power =
      { s.power with boot := if s.power.boot = .verify then s.power.bootPrev else s.power.boot } := by
  rw [admissionEnds_fails hr (fun h => h6 h.2), bootBack_eq]
  exact ⟨rfl, rfl, rfl⟩

end

/-! ## BOOT_START (R318, R459, R467) -/

/-- The boot ROM reads the flash, or waits for the host (R411). -/
def romStarted (s : State) : State :=
  { s with power := { s.power with
      boot := if s.power.straps.flash then .verify else .romWait, bootPrev := .romWait, onRc := true, fwVersion := 0, safeCause := 0 } }

theorem bootRom_starts {s : State} (hb : s.power.straps.bromOk = true) (ho : s.power.straps.otpOk = true) (hl : otpAnyLost s = false) :
    bootRom s = romStarted s := by
  unfold bootRom
  dsimp only
  rw [if_neg (by simp [hb]), if_neg (by simp [ho, hl])]
  rfl

/-- A boot ROM or an OTP word that fails its check puts the device in SAFE mode (R412). -/
theorem bootRom_fails {s : State} (h : s.power.straps.bromOk = false ∨ s.power.straps.otpOk = false ∨ otpAnyLost s = true) :
    bootRom s = enterSafe (if s.power.straps.bromOk then 3 else 2) .fault (romStarted s) := by
  unfold bootRom
  dsimp only
  cases hb : s.power.straps.bromOk
  · rfl
  · rw [hb] at h
    rw [if_neg (by decide), if_pos (by simpa using h)]
    rfl

/-- The device is out of reset with its straps sampled. -/
def outOfReset (st : Straps) (s : State) : State := { s with power := { s.power with straps := st, st := .run } }

section
variable {st : Straps} {s : State}

theorem bootStart_muting (h : muting s = true) : bootStart st s = s := if_neg fun hc => by
  rw [h] at hc
  exact absurd hc.2.2 (by decide)

variable (hst : s.power.st = .reset) (ht : s.power.straps.tmode = false) (hm : muting s = false)
include hst ht hm

theorem bootStart_test (h : st.tmode = true) : bootStart st s = { s with power := { s.power with straps := st } } := by
  unfold bootStart
  rw [if_pos ⟨hst, ht, hm⟩]
  exact if_pos h

theorem bootStart_rom (h : st.tmode = false) : bootStart st s = vcmRamp .rampUp (bootRom (outOfReset st s)) := by
  unfold bootStart
  rw [if_pos ⟨hst, ht, hm⟩]
  exact if_neg (by simp [h])

theorem exec_bootStart_starts (h : st.tmode = false) (hb : st.bromOk = true) (ho : st.otpOk = true) (hl : otpAnyLost s = false) :
    exec (.bootStart st) s = .next (vcmRamp .rampUp (romStarted (outOfReset st s))) := by
  have heq : bootStart st s = vcmRamp .rampUp (romStarted (outOfReset st s)) := by
    rw [bootStart_rom hst ht hm h, bootRom_starts (s := outOfReset st s) hb ho hl]
  rw [← heq]
  refine ev_of_kept ?_ ?_ <;> rw [heq] <;> rfl

theorem exec_bootStart_fails (h : st.tmode = false) (hf : st.bromOk = false ∨ st.otpOk = false ∨ otpAnyLost s = true) :
    exec (.bootStart st) s =
      .next (vcmRamp .rampUp (enterSafe (if st.bromOk then 3 else 2) .fault (romStarted (outOfReset st s)))) := by
  have heq : bootStart st s = vcmRamp .rampUp (enterSafe (if st.bromOk then 3 else 2) .fault (romStarted (outOfReset st s))) := by
    rw [bootStart_rom hst ht hm h, bootRom_fails (s := outOfReset st s) hf]
    rfl
  rw [← heq]
  refine ev_of_kept ?_ ?_
  · rw [heq, vcmRamp_pending, enterSafe_pending]
    rfl
  · rw [heq, vcmRamp_sec, enterSafe_sec]
    rfl

end

/-! ## FLASH_BOOT (R411, Table 12.7) -/

/-- What a slot's admission comes to: the boot ROM runs only firmware. -/
def slotOutcome (m : Img) (r : Admission) : Admission := if r.st = .ok ∧ m.firmware = false then ⟨1, .unsupported, []⟩ else r

theorem slotOutcome_ok {m : Img} {r : Admission} (h : r.st = .ok ∧ m.firmware = true) : slotOutcome m r = r := by
  rw [slotOutcome, if_neg (by simp [h.2])]

theorem slotOutcome_fails {m : Img} {r : Admission} (h : ¬(r.st = .ok ∧ m.firmware = true)) : (slotOutcome m r).st ≠ .ok := by
  unfold slotOutcome
  split
  · exact fun hs => Status.noConfusion hs
  · next hn => exact fun hs => h ⟨hs, by simpa [hs] using hn⟩

theorem slotOutcome_step {m : Img} {r : Admission} (h : ¬(r.st = .ok ∧ m.firmware = true)) :
    (slotOutcome m r).step = 6 ↔ r.st ≠ .ok ∧ r.step = 6 := by
  unfold slotOutcome
  split
  · next hr => simp [hr.1]
  · next hn =>
    have hr : r.st ≠ .ok := fun hs => h ⟨hs, by simpa [hs] using hn⟩
    simp [hr]

theorem trySlot_some {s : State} (hb : beatUpset 7 s = none) (m : Img) :
    trySlot (some m) s = (some (slotOutcome m (admitImage m 0x100000 s).1), (admitImage m 0x100000 s).2) := by
  simp only [trySlot, hb]
  rfl

/-- An admission and entries reach the free values, the log and its interrupt alone. -/
def TriedOnly (s t : State) : Prop := t = { s with free := t.free, flt := t.flt, irq := { s.irq with pend := t.irq.pend } }

theorem TriedOnly.trans {s t u : State} (h : TriedOnly s t) (h' : TriedOnly t u) : TriedOnly s u := by
  unfold TriedOnly at *; rw [h', h]

theorem admitImage_triedOnly (m : Img) (room : Nat) (s : State) : TriedOnly s (admitImage m room s).2 := by
  rw [admitImage_free]
  rfl

theorem slotFailed_triedOnly (i : Nat) (r : Admission) (s : State) : TriedOnly s (slotFailed i r s) := by
  unfold slotFailed
  rw [logFault_logOnly]
  rfl

theorem slotFailed_written (i : Nat) (r : Admission) (s : State) : (slotFailed i r s).flt.written = s.flt.written + 1 :=
  logFault_written ..

theorem slotFailed_free (i : Nat) (r : Admission) (s : State) : (slotFailed i r s).free = s.free := by
  unfold slotFailed
  rw [logFault_logOnly]

/-- The end of the boot ROM's read after the slot that is tried first. -/
def oneSlotEnds (m : Img) (r : Admission) (s : State) : State :=
  if r.st = .ok then startFirmware (m.w 4) r.body s else flashBoot.bothFail (r.step == 6) (slotFailed 0 r s)

/-- Its end where a second slot, in state `v`, stands behind the first, in state `u`. -/
def twoSlotsEnd (i : Nat) (p q : Img) (x y : Admission) (u v : State) : State :=
  if x.st = .ok then startFirmware (p.w 4) x.body u
  else if y.st = .ok then startFirmware (q.w 4) y.body v
  else flashBoot.bothFail (x.step == 6 || y.step == 6) (slotFailed (1 - i) y v)

theorem romRuns_of_running {s : State} (h : running s = true) : romRuns s = true := by
  have hon : logicOn s = true := by
    unfold running at h
    unfold logicOn
    cases hst : s.power.st <;> simp [hst] at h ⊢
  simp [romRuns, hon]

/-- A beat that passes its check still does after an admission and entries. -/
theorem beatUpset_triedOnly {s t : State} (h : TriedOnly s t) {m : Nat} (hb : beatUpset m s = none) : beatUpset m t = none := by
  rw [beatUpset_eq_none] at hb ⊢
  rw [h]
  exact hb

/-- An entry for a slot changes nothing that an admission reads. -/
theorem admitImage_slotFailed (i : Nat) (r : Admission) (s : State) (m : Img) :
    (admitImage m 0x100000 (slotFailed i r s)).1 = (admitImage m 0x100000 s).1 := by
  have hs := slotFailed_triedOnly i r s
  refine admitImage_congr (slotFailed_free i r s) ?_ ?_ m 0x100000
  · rw [hs]
  · rw [hs]

section
variable {s : State} (hv : s.power.boot = .verify) (hj : s.deferred.job ≠ some .imageExec) (hrun : running s = true)
  (hp : pllbUnlocked s = false) (hb : beatUpset 7 s = none)
include hv hj hrun hp hb

theorem flashBoot_one (ws : List Word) : flashBoot (some ws) none s =
    oneSlotEnds (flashImage ws) (slotOutcome (flashImage ws) (admitImage (flashImage ws) 0x100000 s).1)
      (admitImage (flashImage ws) 0x100000 s).2 := by
  unfold flashBoot
  rw [if_pos ⟨hv, beq_eq_false_iff_ne.2 hj, romRuns_of_running hrun, hp⟩]
  simp only [Option.map_some, Option.map_none, Option.isNone_some, Option.isSome_none, Bool.false_and, Bool.or_false, Bool.false_eq_true,
    if_false, trySlot_some hb]
  rfl

/-- The second slot is tried from the state with the first one's entry, of which its admission reads nothing. -/
theorem flashBoot_two (wa wb : List Word) (i : Nat) (p q : Img)
    (hi : i = if ((flashImage wa).w 4).toNat < ((flashImage wb).w 4).toNat then 1 else 0)
    (hpi : p = if ((flashImage wa).w 4).toNat < ((flashImage wb).w 4).toNat then flashImage wb else flashImage wa)
    (hq : q = if ((flashImage wa).w 4).toNat < ((flashImage wb).w 4).toNat then flashImage wa else flashImage wb) :
    ∃ v, flashBoot (some wa) (some wb) s = twoSlotsEnd i p q (slotOutcome p (admitImage p 0x100000 s).1)
        (slotOutcome q (admitImage q 0x100000 (admitImage p 0x100000 s).2).1) (admitImage p 0x100000 s).2 v ∧
      TriedOnly s v ∧ v.flt.written = s.flt.written + 1 := by
  have hs2 := (admitImage_triedOnly p 0x100000 s).trans (slotFailed_triedOnly i (slotOutcome p (admitImage p 0x100000 s).1) _)
  have hb2 := beatUpset_triedOnly hs2 hb
  have hcongr := admitImage_slotFailed i (slotOutcome p (admitImage p 0x100000 s).1) (admitImage p 0x100000 s).2 q
  refine ⟨_, ?_, hs2.trans (admitImage_triedOnly q 0x100000 _), ?_⟩
  · unfold flashBoot
    rw [if_pos ⟨hv, beq_eq_false_iff_ne.2 hj, romRuns_of_running hrun, hp⟩]
    simp only [Option.map_some, Option.isNone_some, Option.isSome_some, Bool.false_or, Bool.true_and, decide_eq_true_eq]
    rw [← apply_ite some, ← apply_ite some, ← hpi, ← hq, ← hi, trySlot_some hb]
    dsimp only
    rw [trySlot_some hb2, hcongr]
    rfl
  · rw [admitImage_free, slotFailed_written, admitImage_free]

end

/-! ### How it ends -/

theorem bothFail_safe {b : Bool} (h : b = true) (s : State) : flashBoot.bothFail b s = enterSafe 1 .untestedCombination s := if_pos h

theorem bothFail_waits {b : Bool} (h : b = false) (s : State) :
    flashBoot.bothFail b s = raiseIrq irqSecurity { s with power := { s.power with boot := .romWait } } := if_neg (by simp [h])

theorem bothFail_kept (b : Bool) (s : State) : (flashBoot.bothFail b s).pending = s.pending ∧ (flashBoot.bothFail b s).sec = s.sec := by
  cases b
  · rw [bothFail_waits rfl]
    exact ⟨raiseIrq_pending .., raiseIrq_sec ..⟩
  · rw [bothFail_safe rfl, enterSafe_pending, enterSafe_sec]
    exact ⟨rfl, rfl⟩

/-- A slot whose firmware is untested here leaves the device in SAFE mode. -/
theorem bothFail_safe_power (u : State) :
    (flashBoot.bothFail true u).power.boot = .safe ∧ (flashBoot.bothFail true u).power.safeCause = 1 ∧
    bit (flashBoot.bothFail true u).irq.pend irqBootDone = true := by
  rw [bothFail_safe rfl, enterSafe_power]
  exact ⟨rfl, rfl, enterSafe_raises ..⟩

section
variable {s u : State} (hu : TriedOnly s u)
include hu

theorem bothFail_keeps_pending_otp (b : Bool) :
    (flashBoot.bothFail b u).pending = s.pending ∧ (flashBoot.bothFail b u).sec.otp = s.sec.otp := by
  obtain ⟨hpend, hsec⟩ := bothFail_kept b u
  rw [hpend, hsec, hu]
  exact ⟨rfl, rfl⟩

/-- Other failures leave it waiting for the host. -/
theorem bothFail_waits_power : (flashBoot.bothFail false u).power = { s.power with boot := .romWait } ∧
    bit (flashBoot.bothFail false u).irq.pend irqSecurity = true ∧ (flashBoot.bothFail false u).flt.written = u.flt.written := by
  rw [bothFail_waits rfl]
  refine ⟨?_, bit_setBit_true (by decide) _, rfl⟩
  rw [hu]
  rfl

variable (hl : s.cp.lock = none) (v : Word) (body : List Word)
include hl

theorem startFirmware_after : startFirmware v body u =
    { u with
      mem := { (s.mem.clearRange aCpram 0x20000).setWords aCpram 0 body with remap := true }
      cp := {}
      irq := { u.irq with pend := setBit u.irq.pend irqBootDone true }
      power := { s.power with boot := .run, fwVersion := v, safeCause := 0 }
      margin := { s.margin with running := true } } := by
  have hlock : u.cp.lock = none := by
    rw [hu]
    exact hl
  rw [startFirmware_eq hlock, hu]

theorem startFirmware_keeps_pending_otp : (startFirmware v body u).pending = s.pending ∧ (startFirmware v body u).sec.otp = s.sec.otp := by
  rw [startFirmware_after hu hl, hu]
  exact ⟨rfl, rfl⟩

/-- The slot's firmware runs, with REMAP set and BOOT_DONE. -/
theorem startFirmware_boots : (startFirmware v body u).power = { s.power with boot := .run, fwVersion := v, safeCause := 0 } ∧
    (startFirmware v body u).mem.remap = true ∧ bit (startFirmware v body u).irq.pend irqBootDone = true ∧
    (startFirmware v body u).flt = u.flt := by
  rw [startFirmware_after hu hl]
  exact ⟨rfl, rfl, bit_setBit_true (by decide) _, rfl⟩

end

theorem exec_flashBoot {a b : Option (List Word)} {s t : State} (h : flashBoot a b s = t)
    (hk : t.pending = s.pending ∧ t.sec.otp = s.sec.otp) : exec (.flashBoot a b) s = .next t := by
  rw [← h] at hk ⊢
  exact ev_of_kept hk.1 hk.2

theorem exec_flashBoot_one {a b : Option (List Word)} {s u : State} {m : Img} {r : Admission}
    (h : flashBoot a b s = oneSlotEnds m (slotOutcome m r) u) (hu : TriedOnly s u) (hf : u.flt = s.flt) (hl : s.cp.lock = none) :
    ∃ t, exec (.flashBoot a b) s = .next t ∧
      if r.st = .ok ∧ m.firmware = true then t.power = { s.power with boot := .run, fwVersion := m.w 4, safeCause := 0 } ∧
        t.mem.remap = true ∧ bit t.irq.pend irqBootDone = true ∧ t.flt = s.flt
      else if r.st ≠ .ok ∧ r.step = 6 then t.power.boot = .safe ∧ t.power.safeCause = 1 ∧ bit t.irq.pend irqBootDone = true
      else t.power = { s.power with boot := .romWait } ∧ bit t.irq.pend irqSecurity = true ∧
        t.flt.written = s.flt.written + 1 := by
  by_cases hr : r.st = .ok ∧ m.firmware = true
  · rw [slotOutcome_ok hr, oneSlotEnds, if_pos hr.1] at h
    obtain ⟨hpow, hmap, hbit, hflt⟩ := startFirmware_boots hu hl (m.w 4) r.body
    refine ⟨_, exec_flashBoot h (startFirmware_keeps_pending_otp hu hl ..), ?_⟩
    rw [if_pos hr]
    exact ⟨hpow, hmap, hbit, hflt.trans hf⟩
  · have hw := hu.trans (slotFailed_triedOnly 0 (slotOutcome m r) u)
    rw [oneSlotEnds, if_neg (slotOutcome_fails hr)] at h
    refine ⟨_, exec_flashBoot h (bothFail_keeps_pending_otp hw _), ?_⟩
    rw [if_neg hr]
    by_cases h6 : r.st ≠ .ok ∧ r.step = 6
    · rw [if_pos h6, beq_iff_eq.2 ((slotOutcome_step hr).2 h6)]
      exact bothFail_safe_power _
    · rw [if_neg h6, beq_eq_false_iff_ne.2 (mt (slotOutcome_step hr).1 h6)]
      obtain ⟨hpow, hbit, hwritten⟩ := bothFail_waits_power hw
      exact ⟨hpow, hbit, by rw [hwritten, slotFailed_written, hf]⟩

theorem exec_flashBoot_two {a b : Option (List Word)} {s u v : State} {i : Nat} {p q : Img} {x y : Admission}
    (h : flashBoot a b s = twoSlotsEnd i p q (slotOutcome p x) (slotOutcome q y) u v) (hu : TriedOnly s u) (hf : u.flt = s.flt)
    (hv : TriedOnly s v) (hw : v.flt.written = s.flt.written + 1) (hl : s.cp.lock = none) :
    ∃ t, exec (.flashBoot a b) s = .next t ∧
      if x.st = .ok ∧ p.firmware = true then t.power = { s.power with boot := .run, fwVersion := p.w 4, safeCause := 0 } ∧
        t.mem.remap = true ∧ bit t.irq.pend irqBootDone = true ∧ t.flt = s.flt
      else if y.st = .ok ∧ q.firmware = true then
        t.power = { s.power with boot := .run, fwVersion := q.w 4, safeCause := 0 } ∧
        t.mem.remap = true ∧ bit t.irq.pend irqBootDone = true ∧ t.flt.written = s.flt.written + 1
      else if (x.st ≠ .ok ∧ x.step = 6) ∨ (y.st ≠ .ok ∧ y.step = 6) then
        t.power.boot = .safe ∧ t.power.safeCause = 1 ∧ bit t.irq.pend irqBootDone = true
      else t.power = { s.power with boot := .romWait } ∧ bit t.irq.pend irqSecurity = true ∧
        t.flt.written = s.flt.written + 2 := by
  by_cases hx : x.st = .ok ∧ p.firmware = true
  · rw [slotOutcome_ok hx, twoSlotsEnd, if_pos hx.1] at h
    obtain ⟨hpow, hmap, hbit, hflt⟩ := startFirmware_boots hu hl (p.w 4) x.body
    refine ⟨_, exec_flashBoot h (startFirmware_keeps_pending_otp hu hl ..), ?_⟩
    rw [if_pos hx]
    exact ⟨hpow, hmap, hbit, hflt.trans hf⟩
  rw [twoSlotsEnd, if_neg (slotOutcome_fails hx)] at h
  by_cases hy : y.st = .ok ∧ q.firmware = true
  · rw [slotOutcome_ok hy, if_pos hy.1] at h
    obtain ⟨hpow, hmap, hbit, hflt⟩ := startFirmware_boots hv hl (q.w 4) y.body
    refine ⟨_, exec_flashBoot h (startFirmware_keeps_pending_otp hv hl ..), ?_⟩
    rw [if_neg hx, if_pos hy]
    exact ⟨hpow, hmap, hbit, by rw [hflt, hw]⟩
  · have hz := hv.trans (slotFailed_triedOnly (1 - i) (slotOutcome q y) v)
    have h6 : ((slotOutcome p x).step == 6 || (slotOutcome q y).step == 6) = true ↔
        (x.st ≠ .ok ∧ x.step = 6) ∨ (y.st ≠ .ok ∧ y.step = 6) := by
      rw [Bool.or_eq_true, beq_iff_eq, beq_iff_eq, slotOutcome_step hx, slotOutcome_step hy]
    rw [if_neg (slotOutcome_fails hy)] at h
    refine ⟨_, exec_flashBoot h (bothFail_keeps_pending_otp hz _), ?_⟩
    rw [if_neg hx, if_neg hy]
    by_cases hs : (x.st ≠ .ok ∧ x.step = 6) ∨ (y.st ≠ .ok ∧ y.step = 6)
    · rw [if_pos hs, h6.2 hs]
      exact bothFail_safe_power _
    · rw [if_neg hs, Bool.eq_false_iff.2 (mt h6.1 hs)]
      obtain ⟨hpow, hbit, hwritten⟩ := bothFail_waits_power hz
      exact ⟨hpow, hbit, by rw [hwritten, slotFailed_written, hw]⟩

/-! ## The obligation -/

theorem exec_imageLoad_stages {a : CmdArgs} {s : State} {off : Nat} (h : Admitted rowImageLoad a s) (hoff : off = fld (opnd a 0) 18 0)
    (hr : resv (opnd a 0) 0x7FFFF = false) (h4 : off % 4 = 0) (hn : off + 4 * (a.ops.length - 1) ≤ 524288)
    (hj : s.deferred.job ≠ some .imageExec) (hl : s.cp.lock = none) (hb : beatUpset 5 s = none) :
    ∃ t, exec (.imageLoad a) s = .next (answered 0xA0 .ok [] t) ∧ t.sec = { s.sec with verified := false } ∧
      (∀ i < a.ops.length - 1, t.mem.word (0x20380000 + off + 4 * i) = a.ops.getD (i + 1) 0) ∧
      (∀ k, k < 0x20380000 + off ∨ 0x20380000 + off + 4 * (a.ops.length - 1) ≤ k → t.mem.byte k = s.mem.byte k) ∧
      t = { s with mem := t.mem, sec := t.sec } := by
  have hlen : (a.ops.drop 1).length = a.ops.length - 1 := List.length_drop
  refine ⟨_, exec_imageLoad h hoff hr h4 hn hj hl hb, rfl, fun i hi => ?_, fun k hk => ?_, rfl⟩
  · have hw := (s.mem.setWords_inside (aStaging + off) i 0 (a.ops.drop 1) (by omega)).1
    rw [List.getD_eq_getElem?_getD, List.getElem?_drop, Nat.add_comm 1 i, ← List.getD_eq_getElem?_getD] at hw
    exact hw
  · have ha : aStaging = 0x20380000 := rfl
    exact s.mem.byte_setWords_outside (aStaging + off) k 0 _ (by omega) (by omega)

/-- Settles O51: each command and event of images and boot has its exact next state; an admission takes free values alone and a slot's
entry changes nothing that the next slot's admission reads. -/
theorem imagesAndBoot : Obligations.ImagesAndBoot := by
  unfold Obligations.ImagesAndBoot
  refine ⟨fun a s off h hoff hr h4 hn hj hl hb => exec_imageLoad_stages h hoff hr h4 hn hj hl hb,
    fun a s h => ⟨fun hf hb => ?refused, fun hb => ?begun, fun hf hb => ?verify⟩,
    fun s hj hon hlost hb hp hl ho => ⟨_, exec_imageExecComplete hj hon hlost hb hp hl ho, admissionEnds_deferred hl,
      admissionEnds_raises hl, fun hr hm => ?firmware, fun hr hm => admissionEnds_stream_verified hr hm, fun hr hm h6 => admissionEnds_untested_safe hr hm h6,
      fun hr h6 => admissionEnds_fails_kept hr h6⟩,
    fun s st _ hm => ?muting,
    fun s st hst ht hm => ⟨fun h => ?test, fun h hb ho hl => exec_bootStart_starts hst ht hm h hb ho hl,
      fun h hf => ⟨_, exec_bootStart_fails hst ht hm h hf, ?safe⟩⟩,
    fun s ws hv hj hrun hp hb hl => ?oneSlot, fun s wa wb hv hj hrun hp hb hl => ?twoSlots⟩
  case refused =>
    have hrow := execRow_body h rfl (bodyImageExec_refuses (a := a) (s := fresh s) hf hb) (by simp [rowImageExec]) (Nat.zero_le _) rfl rfl
    exact hrow
  case begun => exact execRow_hostKept h rfl (bodyImageExec_begins (a := a) (s := fresh s) hb) (by simp [rowImageExec]) rfl rfl rfl
  case verify => exact execRow_hostKept h rfl (bodyImageExec_verifies (a := a) (s := fresh s) hf hb) (by simp [rowImageExec]) rfl rfl rfl
  case firmware =>
    have hbody := (admitImage_body (stagedImage s) 524288 s).trans (length_stagedImage s)
    obtain ⟨hmap, hrun, hbit⟩ := admissionEnds_firmware_runs hl hr hm
    exact ⟨admissionEnds_firmware_power hl hr hm, hmap, hrun, fun i hi _ _ => admissionEnds_firmware_staged hl hr hm hbody hi, hbit⟩
  case muting =>
    have h := bootStart_muting (st := st) hm
    change ev s (bootStart st s) = _
    rw [h]
    exact ev_of_kept rfl rfl
  case test =>
    have hs := bootStart_test hst ht hm h
    change ev s (bootStart st s) = _
    rw [hs]
    exact ev_of_kept rfl rfl
  case safe =>
    rw [vcmRamp_power, vcmRamp_flt, vcmRamp_irq, enterSafe_power, enterSafe_written]
    refine ⟨rfl, rfl, ?_, enterSafe_raises .., rfl⟩
    cases st.bromOk <;> rfl
  case oneSlot =>
    exact exec_flashBoot_one (flashBoot_one hv hj hrun hp hb ws) (admitImage_triedOnly ..) (by rw [admitImage_free]) hl
  case twoSlots =>
    obtain ⟨v, hends, htried, hwritten⟩ := flashBoot_two hv hj hrun hp hb wa wb _ _ _ rfl rfl rfl
    exact exec_flashBoot_two hends (admitImage_triedOnly ..) (by rw [admitImage_free]) htried hwritten hl

end Sys2Proof.Machine
end
